-- ==== Sys2Proof/Word.lean ====
section
/-!
DEFINITION. Word.lean: the widths of the spec's data (a dword is 32 bits, a byte 8, R5) and sparse storage.
-/

namespace Sys2Proof

/-- A dword, the width of every register. -/
abbrev Word := BitVec 32

/-- A byte. -/
abbrev Byte := BitVec 8

/-- A beat number, 58 bits in the device (R34). -/
abbrev Beat := Nat

/-- A sparse table: key and value pairs, keys strictly rising in canonical form. -/
abbrev Store (α : Type) := List (Nat × α)

namespace Store

variable {α : Type}

/-- The value listed at a key. -/
def get? : Store α → Nat → Option α
  | [], _ => none
  | (k, v) :: m, a => if k = a then some v else get? m a

/-- The value listed at a key, or what an unlisted key stands for. -/
def getD (m : Store α) (a : Nat) (d : α) : α := (m.get? a).getD d

/-- List a value at a key, in key order. -/
def put : Store α → Nat → α → Store α
  | [], a, x => [(a, x)]
  | (k, v) :: m, a, x =>
    if k = a then (a, x) :: m
    else if a < k then (a, x) :: (k, v) :: m
    else (k, v) :: put m a x

/-- Unlist a key. -/
def del : Store α → Nat → Store α
  | [], _ => []
  | (k, v) :: m, a => if k = a then del m a else (k, v) :: del m a

/-- Store a value at a key where `d` is what an unlisted key stands for: the canonical form never lists `d`. -/
def setD [DecidableEq α] (m : Store α) (a : Nat) (d x : α) : Store α :=
  if x = d then m.del a else m.put a x

/-- The keys rise strictly. -/
abbrev Rising (m : Store α) : Prop := (m.map Prod.fst).Pairwise (· < ·)

/-- The canonical form over the unlisted value `d`. -/
abbrev Canonical [DecidableEq α] (d : α) (m : Store α) : Prop :=
  Rising m ∧ ∀ e ∈ m, e.2 ≠ d

end Store

end Sys2Proof
end

