-- ==== Sys2Proof/Syntax.lean ====
section
/-!
DEFINITION. Syntax.lean: the commands of the block, one constructor of `Instr` per row of spec/opcode_table.json
(LAWS.json maps each to its mnemonic), and the operand types they carry. A command is an event at the device's edge or
a step of its own hardware; an operand carries what the outside world or an analogue or firmware part supplies with it.
-/

namespace Sys2Proof

/-- The two RF ports (R116). -/
inductive RfPort where
  | s | w
  deriving DecidableEq, Repr

/-- Port S is 0 and Port W is 1 where an index is needed. -/
def RfPort.idx : RfPort → Nat
  | .s => 0
  | .w => 1

/-- The two Ethernet ports. -/
inductive EthPort where
  | p0 | p1
  deriving DecidableEq, Repr

/-- P0 is 0 and P1 is 1 where an index is needed. -/
def EthPort.idx : EthPort → Nat
  | .p0 => 0
  | .p1 => 1

/-- The four transmit chains (R122). -/
inductive Chain where
  | ts0 | ts1 | tw0 | tw1
  deriving DecidableEq, Repr

/-- The port of a chain. -/
def Chain.port : Chain → RfPort
  | .ts0 | .ts1 => .s
  | .tw0 | .tw1 => .w

/-- The number of a chain within its port. -/
def Chain.n : Chain → Nat
  | .ts0 | .tw0 => 0
  | .ts1 | .tw1 => 1

/-- A chain's number within the device: TS0, TS1, TW0, TW1. -/
def Chain.idx : Chain → Nat
  | .ts0 => 0
  | .ts1 => 1
  | .tw0 => 2
  | .tw1 => 3

/-- The two host interfaces (R634 IFACE). -/
inductive HostIface where
  | pcie | spi
  deriving DecidableEq, Repr

/-- The number HIF_ACCERR.IFACE and the journal's SOURCE give an interface (R623, R634). -/
def HostIface.code : HostIface → Nat
  | .pcie => 0
  | .spi => 1

/-- An ECC error a read meets: corrected, or uncorrectable. -/
inductive EccFault where
  | corrected | uncorrectable
  deriving DecidableEq, Repr

/-- The moment of a register write: what the registers that need it take from the world with it. -/
structure Moment where
  off : Fin 1000000            -- ns since the start of the beat
  sample : BitVec 64           -- DSP sample index
  edges : BitVec 40            -- TIME clock edges since device time was last brought up to date
  ticks : BitVec 40            -- ticks of XTAL32 since the AON count was last brought up to date
  upset : Bool                 -- the slot a SLOT_VERIFY_TAG names has an upset
  ecc : Option EccFault        -- a table lookup finds its entry with an error
  deriving DecidableEq, Repr

/-- The guarded registers (R6, R609). -/
inductive GuardReg where
  | tkRearm | modeForce | pwrReset | zeroise | tamperClr | fuseProg | fuseAdvance | roleOvr | recovery
  deriving DecidableEq, Repr

/-- The dwords of a guard block behind X (R609): X+0x4, X+0x8 and X+0xC. -/
inductive GuardPart where
  | complement | result | reserved
  deriving DecidableEq, Repr

/-- The PCIe link while it is up, and the MSI-X control of its configuration space (R629, R634). -/
structure PcieLink where
  gen : Fin 3                  -- 0 Gen1, 1 Gen2, 2 Gen3
  wide : Bool                  -- two lanes
  msixEn : Bool
  funcMask : Bool
  deriving DecidableEq, Repr

/-- A test of R500 that failed, with its target. -/
inductive TestFail where
  | logicBist (pe : Fin 16)
  | memoryBist (pe : Fin 16)
  | ldpc (core : Fin 8)
  | cipher (core : Fin 8)
  | ecdsa
  | loopback (chain : Chain)
  | voter
  deriving DecidableEq, Repr

/-- What VBAT_AON still holds: its operating range, at least 1.7 V, or less (R526, R645, R646). -/
inductive VbatLevel where
  | full | low | lost
  deriving DecidableEq, Repr

/-- The straps sampled as RESET_n deasserts (R7, R553 step 1). -/
structure Straps where
  rcvrLow : Bool
  roleB : Bool
  deriving DecidableEq, Repr

/-- The triplicated units of R468 whose copies a TMR event names. -/
inductive TmrUnit where
  | sequencer | modeController | pairState | tether | aliveDriver | tamperLatch | lifecycle
  deriving DecidableEq, Repr

/-- Who issues an operation to an accelerator: an engine thread, or a hardware fast path (R49). -/
inductive OpSource where
  | engine (pe : Fin 16) (thread : Fin 4)
  | fast
  deriving DecidableEq, Repr

/-- Who works on a queue (R295): a hardware port, or a Spool thread at its engine's port. -/
inductive QueuePort where
  | hard (code : Fin 10)
  | spool (pe : Fin 16) (thread : Fin 4)
  deriving DecidableEq, Repr

/-- A word offered to a queue (R297), with whether a parity failure lies in the tag itself so that F cannot be
trusted (R303). -/
structure WordIn where
  data : BitVec 64
  tag : BitVec 8
  par : Bool
  tagBad : Bool
  deriving DecidableEq, Repr

/-- A storage upset of a word on its way to the consumer (R311). -/
inductive WordUpset where
  /-- PAR fails where the word leaves the die's words. -/
  | parity
  /-- The word came from a page with an uncorrectable DRAM error (R290). -/
  | dram
  deriving DecidableEq, Repr

/-- How a table operation reaches its table: the command register, a command of the ring, or an engine with its staged
data and the data SRAM address of its result. -/
inductive Via where
  | register (iface : HostIface)
  | ring (index : Fin 4096)
  | engine (pe : Fin 16) (thread : Fin 4) (data : BitVec 128) (out : BitVec 18)
  deriving DecidableEq, Repr

/-- A host's command: through the block's command register, or the taken command of a ring index. -/
inductive HostVia where
  | register (iface : HostIface)
  | ring (index : Fin 4096)
  deriving DecidableEq, Repr

/-- What the demapper holds of one symbol (R181), in one unit of its context: y, the on- and off-levels, and sigma2 less
one unit squared. In an equalising context the unit is 1/65,536 of the equaliser's output. -/
structure Soft where
  y : BitVec 32
  mu1 : BitVec 32
  mu0 : BitVec 32
  sigma : BitVec 64
  deriving DecidableEq, Repr

/-- What a context measures of itself at a detection (R172, R174): the frame start its timing gives, the last sample of
its correlation window, the normalised peak in 1/256, and levels at the ball in dBm × 4 with the offset in 100 Hz. -/
structure Detection where
  start : BitVec 64
  window : BitVec 64
  peak : BitVec 8
  level : BitVec 16
  noise : BitVec 16
  freq : BitVec 16
  deriving DecidableEq, Repr

/-- How the routing role answers an admitted join request (R228–R230). -/
inductive JoinOutcome where
  | waiting
  | refuse
  | accept (nsa parent : BitVec 24) (period : BitVec 16)
  deriving DecidableEq, Repr

/-- A whole-record operation of an engine role (R249). -/
inductive RecordOp where
  | change (nsa : BitVec 24) (off : Fin 248) (bytes : List Byte)
  | create (nsa : BitVec 24) (bytes : List Byte)
  | free (number : BitVec 20)
  deriving DecidableEq, Repr

/-- What air policy chooses for a downlink frame (R267, R278): the band where the rules leave it open, a flow of the
frame's class, a decoder, and a power class. -/
structure Pick where
  band : RfPort
  flow : Fin 64
  decoder : Fin 80
  cls : Fin 4
  deriving DecidableEq, Repr

/-- A reception as the Buesque Link carries it (R482, R484): its descriptor, END in ns of device time, and its bits. -/
structure AirRx where
  decoder : Fin 80
  length : BitVec 10
  beacon : Bool
  stopNs : BitVec 64
  rssi : BitVec 16
  noise : BitVec 16
  freq : BitVec 16
  flags : BitVec 8
  erased : BitVec 16
  bytes : List Byte
  deriving DecidableEq, Repr

/-- One entry of an input record (R482), by KIND. The bodies are internal to the part: these hold what each is for. -/
inductive RecEntry where
  /-- 0x01: a reception with its bound beat. -/
  | air (rx : AirRx)
  /-- 0x02: a diversity reception accepted. -/
  | diversity (rx : AirRx)
  /-- 0x03: a PLE message that reached a port from a headend. -/
  | ple (port : EthPort) (headend : Fin 16) (mac : BitVec 48) (vid : BitVec 12) (message : List Byte)
  /-- 0x04: a host command's 64 bytes. -/
  | host (iface : HostIface) (index : Fin 4096) (bytes : List Byte)
  /-- 0x05: a timer expiry. -/
  | timer (gt : Fin 8)
  /-- 0x05: a poll window of a sleepy child that ended without a POLL. -/
  | pollMiss (node : BitVec 24)
  /-- 0x06: an operation that completed LATE. -/
  | late (pe : Fin 16) (slot : Fin 64)
  /-- 0x06: a received frame whose link check, or end-to-end check, completed LATE. -/
  | lateFrame (decoder : Fin 80) (stopNs : BitVec 64) (e2e : Bool)
  /-- 0x07: an ACK armed and not sent, with its reason of R207. -/
  | ackDrop (node : BitVec 24) (reason : Fin 5)
  /-- 0x08: the outcome of a frame's channel assessment, its end in ns of device time, and the backoff drawn. -/
  | cca (chain : Chain) (idle : Bool) (stopNs : BitVec 64) (draw : Fin 256)
  /-- 0x09: a key the ageing sweep deleted. -/
  | swept (table : Fin 4) (key : BitVec 60)
  /-- 0x0A: an Envelope read that failed. -/
  | envFail (addr : BitVec 32)
  /-- 0x0B: an uplink selection. -/
  | selected (port : EthPort) (cls : Fin 8)
  /-- 0x0B: the colour given to the next packet policed in an uplink class, 8p + c. -/
  | policed (cls : Fin 16) (colour : Fin 3)
  /-- 0x0B: a shaped class's credit at the end of the beat. -/
  | credit (cls : Fin 16) (c : BitVec 48)
  /-- 0x0C: a chain's state at the commit instant. -/
  | chainState (chain : Chain) (state : Fin 8) (channel : BitVec 8)
  /-- 0x0D: a queue's HEAD at the boundary. -/
  | head (queue : Fin 4096) (value : BitVec 32)
  /-- 0x0E: TRACE and the servo's state. -/
  | trace (on : Bool) (state : Fin 4)
  /-- 0x0F: an epoch roll. -/
  | epochRoll (epoch : BitVec 16)
  /-- 0x10: a radio loopback's placement. -/
  | loopback (chain : Chain)
  deriving DecidableEq, Repr

/-- What a HELLO frame tells of its sender (R487). -/
structure Hello where
  chip : BitVec 32
  fwVersion : BitVec 32
  cfgHash : BitVec 256
  kcv : List (BitVec 64)
  roleA : Bool
  deriving DecidableEq, Repr

/-- A committed packet of a queue, as bulk sync carries it. -/
structure PacketIn where
  start : BitVec 32
  stop : BitVec 32
  beat : BitVec 58
  acct : BitVec 16
  colour : Fin 3
  decoder : Option (Fin 80)
  cls : Fin 4
  length : Fin 1025
  retries : BitVec 8
  headend : Option (Fin 16)
  deriving DecidableEq, Repr

/-- An entry of a committed transmit plan, as bulk sync carries it. -/
structure PlanIn where
  chain : Chain
  queue : Option (Fin 4096)
  start : BitVec 32
  nsa : BitVec 24
  decoder : Fin 80
  cls : Fin 4
  length : Fin 1025
  x : BitVec 64
  planned : BitVec 64
  latest : BitVec 64
  deriving DecidableEq, Repr

/-- What a BULK frame carries (R480, R488). The bodies are internal to the part: these hold what each is for. -/
inductive BulkItem where
  /-- The copy starts: the joining unit forgets its own shadowed state. -/
  | begin
  /-- A non-root slot, its key wrapped under PAIR_WRAP. -/
  | slot (n : Fin 1024) (attr : BitVec 32) (parent gen : BitVec 16) (blob : List Byte)
  | epoch (e : BitVec 16)
  | counters (bcast join : BitVec 32)
  /-- Bytes of the Envelope regions that are shadowed. -/
  | block (addr : BitVec 32) (bytes : List Byte)
  /-- A 1,024-entry block of a table. -/
  | table (n : Fin 4) (block : BitVec 8) (entries : List (BitVec 128))
  /-- A queue's pointers, its words from HEAD to CPTR, and its packets. -/
  | queue (n : Fin 4096) (head tail : BitVec 32) (words : List (BitVec 64 × BitVec 8)) (packets : List PacketIn)
  | virt (domain : Fin 4) (v : BitVec 48)
  /-- A flow's F_last, the finish times of its stamped packets, and its packets selected and done with. -/
  | flow (domain : Fin 4) (f : Fin 64) (last : BitVec 48) (stamps : List (BitVec 32 × BitVec 48))
      (selected finished : List (BitVec 32))
  /-- An entry of the plan of the beat at which shadowing starts. -/
  | plan (e : PlanIn)
  | credit (cls : Fin 16) (c : BitVec 48)
  | buckets (cls : Fin 16) (tc tp : BitVec 32)
  | duty (port : RfPort) (region : Fin 16) (beats : BitVec 32) (buckets : List (BitVec 40))
  | rseq (headend : Fin 16) (n : BitVec 16)
  /-- SEQ of a headend's UPLINK messages (R276). -/
  | uplinkSeq (headend : Fin 16) (n : BitVec 32)
  /-- Pending buffers in use. -/
  | pool (used : List (BitVec 20))
  /-- An open entry of the Bridle of reports. -/
  | bridle (code : BitVec 8) (subject : BitVec 24) (count : BitVec 32) (first : BitVec 24) (firstBeat lastBeat : BitVec 58)
      (detail : BitVec 64) (window : BitVec 32)
  /-- A listen window. -/
  | listen (nsa : BitVec 24) (openNs closeNs : BitVec 64) (opened : Bool) (listenMs : BitVec 16) (decoder : Fin 80)
  /-- A frame waiting out its backoff in its queue or list. -/
  | deferred (queue : Option (Fin 4096)) (start : BitVec 32) (nb be : BitVec 8) (stopNs : BitVec 64)
  /-- A frame that waits for its ACK. -/
  | wait (e : PlanIn) (channel : BitVec 8) (rate : Fin 4) (ctr : BitVec 32) (mic : List Byte) (stopNs : BitVec 64)
  /-- A beacon queued and not started. -/
  | beacon (decoder : Fin 80) (nominal : BitVec 58) (queue : Fin 4096) (start : BitVec 32)
  /-- An admission in progress. -/
  | admitting (eui : BitVec 64) (relay : BitVec 24) (mesh : Bool) (origin : BitVec 24) (port : RfPort) (decoder : Fin 80)
      (beat : BitVec 58)
  /-- A join accepted. -/
  | joined (eui : BitVec 64) (nsa parent : BitVec 24) (period : BitVec 16) (seconds : BitVec 48)
  /-- The journal's next sequence number and its oldest entry. -/
  | journal (next oldest : BitVec 32)
  /-- The last block: shadowing starts at this beat. -/
  | start (beat : BitVec 32)
  deriving DecidableEq, Repr

/-- A TETHER's fields (R473). -/
structure TetherIn where
  beat : BitVec 32
  pstate : Fin 9
  mode : Fin 12
  score : BitVec 8
  flags : BitVec 8
  last : BitVec 32
  compared : BitVec 32
  deriving DecidableEq, Repr

/-- A re-execution's verdict (R491). -/
inductive Verdict where
  | consistent | inconsistent | inconclusive
  deriving DecidableEq, Repr

/-- Whose key a cipher operation names, and between whom (R369). -/
inductive KeyName where
  | link (nsa : BitVec 24)
  | e2e (nsa : BitVec 24)
  | join (eui : BitVec 64)
  | bcast
  | mesh
  deriving DecidableEq, Repr

/-- One end of an Envelope copy (R49). -/
inductive CopySide where
  | envelope (addr : BitVec 32)
  | sram (addr : BitVec 18)
  deriving DecidableEq, Repr

/-- What an update session transfers (R566). -/
inductive UpdateKind where
  | firmware | config | fwDelta | cfgDelta
  deriving DecidableEq, Repr

/-- The KIND of R547. -/
def UpdateKind.code : UpdateKind → Nat
  | .firmware => 1
  | .config => 2
  | .fwDelta => 4
  | .cfgDelta => 5

/-- The parameters of CAMPAIGN_CREATE (R587). -/
structure CampParams where
  rounds : BitVec 8
  queued : BitVec 8
  rebcastMin : BitVec 16
  repairMax : BitVec 8
  sleepyMax : BitVec 8
  reportWait : BitVec 32
  progress : BitVec 32
  deadline : BitVec 32
  deriving DecidableEq, Repr

/-- The commands, one per row of spec/opcode_table.json. -/
inductive Instr where
  /-- R648: The internal power-on reset ends 2 ms after every rail is in range; with RESET_n high the device leaves COLD for ROM. -/
  | powerOnResetRelease (straps : Straps) (ticks : BitVec 40)
  /-- R646: Supplies leave their range or VBAT_AON falls below 1.7 V, so the device drops to COLD and the pair pull is released. -/
  | supplyLoss (rails : Bool) (vbat : VbatLevel) (ticks : BitVec 40)
  /-- R648: RESET_n held low for at least 1 µs stops the sequencer at once, discards outstanding work and releases PAIR_ALIVE. -/
  | resetNAssert
  /-- R510: RESET_n is released from any mode but COLD and the device enters ROM and starts the boot ROM flow. -/
  | resetNRelease (straps : Straps) (ticks : BitVec 40)
  /-- R553: The ROM flow completes: registers are written, engines are loaded and the next mode is chosen. -/
  | bootDone (flashOk epochOk : Bool) (ms : BitVec 32)
  /-- R648: PERST_n changes; it resets only the PCIe endpoint and drops or allows the link. -/
  | perstNEdge (high : Bool)
  /-- R597: The PCIe link comes up or drops and retrains, updating HIF_STATUS and raising HIF_LINK_CHANGE. -/
  | pcieLinkChange (link : Option PcieLink)
  /-- R43: On entry to a mode with a running sequencer, the first beat starts at the next whole millisecond of device time. -/
  | sequencerStart (sample : BitVec 64)
  /-- R35: Device time reaches a whole millisecond; the boundary is stamped with its sample index and beat n opens its plan window. -/
  | beatBoundary (sample : BitVec 64) (used : List (BitVec 21)) (unfinished : List (Fin 16)) (ticks : BitVec 40)
  /-- R37: At 200 µs the plan window closes, fixing the candidates for the plan of beat n + 1, and the work window opens. -/
  | planWindowClose
  /-- R38: The bind line passes and later inputs are bound to the next beat. -/
  | bindLine
  /-- R59: At 950 µs outstanding beat operations complete LATE, unfinished tasks take their fallbacks and commit work runs. -/
  | commitWindowOpen (unfinished : List (Fin 16)) (cls : Fin 4) (upsets : List (BitVec 24)) (torn : List (Fin 1024)) (entries : List (Fin 4 × BitVec 18 × EccFault))
  /-- R468: A copy of triplicated logic disagrees; the voted output is used, or HOLD is entered when no two copies agree. -/
  | tmrCopyUpset (part : TmrUnit) (agree : Bool)
  /-- R42: A disagreeing copy is reloaded from the majority at the next cycle and the correction is counted and raised. -/
  | tmrCopyReload
  /-- R48: An engine SRAM ECC error is corrected and counted, or faults the engine, ending its operations LATE. -/
  | engineSramError (pe : Fin 16) (uncorrectable : Bool)
  /-- R48: A faulted engine is reloaded and returns to its role at the second boundary after the error. -/
  | engineRestored (pe : Fin 16)
  /-- R522: Engines gated in DOZE return to their roles at the third boundary after exit. -/
  | dozeEnginesReturn
  /-- R182: An engine requests a new decode of a codeword whose LLRs are still buffered. -/
  | ldpcRedecode (pe : Fin 16) (thread : Fin 4) (frame : BitVec 32) (codeword : Fin 16) (limit : Fin 33) (out : BitVec 18)
  /-- R391: An engine issues a CCM seal, which takes the next counter for the key and the nonce of R388. -/
  | ccmSeal (pe : Fin 16) (thread : Fin 4) (key : KeyName) (addr : BitVec 18) (len : Fin 1025) (out : BitVec 18)
  /-- R387: An engine issues a CCM open; on MIC failure every output buffer is zeroed. -/
  | ccmOpen (pe : Fin 16) (thread : Fin 4) (key : KeyName) (addr : BitVec 18) (len : Fin 1025) (out : BitVec 18)
  /-- R366: An engine issues a key derivation under a parent key and a 32-byte label, using the derived-key cache. -/
  | kdfDerive (pe : Fin 16) (thread : Fin 4) (slot : Fin 1024) (label : BitVec 256)
  /-- R364: An engine issues a CMAC over a buffer. -/
  | cmacCompute (pe : Fin 16) (thread : Fin 4) (slot : Fin 1024) (addr : BitVec 18) (len : BitVec 18) (out : BitVec 18)
  /-- R364: An engine issues a SHA-256 block operation. -/
  | sha256Block (pe : Fin 16) (thread : Fin 4) (state block out : BitVec 18)
  /-- R365: An engine issues a P-256 signature verification on the verifier. -/
  | ecdsaVerify (pe : Fin 16) (thread : Fin 4) (key sig hash : BitVec 18)
  /-- R273: The route-walk engine builds a source route from the Directory PARENT fields. -/
  | routeWalk (pe : Fin 16) (thread : Fin 4) (final : BitVec 24) (out : BitVec 18)
  /-- R339: An engine registers an air packet's decoder, power class and length with the planner. -/
  | placementRequest (pe : Fin 16) (thread : Fin 4) (queue : Fin 4096) (start : BitVec 32) (decoder : Fin 80) (cls : Fin 4) (length : Fin 1025)
  /-- R49: An engine queries the air planner. -/
  | planQuery (pe : Fin 16) (thread : Fin 4) (out : BitVec 18)
  /-- R311: An engine copies between Envelope regions and its data SRAM, carrying poison. -/
  | envelopeCopy (pe : Fin 16) (thread : Fin 4) (src dst : CopySide) (len : BitVec 19)
  /-- R363: A queued cipher operation is taken by the lowest free AES core, in order of bound beat. -/
  | cipherDispatch (upset : Bool)
  /-- R53: An accelerator completes an operation and writes a completion entry to the issuing engine's ring. -/
  | opCompletion (pe : Fin 16) (slot : Fin 48) (bad : List (BitVec 32))
  /-- R51: Firmware takes a completion entry, which frees its tag and can wake a thread waiting for a tag. -/
  | completionTake (pe : Fin 16) (slot : Fin 48)
  /-- R67: A write to BT_BEAT_REQ snapshots the current beat number and its boundary sample index. -/
  | beatSnapshotReq (iface : HostIface)
  /-- R514: VDD_ENG reads within ±2 % of target for 1 µs and the level change continues. -/
  | vddEngSettled
  /-- R515: VDD_ENG has not settled by VSETTLE_US, so the change is reversed and LEVEL_FAILED is raised. -/
  | vsettleTimeout
  /-- R517: The level change ends, engines resume and LEVEL_CHANGED is raised. -/
  | levelChangeDone
  /-- R120: A write to RFx_RXCAL requests a receive recalibration, or is refused with BUSY while RX_CAL is 1. -/
  | rxRecalRequest (iface : HostIface) (port : RfPort) (value : BitVec 32)
  /-- R151: A write to RFx_SLICE moves the slice or switches the port, starting a recalibration or ending sequences. -/
  | sliceWrite (iface : HostIface) (port : RfPort) (value : BitVec 32) (off : Fin 1000000) (sample : BitVec 64)
  /-- R120: Once any running transmit sequence has finished, recalibration step 1 starts, the port blanks and frames abort with PORT_OFF. -/
  | rxRecalStart (port : RfPort) (off : Fin 1000000) (sample : BitVec 64)
  /-- R119: Step 5 of the receive recalibration ends, the step table is measured and blanking ends. -/
  | rxRecalDone (port : RfPort) (off : Fin 1000000) (sample : BitVec 64) (locked : Bool) (steps : List (BitVec 10)) (us : BitVec 16)
  /-- R121: The receive synthesiser loses lock; the port blanks, frames abort and recalibration runs. -/
  | rxSynthUnlock (port : RfPort) (off : Fin 1000000) (sample : BitVec 64)
  /-- R123: A chain confirms lock after calibration and a held command proceeds. -/
  | txLockConfirmed (chain : Chain) (us : BitVec 16)
  /-- R125: Calibration without lock after 200 µs fails; the chain retries once, then enters FAULT. -/
  | txCalTimeout (chain : Chain)
  /-- R126: A chain loses lock while transmitting; it ramps down with RAMP0 and the frame is requeued with UNLOCK_ABORT. -/
  | txSynthUnlock (chain : Chain)
  /-- R127: A write to RFx_TXn_CTL.EN ends a running frame with CHAIN_OFF, or clears FAULT and starts calibration. -/
  | txChainEnWrite (iface : HostIface) (chain : Chain) (value : BitVec 32)
  /-- R128: At decision instant D a held frame without lock takes LATE_SYNTH and is requeued; an ACK is not sent. -/
  | txHoldDecision (chain : Chain) (off : Fin 1000000)
  /-- R199: A 128 µs clear-channel assessment begins before a transmission. -/
  | ccaStart (chain : Chain)
  /-- R200: The CCA is judged; a clear channel starts the sequence and a busy one draws a backoff or ends in CHANNEL_BUSY or CCA_DEFER. -/
  | ccaEnd (chain : Chain) (off : Fin 1000000) (power : BitVec 16) (draw : Fin 256)
  /-- R201: A drawn backoff ends and the next CCA runs. -/
  | backoffExpiry (chain : Chain)
  /-- R131: At X TRS_SEL goes to TX, PA_MODE takes the class code and blanking starts. -/
  | txSequenceStart (chain : Chain) (ack : Bool) (off : Fin 1000000) (sample : BitVec 64)
  /-- R131: PA_EN goes active T_TR after X. -/
  | txPaEnable (chain : Chain)
  /-- R132: The carrier ramp-up begins along the frame's ramp profile. -/
  | txRampUpStart (chain : Chain) (off : Fin 1000000)
  /-- R83: The ramp reaches the on level and the first preamble symbol is sent. -/
  | txFrameStart (chain : Chain) (upset : Bool)
  /-- R131: The last payload symbol ends, ramp-down starts and the readback CRC is checked. -/
  | txFrameEnd (chain : Chain) (off : Fin 1000000) (readback : Bool)
  /-- R144: Ramp-down ends and the frame's airtime is added to its duty regions. -/
  | txRampDownEnd (chain : Chain) (off : Fin 1000000)
  /-- R131: PA_EN goes inactive and PA_MODE returns to 0b00. -/
  | txPaDisable (chain : Chain)
  /-- R131: TRS_SEL returns to RX and LNA_BYP returns to the AGC's state. -/
  | txTrReturn (chain : Chain)
  /-- R134: Blanking ends after RX_RECOVER, and the port announces the last blanked sample. -/
  | txBlankEnd (port : RfPort) (off : Fin 1000000) (sample : BitVec 64)
  /-- R140: CXx_REQ and CXx_PRI go active LEAD before X. -/
  | cxRequestRaise (chain : Chain) (ack : Bool)
  /-- R141: GNT is sampled CHECK before X; a denial requeues the frame with CX_DENIED. -/
  | cxGrantSample (chain : Chain) (granted : Bool)
  /-- R142: GNT is withdrawn after X and the frame completes or aborts with CX_ABORT per MIDFRAME. -/
  | cxGrantWithdrawn (port : RfPort)
  /-- R140: REQ and PRI go inactive HOLD after the return edge. -/
  | cxRelease (port : RfPort)
  /-- R144: A region's current bucket closes and its oldest bucket drops out of the usage sum. -/
  | dutyBucketAdvance (port : RfPort) (region : Fin 16)
  /-- R147: A write changing a region's band or window clears its history and raises RF_DUTY_RESET. -/
  | dutyRegionWrite (iface : HostIface) (port : RfPort) (region : Fin 16) (band : Bool) (value : BitVec 32)
  /-- R165: Clipping triggers an attack of ATTACK_STEPS, or a CLIP record and RF_OVERLOAD at G = 0. -/
  | agcClipAttack (port : RfPort) (sample clip : BitVec 64) (samples : Fin 65) (peak : Fin 2048)
  /-- R165: An RMS measurement steps the gain down, or requests a release that may be deferred. -/
  | agcLevelDecision (port : RfPort) (sample : BitVec 64) (long : Bool) (rms : BitVec 16)
  /-- R166: A deferred release proceeds when no context is in a frame, or after DEFER_MAX. -/
  | agcReleaseDeferEnd (port : RfPort) (sample : BitVec 64) (expired : Bool)
  /-- R168: At S_EFF the VGA switches and LNAx_BYP switches with its lead. -/
  | gainStepEffective (port : RfPort)
  /-- R168: A clipped span at G = 0 ends and its CLIP record is issued. -/
  | clipSpanEnd (port : RfPort) (last : BitVec 64)
  /-- R170: A decoder applies an announcement record: it erases symbols, compensates frozen contexts and handles blanking spans. -/
  | announceRecordApply (decoder : Fin 80) (seq : BitVec 8) (processed : BitVec 64) (reports : List (BitVec 16))
  /-- R172: P detects a preamble, freezes its fast AGC, estimates levels and starts the watch. -/
  | preambleDetect (decoder : Fin 80) (found : Detection)
  /-- R174: The watch context W detects a preamble and acquires alongside P or replaces it. -/
  | watchDetect (decoder : Fin 80) (found : Detection)
  /-- R173: A context matches the sync word within SFD_ERR and starts header decoding. -/
  | sfdMatch (decoder : Fin 80) (watch : Bool) (word : BitVec 32) (start : BitVec 64)
  /-- R173: No SFD matched within SFD_WAIT symbols and the context ends with SFD_TIMEOUT. -/
  | sfdTimeout (decoder : Fin 80) (watch : Bool)
  /-- R173: The PHY header is decoded and judged under R89, and the frame end is computed. -/
  | headerDecoded (decoder : Fin 80) (watch : Bool) (block : BitVec 32)
  /-- R176: A codeword's last symbol passes and its decode request is bound and issued. -/
  | codewordEnd (decoder : Fin 80) (soft : List Soft)
  /-- R176: The frame's last symbol passes and P returns to search. -/
  | rxFrameEnd (decoder : Fin 80)
  /-- R186: A queued decode request is taken by the lowest free LDPC core. -/
  | ldpcDispatch
  /-- R184: A core returns OK on a zero syndrome or FAIL at the iteration limit. -/
  | ldpcDecodeDone (core : Fin 8) (hard : BitVec 1152) (iterations : Fin 33)
  /-- R198: A write to RXD_CHn_CFG ends the channel's contexts with CHANNEL_OFF and restarts search. -/
  | decoderCfgWrite (iface : HostIface) (decoder : Fin 80) (value : BitVec 32)
  /-- R194: Clearing LATE_EN stops running watches and ends a detected watch with WATCH_LOST. -/
  | captureCfgWrite (iface : HostIface) (value : BitVec 32)
  /-- R211: The MAC unit takes a descriptor with STATUS OK, descrambles, checks the FCS and structure, and requests the node record. -/
  | macFrameReceived
  /-- R211: The source record arrives; the frame drops with NO_RECORD or LINK_STALE, or goes on to the link key. -/
  | macRecordFetched (index : Fin 256) (bad : Bool)
  /-- R211: The link key is obtained or found unavailable (NO_KEY) and the MIC check is issued. -/
  | macLinkKeyReady (index : Fin 256)
  /-- R212: The link MIC result arrives; the replay check updates the record atomically and the outcome is applied. -/
  | macLinkMicDone (index : Fin 256) (off : Fin 1000000)
  /-- R215: The end-to-end MIC and window check of a frame for the router completes: accept, DUP, OLD or E2E_MIC. -/
  | macE2eCheckDone (index : Fin 256) (bad : Bool)
  /-- R209: No ACK arrived in time, so the frame is retransmitted, or dropped once retries are exhausted. -/
  | ackWaitExpiry (index : Fin 256) (draw : Fin 256) (off : Fin 1000000)
  /-- R209: A received ACK is matched to a frame awaiting one, which is released, or is counted as stray. -/
  | ackReceived (index : Fin 256)
  /-- R221: A sleepy child's listen window opens 200 µs after its ACK and its pending frames become candidates. -/
  | listenWindowOpen (node : BitVec 24) (off : Fin 1000000)
  /-- R221: The listen window closes; unsent frames stay listed and deferred removals are applied. -/
  | listenWindowClose (node : BitVec 24) (off : Fin 1000000)
  /-- R224: STAGE_MS before a poll window the child's pending frames are sealed and held ready. -/
  | pollStage (node : BitVec 24) (off : Fin 1000000)
  /-- R225: A poll window closes without a POLL; the miss count rises and the node may be marked SILENT. -/
  | pollWindowClose (node : BitVec 24) (off : Fin 1000000)
  /-- R226: A decoder's nominal beacon beat arrives and a beacon is prepared in the control class. -/
  | beaconDue (decoder : Fin 80) (cls : Fin 4)
  /-- R227: A beacon not started by half its period is discarded and counted. -/
  | beaconSkipDeadline (decoder : Fin 80)
  /-- R228: The join requests bound to a beat are admitted up to PER_BEAT, and the rest get wait or refuse responses. -/
  | joinAdmission (cls : Fin 4) (answers : List (BitVec 64 × JoinOutcome))
  /-- R233: A Bridle entry's window ends and MAC_REPORT is raised with its count. -/
  | bridleWindowEnd (index : Fin 512)
  /-- R260: Once every frame of the pipeline with an earlier END is settled, the frame is learned in its pipeline. -/
  | forwardLearn (index : Fin 256) (headend : Fin 16) (cls : Fin 8) (pre : Fin 3)
  /-- R249: The Envelope controller applies a whole-record read-modify-write, or completes NOT_FOUND if the NSA no longer matches. -/
  | recordUpdate (pe : Fin 16) (thread : Fin 4) (op : RecordOp)
  /-- R279: Table operation LOOKUP returns the entry for a key without refreshing it. -/
  | fwdLookup (via : Via) (table : Fin 4) (ecc : Option EccFault)
  /-- R263: Table operation INSERT places an entry, evicting a victim or refusing with NO_SPACE. -/
  | fwdInsert (via : Via) (table : Fin 4)
  /-- R279: Table operation UPDATE rewrites an entry only if its key is present. -/
  | fwdUpdate (via : Via) (table : Fin 4)
  /-- R279: Table operation DELETE clears VALID of the key's entry. -/
  | fwdDelete (via : Via) (table : Fin 4)
  /-- R265: Table operation DELETE_IF_STAMP deletes the entry only if its AGE_STAMP matches. -/
  | fwdDeleteIfStamp (via : Via) (table : Fin 4)
  /-- R279: Table operation READ_SLOT returns the raw 128 bits of a slot. -/
  | fwdReadSlot (via : Via) (table : Fin 4)
  /-- R279: Table operation FLUSH deletes every non-static entry, one bucket at a time. -/
  | fwdFlush (via : Via) (table : Fin 4)
  /-- R279: Table operation DIGEST returns the CRC-64 digest of a block. -/
  | fwdDigest (via : Via) (table : Fin 4)
  /-- R280: A table operation finishes and its status, results and VALID are posted. -/
  | fwdOpComplete
  /-- R265: After the read phase, the expired entries are compare-and-deleted in slot order. -/
  | ageingDeletePhase
  /-- R271: The standby replaces a mismatched table block with the active unit's entries at the next boundary. -/
  | blockResyncApply
  /-- R278: A DOWNLINK PLE message is checked and queued, listed as pending, or refused with a DL_STATUS. -/
  | pleDownlinkReceived (port : EthPort) (pick : Pick) (cls : Fin 8) (pre : Fin 3)
  /-- R289: The patrol scrubber reads a burst, writes back corrections and reports uncorrectable errors. -/
  | scrubBurst (corrected uncorrectable : Bool)
  /-- R303: Queue operation ENQ writes 1–16 words, committing packets or refusing them for framing or limit. -/
  | enq (port : QueuePort) (queue : Fin 4096) (next : Bool) (headend : Fin 16) (words : List WordIn)
  /-- R302: Queue operation ABORT discards the open packet (WPTR ← CPTR). -/
  | abort (port : QueuePort) (queue : Fin 4096)
  /-- R305: Queue operation DEQ returns up to n words from RPTR, never at or past TAIL. -/
  | deq (port : QueuePort) (queue : Fin 4096) (n : Fin 16) (stopAtL : Bool) (out : BitVec 18) (upsets : List (Option WordUpset))
  /-- R302: Queue operation MARK sets MARK to RPTR. -/
  | mark (port : QueuePort) (queue : Fin 4096)
  /-- R302: Queue operation REWIND returns RPTR to MARK. -/
  | rewind (port : QueuePort) (queue : Fin 4096)
  /-- R302: Queue operation RELEASE moves HEAD and MARK to RPTR and frees whole pages. -/
  | release (port : QueuePort) (queue : Fin 4096)
  /-- R314: A ballast pin's MIN_HOLD_US ends and the pin follows its group state if it differs. -/
  | fcHoldExpiry (group : Fin 8)
  /-- R322: Queue command READ_CFG returns a queue's settings. -/
  | queueReadCfg (iface : HostIface) (queue : Fin 4096)
  /-- R322: Queue command WRITE_CFG sets limit, group and watermarks, or is refused. -/
  | queueWriteCfg (via : HostVia) (queue : Fin 4096)
  /-- R323: Queue command READ_STATE snapshots the six pointers and the state. -/
  | queueReadState (iface : HostIface) (queue : Fin 4096)
  /-- R321: Queue command FLUSH aborts the open packet and sets all pointers to WPTR. -/
  | queueFlush (via : HostVia) (queue : Fin 4096)
  /-- R321: A queue command finishes and its status, results and VALID are posted. -/
  | envQcmdComplete
  /-- R294: A host write through the BAR2 window reaches a writable area, or is discarded and logged. -/
  | bar2Write (offset : BitVec 28) (bytes : List (Option (BitVec 8)))
  /-- R331: A free uplink port selects the eligible head with the earliest finish time and debits its credit. -/
  | uplinkSelect (port : EthPort)
  /-- R332: At each microsecond every shaped class's credit is updated. -/
  | shaperTick
  /-- R353: A scheduler residue check fails; the operation repeats, or on a second failure the domain falls back and is marked for rebuild. -/
  | residueMismatch (domain : Fin 4) (second : Bool)
  /-- R358: A write to SCH_SNAP_REQ snapshots V, F and the credits and buckets of a flow. -/
  | schSnapshotReq (iface : HostIface) (value : BitVec 32)
  /-- R378: Slot operation UNWRAP_TO_SLOT unwraps a blob into a target slot by a two-phase write. -/
  | unwrapToSlot (index : Fin 4096)
  /-- R378: Slot operation DERIVE_TO_SLOT derives a key into a target slot. -/
  | deriveToSlot (index : Fin 4096)
  /-- R378: Slot operation WRAP_TO_PARTNER wraps a non-root key under PAIR_WRAP for bulk sync. -/
  | wrapToPartner (source : Fin 1024)
  /-- R378: Slot operation RESTRICT clears permissions and may set LOCKED. -/
  | restrict (index : Fin 4096)
  /-- R378: Slot operation ERASE drains, zeroes and empties a slot and orphans its children. -/
  | erase (index : Fin 4096)
  /-- R384: The rewrite of a key-area group is read back and confirmed, or fails and leaves the slot unchanged. -/
  | slotPersistConfirmed (slot : Fin 1024) (ok : Bool)
  /-- R380: The last operation holding the old key finishes and the shadow and active copies swap. -/
  | slotDrainDone (slot : Fin 1024)
  /-- R389: A new epoch record reads back and verifies, and any full sector is then erased. -/
  | epochWriteConfirmed (ok : Bool)
  /-- R395: A TAMPER ball reaches its active level and debounce starts. -/
  | tamperPinEdge (pin : Fin 2) (high : Bool)
  /-- R396: A TAMPER ball stays active past DEB_US; the tamper latches and the mode-dependent response runs. -/
  | tamperDebounced (pin : Fin 2)
  /-- R395: A voltage, temperature or clock monitor trips and raises an ALARM or causes a tamper. -/
  | monitorExcursion (monitor : Fin 4) (present : Bool)
  /-- R397: An accepted guarded write to SEC_ZEROISE zeroises the store and enters HOLD. -/
  | secZeroise (iface : HostIface) (comp : BitVec 32)
  /-- R398: An accepted guarded write to SEC_TAMPER_CLR clears the latch and resets, or ends BUSY while a cause is present. -/
  | secTamperClr (iface : HostIface) (comp : BitVec 32) (ticks : BitVec 40)
  /-- R410: Slot query READ_META snapshots a slot's attributes, parent, generation and state. -/
  | slotReadMeta (iface : HostIface) (slot : Fin 1024)
  /-- R410: Slot query VERIFY_TAG recomputes a slot's TAG and tears the slot on failure. -/
  | slotVerifyTag (iface : HostIface) (slot : Fin 1024) (upset : Bool)
  /-- R411: A write to FUSE_READ_REQ snapshots a fuse row. -/
  | fuseReadReq (iface : HostIface) (value : BitVec 32)
  /-- R404: An accepted guarded write to FUSE_PROG starts programming a permitted row, or is refused. -/
  | fuseProg (iface : HostIface) (comp : BitVec 32)
  /-- R403: An accepted guarded write to FUSE_ADVANCE advances the lifecycle one state, or is refused with BAD_STATE. -/
  | fuseAdvance (iface : HostIface) (comp : BitVec 32)
  /-- R404: Fuse programming ends and the row is read back and verified. -/
  | fuseProgDone (blown : BitVec 32)
  /-- R401: The TAP instruction that opens debug access zeroises the store and enters HOLD. -/
  | debugAccessOpen
  /-- R417: Device time reaches a whole second; the AON count is reloaded and PPS_OUT rises. -/
  | timeSecond (edges : BitVec 40) (nap : Fin 101)
  /-- R429: PPS_OUT falls after PPS_WIDTH. -/
  | ppsFall
  /-- R430: BEAT_OUT falls after BEAT_WIDTH. -/
  | beatOutFall
  /-- R416: A time keeper residue check fails; the tick is repaired, and on two consecutive failures STATE becomes FAULT. -/
  | timeResidueFail (again : Bool)
  /-- R420: A write of GO requests a time step, ending OK, NOT_ARMED, BUSY or BAD_VALUE. -/
  | tkStepGo (src : Option HostIface) (value : BitVec 32)
  /-- R419: An accepted guarded write to TK_REARM arms a step. -/
  | tkRearm (iface : HostIface) (comp : BitVec 32)
  /-- R415: A write to TK_INCR_INT applies the staged increment, clamped to ±200 ppm. -/
  | tkIncrWrite (src : Option HostIface) (value : BitVec 32) (edges : BitVec 40)
  /-- R423: A write to TK_SERVO sets STATE and TRACE, refreshes the watchdog and clears FAULT. -/
  | tkServoWrite (src : Option HostIface) (value : BitVec 32)
  /-- R423: No servo write within 2 s while LOCKED, so the time keeper enters HOLDOVER. -/
  | servoWatchdogExpiry
  /-- R423: HOLDOVER_S seconds after holdover began, TRACE drops to 0. -/
  | holdoverTraceExpiry
  /-- R427: An enabled TSI edge is captured into its FIFO, or dropped when the FIFO is full. -/
  | tsiEdge (input : Fin 4) (rising : Bool) (edges : BitVec 40) (phase : Fin 4)
  /-- R428: A write to TK_CAP_REQ takes the oldest capture of an input into the mailbox. -/
  | tkCapReq (iface : HostIface) (value : BitVec 32)
  /-- R440: A write to TK_TIME_REQ snapshots device time. -/
  | tkTimeReq (iface : HostIface) (edges : BitVec 40)
  /-- R446: An auto-detect port without lock switches between 10GBASE-R and 1000BASE-X every 50 ms. -/
  | ethAutodetectSwitch (port : EthPort)
  /-- R447: PCS lock has held for 10 ms and the link comes up. -/
  | ethLinkUp (port : EthPort) (ten rxPause : Bool)
  /-- R447: Lock is lost; the link goes down, learned entries are deleted and pass-through frames are dropped. -/
  | ethLinkDown (port : EthPort)
  /-- R449: A received Ethernet frame is handled by the first matching step: PAUSE, reserved, VLAN, PTP, local or bridge. -/
  | ethFrameReceived (port : EthPort) (edges : BitVec 40) (phase : Fin 4) (code : Bool) (bytes : List Byte)
  /-- R462: A received pause time runs out and the port may start frames again. -/
  | ethPauseExpiry (port : EthPort)
  /-- R457: A free port starts a frame, alternating between scheduled selections and pass-through frames. -/
  | ethTxStart (port : EthPort) (edges : BitVec 40) (phase : Fin 4)
  /-- R457: A frame finishes on the wire and the port may start its next frame. -/
  | ethTxDone (port : EthPort) (upset : Bool)
  /-- R463: A PAUSE frame is repeated every REFRESH while the condition holds. -/
  | pauseRefresh (port : EthPort)
  /-- R454: Once a second, bridge entries not seen for AGE_S are deleted. -/
  | bridgeAgeTick
  /-- R449: A newly active unit sends one of its three unsolicited Neighbour Advertisements, 1 ms apart. -/
  | naAnnounce (port : EthPort)
  /-- R467: A write to ETH_BR_CMD flushes the bridge's non-static entries for one or both ports. -/
  | ethBrFlush (iface : HostIface) (value : BitVec 32)
  /-- R467: A bridge flush completes and BUSY clears. -/
  | ethBrFlushDone
  /-- R467: A write changing a port's MODE or AN_EN drops and restarts its link. -/
  | ethPortCfgWrite (iface : HostIface) (port : EthPort) (value : BitVec 32)
  /-- R470: The Buesque Link gains block lock for 1 ms. -/
  | pairLinkUp
  /-- R470: The Buesque Link loses block lock for 10 µs and the Tether is declared lost. -/
  | pairLinkDown
  /-- R473: A TETHER heartbeat is sent at each whole 100 µs of device time. -/
  | tetherSend
  /-- R473: A valid TETHER from the partner is taken and restarts the loss timer. -/
  | tetherReceived (lseq : BitVec 32) (t : TetherIn)
  /-- R474: A 100 µs period passes with no TETHER and is counted. -/
  | tetherMiss
  /-- R474: 310 µs without a TETHER: the partner is declared lost. -/
  | tetherLost
  /-- R475: The sampled PAIR_ALIVE line changes level. -/
  | pairAliveEdge (low : Bool)
  /-- R475: No boundary for 1,100 µs, so the AON watchdog releases PAIR_ALIVE. -/
  | aliveWatchdogExpiry
  /-- R479: A unit in WAIT_CLAIM meets its claim condition, pulls PAIR_ALIVE and becomes ALONE. -/
  | startClaim
  /-- R482: An INPUT link frame adds input-record entries for the standby. -/
  | inputReceived (lseq beat : BitVec 32) (entries : List RecEntry)
  /-- R482: A SEAL closes a beat's input record, which is checked for count and CRC. -/
  | sealReceived (lseq beat : BitVec 32) (count : BitVec 32) (crcOk : Bool)
  /-- R481: A SEAL missing 200 µs past the boundary sends the standby back to SYNCING. -/
  | sealWaitExpiry
  /-- R490: The partner's DIGEST frame is compared; any difference is a divergence that starts arbitration. -/
  | digestReceived (lseq beat : BitVec 32) (plan uplink log : BitVec 64) (b0 b1 b2 b3 : BitVec 64)
  /-- R472: A RESEND makes the sender send again from the named LSEQ. -/
  | resendReceived (lseq wanted : BitVec 32)
  /-- R484: A DIVERSITY reception is discarded as a duplicate or processed as an input. -/
  | diversityReceived (lseq : BitVec 32) (rx : AirRx)
  /-- R485: The standby combines shared LLRs with its own and requests a new decode. -/
  | llrReceived (lseq : BitVec 32) (decoder : Fin 80) (codeword : Fin 16) (stopNs : BitVec 64) (llrs : List (BitVec 6))
  /-- R488: A joining unit applies a bulk-sync block of state or wrapped keys. -/
  | bulkReceived (lseq : BitVec 32) (item : BulkItem)
  /-- R486: A TIME frame updates the link delay and the standby's time discipline. -/
  | timeFrameReceived (lseq : BitVec 32) (sent echo : BitVec 64) (edges : BitVec 40)
  /-- R487: A HELLO exchange runs the pairing checks and starts SYNCING or refuses pairing. -/
  | helloReceived (lseq : BitVec 32) (h : Hello)
  /-- R493: A SWITCH naming beat H is answered with SWITCH_ACK. -/
  | switchReceived (lseq beat : BitVec 32)
  /-- R493: The planned switchover is agreed and both units schedule beat H. -/
  | switchAckReceived (lseq beat : BitVec 32)
  /-- R493: No SWITCH_ACK within 2 beats, so the switchover is cancelled with TIMEOUT. -/
  | switchAckTimeout
  /-- R492: The partner's ARB verdict is held; the outcome applies at the next boundary once both are held. -/
  | arbReceived (lseq : BitVec 32) (verdict : Verdict) (score : BitVec 8)
  /-- R492: A YIELD control frame announces that the partner yields after arbitration. -/
  | yieldReceived (lseq : BitVec 32)
  /-- R271: Table block resync entries arrive from the active unit. -/
  | blockFrameReceived (lseq : BitVec 32) (table : Fin 4) (block : BitVec 8) (entries : List (BitVec 128))
  /-- R491: Re-execution of a divergent beat ends and an ARB frame is sent. -/
  | reexecutionDone (consistent : Bool)
  /-- R491: Re-execution not finished by the third commit window is INCONCLUSIVE. -/
  | reexecutionDeadline
  /-- R494: Tether lost with PAIR_ALIVE high for 100 µs: the standby starts its epoch write and schedules TAKEOVER. -/
  | takeoverDecision
  /-- R478: A DETACHED unit sees PAIR_ALIVE high for 1 ms with STALE_TAKEOVER and enters INCOMING. -/
  | staleTakeoverExpiry
  /-- R488: Bulk sync not done within 120 s fails and raises PAIR_SYNC_FAIL. -/
  | syncTimeout
  /-- R488: 10 s after a failed sync, HELLO starts again. -/
  | syncRetryExpiry
  /-- R498: Unit A has held good health for RECLAIM_HOLD_S and starts a reclaim switchover. -/
  | reclaimHoldExpiry
  /-- R508: PAIR_CMD operation SWITCH starts a planned switchover from LEAD. -/
  | pairSwitch (iface : HostIface)
  /-- R508: PAIR_CMD operation RESYNC restarts synchronisation from SHADOW or DETACHED. -/
  | pairResync (iface : HostIface)
  /-- R498: PAIR_CMD operation HOLD_RECLAIM restarts the reclaim hold. -/
  | pairHoldReclaim (iface : HostIface)
  /-- R508: PAIR_CMD operation DETACH stops mirroring; LEAD becomes ALONE and SHADOW becomes DETACHED. -/
  | pairDetach (iface : HostIface)
  /-- R509: An accepted guarded write to PAIR_ROLE_OVR sets the effective role to follow the strap or forces A or B. -/
  | pairRoleOvr (iface : HostIface) (comp : BitVec 32)
  /-- R507: A write to PAIR_DIG_REQ snapshots both units' digests of the last compared beat. -/
  | pairDigReq (iface : HostIface) (value : BitVec 32)
  /-- R500: Logic or memory BIST of an engine ends, passing or faulting the engine. -/
  | logicBistDone (pe : Fin 16) (pass : Bool)
  /-- R500: A scheduled LDPC known-answer test runs on one core. -/
  | ldpcKat (core : Fin 8) (pass : Bool)
  /-- R500: A scheduled cipher known-answer test runs on one AES core. -/
  | cipherKat (core : Fin 8) (pass : Bool)
  /-- R500: The ECDSA known-answer test runs at start and every 3,600 s. -/
  | ecdsaKat (pass : Bool)
  /-- R500: A chain runs its scheduled internal loopback into its port's receiver. -/
  | radioLoopback (chain : Chain) (pass : Bool)
  /-- R500: Each voter is checked by forcing one copy; a failure enters HOLD. -/
  | voterCheck (pass : Bool)
  /-- R525: A power request LEVEL is placed in the pending slot, superseding any earlier one. -/
  | pwrReqLevel (iface : HostIface) (level : Fin 4)
  /-- R525: A power request DOZE is placed in the pending slot. -/
  | pwrReqDoze (iface : HostIface)
  /-- R525: A power request SERVE is placed in the pending slot. -/
  | pwrReqServe (iface : HostIface)
  /-- R525: A power request DRIFT is placed in the pending slot. -/
  | pwrReqDrift (iface : HostIface)
  /-- R518: A junction temperature crossing of CAP_C or CAP_C − 5 °C requests the cap level or the mode's level. -/
  | thermalReading (quarters : BitVec 16)
  /-- R523: MAINS_SENSE changes and its DEB_MS filter starts. -/
  | mainsSenseEdge (high : Bool)
  /-- R523: A filtered mains loss or restore raises its event and issues the requests that ON_LOSS sets. -/
  | mainsFiltered (ticks : BitVec 40)
  /-- R523: LOSS_DRIFT_S without mains in DOZE_DRIFT requests DRIFT. -/
  | lossDriftExpiry
  /-- R527: All domains but AON are off and the mode is DRIFT; a latched wake replays at once. -/
  | driftEntryComplete (ticks : BitVec 40)
  /-- R530: SNIFF_GT expires; the RC starts and REFCLK_EN goes active. -/
  | sniffCycleStart
  /-- R530: After TCXO_LEAD_US the island powers up, reads temperature, calibrates and sniffs. -/
  | samplingIslandOn (quarters : BitVec 16) (ticks : BitVec 40)
  /-- R531: The sniff window ends, the condition is judged and the island powers off. -/
  | sniffCycleEnd (peak : BitVec 16) (detected : Bool) (ticks : BitVec 40)
  /-- R529: MAX_DRIFT_S since entry expires on LIMIT_GT, meeting the TIMER wake condition. -/
  | driftTimerExpiry (ticks : BitVec 40)
  /-- R533: An enabled wake condition is met; it sets the wake latch, or wakes the device in DRIFT. -/
  | driftWakeCondition (source : Fin 7) (gpio : BitVec 16) (ticks : BitVec 40)
  /-- R536: An accepted guarded write of 0x5A5A_000B to PWR_MODE_FORCE zeroises and enters HOLD at once. -/
  | forceHold (iface : HostIface) (comp : BitVec 32)
  /-- R536: An accepted guarded write of 0x5A5A_0004 leaves DOZE at the next boundary and holds off mains DOZE requests. -/
  | forceDozeExit (iface : HostIface) (comp : BitVec 32)
  /-- R536: An accepted guarded write to PWR_RESET resets the device as RESET_n does, keeping AON fields. -/
  | pwrReset (iface : HostIface) (comp : BitVec 32) (ticks : BitVec 40)
  /-- R559: Directory migration completes and the BSR records COMMISSIONED and DIR_FORMAT. -/
  | migrationDone (bad : List (BitVec 20)) (written : Bool)
  /-- R562: Migration not done in 300 s clears trials and enters RECOVERY with MIGRATION. -/
  | migrationTimeout (written : Bool)
  /-- R559: COMMISSION_S elapses without COMMISSION_DONE and the device leaves for SOLO or STANDBY. -/
  | commissionWaitExpiry
  /-- R566: Command COMMISSION_DONE ends the commissioning wait. -/
  | commissionDone (index : Fin 4096)
  /-- R563: CONFIRM_S seconds of healthy service confirm a trial, updating the BSR and rollback fuses. -/
  | confirmTimerExpiry (blown : BitVec 256)
  /-- R566: Command UPDATE_BEGIN opens an update session and clears the block map. -/
  | updateBegin (index : Fin 4096) (kind : UpdateKind) (length : BitVec 32) (tries : Fin 3) (sha : BitVec 256)
  /-- R567: Command UPDATE_BLOCK copies a CRC-checked block from the landing area to the transfer area. -/
  | updateBlock (index : Fin 4096) (offset bytes crc : BitVec 32)
  /-- R568: Command UPDATE_END is accepted and starts verifying and writing the inactive slot. -/
  | updateEnd (index : Fin 4096)
  /-- R568: The update is verified, written, read back and named as a trial, or fails with UPDATE_FAILED. -/
  | updateApplyComplete (bad : Option (List Byte)) (written : Bool)
  /-- R566: Command UPDATE_ABORT ends the session and after UPDATE_DONE clears the trial. -/
  | updateAbort (index : Fin 4096)
  /-- R566: Command UPDATE_ACTIVATE schedules a restart at a named beat. -/
  | updateActivate (index : Fin 4096) (beat : BitVec 32)
  /-- R563: Command UPDATE_CONFIRM confirms the running trial. -/
  | updateConfirm (index : Fin 4096) (blown : BitVec 256)
  /-- R564: Command UPDATE_REVERT clears the trial and restarts the device. -/
  | updateRevert (index : Fin 4096) (ticks : BitVec 40)
  /-- R572: 600 s after the named beat without the stale-takeover handover, UPDATE_FAILED is raised with TIMEOUT. -/
  | pairUpdateTimeout
  /-- R573: An accepted guarded write to BOOT_RECOVERY resets the device into RECOVERY. -/
  | bootRecovery (iface : HostIface) (comp : BitVec 32) (ticks : BitVec 40)
  /-- R575: Recovery operation CHECK verifies an image in the transfer area. -/
  | rcvCheck (via : HostVia)
  /-- R575: Recovery operation WRITE writes a checked image to a slot. -/
  | rcvWrite (via : HostVia)
  /-- R575: Recovery operation SET_ACTIVE makes a slot active and clears its trial. -/
  | rcvSetActive (via : HostVia)
  /-- R575: Recovery operation REPROVISION clears COMMISSIONED. -/
  | rcvReprovision (via : HostVia)
  /-- R575: Recovery operation EXIT resets into ROM. -/
  | rcvExit (via : HostVia) (ticks : BitVec 40)
  /-- R575: A Recovery operation finishes and BOOT_RCV_STAT reports its result. -/
  | rcvOpComplete (bad : Option (List Byte))
  /-- R576: No Recovery command within 3,600 s after an error-entered RECOVERY resets the device into ROM. -/
  | recoveryIdleTimeout (ticks : BitVec 40)
  /-- R579: A write to BOOT_CFG_HASH_REQ snapshots the configuration SHA-256. -/
  | bootCfgHashReq (iface : HostIface)
  /-- R583: Command IMAGE_OPEN moves a FREE library slot to LOADING and writes its header. -/
  | imageOpen (index : Fin 4096) (slot nodeClass : BitVec 8) (blockSize : BitVec 16) (length version : BitVec 32) (sha : BitVec 256)
  /-- R583: Command IMAGE_PUT copies landing bytes into a loading slot. -/
  | imagePut (index : Fin 4096) (slot : BitVec 8) (offset bytes crc : BitVec 32)
  /-- R583: Command IMAGE_CLOSE checks completeness and hash and marks the slot READY. -/
  | imageClose (index : Fin 4096) (slot : BitVec 8)
  /-- R583: Command IMAGE_DELETE frees a slot unless campaigns use it. -/
  | imageDelete (index : Fin 4096) (slot : BitVec 8)
  /-- R587: Command CAMPAIGN_CREATE takes a free record and assigns a campaign number. -/
  | campaignCreate (index : Fin 4096) (slot : BitVec 8) (flags : BitVec 3) (p : CampParams)
  /-- R587: Command CAMPAIGN_TARGET adds or removes named nodes from a created campaign. -/
  | campaignTarget (index : Fin 4096) (number : BitVec 16) (add : Bool) (nodes : List (BitVec 24))
  /-- R589: Command CAMPAIGN_START starts the Directory walk and enrolment. -/
  | campaignStart (index : Fin 4096) (number : BitVec 16)
  /-- R587: Command CAMPAIGN_PAUSE stops a campaign from sending. -/
  | campaignPause (index : Fin 4096) (number : BitVec 16)
  /-- R587: Command CAMPAIGN_PAUSE with RESUME returns a paused campaign to its phase. -/
  | campaignResume (index : Fin 4096) (number : BitVec 16)
  /-- R594: Command CAMPAIGN_CANCEL ends a campaign as CANCELLED and returns its nodes to NONE. -/
  | campaignCancel (index : Fin 4096) (number : BitVec 16)
  /-- R587: Command CAMPAIGN_QUERY returns the campaign table address. -/
  | campaignQuery (index : Fin 4096)
  /-- R587: Command CAMPAIGN_CLEAR frees an ended campaign's record. -/
  | campaignClear (index : Fin 4096) (number : BitVec 16)
  /-- R590: REPORT_WAIT_S after a failed manifest, it is sent again, or the node fails ENROL after three tries. -/
  | enrolRetryExpiry (record : Fin 16) (node : BitVec 24)
  /-- R592: The campaign role applies a MISSING_BLOCKS report to the node's campaign state. -/
  | campaignReport
  /-- R593: Every REPORT_WAIT_S a repair pass rebroadcasts common blocks and unicasts the rest. -/
  | repairPass (record : Fin 16)
  /-- R594: DEADLINE_S passes and the campaign ends EXPIRED. -/
  | campaignDeadline (record : Fin 16)
  /-- R594: Every PROGRESS_S a live campaign raises CAMPAIGN_PROGRESS. -/
  | campaignProgressExpiry (record : Fin 16)
  /-- R599: SPI command READ reads dwords from BAR0 or the BAR2 window. -/
  | spiRead (addr : BitVec 32) (dwords : Fin 1025) (corrected : Fin 1025) (bad : List (BitVec 32))
  /-- R600: SPI command WRITE writes dwords, refusing misaligned and partial dwords. -/
  | spiWrite (addr : BitVec 32) (bytes : List (BitVec 8)) (m : Moment)
  /-- R599: SPI command STATUS returns the error, ready, recovery and events bits. -/
  | spiStatus
  /-- R599: SPI command ID returns GEN_CHIP_ID. -/
  | spiId
  /-- R602: A BAR0 write to a register with no row of its own is applied whole, or discarded and logged. -/
  | registerWrite (addr : BitVec 24) (dwords : List (BitVec 32 × BitVec 4)) (m : Moment)
  /-- R609: A write to a guarded register X arms the value and waits for its complement. -/
  | guardArm (iface : HostIface) (guard : GuardReg) (value : BitVec 32)
  /-- R610: 10 µs pass without the complement and the armed value is dropped with TIMEOUT. -/
  | guardTimeout (guard : GuardReg)
  /-- R610: A write to X+0x8 or X+0xC while armed, or a complement with nothing armed, rejects the guard. -/
  | guardInterrupt (iface : HostIface) (guard : GuardReg) (part : GuardPart)
  /-- R614: A write to HIF_CMD_TAIL doorbells new commands, or is refused as RING. -/
  | cmdDoorbell (iface : HostIface) (value : BitVec 32)
  /-- R614: A write to HIF_CPL_CONS frees completion entries, or is refused as RING. -/
  | cplConsume (iface : HostIface) (value : BitVec 32)
  /-- R636: A write to EVT_RINGr_CONS frees event entries, or is refused as RING. -/
  | evtRingConsume (iface : HostIface) (ring : Fin 4) (value : BitVec 32)
  /-- R623: A write to HIF_JRN_REQ snapshots NEXT and OLDEST of the journal. -/
  | hifJrnReq (iface : HostIface)
  /-- R620: Command NOP is journaled and completes with no effect. -/
  | nop (index : Fin 4096)
  /-- R621: Command NODE_CMD seals an end-to-end CMD frame to a node and queues it. -/
  | nodeCmd (index : Fin 4096) (pick : Pick)
  /-- R621: Command NODE_FORGET frees a node's record, table entries and pending frames. -/
  | nodeForget (index : Fin 4096)
  /-- R621: Command JOIN_CONTROL writes MAC_JOIN.OPEN. -/
  | joinControl (index : Fin 4096)
  /-- R620: Command TIME_OF_DAY gives the servo the seconds of the next PPS edge. -/
  | timeOfDay (index : Fin 4096)
  /-- R620: Command SELFTEST_RUN runs the self-test set and returns the failing test. -/
  | selftestRun (index : Fin 4096) (failed : List TestFail)
  /-- R628: An event Bridle window ends and a coalesced summary entry is written if repeats occurred. -/
  | eventBridleWindowEnd (index : Fin 64)
  /-- R629: MOD_US after a message, waiting requests on a vector produce one MSI-X message. -/
  | msixModerationExpiry (vector : Fin 128)
  /-- R39: A general timer GT0–GT7 expires and the expiry is bound to a beat as a timer input, recorded in the input record in a pair. -/
  | gtTimerExpiry (gt : Fin 8)
  /-- R472: A Buesque Link frame arrives with a failing CRC, is dropped, counted in PAIR_LINK_CRC and answered with a RESEND naming the first missing LSEQ. -/
  | linkFrameCrcFail
  /-- R510: Supplies are applied and the device enters COLD; VBAT_AON newly applied returns the AON fields, the AON count and the tamper latch to their reset values. -/
  | suppliesApplied (vbatNew : Bool)
  /-- R493: In beat H of a planned switchover, the incoming unit pulls PAIR_ALIVE once the line has been high for 100 µs. -/
  | switchoverAliveClaim
  /-- R294: A host read through the BAR2 window returns Envelope data, corrects single-bit errors, and counts an uncorrectable error and raises ENV_ECC_UNCORR. -/
  | bar2Read (offset : BitVec 28) (len : Fin 4097) (corrected : Fin 4097) (bad : List (BitVec 32))
  deriving DecidableEq, Repr

end Sys2Proof
end

