-- ==== Sys2Proof/Machine/Crc.lean ====
section
/-!
DEFINITION. Machine/Crc.lean: the check codes of the spec: the header CRC-8 (R87), the CRC-32 of R99 with the seeded
start of R258, and the CRC-64 of R270.
-/

namespace Sys2Proof.Machine

open Sys2Proof

/-- One byte into a bit-reflected CRC of width w with the reflected polynomial. -/
def crcReflStep {w : Nat} (poly : BitVec w) : Nat → BitVec w → BitVec w
  | 0, r => r
  | n + 1, r => crcReflStep poly n (if r.toNat % 2 = 1 then (r >>> 1) ^^^ poly else r >>> 1)

/-- A bit-reflected CRC over bytes, from a start value and without the final XOR. -/
def crcRefl {w : Nat} (poly : BitVec w) : List Byte → BitVec w → BitVec w
  | [], r => r
  | b :: bs, r => crcRefl poly bs (crcReflStep poly 8 (r ^^^ BitVec.ofNat w b.toNat))

/-- The CRC-32 of R99, started from `seed` (R258 starts it from a table's seed). -/
def crc32From (seed : Word) (bs : List Byte) : Word := crcRefl (0xEDB88320 : Word) bs seed ^^^ 0xFFFFFFFF

/-- The CRC-32 of R99. -/
def crc32 (bs : List Byte) : Word := crc32From 0xFFFFFFFF bs

/-- The CRC-64 of R270. -/
def crc64 (bs : List Byte) : BitVec 64 :=
  crcRefl (0xC96C5795D7870F42 : BitVec 64) bs 0xFFFFFFFFFFFFFFFF ^^^ 0xFFFFFFFFFFFFFFFF

/-- One byte of the header CRC-8, most significant bit first (R87). -/
def crc8Step : Nat → BitVec 8 → BitVec 8
  | 0, r => r
  | n + 1, r => crc8Step n (if 128 ≤ r.toNat then (r <<< 1) ^^^ 0x07 else r <<< 1)

/-- The header CRC-8 of R87 over bytes in order. -/
def crc8From : List Byte → BitVec 8 → BitVec 8
  | [], r => r
  | b :: bs, r => crc8From bs (crc8Step 8 (r ^^^ b))

/-- The CRC-8 of the 24 header bits H[23:0] (R87). -/
def headerCrc (h : BitVec 24) : BitVec 8 :=
  crc8From [BitVec.ofNat 8 (h.toNat / 65536), BitVec.ofNat 8 (h.toNat / 256), BitVec.ofNat 8 h.toNat] 0xFF

end Sys2Proof.Machine
end

