-- ==== Sys2Proof/Config.lean ====
section
/-!
DEFINITION. Config.lean: the values the spec leaves open, as constants with no body, and the fixed figures of the part.
-/

namespace Sys2Proof.Config

/-- A word the spec leaves open, drawn by number (DESIGN CHOICE, log 5): nothing in the model says what it is. -/
opaque freeWord : Nat → BitVec 32

/-- The code MODE_CHANGED's record gives a trigger, by its row in R510: R511 names the trigger, not its code (log 12). -/
opaque triggerCode : Nat → BitVec 8

/-- The RESULT word of a seal refused with reason CTR_EXHAUSTED: R391 names the reason, not its code (log 22). -/
opaque ctrExhausted : BitVec 32

/-- The code the store-update log gives a queue's flush: R489 leaves operation codes to the part (log 50). -/
opaque flushCode : BitVec 8

/-- Whether the running firmware accepts a POLICY record (R556): its rules are the firmware's own (log 53). -/
opaque policyOk : List (BitVec 8) → Bool

/-- Byte i of a record's POLICY and CAMPAIGN bytes as the firmware converts them from Directory format d to f (R561): the
conversion is the firmware's own (log 55). -/
opaque migratedByte : Nat → Nat → List (BitVec 8) → Nat → BitVec 8

end Sys2Proof.Config
end

