-- ==== Sys2Proof/Machine/Regs.lean ====
section
/-!
DEFINITION. Machine/Regs.lean: the BAR0 register map. One constant per register of the spec's register
tables (R30, R66, R149, R190, R236, R282, R318, R355, R406, R411, R438, R465, R505, R538, R578, R632, R635),
named as the spec names it, at its absolute BAR0 offset (R662); one `Field` per named bit field; and the
table of access types (R6) that `REGISTER_WRITE` consults. An index into an array of registers counts modulo the array,
so that none reaches beyond it.
-/

namespace Sys2Proof.Reg

open Sys2Proof

/-- A bit field of a register: the register's BAR0 offset, its lowest bit and its width (R30 and the field tables). -/
structure Field where
  reg : Nat
  lo : Nat
  width : Nat
  deriving DecidableEq, Repr

/-- The access types of R6. -/
inductive Access where
  | rw | ro | cnt | cmd | mbx | grd
  deriving DecidableEq, Repr

/-- One row of a register table: `count` registers from `base`, four bytes apart; the software-writable bits. -/
structure Row where
  base : Nat
  count : Nat
  access : Access
  writable : Nat
  deriving DecidableEq, Repr

/-- The block offset of an RF port's registers (R149). -/
def rfBase : RfPort → Nat
  | .s => 0x040000
  | .w => 0x050000


/-! ### GEN_ (R30) -/

/-- R30: Part identity; layout in R3. RO, reset 0x1680_00A1. -/
def GEN_CHIP_ID : Nat := 0x0
/-- R30: Current and previous major mode, pair identity. RO, reset 0x0000_0000. -/
def GEN_MODE : Nat := 0x4
def GEN_MODE_MODE : Field := ⟨GEN_MODE, 0, 4⟩
def GEN_MODE_PREV : Field := ⟨GEN_MODE, 4, 4⟩
def GEN_MODE_CHANGING : Field := ⟨GEN_MODE, 8, 1⟩
def GEN_MODE_PAIR_CFG : Field := ⟨GEN_MODE, 9, 1⟩
def GEN_MODE_ROLE_B : Field := ⟨GEN_MODE, 10, 1⟩
/-- R30: Mode entries since the last reset; 32-bit, wraps. CNT, reset 0x0000_0000. -/
def GEN_MODE_CHANGES : Nat := 0x8
/-- R30: Fixed resource counts of this part. RO, reset 0x0444_5010. -/
def GEN_CAPS : Nat := 0xc
def GEN_CAPS_ENGINES : Field := ⟨GEN_CAPS, 0, 8⟩
def GEN_CAPS_RX_CHANNELS : Field := ⟨GEN_CAPS, 8, 8⟩
def GEN_CAPS_TX_CHAINS : Field := ⟨GEN_CAPS, 16, 4⟩
def GEN_CAPS_PIPELINES : Field := ⟨GEN_CAPS, 20, 4⟩
def GEN_CAPS_ENVELOPE_GIB : Field := ⟨GEN_CAPS, 24, 4⟩

/-! ### BT_ (R66) -/

/-- R66: Sequencer state. RO, reset 0x0000_0000. -/
def BT_STATUS : Nat := 0x30000
def BT_STATUS_RUNNING : Field := ⟨BT_STATUS, 0, 1⟩
def BT_STATUS_WINDOW : Field := ⟨BT_STATUS, 1, 2⟩
def BT_STATUS_PAST_BIND : Field := ⟨BT_STATUS, 3, 1⟩
def BT_STATUS_GAP : Field := ⟨BT_STATUS, 4, 1⟩
def BT_STATUS_TMR_SPLIT : Field := ⟨BT_STATUS, 5, 1⟩
def BT_STATUS_LEVEL : Field := ⟨BT_STATUS, 8, 3⟩
/-- R66: Beat snapshot request; bit 0 reads VALID. MBX, reset 0x0000_0000. -/
def BT_BEAT_REQ : Nat := 0x30004
/-- R66: Snapshot: beat number [31:0]. MBX, reset 0x0000_0000. -/
def BT_BEAT_LO : Nat := 0x30008
/-- R66: Snapshot: beat number [57:32] in bits [25:0]. MBX, reset 0x0000_0000. -/
def BT_BEAT_HI : Nat := 0x3000c
/-- R66: Snapshot: boundary sample index [31:0]. MBX, reset 0x0000_0000. -/
def BT_SAMPLE_LO : Nat := 0x30010
/-- R66: Snapshot: boundary sample index [63:32]. MBX, reset 0x0000_0000. -/
def BT_SAMPLE_HI : Nat := 0x30014
/-- R66: Bind line margin. RW, reset cfg. -/
def BT_BIND_MARGIN : Nat := 0x30020
def BT_BIND_MARGIN_MARGIN_US : Field := ⟨BT_BIND_MARGIN, 0, 9⟩
/-- R66: Consecutive overruns that raise BEAT_OVERRUN_RUN. RW, reset cfg. -/
def BT_OVR_LIMIT : Nat := 0x30024
def BT_OVR_LIMIT_LIMIT : Field := ⟨BT_OVR_LIMIT, 0, 8⟩
/-- R66: Work budget of the current beat in cycles, [20:0]. RO, reset 0x0000_0000. -/
def BT_BUDGET : Nat := 0x30028
/-- R66: Two bits per engine. RO, reset 0x0000_0000. -/
def BT_ENG_STATE : Nat := 0x3002c
/-- R66: Roles of PE0–PE7, 4 bits each, PE0 in [3:0]. RO, reset cfg. -/
def BT_ROLE0 : Nat := 0x30030
/-- R66: Roles of PE8–PE15, 4 bits each, PE8 in [3:0]. RO, reset cfg. -/
def BT_ROLE1 : Nat := 0x30034
/-- R66: All LATE completions; 32-bit, wraps. CNT, reset 0x0000_0000. -/
def BT_LATE_TOTAL : Nat := 0x30040
/-- R66: LATE completions of fast-path work; 32-bit, wraps. CNT, reset 0x0000_0000. -/
def BT_LATE_FAST : Nat := 0x30044
/-- R66: Sequencer copies reloaded from the majority; 32-bit, saturates. CNT, reset 0x0000_0000. -/
def BT_TMR_FIX : Nat := 0x30048
/-- R66: Intervals that belong to no beat; 32-bit, saturates. CNT, reset 0x0000_0000. -/
def BT_GAPS : Nat := 0x3004c
/-- R66: Corrected engine SRAM errors, all engines; 32-bit, saturates. CNT, reset 0x0000_0000. -/
def BT_SRAM_CORR : Nat := 0x30050
/-- R66: Engine n live state. RO, reset 0x0000_0000. -/
def BT_PEn_STAT (n : Nat) : Nat := 0x30100 + 4 * (n % 16)
def BT_PEn_STAT_TAGS (n : Nat) : Field := ⟨BT_PEn_STAT n, 0, 6⟩
def BT_PEn_STAT_RING (n : Nat) : Field := ⟨BT_PEn_STAT n, 8, 7⟩
def BT_PEn_STAT_BUSY_THREADS (n : Nat) : Field := ⟨BT_PEn_STAT n, 16, 4⟩
def BT_PEn_STAT_PAST_DEADLINE (n : Nat) : Field := ⟨BT_PEn_STAT n, 20, 1⟩
/-- R66: Engine n overrun beats; 32-bit, saturates. CNT, reset 0x0000_0000. -/
def BT_PEn_OVR (n : Nat) : Nat := 0x30140 + 4 * (n % 16)
/-- R66: Engine n LATE completions; 32-bit, wraps. CNT, reset 0x0000_0000. -/
def BT_PEn_LATE (n : Nat) : Nat := 0x30180 + 4 * (n % 16)
/-- R66: Engine n cycles used in the last completed beat, [20:0]. RO, reset 0x0000_0000. -/
def BT_PEn_USED (n : Nat) : Nat := 0x301c0 + 4 * (n % 16)
/-- R66: Engine n issues that waited for a free tag; 32-bit, wraps. CNT, reset 0x0000_0000. -/
def BT_PEn_TAGSTALL (n : Nat) : Nat := 0x30200 + 4 * (n % 16)

/-! ### RFS_ (R149) -/

/-- R149: Port state. RO, reset 0x0000_0000. -/
def RFx_STATUS (p : RfPort) : Nat := rfBase p + 0x0
def RFx_STATUS_RX_LOCKED (p : RfPort) : Field := ⟨RFx_STATUS p, 0, 1⟩
def RFx_STATUS_RX_CAL (p : RfPort) : Field := ⟨RFx_STATUS p, 1, 1⟩
def RFx_STATUS_BLANK (p : RfPort) : Field := ⟨RFx_STATUS p, 2, 1⟩
def RFx_STATUS_TRS_TX (p : RfPort) : Field := ⟨RFx_STATUS p, 3, 1⟩
def RFx_STATUS_LNA_BYP (p : RfPort) : Field := ⟨RFx_STATUS p, 4, 1⟩
def RFx_STATUS_CX_REQ (p : RfPort) : Field := ⟨RFx_STATUS p, 5, 1⟩
def RFx_STATUS_CX_GNT (p : RfPort) : Field := ⟨RFx_STATUS p, 6, 1⟩
def RFx_STATUS_OVERLOAD (p : RfPort) : Field := ⟨RFx_STATUS p, 7, 1⟩
def RFx_STATUS_TX_ON (p : RfPort) : Field := ⟨RFx_STATUS p, 8, 2⟩
def RFx_STATUS_DUTY_FULL (p : RfPort) : Field := ⟨RFx_STATUS p, 16, 16⟩
/-- R149: Slice centre, width, port enable. RW, reset cfg. -/
def RFx_SLICE (p : RfPort) : Nat := rfBase p + 0x4
def RFx_SLICE_CENTRE (p : RfPort) : Field := ⟨RFx_SLICE p, 0, 12⟩
def RFx_SLICE_WIDTH (p : RfPort) : Field := ⟨RFx_SLICE p, 12, 2⟩
def RFx_SLICE_EN (p : RfPort) : Field := ⟨RFx_SLICE p, 14, 1⟩
/-- R149: Write 1 to bit 0 to recalibrate the receive synthesiser. CMD, reset 0x0000_0000. -/
def RFx_RXCAL (p : RfPort) : Nat := rfBase p + 0x8
/-- R149: Sequencing times. RW, reset cfg. -/
def RFx_FE_TIMING (p : RfPort) : Nat := rfBase p + 0xc
def RFx_FE_TIMING_T_TR (p : RfPort) : Field := ⟨RFx_FE_TIMING p, 0, 6⟩
def RFx_FE_TIMING_T_PAON (p : RfPort) : Field := ⟨RFx_FE_TIMING p, 8, 5⟩
def RFx_FE_TIMING_T_PAOFF (p : RfPort) : Field := ⟨RFx_FE_TIMING p, 16, 4⟩
def RFx_FE_TIMING_T_TRBACK (p : RfPort) : Field := ⟨RFx_FE_TIMING p, 20, 4⟩
def RFx_FE_TIMING_RX_RECOVER (p : RfPort) : Field := ⟨RFx_FE_TIMING p, 24, 6⟩
/-- R149: Pin polarities, bypass, LNA lead. RW, reset cfg. -/
def RFx_FE_CTL (p : RfPort) : Nat := rfBase p + 0x10
def RFx_FE_CTL_PA_EN_LOW (p : RfPort) : Field := ⟨RFx_FE_CTL p, 0, 1⟩
def RFx_FE_CTL_TRS_TX_LOW (p : RfPort) : Field := ⟨RFx_FE_CTL p, 1, 1⟩
def RFx_FE_CTL_BYP_LOW (p : RfPort) : Field := ⟨RFx_FE_CTL p, 2, 1⟩
def RFx_FE_CTL_BYP_IN_TX (p : RfPort) : Field := ⟨RFx_FE_CTL p, 3, 1⟩
def RFx_FE_CTL_LNA_LEAD (p : RfPort) : Field := ⟨RFx_FE_CTL p, 8, 8⟩
/-- R149: Coexistence control. RW, reset cfg. -/
def RFx_CX_CTL (p : RfPort) : Nat := rfBase p + 0x14
def RFx_CX_CTL_EN (p : RfPort) : Field := ⟨RFx_CX_CTL p, 0, 1⟩
def RFx_CX_CTL_GNT_LOW (p : RfPort) : Field := ⟨RFx_CX_CTL p, 1, 1⟩
def RFx_CX_CTL_MIDFRAME (p : RfPort) : Field := ⟨RFx_CX_CTL p, 2, 1⟩
def RFx_CX_CTL_ACK_PRI (p : RfPort) : Field := ⟨RFx_CX_CTL p, 3, 1⟩
def RFx_CX_CTL_PRI_CLASSES (p : RfPort) : Field := ⟨RFx_CX_CTL p, 4, 5⟩
def RFx_CX_CTL_GT (p : RfPort) : Field := ⟨RFx_CX_CTL p, 9, 3⟩
/-- R149: Coexistence times. RW, reset cfg. -/
def RFx_CX_TIMING (p : RfPort) : Nat := rfBase p + 0x18
def RFx_CX_TIMING_LEAD (p : RfPort) : Field := ⟨RFx_CX_TIMING p, 0, 10⟩
def RFx_CX_TIMING_CHECK (p : RfPort) : Field := ⟨RFx_CX_TIMING p, 10, 10⟩
def RFx_CX_TIMING_HOLD (p : RfPort) : Field := ⟨RFx_CX_TIMING p, 20, 8⟩
/-- R149: Ramp profile per rate. RW, reset cfg. -/
def RFx_RAMP (p : RfPort) : Nat := rfBase p + 0x1c
/-- R149: Chain n control. RW, reset cfg. -/
def RFx_TXn_CTL (p : RfPort) (n : Nat) : Nat := rfBase p + 0x20 + 4 * (n % 2)
def RFx_TXn_CTL_EN (p : RfPort) (n : Nat) : Field := ⟨RFx_TXn_CTL p n, 0, 1⟩
def RFx_TXn_CTL_ACK_OK (p : RfPort) (n : Nat) : Field := ⟨RFx_TXn_CTL p n, 1, 1⟩
/-- R149: Chain n state. RO, reset 0x0000_0000. -/
def RFx_TXn_STAT (p : RfPort) (n : Nat) : Nat := rfBase p + 0x28 + 4 * (n % 2)
def RFx_TXn_STAT_STATE (p : RfPort) (n : Nat) : Field := ⟨RFx_TXn_STAT p n, 0, 3⟩
def RFx_TXn_STAT_HOLDING (p : RfPort) (n : Nat) : Field := ⟨RFx_TXn_STAT p n, 3, 1⟩
def RFx_TXn_STAT_CHANNEL (p : RfPort) (n : Nat) : Field := ⟨RFx_TXn_STAT p n, 4, 10⟩
def RFx_TXn_STAT_LAST_CAL_US (p : RfPort) (n : Nat) : Field := ⟨RFx_TXn_STAT p n, 14, 8⟩
/-- R149: Power class m. RW, reset cfg. -/
def RFx_PWRCLASSm (p : RfPort) (n : Nat) : Nat := rfBase p + 0x30 + 4 * (n % 4)
/-- R149: Region r range and enable. RW, reset cfg. -/
def RFx_DUTYr_BAND (p : RfPort) (n : Nat) : Nat := rfBase p + 0x100 + 4 * (n % 16)
def RFx_DUTYr_BAND_LO (p : RfPort) (n : Nat) : Field := ⟨RFx_DUTYr_BAND p n, 0, 12⟩
def RFx_DUTYr_BAND_HI (p : RfPort) (n : Nat) : Field := ⟨RFx_DUTYr_BAND p n, 12, 12⟩
def RFx_DUTYr_BAND_EN (p : RfPort) (n : Nat) : Field := ⟨RFx_DUTYr_BAND p n, 24, 1⟩
/-- R149: Region r window, limit, dwell. RW, reset cfg. -/
def RFx_DUTYr_LIMIT (p : RfPort) (n : Nat) : Nat := rfBase p + 0x140 + 4 * (n % 16)
def RFx_DUTYr_LIMIT_LIMIT (p : RfPort) (n : Nat) : Field := ⟨RFx_DUTYr_LIMIT p n, 0, 14⟩
def RFx_DUTYr_LIMIT_WINDOW_S (p : RfPort) (n : Nat) : Field := ⟨RFx_DUTYr_LIMIT p n, 14, 12⟩
def RFx_DUTYr_LIMIT_DWELL (p : RfPort) (n : Nat) : Field := ⟨RFx_DUTYr_LIMIT p n, 26, 6⟩
/-- R149: Region r usage in µs. RO, reset 0x0000_0000. -/
def RFx_DUTYr_USED (p : RfPort) (n : Nat) : Nat := rfBase p + 0x180 + 4 * (n % 16)
def RFx_DUTYr_USED_USED (p : RfPort) (n : Nat) : Field := ⟨RFx_DUTYr_USED p n, 0, 32⟩
/-- R149: Frames and ACKs sent; 32-bit, wraps. CNT, reset 0x0000_0000. -/
def RFx_TX_FRAMES (p : RfPort) : Nat := rfBase p + 0x200
/-- R149: TX synthesiser calibrations; 32-bit, wraps. CNT, reset 0x0000_0000. -/
def RFx_TX_CAL (p : RfPort) : Nat := rfBase p + 0x204
/-- R149: LATE_SYNTH outcomes; 32-bit, saturates. CNT, reset 0x0000_0000. -/
def RFx_LATE_SYNTH (p : RfPort) : Nat := rfBase p + 0x208
/-- R149: Frames ended by lock loss; 32-bit, saturates. CNT, reset 0x0000_0000. -/
def RFx_UNLOCK_ABORT (p : RfPort) : Nat := rfBase p + 0x20c
/-- R149: Grant denials; 32-bit, saturates. CNT, reset 0x0000_0000. -/
def RFx_CX_DENIED (p : RfPort) : Nat := rfBase p + 0x210
/-- R149: Grant withdrawals after X; 32-bit, saturates. CNT, reset 0x0000_0000. -/
def RFx_CX_ABORT (p : RfPort) : Nat := rfBase p + 0x214
/-- R149: Frames and ACKs refused on airtime; 32-bit, saturates. CNT, reset 0x0000_0000. -/
def RFx_DUTY_REFUSED (p : RfPort) : Nat := rfBase p + 0x218
/-- R149: Blanked time in µs; 32-bit, wraps. CNT, reset 0x0000_0000. -/
def RFx_BLANK_US (p : RfPort) : Nat := rfBase p + 0x21c
/-- R149: CCAs restarted after blanking; 32-bit, wraps. CNT, reset 0x0000_0000. -/
def RFx_CCA_RESTART (p : RfPort) : Nat := rfBase p + 0x220
/-- R149: RFS_RXCAL writes refused while RX_CAL is 1 (R120); 32-bit, saturates. CNT, reset 0x0000_0000. -/
def RFx_RXCAL_REFUSED (p : RfPort) : Nat := rfBase p + 0x224

/-! ### RXD_ (R190) -/

/-- R190: Pool and port state. RO, reset 0x0000_0000. -/
def RXD_STATUS : Nat := 0x60000
def RXD_STATUS_S_RUN : Field := ⟨RXD_STATUS, 0, 1⟩
def RXD_STATUS_W_RUN : Field := ⟨RXD_STATUS, 1, 1⟩
def RXD_STATUS_CORE_BUSY : Field := ⟨RXD_STATUS, 8, 8⟩
def RXD_STATUS_QUEUE : Field := ⟨RXD_STATUS, 16, 16⟩
/-- R190: Detection settings. RW, reset cfg. -/
def RXD_DET : Nat := 0x60004
def RXD_DET_DET_THR : Field := ⟨RXD_DET, 0, 8⟩
def RXD_DET_SFD_WAIT : Field := ⟨RXD_DET, 8, 8⟩
def RXD_DET_SFD_ERR : Field := ⟨RXD_DET, 16, 2⟩
def RXD_DET_FALSE_LIMIT : Field := ⟨RXD_DET, 24, 8⟩
/-- R190: Capture thresholds. RW, reset cfg. -/
def RXD_CAPTURE : Nat := 0x60008
def RXD_CAPTURE_CAPTURE_DB : Field := ⟨RXD_CAPTURE, 0, 6⟩
def RXD_CAPTURE_LATE_EN : Field := ⟨RXD_CAPTURE, 8, 1⟩
def RXD_CAPTURE_LATE_DB : Field := ⟨RXD_CAPTURE, 9, 6⟩
/-- R190: LLR scale, blanking limit. RW, reset cfg. -/
def RXD_LLR : Nat := 0x6000c
def RXD_LLR_LLR_SCALE : Field := ⟨RXD_LLR, 0, 8⟩
def RXD_LLR_BLANK_MAX : Field := ⟨RXD_LLR, 8, 10⟩
/-- R190: Iteration limit, normalisation. RW, reset cfg. -/
def RXD_LDPC : Nat := 0x60010
def RXD_LDPC_MAX_ITER : Field := ⟨RXD_LDPC, 0, 6⟩
def RXD_LDPC_NORM : Field := ⟨RXD_LDPC, 8, 4⟩
/-- R190: Equaliser step sizes. RW, reset cfg. -/
def RXD_DFE : Nat := 0x60014
def RXD_DFE_MU_TRAIN : Field := ⟨RXD_DFE, 0, 4⟩
def RXD_DFE_MU_DD : Field := ⟨RXD_DFE, 4, 4⟩
/-- R190: Port S AGC control. RW, reset cfg. -/
def RXD_AGCx_CTL (p : RfPort) : Nat := 0x60020 + 0x10 * p.idx
def RXD_AGCx_CTL_CLIP_LEVEL (p : RfPort) : Field := ⟨RXD_AGCx_CTL p, 0, 11⟩
def RXD_AGCx_CTL_CLIP_COUNT (p : RfPort) : Field := ⟨RXD_AGCx_CTL p, 11, 4⟩
def RXD_AGCx_CTL_ATTACK_STEPS (p : RfPort) : Field := ⟨RXD_AGCx_CTL p, 15, 4⟩
def RXD_AGCx_CTL_TARGET (p : RfPort) : Field := ⟨RXD_AGCx_CTL p, 19, 6⟩
def RXD_AGCx_CTL_HYST (p : RfPort) : Field := ⟨RXD_AGCx_CTL p, 25, 3⟩
def RXD_AGCx_CTL_UP_DEFER (p : RfPort) : Field := ⟨RXD_AGCx_CTL p, 28, 1⟩
def RXD_AGCx_CTL_FREEZE (p : RfPort) : Field := ⟨RXD_AGCx_CTL p, 29, 1⟩
/-- R190: Port S AGC times. RW, reset cfg. -/
def RXD_AGCx_TIME (p : RfPort) : Nat := 0x60024 + 0x10 * p.idx
def RXD_AGCx_TIME_RELEASE (p : RfPort) : Field := ⟨RXD_AGCx_TIME p, 0, 8⟩
def RXD_AGCx_TIME_DEFER_MAX (p : RfPort) : Field := ⟨RXD_AGCx_TIME p, 8, 8⟩
/-- R190: Port S AGC state. RO, reset 0x0000_0000. -/
def RXD_AGCx_STAT (p : RfPort) : Nat := 0x60028 + 0x10 * p.idx
def RXD_AGCx_STAT_G (p : RfPort) : Field := ⟨RXD_AGCx_STAT p, 0, 5⟩
def RXD_AGCx_STAT_BYPASS (p : RfPort) : Field := ⟨RXD_AGCx_STAT p, 5, 1⟩
def RXD_AGCx_STAT_DEFERRED (p : RfPort) : Field := ⟨RXD_AGCx_STAT p, 6, 1⟩
def RXD_AGCx_STAT_CLIPPING (p : RfPort) : Field := ⟨RXD_AGCx_STAT p, 7, 1⟩
def RXD_AGCx_STAT_SEQ (p : RfPort) : Field := ⟨RXD_AGCx_STAT p, 8, 8⟩
def RXD_AGCx_STAT_CUM (p : RfPort) : Field := ⟨RXD_AGCx_STAT p, 16, 16⟩
/-- R190: Port S bypass step. RW, reset cfg. -/
def RXD_EXTx_STEP (p : RfPort) : Nat := 0x6002c + 0x10 * p.idx
def RXD_EXTx_STEP_EXT (p : RfPort) : Field := ⟨RXD_EXTx_STEP p, 0, 12⟩
def RXD_EXTx_STEP_TRIMMED (p : RfPort) : Field := ⟨RXD_EXTx_STEP p, 16, 12⟩
/-- R190: Port S GAIN records; wraps. CNT, reset 0x0000_0000. -/
def RXD_STEPS_x (p : RfPort) : Nat := 0x60040 + 0x4 * p.idx
/-- R190: Port S announcement gaps; saturates. CNT, reset 0x0000_0000. -/
def RXD_ANN_GAP_x (p : RfPort) : Nat := 0x60048 + 0x4 * p.idx
/-- R190: Watch detections ignored, all channels; wraps. CNT, reset 0x0000_0000. -/
def RXD_WATCH_BUSY : Nat := 0x60050
/-- R190: Decodes completed; wraps. CNT, reset 0x0000_0000. -/
def RXD_LDPC_DEC : Nat := 0x60054
/-- R190: Iterations run; wraps. CNT, reset 0x0000_0000. -/
def RXD_LDPC_ITER : Nat := 0x60058
/-- R190: Decodes with status FAIL; saturates. CNT, reset 0x0000_0000. -/
def RXD_LDPC_FAIL : Nat := 0x6005c
/-- R190: Decodes completed LATE; saturates. CNT, reset 0x0000_0000. -/
def RXD_LDPC_LATE : Nat := 0x60060
/-- R190: Port S VGA step i, [9:0] in 1/64 dB. RO, reset 0x0000_0000. -/
def RXD_STEPTAB_xi (p : RfPort) (n : Nat) : Nat := 0x60080 + 0x40 * p.idx + 4 * (n % 16)
/-- R190: Decoder n configuration. RW, reset cfg. -/
def RXD_CHn_CFG (n : Nat) : Nat := 0x60400 + 4 * (n % 80)
def RXD_CHn_CFG_EN (n : Nat) : Field := ⟨RXD_CHn_CFG n, 0, 1⟩
def RXD_CHn_CFG_CHANNEL (n : Nat) : Field := ⟨RXD_CHn_CFG n, 1, 10⟩
def RXD_CHn_CFG_RATE (n : Nat) : Field := ⟨RXD_CHn_CFG n, 11, 2⟩
def RXD_CHn_CFG_DFE (n : Nat) : Field := ⟨RXD_CHn_CFG n, 13, 1⟩
/-- R190: Decoder n state. RO, reset 0x0000_0000. -/
def RXD_CHn_STAT (n : Nat) : Nat := 0x60600 + 4 * (n % 80)
def RXD_CHn_STAT_P_STATE (n : Nat) : Field := ⟨RXD_CHn_STAT n, 0, 3⟩
def RXD_CHn_STAT_W_STATE (n : Nat) : Field := ⟨RXD_CHn_STAT n, 3, 3⟩
def RXD_CHn_STAT_FROZEN (n : Nat) : Field := ⟨RXD_CHn_STAT n, 6, 1⟩
def RXD_CHn_STAT_LAST (n : Nat) : Field := ⟨RXD_CHn_STAT n, 8, 8⟩
def RXD_CHn_STAT_RSSI (n : Nat) : Field := ⟨RXD_CHn_STAT n, 16, 16⟩
/-- R190: Detections; wraps. CNT, reset 0x0000_0000. -/
def RXD_CHn_DET (n : Nat) : Nat := 0x61000 + 4 * (n % 80)
/-- R190: Receptions ended SFD_TIMEOUT, HDR_CRC, HDR_FIELD or WATCH_LOST; wraps. CNT, reset 0x0000_0000. -/
def RXD_CHn_FALSE (n : Nat) : Nat := 0x61200 + 4 * (n % 80)
/-- R190: Valid headers; wraps. CNT, reset 0x0000_0000. -/
def RXD_CHn_HDR_OK (n : Nat) : Nat := 0x61400 + 4 * (n % 80)
/-- R190: Frames decoded; wraps. CNT, reset 0x0000_0000. -/
def RXD_CHn_FRAME_OK (n : Nat) : Nat := 0x61600 + 4 * (n % 80)
/-- R190: DECODE_FAIL and DECODE_LATE; saturates. CNT, reset 0x0000_0000. -/
def RXD_CHn_DEC_FAIL (n : Nat) : Nat := 0x61800 + 4 * (n % 80)
/-- R190: Receptions ended by capture; saturates. CNT, reset 0x0000_0000. -/
def RXD_CHn_CAPTURED (n : Nat) : Nat := 0x61a00 + 4 * (n % 80)
/-- R190: Receptions ended under R177; saturates. CNT, reset 0x0000_0000. -/
def RXD_CHn_ABORT (n : Nat) : Nat := 0x61c00 + 4 * (n % 80)

/-! ### MAC_ (R236) -/

/-- R236: MAC state. RO, reset 0x0000_0000. -/
def MAC_STATUS : Nat := 0x70000
def MAC_STATUS_JOIN_OPEN : Field := ⟨MAC_STATUS, 0, 1⟩
def MAC_STATUS_NBR_FULL : Field := ⟨MAC_STATUS, 1, 1⟩
def MAC_STATUS_JOIN_LIMITED : Field := ⟨MAC_STATUS, 2, 1⟩
def MAC_STATUS_BRIDLE_FULL : Field := ⟨MAC_STATUS, 3, 1⟩
/-- R236: Direct neighbours, [16:0]. RO, reset 0x0000_0000. -/
def MAC_NBR : Nat := 0x70004
/-- R236: Port S CCA. RW, reset cfg. -/
def MAC_CCA_x (p : RfPort) : Nat := 0x70008 + 0x4 * p.idx
def MAC_CCA_x_THR (p : RfPort) : Field := ⟨MAC_CCA_x p, 0, 8⟩
def MAC_CCA_x_ENERGY (p : RfPort) : Field := ⟨MAC_CCA_x p, 8, 1⟩
def MAC_CCA_x_PREAMBLE (p : RfPort) : Field := ⟨MAC_CCA_x p, 9, 1⟩
def MAC_CCA_x_LBT_EN (p : RfPort) : Field := ⟨MAC_CCA_x p, 10, 1⟩
/-- R236: Backoff parameters. RW, reset cfg. -/
def MAC_BACKOFF : Nat := 0x70010
def MAC_BACKOFF_UNIT_US : Field := ⟨MAC_BACKOFF, 0, 10⟩
def MAC_BACKOFF_BE_MIN : Field := ⟨MAC_BACKOFF, 10, 4⟩
def MAC_BACKOFF_BE_MAX : Field := ⟨MAC_BACKOFF, 14, 4⟩
def MAC_BACKOFF_MAX_CCA : Field := ⟨MAC_BACKOFF, 18, 3⟩
/-- R236: Retry limit. RW, reset cfg. -/
def MAC_RETRY : Nat := 0x70014
def MAC_RETRY_MAX : Field := ⟨MAC_RETRY, 0, 3⟩
/-- R236: ACK acceptance window. RW, reset cfg. -/
def MAC_ACK : Nat := 0x70018
def MAC_ACK_WIN_US : Field := ⟨MAC_ACK, 0, 6⟩
def MAC_ACK_ACK_CLASS : Field := ⟨MAC_ACK, 8, 2⟩
/-- R236: Pending frames. RW, reset cfg. -/
def MAC_PEND : Nat := 0x7001c
def MAC_PEND_AGE_S : Field := ⟨MAC_PEND, 0, 12⟩
def MAC_PEND_HIGH_REPLACE : Field := ⟨MAC_PEND, 12, 1⟩
/-- R236: Poll windows. RW, reset cfg. -/
def MAC_POLL : Nat := 0x70020
def MAC_POLL_GUARD_BASE_MS : Field := ⟨MAC_POLL, 0, 8⟩
def MAC_POLL_MISS_LIMIT : Field := ⟨MAC_POLL, 8, 4⟩
def MAC_POLL_STAGE_MS : Field := ⟨MAC_POLL, 12, 8⟩
/-- R236: Join admission. RW, reset cfg. -/
def MAC_JOIN : Nat := 0x70024
def MAC_JOIN_OPEN : Field := ⟨MAC_JOIN, 0, 1⟩
def MAC_JOIN_PER_BEAT : Field := ⟨MAC_JOIN, 1, 6⟩
def MAC_JOIN_WAIT_PER_BEAT : Field := ⟨MAC_JOIN, 7, 6⟩
def MAC_JOIN_HOLD_S : Field := ⟨MAC_JOIN, 13, 10⟩
def MAC_JOIN_RETRY_BASE_S : Field := ⟨MAC_JOIN, 23, 9⟩
/-- R236: Report coalescing. RW, reset cfg. -/
def MAC_BRIDLE : Nat := 0x70028
def MAC_BRIDLE_WINDOW_MS : Field := ⟨MAC_BRIDLE, 0, 16⟩
def MAC_BRIDLE_EN : Field := ⟨MAC_BRIDLE, 16, 1⟩
/-- R236: End-to-end reject event limit. RW, reset cfg. -/
def MAC_E2E : Nat := 0x7002c
def MAC_E2E_EVT_LIMIT : Field := ⟨MAC_E2E, 0, 8⟩
/-- R236: Beacon period and enable. RW, reset cfg. -/
def MAC_BEACON : Nat := 0x70030
def MAC_BEACON_PERIOD_MS : Field := ⟨MAC_BEACON, 0, 16⟩
def MAC_BEACON_EN : Field := ⟨MAC_BEACON, 16, 1⟩
/-- R236: Beacon on decoders 0–31, one bit each. RW, reset cfg. -/
def MAC_BEACON_EN0 : Nat := 0x70034
/-- R236: Beacon on decoders 32–63. RW, reset cfg. -/
def MAC_BEACON_EN1 : Nat := 0x70038
/-- R236: Beacon on decoders 64–79 in [15:0]. RW, reset cfg. -/
def MAC_BEACON_EN2 : Nat := 0x7003c
/-- R236: Frames dropped for reason r (R217); saturates. CNT, reset 0x0000_0000. -/
def MAC_DROPr (n : Nat) : Nat := 0x70100 + 4 * (n % 16)
/-- R236: Outcome NEW; wraps. CNT, reset 0x0000_0000. -/
def MAC_RX_OK : Nat := 0x70140
/-- R236: Outcome DUPLICATE; wraps. CNT, reset 0x0000_0000. -/
def MAC_DUP : Nat := 0x70144
/-- R236: ACKs sent; wraps. CNT, reset 0x0000_0000. -/
def MAC_ACK_SENT : Nat := 0x70148
/-- R236: ACKs not sent (R207); saturates. CNT, reset 0x0000_0000. -/
def MAC_ACK_DROP : Nat := 0x7014c
/-- R236: Router transmissions with no ACK accepted; saturates. CNT, reset 0x0000_0000. -/
def MAC_ACK_MISSED : Nat := 0x70150
/-- R236: R210; wraps. CNT, reset 0x0000_0000. -/
def MAC_ACK_STRAY : Nat := 0x70154
/-- R236: R209; saturates. CNT, reset 0x0000_0000. -/
def MAC_RETRY_EXH : Nat := 0x70158
/-- R236: Busy CCAs; wraps. CNT, reset 0x0000_0000. -/
def MAC_CCA_BUSY : Nat := 0x7015c
/-- R236: CHANNEL_BUSY outcomes; saturates. CNT, reset 0x0000_0000. -/
def MAC_CCA_FAIL : Nat := 0x70160
/-- R236: R215 DUP; wraps. CNT, reset 0x0000_0000. -/
def MAC_E2E_DUP : Nat := 0x70164
/-- R236: R215 OLD; saturates. CNT, reset 0x0000_0000. -/
def MAC_E2E_OLD : Nat := 0x70168
/-- R236: R219; saturates. CNT, reset 0x0000_0000. -/
def MAC_PEND_FULL : Nat := 0x7016c
/-- R236: R220; saturates. CNT, reset 0x0000_0000. -/
def MAC_PEND_AGED : Nat := 0x70170
/-- R236: POLLs accepted; wraps. CNT, reset 0x0000_0000. -/
def MAC_POLLS : Nat := 0x70174
/-- R236: R225; saturates. CNT, reset 0x0000_0000. -/
def MAC_POLL_OUTSIDE : Nat := 0x70178
/-- R236: Windows without a POLL; saturates. CNT, reset 0x0000_0000. -/
def MAC_POLL_MISSED : Nat := 0x7017c
/-- R236: R221 step 5; saturates. CNT, reset 0x0000_0000. -/
def MAC_LISTEN_MISS : Nat := 0x70180
/-- R236: R228; wraps. CNT, reset 0x0000_0000. -/
def MAC_JOIN_REQ : Nat := 0x70184
/-- R236: R228; saturates. CNT, reset 0x0000_0000. -/
def MAC_JOIN_OVER : Nat := 0x70188
/-- R236: Accepts sent; wraps. CNT, reset 0x0000_0000. -/
def MAC_JOIN_ACCEPT : Nat := 0x7018c
/-- R236: Refuses sent; wraps. CNT, reset 0x0000_0000. -/
def MAC_JOIN_REFUSE : Nat := 0x70190
/-- R236: R233; wraps. CNT, reset 0x0000_0000. -/
def MAC_REPORTS : Nat := 0x70194
/-- R236: MAC_REPORT events; wraps. CNT, reset 0x0000_0000. -/
def MAC_BRIDLE_EVT : Nat := 0x70198
/-- R236: R234; saturates. CNT, reset 0x0000_0000. -/
def MAC_BRIDLE_EVICT : Nat := 0x7019c
/-- R236: Beacons sent; wraps. CNT, reset 0x0000_0000. -/
def MAC_BEACONS : Nat := 0x701a0
/-- R236: R227; saturates. CNT, reset 0x0000_0000. -/
def MAC_BEACON_SKIP : Nat := 0x701a4

/-! ### FWD_ (R282) -/

/-- R282: Forwarding state. RO, reset 0x0000_0000. -/
def FWD_STATUS : Nat := 0x80000
def FWD_STATUS_RUNNING : Field := ⟨FWD_STATUS, 0, 1⟩
def FWD_STATUS_SWEEP : Field := ⟨FWD_STATUS, 1, 1⟩
def FWD_STATUS_RESYNC : Field := ⟨FWD_STATUS, 2, 1⟩
def FWD_STATUS_NEAR_FULL : Field := ⟨FWD_STATUS, 8, 4⟩
/-- R282: Table operation. CMD, reset 0x0000_0000. -/
def FWD_CMD : Nat := 0x80004
def FWD_CMD_OP : Field := ⟨FWD_CMD, 0, 4⟩
def FWD_CMD_TABLE : Field := ⟨FWD_CMD, 4, 2⟩
/-- R282: Operation state and result status. MBX, reset 0x0000_0000. -/
def FWD_CMD_STAT : Nat := 0x80008
def FWD_CMD_STAT_BUSY : Field := ⟨FWD_CMD_STAT, 0, 1⟩
def FWD_CMD_STAT_VALID : Field := ⟨FWD_CMD_STAT, 1, 1⟩
def FWD_CMD_STAT_STATUS : Field := ⟨FWD_CMD_STAT, 2, 4⟩
def FWD_CMD_STAT_WAY : Field := ⟨FWD_CMD_STAT, 6, 2⟩
def FWD_CMD_STAT_BUCKET : Field := ⟨FWD_CMD_STAT, 8, 16⟩
/-- R282: Staging, entry bits [32x + 31:32x]. RW, reset 0x0000_0000. -/
def FWD_DATAx (n : Nat) : Nat := 0x80010 + 4 * (n % 4)
/-- R282: Result, entry bits [32x + 31:32x]. MBX, reset 0x0000_0000. -/
def FWD_RESx (n : Nat) : Nat := 0x80020 + 4 * (n % 4)
/-- R282: Encapsulation settings. RW, reset cfg. -/
def FWD_ENCAP : Nat := 0x80030
def FWD_ENCAP_UDP_PORT : Field := ⟨FWD_ENCAP, 0, 16⟩
def FWD_ENCAP_HOP_LIMIT : Field := ⟨FWD_ENCAP, 16, 8⟩
def FWD_ENCAP_STATUS_ALL : Field := ⟨FWD_ENCAP, 24, 1⟩
def FWD_ENCAP_UL_REPORTS : Field := ⟨FWD_ENCAP, 25, 1⟩
def FWD_ENCAP_DEF_PORT : Field := ⟨FWD_ENCAP, 26, 1⟩
/-- R282: Node Directory base, MiB from the start of the Envelope, [11:0]. RO, reset cfg. -/
def FWD_DIR_BASE : Nat := 0x80034
/-- R282: Table n ageing, eviction, learning. RW, reset cfg. -/
def FWD_TBLn_CFG (n : Nat) : Nat := 0x80040 + 4 * (n % 4)
def FWD_TBLn_CFG_AGE_LIMIT (n : Nat) : Field := ⟨FWD_TBLn_CFG n, 0, 22⟩
def FWD_TBLn_CFG_EVICT (n : Nat) : Field := ⟨FWD_TBLn_CFG n, 22, 1⟩
def FWD_TBLn_CFG_LEARN_EN (n : Nat) : Field := ⟨FWD_TBLn_CFG n, 23, 1⟩
def FWD_TBLn_CFG_SHADOW_EN (n : Nat) : Field := ⟨FWD_TBLn_CFG n, 24, 1⟩
/-- R282: Table n hash seed. RW, reset cfg. -/
def FWD_TBLn_SEED (n : Nat) : Nat := 0x80050 + 4 * (n % 4)
def FWD_TBLn_SEED_SEED (n : Nat) : Field := ⟨FWD_TBLn_SEED n, 0, 32⟩
/-- R282: Table n valid entries [18:0], static entries [31:19] saturating at 8,191. RO, reset 0x0000_0000. -/
def FWD_TBLn_COUNT (n : Nat) : Nat := 0x80060 + 4 * (n % 4)
/-- R282: Lookups; wraps. CNT, reset 0x0000_0000. -/
def FWD_TBLn_LOOKUP (n : Nat) : Nat := 0x80100 + 4 * (n % 4)
/-- R282: Lookups that found the key; wraps. CNT, reset 0x0000_0000. -/
def FWD_TBLn_HIT (n : Nat) : Nat := 0x80110 + 4 * (n % 4)
/-- R282: Learns applied; wraps. CNT, reset 0x0000_0000. -/
def FWD_TBLn_LEARN (n : Nat) : Nat := 0x80120 + 4 * (n % 4)
/-- R282: Evictions; saturates. CNT, reset 0x0000_0000. -/
def FWD_TBLn_EVICT (n : Nat) : Nat := 0x80130 + 4 * (n % 4)
/-- R282: Entries aged out; wraps. CNT, reset 0x0000_0000. -/
def FWD_TBLn_AGED (n : Nat) : Nat := 0x80140 + 4 * (n % 4)
/-- R282: NO_SPACE refusals; saturates. CNT, reset 0x0000_0000. -/
def FWD_TBLn_NOSPACE (n : Nat) : Nat := 0x80150 + 4 * (n % 4)
/-- R282: Corrected entry errors; saturates. CNT, reset 0x0000_0000. -/
def FWD_TBLn_ECC_CORR (n : Nat) : Nat := 0x80160 + 4 * (n % 4)
/-- R282: Uncorrectable entry errors; saturates. CNT, reset 0x0000_0000. -/
def FWD_TBLn_ECC_UNC (n : Nat) : Nat := 0x80170 + 4 * (n % 4)
/-- R282: Digest mismatches; saturates. CNT, reset 0x0000_0000. -/
def FWD_TBLn_SHADOW (n : Nat) : Nat := 0x80180 + 4 * (n % 4)
/-- R282: Compare-and-deletes that lost to a refresh; wraps. CNT, reset 0x0000_0000. -/
def FWD_TBLn_CAD_LOST (n : Nat) : Nat := 0x80190 + 4 * (n % 4)
/-- R282: Confirmed moves; wraps. CNT, reset 0x0000_0000. -/
def FWD_MOVES : Nat := 0x80200
/-- R282: Route walks with reason OK; wraps. CNT, reset 0x0000_0000. -/
def FWD_RW_OK : Nat := 0x80204
/-- R282: Route walks that failed; saturates. CNT, reset 0x0000_0000. -/
def FWD_RW_FAIL : Nat := 0x80208
/-- R282: UPLINK messages sent; wraps. CNT, reset 0x0000_0000. -/
def FWD_UL_OUT : Nat := 0x8020c
/-- R282: DOWNLINK messages accepted; wraps. CNT, reset 0x0000_0000. -/
def FWD_DL_IN : Nat := 0x80210
/-- R282: DOWNLINK messages refused; saturates. CNT, reset 0x0000_0000. -/
def FWD_DL_REFUSED : Nat := 0x80214
/-- R282: Datagrams refused under R275; saturates. CNT, reset 0x0000_0000. -/
def FWD_DL_BAD : Nat := 0x80218
/-- R282: Records cleared under R250; saturates. CNT, reset 0x0000_0000. -/
def FWD_DIR_TORN : Nat := 0x8021c
/-- R282: FWD_CMD writes refused while BUSY; saturates. CNT, reset 0x0000_0000. -/
def FWD_CMD_REFUSED : Nat := 0x80220

/-! ### ENV_ (R318) -/

/-- R318: Envelope state. RO, reset 0x0000_0000. -/
def ENV_STATUS : Nat := 0x90000
def ENV_STATUS_RUNNING : Field := ⟨ENV_STATUS, 0, 1⟩
def ENV_STATUS_SCRUBBING : Field := ⟨ENV_STATUS, 1, 1⟩
def ENV_STATUS_QUEUES_USED : Field := ⟨ENV_STATUS, 16, 13⟩
/-- R318: Patrol scrub. RW, reset cfg. -/
def ENV_ECC_CFG : Nat := 0x90004
def ENV_ECC_CFG_SCRUB_EN : Field := ⟨ENV_ECC_CFG, 0, 1⟩
def ENV_ECC_CFG_SCRUB_HOURS : Field := ⟨ENV_ECC_CFG, 1, 8⟩
/-- R318: Free spill pages, [20:0]. RO, reset 0x0000_0000. -/
def ENV_POOL : Nat := 0x90008
/-- R318: Envelope address of the queue statistics records. RO, reset cfg. -/
def ENV_QSTATS_BASE : Nat := 0x9000c
/-- R318: Ballast pin control. RW, reset cfg. -/
def ENV_FC_CTL : Nat := 0x90010
def ENV_FC_CTL_EN : Field := ⟨ENV_FC_CTL, 0, 8⟩
def ENV_FC_CTL_POL : Field := ⟨ENV_FC_CTL, 8, 8⟩
def ENV_FC_CTL_MIN_HOLD_US : Field := ⟨ENV_FC_CTL, 16, 8⟩
/-- R318: Group states and pin levels. RO, reset 0x0000_0000. -/
def ENV_FC_STATE : Nat := 0x90014
def ENV_FC_STATE_GROUP : Field := ⟨ENV_FC_STATE, 0, 8⟩
def ENV_FC_STATE_ASSERTED : Field := ⟨ENV_FC_STATE, 8, 8⟩
/-- R318: Queue command. CMD, reset 0x0000_0000. -/
def ENV_QCMD : Nat := 0x90020
def ENV_QCMD_OP : Field := ⟨ENV_QCMD, 0, 4⟩
def ENV_QCMD_QUEUE : Field := ⟨ENV_QCMD, 4, 12⟩
/-- R318: Command state and status. MBX, reset 0x0000_0000. -/
def ENV_QCMD_STAT : Nat := 0x90024
def ENV_QCMD_STAT_BUSY : Field := ⟨ENV_QCMD_STAT, 0, 1⟩
def ENV_QCMD_STAT_VALID : Field := ⟨ENV_QCMD_STAT, 1, 1⟩
def ENV_QCMD_STAT_STATUS : Field := ⟨ENV_QCMD_STAT, 2, 3⟩
/-- R318: Staging. RW, reset 0x0000_0000. -/
def ENV_QDATAx (n : Nat) : Nat := 0x90030 + 4 * (n % 4)
/-- R318: Results. MBX, reset 0x0000_0000. -/
def ENV_QRESx (n : Nat) : Nat := 0x90040 + 4 * (n % 8)
/-- R318: Region r base, MiB, [11:0]. RO, reset cfg. -/
def ENV_REGr_BASE (n : Nat) : Nat := 0x90060 + 4 * (n % 8)
/-- R318: Region r size, MiB, [12:0]. RO, reset cfg. -/
def ENV_REGr_SIZE (n : Nat) : Nat := 0x90080 + 4 * (n % 8)
/-- R318: Corrected errors; 32-bit, saturates. CNT, reset 0x0000_0000. -/
def ENV_ECC_CORR : Nat := 0x90100
/-- R318: Uncorrectable errors; 32-bit, saturates. CNT, reset 0x0000_0000. -/
def ENV_ECC_UNC : Nat := 0x90104
/-- R318: Completed scrub passes; 32-bit, wraps. CNT, reset 0x0000_0000. -/
def ENV_SCRUB_PASSES : Nat := 0x90108
/-- R318: Queue word parity failures; 32-bit, saturates. CNT, reset 0x0000_0000. -/
def ENV_PARITY : Nat := 0x9010c
/-- R318: Poisoned packets discarded; 32-bit, saturates. CNT, reset 0x0000_0000. -/
def ENV_POISON_READ : Nat := 0x90110
/-- R318: Open packets aborted; 32-bit, wraps. CNT, reset 0x0000_0000. -/
def ENV_ABORTS : Nat := 0x90114
/-- R318: Packets dropped for framing or not-valid words; 32-bit, saturates. CNT, reset 0x0000_0000. -/
def ENV_FRAMING : Nat := 0x90118
/-- R318: Packets refused under R304; 32-bit, saturates. CNT, reset 0x0000_0000. -/
def ENV_DROP : Nat := 0x9011c
/-- R318: DEQs that found RPTR = TAIL; 32-bit, wraps. CNT, reset 0x0000_0000. -/
def ENV_EMPTY_READS : Nat := 0x90120
/-- R318: ENV_QCMD writes refused while BUSY; 32-bit, saturates. CNT, reset 0x0000_0000. -/
def ENV_QCMD_REFUSED : Nat := 0x90124

/-! ### SCH_ (R355) -/

/-- R355: Scheduler state. RO, reset 0x0000_0000. -/
def SCH_STATUS : Nat := 0xa0000
def SCH_STATUS_RUNNING : Field := ⟨SCH_STATUS, 0, 1⟩
def SCH_STATUS_REBUILD : Field := ⟨SCH_STATUS, 1, 4⟩
def SCH_STATUS_EMPTY_S : Field := ⟨SCH_STATUS, 5, 1⟩
def SCH_STATUS_EMPTY_W : Field := ⟨SCH_STATUS, 6, 1⟩
def SCH_STATUS_PLACED_S : Field := ⟨SCH_STATUS, 16, 8⟩
def SCH_STATUS_PLACED_W : Field := ⟨SCH_STATUS, 24, 8⟩
/-- R355: Snapshot request and selector; bit 31 reads VALID. MBX, reset 0x0000_0000. -/
def SCH_SNAP_REQ : Nat := 0xa0004
/-- R355: V [31:0]. MBX, reset 0x0000_0000. -/
def SCH_SNAP_V_LO : Nat := 0xa0008
/-- R355: V [47:32] in [15:0]. MBX, reset 0x0000_0000. -/
def SCH_SNAP_V_HI : Nat := 0xa000c
/-- R355: F [31:0]. MBX, reset 0x0000_0000. -/
def SCH_SNAP_F_LO : Nat := 0xa0010
/-- R355: F [47:32] in [15:0]; bit 16 HEAD. MBX, reset 0x0000_0000. -/
def SCH_SNAP_F_HI : Nat := 0xa0014
/-- R355: Credit [31:0]. MBX, reset 0x0000_0000. -/
def SCH_SNAP_C_LO : Nat := 0xa0018
/-- R355: Credit [47:32] in [15:0], two's complement. MBX, reset 0x0000_0000. -/
def SCH_SNAP_C_HI : Nat := 0xa001c
/-- R355: Tc in bits. MBX, reset 0x0000_0000. -/
def SCH_SNAP_TC : Nat := 0xa0020
/-- R355: Tp in bits. MBX, reset 0x0000_0000. -/
def SCH_SNAP_TP : Nat := 0xa0024
/-- R355: Accounting overheads of port p. RW, reset cfg. -/
def SCH_PORTp_OH (n : Nat) : Nat := 0xa0030 + 4 * (n % 2)
def SCH_PORTp_OH_PLE (n : Nat) : Field := ⟨SCH_PORTp_OH n, 0, 8⟩
def SCH_PORTp_OH_BRIDGE (n : Nat) : Field := ⟨SCH_PORTp_OH n, 8, 8⟩
/-- R355: Uplink class weight and shaper enable. RW, reset cfg. -/
def SCH_ULk_CFG (n : Nat) : Nat := 0xa0040 + 4 * (n % 16)
def SCH_ULk_CFG_WEIGHT (n : Nat) : Field := ⟨SCH_ULk_CFG n, 0, 16⟩
def SCH_ULk_CFG_SHAPE_EN (n : Nat) : Field := ⟨SCH_ULk_CFG n, 16, 1⟩
/-- R355: Idle slope. RW, reset cfg. -/
def SCH_ULk_SLOPE (n : Nat) : Nat := 0xa0080 + 4 * (n % 16)
def SCH_ULk_SLOPE_IDLE_SLOPE (n : Nat) : Field := ⟨SCH_ULk_SLOPE n, 0, 24⟩
/-- R355: Policer control. RW, reset cfg. -/
def SCH_POLk_CTL (n : Nat) : Nat := 0xa00c0 + 4 * (n % 16)
def SCH_POLk_CTL_EN (n : Nat) : Field := ⟨SCH_POLk_CTL n, 0, 1⟩
def SCH_POLk_CTL_AWARE (n : Nat) : Field := ⟨SCH_POLk_CTL n, 1, 1⟩
def SCH_POLk_CTL_YELLOW_HI (n : Nat) : Field := ⟨SCH_POLk_CTL n, 2, 1⟩
/-- R355: Committed rate. RW, reset cfg. -/
def SCH_POLk_CIR (n : Nat) : Nat := 0xa0100 + 4 * (n % 16)
def SCH_POLk_CIR_CIR (n : Nat) : Field := ⟨SCH_POLk_CIR n, 0, 24⟩
/-- R355: Peak rate. RW, reset cfg. -/
def SCH_POLk_PIR (n : Nat) : Nat := 0xa0140 + 4 * (n % 16)
def SCH_POLk_PIR_PIR (n : Nat) : Field := ⟨SCH_POLk_PIR n, 0, 24⟩
/-- R355: Committed burst. RW, reset cfg. -/
def SCH_POLk_CBS (n : Nat) : Nat := 0xa0180 + 4 * (n % 16)
def SCH_POLk_CBS_CBS (n : Nat) : Field := ⟨SCH_POLk_CBS n, 0, 24⟩
/-- R355: Peak burst. RW, reset cfg. -/
def SCH_POLk_PBS (n : Nat) : Nat := 0xa01c0 + 4 * (n % 16)
def SCH_POLk_PBS_PBS (n : Nat) : Field := ⟨SCH_POLk_PBS n, 0, 24⟩
/-- R355: Port S planner control. RW, reset cfg. -/
def SCH_AIRx_CTL (p : RfPort) : Nat := 0xa0200 + 0x4 * p.idx
def SCH_AIRx_CTL_SLACK_US (p : RfPort) : Field := ⟨SCH_AIRx_CTL p, 0, 9⟩
def SCH_AIRx_CTL_PLAN_MAX (p : RfPort) : Field := ⟨SCH_AIRx_CTL p, 10, 6⟩
def SCH_AIRx_CTL_STRICT (p : RfPort) : Field := ⟨SCH_AIRx_CTL p, 16, 5⟩
def SCH_AIRx_CTL_STARVE_LIMIT (p : RfPort) : Field := ⟨SCH_AIRx_CTL p, 24, 8⟩
/-- R355: Port S ACK allowance. RW, reset cfg. -/
def SCH_AIRx_ACK (p : RfPort) : Nat := 0xa0208 + 0x4 * p.idx
def SCH_AIRx_ACK_CHAIN (p : RfPort) : Field := ⟨SCH_AIRx_ACK p, 0, 1⟩
def SCH_AIRx_ACK_EN (p : RfPort) : Field := ⟨SCH_AIRx_ACK p, 1, 1⟩
def SCH_AIRx_ACK_SHARE_PCT (p : RfPort) : Field := ⟨SCH_AIRx_ACK p, 2, 7⟩
def SCH_AIRx_ACK_MAX_US (p : RfPort) : Field := ⟨SCH_AIRx_ACK p, 9, 12⟩
/-- R355: Port S flow q. RW, reset cfg. -/
def SCH_AIRx_Fq (p : RfPort) (n : Nat) : Nat := 0xa0300 + 0x100 * p.idx + 4 * (n % 64)
def SCH_AIRx_Fq_QUEUE (p : RfPort) (n : Nat) : Field := ⟨SCH_AIRx_Fq p n, 0, 12⟩
def SCH_AIRx_Fq_CLASS (p : RfPort) (n : Nat) : Field := ⟨SCH_AIRx_Fq p n, 12, 3⟩
def SCH_AIRx_Fq_WEIGHT (p : RfPort) (n : Nat) : Field := ⟨SCH_AIRx_Fq p n, 16, 16⟩
/-- R355: Packets selected; wraps. CNT, reset 0x0000_0000. -/
def SCH_ULk_SENT (n : Nat) : Nat := 0xa0800 + 4 * (n % 16)
/-- R355: Packets coloured GREEN; wraps. CNT, reset 0x0000_0000. -/
def SCH_POLk_GREEN (n : Nat) : Nat := 0xa0840 + 4 * (n % 16)
/-- R355: Packets coloured YELLOW; wraps. CNT, reset 0x0000_0000. -/
def SCH_POLk_YELLOW (n : Nat) : Nat := 0xa0880 + 4 * (n % 16)
/-- R355: Packets coloured RED; saturates. CNT, reset 0x0000_0000. -/
def SCH_POLk_RED (n : Nat) : Nat := 0xa08c0 + 4 * (n % 16)
/-- R355: YELLOW packets refused at HI; saturates. CNT, reset 0x0000_0000. -/
def SCH_POLk_YDROP (n : Nat) : Nat := 0xa0900 + 4 * (n % 16)
/-- R355: Port S entries placed; wraps. CNT, reset 0x0000_0000. -/
def SCH_AIRx_PLACED (p : RfPort) : Nat := 0xa0940 + 0x4 * p.idx
/-- R355: Port S candidates refused for reason r; saturates. CNT, reset 0x0000_0000. -/
def SCH_AIRx_REFr (p : RfPort) (n : Nat) : Nat := 0xa0960 + 0x20 * p.idx + 4 * (n % 8)
/-- R355: Residue mismatches cured by repeat; saturates. CNT, reset 0x0000_0000. -/
def SCH_RESIDUE_FIX : Nat := 0xa09a0
/-- R355: Second residue mismatches; saturates. CNT, reset 0x0000_0000. -/
def SCH_ARITH_FAULT : Nat := 0xa09a4

/-! ### SEC_ (R406) -/

/-- R406: Security state. RO, reset 0x0000_0000. -/
def SEC_STATUS : Nat := 0xb0000
def SEC_STATUS_READY : Field := ⟨SEC_STATUS, 0, 1⟩
def SEC_STATUS_ZEROISED : Field := ⟨SEC_STATUS, 1, 1⟩
def SEC_STATUS_ROLL_PENDING : Field := ⟨SEC_STATUS, 2, 1⟩
def SEC_STATUS_EPOCH_LOW : Field := ⟨SEC_STATUS, 3, 1⟩
def SEC_STATUS_TAMPER : Field := ⟨SEC_STATUS, 4, 1⟩
def SEC_STATUS_CORES_BUSY : Field := ⟨SEC_STATUS, 8, 8⟩
def SEC_STATUS_SLOTS_VALID : Field := ⟨SEC_STATUS, 16, 11⟩
/-- R406: ROOTSET [31:16], EPOCH [15:0]; written in step 5 of R386 and at each roll. RO, reset 0x0000_0000. -/
def SEC_EPOCH : Nat := 0xb0004
/-- R406: Root slot roles. RO, reset cfg. -/
def SEC_ROOTMAP : Nat := 0xb0008
def SEC_ROOTMAP_NODE_ROOT : Field := ⟨SEC_ROOTMAP, 0, 3⟩
def SEC_ROOTMAP_NET_ROOT : Field := ⟨SEC_ROOTMAP, 4, 3⟩
def SEC_ROOTMAP_PAIR_WRAP : Field := ⟨SEC_ROOTMAP, 8, 3⟩
def SEC_ROOTMAP_PAIR_WRAP_EN : Field := ⟨SEC_ROOTMAP, 11, 1⟩
/-- R406: Group key number. RW, reset cfg. -/
def SEC_GROUP : Nat := 0xb000c
def SEC_GROUP_GROUP : Field := ⟨SEC_GROUP, 0, 16⟩
/-- R406: Cache lifetime. RW, reset cfg. -/
def SEC_CACHE_CFG : Nat := 0xb0010
def SEC_CACHE_CFG_LIFE_BEATS : Field := ⟨SEC_CACHE_CFG, 0, 16⟩
def SEC_CACHE_CFG_EN : Field := ⟨SEC_CACHE_CFG, 16, 1⟩
/-- R406: Last counter used with the BCAST key. RO, reset 0x0000_0000. -/
def SEC_TXCTR_BCAST : Nat := 0xb0014
/-- R406: Last counter used with JOIN keys. RO, reset 0x0000_0000. -/
def SEC_TXCTR_JOIN : Nat := 0xb0018
/-- R406: Tamper sources; the configuration load writes it. RW, reset 0x0000_026F AON. -/
def SEC_TAMPER_CFG : Nat := 0xb0020
def SEC_TAMPER_CFG_T0_EN : Field := ⟨SEC_TAMPER_CFG, 0, 1⟩
def SEC_TAMPER_CFG_T0_LOW : Field := ⟨SEC_TAMPER_CFG, 1, 1⟩
def SEC_TAMPER_CFG_T1_EN : Field := ⟨SEC_TAMPER_CFG, 2, 1⟩
def SEC_TAMPER_CFG_T1_LOW : Field := ⟨SEC_TAMPER_CFG, 3, 1⟩
def SEC_TAMPER_CFG_VMON : Field := ⟨SEC_TAMPER_CFG, 4, 2⟩
def SEC_TAMPER_CFG_TMON : Field := ⟨SEC_TAMPER_CFG, 6, 2⟩
def SEC_TAMPER_CFG_CMON : Field := ⟨SEC_TAMPER_CFG, 8, 2⟩
def SEC_TAMPER_CFG_ERASE_KEYAREA : Field := ⟨SEC_TAMPER_CFG, 10, 1⟩
/-- R406: Pin debounce. RW, reset 0x0000_0032 AON. -/
def SEC_TAMPER_DEB : Nat := 0xb0024
def SEC_TAMPER_DEB_DEB_US : Field := ⟨SEC_TAMPER_DEB, 0, 8⟩
/-- R406: Tamper latch and live levels. RO, reset 0x0000_0000 AON. -/
def SEC_TAMPER_STAT : Nat := 0xb0028
def SEC_TAMPER_STAT_LATCHED : Field := ⟨SEC_TAMPER_STAT, 0, 1⟩
def SEC_TAMPER_STAT_CAUSE : Field := ⟨SEC_TAMPER_STAT, 1, 3⟩
def SEC_TAMPER_STAT_MODE_AT : Field := ⟨SEC_TAMPER_STAT, 4, 4⟩
def SEC_TAMPER_STAT_T0_NOW : Field := ⟨SEC_TAMPER_STAT, 8, 1⟩
def SEC_TAMPER_STAT_T1_NOW : Field := ⟨SEC_TAMPER_STAT, 9, 1⟩
def SEC_TAMPER_STAT_MON_NOW : Field := ⟨SEC_TAMPER_STAT, 10, 1⟩
/-- R406: Slot query. CMD, reset 0x0000_0000. -/
def SEC_SLOT_CMD : Nat := 0xb0030
def SEC_SLOT_CMD_OP : Field := ⟨SEC_SLOT_CMD, 0, 2⟩
def SEC_SLOT_CMD_SLOT : Field := ⟨SEC_SLOT_CMD, 2, 10⟩
/-- R406: Query state. MBX, reset 0x0000_0000. -/
def SEC_SLOT_STAT : Nat := 0xb0034
def SEC_SLOT_STAT_BUSY : Field := ⟨SEC_SLOT_STAT, 0, 1⟩
def SEC_SLOT_STAT_VALID : Field := ⟨SEC_SLOT_STAT, 1, 1⟩
def SEC_SLOT_STAT_RESULT : Field := ⟨SEC_SLOT_STAT, 2, 2⟩
/-- R406: ATTR. MBX, reset 0x0000_0000. -/
def SEC_SLOT_META0 : Nat := 0xb0038
/-- R406: PARENT [15:0], GEN [31:16]. MBX, reset 0x0000_0000. -/
def SEC_SLOT_META1 : Nat := 0xb003c
/-- R406: STATE [2:0]; TAG_OK [3]; operations holding the key [9:4]. MBX, reset 0x0000_0000. -/
def SEC_SLOT_META2 : Nat := 0xb0040
/-- R406: Write 0x5A5A_0001 to zeroise and enter HOLD. GRD, reset 0x0000_0000. -/
def SEC_ZEROISE : Nat := 0xb0060
/-- R406: Write 0x5A5A_0002 to clear the tamper latch (R398). GRD, reset 0x0000_0000. -/
def SEC_TAMPER_CLR : Nat := 0xb0070
/-- R406: CCM operations; 32-bit, wraps. CNT, reset 0x0000_0000. -/
def SEC_CCM_OPS : Nat := 0xb0100
/-- R406: CCM opens that failed their MIC; 32-bit, saturates. CNT, reset 0x0000_0000. -/
def SEC_MIC_FAIL : Nat := 0xb0104
/-- R406: Derivation steps; 32-bit, wraps. CNT, reset 0x0000_0000. -/
def SEC_DERIVE : Nat := 0xb0108
/-- R406: Cache hits; 32-bit, wraps. CNT, reset 0x0000_0000. -/
def SEC_CACHE_HIT : Nat := 0xb010c
/-- R406: Cache misses; 32-bit, wraps. CNT, reset 0x0000_0000. -/
def SEC_CACHE_MISS : Nat := 0xb0110
/-- R406: INVALID_KEY completions; 32-bit, saturates. CNT, reset 0x0000_0000. -/
def SEC_INVALID_KEY : Nat := 0xb0114
/-- R406: Slots orphaned; 32-bit, saturates. CNT, reset 0x0000_0000. -/
def SEC_ORPHANS : Nat := 0xb0118
/-- R406: Slots torn; 32-bit, saturates. CNT, reset 0x0000_0000. -/
def SEC_TORN : Nat := 0xb011c
/-- R406: Failed unwraps; 32-bit, saturates. CNT, reset 0x0000_0000. -/
def SEC_UNWRAP_FAILS : Nat := 0xb0120
/-- R406: Epoch rolls; 32-bit, saturates. CNT, reset 0x0000_0000. -/
def SEC_ROLLS : Nat := 0xb0124
/-- R406: Zeroisations; 32-bit, saturates. CNT, reset 0x0000_0000 AON. -/
def SEC_ZEROISE_CNT : Nat := 0xb0128
/-- R406: Tamper causes, including those while latched; 32-bit, saturates. CNT, reset 0x0000_0000 AON. -/
def SEC_TAMPER_CNT : Nat := 0xb012c
/-- R406: SEC_SLOT_CMD writes refused while BUSY; 32-bit, saturates. CNT, reset 0x0000_0000. -/
def SEC_SLOT_REFUSED : Nat := 0xb0130

/-! ### FUSE_ (R411) -/

/-- R411: Fuse state. RO, reset 0x0000_0000. -/
def FUSE_STATUS : Nat := 0x108000
def FUSE_STATUS_SENSED : Field := ⟨FUSE_STATUS, 0, 1⟩
def FUSE_STATUS_PROG_BUSY : Field := ⟨FUSE_STATUS, 1, 1⟩
def FUSE_STATUS_LIFECYCLE : Field := ⟨FUSE_STATUS, 2, 2⟩
def FUSE_STATUS_DEBUG_LOCK : Field := ⟨FUSE_STATUS, 4, 1⟩
def FUSE_STATUS_TEST_LOCK : Field := ⟨FUSE_STATUS, 5, 1⟩
def FUSE_STATUS_HASH0_OK : Field := ⟨FUSE_STATUS, 6, 1⟩
def FUSE_STATUS_HASH1_OK : Field := ⟨FUSE_STATUS, 7, 1⟩
def FUSE_STATUS_SEED_OK : Field := ⟨FUSE_STATUS, 8, 1⟩
def FUSE_STATUS_REVOKED : Field := ⟨FUSE_STATUS, 9, 2⟩
def FUSE_STATUS_LAST : Field := ⟨FUSE_STATUS, 12, 3⟩
/-- R411: Write a row in [6:0]; bit 31 reads VALID. MBX, reset 0x0000_0000. -/
def FUSE_READ_REQ : Nat := 0x108004
/-- R411: Row contents; rows 20–28 read 0. MBX, reset 0x0000_0000. -/
def FUSE_READ_DATA : Nat := 0x108008
/-- R411: Bits to blow. RW, reset 0x0000_0000. -/
def FUSE_PROG_DATA : Nat := 0x10800c
/-- R411: Row to program in [6:0] (R404). GRD, reset 0x0000_0000. -/
def FUSE_PROG : Nat := 0x108010
/-- R411: Target lifecycle state in [1:0] (R403). GRD, reset 0x0000_0000. -/
def FUSE_ADVANCE : Nat := 0x108020
/-- R411: Rows programmed; 32-bit, saturates. CNT, reset 0x0000_0000. -/
def FUSE_PROG_COUNT : Nat := 0x108030
/-- R411: VERIFY_FAIL outcomes; 32-bit, saturates. CNT, reset 0x0000_0000. -/
def FUSE_PROG_FAIL : Nat := 0x108034

/-! ### TK_ (R438) -/

/-- R438: Time keeper state. RO, reset 0x0000_0000. -/
def TK_STATUS : Nat := 0xc0000
def TK_STATUS_RUNNING : Field := ⟨TK_STATUS, 0, 1⟩
def TK_STATUS_STATE : Field := ⟨TK_STATUS, 1, 2⟩
def TK_STATUS_TRACE : Field := ⟨TK_STATUS, 3, 1⟩
def TK_STATUS_ARMED : Field := ⟨TK_STATUS, 4, 1⟩
def TK_STATUS_STEP_BUSY : Field := ⟨TK_STATUS, 5, 1⟩
def TK_STATUS_STEP_LAST : Field := ⟨TK_STATUS, 6, 3⟩
def TK_STATUS_SEEDED : Field := ⟨TK_STATUS, 9, 1⟩
def TK_STATUS_AT_LIMIT : Field := ⟨TK_STATUS, 10, 1⟩
def TK_STATUS_TSI_PENDING : Field := ⟨TK_STATUS, 16, 4⟩
def TK_STATUS_TSI_FULL : Field := ⟨TK_STATUS, 20, 4⟩
/-- R438: Time snapshot request; bit 31 reads VALID. MBX, reset 0x0000_0000. -/
def TK_TIME_REQ : Nat := 0xc0004
/-- R438: Seconds [31:0]. MBX, reset 0x0000_0000. -/
def TK_TIME_S_LO : Nat := 0xc0008
/-- R438: Seconds [47:32] in [15:0]. MBX, reset 0x0000_0000. -/
def TK_TIME_S_HI : Nat := 0xc000c
/-- R438: Nanoseconds. MBX, reset 0x0000_0000. -/
def TK_TIME_NS : Nat := 0xc0010
/-- R438: Fraction in 2⁻¹⁶ ns, [15:0]. MBX, reset 0x0000_0000. -/
def TK_TIME_FRAC : Nat := 0xc0014
/-- R438: INC[31:0], staged (R415). RW, reset 0x0000_0000. -/
def TK_INCR_FRAC : Nat := 0xc0020
def TK_INCR_FRAC_FRAC : Field := ⟨TK_INCR_FRAC, 0, 32⟩
/-- R438: INC[39:32] in [7:0]; a write applies the pair. RW, reset 0x0000_0004. -/
def TK_INCR_INT : Nat := 0xc0024
def TK_INCR_INT_INT : Field := ⟨TK_INCR_INT, 0, 8⟩
/-- R438: Servo state and holdover limit. RW, reset cfg. -/
def TK_SERVO : Nat := 0xc0028
def TK_SERVO_STATE_REQ : Field := ⟨TK_SERVO, 0, 2⟩
def TK_SERVO_HOLDOVER_S : Field := ⟨TK_SERVO, 4, 12⟩
/-- R438: Step offset seconds [31:0]. RW, reset 0x0000_0000. -/
def TK_STEP_S_LO : Nat := 0xc0030
/-- R438: Step offset seconds [47:32] in [15:0], two's complement. RW, reset 0x0000_0000. -/
def TK_STEP_S_HI : Nat := 0xc0034
/-- R438: Step offset nanoseconds. RW, reset 0x0000_0000. -/
def TK_STEP_NS : Nat := 0xc0038
def TK_STEP_NS_NS : Field := ⟨TK_STEP_NS, 0, 30⟩
/-- R438: Write 1 to bit 0 (GO) to request the step. CMD, reset 0x0000_0000. -/
def TK_STEP_CMD : Nat := 0xc003c
def TK_STEP_CMD_GO : Field := ⟨TK_STEP_CMD, 0, 1⟩
/-- R438: Write 0x5A5A_0003 to arm a step (R419). GRD, reset 0x0000_0000. -/
def TK_REARM : Nat := 0xc0040
/-- R438: Input number in [1:0]; bit 31 reads VALID. MBX, reset 0x0000_0000. -/
def TK_CAP_REQ : Nat := 0xc0050
/-- R438: Capture seconds [31:0]. MBX, reset 0x0000_0000. -/
def TK_CAP_S_LO : Nat := 0xc0054
/-- R438: Capture seconds [47:32] and flags. MBX, reset 0x0000_0000. -/
def TK_CAP_S_HI : Nat := 0xc0058
def TK_CAP_S_HI_S_HI : Field := ⟨TK_CAP_S_HI, 0, 16⟩
def TK_CAP_S_HI_INPUT : Field := ⟨TK_CAP_S_HI, 16, 2⟩
def TK_CAP_S_HI_RISING : Field := ⟨TK_CAP_S_HI, 18, 1⟩
def TK_CAP_S_HI_OVF : Field := ⟨TK_CAP_S_HI, 19, 1⟩
def TK_CAP_S_HI_EMPTY : Field := ⟨TK_CAP_S_HI, 20, 1⟩
def TK_CAP_S_HI_OWNED : Field := ⟨TK_CAP_S_HI, 21, 1⟩
def TK_CAP_S_HI_SEQ : Field := ⟨TK_CAP_S_HI, 24, 8⟩
/-- R438: Capture nanoseconds. MBX, reset 0x0000_0000. -/
def TK_CAP_NS : Nat := 0xc005c
/-- R438: Capture input control. RW, reset cfg. -/
def TK_TSI_CFG : Nat := 0xc0060
/-- R438: Input delays, 8 bits per input, input 0 in [7:0]. RW, reset cfg. -/
def TK_TSI_DELAY : Nat := 0xc0064
/-- R438: PPS_OUT. RW, reset cfg. -/
def TK_PPS_CFG : Nat := 0xc0070
def TK_PPS_CFG_MODE : Field := ⟨TK_PPS_CFG, 0, 2⟩
def TK_PPS_CFG_PPS_WIDTH : Field := ⟨TK_PPS_CFG, 2, 28⟩
/-- R438: BEAT_OUT. RW, reset cfg. -/
def TK_BEAT_CFG : Nat := 0xc0074
def TK_BEAT_CFG_EN : Field := ⟨TK_BEAT_CFG, 0, 1⟩
def TK_BEAT_CFG_BEAT_WIDTH : Field := ⟨TK_BEAT_CFG, 1, 10⟩
def TK_BEAT_CFG_BEAT_DIV : Field := ⟨TK_BEAT_CFG, 11, 16⟩
/-- R438: Output delay compensation. RW, reset cfg. -/
def TK_OUT_DELAY : Nat := 0xc0078
def TK_OUT_DELAY_PPS_DELAY : Field := ⟨TK_OUT_DELAY, 0, 8⟩
def TK_OUT_DELAY_BEAT_DELAY : Field := ⟨TK_OUT_DELAY, 8, 8⟩
/-- R438: Transparent clock. RW, reset cfg. -/
def TK_TC_CFG : Nat := 0xc0080
def TK_TC_CFG_EN : Field := ⟨TK_TC_CFG, 0, 1⟩
def TK_TC_CFG_UDP4 : Field := ⟨TK_TC_CFG, 1, 1⟩
def TK_TC_CFG_UDP6 : Field := ⟨TK_TC_CFG, 2, 1⟩
/-- R438: Port p timestamp delays. RW, reset cfg. -/
def TK_ETHp_DELAY (n : Nat) : Nat := 0xc0084 + 4 * (n % 2)
def TK_ETHp_DELAY_RX_DELAY (n : Nat) : Field := ⟨TK_ETHp_DELAY n, 0, 12⟩
def TK_ETHp_DELAY_TX_DELAY (n : Nat) : Field := ⟨TK_ETHp_DELAY n, 16, 12⟩
/-- R438: Beacon aerial delays. RW, reset cfg. -/
def TK_BCN_DELAY : Nat := 0xc0090
def TK_BCN_DELAY_DELAY_S : Field := ⟨TK_BCN_DELAY, 0, 11⟩
def TK_BCN_DELAY_DELAY_W : Field := ⟨TK_BCN_DELAY, 16, 11⟩
/-- R438: Steps applied; saturates. CNT, reset 0x0000_0000. -/
def TK_STEPS : Nat := 0xc0100
/-- R438: NOT_ARMED outcomes; saturates. CNT, reset 0x0000_0000. -/
def TK_STEP_REFUSED : Nat := 0xc0104
/-- R438: GO writes refused while BUSY; saturates. CNT, reset 0x0000_0000. -/
def TK_STEP_CMD_REFUSED : Nat := 0xc0108
/-- R438: Increment writes clamped; saturates. CNT, reset 0x0000_0000. -/
def TK_CLAMPED : Nat := 0xc010c
/-- R438: Captures stored on input n; wraps. CNT, reset 0x0000_0000. -/
def TK_CAPn (n : Nat) : Nat := 0xc0110 + 4 * (n % 4)
/-- R438: Captures dropped, all inputs; saturates. CNT, reset 0x0000_0000. -/
def TK_CAP_LOST : Nat := 0xc0120
/-- R438: Event messages corrected; wraps. CNT, reset 0x0000_0000. -/
def TK_TC_FRAMES : Nat := 0xc0124
/-- R438: Saturated corrections; saturates. CNT, reset 0x0000_0000. -/
def TK_TC_SAT : Nat := 0xc0128
/-- R438: Beacon time insertions; wraps. CNT, reset 0x0000_0000. -/
def TK_BCN_INSERT : Nat := 0xc012c
/-- R438: Single residue failures repaired; saturates. CNT, reset 0x0000_0000. -/
def TK_RESIDUE_FIX : Nat := 0xc0130
/-- R438: Consecutive residue failures; saturates. CNT, reset 0x0000_0000. -/
def TK_ARITH_FAULT : Nat := 0xc0134

/-! ### ETH_ (R465) -/

/-- R465: Port and bridge state. RO, reset 0x0000_0000. -/
def ETH_STATUS : Nat := 0xd0000
def ETH_STATUS_PATH : Field := ⟨ETH_STATUS, 10, 2⟩
/-- R465: Line mode, frame size. RW, reset cfg. -/
def ETH_Pp_CFG (n : Nat) : Nat := 0xd0004 + 4 * (n % 2)
def ETH_Pp_CFG_MODE (n : Nat) : Field := ⟨ETH_Pp_CFG n, 0, 2⟩
def ETH_Pp_CFG_AN_EN (n : Nat) : Field := ⟨ETH_Pp_CFG n, 2, 1⟩
def ETH_Pp_CFG_MAX_LEN (n : Nat) : Field := ⟨ETH_Pp_CFG n, 3, 14⟩
/-- R465: PVID, admission, tagging. RW, reset cfg. -/
def ETH_Pp_VLAN (n : Nat) : Nat := 0xd000c + 4 * (n % 2)
def ETH_Pp_VLAN_PVID (n : Nat) : Field := ⟨ETH_Pp_VLAN n, 0, 12⟩
def ETH_Pp_VLAN_ACCEPT (n : Nat) : Field := ⟨ETH_Pp_VLAN n, 12, 2⟩
def ETH_Pp_VLAN_UNTAG (n : Nat) : Field := ⟨ETH_Pp_VLAN n, 14, 1⟩
def ETH_Pp_VLAN_TPID_88A8 (n : Nat) : Field := ⟨ETH_Pp_VLAN n, 15, 1⟩
/-- R465: PCP to uplink class for bridged frames. RW, reset cfg. -/
def ETH_Pp_PCPMAP (n : Nat) : Nat := 0xd0014 + 4 * (n % 2)
def ETH_Pp_PCPMAP_DEF_CLASS (n : Nat) : Field := ⟨ETH_Pp_PCPMAP n, 24, 3⟩
/-- R465: PAUSE control. RW, reset cfg. -/
def ETH_Pp_PAUSE (n : Nat) : Nat := 0xd001c + 4 * (n % 2)
def ETH_Pp_PAUSE_RX_EN (n : Nat) : Field := ⟨ETH_Pp_PAUSE n, 0, 1⟩
def ETH_Pp_PAUSE_TX_EN (n : Nat) : Field := ⟨ETH_Pp_PAUSE n, 1, 1⟩
def ETH_Pp_PAUSE_GROUPS (n : Nat) : Field := ⟨ETH_Pp_PAUSE n, 2, 8⟩
def ETH_Pp_PAUSE_QUANTA (n : Nat) : Field := ⟨ETH_Pp_PAUSE n, 10, 16⟩
def ETH_Pp_PAUSE_PT_PAUSE (n : Nat) : Field := ⟨ETH_Pp_PAUSE n, 26, 1⟩
def ETH_Pp_PAUSE_REFRESH (n : Nat) : Field := ⟨ETH_Pp_PAUSE n, 27, 5⟩
/-- R465: Bridge control. RW, reset cfg. -/
def ETH_BRIDGE : Nat := 0xd0024
def ETH_BRIDGE_EN : Field := ⟨ETH_BRIDGE, 0, 1⟩
def ETH_BRIDGE_LEARN_EN : Field := ⟨ETH_BRIDGE, 1, 1⟩
def ETH_BRIDGE_AGE_S : Field := ⟨ETH_BRIDGE, 2, 12⟩
/-- R465: R-TAG mode. RW, reset cfg. -/
def ETH_RTAG : Nat := 0xd0028
def ETH_RTAG_MODE : Field := ⟨ETH_RTAG, 0, 2⟩
/-- R465: PCP of the device's own frames, per class. RW, reset cfg. -/
def ETH_CLASS_PCP : Nat := 0xd002c
/-- R465: Member VIDs 2i and 2i + 1. RW, reset cfg. -/
def ETH_MEMBERi (n : Nat) : Nat := 0xd0030 + 4 * (n % 8)
/-- R465: Port MAC [31:0]. RO, reset cfg. -/
def ETH_Pp_MAC_LO (n : Nat) : Nat := 0xd0050 + 4 * (n % 2)
/-- R465: Port MAC [47:32] in [15:0]. RO, reset cfg. -/
def ETH_Pp_MAC_HI (n : Nat) : Nat := 0xd0058 + 4 * (n % 2)
/-- R465: Bridge table flush. CMD, reset 0x0000_0000. -/
def ETH_BR_CMD : Nat := 0xd0060
def ETH_BR_CMD_FLUSH : Field := ⟨ETH_BR_CMD, 0, 1⟩
def ETH_BR_CMD_PORT : Field := ⟨ETH_BR_CMD, 1, 2⟩
/-- R465: Flush state, entries. RO, reset 0x0000_0000. -/
def ETH_BR_STAT : Nat := 0xd0064
def ETH_BR_STAT_BUSY : Field := ⟨ETH_BR_STAT, 0, 1⟩
def ETH_BR_STAT_ENTRIES : Field := ⟨ETH_BR_STAT, 16, 13⟩
/-- R465: Frames received without error; wraps. CNT, reset 0x0000_0000. -/
def ETH_Pp_RX_FRAMES (n : Nat) : Nat := 0xd0100 + 4 * (n % 2)
/-- R465: R448; saturates. CNT, reset 0x0000_0000. -/
def ETH_Pp_RX_ERR (n : Nat) : Nat := 0xd0108 + 4 * (n % 2)
/-- R465: R449 step 2; wraps. CNT, reset 0x0000_0000. -/
def ETH_Pp_RX_RSVD (n : Nat) : Nat := 0xd0110 + 4 * (n % 2)
/-- R465: R451; saturates. CNT, reset 0x0000_0000. -/
def ETH_Pp_VLAN_DROP (n : Nat) : Nat := 0xd0118 + 4 * (n % 2)
/-- R465: R449 step 5; saturates. CNT, reset 0x0000_0000. -/
def ETH_Pp_LOCAL_DROP (n : Nat) : Nat := 0xd0120 + 4 * (n % 2)
/-- R465: Frames sent; wraps. CNT, reset 0x0000_0000. -/
def ETH_Pp_TX_FRAMES (n : Nat) : Nat := 0xd0128 + 4 * (n % 2)
/-- R465: Bridged frames sent on port p; wraps. CNT, reset 0x0000_0000. -/
def ETH_Pp_BR_FWD (n : Nat) : Nat := 0xd0130 + 4 * (n % 2)
/-- R465: R454; wraps. CNT, reset 0x0000_0000. -/
def ETH_Pp_BR_FILTER (n : Nat) : Nat := 0xd0138 + 4 * (n % 2)
/-- R465: Pass-through drops toward port p; saturates. CNT, reset 0x0000_0000. -/
def ETH_Pp_PT_DROP (n : Nat) : Nat := 0xd0140 + 4 * (n % 2)
/-- R465: PAUSE frames sent; wraps. CNT, reset 0x0000_0000. -/
def ETH_Pp_PAUSE_TX (n : Nat) : Nat := 0xd0148 + 4 * (n % 2)
/-- R465: MAC control frames received; wraps. CNT, reset 0x0000_0000. -/
def ETH_Pp_PAUSE_RX (n : Nat) : Nat := 0xd0150 + 4 * (n % 2)
/-- R465: Link losses; saturates. CNT, reset 0x0000_0000. -/
def ETH_Pp_LINK_DOWN (n : Nat) : Nat := 0xd0158 + 4 * (n % 2)
/-- R465: R455; wraps. CNT, reset 0x0000_0000. -/
def ETH_BR_MOVES : Nat := 0xd0160
/-- R465: R454; saturates. CNT, reset 0x0000_0000. -/
def ETH_BR_NOSPACE : Nat := 0xd0164
/-- R465: R461; wraps. CNT, reset 0x0000_0000. -/
def ETH_RTAG_SENT : Nat := 0xd0168
/-- R465: ETH_BR_CMD writes refused while BUSY; saturates. CNT, reset 0x0000_0000. -/
def ETH_BR_CMD_REFUSED : Nat := 0xd016c

/-! ### PAIR_ (R505) -/

/-- R505: Pair state. RO, reset 0x0000_0000. -/
def PAIR_STATUS : Nat := 0xe0000
def PAIR_STATUS_PSTATE : Field := ⟨PAIR_STATUS, 0, 4⟩
def PAIR_STATUS_LINK_UP : Field := ⟨PAIR_STATUS, 4, 1⟩
def PAIR_STATUS_TETHER_OK : Field := ⟨PAIR_STATUS, 5, 1⟩
def PAIR_STATUS_ALIVE_LOW : Field := ⟨PAIR_STATUS, 6, 1⟩
def PAIR_STATUS_ALIVE_DRV : Field := ⟨PAIR_STATUS, 7, 1⟩
def PAIR_STATUS_ROLE_A : Field := ⟨PAIR_STATUS, 8, 1⟩
def PAIR_STATUS_ARBITRATING : Field := ⟨PAIR_STATUS, 9, 1⟩
def PAIR_STATUS_WINDOW : Field := ⟨PAIR_STATUS, 10, 1⟩
def PAIR_STATUS_SILENT : Field := ⟨PAIR_STATUS, 11, 1⟩
def PAIR_STATUS_HOLD_LEFT_S : Field := ⟨PAIR_STATUS, 16, 16⟩
/-- R505: Pair options. RW, reset cfg. -/
def PAIR_CFG : Nat := 0xe0004
def PAIR_CFG_REVERTIVE : Field := ⟨PAIR_CFG, 0, 1⟩
def PAIR_CFG_LLR_SHARE : Field := ⟨PAIR_CFG, 1, 1⟩
def PAIR_CFG_DIVERSITY : Field := ⟨PAIR_CFG, 2, 1⟩
def PAIR_CFG_STALE_TAKEOVER : Field := ⟨PAIR_CFG, 3, 1⟩
def PAIR_CFG_BULK_PCT : Field := ⟨PAIR_CFG, 4, 7⟩
/-- R505: Windows and waits. RW, reset cfg. -/
def PAIR_TIMING : Nat := 0xe0008
def PAIR_TIMING_DUALSEND : Field := ⟨PAIR_TIMING, 0, 5⟩
def PAIR_TIMING_SILENCE_EXTRA : Field := ⟨PAIR_TIMING, 5, 2⟩
def PAIR_TIMING_RECLAIM_HOLD_S : Field := ⟨PAIR_TIMING, 7, 12⟩
def PAIR_TIMING_BOOT_WAIT_S : Field := ⟨PAIR_TIMING, 19, 8⟩
def PAIR_TIMING_LINK_ASYM : Field := ⟨PAIR_TIMING, 27, 5⟩
/-- R505: Health thresholds. RW, reset cfg. -/
def PAIR_HEALTH_CFG : Nat := 0xe000c
def PAIR_HEALTH_CFG_OK_MIN : Field := ⟨PAIR_HEALTH_CFG, 0, 8⟩
def PAIR_HEALTH_CFG_SWITCH_MARGIN : Field := ⟨PAIR_HEALTH_CFG, 8, 8⟩
def PAIR_HEALTH_CFG_SWITCH_HOLD : Field := ⟨PAIR_HEALTH_CFG, 16, 16⟩
/-- R505: Envelope address of the health record. RO, reset cfg. -/
def PAIR_HEALTH_ADDR : Nat := 0xe0010
/-- R505: Own score [7:0], partner score [15:8]. RO, reset 0x0000_0000. -/
def PAIR_SCORE : Nat := 0xe0014
/-- R505: Pair command. CMD, reset 0x0000_0000. -/
def PAIR_CMD : Nat := 0xe0020
def PAIR_CMD_OP : Field := ⟨PAIR_CMD, 0, 3⟩
/-- R505: Command state. RO, reset 0x0000_0000. -/
def PAIR_CMD_STAT : Nat := 0xe0024
def PAIR_CMD_STAT_BUSY : Field := ⟨PAIR_CMD_STAT, 0, 1⟩
def PAIR_CMD_STAT_RESULT : Field := ⟨PAIR_CMD_STAT, 1, 3⟩
/-- R505: Role override. GRD, reset 0x0000_0000. -/
def PAIR_ROLE_OVR : Nat := 0xe0030
/-- R505: Digest snapshot request; bit 31 reads VALID. MBX, reset 0x0000_0000. -/
def PAIR_DIG_REQ : Nat := 0xe0040
/-- R505: Beat of the snapshot, low 32 bits. MBX, reset 0x0000_0000. -/
def PAIR_DIG_BEAT : Nat := 0xe0044
/-- R505: x = 0–5: plan, uplink, log digests, each low word then high word. MBX, reset 0x0000_0000. -/
def PAIR_DIG_OWNx (n : Nat) : Nat := 0xe0048 + 4 * (n % 6)
/-- R505: x = 0–5: the partner's, same order. MBX, reset 0x0000_0000. -/
def PAIR_DIG_PARTx (n : Nat) : Nat := 0xe0060 + 4 * (n % 6)
/-- R505: R474; wraps. CNT, reset 0x0000_0000. -/
def PAIR_TETHER_MISS : Nat := 0xe0100
/-- R505: R474; saturates. CNT, reset 0x0000_0000. -/
def PAIR_LOST : Nat := 0xe0104
/-- R505: R472; saturates. CNT, reset 0x0000_0000. -/
def PAIR_LINK_CRC : Nat := 0xe0108
/-- R505: R472; wraps. CNT, reset 0x0000_0000. -/
def PAIR_RESENDS : Nat := 0xe010c
/-- R505: R490; saturates. CNT, reset 0x0000_0000. -/
def PAIR_MISMATCH : Nat := 0xe0110
/-- R505: R492; saturates. CNT, reset 0x0000_0000. -/
def PAIR_ARBITRATIONS : Nat := 0xe0114
/-- R505: R492; saturates. CNT, reset 0x0000_0000. -/
def PAIR_UNRESOLVED : Nat := 0xe0118
/-- R505: Entries to INCOMING; saturates. CNT, reset 0x0000_0000. -/
def PAIR_TAKEOVERS : Nat := 0xe011c
/-- R505: R498; saturates. CNT, reset 0x0000_0000. -/
def PAIR_RECLAIMS : Nat := 0xe0120
/-- R505: R488; saturates. CNT, reset 0x0000_0000. -/
def PAIR_SYNCS : Nat := 0xe0124
/-- R505: R484; wraps. CNT, reset 0x0000_0000. -/
def PAIR_DIV_IN : Nat := 0xe0128
/-- R505: R484; wraps. CNT, reset 0x0000_0000. -/
def PAIR_DIV_DUP : Nat := 0xe012c
/-- R505: R485; wraps. CNT, reset 0x0000_0000. -/
def PAIR_LLR_SHARED : Nat := 0xe0130
/-- R505: R500; wraps. CNT, reset 0x0000_0000. -/
def PAIR_BIST_RUNS : Nat := 0xe0134
/-- R505: R500; saturates. CNT, reset 0x0000_0000. -/
def PAIR_SELFTEST_FAIL : Nat := 0xe0138
/-- R505: R469; saturates. CNT, reset 0x0000_0000. -/
def PAIR_REG_FIX : Nat := 0xe013c
/-- R505: R468; saturates. CNT, reset 0x0000_0000. -/
def PAIR_TMR_FIX : Nat := 0xe0140
/-- R505: Fault class 12; saturates. CNT, reset 0x0000_0000. -/
def PAIR_TX_CHECK : Nat := 0xe0144
/-- R505: PAIR_CMD writes refused while BUSY; saturates. CNT, reset 0x0000_0000. -/
def PAIR_CMD_REFUSED : Nat := 0xe0148

/-! ### PWR_ (R538) -/

/-- R538: Level, mains, thermal state. RO, reset 0x0000_0000. -/
def PWR_STATUS : Nat := 0xf0000
def PWR_STATUS_LEVEL : Field := ⟨PWR_STATUS, 0, 2⟩
def PWR_STATUS_CHANGING : Field := ⟨PWR_STATUS, 2, 1⟩
def PWR_STATUS_MAINS : Field := ⟨PWR_STATUS, 3, 1⟩
def PWR_STATUS_CAPPED : Field := ⟨PWR_STATUS, 4, 1⟩
def PWR_STATUS_JUNCTION : Field := ⟨PWR_STATUS, 8, 8⟩
/-- R538: Power request. CMD, reset 0x0000_0000. -/
def PWR_REQ : Nat := 0xf0004
def PWR_REQ_OP : Field := ⟨PWR_REQ, 0, 3⟩
def PWR_REQ_LEVEL : Field := ⟨PWR_REQ, 4, 2⟩
/-- R538: Slot and last result. RO, reset 0x0000_0000. -/
def PWR_REQ_STAT : Nat := 0xf0008
def PWR_REQ_STAT_PENDING : Field := ⟨PWR_REQ_STAT, 0, 1⟩
def PWR_REQ_STAT_IN_PROGRESS : Field := ⟨PWR_REQ_STAT, 1, 1⟩
def PWR_REQ_STAT_PEND_OP : Field := ⟨PWR_REQ_STAT, 2, 3⟩
def PWR_REQ_STAT_PEND_SRC : Field := ⟨PWR_REQ_STAT, 5, 2⟩
def PWR_REQ_STAT_RESULT : Field := ⟨PWR_REQ_STAT, 8, 3⟩
def PWR_REQ_STAT_REFUSER : Field := ⟨PWR_REQ_STAT, 12, 3⟩
/-- R538: Levels per mode, Nap. RW, reset cfg. -/
def PWR_CFG : Nat := 0xf000c
def PWR_CFG_SERVE_LEVEL : Field := ⟨PWR_CFG, 0, 2⟩
def PWR_CFG_DOZE_LEVEL : Field := ⟨PWR_CFG, 2, 2⟩
def PWR_CFG_NAP_EN : Field := ⟨PWR_CFG, 4, 1⟩
/-- R538: Thermal cap. RW, reset cfg. -/
def PWR_THERM : Nat := 0xf0010
def PWR_THERM_CAP_C : Field := ⟨PWR_THERM, 0, 8⟩
def PWR_THERM_CAP_LEVEL : Field := ⟨PWR_THERM, 8, 2⟩
/-- R538: VDD_ENG steering. RW, reset cfg. -/
def PWR_VID : Nat := 0xf0014
def PWR_VID_VID_EN : Field := ⟨PWR_VID, 0, 1⟩
def PWR_VID_VSETTLE_US : Field := ⟨PWR_VID, 1, 6⟩
/-- R538: Mains policy. RW, reset cfg. -/
def PWR_MAINS : Nat := 0xf0018
def PWR_MAINS_ON_LOSS : Field := ⟨PWR_MAINS, 0, 2⟩
def PWR_MAINS_DEB_MS : Field := ⟨PWR_MAINS, 2, 8⟩
def PWR_MAINS_LOSS_DRIFT_S : Field := ⟨PWR_MAINS, 10, 16⟩
/-- R538: Doze profile: engines, cores, chains. RW, reset cfg. -/
def PWR_DOZE_ENG : Nat := 0xf001c
def PWR_DOZE_ENG_ENGINES : Field := ⟨PWR_DOZE_ENG, 0, 16⟩
def PWR_DOZE_ENG_LDPC_KEEP : Field := ⟨PWR_DOZE_ENG, 16, 4⟩
def PWR_DOZE_ENG_AES_KEEP : Field := ⟨PWR_DOZE_ENG, 20, 4⟩
def PWR_DOZE_ENG_CHAINS : Field := ⟨PWR_DOZE_ENG, 24, 4⟩
/-- R538: Doze profile: decoders, one bit each, decoder 0 in PWR_DOZE_DEC0[0]. RW, reset cfg. -/
def PWR_DOZE_DECx (n : Nat) : Nat := 0xf0020 + 4 * (n % 3)
/-- R538: Drift enable, retention, wake sources, timers. RW, reset cfg AON. -/
def PWR_DRIFT_CFG : Nat := 0xf0030
def PWR_DRIFT_CFG_EN : Field := ⟨PWR_DRIFT_CFG, 0, 1⟩
def PWR_DRIFT_CFG_RETAIN : Field := ⟨PWR_DRIFT_CFG, 1, 1⟩
def PWR_DRIFT_CFG_WAKE_EN : Field := ⟨PWR_DRIFT_CFG, 2, 6⟩
def PWR_DRIFT_CFG_SNIFF_GT : Field := ⟨PWR_DRIFT_CFG, 8, 3⟩
def PWR_DRIFT_CFG_LIMIT_GT : Field := ⟨PWR_DRIFT_CFG, 11, 3⟩
def PWR_DRIFT_CFG_TCXO_LEAD_US : Field := ⟨PWR_DRIFT_CFG, 14, 10⟩
def PWR_DRIFT_CFG_SNIFF_MS : Field := ⟨PWR_DRIFT_CFG, 24, 8⟩
/-- R538: Sniff settings. RW, reset cfg AON. -/
def PWR_DRIFT_SNIFF : Nat := 0xf0034
def PWR_DRIFT_SNIFF_SNIFF_DEC : Field := ⟨PWR_DRIFT_SNIFF, 0, 7⟩
def PWR_DRIFT_SNIFF_ENERGY : Field := ⟨PWR_DRIFT_SNIFF, 7, 1⟩
def PWR_DRIFT_SNIFF_PREAMBLE : Field := ⟨PWR_DRIFT_SNIFF, 8, 1⟩
def PWR_DRIFT_SNIFF_SNIFF_DBM : Field := ⟨PWR_DRIFT_SNIFF, 9, 8⟩
def PWR_DRIFT_SNIFF_HITS : Field := ⟨PWR_DRIFT_SNIFF, 17, 4⟩
def PWR_DRIFT_SNIFF_SNIFF_US : Field := ⟨PWR_DRIFT_SNIFF, 21, 11⟩
/-- R538: GPIO wake pattern. RW, reset cfg AON. -/
def PWR_DRIFT_GPIO : Nat := 0xf0038
def PWR_DRIFT_GPIO_MASK : Field := ⟨PWR_DRIFT_GPIO, 0, 16⟩
def PWR_DRIFT_GPIO_VALUE : Field := ⟨PWR_DRIFT_GPIO, 16, 16⟩
/-- R538: Timer and temperature limits. RW, reset cfg AON. -/
def PWR_DRIFT_LIMIT : Nat := 0xf003c
def PWR_DRIFT_LIMIT_MAX_DRIFT_S : Field := ⟨PWR_DRIFT_LIMIT, 0, 16⟩
def PWR_DRIFT_LIMIT_TLO : Field := ⟨PWR_DRIFT_LIMIT, 16, 8⟩
def PWR_DRIFT_LIMIT_THI : Field := ⟨PWR_DRIFT_LIMIT, 24, 8⟩
/-- R538: Last wake record. RO, reset 0x0000_0000 AON. -/
def PWR_WAKE_SRC : Nat := 0xf0040
def PWR_WAKE_SRC_SOURCE : Field := ⟨PWR_WAKE_SRC, 0, 3⟩
def PWR_WAKE_SRC_REPLAYED : Field := ⟨PWR_WAKE_SRC, 3, 1⟩
def PWR_WAKE_SRC_RESTORED : Field := ⟨PWR_WAKE_SRC, 4, 1⟩
def PWR_WAKE_SRC_TAMPERED : Field := ⟨PWR_WAKE_SRC, 5, 1⟩
/-- R538: AON seconds [31:0] of the last wake. RO, reset 0x0000_0000 AON. -/
def PWR_WAKE_TIME : Nat := 0xf0044
/-- R538: Last refused request. RO, reset 0x0000_0000. -/
def PWR_LAST_REFUSAL : Nat := 0xf0048
def PWR_LAST_REFUSAL_OP : Field := ⟨PWR_LAST_REFUSAL, 0, 3⟩
def PWR_LAST_REFUSAL_SRC : Field := ⟨PWR_LAST_REFUSAL, 3, 2⟩
def PWR_LAST_REFUSAL_REFUSER : Field := ⟨PWR_LAST_REFUSAL, 5, 3⟩
def PWR_LAST_REFUSAL_BEAT : Field := ⟨PWR_LAST_REFUSAL, 8, 24⟩
/-- R538: R519, in [6:0]. RO, reset 0x0000_0000. -/
def PWR_NAP_PCT : Nat := 0xf004c
/-- R538: R536. GRD, reset 0x0000_0000. -/
def PWR_MODE_FORCE : Nat := 0xf0050
/-- R538: R536. GRD, reset 0x0000_0000. -/
def PWR_RESET : Nat := 0xf0060
/-- R538: R525; 32-bit, saturates. CNT, reset 0x0000_0000. -/
def PWR_SUPERSEDED : Nat := 0xf0100
/-- R538: Refusals by refuser r, at 0x0104 + 4 × (r − 1); 32-bit, saturates. CNT, reset 0x0000_0000. -/
def PWR_REFr (n : Nat) : Nat := 0xf0104 + 4 * (n % 7)
/-- R538: R517; 32-bit, wraps. CNT, reset 0x0000_0000. -/
def PWR_LEVEL_CHANGES : Nat := 0xf0120
/-- R538: R515; 32-bit, saturates. CNT, reset 0x0000_0000. -/
def PWR_LEVEL_FAIL : Nat := 0xf0124
/-- R538: R533; 32-bit, wraps. CNT, reset 0x0000_0000 AON. -/
def PWR_WAKES : Nat := 0xf0128
/-- R538: R533; 32-bit, saturates. CNT, reset 0x0000_0000 AON. -/
def PWR_REPLAYS : Nat := 0xf012c
/-- R538: R530; 32-bit, wraps. CNT, reset 0x0000_0000 AON. -/
def PWR_DRIFT_SAMPLES : Nat := 0xf0130
/-- R538: R530; 32-bit, wraps. CNT, reset 0x0000_0000 AON. -/
def PWR_SNIFF_HITS : Nat := 0xf0134
/-- R538: Seconds of beats at level l; 32-bit, wraps. CNT, reset 0x0000_0000. -/
def PWR_ACC_PLl (n : Nat) : Nat := 0xf0140 + 4 * (n % 4)
/-- R538: Seconds in DOZE; 32-bit, wraps. CNT, reset 0x0000_0000. -/
def PWR_ACC_DOZE_S : Nat := 0xf0150
/-- R538: Seconds in DRIFT, by the AON count; 32-bit, wraps. CNT, reset 0x0000_0000 AON. -/
def PWR_ACC_DRIFT_S : Nat := 0xf0154

/-! ### BOOT_ (R578) -/

/-- R578: Boot state and error. RO, reset 0x0000_0000. -/
def BOOT_STATUS : Nat := 0x100000
def BOOT_STATUS_STAGE : Field := ⟨BOOT_STATUS, 0, 5⟩
def BOOT_STATUS_BSR_DEFAULT : Field := ⟨BOOT_STATUS, 5, 1⟩
def BOOT_STATUS_JOURNAL_KEPT : Field := ⟨BOOT_STATUS, 6, 1⟩
def BOOT_STATUS_DIR_KEPT : Field := ⟨BOOT_STATUS, 7, 1⟩
def BOOT_STATUS_ERROR : Field := ⟨BOOT_STATUS, 8, 8⟩
def BOOT_STATUS_FW_SLOT : Field := ⟨BOOT_STATUS, 16, 1⟩
def BOOT_STATUS_CFG_SLOT : Field := ⟨BOOT_STATUS, 17, 1⟩
def BOOT_STATUS_TRIAL : Field := ⟨BOOT_STATUS, 18, 1⟩
def BOOT_STATUS_FIRST_START : Field := ⟨BOOT_STATUS, 19, 1⟩
def BOOT_STATUS_MIGRATING : Field := ⟨BOOT_STATUS, 20, 1⟩
def BOOT_STATUS_UPDATE_BUSY : Field := ⟨BOOT_STATUS, 21, 1⟩
def BOOT_STATUS_RCV_CAUSE : Field := ⟨BOOT_STATUS, 24, 3⟩
/-- R578: Record TYPE [15:0], entry index [31:16]. RO, reset 0x0000_0000. -/
def BOOT_ERR_DETAIL : Nat := 0x100004
/-- R578: First claimant of a conflict, same layout. RO, reset 0x0000_0000. -/
def BOOT_ERR_OTHER : Nat := 0x100008
/-- R578: VERSION of the running firmware, written at step 7. RO, reset 0x0000_0000. -/
def BOOT_FW_VERSION : Nat := 0x10000c
/-- R578: VERSION of the loaded configuration, written at step 8. RO, reset 0x0000_0000. -/
def BOOT_CFG_VERSION : Nat := 0x100010
/-- R578: Hash snapshot request; bit 31 reads VALID. MBX, reset 0x0000_0000. -/
def BOOT_CFG_HASH_REQ : Nat := 0x100014
/-- R578: x = 0–7: configuration SHA-256, bytes 4x to 4x + 3. MBX, reset 0x0000_0000. -/
def BOOT_CFG_HASHx (n : Nat) : Nat := 0x100018 + 4 * (n % 8)
/-- R578: BSR fields in use. RO, reset 0x0000_0000. -/
def BOOT_BSR : Nat := 0x100040
def BOOT_BSR_FW_ACTIVE : Field := ⟨BOOT_BSR, 0, 1⟩
def BOOT_BSR_FW_TRIAL : Field := ⟨BOOT_BSR, 1, 2⟩
def BOOT_BSR_FW_TRIES : Field := ⟨BOOT_BSR, 3, 2⟩
def BOOT_BSR_CFG_ACTIVE : Field := ⟨BOOT_BSR, 5, 1⟩
def BOOT_BSR_CFG_TRIAL : Field := ⟨BOOT_BSR, 6, 2⟩
def BOOT_BSR_CFG_TRIES : Field := ⟨BOOT_BSR, 8, 2⟩
def BOOT_BSR_COMMISSIONED : Field := ⟨BOOT_BSR, 10, 1⟩
def BOOT_BSR_DIR_FORMAT : Field := ⟨BOOT_BSR, 16, 16⟩
/-- R578: Confirmation and commissioning. RW, reset cfg. -/
def BOOT_CONFIRM : Nat := 0x100044
def BOOT_CONFIRM_CONFIRM_S : Field := ⟨BOOT_CONFIRM, 0, 16⟩
def BOOT_CONFIRM_COMMISSION_WAIT : Field := ⟨BOOT_CONFIRM, 16, 1⟩
def BOOT_CONFIRM_COMMISSION_S : Field := ⟨BOOT_CONFIRM, 17, 15⟩
/-- R578: Session state. RO, reset 0x0000_0000. -/
def BOOT_UPD_STAT : Nat := 0x100048
def BOOT_UPD_STAT_SESSION : Field := ⟨BOOT_UPD_STAT, 0, 2⟩
def BOOT_UPD_STAT_KIND : Field := ⟨BOOT_UPD_STAT, 2, 3⟩
def BOOT_UPD_STAT_UNITS : Field := ⟨BOOT_UPD_STAT, 5, 13⟩
def BOOT_UPD_STAT_LAST : Field := ⟨BOOT_UPD_STAT, 18, 5⟩
/-- R578: R573. GRD, reset 0x0000_0000. -/
def BOOT_RECOVERY : Nat := 0x100050
/-- R578: R575. CMD, reset 0x0000_0000. -/
def BOOT_RCV_CMD : Nat := 0x100060
def BOOT_RCV_CMD_OP : Field := ⟨BOOT_RCV_CMD, 0, 3⟩
/-- R578: Argument. RW, reset 0x0000_0000. -/
def BOOT_RCV_ARG : Nat := 0x100064
/-- R578: Recovery command state. RO, reset 0x0000_0000. -/
def BOOT_RCV_STAT : Nat := 0x100068
def BOOT_RCV_STAT_BUSY : Field := ⟨BOOT_RCV_STAT, 0, 1⟩
def BOOT_RCV_STAT_RESULT : Field := ⟨BOOT_RCV_STAT, 1, 3⟩
def BOOT_RCV_STAT_CODE : Field := ⟨BOOT_RCV_STAT, 8, 8⟩
/-- R578: Boots; 32-bit, wraps. CNT, reset 0x0000_0000 AON. -/
def BOOT_COUNT : Nat := 0x100100
/-- R578: Image checks failed at boot; 32-bit, saturates. CNT, reset 0x0000_0000 AON. -/
def BOOT_FAILS : Nat := 0x100104
/-- R578: R554; 32-bit, saturates. CNT, reset 0x0000_0000 AON. -/
def BOOT_REVERTS : Nat := 0x100108
/-- R578: R567; 32-bit, wraps. CNT, reset 0x0000_0000. -/
def BOOT_UPD_BLOCKS : Nat := 0x10010c
/-- R578: R567; 32-bit, saturates. CNT, reset 0x0000_0000. -/
def BOOT_UPD_REPEATS : Nat := 0x100110
/-- R578: R549; 32-bit, saturates. CNT, reset 0x0000_0000. -/
def BOOT_CFG_IGNORED : Nat := 0x100114
/-- R578: BOOT_RCV_CMD writes refused while BUSY; 32-bit, saturates. CNT, reset 0x0000_0000. -/
def BOOT_RCV_REFUSED : Nat := 0x100118

/-! ### HIF_ (R632) -/

/-- R632: Interface state. RO, reset 0x0000_0000. -/
def HIF_STATUS : Nat := 0x10000
def HIF_STATUS_PCIE_UP : Field := ⟨HIF_STATUS, 0, 1⟩
def HIF_STATUS_SPEED : Field := ⟨HIF_STATUS, 1, 2⟩
def HIF_STATUS_WIDTH : Field := ⟨HIF_STATUS, 3, 2⟩
def HIF_STATUS_MSIX_EN : Field := ⟨HIF_STATUS, 5, 1⟩
def HIF_STATUS_RING_RUN : Field := ⟨HIF_STATUS, 6, 1⟩
def HIF_STATUS_CMD_FULL : Field := ⟨HIF_STATUS, 7, 1⟩
def HIF_STATUS_CPL_FULL : Field := ⟨HIF_STATUS, 8, 1⟩
def HIF_STATUS_SPI_SEL : Field := ⟨HIF_STATUS, 9, 1⟩
/-- R632: Command rate, SPI enable. RW, reset cfg. -/
def HIF_CFG : Nat := 0x10004
def HIF_CFG_CMD_PER_BEAT : Field := ⟨HIF_CFG, 0, 8⟩
def HIF_CFG_SPI_EN : Field := ⟨HIF_CFG, 8, 1⟩
/-- R632: BAR2 window base. RW, reset 0x0000_0000. -/
def HIF_WIN_BASE : Nat := 0x10008
def HIF_WIN_BASE_BASE : Field := ⟨HIF_WIN_BASE, 0, 12⟩
/-- R632: Command ring address. RO, reset cfg. -/
def HIF_CMD_BASE : Nat := 0x10010
/-- R632: Doorbell: tail in [11:0]. CMD, reset 0x0000_0000. -/
def HIF_CMD_TAIL : Nat := 0x10014
def HIF_CMD_TAIL_TAIL : Field := ⟨HIF_CMD_TAIL, 0, 12⟩
/-- R632: Next entry to take, [11:0]. RO, reset 0x0000_0000. -/
def HIF_CMD_HEAD : Nat := 0x10018
/-- R632: Completion ring address. RO, reset cfg. -/
def HIF_CPL_BASE : Nat := 0x1001c
/-- R632: Next completion to write [11:0]; PHASE [12]. RO, reset 0x0000_0000. -/
def HIF_CPL_PROD : Nat := 0x10020
/-- R632: Next completion to consume, [11:0]. RW, reset 0x0000_0000. -/
def HIF_CPL_CONS : Nat := 0x10024
def HIF_CPL_CONS_CONS : Field := ⟨HIF_CPL_CONS, 0, 12⟩
/-- R632: Journal address. RO, reset cfg. -/
def HIF_JRN_BASE : Nat := 0x10028
/-- R632: Journal snapshot request; bit 31 reads VALID. MBX, reset 0x0000_0000. -/
def HIF_JRN_REQ : Nat := 0x1002c
/-- R632: NEXT. MBX, reset 0x0000_0000. -/
def HIF_JRN_NEXT : Nat := 0x10030
/-- R632: OLDEST. MBX, reset 0x0000_0000. -/
def HIF_JRN_OLDEST : Nat := 0x10034
/-- R632: Last refused access. RO, reset 0x0000_0000. -/
def HIF_ACCERR : Nat := 0x10040
def HIF_ACCERR_REASON : Field := ⟨HIF_ACCERR, 0, 3⟩
def HIF_ACCERR_IFACE : Field := ⟨HIF_ACCERR, 3, 1⟩
def HIF_ACCERR_BYTE_EN : Field := ⟨HIF_ACCERR, 4, 4⟩
/-- R632: Its address; bit 31 set for BAR2. RO, reset 0x0000_0000. -/
def HIF_ACCERR_ADDR : Nat := 0x10044
/-- R632: Commands taken; wraps. CNT, reset 0x0000_0000. -/
def HIF_CMD_TAKEN : Nat := 0x10100
/-- R632: R616; saturates. CNT, reset 0x0000_0000. -/
def HIF_CMD_REFUSED : Nat := 0x10104
/-- R632: Commands completed LATE; saturates. CNT, reset 0x0000_0000. -/
def HIF_CMD_LATE : Nat := 0x10108
/-- R632: R605; saturates. CNT, reset 0x0000_0000. -/
def HIF_ACCERR_CNT : Nat := 0x1010c
/-- R632: R610; saturates. CNT, reset 0x0000_0000. -/
def HIF_GUARD_REJ : Nat := 0x10110

/-! ### EVT_ (R635) -/

/-- R635: Ring and Bridle state. RO, reset 0x0000_0000. -/
def EVT_STATUS : Nat := 0x20000
def EVT_STATUS_PENDING : Field := ⟨EVT_STATUS, 0, 4⟩
def EVT_STATUS_BRIDLE_FULL : Field := ⟨EVT_STATUS, 4, 1⟩
def EVT_STATUS_BRIDLE_OPEN : Field := ⟨EVT_STATUS, 8, 7⟩
/-- R635: Bridle window, moderation. RW, reset cfg. -/
def EVT_CFG : Nat := 0x20004
def EVT_CFG_BRIDLE_MS : Field := ⟨EVT_CFG, 0, 16⟩
def EVT_CFG_MOD_US : Field := ⟨EVT_CFG, 16, 12⟩
/-- R635: Ring of each source. RW, reset cfg. -/
def EVT_ROUTEi (n : Nat) : Nat := 0x20010 + 4 * (n % 8)
/-- R635: 1 = no MSI-X request. RW, reset cfg. -/
def EVT_MASKi (n : Nat) : Nat := 0x20030 + 4 * (n % 4)
/-- R635: 1 = source not written (R630). RW, reset cfg. -/
def EVT_DISABLEi (n : Nat) : Nat := 0x20040 + 4 * (n % 4)
/-- R635: 1 = coalesce (R628). RW, reset cfg. -/
def EVT_BRIDLEi (n : Nat) : Nat := 0x20050 + 4 * (n % 4)
/-- R635: Ring address. RO, reset cfg. -/
def EVT_RINGr_BASE (n : Nat) : Nat := 0x20080 + 4 * (n % 4)
/-- R635: Next entry to write [12:0]; PHASE [13]. RO, reset 0x0000_0000. -/
def EVT_RINGr_PROD (n : Nat) : Nat := 0x20090 + 4 * (n % 4)
/-- R635: Next entry to consume [12:0]. RW, reset 0x0000_0000. -/
def EVT_RINGr_CONS (n : Nat) : Nat := 0x200a0 + 4 * (n % 4)
def EVT_RINGr_CONS_CONS (n : Nat) : Field := ⟨EVT_RINGr_CONS n, 0, 13⟩
/-- R635: Entries written, each 32-byte entry counted once, continuation entries (R626) included; wraps. CNT, reset 0x0000_0000. -/
def EVT_RAISED : Nat := 0x20100
/-- R635: Repeats absorbed; wraps. CNT, reset 0x0000_0000. -/
def EVT_COALESCED : Nat := 0x20104
/-- R635: Early closes; saturates. CNT, reset 0x0000_0000. -/
def EVT_BRIDLE_EARLY : Nat := 0x20108
/-- R635: Messages sent; wraps. CNT, reset 0x0000_0000. -/
def EVT_MSIX_SENT : Nat := 0x2010c
/-- R635: Entries lost on ring r; saturates. CNT, reset 0x0000_0000. -/
def EVT_LOSTr (n : Nat) : Nat := 0x20110 + 4 * (n % 4)

/-! ### Fields with an index of their own -/

/-- R467: ETH_STATUS bits of port p. -/
def ETH_STATUS_Pp_UP (p : EthPort) : Field := ⟨ETH_STATUS, p.idx, 1⟩
def ETH_STATUS_Pp_MODE (p : EthPort) : Field := ⟨ETH_STATUS, 2 + 2 * p.idx, 2⟩
def ETH_STATUS_Pp_PAUSED (p : EthPort) : Field := ⟨ETH_STATUS, 6 + p.idx, 1⟩
def ETH_STATUS_Pp_PAUSING (p : EthPort) : Field := ⟨ETH_STATUS, 8 + p.idx, 1⟩
/-- R467: the uplink class of PCP v, and the PCP of class c. -/
def ETH_Pp_PCPMAP_CLASS (n v : Nat) : Field := ⟨ETH_Pp_PCPMAP n, 3 * v, 3⟩
def ETH_CLASS_PCP_c (c : Nat) : Field := ⟨ETH_CLASS_PCP, 3 * c, 3⟩
/-- R467: the two member VIDs of ETH_MEMBERi and their enables. -/
def ETH_MEMBERi_VID_A (n : Nat) : Field := ⟨ETH_MEMBERi n, 0, 12⟩
def ETH_MEMBERi_VID_B (n : Nat) : Field := ⟨ETH_MEMBERi n, 16, 12⟩
def ETH_MEMBERi_A_EN (n : Nat) : Field := ⟨ETH_MEMBERi n, 15, 1⟩
def ETH_MEMBERi_B_EN (n : Nat) : Field := ⟨ETH_MEMBERi n, 31, 1⟩
/-- R443: the capture settings of timing input n. -/
def TK_TSI_CFG_EDGE (n : Nat) : Field := ⟨TK_TSI_CFG, 4 * n, 2⟩
def TK_TSI_CFG_SERVO (n : Nat) : Field := ⟨TK_TSI_CFG, 4 * n + 2, 1⟩
def TK_TSI_DELAY_n (n : Nat) : Field := ⟨TK_TSI_DELAY, 8 * n, 8⟩
/-- R71: the two state bits of engine n. -/
def BT_ENG_STATE_n (n : Nat) : Field := ⟨BT_ENG_STATE, 2 * n, 2⟩
/-- R66: the role code of engine n (PE0–PE7 in BT_ROLE0, PE8–PE15 in BT_ROLE1). -/
def BT_ROLE_n (n : Nat) : Field := ⟨if n < 8 then BT_ROLE0 else BT_ROLE1, 4 * (n % 8), 4⟩
/-- R635: the ring, mask, disable and Bridle bits of event source n. -/
def EVT_ROUTE_n (n : Nat) : Field := ⟨EVT_ROUTEi (n / 16), 2 * (n % 16), 2⟩
def EVT_MASK_n (n : Nat) : Field := ⟨EVT_MASKi (n / 32), n % 32, 1⟩
def EVT_DISABLE_n (n : Nat) : Field := ⟨EVT_DISABLEi (n / 32), n % 32, 1⟩
def EVT_BRIDLE_n (n : Nat) : Field := ⟨EVT_BRIDLEi (n / 32), n % 32, 1⟩
/-- R157: power class m of a port. -/
def RFx_PWRCLASSm_LEVEL (p : RfPort) (n : Nat) : Field := ⟨RFx_PWRCLASSm p n, 0, 6⟩
def RFx_PWRCLASSm_PA_MODE (p : RfPort) (n : Nat) : Field := ⟨RFx_PWRCLASSm p n, 8, 2⟩
/-- R155: the ramp profile of a rate. -/
def RFx_RAMP_rate (p : RfPort) (r : Nat) : Field := ⟨RFx_RAMP p, 2 * r, 2⟩
/-- R665: the VALID bit of the mailboxes that hold it in bit 31, and of BT_BEAT_REQ in bit 0. -/
def valid31 (r : Nat) : Field := ⟨r, 31, 1⟩
def BT_BEAT_REQ_VALID : Field := ⟨BT_BEAT_REQ, 0, 1⟩
/-- R629, R632: the mask bit in vector control of MSI-X table entry n, and its pending bit. -/
def MSIX_PENDING (n : Nat) : Field := ⟨0x019000 + 4 * (n / 32 % 4), n % 32, 1⟩
/-- R609: the result word of guarded register x. -/
def guardResult (x : Nat) : Field := ⟨x + 8, 0, 3⟩
def guardArmed (x : Nat) : Field := ⟨x + 8, 3, 1⟩

/-! ### The access table (R6) -/

/-- The register table rows of the block at BAR0 0x0. -/
def rows_000 : List Row := [
  ⟨0x000000, 1, .ro, 0x0⟩,
  ⟨0x000004, 1, .ro, 0x0⟩,
  ⟨0x000008, 1, .cnt, 0xffffffff⟩,
  ⟨0x00000c, 1, .ro, 0x0⟩]

/-- The register table rows of the block at BAR0 0x10000. -/
def rows_001 : List Row := [
  ⟨0x018000, 512, .rw, 0xffffffff⟩,
  ⟨0x019000, 4, .ro, 0x0⟩,
  ⟨0x010000, 1, .ro, 0x0⟩,
  ⟨0x010004, 1, .rw, 0x1ff⟩,
  ⟨0x010008, 1, .rw, 0xfff⟩,
  ⟨0x010010, 1, .ro, 0x0⟩,
  ⟨0x010014, 1, .cmd, 0x0⟩,
  ⟨0x010018, 1, .ro, 0x0⟩,
  ⟨0x01001c, 1, .ro, 0x0⟩,
  ⟨0x010020, 1, .ro, 0x0⟩,
  ⟨0x010024, 1, .rw, 0xfff⟩,
  ⟨0x010028, 1, .ro, 0x0⟩,
  ⟨0x01002c, 1, .mbx, 0x0⟩,
  ⟨0x010030, 1, .mbx, 0x0⟩,
  ⟨0x010034, 1, .mbx, 0x0⟩,
  ⟨0x010040, 1, .ro, 0x0⟩,
  ⟨0x010044, 1, .ro, 0x0⟩,
  ⟨0x010100, 1, .cnt, 0xffffffff⟩,
  ⟨0x010104, 1, .cnt, 0xffffffff⟩,
  ⟨0x010108, 1, .cnt, 0xffffffff⟩,
  ⟨0x01010c, 1, .cnt, 0xffffffff⟩,
  ⟨0x010110, 1, .cnt, 0xffffffff⟩]

/-- The register table rows of the block at BAR0 0x20000. -/
def rows_002 : List Row := [
  ⟨0x020000, 1, .ro, 0x0⟩,
  ⟨0x020004, 1, .rw, 0xfffffff⟩,
  ⟨0x020010, 8, .rw, 0xffffffff⟩,
  ⟨0x020030, 4, .rw, 0xffffffff⟩,
  ⟨0x020040, 4, .rw, 0xffffffff⟩,
  ⟨0x020050, 4, .rw, 0xffffffff⟩,
  ⟨0x020080, 4, .ro, 0x0⟩,
  ⟨0x020090, 4, .ro, 0x0⟩,
  ⟨0x0200a0, 4, .rw, 0x1fff⟩,
  ⟨0x020100, 1, .cnt, 0xffffffff⟩,
  ⟨0x020104, 1, .cnt, 0xffffffff⟩,
  ⟨0x020108, 1, .cnt, 0xffffffff⟩,
  ⟨0x02010c, 1, .cnt, 0xffffffff⟩,
  ⟨0x020110, 4, .cnt, 0xffffffff⟩]

/-- The register table rows of the block at BAR0 0x30000. -/
def rows_003 : List Row := [
  ⟨0x030000, 1, .ro, 0x0⟩,
  ⟨0x030004, 1, .mbx, 0x0⟩,
  ⟨0x030008, 1, .mbx, 0x0⟩,
  ⟨0x03000c, 1, .mbx, 0x0⟩,
  ⟨0x030010, 1, .mbx, 0x0⟩,
  ⟨0x030014, 1, .mbx, 0x0⟩,
  ⟨0x030020, 1, .rw, 0x1ff⟩,
  ⟨0x030024, 1, .rw, 0xff⟩,
  ⟨0x030028, 1, .ro, 0x0⟩,
  ⟨0x03002c, 1, .ro, 0x0⟩,
  ⟨0x030030, 1, .ro, 0x0⟩,
  ⟨0x030034, 1, .ro, 0x0⟩,
  ⟨0x030040, 1, .cnt, 0xffffffff⟩,
  ⟨0x030044, 1, .cnt, 0xffffffff⟩,
  ⟨0x030048, 1, .cnt, 0xffffffff⟩,
  ⟨0x03004c, 1, .cnt, 0xffffffff⟩,
  ⟨0x030050, 1, .cnt, 0xffffffff⟩,
  ⟨0x030100, 16, .ro, 0x0⟩,
  ⟨0x030140, 16, .cnt, 0xffffffff⟩,
  ⟨0x030180, 16, .cnt, 0xffffffff⟩,
  ⟨0x0301c0, 16, .ro, 0x0⟩,
  ⟨0x030200, 16, .cnt, 0xffffffff⟩]

/-- The register table rows of the block at BAR0 0x40000. -/
def rows_004 : List Row := [
  ⟨0x040000, 1, .ro, 0x0⟩,
  ⟨0x040004, 1, .rw, 0x7fff⟩,
  ⟨0x040008, 1, .cmd, 0x0⟩,
  ⟨0x04000c, 1, .rw, 0x3fff1f3f⟩,
  ⟨0x040010, 1, .rw, 0xff0f⟩,
  ⟨0x040014, 1, .rw, 0xfff⟩,
  ⟨0x040018, 1, .rw, 0xfffffff⟩,
  ⟨0x04001c, 1, .rw, 0xff⟩,
  ⟨0x040020, 2, .rw, 0x3⟩,
  ⟨0x040028, 2, .ro, 0x0⟩,
  ⟨0x040030, 4, .rw, 0x33f⟩,
  ⟨0x040100, 16, .rw, 0x1ffffff⟩,
  ⟨0x040140, 16, .rw, 0xffffffff⟩,
  ⟨0x040180, 16, .ro, 0x0⟩,
  ⟨0x040200, 1, .cnt, 0xffffffff⟩,
  ⟨0x040204, 1, .cnt, 0xffffffff⟩,
  ⟨0x040208, 1, .cnt, 0xffffffff⟩,
  ⟨0x04020c, 1, .cnt, 0xffffffff⟩,
  ⟨0x040210, 1, .cnt, 0xffffffff⟩,
  ⟨0x040214, 1, .cnt, 0xffffffff⟩,
  ⟨0x040218, 1, .cnt, 0xffffffff⟩,
  ⟨0x04021c, 1, .cnt, 0xffffffff⟩,
  ⟨0x040220, 1, .cnt, 0xffffffff⟩,
  ⟨0x040224, 1, .cnt, 0xffffffff⟩]

/-- The register table rows of the block at BAR0 0x50000. -/
def rows_005 : List Row := [
  ⟨0x050000, 1, .ro, 0x0⟩,
  ⟨0x050004, 1, .rw, 0x7fff⟩,
  ⟨0x050008, 1, .cmd, 0x0⟩,
  ⟨0x05000c, 1, .rw, 0x3fff1f3f⟩,
  ⟨0x050010, 1, .rw, 0xff0f⟩,
  ⟨0x050014, 1, .rw, 0xfff⟩,
  ⟨0x050018, 1, .rw, 0xfffffff⟩,
  ⟨0x05001c, 1, .rw, 0xff⟩,
  ⟨0x050020, 2, .rw, 0x3⟩,
  ⟨0x050028, 2, .ro, 0x0⟩,
  ⟨0x050030, 4, .rw, 0x33f⟩,
  ⟨0x050100, 16, .rw, 0x1ffffff⟩,
  ⟨0x050140, 16, .rw, 0xffffffff⟩,
  ⟨0x050180, 16, .ro, 0x0⟩,
  ⟨0x050200, 1, .cnt, 0xffffffff⟩,
  ⟨0x050204, 1, .cnt, 0xffffffff⟩,
  ⟨0x050208, 1, .cnt, 0xffffffff⟩,
  ⟨0x05020c, 1, .cnt, 0xffffffff⟩,
  ⟨0x050210, 1, .cnt, 0xffffffff⟩,
  ⟨0x050214, 1, .cnt, 0xffffffff⟩,
  ⟨0x050218, 1, .cnt, 0xffffffff⟩,
  ⟨0x05021c, 1, .cnt, 0xffffffff⟩,
  ⟨0x050220, 1, .cnt, 0xffffffff⟩,
  ⟨0x050224, 1, .cnt, 0xffffffff⟩]

/-- The register table rows of the block at BAR0 0x60000. -/
def rows_006 : List Row := [
  ⟨0x060000, 1, .ro, 0x0⟩,
  ⟨0x060004, 1, .rw, 0xff03ffff⟩,
  ⟨0x060008, 1, .rw, 0x7f3f⟩,
  ⟨0x06000c, 1, .rw, 0x3ffff⟩,
  ⟨0x060010, 1, .rw, 0xf3f⟩,
  ⟨0x060014, 1, .rw, 0xff⟩,
  ⟨0x060020, 1, .rw, 0x3fffffff⟩,
  ⟨0x060030, 1, .rw, 0x3fffffff⟩,
  ⟨0x060024, 1, .rw, 0xffff⟩,
  ⟨0x060034, 1, .rw, 0xffff⟩,
  ⟨0x060028, 1, .ro, 0x0⟩,
  ⟨0x060038, 1, .ro, 0x0⟩,
  ⟨0x06002c, 1, .rw, 0xfff⟩,
  ⟨0x06003c, 1, .rw, 0xfff⟩,
  ⟨0x060040, 1, .cnt, 0xffffffff⟩,
  ⟨0x060044, 1, .cnt, 0xffffffff⟩,
  ⟨0x060048, 1, .cnt, 0xffffffff⟩,
  ⟨0x06004c, 1, .cnt, 0xffffffff⟩,
  ⟨0x060050, 1, .cnt, 0xffffffff⟩,
  ⟨0x060054, 1, .cnt, 0xffffffff⟩,
  ⟨0x060058, 1, .cnt, 0xffffffff⟩,
  ⟨0x06005c, 1, .cnt, 0xffffffff⟩,
  ⟨0x060060, 1, .cnt, 0xffffffff⟩,
  ⟨0x060080, 24, .ro, 0x0⟩,
  ⟨0x0600c0, 24, .ro, 0x0⟩,
  ⟨0x060400, 80, .rw, 0x3fff⟩,
  ⟨0x060600, 80, .ro, 0x0⟩,
  ⟨0x061000, 80, .cnt, 0xffffffff⟩,
  ⟨0x061200, 80, .cnt, 0xffffffff⟩,
  ⟨0x061400, 80, .cnt, 0xffffffff⟩,
  ⟨0x061600, 80, .cnt, 0xffffffff⟩,
  ⟨0x061800, 80, .cnt, 0xffffffff⟩,
  ⟨0x061a00, 80, .cnt, 0xffffffff⟩,
  ⟨0x061c00, 80, .cnt, 0xffffffff⟩]

/-- The register table rows of the block at BAR0 0x70000. -/
def rows_007 : List Row := [
  ⟨0x070000, 1, .ro, 0x0⟩,
  ⟨0x070004, 1, .ro, 0x0⟩,
  ⟨0x070008, 1, .rw, 0x7ff⟩,
  ⟨0x07000c, 1, .rw, 0x7ff⟩,
  ⟨0x070010, 1, .rw, 0x1fffff⟩,
  ⟨0x070014, 1, .rw, 0x7⟩,
  ⟨0x070018, 1, .rw, 0x33f⟩,
  ⟨0x07001c, 1, .rw, 0x1fff⟩,
  ⟨0x070020, 1, .rw, 0xfffff⟩,
  ⟨0x070024, 1, .rw, 0xffffffff⟩,
  ⟨0x070028, 1, .rw, 0x1ffff⟩,
  ⟨0x07002c, 1, .rw, 0xff⟩,
  ⟨0x070030, 1, .rw, 0x1ffff⟩,
  ⟨0x070034, 1, .rw, 0xffffffff⟩,
  ⟨0x070038, 1, .rw, 0xffffffff⟩,
  ⟨0x07003c, 1, .rw, 0xffff⟩,
  ⟨0x070100, 16, .cnt, 0xffffffff⟩,
  ⟨0x070140, 1, .cnt, 0xffffffff⟩,
  ⟨0x070144, 1, .cnt, 0xffffffff⟩,
  ⟨0x070148, 1, .cnt, 0xffffffff⟩,
  ⟨0x07014c, 1, .cnt, 0xffffffff⟩,
  ⟨0x070150, 1, .cnt, 0xffffffff⟩,
  ⟨0x070154, 1, .cnt, 0xffffffff⟩,
  ⟨0x070158, 1, .cnt, 0xffffffff⟩,
  ⟨0x07015c, 1, .cnt, 0xffffffff⟩,
  ⟨0x070160, 1, .cnt, 0xffffffff⟩,
  ⟨0x070164, 1, .cnt, 0xffffffff⟩,
  ⟨0x070168, 1, .cnt, 0xffffffff⟩,
  ⟨0x07016c, 1, .cnt, 0xffffffff⟩,
  ⟨0x070170, 1, .cnt, 0xffffffff⟩,
  ⟨0x070174, 1, .cnt, 0xffffffff⟩,
  ⟨0x070178, 1, .cnt, 0xffffffff⟩,
  ⟨0x07017c, 1, .cnt, 0xffffffff⟩,
  ⟨0x070180, 1, .cnt, 0xffffffff⟩,
  ⟨0x070184, 1, .cnt, 0xffffffff⟩,
  ⟨0x070188, 1, .cnt, 0xffffffff⟩,
  ⟨0x07018c, 1, .cnt, 0xffffffff⟩,
  ⟨0x070190, 1, .cnt, 0xffffffff⟩,
  ⟨0x070194, 1, .cnt, 0xffffffff⟩,
  ⟨0x070198, 1, .cnt, 0xffffffff⟩,
  ⟨0x07019c, 1, .cnt, 0xffffffff⟩,
  ⟨0x0701a0, 1, .cnt, 0xffffffff⟩,
  ⟨0x0701a4, 1, .cnt, 0xffffffff⟩]

/-- The register table rows of the block at BAR0 0x80000. -/
def rows_008 : List Row := [
  ⟨0x080000, 1, .ro, 0x0⟩,
  ⟨0x080004, 1, .cmd, 0x0⟩,
  ⟨0x080008, 1, .mbx, 0x0⟩,
  ⟨0x080010, 4, .rw, 0xffffffff⟩,
  ⟨0x080020, 4, .mbx, 0x0⟩,
  ⟨0x080030, 1, .rw, 0x7ffffff⟩,
  ⟨0x080034, 1, .ro, 0x0⟩,
  ⟨0x080040, 4, .rw, 0x1ffffff⟩,
  ⟨0x080050, 4, .rw, 0xffffffff⟩,
  ⟨0x080060, 4, .ro, 0x0⟩,
  ⟨0x080100, 4, .cnt, 0xffffffff⟩,
  ⟨0x080110, 4, .cnt, 0xffffffff⟩,
  ⟨0x080120, 4, .cnt, 0xffffffff⟩,
  ⟨0x080130, 4, .cnt, 0xffffffff⟩,
  ⟨0x080140, 4, .cnt, 0xffffffff⟩,
  ⟨0x080150, 4, .cnt, 0xffffffff⟩,
  ⟨0x080160, 4, .cnt, 0xffffffff⟩,
  ⟨0x080170, 4, .cnt, 0xffffffff⟩,
  ⟨0x080180, 4, .cnt, 0xffffffff⟩,
  ⟨0x080190, 4, .cnt, 0xffffffff⟩,
  ⟨0x080200, 1, .cnt, 0xffffffff⟩,
  ⟨0x080204, 1, .cnt, 0xffffffff⟩,
  ⟨0x080208, 1, .cnt, 0xffffffff⟩,
  ⟨0x08020c, 1, .cnt, 0xffffffff⟩,
  ⟨0x080210, 1, .cnt, 0xffffffff⟩,
  ⟨0x080214, 1, .cnt, 0xffffffff⟩,
  ⟨0x080218, 1, .cnt, 0xffffffff⟩,
  ⟨0x08021c, 1, .cnt, 0xffffffff⟩,
  ⟨0x080220, 1, .cnt, 0xffffffff⟩]

/-- The register table rows of the block at BAR0 0x90000. -/
def rows_009 : List Row := [
  ⟨0x090000, 1, .ro, 0x0⟩,
  ⟨0x090004, 1, .rw, 0x1ff⟩,
  ⟨0x090008, 1, .ro, 0x0⟩,
  ⟨0x09000c, 1, .ro, 0x0⟩,
  ⟨0x090010, 1, .rw, 0xffffff⟩,
  ⟨0x090014, 1, .ro, 0x0⟩,
  ⟨0x090020, 1, .cmd, 0x0⟩,
  ⟨0x090024, 1, .mbx, 0x0⟩,
  ⟨0x090030, 4, .rw, 0xffffffff⟩,
  ⟨0x090040, 8, .mbx, 0x0⟩,
  ⟨0x090060, 8, .ro, 0x0⟩,
  ⟨0x090080, 8, .ro, 0x0⟩,
  ⟨0x090100, 1, .cnt, 0xffffffff⟩,
  ⟨0x090104, 1, .cnt, 0xffffffff⟩,
  ⟨0x090108, 1, .cnt, 0xffffffff⟩,
  ⟨0x09010c, 1, .cnt, 0xffffffff⟩,
  ⟨0x090110, 1, .cnt, 0xffffffff⟩,
  ⟨0x090114, 1, .cnt, 0xffffffff⟩,
  ⟨0x090118, 1, .cnt, 0xffffffff⟩,
  ⟨0x09011c, 1, .cnt, 0xffffffff⟩,
  ⟨0x090120, 1, .cnt, 0xffffffff⟩,
  ⟨0x090124, 1, .cnt, 0xffffffff⟩]

/-- The register table rows of the block at BAR0 0xa0000. -/
def rows_00a : List Row := [
  ⟨0x0a0000, 1, .ro, 0x0⟩,
  ⟨0x0a0004, 1, .mbx, 0x0⟩,
  ⟨0x0a0008, 1, .mbx, 0x0⟩,
  ⟨0x0a000c, 1, .mbx, 0x0⟩,
  ⟨0x0a0010, 1, .mbx, 0x0⟩,
  ⟨0x0a0014, 1, .mbx, 0x0⟩,
  ⟨0x0a0018, 1, .mbx, 0x0⟩,
  ⟨0x0a001c, 1, .mbx, 0x0⟩,
  ⟨0x0a0020, 1, .mbx, 0x0⟩,
  ⟨0x0a0024, 1, .mbx, 0x0⟩,
  ⟨0x0a0030, 2, .rw, 0xffff⟩,
  ⟨0x0a0040, 16, .rw, 0x1ffff⟩,
  ⟨0x0a0080, 16, .rw, 0xffffff⟩,
  ⟨0x0a00c0, 16, .rw, 0x7⟩,
  ⟨0x0a0100, 16, .rw, 0xffffff⟩,
  ⟨0x0a0140, 16, .rw, 0xffffff⟩,
  ⟨0x0a0180, 16, .rw, 0xffffff⟩,
  ⟨0x0a01c0, 16, .rw, 0xffffff⟩,
  ⟨0x0a0200, 1, .rw, 0xff1ffdff⟩,
  ⟨0x0a0204, 1, .rw, 0xff1ffdff⟩,
  ⟨0x0a0208, 1, .rw, 0x1fffff⟩,
  ⟨0x0a020c, 1, .rw, 0x1fffff⟩,
  ⟨0x0a0300, 64, .rw, 0xffff7fff⟩,
  ⟨0x0a0400, 64, .rw, 0xffff7fff⟩,
  ⟨0x0a0800, 16, .cnt, 0xffffffff⟩,
  ⟨0x0a0840, 16, .cnt, 0xffffffff⟩,
  ⟨0x0a0880, 16, .cnt, 0xffffffff⟩,
  ⟨0x0a08c0, 16, .cnt, 0xffffffff⟩,
  ⟨0x0a0900, 16, .cnt, 0xffffffff⟩,
  ⟨0x0a0940, 1, .cnt, 0xffffffff⟩,
  ⟨0x0a0944, 1, .cnt, 0xffffffff⟩,
  ⟨0x0a0960, 8, .cnt, 0xffffffff⟩,
  ⟨0x0a0980, 8, .cnt, 0xffffffff⟩,
  ⟨0x0a09a0, 1, .cnt, 0xffffffff⟩,
  ⟨0x0a09a4, 1, .cnt, 0xffffffff⟩]

/-- The register table rows of the block at BAR0 0xb0000. -/
def rows_00b : List Row := [
  ⟨0x0b0000, 1, .ro, 0x0⟩,
  ⟨0x0b0004, 1, .ro, 0x0⟩,
  ⟨0x0b0008, 1, .ro, 0x0⟩,
  ⟨0x0b000c, 1, .rw, 0xffff⟩,
  ⟨0x0b0010, 1, .rw, 0x1ffff⟩,
  ⟨0x0b0014, 1, .ro, 0x0⟩,
  ⟨0x0b0018, 1, .ro, 0x0⟩,
  ⟨0x0b0020, 1, .rw, 0x7ff⟩,
  ⟨0x0b0024, 1, .rw, 0xff⟩,
  ⟨0x0b0028, 1, .ro, 0x0⟩,
  ⟨0x0b0030, 1, .cmd, 0x0⟩,
  ⟨0x0b0034, 1, .mbx, 0x0⟩,
  ⟨0x0b0038, 1, .mbx, 0x0⟩,
  ⟨0x0b003c, 1, .mbx, 0x0⟩,
  ⟨0x0b0040, 1, .mbx, 0x0⟩,
  ⟨0x0b0060, 1, .grd, 0x0⟩,
  ⟨0x0b0070, 1, .grd, 0x0⟩,
  ⟨0x0b0100, 1, .cnt, 0xffffffff⟩,
  ⟨0x0b0104, 1, .cnt, 0xffffffff⟩,
  ⟨0x0b0108, 1, .cnt, 0xffffffff⟩,
  ⟨0x0b010c, 1, .cnt, 0xffffffff⟩,
  ⟨0x0b0110, 1, .cnt, 0xffffffff⟩,
  ⟨0x0b0114, 1, .cnt, 0xffffffff⟩,
  ⟨0x0b0118, 1, .cnt, 0xffffffff⟩,
  ⟨0x0b011c, 1, .cnt, 0xffffffff⟩,
  ⟨0x0b0120, 1, .cnt, 0xffffffff⟩,
  ⟨0x0b0124, 1, .cnt, 0xffffffff⟩,
  ⟨0x0b0128, 1, .cnt, 0xffffffff⟩,
  ⟨0x0b012c, 1, .cnt, 0xffffffff⟩,
  ⟨0x0b0130, 1, .cnt, 0xffffffff⟩]

/-- The register table rows of the block at BAR0 0xc0000. -/
def rows_00c : List Row := [
  ⟨0x0c0000, 1, .ro, 0x0⟩,
  ⟨0x0c0004, 1, .mbx, 0x0⟩,
  ⟨0x0c0008, 1, .mbx, 0x0⟩,
  ⟨0x0c000c, 1, .mbx, 0x0⟩,
  ⟨0x0c0010, 1, .mbx, 0x0⟩,
  ⟨0x0c0014, 1, .mbx, 0x0⟩,
  ⟨0x0c0020, 1, .rw, 0xffffffff⟩,
  ⟨0x0c0024, 1, .rw, 0xff⟩,
  ⟨0x0c0028, 1, .rw, 0xfff3⟩,
  ⟨0x0c0030, 1, .rw, 0xffffffff⟩,
  ⟨0x0c0034, 1, .rw, 0xffff⟩,
  ⟨0x0c0038, 1, .rw, 0x3fffffff⟩,
  ⟨0x0c003c, 1, .cmd, 0x0⟩,
  ⟨0x0c0040, 1, .grd, 0x0⟩,
  ⟨0x0c0050, 1, .mbx, 0x0⟩,
  ⟨0x0c0054, 1, .mbx, 0x0⟩,
  ⟨0x0c0058, 1, .mbx, 0x0⟩,
  ⟨0x0c005c, 1, .mbx, 0x0⟩,
  ⟨0x0c0060, 1, .rw, 0x7777⟩,
  ⟨0x0c0064, 1, .rw, 0xffffffff⟩,
  ⟨0x0c0070, 1, .rw, 0x3fffffff⟩,
  ⟨0x0c0074, 1, .rw, 0x7ffffff⟩,
  ⟨0x0c0078, 1, .rw, 0xffff⟩,
  ⟨0x0c0080, 1, .rw, 0x7⟩,
  ⟨0x0c0084, 2, .rw, 0xfff0fff⟩,
  ⟨0x0c0090, 1, .rw, 0x7ff07ff⟩,
  ⟨0x0c0100, 1, .cnt, 0xffffffff⟩,
  ⟨0x0c0104, 1, .cnt, 0xffffffff⟩,
  ⟨0x0c0108, 1, .cnt, 0xffffffff⟩,
  ⟨0x0c010c, 1, .cnt, 0xffffffff⟩,
  ⟨0x0c0110, 4, .cnt, 0xffffffff⟩,
  ⟨0x0c0120, 1, .cnt, 0xffffffff⟩,
  ⟨0x0c0124, 1, .cnt, 0xffffffff⟩,
  ⟨0x0c0128, 1, .cnt, 0xffffffff⟩,
  ⟨0x0c012c, 1, .cnt, 0xffffffff⟩,
  ⟨0x0c0130, 1, .cnt, 0xffffffff⟩,
  ⟨0x0c0134, 1, .cnt, 0xffffffff⟩]

/-- The register table rows of the block at BAR0 0xd0000. -/
def rows_00d : List Row := [
  ⟨0x0d0000, 1, .ro, 0x0⟩,
  ⟨0x0d0004, 2, .rw, 0x1ffff⟩,
  ⟨0x0d000c, 2, .rw, 0xffff⟩,
  ⟨0x0d0014, 2, .rw, 0x7ffffff⟩,
  ⟨0x0d001c, 2, .rw, 0xffffffff⟩,
  ⟨0x0d0024, 1, .rw, 0x3fff⟩,
  ⟨0x0d0028, 1, .rw, 0x3⟩,
  ⟨0x0d002c, 1, .rw, 0xffffff⟩,
  ⟨0x0d0030, 8, .rw, 0x8fff8fff⟩,
  ⟨0x0d0050, 2, .ro, 0x0⟩,
  ⟨0x0d0058, 2, .ro, 0x0⟩,
  ⟨0x0d0060, 1, .cmd, 0x0⟩,
  ⟨0x0d0064, 1, .ro, 0x0⟩,
  ⟨0x0d0100, 2, .cnt, 0xffffffff⟩,
  ⟨0x0d0108, 2, .cnt, 0xffffffff⟩,
  ⟨0x0d0110, 2, .cnt, 0xffffffff⟩,
  ⟨0x0d0118, 2, .cnt, 0xffffffff⟩,
  ⟨0x0d0120, 2, .cnt, 0xffffffff⟩,
  ⟨0x0d0128, 2, .cnt, 0xffffffff⟩,
  ⟨0x0d0130, 2, .cnt, 0xffffffff⟩,
  ⟨0x0d0138, 2, .cnt, 0xffffffff⟩,
  ⟨0x0d0140, 2, .cnt, 0xffffffff⟩,
  ⟨0x0d0148, 2, .cnt, 0xffffffff⟩,
  ⟨0x0d0150, 2, .cnt, 0xffffffff⟩,
  ⟨0x0d0158, 2, .cnt, 0xffffffff⟩,
  ⟨0x0d0160, 1, .cnt, 0xffffffff⟩,
  ⟨0x0d0164, 1, .cnt, 0xffffffff⟩,
  ⟨0x0d0168, 1, .cnt, 0xffffffff⟩,
  ⟨0x0d016c, 1, .cnt, 0xffffffff⟩]

/-- The register table rows of the block at BAR0 0xe0000. -/
def rows_00e : List Row := [
  ⟨0x0e0000, 1, .ro, 0x0⟩,
  ⟨0x0e0004, 1, .rw, 0x7ff⟩,
  ⟨0x0e0008, 1, .rw, 0xffffffff⟩,
  ⟨0x0e000c, 1, .rw, 0xffffffff⟩,
  ⟨0x0e0010, 1, .ro, 0x0⟩,
  ⟨0x0e0014, 1, .ro, 0x0⟩,
  ⟨0x0e0020, 1, .cmd, 0x0⟩,
  ⟨0x0e0024, 1, .ro, 0x0⟩,
  ⟨0x0e0030, 1, .grd, 0x0⟩,
  ⟨0x0e0040, 1, .mbx, 0x0⟩,
  ⟨0x0e0044, 1, .mbx, 0x0⟩,
  ⟨0x0e0048, 6, .mbx, 0x0⟩,
  ⟨0x0e0060, 6, .mbx, 0x0⟩,
  ⟨0x0e0100, 1, .cnt, 0xffffffff⟩,
  ⟨0x0e0104, 1, .cnt, 0xffffffff⟩,
  ⟨0x0e0108, 1, .cnt, 0xffffffff⟩,
  ⟨0x0e010c, 1, .cnt, 0xffffffff⟩,
  ⟨0x0e0110, 1, .cnt, 0xffffffff⟩,
  ⟨0x0e0114, 1, .cnt, 0xffffffff⟩,
  ⟨0x0e0118, 1, .cnt, 0xffffffff⟩,
  ⟨0x0e011c, 1, .cnt, 0xffffffff⟩,
  ⟨0x0e0120, 1, .cnt, 0xffffffff⟩,
  ⟨0x0e0124, 1, .cnt, 0xffffffff⟩,
  ⟨0x0e0128, 1, .cnt, 0xffffffff⟩,
  ⟨0x0e012c, 1, .cnt, 0xffffffff⟩,
  ⟨0x0e0130, 1, .cnt, 0xffffffff⟩,
  ⟨0x0e0134, 1, .cnt, 0xffffffff⟩,
  ⟨0x0e0138, 1, .cnt, 0xffffffff⟩,
  ⟨0x0e013c, 1, .cnt, 0xffffffff⟩,
  ⟨0x0e0140, 1, .cnt, 0xffffffff⟩,
  ⟨0x0e0144, 1, .cnt, 0xffffffff⟩,
  ⟨0x0e0148, 1, .cnt, 0xffffffff⟩]

/-- The register table rows of the block at BAR0 0xf0000. -/
def rows_00f : List Row := [
  ⟨0x0f0000, 1, .ro, 0x0⟩,
  ⟨0x0f0004, 1, .cmd, 0x0⟩,
  ⟨0x0f0008, 1, .ro, 0x0⟩,
  ⟨0x0f000c, 1, .rw, 0x1f⟩,
  ⟨0x0f0010, 1, .rw, 0x3ff⟩,
  ⟨0x0f0014, 1, .rw, 0x7f⟩,
  ⟨0x0f0018, 1, .rw, 0x3ffffff⟩,
  ⟨0x0f001c, 1, .rw, 0xfffffff⟩,
  ⟨0x0f0020, 3, .rw, 0xffffffff⟩,
  ⟨0x0f0030, 1, .rw, 0xffffffff⟩,
  ⟨0x0f0034, 1, .rw, 0xffffffff⟩,
  ⟨0x0f0038, 1, .rw, 0xffffffff⟩,
  ⟨0x0f003c, 1, .rw, 0xffffffff⟩,
  ⟨0x0f0040, 1, .ro, 0x0⟩,
  ⟨0x0f0044, 1, .ro, 0x0⟩,
  ⟨0x0f0048, 1, .ro, 0x0⟩,
  ⟨0x0f004c, 1, .ro, 0x0⟩,
  ⟨0x0f0050, 1, .grd, 0x0⟩,
  ⟨0x0f0060, 1, .grd, 0x0⟩,
  ⟨0x0f0100, 1, .cnt, 0xffffffff⟩,
  ⟨0x0f0104, 7, .cnt, 0xffffffff⟩,
  ⟨0x0f0120, 1, .cnt, 0xffffffff⟩,
  ⟨0x0f0124, 1, .cnt, 0xffffffff⟩,
  ⟨0x0f0128, 1, .cnt, 0xffffffff⟩,
  ⟨0x0f012c, 1, .cnt, 0xffffffff⟩,
  ⟨0x0f0130, 1, .cnt, 0xffffffff⟩,
  ⟨0x0f0134, 1, .cnt, 0xffffffff⟩,
  ⟨0x0f0140, 4, .cnt, 0xffffffff⟩,
  ⟨0x0f0150, 1, .cnt, 0xffffffff⟩,
  ⟨0x0f0154, 1, .cnt, 0xffffffff⟩]

/-- The register table rows of the block at BAR0 0x100000. -/
def rows_010 : List Row := [
  ⟨0x100000, 1, .ro, 0x0⟩,
  ⟨0x100004, 1, .ro, 0x0⟩,
  ⟨0x100008, 1, .ro, 0x0⟩,
  ⟨0x10000c, 1, .ro, 0x0⟩,
  ⟨0x100010, 1, .ro, 0x0⟩,
  ⟨0x100014, 1, .mbx, 0x0⟩,
  ⟨0x100018, 8, .mbx, 0x0⟩,
  ⟨0x100040, 1, .ro, 0x0⟩,
  ⟨0x100044, 1, .rw, 0xffffffff⟩,
  ⟨0x100048, 1, .ro, 0x0⟩,
  ⟨0x100050, 1, .grd, 0x0⟩,
  ⟨0x100060, 1, .cmd, 0x0⟩,
  ⟨0x100064, 1, .rw, 0xffffffff⟩,
  ⟨0x100068, 1, .ro, 0x0⟩,
  ⟨0x100100, 1, .cnt, 0xffffffff⟩,
  ⟨0x100104, 1, .cnt, 0xffffffff⟩,
  ⟨0x100108, 1, .cnt, 0xffffffff⟩,
  ⟨0x10010c, 1, .cnt, 0xffffffff⟩,
  ⟨0x100110, 1, .cnt, 0xffffffff⟩,
  ⟨0x100114, 1, .cnt, 0xffffffff⟩,
  ⟨0x100118, 1, .cnt, 0xffffffff⟩]

/-- The register table rows of the block at BAR0 0x108000. -/
def rows_110 : List Row := [
  ⟨0x108000, 1, .ro, 0x0⟩,
  ⟨0x108004, 1, .mbx, 0x0⟩,
  ⟨0x108008, 1, .mbx, 0x0⟩,
  ⟨0x10800c, 1, .rw, 0xffffffff⟩,
  ⟨0x108010, 1, .grd, 0x0⟩,
  ⟨0x108020, 1, .grd, 0x0⟩,
  ⟨0x108030, 1, .cnt, 0xffffffff⟩,
  ⟨0x108034, 1, .cnt, 0xffffffff⟩]

/-- The rows of the block that holds a BAR0 offset (R662); no row where no block is. -/
def rowsOf (a : Nat) : List Row :=
  match a / 0x10000 with
  | 0 => rows_000
  | 1 => rows_001
  | 2 => rows_002
  | 3 => rows_003
  | 4 => rows_004
  | 5 => rows_005
  | 6 => rows_006
  | 7 => rows_007
  | 8 => rows_008
  | 9 => rows_009
  | 10 => rows_00a
  | 11 => rows_00b
  | 12 => rows_00c
  | 13 => rows_00d
  | 14 => rows_00e
  | 15 => rows_00f
  | 16 => rows_010 ++ rows_110
  | _ => []

/-- The registers the spec marks AON: they keep their contents across RESET_n (R7). -/
def aonSpans : List (Nat × Nat) := [(0x0b0020, 1), (0x0b0024, 1), (0x0b0028, 1), (0x0b0128, 1), (0x0b012c, 1), (0x0f0030, 1), (0x0f0034, 1), (0x0f0038, 1), (0x0f003c, 1), (0x0f0040, 1), (0x0f0044, 1), (0x0f0128, 1), (0x0f012c, 1), (0x0f0130, 1), (0x0f0134, 1), (0x0f0154, 1), (0x100100, 1), (0x100104, 1), (0x100108, 1)]

/-- Whether a register is marked AON (R7). -/
def isAon (a : Nat) : Bool := aonSpans.any fun p => Nat.ble p.1 a && Nat.blt a (p.1 + 4 * p.2)

/-- The row of a register's offset, if a register of the tables stands there. -/
def rowOf (a : Nat) : Option Row :=
  (rowsOf a).find? fun r => Nat.ble r.base a && Nat.blt a (r.base + 4 * r.count) && Nat.beq (a % 4) 0

end Sys2Proof.Reg
end

