-- ==== Sys2Proof/Machine/State.lean ====
section
/-!
DEFINITION. Machine/State.lean: everything the spec gives the machine, as plain data. Registers stand in one sparse
store by BAR0 offset (an unlisted register reads 0), the Envelope in one sparse store by byte address, every other
piece of state in the record of its unit, and the queue of commands that are waiting beside them.
-/

namespace Sys2Proof.Machine

open Sys2Proof

/-- The major modes of R24, in the order of their numbers. -/
inductive Mode where
  | cold | rom | recovery | commission | solo | active | standby | takeover | reclaim | doze | drift | hold
  deriving DecidableEq, Repr

/-- The number GEN_MODE shows for a mode (R24, R31). -/
def Mode.code : Mode → Nat
  | .cold => 0 | .rom => 1 | .recovery => 2 | .commission => 3 | .solo => 4 | .active => 5
  | .standby => 6 | .takeover => 7 | .reclaim => 8 | .doze => 9 | .drift => 10 | .hold => 11

/-- The mode a number of R24 names; 12–15 never occur (R31). -/
def Mode.ofCode : Nat → Mode
  | 0 => .cold | 1 => .rom | 2 => .recovery | 3 => .commission | 4 => .solo | 5 => .active
  | 6 => .standby | 7 => .takeover | 8 => .reclaim | 9 => .doze | 10 => .drift | _ => .hold

/-- The modes in which the beat sequencer runs (R43). -/
def Mode.runs : Mode → Bool
  | .commission | .solo | .active | .standby | .takeover | .reclaim | .doze => true
  | _ => false

/-- The modes in which the unit serves its mesh on the air (R24). -/
def Mode.serves : Mode → Bool
  | .solo | .active | .takeover | .reclaim | .doze => true
  | _ => false

/-- The modes with air reception (R24). -/
def Mode.airRx : Mode → Bool
  | .standby => true
  | m => m.serves

/-- COMMISSION and the serving modes: the device's own units are in service (R283, R320, R356). -/
def Mode.inService : Mode → Bool := Mode.runs

/-- The serving modes (R599): every running mode but COMMISSION. -/
def Mode.serving (m : Mode) : Bool := m.runs && !decide (m = .commission)

/-- The modes with the full uplink and bridge; the others pass chain traffic through, or nothing (R24). -/
def Mode.uplink (m : Mode) : Bool := m.serves

/-- The levels of the pins and rails the device senses. -/
structure Pins where
  supplies : Bool      -- every rail in its operating range (R648)
  porHeld : Bool       -- the internal power-on reset still holds the device (R648)
  vbat : Bool          -- VBAT_AON at or above 1.7 V (R646)
  vbat18 : Bool        -- VBAT_AON at or above 1.8 V (R526)
  resetN : Bool
  perstN : Bool
  tamper0 : Bool       -- TAMPER0 at its active level (R409)
  tamper1 : Bool
  mainsRaw : Bool      -- MAINS_SENSE before its filter (R523)
  rcvrLow : Bool       -- RCVR_n low as step 1 of the ROM samples it (R553)
  roleB : Bool         -- PAIR_ROLE as step 1 samples it (R553)
  memUp : Bool         -- the memory rails have stayed up since the regions were placed (R28)
  deriving DecidableEq, Repr

/-! ### The beat sequencer and the engines -/

/-- One entry of a completion ring (R53). -/
structure Completion where
  tag : Nat
  thread : Nat
  cls : Nat
  status : Nat
  flags : Nat
  beat : Nat
  result : Nat
  deriving DecidableEq, Repr

/-- One Spool (R44): what the sequencer and the accelerators keep about it. -/
structure Engine where
  second : Option Nat          -- a second role carried for the beat (R47)
  slots : List Nat             -- tag slots in use (R50, R51)
  ring : List Completion       -- completion entries not yet taken, oldest first (R53)
  held : List Completion       -- completions that wait for a level change to end (R57)
  stalled : List Nat           -- threads waiting for a free tag (R51)
  ovrRun : Nat                 -- consecutive overruns (R63)
  overran : Bool               -- an overrun counted in this beat (R60)
  restoreIn : Option Nat       -- boundaries left until a faulted engine returns (R48)
  bist : Bool                  -- under logic BIST in this beat (R47)
  gated : Bool                 -- gated by the Doze profile (R520)
  deriving DecidableEq, Repr

def Engine.idle : Engine := ⟨none, [], [], [], [], 0, false, none, false, false⟩

/-- The beat sequencer (R36–R43). -/
structure Bt where
  beat : Nat                   -- number of the current or last beat (R34)
  used : Option Nat            -- the last beat number used (R41)
  sample : Nat                 -- sample index stamped at the boundary (R35)
  margin : Nat                 -- bind margin in force for the beat, µs (R69)
  split : Option TmrUnit       -- the triplicated unit with a copy waiting to be reloaded (R42, R468)
  opensChange : Bool           -- the beat opened with a performance-level change (R55)
  limitReset : Bool            -- BT_OVR_LIMIT written: runs restart at the next boundary (R70)
  engines : Store Engine       -- unlisted: `Engine.idle`
  dozeReturn : Option Nat      -- boundaries left until gated engines return (R522)
  once : List (Nat × Nat)      -- events limited to once per beat already raised in it (source, key)
  timers : List (Nat × Nat)    -- general timers expired in the beats not over: timer and bound beat (R39)
  late : List (Nat × Nat)      -- shadowed beat: operations LATE on the active unit: engine and tag slot (R64)
  deriving DecidableEq, Repr

/-! ### Time -/

/-- One capture of a timing input (R427). -/
structure Capture where
  s : Nat
  n : Nat
  rising : Bool
  ovf : Bool
  seq : Nat
  deriving DecidableEq, Repr

/-- The time keeper (R413–R430). -/
structure Tk where
  s : Nat                      -- seconds, 48 bits
  n : Nat                      -- nanoseconds, 0 to 999,999,999
  fr : Nat                     -- fraction in 2⁻³² ns (R413)
  inc : Nat                    -- INC[39:0] in force (R414)
  aonS : Nat                   -- AON seconds (R417)
  aonFr : Nat                  -- AON fraction, 15 bits
  holdTrace : Bool             -- holdover was entered from LOCKED and TRACE holds (R423)
  step : Option Int            -- a step waiting for its boundary, in ns (R420)
  fifos : Store (List Capture) -- per input, oldest first (R427)
  lost : Store Bool            -- per input, captures lost since the last stored (R427)
  seqs : Store Nat             -- per input, the next sequence number
  pps : Bool                   -- PPS_OUT (R429)
  beatOut : Bool               -- BEAT_OUT (R430)
  residence : Nat              -- the residence counter, 2⁻³² ns (R432)
  tsiLast : Store Nat          -- per input, ns of the last edge not ignored, plus 1 (R427)
  tod : Option Nat             -- seconds of the next PPS edge, from TIME_OF_DAY (R425)
  deriving DecidableEq, Repr

/-! ### Power -/

/-- Operations of a power request (R524), numbered as PWR_REQ.OP. -/
inductive PwrOp where
  | level (l : Nat) | doze | serve | drift | other (op : Nat)
  deriving DecidableEq, Repr

/-- A power request's source (R524), numbered as PEND_SRC. -/
inductive PwrSrc where
  | host | mains | thermal
  deriving DecidableEq, Repr

structure PwrReq where
  op : PwrOp
  src : PwrSrc
  deriving DecidableEq, Repr

/-- A performance-level change in progress (R514). -/
structure LevelChange where
  old : Nat
  new : Nat
  src : Nat                    -- 0 a mode change, else PEND_SRC
  failed : Bool
  settled : Bool
  deriving DecidableEq, Repr

/-- The power controller (R510–R536). -/
structure Pwr where
  slot : Option PwrReq                 -- the pending slot (R525)
  trans : Option PwrReq                -- the transition in progress
  staged : Option (Mode × Nat)         -- mode change staged for the boundary, with its row in R510
  nextLevel : Option (Nat × Nat)       -- level change staged for the boundary, with its source
  change : Option LevelChange
  lastFail : Option (Nat × Nat)        -- level last failed toward, failures in a row (R515)
  locked : List Nat                    -- levels refused by SUPPLY until the next mode change (R515)
  capped : Bool
  mainsHoldoff : Bool                  -- MAINS requests for DOZE held off until mains is restored (R536)
  lossWait : Bool                      -- the LOSS_DRIFT_S wait runs (R523)
  exitForced : Bool                    -- a forced DOZE exit waits for the boundary (R536)
  latchArmed : Bool                    -- from the commit point until entry completes (R533)
  latch : Option (Nat × Nat)           -- first wake source and its AON time (R533)
  driftEntry : Nat                     -- 0 none, 1 committed, 2 CHANGING, 3 sequencer stopped (R527)
  cycle : Bool                         -- a sample-compare cycle is running (R530)
  hits : Nat                           -- consecutive cycles whose sniff condition was met (R529)
  vid : Nat                            -- level ENG_VID[1:0] drives (R516)
  woke : Bool                          -- a wake whose PWR_WOKE is still to be raised (R534)
  driftFr : Nat                        -- ticks counted toward PWR_ACC_DRIFT_S (R538)
  accMs : Store Nat                    -- milliseconds counted toward each accumulator (R538)
  dozeEng : Nat                        -- PWR_DOZE_ENG as of the last DOZE entry (R520)
  dozeDec : Nat                        -- the decoders its PWR_DOZE_DECx kept, bit n for decoder n
  deriving DecidableEq, Repr

/-! ### Start-up and the flash -/

/-- The fields of a boot-state record (R545). -/
structure Bsr where
  seq : Nat
  commissioned : Bool
  fwActive : Nat
  fwTrial : Option Nat
  fwTries : Nat
  cfgActive : Nat
  cfgTrial : Option Nat
  cfgTries : Nat
  dirFormat : Nat
  cfgFloor : Nat
  deriving DecidableEq, Repr

/-- What the device uses when neither copy is valid (R546). -/
def Bsr.default : Bsr := ⟨0, false, 0, none, 0, 0, none, 0, 0, 0⟩

/-- One record frame of the key area (R383). -/
structure KeyRec where
  slot : Nat
  parent : Nat
  attr : Nat
  seq : Nat
  parentSeq : Nat
  key : Nat                    -- the key WRAPPED unwraps to under the KEK
  good : Bool                  -- RTAG verifies and the unwrap succeeds
  deriving DecidableEq, Repr

/-- One sector of a key-area group (R383); `gseq` is none where its header does not verify. -/
structure KeySector where
  gseq : Option Nat
  recs : List KeyRec
  deriving DecidableEq, Repr

/-- One epoch record (R389). -/
structure EpochRec where
  rootset : Nat
  epoch : Nat
  seq : Nat
  deriving DecidableEq, Repr

/-- The external flash (R543): what its areas hold. -/
structure Flash where
  bsr0 : Option Bsr            -- copy 0, if valid (R546)
  bsr1 : Option Bsr
  recovery : List Byte         -- the Recovery image as stored; none where empty
  slots : Store (List Byte)    -- images as stored (R547); unlisted: erased. 0 firmware A, 1 firmware B, 2 configuration A, 3 configuration B (R575)
  keys : Store KeySector       -- sectors 0–51 of the key area; an unlisted sector is erased (R383)
  epoch52 : List EpochRec      -- programmed frames of sectors 52 and 53, in order (R389)
  epoch53 : List EpochRec
  deriving DecidableEq, Repr

/-- An update session (R565–R568). -/
structure Session where
  kind : Nat
  length : Nat
  tries : Nat
  sha : Nat
  units : List Nat             -- 4 KiB units marked
  state : Nat                  -- 1 receiving, 2 applying, 3 done
  deriving DecidableEq, Repr

/-- Start-up, update and recovery (R542–R576). -/
structure Boot where
  flash : Flash
  placement : List (Nat × Nat)     -- region placement the kept regions were written under (R555)
  requestRecovery : Bool           -- AON flag of BOOT_RECOVERY (R573)
  cfgHash : Nat                    -- SHA-256 of the loaded configuration image (R579)
  cfgFormat : Nat                  -- FORMAT of the loaded configuration
  fwFormat : Nat × Nat             -- FORMAT_MIN and FORMAT of the running firmware
  fwDirFormat : Nat × Nat          -- DIR_FORMAT and DIR_FORMAT_MIN of the running firmware
  networkId : Nat
  syncWord : Nat
  ipv6 : List Byte
  headends : List (List Byte)
  statics : List (Nat × Nat)       -- static entries of the loaded configuration: table and 128-bit entry
  gpio : List Nat
  gtOwner : List Nat
  priOwned : Bool              -- CXW_PRI owns its ball: Port W coexistence was enabled at the load (R643)
  trial : Bool × Bool              -- firmware, configuration running as a trial
  running : Bool                   -- the ROM flow is in progress
  recoveryShell : Bool             -- the Recovery image runs the command ring (R574)
  commissionWait : Bool            -- waiting for COMMISSION_DONE (R559)
  migrating : Bool
  session : Option Session
  activateAt : Option (Option Nat) -- restart scheduled: some none at the next boundary, some (some n) at beat n
  activateWait : Bool              -- waiting on the partner's stale takeover (R572)
  checked : Option (List Byte)     -- image that passed a Recovery CHECK (R575)
  rcvOp : Option (Nat × Nat × Option Nat)   -- Recovery operation in progress, its argument, its command's sequence
  rcvSeen : Bool                   -- a BOOT_RCV_CMD was accepted in this RECOVERY (R576)
  rcvError : Bool                  -- RECOVERY was entered for an error (R576)
  deriving DecidableEq, Repr

/-! ### Host interface and events -/

/-- A command taken from the ring and not yet completed (R616). -/
structure HostCmd where
  seq : Nat
  opcode : Nat
  id : Nat
  index : Nat
  beat : Nat
  args : List Byte             -- the ARG_LEN argument bytes, as taken
  iface : HostIface            -- the interface it was doorbelled through
  mirrored : Bool              -- it came in the partner's record, and is not completed here (R481, R482)
  deriving DecidableEq, Repr

/-- The host interface (R596–R625). -/
structure Hif where
  armed : Store Word               -- guarded registers with a value armed (R609)
  doorbell : Nat                   -- tail as it stood when the current beat started (R615)
  bell : HostIface                 -- the interface of the last doorbell
  cmds : List HostCmd              -- taken and not completed
  cplPhase : Bool                  -- PHASE of the pass in progress (R613)
  journalNext : Nat                -- sequence to be assigned next (R623)
  journalOldest : Nat
  refused : Nat                    -- commands refused in this beat (R631, 121)
  done : Nat                       -- completions written in this beat (122)
  spiErr : Bool                    -- the last SPI transaction was logged (R599)
  spiOut : List Byte               -- bytes the last SPI transaction returned
  barOut : List Byte               -- bytes the last BAR2 read returned
  funcMask : Bool                  -- MSI-X function mask in configuration space (R629)
  unmasked : List Nat              -- vectors whose Mask bit in the MSI-X table is 0 (R629)
  deriving DecidableEq, Repr

/-- One open entry of the event Bridle (R628). -/
structure BridleEntry where
  src : Nat
  key : List Byte
  window : Nat                     -- commit windows left until the window ends (BRIDLE_MS when it opened)
  repeats : Nat
  record : List Byte               -- last record
  beat : Nat
  time : Nat × Nat
  deriving DecidableEq, Repr

/-- Event rings, event Bridle and MSI-X moderation (R626–R630). -/
structure Evt where
  seqs : Store Nat                 -- per ring, the next SEQ
  lost : Store Bool                -- per ring, the next entry carries LOST
  phase : Store Bool               -- per ring, true on the passes where PHASE is 0
  bridle : List BridleEntry        -- open entries, earliest opened first
  cooling : List (Nat × Bool)      -- vectors in moderation; true when requests wait (R629)
  placed : Bool                    -- the rings have their place: from the load, or RECOVERY, on (R669)
  stopped : Bool                   -- HOLD: the rings have stopped (R627)
  deriving DecidableEq, Repr
/-! ### Accelerator operations -/

/-- The key of a frame (R369): whose, and between whom. -/
inductive FrameKey where
  | link (nsa : Nat)
  | e2e (nsa : Nat)
  | join (eui : Nat)
  | bcast
  | mesh
  deriving DecidableEq, Repr

/-- One end of an Envelope copy (R49): the Envelope, or the engine's data SRAM. -/
inductive CopyEnd where
  | envelope (addr : Nat)
  | sram (addr : Nat)
  deriving DecidableEq, Repr

/-- What an operation in flight will do when its accelerator finishes. Addresses are of the engine's data SRAM. -/
inductive OpWork where
  | redecode (frame codeword out : Nat)
  | seal (key : FrameKey) (addr len out : Nat)
  | openFrame (key : FrameKey) (addr len out : Nat)
  | derive (slot : Nat) (label : List Byte)
  | cmac (slot addr len out : Nat)
  | sha (state block out : Nat)
  | ecdsa (key sig hash : Nat)
  | routeWalk (final out : Nat)
  | place (queue start decoder cls length : Nat)
  | planQuery (out : Nat)
  | copy (src dst : CopyEnd) (len : Nat)
  deriving DecidableEq, Repr

/-- What a cipher operation fetched when a core took it (R363, R380). -/
structure Fetch where
  core : Nat
  slot : Nat
  key : List Nat               -- key bytes
  ctr : Nat                    -- the counter taken (R391)
  deriving DecidableEq, Repr

/-- One outstanding operation (R50, R51). -/
structure Op where
  id : Nat                     -- arrival order
  pe : Nat
  thread : Nat
  slot : Nat                   -- tag bits [5:0]
  cls : Nat
  beat : Nat                   -- bound beat
  work : OpWork
  fetch : Option Fetch
  deriving DecidableEq, Repr

/-- The accelerators' outstanding operations and the engines' data SRAM (R44, R49–R54). -/
structure Accel where
  ops : List Op                -- in arrival order
  next : Nat                   -- identifier of the next operation
  sram : Store Byte            -- engine n's byte a at n × 2¹⁸ + a; unlisted 0
  deriving DecidableEq, Repr

/-! ### Keys, ciphers and tamper -/

/-- The states of a key slot (R374). -/
inductive SlotState where
  | empty | valid | draining | orphan | torn
  deriving DecidableEq, Repr

def SlotState.code : SlotState → Nat
  | .empty => 0 | .valid => 1 | .draining => 2 | .orphan => 3 | .torn => 4

/-- One key slot (R374). -/
structure KeySlot where
  key : Nat                    -- 256 bits
  attr : Nat
  parent : Nat                 -- 0xFFFF for a root
  gen : Nat
  tag : Nat                    -- 64 bits
  state : SlotState
  deriving DecidableEq, Repr

def KeySlot.zeroed : KeySlot := ⟨0, 0, 0, 0, 0, .empty⟩

/-- A slot change in progress (R379, R380): the shadow copy, and the host command that waits for it. -/
structure SlotWrite where
  slot : Nat
  shadow : Option KeySlot      -- none: the change erases the slot
  draining : Bool              -- false: the key-area record is being written
  cmd : Option Nat             -- SEQUENCE of the command to complete
  deriving DecidableEq, Repr

/-- One entry of the derived-key cache (R371). -/
structure CacheEntry where
  slot : Nat
  gen : Nat
  label : List Byte
  key : List Nat
  expiry : Nat
  deriving DecidableEq, Repr

/-- The security block (R363–R398). -/
structure Sec where
  slots : Store KeySlot        -- unlisted: zeroed and EMPTY
  writes : List SlotWrite      -- in request order
  cache : List CacheEntry      -- earliest inserted first
  kek : Option (List Nat)      -- derived in step 3 of R386
  integrity : Option (List Nat)
  scrubAt : Nat                -- next slot of the tag scrubber (R382)
  roll : Option Bool           -- a roll is pending; true once its epoch record is confirmed (R392)
  rollFrom : Nat               -- the epoch a taken-over unit rolls past (R393)
  levels : List Nat            -- configured minimum LEVEL of each frame TYPE 0–7 (R104)
  deb0 : Bool                  -- TAMPER0 debounce running (R395)
  deb1 : Bool
  mon : List Nat               -- monitor conditions present, codes 3–5 of R395
  replay : Store (List Byte)   -- the last JOIN request accepted for each entry of the join replay table (R370)
  deriving DecidableEq, Repr

/-! ### Fuses -/

/-- A fuse operation in progress (R403, R404). -/
structure FuseJob where
  row : Nat
  bits : Word
  advance : Bool
  deriving DecidableEq, Repr

/-- The OTP array (R399): 128 rows of 32 bits; an unlisted row is unblown. -/
structure Fuse where
  rows : Store Word
  job : Option FuseJob
  deriving DecidableEq, Repr

/-! ### The Envelope's queues -/

/-- A queue word (R297): data, tag and parity bit. -/
structure QWord where
  data : BitVec 64
  valid : Bool
  poison : Bool
  first : Bool
  last : Bool
  count : Nat                  -- COUNT, 0–15
  par : Bool
  deriving DecidableEq, Repr

/-- One spill page a queue holds (R299). -/
structure Page where
  no : Nat
  first : Nat                  -- sequence number of word 0
  count : Nat
  deriving DecidableEq, Repr

/-- What the units keep about one committed packet, by the sequence number of its first word. -/
structure PacketInfo where
  start : Nat
  stop : Nat                   -- CPTR after its commit
  beat : Nat                   -- bound beat (R303)
  acct : Nat                   -- accounting length A (R330)
  colour : Nat                 -- 0 GREEN, 1 YELLOW (R335)
  decoder : Option Nat         -- placement request (R339): decoder, power class and LENGTH
  cls : Nat
  length : Nat
  retries : Nat                -- retransmissions made (R209)
  headend : Option Nat         -- the headend of a PLE message; none for every other packet (R456)
  stamp : Option Nat           -- residence counter at ingress of a frame the transparent clock corrects (R432)
  deriving DecidableEq, Repr

/-- One queue (R295, R300). Pointers are word sequence numbers modulo 2³². -/
structure Queue where
  producer : Nat
  consumer : Nat
  deferred : Bool
  group : Nat
  fcEn : Bool
  limit : Nat
  hi : Nat
  lo : Nat
  head : Word
  mark : Word
  rptr : Word
  tail : Word
  cptr : Word
  wptr : Word
  words : List QWord           -- from HEAD to WPTR
  packets : List PacketInfo    -- committed, oldest first, those not wholly released
  openBy : Option (Bool × Nat) -- writer of the open packet (true: an engine port) and its bound beat
  discarding : Bool            -- the rest of a refused packet is discarded (R303)
  skipping : Bool              -- the consumer discards a poisoned packet (R312)
  headB : Word                 -- HEAD at the start of the beat in progress (R303)
  fc : Bool
  pages : List Page            -- in order
  nPackets : Nat               -- statistics (R316)
  nWords : Nat
  nRefused : Nat
  nAborted : Nat
  nPoisoned : Nat
  changed : Bool               -- changed in this beat
  deriving DecidableEq, Repr

def Queue.unused : Queue where
  producer := 0
  consumer := 0
  deferred := false
  group := 0
  fcEn := false
  limit := 0
  hi := 0
  lo := 0
  head := 0
  mark := 0
  rptr := 0
  tail := 0
  cptr := 0
  wptr := 0
  words := []
  packets := []
  openBy := none
  discarding := false
  skipping := false
  headB := 0
  fc := false
  pages := []
  nPackets := 0
  nWords := 0
  nRefused := 0
  nAborted := 0
  nPoisoned := 0
  changed := false

/-- A queue command in progress (R321). -/
structure QCmd where
  status : Nat                 -- what ENV_QCMD_STAT and ENV_QRESx will show
  results : List Nat
  deriving DecidableEq, Repr

/-- The Envelope controller. -/
structure Env where
  queues : Store Queue         -- by queue number; unlisted: `Queue.unused`
  pagesUsed : List Nat         -- spill pages in use, rising
  cmd : Option QCmd            -- ENV_QCMD in progress
  scrubAt : Nat                -- next 64-byte burst of the patrol scrubber (R289)
  passCorr : Nat               -- corrected and uncorrectable errors of the pass
  passUnc : Nat
  deadRecords : List Nat       -- records to be cleared at the commit window (R290)
  fcHold : List (Nat × Bool)   -- groups in their pin hold time (R314), with the level the pin shows
  deriving DecidableEq, Repr

/-! ### Forwarding -/

/-- A learn that waits for its turn in its pipeline (R261) is kept with its frame; a block that waits for the boundary
of a resync (R271) here. -/
structure BlockResync where
  table : Nat
  block : Nat
  entries : List (BitVec 128)
  deriving DecidableEq, Repr

/-- A table operation in progress on the command register (R279): the result it will show. -/
structure FwdCmd where
  status : Nat
  way : Nat
  bucket : Nat
  res : BitVec 128
  hold : Option Nat            -- the table a FLUSH of FP0 or FP1 holds for its duration (revision A1, R279)
  deriving DecidableEq, Repr

/-- The forwarding pipelines (R252–R287). -/
structure Fwd where
  tables : Store (BitVec 128)  -- table × 2¹⁸ + slot; unlisted 0
  lfsr : Store Nat             -- per table (R263)
  cmd : Option FwdCmd
  expired : List (Nat × BitVec 128)  -- entries the sweep found expired, by table (R265)
  swept : List (Nat × BitVec 128)    -- keys the sweep of the beat deleted (R266)
  digests : List Nat           -- digests of the beat's four blocks (R270)
  resync : List BlockResync    -- blocks to replace at the boundary (R271)
  seqs : Store Nat             -- per headend, UPLINK messages sent (R276)
  rwFails : List Nat           -- failed walks of the beat, by reason 1–4 (R274)
  dlFails : List Nat           -- refused DOWNLINK messages of the beat, by status (R281)
  deriving DecidableEq, Repr

/-! ### Scheduling -/

/-- One flow of a WFQ domain (R324, R325). -/
structure Flow where
  fLast : Nat
  stamps : List (Nat × Nat)    -- packets stamped and still queued: start of the packet, finish time F
  selected : List Nat          -- starts of the packets selected and not yet released or returned
  finished : List Nat          -- of those, the ones done with that an earlier packet keeps from being released
  starve : Nat                 -- consecutive plans the head was a candidate and not placed (R349)
  starved : Bool               -- SCH_STARVED raised, no packet placed since
  deriving DecidableEq, Repr

def Flow.idle : Flow := ⟨0, [], [], [], 0, false⟩

/-- One entry of a transmit plan (R339, R341). Times are ns of device time. -/
structure PlanEntry where
  port : RfPort
  chain : Nat                  -- chain of the port, 0 or 1
  queue : Option Nat           -- none: a pending frame
  start : Nat                  -- packet start in the queue, or address of the pending buffer
  nsa : Nat                    -- the sleepy child of a pending frame
  decoder : Nat
  cls : Nat
  length : Nat
  x : Nat                      -- T/R edge
  planned : Nat                -- planned start
  latest : Nat                 -- latest start
  deriving DecidableEq, Repr

/-- The scheduler (R324–R353). -/
structure Sch where
  v : Store Nat                -- V of domains 0 P0, 1 P1, 2 S, 3 W
  flows : Store Flow           -- domain × 64 + flow
  credit : Store Int           -- per uplink class k = 8p + c, milli-bits (R332)
  tc : Store Nat               -- policer buckets, bits (R334)
  tp : Store Nat
  plan : List PlanEntry        -- entries of committed plans not yet started
  cands : List Nat             -- air flows eligible as the plan window closed (R37), domain × 64 + flow
  pendCands : List Nat         -- sleepy children whose listen window was open as the plan window closed (R37)
  robin : Store Nat            -- round-robin position of a domain awaiting rebuild (R353)
  polOn : List Nat             -- policers enabled since the last boundary: buckets fill there (R360)
  deriving DecidableEq, Repr

/-! ### Backhaul ports and the chain bridge -/

/-- One frame in a pass-through FIFO (R453): bytes from DA on without FCS, and the residence counter at ingress. -/
structure PtFrame where
  bytes : List Byte
  stamp : Option Nat
  deriving DecidableEq, Repr

/-- What a port is sending (R457, R463). -/
inductive EthTx where
  | pause (quanta : Nat)
  | through (f : PtFrame)
  | packet (queue start seq : Nat)
  | own (bytes : List Byte)
  deriving DecidableEq, Repr

/-- One Ethernet port. -/
structure EthUnit where
  trying : Nat                 -- mode auto-detect is trying (R446): 2 10GBASE-R, 1 1000BASE-X, 0 not searching
  rxPause : Bool               -- auto-negotiation enables receive PAUSE (R462)
  fifo : List PtFrame          -- pass-through frames waiting for this port, oldest first
  ptHeld : Bool                -- the pass-through PAUSE condition of frames received here holds (R463)
  pauseNext : Option Nat       -- quanta of the PAUSE frame that waits
  own : List (List Byte)       -- Neighbour Advertisements and echo replies waiting
  naLeft : Nat                 -- unsolicited Neighbour Advertisements still to send (R449)
  echoes : Nat                 -- echo requests answered in this second
  errors : Nat × Nat           -- errored frames of the beat, or of the millisecond, and which it is (R448)
  lastPt : Bool                -- the last frame of two waiting kinds was a pass-through frame (R457)
  chosen : Option (Nat × Nat × Nat)  -- the scheduled selection that waits (R457): queue, start, RSEQ
  sending : Option EthTx
  wire : List Byte             -- the last frame put on the wire, DA to FCS
  ptpIn : Option (Nat × Nat)   -- ingress time of the last PTP event message, s and ns (R434)
  badFcs : Bool                -- that frame ended with an inverted FCS (R312)
  deriving DecidableEq, Repr

def EthUnit.idle : EthUnit := ⟨0, true, [], false, none, [], 0, 0, (0, 0), false, none, none, [], none, false⟩

/-- One bridge entry (R454). -/
structure BrEntry where
  mac : Nat
  vid : Nat
  port : Nat
  static : Bool
  moving : Bool
  moveTime : Nat
  seen : Nat                   -- device-time second of the last sighting
  deriving DecidableEq, Repr

/-- The Ethernet block (R445–R467). -/
structure Eth where
  p0 : EthUnit
  p1 : EthUnit
  bridge : Store (Option BrEntry)  -- bucket × 4 + way; unlisted: not valid
  flush : Option Nat               -- ETH_BR_CMD in progress, with its PORT
  rseq : Store Nat                 -- RSEQ of each headend (R460)
  deriving DecidableEq, Repr

/-! ### RF ports -/

/-- An ACK the device sends (R204–R206). -/
structure AckTx where
  nsa : Nat                    -- the sender of the acknowledged frame; 0xFFFFFF for a direct joiner
  chan : Nat                   -- channel index
  rate : Nat
  bytes : List Byte
  startNs : Nat                -- frame start, ns of device time
  decoder : Nat
  chain : Chain
  deriving DecidableEq, Repr

/-- What a chain's command sends: an entry of the plan, or an ACK. -/
inductive TxWhat where
  | entry (e : PlanEntry)
  | ack (a : AckTx)
  deriving DecidableEq, Repr

/-- Where a chain's command stands (R128, R131, R199–R202). -/
inductive TxPhase where
  | held          -- waits for lock, or for the end of blanking
  | cca           -- a CCA runs
  | backoff       -- waits out a drawn backoff
  | ready         -- waits for X
  | tr            -- from X to PA_EN
  | pa            -- from PA_EN to ramp-up
  | ramp          -- from ramp-up to frame start
  | frame         -- from frame start to frame end
  | down          -- from frame end, or an abort, to the end of ramp-down
  | drained       -- from ramp-down to PA_EN inactive
  | back          -- from PA_EN inactive to the return edge
  deriving DecidableEq, Repr

/-- The command a chain works on. -/
structure TxCmd where
  what : TxWhat
  phase : TxPhase
  due : Bool                   -- the instant of its first CCA, or of its sequence, has come
  cca : Bool                   -- needs CCA
  nb : Nat
  be : Nat
  bytes : List Byte            -- the MAC frame as keyed
  xNs : Option Nat             -- ns of device time at which it reached its T/R edge
  rampNs : Option Nat          -- ns of device time at which ramp-up started
  recal : Bool                 -- aborted on a lock loss: the chain recalibrates (R126)
  req : Bool                   -- its coexistence request is active
  granted : Bool               -- its grant has been sampled as given (R140, R141)
  deriving DecidableEq, Repr

/-- One transmit chain (R122–R129). RFx_TXn_STAT shows its state and channel. -/
structure TxChain where
  calibrating : Bool
  fails : Nat                  -- calibrations failed in a row
  retries : Nat                -- boundaries left at which a chain in FAULT retries (R125)
  cmd : Option TxCmd
  paEn : Bool
  paMode : Nat
  level : Nat                  -- driver level of the frame's power class
  air : List Bool              -- the symbols of the last frame keyed (R82)
  early : Option TxWhat        -- a next command whose request is active while a sequence is under way (R140)
  deriving DecidableEq, Repr

def TxChain.idle : TxChain := ⟨false, 0, 0, none, false, 0, 0, [], none⟩

/-- One accounting region's history (R144–R146). -/
structure DutyRegion where
  buckets : List Nat           -- airtime in ns, the current bucket first, at most 64
  beats : Nat                  -- beats spent in the current bucket
  warned : Bool                -- RF_DUTY_WARN raised since usage was below 80 %
  deriving DecidableEq, Repr

def DutyRegion.empty : DutyRegion := ⟨[], 0, false⟩

/-- A receive recalibration (R119–R121). -/
structure Recal where
  cause : Nat                  -- 0 start-up, 1 register, 2 unlock, 3 band plan
  running : Bool               -- step 1 has started
  deriving DecidableEq, Repr

/-- One RF port. -/
structure RfUnit where
  tx0 : TxChain
  tx1 : TxChain
  recal : Option Recal
  rxFails : Nat                -- attempts in a row that did not regain lock (R121)
  blankSince : Option Nat      -- ns of device time at which the present blanking started
  cxPri : Bool                 -- CXx_PRI
  cxHold : Bool                -- the last return edge has passed and HOLD runs
  duty : Store DutyRegion
  deriving DecidableEq, Repr

def RfUnit.idle : RfUnit := ⟨TxChain.idle, TxChain.idle, none, 0, none, false, false, []⟩

/-- Both ports (R116–R158). -/
structure Rf where
  s : RfUnit
  w : RfUnit
  deriving DecidableEq, Repr

/-! ### The receive chain -/

/-- A record of a port's announcement bus (R167). KIND 0 GAIN, 1 BLANK_START, 2 BLANK_END, 3 CLIP. -/
structure AnnRecord where
  seq : Nat
  kind : Nat
  sEff : Nat
  sClip : Nat
  step : Int                   -- 1/64 dB
  gain : Nat
  bypass : Bool                -- the step engages or releases the LNA bypass (R164)
  deriving DecidableEq, Repr

/-- One receive context, P or W (R172–R175). -/
structure RxCtx where
  phase : Nat                  -- 2 SFD search, 3 header, 4 payload
  start : Nat                  -- sample index of the frame start, once the SFD has matched
  level : Int                  -- on-level at the ball, dBm × 4
  noise : Int
  freq : Int
  comp : Int                   -- compensation, 1/64 dB (R170)
  stepped : Bool
  watch : Bool                 -- acquired by W
  captured : Bool              -- replaced another
  spans : List (Nat × Nat)     -- erased spans, tenths of a sample
  frame : Nat                  -- its frame, once the header is valid
  deriving DecidableEq, Repr

/-- One decoder channel. -/
structure Decoder where
  p : Option RxCtx
  w : Option RxCtx
  held : List AnnRecord        -- records not yet applied, oldest first, at most four (R169)
  last : Option Nat            -- SEQ of the last record taken
  opened : Option Nat          -- first blanked sample of an open interval
  spans : List (Nat × Nat)     -- erased spans a correlation window can still overlap, tenths of a sample
  falses : Nat                 -- receptions ended in FALSE statuses in this beat (R178)
  deriving DecidableEq, Repr

def Decoder.idle : Decoder := ⟨none, none, [], none, none, [], 0⟩

/-- What became of one codeword (R176, R184). -/
inductive CwResult where
  | waiting
  | ok (bits : List Bool) (iters : Nat)
  | fail
  | late
  deriving DecidableEq, Repr

/-- One codeword whose last symbol has passed. -/
structure Codeword where
  beat : Nat                   -- bound beat (R39)
  llrs : List Int              -- the LLR buffer; empty once its beat's commit window has passed (R182)
  result : CwResult
  deriving DecidableEq, Repr

/-- A frame whose header was valid (R176, R187). -/
structure RxFrame where
  id : Nat
  decoder : Nat
  rate : Nat
  length : Nat
  beacon : Bool
  start : Nat
  stop : Nat                   -- sample index of the frame end
  rssi : Int
  noise : Int
  freq : Int
  flags : Nat                  -- FLAGS of R187
  erased : Nat                 -- symbols erased, fixed at the frame end
  ended : Bool                 -- the last symbol has passed
  settled : Bool               -- its outcome is decided; its LLRs stay until the commit window (R182)
  cws : List Codeword
  deriving DecidableEq, Repr

/-- One decode request (R183, R186). -/
structure LdpcReq where
  frame : Nat
  cw : Nat
  beat : Nat
  engine : Option Nat          -- the operation of an engine's re-request
  limit : Nat
  llrs : List Int
  core : Option Nat
  deriving DecidableEq, Repr

/-- A frame's outcome on its way to the MAC unit: STATUS of R178 and the decoded bytes (R187). -/
structure RxDesc where
  frame : RxFrame
  status : Nat
  beat : Nat                   -- bound beat of its last codeword (R39)
  bits : List Bool
  deriving DecidableEq, Repr

/-- One port's AGC (R163–R168). -/
structure Agc where
  next : Option (Nat × Nat)    -- gain code announced and its S_EFF
  lastAt : Option Nat          -- sample index of the last decision
  decisions : Nat              -- gain decisions in this beat (event 33)
  clip : Option Nat            -- first sample of a clipped span whose CLIP record is due
  trimmed : Option Nat         -- SEQ of the bypass step whose reports have been used (R164)
  deriving DecidableEq, Repr

def Agc.idle : Agc := ⟨none, none, 0, none, none⟩

/-- The receive chain (R159–R198). -/
structure Rx where
  decoders : Store Decoder
  frames : List RxFrame        -- valid header, outcome open
  next : Nat                   -- number of the next frame
  reqs : List LdpcReq          -- decode requests waiting or running, in arrival order
  handoff : List RxDesc        -- descriptors the MAC unit has not taken
  agcS : Agc
  agcW : Agc
  falseLimit : Nat             -- FALSE_LIMIT in force for the beat (R193)
  deriving DecidableEq, Repr

/-! ### The MAC unit -/

/-- Where a frame stands in R211. -/
inductive MacStage where
  | ack | record | key | mic | e2e | deliver
  deriving DecidableEq, Repr

/-- One received frame in the MAC unit. -/
structure MacFrame where
  id : Nat
  rx : RxFrame
  beat : Nat
  bytes : List Byte            -- descrambled MAC frame with its FCS
  stage : MacStage
  key : List Nat               -- link key, once obtained
  body : List Byte             -- after the link check: type fields, payload and end-to-end MIC in the clear
  clear : List Byte            -- after the end-to-end check: type fields and payload
  accepted : Bool              -- delivered, a duplicate otherwise
  deriving DecidableEq, Repr

/-- A frame of the device that waits for its ACK (R209). -/
structure AckWait where
  entry : PlanEntry
  chan : Nat
  rate : Nat
  ctr : Nat
  mic2 : List Byte
  stopNs : Nat                 -- frame end, ns of device time
  deriving DecidableEq, Repr

/-- A beacon queued and not started (R226, R227). -/
structure BeaconQ where
  decoder : Nat
  nominal : Nat                -- its nominal beat
  queue : Nat
  start : Nat
  deriving DecidableEq, Repr

/-- A frame that waits out a backoff drawn for it while it stands in its queue or pending list (R202, R209). -/
structure Deferred where
  queue : Option Nat
  start : Nat
  nb : Nat
  be : Nat
  stopNs : Nat                 -- end of the backoff
  deriving DecidableEq, Repr

/-- A sleepy child's listen window (R221). -/
structure Listen where
  nsa : Nat
  openNs : Nat
  closeNs : Nat
  opened : Bool                -- its opening instant has passed
  listenMs : Nat               -- LISTEN_MS of the POLL that set the close
  decoder : Nat
  placed : List Nat            -- buffers placed in a plan in this window
  forget : Bool                -- NODE_FORGET waits for the close (R621)
  drop : List Nat              -- buffers removed at the commit window of its close (R220)
  closed : Bool                -- closed; its removals wait for the commit window
  deriving DecidableEq, Repr

/-- A join request bound to the beat (R228). -/
structure JoinReq where
  eui : Nat
  relay : Nat                  -- 0xFFFFFF for a direct join
  mesh : Bool
  origin : Nat
  stop : Nat                   -- END
  port : RfPort
  decoder : Nat
  beat : Nat
  deriving DecidableEq, Repr

/-- A join accepted (R230). -/
structure JoinDone where
  eui : Nat
  nsa : Nat
  parent : Nat
  period : Nat
  seconds : Nat                -- device-time second of the accept
  deriving DecidableEq, Repr

/-- One open entry of the MAC unit's Bridle (R233). -/
structure MacBridle where
  code : Nat
  subject : Nat
  count : Nat
  first : Nat
  firstBeat : Nat
  lastBeat : Nat
  detail : List Byte
  window : Nat
  deriving DecidableEq, Repr

/-- The MAC unit (R199–R244). -/
structure Mac where
  frames : List MacFrame       -- in order of END
  waits : List AckWait
  acks : List AckTx            -- armed, not yet on their chain
  deferred : List Deferred     -- frames waiting out a drawn backoff in their queue (R202, R209)
  listens : List Listen
  poolUsed : List Nat          -- pending buffers in use (R670)
  beacons : List BeaconQ
  joins : List JoinReq         -- requests bound to the beat, not yet taken
  admitting : List JoinReq     -- admissions in progress (R230)
  joined : List JoinDone
  admitted : Nat               -- requests admitted in this beat
  waitsSent : Nat              -- wait and refuse responses sealed in this beat (R229)
  bridle : List MacBridle      -- earliest opened first
  rejects : Nat                -- DUP and OLD drops of the beat (R215)
  ackDrops : List Nat          -- ACKs not sent in this beat, by reason of R207
  nbrArmed : Bool              -- MAC_NEIGHBOUR_FULL may be raised (R231)
  perBeat : Nat                -- PER_BEAT, WAIT_PER_BEAT, OPEN and EVT_LIMIT in force for the beat (R242, R243)
  waitPerBeat : Nat
  joinOpen : Bool
  rejectLimit : Nat
  deriving DecidableEq, Repr

/-! ### The redundant pair -/

/-- What a link frame the unit sends carries (R472). -/
inductive LinkBody where
  | tether (t : TetherIn)
  | input (kind : Nat)                 -- an entry of the record, by its KIND
  | sealRecord (count : Nat)
  | digest (streams blocks : List Nat)
  | resend (lseq : Nat)
  | diversity (rx : AirRx)
  | llr (decoder cw stopNs : Nat) (llrs : List Int)
  | bulk (item : BulkItem)
  | time
  | hello (h : Hello)
  | switch (h : Nat)
  | switchAck (h : Nat)
  | arb (v : Verdict) (score : Nat)
  | yield
  | block (table blk : Nat) (entries : List (BitVec 128))
  deriving DecidableEq, Repr

/-- A frame sent and kept for resending (R472). -/
structure LinkOut where
  lseq : Nat
  beat : Nat
  body : LinkBody
  deriving DecidableEq, Repr

/-- A beat's input record on the standby (R481, R482). -/
structure InRecord where
  beat : Nat
  entries : List RecEntry
  closed : Bool                -- its SEAL has come and its count and CRC agree
  deriving DecidableEq, Repr

/-- The digests of one beat: plan, uplink, log, and the four table blocks (R472). -/
structure DigestSet where
  beat : Nat
  streams : List Nat
  blocks : List Nat
  deriving DecidableEq, Repr

/-- An arbitration in progress (R491, R492). -/
structure Arb where
  beat : Nat
  own : Option (Verdict × Nat)         -- with the unit's score as it sent it
  partner : Option (Verdict × Nat)     -- with the partner's score
  start : Nat                          -- beat whose boundary started the re-execution
  deriving DecidableEq, Repr

/-- A planned switchover (R493). -/
structure Switch where
  h : Nat
  incoming : Bool
  acked : Bool
  sentAt : Nat                         -- beat in which SWITCH was sent
  cmd : Bool                           -- started by PAIR_CMD: the command waits for beat H
  cause : Nat                          -- 1 command, 2 arbitration, 3 health margin, 4 reclaim
  deriving DecidableEq, Repr

/-- The pair controller, self-test and health (R468–R502). -/
structure Pair where
  roleOvr : Option Bool                -- role override: some true forces A (R509)
  healthOk : Bool                      -- HEALTH_OK (R476)
  lseq : Nat                           -- LSEQ of the next frame sent
  lseqIn : Option Nat                  -- LSEQ expected next; none until a frame has come on this link
  asked : Bool                         -- a RESEND has asked for that frame (R472)
  out : List LinkOut                   -- frames of the last four beats (R472)
  tether : Option TetherIn             -- the partner's last TETHER
  quiet : Nat                          -- seconds without a TETHER (R479)
  next : Option Nat                    -- pair state staged for the boundary (R478)
  recs : List InRecord                 -- input records of beats not executed, oldest first
  lastRec : Nat                        -- last record sealed (serving) or received complete (standby)
  execd : Nat                          -- last beat whose record the standby executed
  count : Nat                          -- entries recorded in the beat (serving unit)
  countNext : Nat                      -- entries recorded and bound to the next beat
  uplink : List Byte                   -- uplink output stream of the beat (R489)
  log : List Byte                      -- store-update log of the beat
  acks : List (Nat × List Byte)        -- ACK entries of the beat, by frame start
  own : List DigestSet                 -- digests formed and not yet compared
  partner : List DigestSet
  compared : Option (DigestSet × DigestSet)
  blockMiss : List (Nat × Nat)         -- table blocks found different once (R271)
  arb : Option Arb
  outcome : Option Nat                 -- an arbitration's outcome waiting for the boundary: 1 standby yields, 2 active
                                       -- yields, 3 unresolved both inconsistent, 4 unresolved equal scores
  yields : List Nat                    -- device-time seconds of this unit's yields (R492)
  barred : Bool                        -- yielded twice within 3,600 s: stays DETACHED until RESYNC
  selfTest : Nat                       -- beats left of a full self-test set (R500)
  switch : Option Switch
  window : Nat                         -- beats left of the dual-send window (R497)
  silentTo : Nat                       -- first beat whose plan may be committed after a switchover (R496)
  takeover : Option Nat                -- k: a takeover was decided, its last sealed record (R494)
  liveAt : Option Nat                  -- first live beat L
  syncing : Bool                       -- this unit serves a bulk sync
  syncFrom : Option Nat                -- beat f from which shadowing starts (R488)
  helloed : Bool                       -- HELLO has been sent in this attempt to pair (R487)
  refused : Bool                       -- pairing was refused with this partner since the link came up
  syncAt : Option Nat                  -- beat in which SYNCING started (R488)
  retryAt : Option Nat                 -- beat at which HELLO starts again (R488)
  marginRun : Nat                      -- consecutive beats the score trailed the partner's by SWITCH_MARGIN (R499)
  holdS : Nat                          -- seconds left of the reclaim hold (R498)
  holdRuns : Bool
  faults : List (Nat × Nat)            -- rows of R501 that count for 60 s, with their device-time second
  enginesBad : List (Nat × Nat)        -- engines faulted or failing a BIST, with the second (R501)
  ldpcOut : List Nat                   -- LDPC cores out of the pool (R500)
  aesOut : List Nat                    -- AES cores out of service
  ecdsaBad : Bool                      -- the verifier failed its known-answer test
  warm : Bool                          -- junction within 10 °C of its maximum
  temp : Int                           -- junction temperature as last read, 0.25 °C
  divergences : Nat
  lastDiv : Nat
  upSeconds : Nat                      -- seconds since power-on
  lastFault : Nat                      -- last fault class, the row of R503
  timeSent : Option Nat                -- device time, ns, at which this unit's last TIME frame left (R486)
  timeIn : Option Nat                  -- device time, ns, at which the partner's last TIME frame arrived
  linkDelay : Int                      -- ns, from the last TIME exchange (R486)
  heard : List (Nat × Nat × List Byte) -- receptions held: decoder, END in ns, bits (R484), with those of the last beats
  kept : List AirRx                    -- a standby's own receptions of the last beats (R494)
  ackDrops : List (Nat × Nat)          -- shadowed beat: ACKs the active unit did not send, with reasons (R208)
  colours : List (Nat × Nat)           -- shadowed beat: colours of the packets policed, with their class (R338)
  chains : List (Nat × Nat × Nat)      -- the active unit's chains at its commit instant: chain, state, channel (R351)
  lateFrames : List (Nat × Nat × Bool) -- shadowed beat: frames whose checks were LATE: decoder, END, end-to-end (R64)
  deriving DecidableEq, Repr

/-! ### Node images and campaigns -/

/-- A BLOCK frame of a campaign in a flow queue or a pending list (R588, R593). -/
structure Flight where
  node : Nat                           -- 0xFFFFFF for a broadcast
  decoder : Nat
  block : Nat
  queue : Option Nat                   -- none: a pending buffer
  start : Nat                          -- packet start in the queue, or address of the buffer
  deriving DecidableEq, Repr

/-- What a live campaign keeps beside its record of R584. -/
structure Run where
  walk : Option Nat                    -- next record of the walk of R589
  named : List Nat                     -- nodes named by CAMPAIGN_TARGET
  removed : List Nat
  paused : Nat                         -- the phase a pause left
  rounds : Store Nat                   -- per decoder, the next block of its round
  flights : List Flight
  tries : Store Nat                    -- per node, failed manifests (R590)
  waiting : List (Nat × Nat)           -- nodes whose manifest waits out REPORT_WAIT_S, with the beat it failed in
  repairB : List (Nat × Nat)           -- decoder and block, to be broadcast again (R593)
  repairU : List (Nat × Nat)           -- node and block, to be sent by unicast
  reps : Store Nat                     -- per node, bytes of the last report's bitmap
  resend : List Nat                    -- nodes the whole image is sent to again (R592)
  lastPass : Nat                       -- beat of the last repair pass, or of the entry into REPAIR
  lastProgress : Nat                   -- beat of START or of the last CAMPAIGN_PROGRESS
  deriving DecidableEq, Repr

def Run.idle : Run := ⟨none, [], [], 0, [], [], [], [], [], [], [], [], 0, 0⟩

/-- A MISSING_BLOCKS report on its way to the campaign role (R233, R592). -/
structure CampReport where
  node : Nat
  subject : Nat
  beat : Nat
  detail : List Byte
  deriving DecidableEq, Repr

/-- The campaign role (R581–R595). -/
structure Img where
  last : Nat                           -- the campaign number assigned last
  runs : Store Run                     -- by record of the campaign table
  maps : Store (List Nat)              -- by library slot: 4 KiB units marked (R583)
  reports : List CampReport            -- reports not yet applied, in the order they passed their checks
  dropping : List Flight               -- BLOCK frames of campaigns that ended in this beat (R594)
  deriving DecidableEq, Repr

/-! ### The DRIFT save area -/

/-- What the save area holds (R528), with the trailer's configuration hash and beat B. -/
structure SaveArea where
  cfgHash : Nat
  beat : Nat
  env : Env                    -- the queues' words and pointers
  tables : Store (BitVec 128)  -- FP0–FP3
  sch : Sch
  bridle : List MacBridle
  listens : List Listen
  good : Bool                  -- its CRC-32 passes
  deriving DecidableEq, Repr

structure Drift where
  saved : Option SaveArea
  deriving DecidableEq, Repr

/-! ### The whole machine -/

/-- Every unit's own state: what no register holds. -/
structure Units where
  pins : Pins
  bt : Bt
  tk : Tk
  pwr : Pwr
  boot : Boot
  hif : Hif
  evt : Evt
  fuse : Fuse
  accel : Accel
  sec : Sec
  env : Env
  fwd : Fwd
  sch : Sch
  eth : Eth
  rf : Rf
  rx : Rx
  mac : Mac
  pair : Pair
  img : Img
  drift : Drift
  freeCount : Nat              -- the model's own counter of free values drawn (not the spec's)
  deriving DecidableEq, Repr

/-- The machine: registers, the Envelope, the units, and the queue of commands that are waiting. -/
structure State where
  regs : Store Word            -- by BAR0 offset; an unlisted register reads 0
  mem : List Host.Cell         -- the Envelope by byte address; an unlisted byte reads 0
  u : Units
  pending : List Instr         -- commands waiting, first in, first out
  deriving DecidableEq, Repr

/-- Why a command stops: no rule of the spec stops this block, so no command of the model faults. -/
inductive Fault where
  /-- Raised by nothing: kept so that the type of outcomes is inhabited; safe. -/
  | none
  deriving DecidableEq, Repr

/-- Why a command has no meaning. -/
inductive Refusal where
  /-- Raised by `exec` for a row that has no meaning yet: safe, the step does not happen. -/
  | notModelled (mnemonic : String)
  /-- Raised by the meanings for an operand no device event can carry (`Instr.wf`): safe. -/
  | illFormed
  deriving DecidableEq, Repr

/-- What a meaning answers. -/
abbrev Result := Host.Outcome State Fault Refusal

/-- The registers whose reset value is not 0 (R30, R406, R438). -/
def resetRegs : Store Word :=
  [(Reg.SEC_TAMPER_CFG, 0x0000026F), (Reg.SEC_TAMPER_DEB, 0x00000032), (Reg.TK_INCR_INT, 0x00000004)]

/-- The identity registers, fixed in the part (R2, R33). -/
def fixedReg (a : Nat) : Option Word :=
  if a = Reg.GEN_CHIP_ID then some 0x168000A1
  else if a = Reg.GEN_CAPS then some 0x04445010
  else none

def Pins.reset : Pins where
  supplies := true
  porHeld := true
  vbat := true
  vbat18 := true
  resetN := true
  perstN := false
  tamper0 := false
  tamper1 := false
  mainsRaw := false
  rcvrLow := false
  roleB := false
  memUp := false

def Bt.reset : Bt where
  beat := 0
  used := none
  sample := 0
  margin := 0
  split := none
  opensChange := false
  limitReset := false
  engines := []
  dozeReturn := none
  once := []
  timers := []
  late := []

/-- R413, R415: the nominal increment of 4.000 ns. -/
def Tk.reset : Tk where
  s := 0
  n := 0
  fr := 0
  inc := 0x0400000000
  aonS := 0
  aonFr := 0
  holdTrace := false
  step := none
  fifos := []
  lost := []
  seqs := []
  pps := false
  beatOut := false
  residence := 0
  tsiLast := []
  tod := none

def Pwr.reset : Pwr where
  slot := none
  trans := none
  staged := none
  nextLevel := none
  change := none
  lastFail := none
  locked := []
  capped := false
  mainsHoldoff := false
  lossWait := false
  exitForced := false
  latchArmed := false
  latch := none
  driftEntry := 0
  cycle := false
  hits := 0
  vid := 0
  woke := false
  driftFr := 0
  accMs := []
  dozeEng := 0
  dozeDec := 0

def Flash.reset : Flash := ⟨none, none, [], [], [], [], []⟩

def Boot.reset : Boot where
  flash := Flash.reset
  placement := []
  requestRecovery := false
  cfgHash := 0
  cfgFormat := 0
  fwFormat := (0, 0)
  fwDirFormat := (0, 0)
  networkId := 0
  syncWord := 0
  ipv6 := []
  headends := []
  statics := []
  gpio := []
  gtOwner := []
  priOwned := false
  trial := (false, false)
  running := false
  recoveryShell := false
  commissionWait := false
  migrating := false
  session := none
  activateAt := none
  activateWait := false
  checked := none
  rcvOp := none
  rcvSeen := false
  rcvError := false

def Hif.reset : Hif where
  armed := []
  doorbell := 0
  bell := .pcie
  cmds := []
  cplPhase := true
  journalNext := 1
  journalOldest := 1
  refused := 0
  done := 0
  spiErr := false
  spiOut := []
  barOut := []
  funcMask := false
  unmasked := []

def Evt.reset : Evt where
  seqs := []
  lost := []
  phase := []
  bridle := []
  cooling := []
  placed := false
  stopped := false

def Fuse.reset : Fuse := ⟨[], none⟩

def Accel.reset : Accel := ⟨[], 0, []⟩

def Sec.reset : Sec where
  slots := []
  writes := []
  cache := []
  kek := none
  integrity := none
  scrubAt := 0
  roll := none
  rollFrom := 0
  levels := []
  deb0 := false
  deb1 := false
  mon := []
  replay := []

def Env.reset : Env where
  queues := []
  pagesUsed := []
  cmd := none
  scrubAt := 0
  passCorr := 0
  passUnc := 0
  deadRecords := []
  fcHold := []

def Fwd.reset : Fwd where
  tables := []
  lfsr := []
  cmd := none
  expired := []
  swept := []
  digests := []
  resync := []
  seqs := []
  rwFails := [0, 0, 0, 0]
  dlFails := [0, 0, 0, 0, 0, 0]

def Sch.reset : Sch where
  v := []
  flows := []
  credit := []
  tc := []
  tp := []
  plan := []
  cands := []
  pendCands := []
  robin := []
  polOn := []

def Eth.reset : Eth where
  p0 := EthUnit.idle
  p1 := EthUnit.idle
  bridge := []
  flush := none
  rseq := []

def Rf.reset : Rf := ⟨RfUnit.idle, RfUnit.idle⟩

def Rx.reset : Rx := ⟨[], [], 0, [], [], Agc.idle, Agc.idle, 0⟩

def Mac.reset : Mac where
  frames := []
  waits := []
  acks := []
  deferred := []
  listens := []
  poolUsed := []
  beacons := []
  joins := []
  admitting := []
  joined := []
  admitted := 0
  waitsSent := 0
  bridle := []
  rejects := 0
  ackDrops := [0, 0, 0, 0, 0]
  nbrArmed := true
  perBeat := 0
  waitPerBeat := 0
  joinOpen := false
  rejectLimit := 0

def Pair.reset : Pair where
  roleOvr := none
  healthOk := false
  lseq := 0
  lseqIn := none
  asked := false
  out := []
  tether := none
  quiet := 0
  next := none
  recs := []
  lastRec := 0
  execd := 0
  count := 0
  countNext := 0
  uplink := []
  log := []
  acks := []
  own := []
  partner := []
  compared := none
  blockMiss := []
  arb := none
  outcome := none
  yields := []
  barred := false
  selfTest := 0
  switch := none
  window := 0
  silentTo := 0
  takeover := none
  liveAt := none
  syncing := false
  syncFrom := none
  helloed := false
  refused := false
  syncAt := none
  retryAt := none
  marginRun := 0
  holdS := 0
  holdRuns := false
  faults := []
  enginesBad := []
  ldpcOut := []
  aesOut := []
  ecdsaBad := false
  warm := false
  temp := 0
  divergences := 0
  lastDiv := 0
  upSeconds := 0
  lastFault := 0
  timeSent := none
  timeIn := none
  linkDelay := 0
  heard := []
  kept := []
  ackDrops := []
  colours := []
  chains := []
  lateFrames := []

def Img.reset : Img := ⟨0, [], [], [], []⟩

def Drift.reset : Drift where
  saved := none

def Units.reset : Units where
  pins := Pins.reset
  bt := Bt.reset
  tk := Tk.reset
  pwr := Pwr.reset
  boot := Boot.reset
  hif := Hif.reset
  evt := Evt.reset
  fuse := Fuse.reset
  accel := Accel.reset
  sec := Sec.reset
  env := Env.reset
  fwd := Fwd.reset
  sch := Sch.reset
  eth := Eth.reset
  rf := Rf.reset
  rx := Rx.reset
  mac := Mac.reset
  pair := Pair.reset
  img := Img.reset
  drift := Drift.reset
  freeCount := 0

/-- The machine right after power-on reset values are in place: COLD, rails up, the internal reset still held
(R7, R648); every register at its reset value, nothing listed in memory, no command waiting. -/
def State.reset : State where
  regs := resetRegs
  mem := []
  u := Units.reset
  pending := []

end Sys2Proof.Machine
end

