-- ==== Sys2Proof/Machine/Ops.lean ====
section
/-!
DEFINITION. Machine/Ops.lean: the named operations every meaning is written in. A meaning is an `Act`, a small program
of register, memory and unit updates; `Act.run` says what each does, and no `Act` can touch the queue of commands.
-/

namespace Sys2Proof.Machine

open Sys2Proof Sys2Proof.Reg

/-! ### Reading -/

/-- The stored value of a register; the identity registers are fixed (R2, R33). -/
def State.reg (s : State) (a : Nat) : Word :=
  match fixedReg a with
  | some w => w
  | none => s.regs.getD a 0

/-- A field of a dword, as a number. -/
def fieldOf (w : Word) (lo width : Nat) : Nat := w.toNat / 2 ^ lo % 2 ^ width

/-- A field of a register, as a number. -/
def State.fld (s : State) (f : Field) : Nat := fieldOf (s.reg f.reg) f.lo f.width

/-- A one-bit field read as a Bool. -/
def State.bit (s : State) (f : Field) : Bool := Nat.beq (s.fld f) 1

/-- A dword with one field replaced; the value keeps only the bits the field has. -/
def insertField (w : Word) (lo width v : Nat) : Word :=
  BitVec.ofNat 32 (w.toNat % 2 ^ lo + v % 2 ^ width * 2 ^ lo + w.toNat / 2 ^ (lo + width) * 2 ^ (lo + width))

/-- A byte of the Envelope; addresses are taken modulo 2³² (R598) and an unlisted byte reads 0. -/
def State.byte (s : State) (a : Nat) : Byte := Store.getD (α := Byte) s.mem (a % 2 ^ 32) 0

/-- Bytes of the Envelope from an address upward. -/
def State.bytes (s : State) (a : Nat) : Nat → List Byte
  | 0 => []
  | n + 1 => s.byte a :: s.bytes (a + 1) n

/-- The little-endian value of bytes (R5). -/
def leValue : List Byte → Nat
  | [] => 0
  | b :: bs => b.toNat + 256 * leValue bs

/-- The n little-endian bytes of a value (R5). -/
def leBytes : Nat → Nat → List Byte
  | 0, _ => []
  | n + 1, v => BitVec.ofNat 8 v :: leBytes n (v / 256)

/-- A little-endian value of n bytes in the Envelope. -/
def State.le (s : State) (a n : Nat) : Nat := leValue (s.bytes a n)

/-- The current major mode (R31). -/
def State.mode (s : State) : Mode := Mode.ofCode (s.fld GEN_MODE_MODE)

/-- The pair state (R477). -/
def State.pstate (s : State) : Nat := s.fld PAIR_STATUS_PSTATE

/-- The beat in progress is live on a unit that serves (R493, R494): a unit taking control has void beats before its first
live beat, and a unit handing control over has none any more. -/
def State.live (s : State) : Bool :=
  match s.pstate with
  | 7 => match s.u.pair.liveAt with | some l => Nat.ble l s.u.bt.beat | none => false
  | 8 => false
  | _ => true

/-- The unit shadow-executes its partner's beats in this beat (R477, R481, R488, R493, R494). -/
def State.shadows (s : State) : Bool :=
  s.bit GEN_MODE_PAIR_CFG &&
  match s.pstate with
  | 4 => match s.u.pair.syncFrom with | some f => Nat.blt f s.u.bt.beat | none => false
  | 5 => true
  | 7 => !s.live && match s.u.pair.switch, s.u.pair.takeover with
    | some w, _ => w.h == s.u.bt.beat
    | none, some k => k + 1 == s.u.bt.beat
    | none, none => false
  | 8 => match s.u.pair.switch with | some w => Nat.ble (w.h + 2) s.u.bt.beat | none => false
  | _ => false

/-- The beat work is bound to: a shadow executes each beat one beat after its partner (R481). -/
def State.workBeat (s : State) : Nat := if s.shadows then s.u.bt.beat - 1 else s.u.bt.beat

/-- The unit does the work of its mesh, on the air or in its partner's shadow (R23, R481). -/
def State.meshRuns (s : State) : Bool := (s.mode.serves && s.live) || s.shadows

/-- The unit keeps an input record of the beat for its partner (R482): a partner shadows it. -/
def State.records (s : State) : Bool :=
  match s.pstate with
  | 1 => s.u.pair.syncing && s.u.pair.syncFrom.isSome
  | 2 => true
  | 7 => s.live
  | _ => false

/-- A unit of a pair transmits only while it pulls PAIR_ALIVE (R475). -/
def State.mayTransmit (s : State) : Bool := !s.bit GEN_MODE_PAIR_CFG || s.bit PAIR_STATUS_ALIVE_DRV

/-- The beat an input that arrives now is bound to (R38, R40): past the bind line, or in an interval that belongs to no
beat, the next one. A void beat binds none (R493). -/
def State.bindBeat (s : State) : Nat :=
  if s.bit BT_STATUS_PAST_BIND || s.bit BT_STATUS_GAP || (s.pstate == 7 && !s.live) then s.u.bt.beat + 1 else s.u.bt.beat

/-- A general timer works for the owner the configuration load gave it (R642, R644). -/
def State.gtOwned (s : State) (gt owner : Nat) : Bool := s.u.boot.gtOwner.getD gt 0 == owner

/-- ns of device time at an offset from the start of the beat (R34). -/
def State.atNs (s : State) (off : Nat) : Nat := s.u.bt.beat * 1000000 + off

/-- Drop the first element that satisfies p. -/
def dropFirst {α : Type} (p : α → Bool) : List α → List α
  | [] => []
  | a :: l => if p a then l else a :: dropFirst p l

/-- A list in the order of a key, equal keys in the order they came in. -/
def sortOn {α : Type} (key : α → Nat) (l : List α) : List α :=
  l.foldl (fun acc a => (acc.filter fun b => Nat.ble (key b) (key a)) ++ [a] ++ acc.filter fun b => Nat.blt (key a) (key b)) []

/-! ### Writing -/

/-- Store a register value; the identity registers cannot change, and a value of 0 lists nothing. -/
def State.setReg (s : State) (a : Nat) (w : Word) : State :=
  match fixedReg a with
  | some _ => s
  | none => { s with regs := s.regs.setD a 0 w }

/-- Store a byte of the Envelope. -/
def State.setByte (s : State) (a : Nat) (b : Byte) : State :=
  { s with mem := Store.setD (α := Byte) s.mem (a % 2 ^ 32) 0 b }

/-- A small program over the machine. -/
inductive Act where
  /-- Nothing. -/
  | nop
  /-- One after the other. -/
  | seq (a b : Act)
  /-- Look at the machine as it stands and go on. -/
  | read (k : State → Act)
  /-- Store a register. -/
  | reg (a : Nat) (w : Word)
  /-- Return to 0 every register that `keep` does not name. -/
  | clear (keep : Nat → Bool)
  /-- Store a byte of the Envelope. -/
  | mem (a : Nat) (b : Byte)
  /-- Zero a span of the Envelope. -/
  | zero (base len : Nat)
  /-- Update the units. -/
  | units (f : Units → Units)

namespace Act

/-- What a program does to the machine. -/
def run : Act → State → State
  | .nop, s => s
  | .seq a b, s => b.run (a.run s)
  | .read k, s => (k s).run s
  | .reg a w, s => s.setReg a w
  | .clear keep, s => { s with regs := s.regs.filter fun e => keep e.1 }
  | .mem a b, s => s.setByte a b
  | .zero base len, s => { s with mem := s.mem.filter fun e => !(base ≤ e.1 && e.1 < base + len) }
  | .units f, s => { s with u := f s.u }

/-- Programs in a row. -/
def all : List Act → Act
  | [] => .nop
  | a :: as => .seq a (all as)

/-- A program run only where a condition holds. -/
def when (c : Bool) (a : Act) : Act := if c then a else .nop

/-- One program per element, in order. -/
def each {α : Type} (l : List α) (f : α → Act) : Act := all (l.map f)

/-- Store a field of a register. -/
def setF (f : Field) (v : Nat) : Act :=
  .read fun s => .reg f.reg (insertField (s.reg f.reg) f.lo f.width v)

/-- Store a one-bit field. -/
def setB (f : Field) (b : Bool) : Act := setF f (if b then 1 else 0)

/-- Store bytes of the Envelope from an address upward. -/
def memBytes : Nat → List Byte → Act
  | _, [] => .nop
  | a, b :: bs => .seq (.mem a b) (memBytes (a + 1) bs)

/-- Count up on a counter that wraps at 32 bits. -/
def wrapBy (a n : Nat) : Act := .read fun s => .reg a (s.reg a + BitVec.ofNat 32 n)

/-- Count one on a counter that wraps at 32 bits. -/
def wrap (a : Nat) : Act := wrapBy a 1

/-- Count up on a counter that saturates at 32 bits. -/
def satBy (a n : Nat) : Act :=
  .read fun s => .reg a (BitVec.ofNat 32 (min ((s.reg a).toNat + n) 0xFFFFFFFF))

/-- Count one on a counter that saturates at 32 bits. -/
def sat (a : Nat) : Act := satBy a 1

/-- A fresh free value: the counter moves on and the word drawn is open. -/
def free (k : BitVec 32 → Act) : Act :=
  .read fun s => .seq (.units fun u => { u with freeCount := u.freeCount + 1 }) (k (Config.freeWord s.u.freeCount))

/-- Updates of single units. -/
def pins (f : Pins → Pins) : Act := .units fun u => { u with pins := f u.pins }
def bt (f : Bt → Bt) : Act := .units fun u => { u with bt := f u.bt }
def tk (f : Tk → Tk) : Act := .units fun u => { u with tk := f u.tk }
def pwr (f : Pwr → Pwr) : Act := .units fun u => { u with pwr := f u.pwr }
def boot (f : Boot → Boot) : Act := .units fun u => { u with boot := f u.boot }
def hif (f : Hif → Hif) : Act := .units fun u => { u with hif := f u.hif }
def evt (f : Evt → Evt) : Act := .units fun u => { u with evt := f u.evt }
def fuse (f : Fuse → Fuse) : Act := .units fun u => { u with fuse := f u.fuse }
def accel (f : Accel → Accel) : Act := .units fun u => { u with accel := f u.accel }
def env (f : Env → Env) : Act := .units fun u => { u with env := f u.env }
def fwd (f : Fwd → Fwd) : Act := .units fun u => { u with fwd := f u.fwd }
def sch (f : Sch → Sch) : Act := .units fun u => { u with sch := f u.sch }
def eth (f : Eth → Eth) : Act := .units fun u => { u with eth := f u.eth }
def rf (f : Rf → Rf) : Act := .units fun u => { u with rf := f u.rf }
def rx (f : Rx → Rx) : Act := .units fun u => { u with rx := f u.rx }
def mac (f : Mac → Mac) : Act := .units fun u => { u with mac := f u.mac }
def sec (f : Sec → Sec) : Act := .units fun u => { u with sec := f u.sec }
def pair (f : Pair → Pair) : Act := .units fun u => { u with pair := f u.pair }
def img (f : Img → Img) : Act := .units fun u => { u with img := f u.img }
def drift (f : Drift → Drift) : Act := .units fun u => { u with drift := f u.drift }

/-! ### The record, the digests and the health of a pair (R482, R489, R501) -/

/-- A link frame leaves (R471, R472): it takes the next LSEQ and is kept for resending. -/
def linkSend (b : LinkBody) : Act := .read fun s =>
  when (s.bit PAIR_STATUS_LINK_UP)
    (pair fun p => { p with
      out := p.out ++ [⟨p.lseq, s.u.bt.beat, b⟩]
      lseq := (p.lseq + 1) % 2 ^ 32 })

/-- The record holds an input by its KIND (R482): receptions, datagrams, timers and swept keys under the beat they are bound to,
the others under the beat in progress. -/
def recordInput (kind : Nat) : Act := .read fun s =>
  let ahead := (kind == 1 || kind == 2 || kind == 3 || kind == 5 || kind == 9) && !(s.bindBeat == s.u.bt.beat)
  when s.records
    (.seq (linkSend (.input kind)) (pair fun p => if ahead then { p with countNext := p.countNext + 1 }
      else { p with count := p.count + 1 }))

/-- Bytes enter the store-update log of the beat (R489). -/
def logUpdate (bs : List Byte) : Act := .read fun s =>
  when (s.bit GEN_MODE_PAIR_CFG) (pair fun p => { p with log := p.log ++ bs })

/-- Bytes enter the uplink output stream of the beat (R489). -/
def logUplink (bs : List Byte) : Act := .read fun s =>
  when (s.bit GEN_MODE_PAIR_CFG) (pair fun p => { p with uplink := p.uplink ++ bs })

/-- The last fault class the health record shows, a row of R503 (R502). -/
def faultClass (n : Nat) : Act := pair fun p => { p with lastFault := n }

/-- A fault that counts for 60 s under a row of R501, and its class in R503. -/
def healthFault (row cls : Nat) : Act := .read fun s =>
  pair fun p => { p with faults := p.faults ++ [(row, s.u.tk.s)], lastFault := cls }

end Act

/-- A meaning: the program runs, and the machine goes on. -/
def State.act (s : State) (a : Act) : Result := .next (a.run s)

/-- A meaning of a command whose operands no event can carry is refused by name. -/
def State.actIf (s : State) (ok : Bool) (a : Act) : Result :=
  if ok then s.act a else .refused .illFormed

end Sys2Proof.Machine
end

