-- ==== Sys2Proof/Machine/Events.lean ====
section
/-!
DEFINITION. Machine/Events.lean: raising an event (R626–R630): the four rings in the Envelope, the event Bridle,
MSI-X requests, and the status bits of EVT_STATUS.
-/

namespace Sys2Proof.Machine

open Sys2Proof Sys2Proof.Reg

/-- The sources whose EVT_BRIDLE bit is ignored (R628). -/
def bridleExempt (src : Nat) : Bool := src == 46 || src == 71 || src == 72

/-- The sources whose EVT_DISABLE bit is ignored (R630). -/
def disableExempt (src : Nat) : Bool := src == 71 || src == 72

/-- Pad or cut bytes to a length. -/
def padTo (n : Nat) (l : List Byte) : List Byte := (l ++ List.replicate n 0).take n

/-- The beat and device time an entry carries (R626): 0 where the sequencer or the time is stopped. -/
def State.eventStamp (s : State) : Nat × Nat × Nat :=
  (if s.bit BT_STATUS_RUNNING then s.u.bt.beat % 2 ^ 32 else 0,
   if s.bit TK_STATUS_RUNNING then s.u.tk.s % 2 ^ 32 else 0,
   if s.bit TK_STATUS_RUNNING then s.u.tk.n else 0)

/-- Entries of ring r not yet consumed. -/
def State.ringUsed (s : State) (r : Nat) : Nat :=
  (s.fld ⟨EVT_RINGr_PROD r, 0, 13⟩ + 8192 - s.fld (EVT_RINGr_CONS_CONS r)) % 8192

namespace Act

/-- The EVT_STATUS bits follow the rings and the Bridle (R636). -/
def evtStatus : Act := .read fun s =>
  let pend := (List.range 4).foldl (fun acc r => if s.ringUsed r = 0 then acc else acc + 2 ^ r) 0
  all [setF EVT_STATUS_PENDING pend,
    setB EVT_STATUS_BRIDLE_FULL (Nat.ble 64 s.u.evt.bridle.length),
    setF EVT_STATUS_BRIDLE_OPEN s.u.evt.bridle.length]

/-- One MSI-X message on a vector, its moderation starting (R629). -/
def msixSend (v : Nat) : Act := .read fun s =>
  all [wrap EVT_MSIX_SENT,
    when (Nat.blt 0 (s.fld EVT_CFG_MOD_US)) (evt fun e => { e with cooling := e.cooling ++ [(v, false)] })]

/-- A request on vector v: masked sources request nothing, a vector in moderation waits, a masked vector pends (R629). -/
def msixRequest (v : Nat) : Act := .read fun s =>
  if s.bit (EVT_MASK_n v) || !s.bit HIF_STATUS_MSIX_EN then .nop
  else if s.u.evt.cooling.any fun c => c.1 == v then
    evt fun e => { e with cooling := e.cooling.map fun c => if c.1 == v then (v, true) else c }
  else if s.u.hif.funcMask || !s.u.hif.unmasked.contains v then setF (MSIX_PENDING v) 1
  else msixSend v

/-- One 32-byte entry of ring r at PROD (R626): FLAGS get the PHASE of the pass, SEQ counts on. -/
def ringEntry (r src flags count beat ts tn : Nat) (detail : List Byte) : Act := .read fun s =>
  let prod := s.fld ⟨EVT_RINGr_PROD r, 0, 13⟩
  let phase := if s.u.evt.phase.getD r false then 0 else 1
  let seqNo := s.u.evt.seqs.getD r 0
  let head := if src / 128 = 0
    then leBytes 2 count ++ leBytes 4 seqNo ++ leBytes 4 beat ++ leBytes 4 ts ++ leBytes 4 tn ++ padTo 12 detail
    else leBytes 2 0 ++ leBytes 4 seqNo ++ padTo 24 detail
  let wraps := Nat.beq prod 8191
  let nextPhase := if wraps then 1 - phase else phase
  all [memBytes ((s.reg (EVT_RINGr_BASE r)).toNat + 32 * prod) (leBytes 1 src ++ leBytes 1 (flags + phase) ++ head),
    setF ⟨EVT_RINGr_PROD r, 0, 13⟩ (prod + 1),
    setF ⟨EVT_RINGr_PROD r, 13, 1⟩ nextPhase,
    evt fun e => { e with
      seqs := e.seqs.setD r 0 ((seqNo + 1) % 2 ^ 32)
      phase := e.phase.setD r false (nextPhase == 0) },
    wrap EVT_RAISED]

/-- An entry and its continuation, or neither where the ring has no room (R626, R627). `overflow` raises the overflow. -/
def ringWrite (overflow : Nat → Act) (src flags count beat ts tn : Nat) (record : List Byte) : Act := .read fun s =>
  let r := s.fld (EVT_ROUTE_n src)
  let need := if 12 < record.length then 2 else 1
  if s.ringUsed r + need ≤ 8191 then
    let lostFlag := if s.u.evt.lost.getD r false then 8 else 0
    all [evt fun e => { e with lost := e.lost.setD r false false },
      ringEntry r src (flags + lostFlag) count beat ts tn (record.take 12),
      when (Nat.blt 12 record.length) (ringEntry r (src + 128) 0 0 0 0 0 (record.drop 12)),
      msixRequest src]
  else
    all [satBy (EVT_LOSTr r) need,
      evt fun e => { e with lost := e.lost.setD r false true },
      overflow r]

/-- The window of an open Bridle entry ends: its repeats are written as one entry (R628). -/
def bridleClose (overflow : Nat → Act) (i : Nat) (early : Bool) : Act := .read fun s =>
  match s.u.evt.bridle[i]? with
  | none => .nop
  | some b =>
    all [evt fun e => { e with bridle := e.bridle.eraseIdx i },
      when early (sat EVT_BRIDLE_EARLY),
      when (Nat.blt 0 b.repeats && !s.u.evt.stopped)
        (ringWrite overflow b.src (if early then 6 else 2) (min b.repeats 65535) b.beat b.time.1 b.time.2 b.record)]

/-- One occurrence of source `src` with its record (R626–R630). Until the rings have their place, in COLD and in DRIFT
there is nothing to write it to (log 54). -/
def occurrence (overflow : Nat → Act) (src : Nat) (record : List Byte) : Act := .read fun s =>
  let (beat, ts, tn) := s.eventStamp
  let key := padTo 4 record
  if !s.u.evt.placed || (!(src == 0) && (decide (s.mode = .cold) || decide (s.mode = .drift))) || s.u.evt.stopped || (s.bit (EVT_DISABLE_n src) && !disableExempt src) then .nop
  else if s.bit (EVT_BRIDLE_n src) && !bridleExempt src then
    if s.u.evt.bridle.any fun b => b.src == src && b.key == key then
      all [evt fun e => { e with bridle := e.bridle.map fun b =>
          if b.src == src && b.key == key then
            { b with repeats := b.repeats + 1, record := record, beat := beat, time := (ts, tn) }
          else b },
        wrap EVT_COALESCED]
    else
      all [when (Nat.ble 64 s.u.evt.bridle.length) (bridleClose overflow 0 true),
        evt fun e => { e with bridle := e.bridle ++
          [{ src, key, window := max 1 (s.fld EVT_CFG_BRIDLE_MS), repeats := 0, record, beat, time := (ts, tn) }] },
        ringWrite overflow src 0 1 beat ts tn record]
  else ringWrite overflow src 0 1 beat ts tn record

/-- Raise an event; a full ring raises EVT_RING_OVERFLOW at most once per beat for each ring, its own entry under the
same rule (R627), so that at most four overflows nest. -/
def raiseFuel : Nat → Nat → List Byte → Act
  | 0, _, _ => .nop
  | k + 1, src, record =>
    occurrence (fun r => .read fun s =>
      when (!s.u.bt.once.contains (124, r))
        (all [bt fun b => { b with once := (124, r) :: b.once },
          .read fun t => raiseFuel k 124 (leBytes 1 r ++ leBytes 4 (t.reg (EVT_LOSTr r)).toNat)])) src record

/-- Raise event `src` with its record, and let EVT_STATUS follow. -/
def raise (src : Nat) (record : List Byte) : Act := .seq (raiseFuel 5 src record) evtStatus

/-- Raise an event at most once per beat for a key; while the sequencer is stopped, once per millisecond (R448). -/
def raiseOnce (src key : Nat) (record : List Byte) : Act := .read fun s =>
  let k := if s.bit BT_STATUS_RUNNING then key else key + 2 ^ 32 * (s.u.tk.s * 1000 + s.u.tk.n / 1000000 + 1)
  when (!s.u.bt.once.contains (src, k))
    (all [bt fun b => { b with once := (src, k) :: b.once }, raise src record])

end Act

end Sys2Proof.Machine
end

