-- ==== Sys2Proof/Machine/Directory.lean ====
section
/-!
DEFINITION. Machine/Directory.lean: the Node Directory in the Envelope (R245–R250): where a record stands, when it is
valid, and the whole-record update of R249.
-/

namespace Sys2Proof.Machine

open Sys2Proof Sys2Proof.Reg

/-- The System region's base (R292). -/
def State.systemBase (s : State) : Nat := s.fld ⟨ENV_REGr_BASE 5, 0, 12⟩ * 2 ^ 20

/-- A field of a record: byte offset and width (R248). -/
structure RecField where
  off : Nat
  len : Nat
  deriving DecidableEq, Repr

namespace Node

def NSA : RecField := ⟨0, 3⟩
def STATE : RecField := ⟨3, 1⟩
def EUI64 : RecField := ⟨4, 8⟩
def PARENT : RecField := ⟨12, 3⟩
def DEPTH : RecField := ⟨15, 1⟩
def FW_VERSION : RecField := ⟨16, 4⟩
def NODE_CLASS : RecField := ⟨20, 1⟩
def MISS_COUNT : RecField := ⟨21, 1⟩
def POLL_PERIOD_S : RecField := ⟨22, 2⟩
def LINK_EPOCH : RecField := ⟨24, 2⟩
def E2E_EPOCH : RecField := ⟨26, 2⟩
def LINK_CTR : RecField := ⟨28, 4⟩
def LINK_DIGEST : RecField := ⟨32, 4⟩
def E2E_HIGH : RecField := ⟨36, 4⟩
def E2E_MAP : RecField := ⟨40, 8⟩
def TX_LINK_CTR : RecField := ⟨48, 4⟩
def TX_E2E_CTR : RecField := ⟨52, 4⟩
def ANCHOR_S : RecField := ⟨56, 4⟩
def ANCHOR_NS : RecField := ⟨60, 4⟩
def PEND_COUNT : RecField := ⟨64, 1⟩
def PREF_BAND : RecField := ⟨65, 1⟩
def UL_CLASS : RecField := ⟨66, 1⟩
def LAST_DECODER : RecField := ⟨67, 1⟩
def PEND_HEAD : RecField := ⟨68, 4⟩
def LAST_BEAT : RecField := ⟨72, 4⟩
def LAST_RSSI : RecField := ⟨76, 2⟩
def JOIN_TIME_S : RecField := ⟨80, 6⟩
def C_ALL : RecField := ⟨128, 64⟩
def CAMPAIGN : RecField := ⟨128, 2⟩
def C_STATE : RecField := ⟨130, 1⟩
def C_REASON : RecField := ⟨131, 1⟩
def C_PATH : RecField := ⟨132, 1⟩
def C_REPAIRS : RecField := ⟨133, 1⟩
def C_HASH_FAILS : RecField := ⟨134, 1⟩
def C_NEXT : RecField := ⟨136, 2⟩
def C_MISSING : RecField := ⟨138, 2⟩
def C_REPORT_BEAT : RecField := ⟨140, 4⟩
def C_BASE : RecField := ⟨144, 2⟩
def C_BITMAP : RecField := ⟨146, 21⟩
def UPDATE_BEAT : RecField := ⟨248, 4⟩
def CHECK : RecField := ⟨252, 4⟩

end Node

/-- The Directory's base address (R245, R282). -/
def State.dirBase (s : State) : Nat := s.fld ⟨FWD_DIR_BASE, 0, 12⟩ * 2 ^ 20

/-- The address of a node's record (R245). -/
def State.recAddr (s : State) (nsa : Nat) : Nat := s.dirBase + 256 * (nsa % 2 ^ 20)

/-- Neighbours that are equal, once. -/
def onceEach : List Nat → List Nat
  | a :: b :: l => if a = b then onceEach (b :: l) else a :: onceEach (b :: l)
  | l => l

/-- The blocks of `size` bytes from `base` upward, the first `count` of them, that hold a byte other than 0, rising. -/
def State.blocksUsed (s : State) (base size count : Nat) : List Nat :=
  onceEach (s.mem.filterMap fun c =>
    if base ≤ c.1 ∧ c.1 < base + size * count then some ((c.1 - base) / size) else none)

/-- The numbers of the Directory's records that are not all zeros; the others are FREE. -/
def State.dirNumbers (s : State) : List Nat := s.blocksUsed s.dirBase 256 (2 ^ 20)

/-- A field of the record numbered by an NSA. -/
def State.node (s : State) (nsa : Nat) (f : RecField) : Nat := s.le (s.recAddr nsa + f.off) f.len

/-- STATE bits [2:0]: 0 FREE, 1 JOINING, 2 ACTIVE, 3 SILENT, 4 LOST. -/
def State.recState (s : State) (nsa : Nat) : Nat := s.node nsa Node.STATE % 8

/-- A flag of STATE: 3 SLEEPY, 4 LOW_BATTERY, 5 LINK_SEEN, 6 E2E_SEEN. -/
def State.recFlag (s : State) (nsa i : Nat) : Bool := Nat.testBit (s.node nsa Node.STATE) i

/-- The record is valid for the NSA (R246); not one an uncorrectable error was read in, until it is cleared (R290). -/
def State.recValid (s : State) (nsa : Nat) : Bool :=
  s.node nsa Node.NSA == nsa && !(s.recState nsa == 0) && Nat.blt 0 nsa &&
  !s.u.env.deadRecords.contains (nsa % 2 ^ 20)

/-- The highest numbered record of the Directory. -/
def maxRecord : Nat := 2 ^ 20

/-- Set or clear a STATE flag within an operation's field list. -/
def stateWith (v i : Nat) (on : Bool) : Nat :=
  if Nat.testBit v i = on then v else if on then v + 2 ^ i else v - 2 ^ i

/-! ### The campaign table (R584) -/

namespace Camp

def NUMBER : RecField := ⟨0, 2⟩
def STATE : RecField := ⟨2, 1⟩
def SLOT : RecField := ⟨3, 1⟩
def ROUND : RecField := ⟨4, 1⟩
def FLAGS : RecField := ⟨5, 1⟩
def BLOCKS_TOTAL : RecField := ⟨6, 2⟩
def START_BEAT : RecField := ⟨8, 4⟩
def END_BEAT : RecField := ⟨12, 4⟩
def DEADLINE_S : RecField := ⟨16, 4⟩
def TARGETS : RecField := ⟨20, 4⟩
def ENROLLED : RecField := ⟨24, 4⟩
def COMPLETE : RecField := ⟨28, 4⟩
def VERIFIED : RecField := ⟨32, 4⟩
def FAILED : RecField := ⟨36, 4⟩
def EXCLUDED : RecField := ⟨40, 4⟩
def SKIPPED : RecField := ⟨44, 4⟩
def BCAST_SENT : RecField := ⟨48, 4⟩
def UCAST_SENT : RecField := ⟨52, 4⟩
def REPORTS : RecField := ⟨56, 4⟩
def STALE_REPORTS : RecField := ⟨60, 4⟩
def ROUNDS : RecField := ⟨64, 1⟩
def QUEUED : RecField := ⟨65, 1⟩
def REBCAST_MIN : RecField := ⟨66, 2⟩
def REPAIR_MAX : RecField := ⟨68, 1⟩
def SLEEPY_MAX : RecField := ⟨69, 1⟩
def REPORT_WAIT_S : RecField := ⟨72, 4⟩
def PROGRESS_S : RecField := ⟨76, 4⟩

end Camp

/-- The campaign table's address (R669). -/
def State.campTable (s : State) : Nat := s.systemBase + 0x121000

/-- A field of campaign record r. -/
def State.camp (s : State) (r : Nat) (f : RecField) : Nat := s.le (s.campTable + 128 * r + f.off) f.len

/-- The record that holds a campaign number. -/
def State.campOf (s : State) (n : Nat) : Option Nat :=
  if n = 0 then none else (List.range 16).find? fun r => s.camp r Camp.NUMBER == n

/-- A record in use whose campaign has not ended. -/
def State.campLive (s : State) (r : Nat) : Bool :=
  !(s.camp r Camp.NUMBER == 0) && Nat.ble (s.camp r Camp.STATE) 4

/-- A node of a campaign that is TARGET, RECEIVING or COMPLETE. -/
def campOpen (st : Nat) : Bool := Nat.ble 1 st && Nat.ble st 3

namespace Act

/-- A demand read of the Envelope meets an uncorrectable error (R290, R291). -/
def demandFail (a : Nat) : Act := .read fun s =>
  all [sat ENV_ECC_UNC, raise 56 (leBytes 4 a), healthFault 6 2, recordInput 0x0A,
    when (Nat.ble s.dirBase a && Nat.blt a (s.dirBase + 2 ^ 28))
      (env fun e => { e with deadRecords := e.deadRecords ++ [(a - s.dirBase) / 256] })]

/-- Bytes stored in a region that is shadowed but in no Directory record (R489). -/
def regionWrite (a : Nat) (bs : List Byte) : Act :=
  .seq (memBytes a bs) (logUpdate ([0x16] ++ leBytes 4 a ++ leBytes 4 bs.length ++ leBytes 4 (crc32 bs).toNat))

/-- Store a field of a campaign record. -/
def campPut (r : Nat) (f : RecField) (v : Nat) : Act := .read fun s =>
  regionWrite (s.campTable + 128 * r + f.off) (leBytes f.len v)

/-- Count on a saturating counter of a campaign record. -/
def campCount (r : Nat) (f : RecField) (n : Nat := 1) : Act := .read fun s =>
  when (Nat.blt 0 n) (campPut r f (min (s.camp r f + n) 0xFFFFFFFF))

/-- A record is freed while its node is still under way in a live campaign: it counts as FAILED, reason LEFT (R594). -/
def campLeft (nsa : Nat) : Act := .read fun s =>
  match s.campOf (s.node nsa Node.CAMPAIGN) with
  | none => .nop
  | some r => when (s.campLive r && campOpen (s.node nsa Node.C_STATE)) (campCount r Camp.FAILED)

/-- Store one field of a record; `recUpdate` closes the operation. -/
def recPut (nsa : Nat) (f : RecField) (v : Nat) : Act := .read fun s =>
  memBytes (s.recAddr nsa + f.off) (leBytes f.len v)

/-- The close of a whole-record operation: UPDATE_BEAT and CHECK (R248, R249). -/
def recClose (nsa : Nat) : Act :=
  all [.read fun s => recPut nsa Node.UPDATE_BEAT (s.workBeat % 2 ^ 32),
    .read fun s => recPut nsa Node.CHECK (crc32 (s.bytes (s.recAddr nsa) 252)).toNat,
    .read fun s => logUpdate ([0x11] ++ leBytes 3 (nsa % 2 ^ 20) ++ leBytes 4 (s.node nsa Node.CHECK))]

/-- One operation on a record that must still be valid for its NSA; `missing` where it is not (R249). -/
def recUpdate (nsa : Nat) (fields : List (RecField × Nat)) (missing : Act := .nop) : Act := .read fun s =>
  if s.recValid nsa then .seq (each fields fun p => recPut nsa p.1 p.2) (recClose nsa) else missing

/-- The record of a number becomes FREE: all zeros (R247, R250, R290). -/
def recFree (nsa : Nat) : Act := .seq (campLeft nsa) <| .read fun s =>
  .seq (.zero (s.recAddr nsa) 256) (logUpdate ([0x11] ++ leBytes 3 (nsa % 2 ^ 20) ++ leBytes 4 0))

/-- A record is created under its number by the routing role (R247): every field given, the rest 0. -/
def recCreate (nsa : Nat) (fields : List (RecField × Nat)) : Act :=
  .seq (.read fun s => .zero (s.recAddr nsa) 256) (.seq (each fields fun p => recPut nsa p.1 p.2) (recClose nsa))

/-! ### Direct neighbours (R231, R238) -/

/-- JOIN_OPEN and NBR_FULL follow MAC_JOIN.OPEN and the count. -/
def joinFollow : Act := .read fun s =>
  let full := Nat.ble 65536 (s.reg MAC_NBR).toNat
  .seq (setB MAC_STATUS_JOIN_OPEN (s.bit MAC_JOIN_OPEN && !full)) (setB MAC_STATUS_NBR_FULL full)

/-- The count takes a new value; MAC_NEIGHBOUR_FULL at 65,536, armed again below 65,280. -/
def nbrSet (n : Nat) : Act := .read fun s =>
  all [.reg MAC_NBR (BitVec.ofNat 32 n), joinFollow,
    when (Nat.ble 65536 n && s.u.mac.nbrArmed) (.seq (mac fun m => { m with nbrArmed := false }) (raise 45 (leBytes 4 n))),
    when (Nat.blt n 65280) (mac fun m => { m with nbrArmed := true })]

end Act

/-- Record number n holds a direct neighbour: in use, its parent the router. -/
def State.isNbr (s : State) (n : Nat) : Bool :=
  !(s.recState n == 0) && !(s.node n Node.NSA == 0) && s.node n Node.PARENT == 0

/-- A change to record number n, with the count of direct neighbours following it. -/
def Act.nbrTrack (n : Nat) (a : Act) : Act := .read fun s =>
  .seq a (.read fun t =>
    let before := if s.isNbr n then 1 else 0
    let after := if t.isNbr n then 1 else 0
    Act.when (!(before == after)) (Act.nbrSet ((t.reg MAC_NBR).toNat + after - before)))

end Sys2Proof.Machine
end

