-- ==== Sys2Proof/Machine/Campaign.lean ====
section
/-!
DEFINITION. Machine/Campaign.lean: a campaign's record and its nodes (R584–R594): counting, a frame of it delivered or
given up, and its end.
-/

namespace Sys2Proof.Machine

open Sys2Proof Sys2Proof.Reg

/-! ### The image library (R581, R582) -/

/-- Slots of the library. -/
def State.libSlots (s : State) : Nat := s.fld ⟨ENV_REGr_SIZE 2, 0, 13⟩ / 8

/-- The address of a library slot. -/
def State.libSlot (s : State) (i : Nat) : Nat := s.fld ⟨ENV_REGr_BASE 2, 0, 12⟩ * 2 ^ 20 + i * 2 ^ 23

namespace Lib

def STATE : RecField := ⟨0, 1⟩
def NODE_CLASS : RecField := ⟨1, 1⟩
def BLOCK_SIZE : RecField := ⟨2, 2⟩
def LENGTH : RecField := ⟨4, 4⟩
def FW_VERSION : RecField := ⟨8, 4⟩
def USERS : RecField := ⟨44, 2⟩

end Lib

/-- A field of a slot's header. -/
def State.lib (s : State) (i : Nat) (f : RecField) : Nat := s.le (s.libSlot i + f.off) f.len

/-- The blocks of a campaign on a slot (R582). -/
def State.libBlocks (s : State) (i : Nat) : Nat :=
  let b := s.lib i Lib.BLOCK_SIZE
  1 + (s.lib i Lib.LENGTH + b - 1) / b

/-- The nodes a campaign holds in the states `ok` names, in record order. -/
def State.campNodes (s : State) (r : Nat) (ok : Nat → Bool) : List Nat :=
  s.dirNumbers.filter fun n =>
    s.recValid n && s.node n Node.CAMPAIGN == s.camp r Camp.NUMBER && ok (s.node n Node.C_STATE)

/-- What a live campaign keeps beside its record. -/
def State.run (s : State) (r : Nat) : Run := s.u.img.runs.getD r Run.idle

/-- Whole seconds from a beat to the present one. -/
def State.secondsSince (s : State) (beat : Nat) : Nat := (s.workBeat - beat) / 1000

namespace Act

def runSet (r : Nat) (f : Run → Run) : Act :=
  img fun i => { i with runs := i.runs.setD r Run.idle (f (i.runs.getD r Run.idle)) }

/-- Store a field of a slot's header. -/
def libPut (i : Nat) (f : RecField) (v : Nat) : Act := .read fun s =>
  regionWrite (s.libSlot i + f.off) (leBytes f.len v)

/-- A node's state in its campaign changes, with the reason of a FAILED one (R586). -/
def campNode (n st reason : Nat) : Act := recUpdate n [(Node.C_STATE, st), (Node.C_REASON, reason)]

/-- A node ends FAILED (R586). -/
def campFail (r n reason : Nat) : Act := .seq (campNode n 5 reason) (campCount r Camp.FAILED)

/-- A campaign ends (R594): its unsent BLOCK frames are dropped at the commit window. -/
def campEnd (r st : Nat) : Act := .read fun s =>
  let slot := s.camp r Camp.SLOT
  all [campPut r Camp.STATE st,
    campPut r Camp.END_BEAT (s.workBeat % 2 ^ 32),
    libPut slot Lib.USERS (s.lib slot Lib.USERS - 1),
    img fun i => { i with
      dropping := i.dropping ++ (s.run r).flights
      runs := i.runs.setD r Run.idle Run.idle },
    raise 126 (leBytes 2 (s.camp r Camp.NUMBER) ++ leBytes 1 st)]

/-- DONE: no node is under way any more (R594). -/
def campFinish (r : Nat) : Act := .read fun s =>
  when (s.campLive r && Nat.ble 2 (s.camp r Camp.STATE) && (s.run r).walk.isNone && (s.campNodes r campOpen).isEmpty)
    (campEnd r 5)

end Act

/-- The campaign and the flight a frame of a queue or a pending list belongs to. -/
def State.flightOf (s : State) (q : Option Nat) (start : Nat) : Option (Nat × Flight) :=
  s.u.img.runs.findSome? fun e =>
    (e.2.flights.find? fun f => f.queue == q && f.start == start).map fun f => (e.1, f)

namespace Act

/-- A BLOCK frame ended: its ACK was accepted, or its retries ran out (R588, R590). -/
def campDone (q : Option Nat) (start : Nat) (acked : Bool) : Act := .read fun s =>
  match s.flightOf q start with
  | none => .nop
  | some (r, f) => .seq (runSet r fun x => { x with flights := x.flights.erase f })
    (if acked then
      when (f.block == 0 && s.node f.node Node.C_STATE == 1)
        (.seq (recUpdate f.node [(Node.C_STATE, 2), (Node.C_NEXT, 1)]) (campCount r Camp.ENROLLED))
    else if f.block = 0 then
      let n := (s.run r).tries.getD f.node 0 + 1
      .seq (runSet r fun x => { x with
          tries := x.tries.setD f.node 0 n
          waiting := if n < 3 then x.waiting ++ [(f.node, s.workBeat)] else x.waiting })
        (when (Nat.ble 3 n && s.node f.node Node.C_STATE == 1) (campFail r f.node 1))
    else runSet r fun x => { x with repairU := x.repairU ++ [(f.node, f.block)] })

end Act

end Sys2Proof.Machine
end

