-- ==== Sys2Proof/Machine/Modes.lean ====
section
/-!
DEFINITION. Machine/Modes.lean: changing the major mode (R24, R25, R510–R513), stopping the sequencer (R43) and the
effect of a reset (R7, R26, R28).
-/

namespace Sys2Proof.Machine

open Sys2Proof Sys2Proof.Reg

/-- Engine n (R44). -/
def State.engine (s : State) (n : Nat) : Engine := s.u.bt.engines.getD n Engine.idle

/-- Device time in whole milliseconds (R34). -/
def Tk.ms (t : Tk) : Nat := t.s * 1000 + t.n / 1000000

/-- The first whole millisecond after device time as it stands (R43). -/
def Tk.nextMs (t : Tk) : Nat := if t.n % 1000000 = 0 ∧ t.fr = 0 then t.ms else t.ms + 1

/-- Device time set to a whole millisecond. -/
def Tk.atMs (t : Tk) (m : Nat) : Tk := { t with s := m / 1000 % 2 ^ 48, n := m % 1000 * 1000000, fr := 0 }

/-- The level a mode applies (R513); none where the engines have no power. -/
def State.modeLevel (s : State) : Mode → Option Nat
  | .rom | .recovery => some 2
  | .doze => some (s.fld PWR_CFG_DOZE_LEVEL)
  | .cold | .drift | .hold => none
  | _ => some (s.fld PWR_CFG_SERVE_LEVEL)

/-- The thermal cap holds a level lower (R513, R518). -/
def State.capLevel (s : State) (l : Nat) : Nat :=
  if s.u.pwr.capped then min l (s.fld PWR_THERM_CAP_LEVEL) else l

/-- The DOZE profile in force (R520) keeps decoder n. -/
def State.decoderKept (s : State) (n : Nat) : Bool := !decide (s.mode = .doze) || Nat.testBit s.u.pwr.dozeDec n

/-- It keeps a transmit chain, by its number within the device. -/
def State.chainKept (s : State) (n : Nat) : Bool := !decide (s.mode = .doze) || Nat.testBit s.u.pwr.dozeEng (24 + n)

/-- LDPC cores in the pool. -/
def State.ldpcCores (s : State) : Nat := if s.mode = .doze then fieldOf (BitVec.ofNat 32 s.u.pwr.dozeEng) 16 4 else 8

/-- AES cores in service. -/
def State.aesCores (s : State) : Nat := if s.mode = .doze then fieldOf (BitVec.ofNat 32 s.u.pwr.dozeEng) 20 4 else 8

/-- The modes in which the command ring is served (R615). -/
def State.ringServed (s : State) : Mode → Bool
  | .recovery => s.u.boot.recoveryShell
  | .commission | .solo | .active | .standby | .takeover | .reclaim | .doze => true
  | _ => false

namespace Act

/-- One engine's record updated. -/
def engine (n : Nat) (f : Engine → Engine) : Act :=
  bt fun b => { b with engines := b.engines.setD n Engine.idle (f (b.engines.getD n Engine.idle)) }

/-- A level change starts (R514): the beat carries the reduced budget, and the new level's budget is in force. -/
def startLevel (new src : Nat) : Act := .read fun s =>
  let old := s.fld PWR_STATUS_LEVEL
  when (!(Nat.beq old new))
    (all [pwr fun p => { p with change := some ⟨old, new, src, false, false⟩, vid := new },
      setB PWR_STATUS_CHANGING true,
      setF BT_STATUS_LEVEL new,
      bt fun b => { b with opensChange := true }])

/-- The mode's level from R513: a change at the boundary while the engines run, at once otherwise. -/
def applyModeLevel (m : Mode) : Act := .read fun s =>
  match s.modeLevel m with
  | none => all [setF PWR_STATUS_LEVEL 0, setB PWR_STATUS_CHANGING false, pwr fun p => { p with change := none }]
  | some l =>
    if s.bit BT_STATUS_RUNNING && m.runs then startLevel (s.capLevel l) 0
    else all [setF PWR_STATUS_LEVEL (s.capLevel l), setF BT_STATUS_LEVEL (s.capLevel l)]

/-- The sequencer stops (R43): RUNNING reads 0 and no window is open; the counters hold. -/
def stopSequencer : Act := all [setF BT_STATUS_RUNNING 0, setF BT_STATUS_WINDOW 0, setF BT_STATUS_PAST_BIND 0,
  setF BT_STATUS_GAP 0, tk fun t => { t with beatOut := false }]

/-- The sequencer starts (R43): the first beat is the one that begins at the first whole millisecond after. -/
def startSequencer : Act := all [setB BT_STATUS_RUNNING true, setF BT_STATUS_WINDOW 0, setF BT_STATUS_GAP 0]

/-- MODE takes a new value (R31, R32, R511): PREV, CHANGING, GEN_MODE_CHANGES, the mode's level, the sequencer, the
ring, and MODE_CHANGED with old mode, new mode, trigger and first beat. `row` is the transition's row in R510. -/
def enterMode (m : Mode) (row : Nat) : Act := .read fun s =>
  let old := s.mode
  let first := if m.runs then (if s.bit BT_STATUS_RUNNING then s.u.bt.beat else s.u.tk.nextMs) else 0
  when (!(decide (old = m)))
    (all [setF GEN_MODE_PREV old.code, setF GEN_MODE_MODE m.code, setB GEN_MODE_CHANGING false,
      wrap GEN_MODE_CHANGES,
      pwr fun p => { p with locked := [], lastFail := none },
      applyModeLevel m,
      when (!m.runs) stopSequencer,
      when (m.runs && !s.bit BT_STATUS_RUNNING) startSequencer,
      setB HIF_STATUS_RING_RUN (s.ringServed m),
      when (!m.runs) (tk fun t => { t with pps := false }),
      raise 0 (leBytes 1 old.code ++ leBytes 1 m.code ++ [Config.triggerCode row] ++ leBytes 4 first)])

end Act

/-- The state a reset leaves of a flash, fuse, AON or board fact, and the reset value of everything else (R7, R26). -/
def Units.afterReset (u : Units) : Units :=
  { Units.reset with
    pins := u.pins
    tk := { Tk.reset with aonS := u.tk.aonS, aonFr := u.tk.aonFr }
    pwr := { Pwr.reset with latch := u.pwr.latch, driftFr := u.pwr.driftFr }
    drift := u.drift
    sec := { Sec.reset with deb0 := u.sec.deb0, deb1 := u.sec.deb1, mon := u.sec.mon }
    fuse := { u.fuse with job := none }
    boot := { Boot.reset with
      flash := u.boot.flash, placement := u.boot.placement, requestRecovery := u.boot.requestRecovery }
    freeCount := u.freeCount }

namespace Act

/-- Every register returns to its reset value but the AON ones (R7). -/
def resetRegisters : Act := .seq (.clear Reg.isAon) (.reg TK_INCR_INT 4)

/-- Everything a reset clears is cleared; the fuses, the flash, the AON domain and the Envelope keep theirs (R26, R28). -/
def resetDevice : Act := .seq resetRegisters (.units Units.afterReset)

/-- VBAT_AON newly applied: the AON fields, the AON count and the AON latches return to their reset values (R7, R417). -/
def resetAon : Act :=
  all [.clear fun a => !Reg.isAon a, .reg SEC_TAMPER_CFG 0x26F, .reg SEC_TAMPER_DEB 0x32,
    .units fun u => { u with
      tk := { u.tk with aonS := 0, aonFr := 0 }
      pwr := { u.pwr with latch := none }
      boot := { u.boot with requestRecovery := false } }]

/-- The TIME domain starts (R418): device time from the AON count, INC nominal, FREE, untraceable, armed. -/
def seedTime : Act := .read fun s =>
  all [tk fun t => { t with
      s := t.aonS, n := t.aonFr * 1000000000 / 32768, fr := 0, inc := 0x0400000000, holdTrace := false, step := none },
    setB TK_STATUS_RUNNING true, setF TK_STATUS_STATE 0, setF TK_STATUS_TRACE 0, setB TK_STATUS_ARMED true,
    setB TK_STATUS_SEEDED (Nat.blt 0 s.u.tk.aonS)]

end Act

end Sys2Proof.Machine
end

