-- ==== Sys2Proof/Machine/Accel.lean ====
section
/-!
DEFINITION. Machine/Accel.lean: operations and tags (R49–R54): issuing an operation, its completion entry, and the
register that shows an engine's tags, ring and threads (R72).
-/

namespace Sys2Proof.Machine

open Sys2Proof Sys2Proof.Reg

/-! ### Completion statuses (R53) -/

def cplOk : Nat := 0
def cplLate : Nat := 1
def cplError : Nat := 2
def cplInvalidKey : Nat := 3
def cplNoSpace : Nat := 4
def cplNotFound : Nat := 5

/-- The tag of R50: engine number in bits [9:6], slot in bits [5:0]. -/
def tagOf (pe slot : Nat) : Nat := 64 * pe + slot

/-- Slots 0–47 in rising order. -/
def tagSlots : List Nat := List.range 48

/-- The slot an issue takes: the lowest free one (log 8); none with all 48 in use (R51). -/
def Engine.freeSlot (e : Engine) : Option Nat := tagSlots.find? fun k => !e.slots.contains k

/-- An engine that can issue: powered, neither faulted nor under logic BIST (R47, R48, R520). -/
def State.canIssue (s : State) (pe : Nat) : Bool :=
  let e := s.engine pe
  s.bit BT_STATUS_RUNNING && !s.bit PWR_STATUS_CHANGING && !e.bist && !e.gated && e.restoreIn.isNone &&
  !(s.fld (BT_ROLE_n pe) == 0)

/-- A byte of an engine's data SRAM (R44). -/
def State.sram (s : State) (pe a : Nat) : Byte := s.u.accel.sram.getD (pe * 2 ^ 18 + a % 2 ^ 18) 0

/-- Bytes of an engine's data SRAM from an address upward. -/
def State.sramBytes (s : State) (pe a : Nat) : Nat → List Byte
  | 0 => []
  | n + 1 => s.sram pe a :: s.sramBytes pe (a + 1) n

/-- Bytes stored in a data SRAM from an address upward. -/
def sramPut (pe : Nat) : Nat → List Byte → Store Byte → Store Byte
  | _, [], m => m
  | a, b :: bs, m => sramPut pe (a + 1) bs (m.setD (pe * 2 ^ 18 + a % 2 ^ 18) 0 b)

namespace Act

/-- Store bytes in an engine's data SRAM. -/
def sram (pe a : Nat) (bs : List Byte) : Act := accel fun x => { x with sram := sramPut pe a bs x.sram }

/-- BT_PEn_STAT follows the engine (R72). -/
def engineStat (pe : Nat) : Act := .read fun s =>
  let e := s.engine pe
  let busy := fun t => (s.u.accel.ops.any fun o => o.pe == pe && o.thread == t) || e.stalled.contains t
  all [setF (BT_PEn_STAT_TAGS pe) e.slots.length,
    setF (BT_PEn_STAT_RING pe) e.ring.length,
    setF (BT_PEn_STAT_BUSY_THREADS pe)
      ((List.range 4).foldl (fun n t => if busy t then n + 2 ^ t else n) 0)]

/-- A completion entry enters the issuing engine's ring, or waits for the end of a level change (R53, R57). -/
def completion (pe : Nat) (c : Completion) : Act := .read fun s =>
  .seq (engine pe fun e =>
    if s.bit PWR_STATUS_CHANGING then { e with held := e.held ++ [c] } else { e with ring := e.ring ++ [c] })
    (engineStat pe)

/-- The completions that waited for a level change are written to their rings (R57). -/
def releaseHeld : Act := each (List.range 16) fun pe =>
  .seq (engine pe fun e => { e with ring := e.ring ++ e.held, held := [] }) (engineStat pe)

/-- Issue an operation (R51): it takes a tag and joins its accelerator's queue, or the thread waits for a tag. -/
def issueWith (pe thread : Nat) (k : Nat → Act) : Act := .read fun s =>
  when (s.canIssue pe)
    (match (s.engine pe).freeSlot with
    | none => all [engine pe fun e => { e with
          stalled := if e.stalled.contains thread then e.stalled else e.stalled ++ [thread] },
        when (!(s.engine pe).stalled.contains thread) (wrap (BT_PEn_TAGSTALL pe)),
        engineStat pe]
    | some slot => all [engine pe fun e => { e with
          slots := e.slots ++ [slot], stalled := e.stalled.filter fun t => !(t == thread) },
        k slot,
        engineStat pe])

/-- Issue an operation that its accelerator finishes later. -/
def issue (pe thread cls : Nat) (w : OpWork) : Act :=
  issueWith pe thread fun slot => .read fun s =>
    accel fun x => { x with
      ops := x.ops ++ [⟨x.next, pe, thread, slot, cls, s.workBeat, w, none⟩]
      next := x.next + 1 }

/-- Issue an operation whose accelerator carries it out in this step: `k` does it and names its completion. -/
def issueNow (pe thread cls : Nat) (k : (Nat → Nat → Nat → Act) → Act) : Act :=
  issueWith pe thread fun slot => k fun status flags result => .read fun s =>
    completion pe ⟨tagOf pe slot, thread, cls, status, flags, s.workBeat % 65536, result⟩

/-- An outstanding operation ends with a completion entry; its core is free again. -/
def finish (o : Op) (status flags result : Nat) : Act :=
  .seq (accel fun x => { x with ops := x.ops.filter fun p => !(p.id == o.id) })
    (completion o.pe ⟨tagOf o.pe o.slot, o.thread, o.cls, status, flags, o.beat % 65536, result⟩)

end Act

/-- The outstanding operation of an engine's tag slot. -/
def State.opAt (s : State) (pe slot : Nat) : Option Op :=
  s.u.accel.ops.find? fun o => o.pe == pe && o.slot == slot

end Sys2Proof.Machine
end

