-- ==== Sys2Proof/Machine/Crypto.lean ====
section
/-!
DEFINITION. Machine/Crypto.lean: the ciphers R363–R366 name, as their standards define them (PRESUMED, log 21: the spec
cites FIPS 197, FIPS 180-4, FIPS 186-4, SP 800-38B, SP 800-38C, SP 800-108 and RFC 3394 and does not repeat them).
Bytes are numbers below 256 here.
-/

namespace Sys2Proof.Machine.Crypto

open Sys2Proof

/-! ### AES (FIPS 197) -/

def sbox : List Nat :=
  [99, 124, 119, 123, 242, 107, 111, 197, 48, 1, 103, 43, 254, 215, 171, 118] ++
  [202, 130, 201, 125, 250, 89, 71, 240, 173, 212, 162, 175, 156, 164, 114, 192] ++
  [183, 253, 147, 38, 54, 63, 247, 204, 52, 165, 229, 241, 113, 216, 49, 21] ++
  [4, 199, 35, 195, 24, 150, 5, 154, 7, 18, 128, 226, 235, 39, 178, 117] ++
  [9, 131, 44, 26, 27, 110, 90, 160, 82, 59, 214, 179, 41, 227, 47, 132] ++
  [83, 209, 0, 237, 32, 252, 177, 91, 106, 203, 190, 57, 74, 76, 88, 207] ++
  [208, 239, 170, 251, 67, 77, 51, 133, 69, 249, 2, 127, 80, 60, 159, 168] ++
  [81, 163, 64, 143, 146, 157, 56, 245, 188, 182, 218, 33, 16, 255, 243, 210] ++
  [205, 12, 19, 236, 95, 151, 68, 23, 196, 167, 126, 61, 100, 93, 25, 115] ++
  [96, 129, 79, 220, 34, 42, 144, 136, 70, 238, 184, 20, 222, 94, 11, 219] ++
  [224, 50, 58, 10, 73, 6, 36, 92, 194, 211, 172, 98, 145, 149, 228, 121] ++
  [231, 200, 55, 109, 141, 213, 78, 169, 108, 86, 244, 234, 101, 122, 174, 8] ++
  [186, 120, 37, 46, 28, 166, 180, 198, 232, 221, 116, 31, 75, 189, 139, 138] ++
  [112, 62, 181, 102, 72, 3, 246, 14, 97, 53, 87, 185, 134, 193, 29, 158] ++
  [225, 248, 152, 17, 105, 217, 142, 148, 155, 30, 135, 233, 206, 85, 40, 223] ++
  [140, 161, 137, 13, 191, 230, 66, 104, 65, 153, 45, 15, 176, 84, 187, 22]

def subByte (b : Nat) : Nat := sbox.getD b 0

def invSubByte (b : Nat) : Nat := sbox.findIdx fun x => x == b

def xtime (b : Nat) : Nat := if b < 128 then 2 * b else (2 * b) ^^^ 0x11B

/-- Product in GF(2⁸), the second factor below 16. -/
def gmul (a n : Nat) : Nat :=
  let a2 := xtime a
  let a4 := xtime a2
  let a8 := xtime a4
  (if n % 2 = 1 then a else 0) ^^^ (if n / 2 % 2 = 1 then a2 else 0) ^^^
    (if n / 4 % 2 = 1 then a4 else 0) ^^^ (if n / 8 % 2 = 1 then a8 else 0)

def xorBytes (a b : List Nat) : List Nat := List.zipWith (fun x y => x ^^^ y) a b

/-- The round constant of step n, 1 upward. -/
def rcon : Nat → Nat
  | 0 => 0
  | 1 => 1
  | n + 1 => xtime (rcon n)

/-- Key expansion: `fuel` more words after those in `ws`. -/
def expand (nk : Nat) : Nat → List (List Nat) → List (List Nat)
  | 0, ws => ws
  | fuel + 1, ws =>
    let i := ws.length
    let t := ws.getD (i - 1) []
    let t := if i % nk = 0 then
        xorBytes ((t.drop 1 ++ t.take 1).map subByte) [rcon (i / nk), 0, 0, 0]
      else if 6 < nk ∧ i % nk = 4 then t.map subByte
      else t
    expand nk fuel (ws ++ [xorBytes (ws.getD (i - nk) []) t])

def chunk (n : Nat) : Nat → List Nat → List (List Nat)
  | 0, _ => []
  | k + 1, l => l.take n :: chunk n k (l.drop n)

/-- The round keys, 16 bytes each, of a 16- or 32-byte key. -/
def roundKeys (key : List Nat) : List (List Nat) :=
  let nk := key.length / 4
  let ws := expand nk (4 * (nk + 7) - nk) (chunk 4 nk key)
  (List.range (nk + 7)).map fun r => ((ws.drop (4 * r)).take 4).flatten

def at16 (s : List Nat) (f : Nat → Nat → Nat) : List Nat :=
  (List.range 16).map fun i => s.getD (f (i % 4) (i / 4)) 0

def shiftRows (s : List Nat) : List Nat := at16 s fun r c => r + 4 * ((c + r) % 4)
def invShiftRows (s : List Nat) : List Nat := at16 s fun r c => r + 4 * ((c + 4 - r) % 4)

def mixWith (m : List Nat) (s : List Nat) : List Nat :=
  (List.range 16).map fun i =>
    (List.range 4).foldl (fun acc k => acc ^^^ gmul (s.getD (i / 4 * 4 + k) 0) (m.getD ((k + 4 - i % 4) % 4) 0)) 0

def mixColumns (s : List Nat) : List Nat := mixWith [2, 3, 1, 1] s
def invMixColumns (s : List Nat) : List Nat := mixWith [14, 11, 13, 9] s

/-- AES encryption of one block. -/
def aes (key blk : List Nat) : List Nat :=
  match roundKeys key with
  | [] => blk
  | k0 :: ks =>
    let mid := ks.dropLast.foldl (fun s k => xorBytes (mixColumns (shiftRows (s.map subByte))) k) (xorBytes blk k0)
    xorBytes (shiftRows (mid.map subByte)) (ks.getLastD [])

/-- AES decryption of one block. -/
def aesInv (key blk : List Nat) : List Nat :=
  match (roundKeys key).reverse with
  | [] => blk
  | k0 :: ks =>
    let mid := ks.dropLast.foldl
      (fun s k => invMixColumns (xorBytes ((invShiftRows s).map invSubByte) k)) (xorBytes blk k0)
    xorBytes ((invShiftRows mid).map invSubByte) (ks.getLastD [])

/-! ### Big-endian numbers -/

def beNat (l : List Nat) : Nat := l.foldl (fun n b => 256 * n + b) 0

def beBytes (n v : Nat) : List Nat := (List.range n).map fun i => v / 256 ^ (n - 1 - i) % 256

def zeros (n : Nat) : List Nat := List.replicate n 0

/-- Blocks of 16 bytes, the last one padded with zeros. -/
def blocks (l : List Nat) : List (List Nat) :=
  (chunk 16 ((l.length + 15) / 16) l).map fun b => b ++ zeros (16 - b.length)

/-! ### CMAC (SP 800-38B) and the KDF of R366 -/

def dbl (b : List Nat) : List Nat :=
  let v := beNat b
  let d := 2 * v % 2 ^ 128
  beBytes 16 (if v / 2 ^ 127 = 1 then d ^^^ 0x87 else d)

def cbcMac (key : List Nat) (iv : List Nat) (bs : List (List Nat)) : List Nat :=
  bs.foldl (fun c b => aes key (xorBytes c b)) iv

def cmac (key msg : List Nat) : List Nat :=
  let k1 := dbl (aes key (zeros 16))
  let n := (msg.length + 15) / 16
  let head := chunk 16 (n - 1) msg
  let tail := msg.drop (16 * (n - 1))
  let last := if tail.length = 16 then xorBytes tail k1
    else xorBytes (tail ++ [0x80] ++ zeros (15 - tail.length)) (dbl k1)
  aes key (xorBytes (cbcMac key (zeros 16) head) last)

/-- The counter-mode derivation of R366 for 128 or 256 bits. -/
def kdf (parent label : List Nat) (len256 : Bool) : List Nat :=
  if len256 then cmac parent ([1] ++ label ++ [1, 0]) ++ cmac parent ([2] ++ label ++ [1, 0])
  else cmac parent ([1] ++ label ++ [0, 0x80])

/-! ### CCM (SP 800-38C) with a 13-byte nonce (R388) -/

def ctrBlock (key nonce : List Nat) (i : Nat) : List Nat := aes key ([1] ++ nonce ++ beBytes 2 i)

def ccmXor (key nonce msg : List Nat) : List Nat :=
  ((chunk 16 ((msg.length + 15) / 16) msg).zipIdx.map fun p =>
    xorBytes p.1 (ctrBlock key nonce (p.2 + 1))).flatten

/-- The MIC of `m` bytes over associated data and message. -/
def ccmMic (key nonce aad msg : List Nat) (m : Nat) : List Nat :=
  let flags := (if aad.isEmpty then 0 else 64) + 8 * ((m - 2) / 2) + 1
  let b0 := [flags] ++ nonce ++ beBytes 2 msg.length
  let ab := if aad.isEmpty then [] else blocks (beBytes 2 aad.length ++ aad)
  let t := cbcMac key (zeros 16) (b0 :: ab ++ blocks msg)
  (xorBytes t (ctrBlock key nonce 0)).take m

/-- Seal: the encrypted message and its MIC; with `enc` false the message is authenticated only (R104). -/
def ccmSeal (key nonce aad msg : List Nat) (m : Nat) (enc : Bool) : List Nat × List Nat :=
  if enc then (ccmXor key nonce msg, ccmMic key nonce aad msg m)
  else (msg, ccmMic key nonce (aad ++ msg) [] m)

/-- Open: the message where the MIC verifies. -/
def ccmOpen (key nonce aad msg mic : List Nat) (enc : Bool) : Option (List Nat) :=
  let p := if enc then ccmXor key nonce msg else msg
  let t := if enc then ccmMic key nonce aad p mic.length else ccmMic key nonce (aad ++ p) [] mic.length
  if t = mic then some p else none

/-! ### AES key wrap (RFC 3394) -/

def kwStep (key : List Nat) (a : List Nat) (r : List Nat) (t : Nat) : List Nat × List Nat :=
  let b := aes key (a ++ r)
  (beBytes 8 (beNat (b.take 8) ^^^ t), b.drop 8)

def kwInvStep (key : List Nat) (a : List Nat) (r : List Nat) (t : Nat) : List Nat × List Nat :=
  let b := aesInv key (beBytes 8 (beNat a ^^^ t) ++ r)
  (b.take 8, b.drop 8)

/-- Wrap a key of n 8-byte blocks under a wrapping key. -/
def kwWrap (kek key : List Nat) : List Nat :=
  let n := key.length / 8
  let (a, rs) := (List.range (6 * n)).foldl (fun (p : List Nat × List (List Nat)) t =>
    let (a, r) := kwStep kek p.1 (p.2.getD (t % n) []) (t + 1)
    (a, p.2.set (t % n) r)) (List.replicate 8 0xA6, chunk 8 n key)
  a ++ rs.flatten

/-- Unwrap; none where the integrity check fails. -/
def kwUnwrap (kek blob : List Nat) : Option (List Nat) :=
  let n := blob.length / 8 - 1
  let (a, rs) := (List.range (6 * n)).reverse.foldl (fun (p : List Nat × List (List Nat)) t =>
    let (a, r) := kwInvStep kek p.1 (p.2.getD (t % n) []) (t + 1)
    (a, p.2.set (t % n) r)) (blob.take 8, chunk 8 n (blob.drop 8))
  if a = List.replicate 8 0xA6 then some rs.flatten else none

/-! ### SHA-256 (FIPS 180-4) -/

def shaK : List Nat :=
  [0x428a2f98, 0x71374491, 0xb5c0fbcf, 0xe9b5dba5, 0x3956c25b, 0x59f111f1, 0x923f82a4, 0xab1c5ed5] ++
  [0xd807aa98, 0x12835b01, 0x243185be, 0x550c7dc3, 0x72be5d74, 0x80deb1fe, 0x9bdc06a7, 0xc19bf174] ++
  [0xe49b69c1, 0xefbe4786, 0xfc19dc6, 0x240ca1cc, 0x2de92c6f, 0x4a7484aa, 0x5cb0a9dc, 0x76f988da] ++
  [0x983e5152, 0xa831c66d, 0xb00327c8, 0xbf597fc7, 0xc6e00bf3, 0xd5a79147, 0x6ca6351, 0x14292967] ++
  [0x27b70a85, 0x2e1b2138, 0x4d2c6dfc, 0x53380d13, 0x650a7354, 0x766a0abb, 0x81c2c92e, 0x92722c85] ++
  [0xa2bfe8a1, 0xa81a664b, 0xc24b8b70, 0xc76c51a3, 0xd192e819, 0xd6990624, 0xf40e3585, 0x106aa070] ++
  [0x19a4c116, 0x1e376c08, 0x2748774c, 0x34b0bcb5, 0x391c0cb3, 0x4ed8aa4a, 0x5b9cca4f, 0x682e6ff3] ++
  [0x748f82ee, 0x78a5636f, 0x84c87814, 0x8cc70208, 0x90befffa, 0xa4506ceb, 0xbef9a3f7, 0xc67178f2]

def shaInit : List Nat := [0x6a09e667, 0xbb67ae85, 0x3c6ef372, 0xa54ff53a, 0x510e527f, 0x9b05688c, 0x1f83d9ab, 0x5be0cd19]

def m32 (n : Nat) : Nat := n % 2 ^ 32
def rotr (x n : Nat) : Nat := x / 2 ^ n + x % 2 ^ n * 2 ^ (32 - n)

def shaSchedule : Nat → List Nat → List Nat
  | 0, w => w
  | fuel + 1, w =>
    let i := w.length
    let g := fun k => w.getD (i - k) 0
    let s0 := rotr (g 15) 7 ^^^ rotr (g 15) 18 ^^^ (g 15 / 8)
    let s1 := rotr (g 2) 17 ^^^ rotr (g 2) 19 ^^^ (g 2 / 1024)
    shaSchedule fuel (w ++ [m32 (g 16 + s0 + g 7 + s1)])

/-- One round over the eight working words. -/
def shaRound (st : List Nat) (kw : Nat) : List Nat :=
  match st with
  | [a, b, c, d, e, f, g, h] =>
    let s1 := rotr e 6 ^^^ rotr e 11 ^^^ rotr e 25
    let ch := (e &&& f) ^^^ ((0xFFFFFFFF ^^^ e) &&& g)
    let t1 := h + s1 + ch + kw
    let s0 := rotr a 2 ^^^ rotr a 13 ^^^ rotr a 22
    let mj := (a &&& b) ^^^ (a &&& c) ^^^ (b &&& c)
    [m32 (t1 + s0 + mj), a, b, c, m32 (d + t1), e, f, g]
  | l => l

/-- One 64-byte block into the hash state. -/
def shaBlock (st : List Nat) (blk : List Nat) : List Nat :=
  let w := shaSchedule 48 ((chunk 4 16 blk).map beNat)
  List.zipWith (fun x y => m32 (x + y)) st ((List.zipWith (fun k x => k + x) shaK w).foldl shaRound st)

def sha256 (msg : List Nat) : List Nat :=
  let padded := msg ++ [0x80] ++ zeros ((119 - msg.length % 64) % 64) ++ beBytes 8 (8 * msg.length)
  ((chunk 64 (padded.length / 64) padded).foldl shaBlock shaInit).flatMap (beBytes 4)

/-! ### ECDSA P-256 (FIPS 186-4) -/

def p256 : Nat := 0xffffffff00000001000000000000000000000000ffffffffffffffffffffffff
def n256 : Nat := 0xffffffff00000000ffffffffffffffffbce6faada7179e84f3b9cac2fc632551
def b256 : Nat := 0x5ac635d8aa3a93e7b3ebbd55769886bc651d06b0cc53b0f63bce3c3e27d2604b
def g256 : Nat × Nat := (0x6b17d1f2e12c4247f8bce6e563a440f277037d812deb33a0f4a13945d898c296,
  0x4fe342e2fe1a7f9b8ee7eb4a7c0f9e162bce33576b315ececbb6406837bf51f5)

/-- a ^ e modulo m by squaring, over 256 bits of e. -/
def powMod (m a e : Nat) : Nat → Nat
  | 0 => 1
  | k + 1 => let r := powMod m a e k; let q := r * r % m; if e / 2 ^ (255 - k) % 2 = 1 then q * a % m else q

def invMod (m a : Nat) : Nat := powMod m (a % m) (m - 2) 256

/-- Point addition; none is the point at infinity. -/
def ecAdd : Option (Nat × Nat) → Option (Nat × Nat) → Option (Nat × Nat)
  | none, q => q
  | p, none => p
  | some (x1, y1), some (x2, y2) =>
    if x1 = x2 ∧ (y1 + y2) % p256 = 0 then none
    else
      let l := if x1 = x2 then (3 * x1 * x1 + p256 - 3) % p256 * invMod p256 (2 * y1) % p256
        else (y2 + p256 - y1) % p256 * invMod p256 (x2 + p256 - x1) % p256
      let x3 := (l * l + 2 * p256 - x1 - x2) % p256
      some (x3, (l * (x1 + p256 - x3) + p256 - y1) % p256)

def ecMul (k : Nat) (q : Nat × Nat) : Nat → Option (Nat × Nat)
  | 0 => none
  | i + 1 =>
    let r := ecMul k q i
    let d := ecAdd r r
    if k / 2 ^ (255 - i) % 2 = 1 then ecAdd d (some q) else d

/-- Whether (r, s) signs hash e under public key q. -/
def ecdsaVerify (q : Nat × Nat) (e r s : Nat) : Bool :=
  if r = 0 ∨ n256 ≤ r ∨ s = 0 ∨ n256 ≤ s ∨ p256 ≤ q.1 ∨ p256 ≤ q.2 ∨
    (q.2 * q.2) % p256 ≠ (q.1 * q.1 * q.1 + (p256 - 3) * q.1 + b256) % p256 then false
  else
    let w := invMod n256 s
    match ecAdd (ecMul (e * w % n256) g256 256) (ecMul (r * w % n256) q 256) with
    | none => false
    | some (x, _) => Nat.beq (x % n256) r

/-! ### CRC-16 of the fuse fields (R402) -/

def crc16Bit (r : Nat) : Nat := if 0x8000 ≤ r then (2 * r % 0x10000) ^^^ 0x1021 else 2 * r

def crc16 (bs : List Nat) : Nat :=
  bs.foldl (fun r b => (List.range 8).foldl (fun x _ => crc16Bit x) (r ^^^ (b * 256))) 0xFFFF

end Sys2Proof.Machine.Crypto
end

