-- ==== Sys2Proof/Machine/Frame.lean ====
section
/-!
DEFINITION. Machine/Frame.lean: the MAC frame of R100–R112 as bytes: its parts and where they stand, the checks a
receiver makes before any key is used, the two nonces of R388 and the two seals of R105; and airtime (R77, R98).
-/

namespace Sys2Proof.Machine

open Sys2Proof

/-- `n` bytes at an offset, little-endian (R100). -/
def leAt (f : List Byte) (off n : Nat) : Nat := leValue ((f.drop off).take n)

/-- Bytes of a list with a span replaced. -/
def patch (f : List Byte) (off : Nat) (bs : List Byte) : List Byte :=
  f.take off ++ bs ++ f.drop (off + bs.length)

/-- Bytes of an address mode (R101, R102). -/
def modeBytes : Nat → Nat
  | 1 => 3
  | 2 => 8
  | _ => 0

/-- MIC bytes of a LEVEL (R104); 0 for a reserved one. -/
def micLen : Nat → Nat
  | 1 => 4
  | 2 => 8
  | 3 => 16
  | 5 => 4
  | 6 => 8
  | 7 => 16
  | _ => 0

/-- A LEVEL with encryption (R104). -/
def levelEnc (l : Nat) : Bool := Nat.ble 5 l

/-- Levels in the order of R104: encryption above authentication only, then MIC length. -/
def levelAtLeast (l m : Nat) : Bool := micLen l != 0 && Nat.ble m l

/-- The parts of a MAC frame and where they stand (R101–R106). -/
structure MacParts where
  typ : Nat
  sec : Bool
  pend : Bool
  ar : Bool
  mesh : Bool
  e2e : Bool
  dstMode : Nat
  srcMode : Nat
  ver : Nat
  netId : Nat
  dst : Nat
  src : Nat
  linkAt : Nat
  level : Nat
  epoch : Nat
  ctr : Nat
  meshAt : Nat
  routeLen : Nat
  routeIdx : Nat
  origin : Nat
  final : Nat
  e2eAt : Nat
  e2eLevel : Nat
  e2eEpoch : Nat
  e2eCtr : Nat
  bodyAt : Nat
  deriving DecidableEq, Repr

/-- The parts of a frame, read by R101 from its FRAME_CONTROL on. -/
def parseMac (f : List Byte) : MacParts :=
  let fc := leAt f 0 2
  let bitAt := fun i => Nat.beq (fc / 2 ^ i % 2) 1
  let dm := fc / 256 % 4
  let sm := fc / 1024 % 4
  let srcAt := 4 + modeBytes dm
  let linkAt := srcAt + modeBytes sm
  let meshAt := linkAt + (if bitAt 3 then 7 else 0)
  let rl := if bitAt 6 then leAt f meshAt 1 % 16 else 0
  let e2eAt := meshAt + (if bitAt 6 then 9 + 3 * rl else 0)
  { typ := fc % 8
    sec := bitAt 3
    pend := bitAt 4
    ar := bitAt 5
    mesh := bitAt 6
    e2e := bitAt 7
    dstMode := dm
    srcMode := sm
    ver := fc / 4096 % 4
    netId := leAt f 2 2
    dst := leAt f 4 (modeBytes dm)
    src := leAt f srcAt (modeBytes sm)
    linkAt := linkAt
    level := if bitAt 3 then leAt f linkAt 1 % 8 else 0
    epoch := if bitAt 3 then leAt f (linkAt + 1) 2 else 0
    ctr := if bitAt 3 then leAt f (linkAt + 3) 4 else 0
    meshAt := meshAt
    routeLen := rl
    routeIdx := if bitAt 6 then leAt f (meshAt + 1) 1 else 0
    origin := if bitAt 6 then leAt f (meshAt + 3) 3 else leAt f srcAt (modeBytes sm)
    final := if bitAt 6 then leAt f (meshAt + 6) 3 else leAt f 4 (modeBytes dm)
    e2eAt := e2eAt
    e2eLevel := if bitAt 7 then leAt f e2eAt 1 % 8 else 0
    e2eEpoch := if bitAt 7 then leAt f (e2eAt + 1) 2 else 0
    e2eCtr := if bitAt 7 then leAt f (e2eAt + 3) 4 else 0
    bodyAt := e2eAt + (if bitAt 7 then 7 else 0) }

def MacParts.micBytes (p : MacParts) : Nat := if p.sec then micLen p.level else 0
def MacParts.e2eMicBytes (p : MacParts) : Nat := if p.e2e then micLen p.e2eLevel else 0

/-- Type fields each TYPE opens its payload with, in bytes (R110); a JOIN's follow its JOIN_OP. -/
def typeFieldBytes (f : List Byte) (p : MacParts) : Nat :=
  match p.typ with
  | 0 => 1
  | 1 => 6
  | 2 => 2
  | 3 => 13
  | 4 => (match leAt f p.bodyAt 1 with | 1 => 15 | 2 => 17 | _ => 11)
  | 5 => 3
  | 6 => 4
  | _ => 6

/-- Whether the parts present, with the type fields, fit in the frame (R112); encrypted type fields count at their
fixed size, a JOIN's at its smallest. -/
def MacParts.fits (f : List Byte) (p : MacParts) : Bool :=
  Nat.ble (p.bodyAt + (if p.typ = 4 then 11 else typeFieldBytes f p) + p.e2eMicBytes + p.micBytes + 4) f.length

/-- The combinations of R109. -/
def MacParts.allowed (p : MacParts) (beaconBit : Bool) : Bool :=
  let bcast := p.dst == 0xFFFFFF && p.dstMode == 1
  (decide (p.typ = 3) == beaconBit) &&
  match p.typ with
  | 0 => p.dstMode == 1 && p.srcMode == 1 && p.sec && !(p.ar && bcast) && (!p.e2e || p.mesh)
  | 1 => p.dstMode == 0 && p.srcMode == 0 && !p.sec && !p.ar && !p.mesh && !p.e2e
  | 2 => p.dstMode == 1 && p.srcMode == 1 && p.sec && p.ar && !p.mesh && !p.e2e && !p.pend
  | 3 => p.dstMode == 1 && bcast && p.srcMode == 1 && p.sec && !p.ar && !p.mesh && !p.e2e && !p.pend
  | 4 => (p.dstMode == 1 || p.dstMode == 2) && (p.srcMode == 1 || p.srcMode == 2) && p.sec && p.ar && !p.e2e &&
      !p.pend
  | 5 => p.dstMode == 1 && p.srcMode == 1 && p.sec && !(p.ar && bcast) && p.e2e
  | 6 => p.dstMode == 1 && p.srcMode == 1 && p.sec && (!p.e2e || p.mesh) && !p.pend
  | _ => p.dstMode == 1 && p.srcMode == 1 && p.sec && !(p.ar && bcast) && !p.e2e

/-- Whether a frame is for the PL1680: broadcast, or unicast to the router that no mesh header sends on (R112). -/
def MacParts.forUs (p : MacParts) : Bool :=
  p.dstMode == 1 && (p.dst == 0xFFFFFF || (p.dst == 0 && (!p.mesh || p.final == 0)))

/-! ### Security (R105, R388) -/

/-- The nonce of R388. -/
def nonceOf (source netId ctr epoch level : Nat) (e2e : Bool) : List Nat :=
  (leBytes 3 source ++ leBytes 2 netId ++ leBytes 4 ctr ++ leBytes 2 epoch ++ leBytes 1 level ++
    leBytes 1 (if e2e then 1 else 0)).map BitVec.toNat

/-- The SOURCE of the link nonce: the transmitter's NSA, 0xFF_FFFF for a direct joiner. -/
def MacParts.linkSource (p : MacParts) : Nat := if p.srcMode = 2 then 0xFFFFFF else p.src

def MacParts.linkNonce (p : MacParts) : List Nat := nonceOf p.linkSource p.netId p.ctr p.epoch p.level false

def MacParts.e2eNonce (p : MacParts) : List Nat := nonceOf p.origin p.netId p.e2eCtr p.e2eEpoch p.e2eLevel true

def natBytes (l : List Byte) : List Nat := l.map BitVec.toNat
def bytesOfNat (l : List Nat) : List Byte := l.map (BitVec.ofNat 8)

/-- The associated data of the end-to-end MIC (R105). -/
def e2eAad (f : List Byte) (p : MacParts) : List Byte :=
  leBytes 2 p.netId ++ leBytes 3 p.origin ++ leBytes 3 p.final ++ (f.drop p.e2eAt).take 7

/-- Open the link protection of a whole frame (with FCS): the body and end-to-end MIC in the clear, if the MIC is good. -/
def linkOpen (key : List Nat) (f : List Byte) (p : MacParts) : Option (List Byte) :=
  let stop := f.length - 4 - p.micBytes
  (Crypto.ccmOpen key p.linkNonce (natBytes (f.take p.bodyAt)) (natBytes ((f.take stop).drop p.bodyAt))
    (natBytes ((f.drop stop).take p.micBytes)) (levelEnc p.level)).map bytesOfNat

/-- Open the end-to-end protection of a body (type fields, payload, MIC) already opened at the link. -/
def e2eOpen (key : List Nat) (f : List Byte) (p : MacParts) (body : List Byte) : Option (List Byte) :=
  let n := body.length - p.e2eMicBytes
  (Crypto.ccmOpen key p.e2eNonce (natBytes (e2eAad f p)) (natBytes (body.take n)) (natBytes (body.drop n))
    (levelEnc p.e2eLevel)).map bytesOfNat

/-- A security header filled with its epoch and counter (R103). -/
def fillSec (f : List Byte) (off epoch ctr : Nat) : List Byte :=
  patch f (off + 1) (leBytes 2 epoch ++ leBytes 4 ctr)

/-- Seal the end-to-end part of a frame that still lacks its MICs and FCS (R105, R391). -/
def e2eSeal (key : List Nat) (epoch ctr : Nat) (f : List Byte) : List Byte :=
  let g := fillSec f (parseMac f).e2eAt epoch ctr
  let p := parseMac g
  let (c, mic) := Crypto.ccmSeal key p.e2eNonce (natBytes (e2eAad g p)) (natBytes (g.drop p.bodyAt)) p.e2eMicBytes
    (levelEnc p.e2eLevel)
  g.take p.bodyAt ++ bytesOfNat c ++ bytesOfNat mic

/-- Seal the link part of a frame that still lacks its link MIC and FCS, and append the FCS (R99, R105). -/
def linkSeal (key : List Nat) (epoch ctr : Nat) (f : List Byte) : List Byte :=
  let g := fillSec f (parseMac f).linkAt epoch ctr
  let p := parseMac g
  let (c, mic) := Crypto.ccmSeal key p.linkNonce (natBytes (g.take p.bodyAt)) (natBytes (g.drop p.bodyAt)) p.micBytes
    (levelEnc p.level)
  let h := g.take p.bodyAt ++ bytesOfNat c ++ bytesOfNat mic
  h ++ leBytes 4 (crc32 h).toNat

/-- Whether a frame's FCS is good (R99). -/
def fcsOk (f : List Byte) : Bool :=
  Nat.ble 4 f.length && decide (leAt f (f.length - 4) 4 = (crc32 (f.take (f.length - 4))).toNat)

/-- The ACK to a frame with its link counter and the first two bytes of its link MIC as sent (R102, R110). -/
def ackFrame (netId ctr : Nat) (mic2 : List Byte) (pend : Bool) : List Byte :=
  let h := leBytes 2 (if pend then 0x0011 else 0x0001) ++ leBytes 2 netId ++ leBytes 4 ctr ++ mic2
  h ++ leBytes 4 (crc32 h).toNat

/-! ### Airtime (R77, R91, R98) -/

/-- Symbol time of a rate in nanoseconds (R77): A 40 µs, B 10 µs, C 2.5 µs, D 0.625 µs. -/
def symbolNs : Nat → Nat
  | 0 => 40000
  | 1 => 10000
  | 2 => 2500
  | _ => 625

/-- Information bits of a full codeword of a rate (R77): the LDPC code has 1,152 bits. -/
def infoBits : Nat → Nat
  | 0 => 576
  | 1 => 576
  | 2 => 768
  | _ => 960

end Sys2Proof.Machine
end

