-- ==== Sys2Proof/Machine/Keystore.lean ====
section
/-!
DEFINITION. Machine/Keystore.lean: the key store (R366–R393): labels and derivation through the cache, what a slot needs
to be used, tearing and orphaning, the two-phase slot write, counters and epoch rolls, and zeroising.
-/

namespace Sys2Proof.Machine

open Sys2Proof Sys2Proof.Reg

/-! ### Slots -/

/-- Slot n (R374). -/
def State.slot (s : State) (n : Nat) : KeySlot := s.u.sec.slots.getD n KeySlot.zeroed

/-- An attribute bit of a slot (R375): 0 ENC, 1 DEC, 2 MAC, 3 DERIVE, 4 WRAP, 5 UNWRAP, 6 LEN256, 7 PERSIST, 8 LOCKED. -/
def KeySlot.has (k : KeySlot) (i : Nat) : Bool := Nat.testBit k.attr i

/-- DEPTH (R375). -/
def KeySlot.depth (k : KeySlot) : Nat := k.attr / 2 ^ 9 % 4

/-- The key bytes of a slot: KEY's bytes, least significant first (log 23). -/
def KeySlot.bytes (k : KeySlot) : List Nat := natBytes (leBytes (if k.has 6 then 32 else 16) k.key)

/-- The TAG of a slot's contents under the INTEGRITY key (R374). -/
def tagOfSlot (integrity : List Nat) (n : Nat) (k : KeySlot) : Nat :=
  leValue ((bytesOfNat (Crypto.cmac integrity (natBytes
    (leBytes 2 n ++ leBytes 32 k.key ++ leBytes 4 k.attr ++ leBytes 2 k.parent ++ leBytes 2 k.gen)))).take 8)

/-- The stored TAG verifies (R382). -/
def State.tagOk (s : State) (n : Nat) : Bool :=
  match s.u.sec.integrity with
  | none => false
  | some i => decide ((s.slot n).tag = tagOfSlot i n (s.slot n))

/-- An operation that needs permission i may use the slot (R376). -/
def State.usable (s : State) (n i : Nat) : Bool := decide ((s.slot n).state = .valid) && (s.slot n).has i

/-- Slots in an ORPHAN walk: those whose PARENT chain leads to n (R381); chains are at most four long (R376). -/
def State.leadsTo (s : State) (n : Nat) : Nat → Nat → Bool
  | 0, _ => false
  | d + 1, m =>
    let p := (s.slot m).parent
    if p = 0xFFFF then false else p == n || s.leadsTo n d p

/-- The listed slots that depend on slot n. -/
def State.dependants (s : State) (n : Nat) : List Nat :=
  (s.u.sec.slots.map Prod.fst).filter fun m =>
    !(m == n) && s.leadsTo n 4 m && (decide ((s.slot m).state = .valid) || decide ((s.slot m).state = .draining))

namespace Act

/-- Store a slot. -/
def putSlot (n : Nat) (k : KeySlot) : Act :=
  .seq (sec fun x => { x with slots := x.slots.setD n KeySlot.zeroed k })
    (logUpdate ([0x13] ++ leBytes 2 n ++ leBytes 1 k.state.code ++ leBytes 2 k.gen ++ leBytes 4 k.attr ++
      leBytes 2 k.parent))

/-- SEC_STATUS.SLOTS_VALID counts the VALID slots (R408). -/
def slotsValid : Act := .read fun s =>
  setF SEC_STATUS_SLOTS_VALID ((s.u.sec.slots.filter fun e => decide (e.2.state = .valid)).length)

/-- The cache forgets every entry of a slot whose generation changed (R373). -/
def dropCached (n : Nat) : Act := sec fun x => { x with cache := x.cache.filter fun e => !(e.slot == n) }

/-- The walk of R381 from slot n. -/
def orphanWalk (n : Nat) : Act := .read fun s =>
  let ds := s.dependants n
  all [each ds fun m => .read fun t =>
      all [putSlot m { t.slot m with key := 0, gen := ((t.slot m).gen + 1) % 65536, state := .orphan },
        dropCached m, sat SEC_ORPHANS],
    when (!ds.isEmpty) (raise 69 (leBytes 4 ds.length)),
    slotsValid]

/-- A slot whose TAG fails becomes TORN (R382). -/
def tear (n : Nat) : Act := .read fun s =>
  all [putSlot n { s.slot n with key := 0, state := .torn },
    dropCached n,
    orphanWalk n,
    sat SEC_TORN,
    pair fun p => { p with lastFault := 16 },
    raise 68 (leBytes 2 n),
    slotsValid]

/-- The key of slot n for an operation that needs permission i: `bad` where R376 refuses it or the fetch finds a TAG
that fails, which tears the slot (R382). `upset` is a storage upset the check meets. -/
def fetchSlot (n i : Nat) (upset : Bool) (bad : Act) (k : List Nat → Act) : Act := .read fun s =>
  if !s.usable n i then bad
  else if upset || !s.tagOk n then .seq (tear n) bad
  else k (s.slot n).bytes

end Act

/-! ### Labels (R367, R368) -/

/-- A 32-byte label. -/
def labelOf (purpose dir netId nsa eui epoch group : Nat) : List Byte :=
  leBytes 1 purpose ++ leBytes 1 dir ++ leBytes 1 0 ++ leBytes 1 1 ++ leBytes 2 netId ++ leBytes 3 nsa ++ leBytes 1 0 ++
  leBytes 8 eui ++ leBytes 2 epoch ++ leBytes 4 group ++ [0x50, 0x4C, 0x49, 0x55, 0x52, 0x41, 0x4B, 0x44]

/-- The current EPOCH (R389). -/
def State.epoch (s : State) : Nat := s.fld ⟨SEC_EPOCH, 0, 16⟩

/-- The slot and label of a frame's key (R369); `down` for frames the router sends, `epoch` the sender's. -/
def State.frameLabel (s : State) (k : FrameKey) (down : Bool) (epoch : Nat) : Nat × List Byte :=
  let net := s.u.boot.networkId
  let dir := if down then 2 else 1
  let nodeRoot := s.fld SEC_ROOTMAP_NODE_ROOT
  let netRoot := s.fld SEC_ROOTMAP_NET_ROOT
  match k with
  | .link nsa => (nodeRoot, labelOf 2 dir net nsa (s.node nsa Node.EUI64) epoch 0)
  | .e2e nsa => (nodeRoot, labelOf 3 dir net nsa (s.node nsa Node.EUI64) epoch 0)
  | .join eui => (nodeRoot, labelOf 4 dir net 0 eui epoch 0)
  | .bcast => (netRoot, labelOf 5 0 net 0 0 0 (s.fld SEC_GROUP_GROUP))
  | .mesh => (netRoot, labelOf 6 0 net 0 0 0 (s.fld SEC_GROUP_GROUP))

/-- The label of the NMK above a LINK, E2E or JOIN label (R368): NETWORK_ID and EUI64 alone stay. -/
def nmkLabel (l : List Byte) : List Byte := labelOf 1 0 (leAt l 4 2) 0 (leAt l 10 8) 0 0

/-- Purposes derived in two steps (R372). -/
def viaNmk (l : List Byte) : Bool := leAt l 0 1 == 2 || leAt l 0 1 == 3 || leAt l 0 1 == 4

/-! ### The derived-key cache (R371–R373) -/

/-- The set of a request. -/
def cacheSet (n : Nat) (l : List Byte) : Nat := (crc32 (leBytes 2 n ++ l)).toNat % 1024

/-- An entry that can still hit: its slot VALID at the same generation and its beat not passed. -/
def State.cacheLive (s : State) (e : CacheEntry) : Bool :=
  decide ((s.slot e.slot).state = .valid) && (s.slot e.slot).gen == e.gen && Nat.ble s.workBeat e.expiry

/-- The cached key of a request. -/
def State.cached (s : State) (n : Nat) (l : List Byte) : Option (List Nat) :=
  if !s.bit SEC_CACHE_CFG_EN then none
  else (s.u.sec.cache.find? fun e => e.slot == n && e.label == l && s.cacheLive e).map (·.key)

namespace Act

/-- Insert a derived key: an expired or stale way of its set first, otherwise the way inserted earliest (R372). -/
def cachePut (n : Nat) (l : List Byte) (key : List Nat) : Act := .read fun s =>
  let inSet := fun (e : CacheEntry) => cacheSet e.slot e.label == cacheSet n l
  let c := s.u.sec.cache.filter fun e => !(e.slot == n && e.label == l)
  let c := if (c.filter inSet).length < 4 then c
    else if c.any (fun e => inSet e && !s.cacheLive e) then dropFirst (fun e => inSet e && !s.cacheLive e) c
    else dropFirst inSet c
  when (s.bit SEC_CACHE_CFG_EN)
    (sec fun x => { x with cache :=
      c ++ [⟨n, (s.slot n).gen, l, key, s.workBeat + s.fld SEC_CACHE_CFG_LIFE_BEATS⟩] })

/-- One derivation step from a slot that carries DERIVE (R366, R376). -/
def deriveFromSlot (n : Nat) (l : List Byte) (bad : Act) (k : List Nat → Act) : Act := .read fun s =>
  if s.u.sec.writes.any (fun w => w.slot == n && w.draining) then bad
  else if (s.slot n).depth = 3 then bad
  else fetchSlot n 3 false bad fun root =>
    let key := Crypto.kdf root (natBytes l) false
    all [wrap SEC_DERIVE, cachePut n l key, k key]

/-- The key of a slot and final label through the cache (R371, R372). -/
def derived (n : Nat) (l : List Byte) (bad : Act) (k : List Nat → Act) : Act := .read fun s =>
  if !decide ((s.slot n).state = .valid) then bad
  else match s.cached n l with
  | some key => .seq (wrap SEC_CACHE_HIT) (k key)
  | none => .seq (wrap SEC_CACHE_MISS)
    (if viaNmk l then
      let fromNmk := fun nmk =>
        let key := Crypto.kdf nmk (natBytes l) false
        all [wrap SEC_DERIVE, cachePut n l key, k key]
      .read fun t => match t.cached n (nmkLabel l) with
        | some nmk => .seq (wrap SEC_CACHE_HIT) (fromNmk nmk)
        | none => .seq (wrap SEC_CACHE_MISS) (deriveFromSlot n (nmkLabel l) bad fromNmk)
    else deriveFromSlot n l bad k)

/-- WRAP_TO_PARTNER (R378): a non-root key leaves for the Buesque Link, wrapped under PAIR_WRAP. -/
def wrapToPartner (source : Fin 1024) : Act := .read fun s =>
  let k := s.slot source
  if k.parent == 0xFFFF then .nop
  else if !s.bit SEC_ROOTMAP_PAIR_WRAP_EN || !decide (k.state = .valid) then sat SEC_INVALID_KEY
  else fetchSlot (s.fld SEC_ROOTMAP_PAIR_WRAP) 4 false (sat SEC_INVALID_KEY) fun kek =>
    linkSend (.bulk (.slot source (BitVec.ofNat 32 k.attr) (BitVec.ofNat 16 k.parent) (BitVec.ofNat 16 k.gen)
      (padTo 40 (bytesOfNat (Crypto.kwWrap kek (natBytes (leBytes (if k.has 6 then 32 else 16) k.key)))))))

/-! ### Counters and rolls (R391, R392) -/

/-- A roll is requested (R392): the epoch write starts, or, at EPOCH 0xFFFF, the roll stays pending. -/
def requestRoll : Act := .read fun s =>
  when (s.u.sec.roll.isNone)
    (all [sec fun x => { x with roll := some false }, setB SEC_STATUS_ROLL_PENDING true,
      when (s.epoch == 0xFFFF) (raise 67 (leBytes 2 s.epoch))])

end Act

/-- WARN of R391. -/
def ctrWarn : Nat := 2 ^ 32 - 2 ^ 20

/-- What a seal takes of its counter (R391): the value, or a refusal. -/
def State.takeCtr (s : State) (t : Nat) : Option Nat :=
  if t < ctrWarn then some (t + 1)
  else if s.u.sec.roll.isSome then (if t + 1 ≥ 0xFFFFFFFF then none else some (t + 1))
  else some 0

/-- The stored counter of a frame key (R391). -/
def State.storedCtr (s : State) : FrameKey → Nat
  | .link nsa => s.node nsa Node.TX_LINK_CTR
  | .e2e nsa => s.node nsa Node.TX_E2E_CTR
  | .join _ => (s.reg SEC_TXCTR_JOIN).toNat
  | .bcast => (s.reg SEC_TXCTR_BCAST).toNat
  | .mesh => 0

/-- The name of a key in an event (R405): its PURPOSE code (R368), with the node's NSA or the joiner's EUI-64 (log 29). -/
def FrameKey.name : FrameKey → List Byte
  | .link nsa => leBytes 1 2 ++ leBytes 3 nsa
  | .e2e nsa => leBytes 1 3 ++ leBytes 3 nsa
  | .join eui => leBytes 1 4 ++ leBytes 8 eui
  | .bcast => leBytes 1 5
  | .mesh => leBytes 1 6

/-- Two seals share one counter. -/
def FrameKey.sameCtr : FrameKey → FrameKey → Bool
  | .link a, .link b => a == b
  | .e2e a, .e2e b => a == b
  | .join _, .join _ => true
  | .bcast, .bcast => true
  | .mesh, .mesh => true
  | _, _ => false

namespace Act

/-- A counter is taken for a seal: the warning and the roll it asks for (R391). `k` gets the value. -/
def takeCtr (key : FrameKey) (refuse : Act) (k : Nat → Act) : Act := .read fun s =>
  match s.takeCtr (s.storedCtr key) with
  | none => .seq (raiseOnce 66 0 []) refuse
  | some c =>
    .seq (when (Nat.beq c ctrWarn) (.seq (raise 64 key.name) requestRoll)) (k c)

/-- A seal that completed OK stores its counter (R391), for a node in its record (R249). -/
def storeCtr (key : FrameKey) (c : Nat) (missing : Act := .nop) : Act :=
  match key with
  | .link nsa => recUpdate nsa [(Node.TX_LINK_CTR, c)] missing
  | .e2e nsa => recUpdate nsa [(Node.TX_E2E_CTR, c)] missing
  | .join _ => .reg SEC_TXCTR_JOIN (BitVec.ofNat 32 c)
  | .bcast => .reg SEC_TXCTR_BCAST (BitVec.ofNat 32 c)
  | .mesh => .nop

/-! ### Zeroising (R397) -/

/-- The output buffer a cipher operation was given receives zeros (R54, R396). -/
def opZero (o : Op) : Act := .read fun s =>
  match o.work with
  | .seal k addr len out =>
    let p := parseMac (s.sramBytes o.pe addr len)
    sram o.pe out (List.replicate (len + match k with | .e2e _ => p.e2eMicBytes | _ => p.micBytes + 4) 0)
  | .openFrame _ _ len out => sram o.pe out (List.replicate len 0)
  | .cmac _ _ _ out => sram o.pe out (List.replicate 16 0)
  | .sha _ _ out => sram o.pe out (List.replicate 32 0)
  | _ => .nop

/-- Every operation of the cipher class is aborted and its outputs are zeroed (R396). -/
def abortCiphers : Act := .read fun s =>
  each (s.u.accel.ops.filter fun o => o.cls == 2) fun o => .seq (opZero o) (finish o cplError 0 0)

/-- Zeroise: the whole store, the cache, the fuse controller's keys and the join replay table (R397). -/
def zeroise : Act := .read fun s =>
  all [abortCiphers,
    sec fun x => { x with slots := [], writes := [], cache := [], kek := none, integrity := none, replay := [] },
    .zero (s.systemBase + 0x200000) 0x100000,
    slotsValid,
    setB SEC_STATUS_READY false,
    setB SEC_STATUS_ZEROISED true,
    sat SEC_ZEROISE_CNT,
    raise 71 []]

/-- The key area is erased after zeroising where SEC_TAMPER_CFG.ERASE_KEYAREA asks for it (R397). -/
def eraseKeyArea : Act := .read fun s =>
  when (s.bit SEC_TAMPER_CFG_ERASE_KEYAREA)
    (boot fun b => { b with flash := { b.flash with keys := [], epoch52 := [], epoch53 := [] } })

/-- The tamper latch (R396): the first cause and mode are recorded, every cause is counted. -/
def latchTamper (cause : Nat) : Act := .read fun s =>
  .seq (sat SEC_TAMPER_CNT)
    (when (!s.bit SEC_TAMPER_STAT_LATCHED)
      (all [setB SEC_TAMPER_STAT_LATCHED true, setF SEC_TAMPER_STAT_CAUSE cause,
        setF SEC_TAMPER_STAT_MODE_AT s.mode.code, setB SEC_STATUS_TAMPER true,
        raise 72 (leBytes 1 cause ++ leBytes 1 s.mode.code)]))

end Act

/-! ### The epoch log (R389) -/

/-- The current epoch record: the highest SEQ of either sector. -/
def Flash.epoch (f : Flash) : Option EpochRec :=
  match f.epoch52.getLast?, f.epoch53.getLast? with
  | none, b => b
  | a, none => a
  | some a, some b => if a.seq < b.seq then some b else some a

/-- Program a new epoch record: the next erased frame of the current sector, or the first of the other when it is full,
which is then erased (R389). -/
def Flash.addEpoch (f : Flash) (rootset epoch : Nat) : Flash :=
  let r : EpochRec := ⟨rootset, epoch, ((f.epoch.map (·.seq)).getD 0) + 1⟩
  let in53 := match f.epoch52.getLast?, f.epoch53.getLast? with
    | some a, some b => Nat.blt a.seq b.seq
    | none, some _ => true
    | _, _ => false
  if in53 then
    if f.epoch53.length < 256 then { f with epoch53 := f.epoch53 ++ [r] }
    else { f with epoch52 := [r], epoch53 := [] }
  else
    if f.epoch52.length < 256 then { f with epoch52 := f.epoch52 ++ [r] }
    else { f with epoch53 := [r], epoch52 := [] }

/-! ### The key area (R383–R385) -/

/-- The group of a slot. -/
def groupOf (slot : Nat) : Nat := slot / 40

def Flash.sector (f : Flash) (k : Nat) : KeySector := f.keys.getD k ⟨none, []⟩

/-- The current sector of a group (R384): 0 or 1 of its pair, none where neither header verifies. -/
def Flash.current (f : Flash) (g : Nat) : Option Nat :=
  match (f.sector (2 * g)).gseq, (f.sector (2 * g + 1)).gseq with
  | none, none => none
  | some _, none => some 0
  | none, some _ => some 1
  | some a, some b => if a < b then some 1 else some 0

/-- The verifying record of a slot with the higher SEQ, of either sector of its group. -/
def Flash.keyRec (f : Flash) (slot : Nat) : Option KeyRec :=
  let g := groupOf slot
  (((f.sector (2 * g)).recs ++ (f.sector (2 * g + 1)).recs).filter fun r => r.slot == slot && r.good).foldl
    (fun best r => match best with
      | none => some r
      | some b => if b.seq < r.seq then some r else some b) none

/-- The highest SEQ of a slot present in either sector of its group. -/
def Flash.topSeq (f : Flash) (slot : Nat) : Nat :=
  let g := groupOf slot
  (((f.sector (2 * g)).recs ++ (f.sector (2 * g + 1)).recs).filter fun r => r.slot == slot).foldl
    (fun n r => max n r.seq) 0

/-- The slots of a group that have a record. -/
def Flash.groupSlots (f : Flash) (g : Nat) : List Nat :=
  (List.range 40).map (fun i => 40 * g + i) |>.filter fun n => (f.keyRec n).isSome

/-- The rewrite of a slot's group (R384): the other sector, the group sequence one up, every other record copied. -/
def Flash.writeKey (f : Flash) (slot : Nat) (k : KeySlot) : Flash :=
  let g := groupOf slot
  let cur := f.current g
  let gseq := match cur with
    | none => 1
    | some i => ((f.sector (2 * g + i)).gseq.getD 0) + 1
  let parentSeq := if k.parent = 0xFFFF then 0 else ((f.keyRec k.parent).map (·.seq)).getD 0
  let r : KeyRec := ⟨slot, k.parent, k.attr, f.topSeq slot + 1, parentSeq, k.key, true⟩
  let others := ((f.groupSlots g).filter fun n => !(n == slot)).filterMap fun n => f.keyRec n
  { f with keys := f.keys.put (2 * g + (match cur with | some 0 => 1 | _ => 0)) ⟨some gseq, r :: others⟩ }

end Sys2Proof.Machine
end

