-- ==== Sys2Proof/Machine/Air.lean ====
section
/-!
DEFINITION. Machine/Air.lean: what goes over the air (R74–R98): channels and their widths, the preamble, the sync word's
validity, the PHY header and its code, the scrambler, segmentation, the LDPC family, and the symbols of a whole frame.
Bits are Bools, a 1 being carrier on (R78).
-/

namespace Sys2Proof.Machine.Air

open Sys2Proof

/-! ### Channels (R74–R76) -/

/-- Occupied width of a rate in kHz (R75). -/
def widthKHz : Nat → Nat
  | 0 => 100
  | 1 => 200
  | 2 => 800
  | _ => 2000

/-- Raster of a port in kHz (R74). -/
def rasterKHz : RfPort → Nat
  | .s => 100
  | .w => 1000

/-- Band width of a port in kHz (R74). -/
def bandKHz : RfPort → Nat
  | .s => 65000
  | .w => 83500

/-- A channel's centre above the band's lower edge, in kHz (R74). -/
def centreKHz (p : RfPort) (k : Nat) : Nat := k * rasterKHz p

/-- Whether a port carries a rate (R77). -/
def rateOnPort : RfPort → Nat → Bool
  | .s, r => Nat.blt r 3
  | .w, r => r == 2 || r == 3

/-- Whether an index is usable at a rate (R75). -/
def usable (p : RfPort) (k r : Nat) : Bool :=
  rateOnPort p r && Nat.ble (widthKHz r) (2 * centreKHz p k) &&
    Nat.ble (2 * centreKHz p k + widthKHz r) (2 * bandKHz p)

/-- Two channels of one port do not overlap (R76). -/
def apart (p : RfPort) (k r k' r' : Nat) : Bool :=
  Nat.ble (widthKHz r + widthKHz r')
    (2 * (max (centreKHz p k) (centreKHz p k') - min (centreKHz p k) (centreKHz p k')))

/-! ### Preamble and sync word (R84, R85) -/

/-- The m-sequence (R84). -/
def mSeq : List Bool :=
  [true, true, true, true, true, false, false, false, true, true, false, true, true, true, false, true] ++
  [false, true, false, false, false, false, true, false, false, true, false, true, true, false, false]

def preamble : List Bool := mSeq ++ mSeq ++ mSeq ++ mSeq

/-- The n bits of a number, most significant first. -/
def bitsMsb (n v : Nat) : List Bool := (List.range n).map fun i => Nat.testBit v (n - 1 - i)

/-- Positions where two bit lists differ. -/
def differ (a b : List Bool) : Nat := ((List.zip a b).filter fun p => p.1 != p.2).length

/-- The longest run of equal bits. -/
def longestRun : List Bool → Nat → Nat → Nat
  | [], _, m => m
  | [_], c, m => max c m
  | a :: b :: l, c, m => if a = b then longestRun (b :: l) (c + 1) (max (c + 1) m) else longestRun (b :: l) 1 (max c m)

/-- A valid network sync word (R85). -/
def syncWordOk (w : Nat) : Bool :=
  let b := bitsMsb 32 w
  let ones := (b.filter id).length
  Nat.ble 12 ones && Nat.ble ones 20 && Nat.ble (longestRun b 1 1) 6 &&
  ((List.range 31).all fun i => Nat.ble 8 (differ b ((preamble.drop i).take 32))) &&
  ((List.range 8).all fun i => Nat.ble 6 (differ (b.drop (i + 1)) b))

/-- A network ID that is not reserved (R85). -/
def networkIdOk (n : Nat) : Bool := !(n == 0) && !(n == 0xFFFF)

/-! ### PHY header (R86–R89) -/

/-- The header word (R86). -/
def headerWord (rate length : Nat) (beacon : Bool) : Nat :=
  rate * 2 ^ 22 + length * 2 ^ 11 + (if beacon then 2 ^ 10 else 0)

/-- The 32-bit header block (R87). -/
def headerBlock (h : Nat) : Nat := h * 256 + (headerCrc (BitVec.ofNat 24 h)).toNat

/-- Whether a received header block is accepted on a channel of a rate (R89). -/
def headerOk (blk rate : Nat) : Bool :=
  let h := blk / 256 % 2 ^ 24
  decide (headerBlock h = blk) && Nat.beq (h / 2 ^ 22) rate &&
    Nat.ble 14 (h / 2 ^ 11 % 2048) && Nat.ble (h / 2 ^ 11 % 2048) 1024

def headerLength (blk : Nat) : Nat := blk / 2 ^ 19 % 2048
def headerBeacon (blk : Nat) : Bool := Nat.testBit blk 18

/-- One output bit of the tail-biting encoder (R88). -/
def convBit (b : List Bool) (g i : Nat) : Bool :=
  (List.range 7).foldl (fun acc t => if Nat.testBit g (6 - t) then xor acc (b.getD ((i + 32 - t) % 32) false) else acc)
    false

/-- The 128 coded bits of a header block (R88). -/
def headerCoded (blk : Nat) : List Bool :=
  (List.range 32).flatMap fun i => [0o117, 0o127, 0o155, 0o171].map fun g => convBit (bitsMsb 32 blk) g i

/-! ### Scrambler (R90) -/

/-- Bits of bytes, each byte bit 0 first. -/
def bitsLsb (bs : List Byte) : List Bool := bs.flatMap fun b => (List.range 8).map fun i => b.getLsbD i

/-- Whitening from a 15-bit state. -/
def whiten : Nat → List Bool → List Bool
  | _, [] => []
  | st, d :: ds =>
    let w := xor (Nat.testBit st 14) (Nat.testBit st 13)
    xor d w :: whiten ((2 * st + (if w then 1 else 0)) % 2 ^ 15) ds

def scramble (bs : List Byte) : List Bool := whiten 0x4A80 (bitsLsb bs)

/-! ### Segmentation (R91, R92) -/

def ceilDiv (a b : Nat) : Nat := (a + b - 1) / b

/-- Codewords of a frame of `len` bytes at a rate (R91). -/
def codewords (rate len : Nat) : Nat := ceilDiv (8 * len) (infoBits rate)

/-- Information bits of codeword i (R91). -/
def kc (rate len i : Nat) : Nat :=
  let n := codewords rate len
  8 * len / n + (if i < 8 * len % n then 1 else 0)

/-- Parity bits sent of a codeword with k information bits (R92). -/
def np (rate k : Nat) : Nat := ceilDiv (k * (1152 - infoBits rate)) (infoBits rate)

/-- Symbols of a frame (R98). -/
def symbols (rate len : Nat) : Nat :=
  (List.range (codewords rate len)).foldl (fun n i => n + kc rate len i + np rate (kc rate len i)) 284

/-- Airtime in nanoseconds from frame start to frame end (R98). -/
def airtimeNs (rate len : Nat) : Nat := symbols rate len * symbolNs rate

/-! ### LDPC (R93–R97) -/

/-- The LFSR step of R95. -/
def lfsrStep (s : Nat) : Nat := if s % 2 = 1 then (s / 2) ^^^ 0xB400 else s / 2

/-- Rows of a rate's base matrix (R93). -/
def baseRows : Nat → Nat
  | 0 => 12
  | 1 => 12
  | 2 => 8
  | _ => 4

def offsets : Nat → List Nat
  | 0 => [0, 3, 7]
  | 1 => [0, 3, 7]
  | 2 => [0, 1, 3]
  | _ => [0, 1, 2]

def ldpcSeed : Nat → Nat
  | 0 => 0xACE1
  | 1 => 0xACE1
  | 2 => 0x1D0F
  | _ => 0x6B5A

/-- The information part of the base matrix, `fuel` positions from position i on, with the LFSR state (R95). -/
def baseFrom (rate : Nat) : Nat → Nat → Nat → List (Option Nat)
  | 0, _, _ => []
  | fuel + 1, i, s =>
    let mb := baseRows rate
    let kb := 24 - mb
    let s' := lfsrStep s
    let d := (i / kb + kb * mb - i % kb) % mb
    (if (offsets rate).contains d then some (s' % 48) else none) :: baseFrom rate fuel (i + 1) s'

/-- The shifts of base row r over the information columns (R95). -/
def baseRow (rate r : Nat) : List (Option Nat) :=
  let kb := 24 - baseRows rate
  ((baseFrom rate (baseRows rate * kb) 0 (ldpcSeed rate)).drop (r * kb)).take kb

def xorBits (a b : List Bool) : List Bool := List.zipWith xor a b

/-- rot(v, s) of R97. -/
def rot (v : List Bool) (s : Nat) : List Bool := v.drop s ++ v.take s

/-- The syndrome of one row over the information blocks (R97). -/
def rowSyn (row : List (Option Nat)) (u : List Bool) : List Bool :=
  (row.zipIdx).foldl (fun acc e =>
    match e.1 with
    | none => acc
    | some s => xorBits acc (rot ((u.drop (48 * e.2)).take 48) s)) (List.replicate 48 false)

/-- The parity bits of a full information word (R97): the staircase runs on from block `prev`. -/
def parityFrom (rate : Nat) (u : List Bool) : Nat → Nat → List Bool → List Bool
  | 0, _, _ => []
  | fuel + 1, r, prev =>
    let p := xorBits (rowSyn (baseRow rate r) u) prev
    p ++ parityFrom rate u fuel (r + 1) p

def parity (rate : Nat) (u : List Bool) : List Bool := parityFrom rate u (baseRows rate) 0 (List.replicate 48 false)

/-- One codeword as sent: its information bits and the parity bits that are not punctured (R92). -/
def codewordSent (rate : Nat) (info : List Bool) : List Bool :=
  let k := info.length
  info ++ (parity rate (info ++ List.replicate (infoBits rate - k) false)).take (np rate k)

/-- The payload symbols of a MAC frame from bit list `d`, codeword by codeword. -/
def payloadFrom (rate len : Nat) : Nat → Nat → List Bool → List Bool
  | 0, _, _ => []
  | fuel + 1, i, d =>
    codewordSent rate (d.take (kc rate len i)) ++ payloadFrom rate len fuel (i + 1) (d.drop (kc rate len i))

/-- Every symbol of a frame from frame start to frame end (R82). -/
def frameSymbols (rate syncWord : Nat) (beacon : Bool) (f : List Byte) : List Bool :=
  preamble ++ bitsMsb 32 syncWord ++ headerCoded (headerBlock (headerWord rate f.length beacon)) ++
    payloadFrom rate f.length (codewords rate f.length) 0 (scramble f)

end Sys2Proof.Machine.Air
end

