-- ==== Sys2Proof/Machine/QueueOps.lean ====
section
/-!
DEFINITION. Machine/QueueOps.lean: the Envelope's queues (R295–R316): the queue word and its parity, the enqueue
procedure, what a consumer reads, visibility, spill pages, watermarks, ballast pins and PAUSE.
-/

namespace Sys2Proof.Machine

open Sys2Proof Sys2Proof.Reg

/-! ### Words (R297, R298) -/

/-- The XOR of the low n bits of a number. -/
def parityOf : Nat → Nat → Bool
  | 0, _ => false
  | n + 1, v => xor (Nat.testBit v n) (parityOf n v)

/-- The tag byte of a word. -/
def QWord.tag (w : QWord) : Nat :=
  (if w.valid then 128 else 0) + (if w.poison then 64 else 0) + (if w.first then 32 else 0) +
    (if w.last then 16 else 0) + w.count

/-- A word from its data, tag and parity bit. -/
def QWord.of (d : BitVec 64) (tag : Nat) (par : Bool) : QWord :=
  ⟨d, Nat.testBit tag 7, Nat.testBit tag 6, Nat.testBit tag 5, Nat.testBit tag 4, tag % 16, par⟩

/-- The parity a word should carry (R298). -/
def QWord.rightPar (w : QWord) : Bool := xor (parityOf 64 w.data.toNat) (parityOf 8 w.tag)

def QWord.parOk (w : QWord) : Bool := w.par == w.rightPar

/-- P set and PAR recomputed over the word as it stands (R311). -/
def QWord.poisoned (w : QWord) : QWord :=
  let v := { w with poison := true }
  { v with par := v.rightPar }

/-- The not-valid word (R298). -/
def QWord.notValid : QWord := ⟨0, false, false, false, false, 0, false⟩

/-- Bytes a word carries. -/
def QWord.len (w : QWord) : Nat := if w.last then (if w.count = 0 then 8 else w.count) else 8

/-- The bytes of a run of words, each word's in little-endian order (R297). -/
def wordBytes (ws : List QWord) : List Byte := ws.flatMap fun w => (leBytes 8 w.data.toNat).take w.len

/-- A packet of bytes as words (R297). -/
def packetWords (bs : List Byte) : List QWord :=
  let n := (bs.length + 7) / 8
  (List.range n).map fun i =>
    let part := (bs.drop (8 * i)).take 8
    let w : QWord := ⟨BitVec.ofNat 64 (leValue part), true, false, i == 0, i + 1 == n,
      if i + 1 = n then part.length % 8 else 0, false⟩
    { w with par := w.rightPar }

/-! ### Pointers (R300) -/

/-- Words from HEAD to a pointer. -/
def Queue.off (q : Queue) (p : Word) : Nat := (p - q.head).toNat

/-- The depth: WPTR − HEAD. -/
def Queue.depth (q : Queue) : Nat := q.words.length

/-- Queue n (R295). -/
def State.queue (s : State) (n : Nat) : Queue := s.u.env.queues.getD n Queue.unused

/-- FC of R313, judged on the live depth. -/
def Queue.judge (q : Queue) : Queue :=
  { q with fc :=
      if q.hi = 0 then false
      else if Nat.ble q.hi q.depth then true
      else if Nat.ble q.depth q.lo then false
      else q.fc }

/-- ABORT: WPTR ← CPTR (R302). -/
def Queue.abort (q : Queue) : Queue :=
  { q with wptr := q.cptr, words := q.words.take (q.off q.cptr), openBy := none }

/-- One packet counted as aborted in the statistics (R316). -/
def Queue.countAbort (q : Queue) : Queue := { q with nAborted := min (q.nAborted + 1) 0xFFFFFFFF, changed := true }

/-! ### Enqueue (R303) -/

/-- How an enqueue runs: the queue as it stands, what it counted, and how it ended. -/
structure Enq where
  q : Queue
  accepted : Nat
  reason : Nat                 -- 0 NONE, 1 FRAMING, 2 NOT_VALID, 3 NOT_OWNER, 4 LIMIT
  status : Nat
  framing : Nat                -- packets dropped for framing or not-valid words
  drops : Nat
  parity : Nat
  aborts : Nat                 -- open packets aborted
  stopped : Bool
  deriving DecidableEq, Repr

/-- What a commit records of its packet. -/
structure CommitInfo where
  engine : Bool
  beat : Nat
  acct : Nat → Nat             -- accounting length from committed bytes (R330)
  colour : Nat
  headend : Option Nat         -- the headend of a PLE message
  stamp : Option Nat

/-- The commit of the open packet (R303, R307). -/
def Queue.commit (q : Queue) (c : CommitInfo) : Queue :=
  let ws := q.words.drop (q.off q.cptr)
  let p : PacketInfo := ⟨q.cptr.toNat, q.wptr.toNat, c.beat, c.acct (wordBytes ws).length, c.colour, none, 0, 0, 0,
    c.headend, c.stamp⟩
  { q with
    cptr := q.wptr
    tail := if q.deferred then q.tail else q.wptr
    packets := q.packets ++ [p]
    openBy := none
    nPackets := (q.nPackets + 1) % 2 ^ 64
    nWords := (q.nWords + ws.length) % 2 ^ 64
    changed := true }

/-- An ABORT of the open packet within the procedure, where there is one. -/
def Enq.drop (e : Enq) : Enq :=
  if e.q.wptr = e.q.cptr then e
  else { e with q := e.q.abort.countAbort, aborts := e.aborts + 1 }

/-- The word stored, and the packet committed at its L word. -/
def Enq.store (c : CommitInfo) (e : Enq) (w : QWord) : Enq :=
  let v := if w.parOk then w else w.poisoned
  let q := { e.q with wptr := e.q.wptr + 1, words := e.q.words ++ [v], openBy := some (c.engine, c.beat) }
  { e with
    q := if v.last then q.commit c else q
    accepted := e.accepted + 1
    parity := if w.parOk then e.parity else e.parity + 1 }

/-- One word of the procedure of R303. -/
def Enq.word (c : CommitInfo) (e : Enq) (x : WordIn) : Enq :=
  let w := QWord.of x.data x.tag.toNat x.par
  if e.stopped then e
  else if e.q.discarding then (if w.last then { e with q := { e.q with discarding := false } } else e)
  else if !w.valid || (!w.parOk && x.tagBad) then
    let d := e.drop
    { d with q := { d.q with discarding := !w.last }, reason := 2, status := 2, framing := e.framing + 1, stopped := true }
  else if e.q.wptr = e.q.cptr ∧ w.first = false then
    { e with reason := 1, status := 2, framing := e.framing + 1, stopped := true }
  else
    let d := e.drop
    let e := if e.q.wptr ≠ e.q.cptr ∧ w.first = true then { d with reason := 1, framing := e.framing + 1 } else e
    if e.q.limit ≤ (e.q.wptr - e.q.headB).toNat then
      let d := if e.q.wptr = e.q.cptr then e else { e with q := e.q.abort, aborts := e.aborts + 1 }
      { d with
        q := { d.q with discarding := !w.last, nRefused := min (d.q.nRefused + 1) 0xFFFFFFFF, changed := true }
        reason := 4, status := 4, drops := e.drops + 1, stopped := true }
    else e.store c w

/-- The enqueue of a list of words. -/
def Queue.enqueue (q : Queue) (c : CommitInfo) (ws : List WordIn) : Enq :=
  ws.foldl (Enq.word c) ⟨q, 0, 0, 0, 0, 0, 0, 0, false⟩

/-! ### Dequeue (R305, R311, R312) -/

/-- Valid words a DEQ of n returns: from RPTR, never at or past TAIL, up to the first L word with STOP_AT_L. -/
def Queue.readable (q : Queue) (n : Nat) (stopAtL : Bool) : List QWord :=
  let avail := (q.words.drop (q.off q.rptr)).take (min n (q.tail - q.rptr).toNat)
  if stopAtL then
    match avail.findIdx? fun w => w.last with
    | some i => avail.take (i + 1)
    | none => avail
  else avail

/-- Packets a consumer discards while it reads these words, and whether it is discarding after them (R312). -/
def poisonScan : List QWord → Bool → Nat × Bool
  | [], d => (0, d)
  | w :: ws, d =>
    let d := if d && w.first then false else d
    let hit := w.poison && !d
    let (n, d') := poisonScan ws ((d || hit) && !w.last)
    (n + (if hit then 1 else 0), d')

/-- Packets released or passed are forgotten once HEAD has passed their last word. -/
def Queue.forget (q : Queue) : Queue :=
  { q with packets := q.packets.filter fun p =>
      !(decide (q.off (BitVec.ofNat 32 p.stop) = 0)) &&
      Nat.ble (q.off (BitVec.ofNat 32 p.stop)) q.depth }

/-- RELEASE: HEAD ← RPTR; MARK ← RPTR (R302). -/
def Queue.release (q : Queue) : Queue :=
  ({ q with head := q.rptr, mark := q.rptr, words := q.words.drop (q.off q.rptr) } : Queue).forget

/-- FLUSH: the open packet is aborted, then all six pointers stand at WPTR (R321). -/
def Queue.flush (q : Queue) : Queue :=
  let a := if q.wptr = q.cptr then q else q.abort.countAbort
  { a with head := a.wptr, mark := a.wptr, rptr := a.wptr, tail := a.wptr, words := [], packets := [],
           changed := true }

/-- The end of the run of packets bound to beats earlier than m. -/
def endBefore (m : Nat) : List PacketInfo → Word → Word
  | [], t => t
  | p :: ps, t => if p.beat < m then endBefore m ps (BitVec.ofNat 32 p.stop) else t

/-- TAIL_ADVANCE (R307): over committed packets bound to beats earlier than m. -/
def Queue.advance (q : Queue) (m : Nat) : Queue :=
  if q.deferred then
    let ahead := q.packets.filter fun p => Nat.ble (q.off q.tail) (q.off (BitVec.ofNat 32 p.start))
    { q with tail := endBefore m ahead q.tail }
  else q

/-- The committed packet that starts at a word sequence number. -/
def Queue.packetAt (q : Queue) (start : Nat) : Option PacketInfo := q.packets.find? fun p => p.start == start

/-- A packet's words. -/
def Queue.packetWords (q : Queue) (p : PacketInfo) : List QWord :=
  (q.words.drop (q.off (BitVec.ofNat 32 p.start))).take (BitVec.ofNat 32 p.stop - BitVec.ofNat 32 p.start).toNat

/-- Visible packets (R307), oldest first. -/
def Queue.visible (q : Queue) : List PacketInfo :=
  q.packets.filter fun p => Nat.ble (q.off (BitVec.ofNat 32 p.stop)) (q.off q.tail)

/-! ### Spill pages (R296, R299, R310) -/

/-- Spill pages a queue of this LIMIT can need (R310). -/
def pagesFor (limit : Nat) : Nat := if limit ≤ 32 then 0 else (limit - 32 + 223) / 224 + 1

/-- Pages of the Queue spill region. -/
def State.spillPages (s : State) : Nat := s.fld ⟨ENV_REGr_SIZE 1, 0, 13⟩ * 512

/-- The address of a spill page. -/
def State.pageAddr (s : State) (no : Nat) : Nat := s.fld ⟨ENV_REGr_BASE 1, 0, 12⟩ * 2 ^ 20 + 2048 * no

/-- The lowest page number not in use. -/
def firstFree (used : List Nat) (n : Nat) : Option Nat := (List.range n).find? fun i => !used.contains i

namespace Act

/-- Store one queue. -/
def queue (n : Nat) (f : Queue → Queue) : Act :=
  env fun e => { e with queues := e.queues.setD n Queue.unused (f (e.queues.getD n Queue.unused)) }

/-- Write a page's words i to j and its trailer (R299). -/
def writePage (n : Nat) (pg : Page) (old : Nat) (next : Option Nat) : Act := .read fun s =>
  let q := s.queue n
  let a := s.pageAddr pg.no
  let base := q.off (BitVec.ofNat 32 pg.first)
  all [each ((List.range (pg.count - old)).map (· + old)) fun i =>
      match q.words[base + i]? with
      | none => .nop
      | some w => .seq (memBytes (a + 8 * i) (leBytes 8 w.data.toNat)) (memBytes (a + 1792 + i) (leBytes 1 w.tag)),
    memBytes (a + 2016) (leBytes 4 (next.getD 0xFFFFFFFF) ++ leBytes 2 n ++ leBytes 1 pg.count ++ leBytes 1 0 ++
      leBytes 4 pg.first ++ List.replicate 20 0)]

/-- Free the pages that hold nothing after a truncation or lie wholly before HEAD, or all at 32 words or fewer. -/
def pagesFree (n : Nat) : Act := .read fun s =>
  let q := s.queue n
  let live := fun (pg : Page) => Nat.blt 32 q.depth &&
    Nat.blt (q.off (BitVec.ofNat 32 pg.first)) (q.depth - 16)
      || (Nat.blt 32 q.depth && Nat.ble (2 ^ 31) (q.off (BitVec.ofNat 32 pg.first)) &&
        Nat.blt 0 (q.off (BitVec.ofNat 32 (pg.first + pg.count))) &&
        Nat.blt (q.off (BitVec.ofNat 32 (pg.first + pg.count))) (2 ^ 31))
  let gone := q.pages.filter fun pg => !live pg
  when (!gone.isEmpty)
    (.seq (queue n fun q => { q with pages := q.pages.filter live })
      (env fun e => { e with pagesUsed := e.pagesUsed.filter fun k => !(gone.any fun pg => pg.no == k) }))

/-- Words between the head words and the tail words go to pages, linked in order (R296, R299). -/
def pagesFill (n : Nat) : Nat → Act
  | 0 => .nop
  | k + 1 => .read fun s =>
    let q := s.queue n
    let stop := q.depth - 16
    let last := q.pages.getLast?
    let at_ := match last with
      | some pg => q.off (BitVec.ofNat 32 (pg.first + pg.count))
      | none => 16
    when (Nat.blt 32 q.depth && Nat.blt at_ stop)
      (match last with
      | some pg =>
        if pg.count < 224 then
          let pg' := { pg with count := min 224 (pg.count + (stop - at_)) }
          all [queue n fun q => { q with pages := q.pages.dropLast ++ [pg'] },
            writePage n pg' pg.count none, pagesFill n k]
        else match firstFree s.u.env.pagesUsed s.spillPages with
          | none => .nop
          | some no =>
            let pg' : Page := ⟨no, (q.head + BitVec.ofNat 32 at_).toNat, 0⟩
            all [env fun e => { e with pagesUsed := e.pagesUsed ++ [no] },
              queue n fun q => { q with pages := q.pages ++ [pg'] },
              writePage n pg pg.count (some no), pagesFill n k]
      | none => match firstFree s.u.env.pagesUsed s.spillPages with
        | none => .nop
        | some no => all [env fun e => { e with pagesUsed := e.pagesUsed ++ [no] },
            queue n fun q => { q with pages := [⟨no, (q.head + 16).toNat, 0⟩] },
            pagesFill n k])

/-- The pages follow the queue, and ENV_POOL the pages (R310, R318). -/
def pagesFollow (n : Nat) : Act :=
  all [pagesFree n, .read fun s => pagesFill n (2 * ((s.queue n).depth / 224) + 6),
    .read fun s => setF ⟨ENV_POOL, 0, 21⟩ (s.spillPages - s.u.env.pagesUsed.length)]

end Act

/-! ### Watermarks, ballast pins, PAUSE (R313–R315, R463) -/

/-- The state of flow-control group g: the OR of its members' FC (R314). -/
def State.groupState (s : State) (g : Nat) : Bool :=
  s.u.env.queues.any fun e => e.2.fcEn && e.2.group == g && e.2.fc

/-- One port's unit. -/
def Eth.port (e : Eth) : Nat → EthUnit
  | 0 => e.p0
  | _ => e.p1

def EthPort.ofIdx : Nat → EthPort
  | 0 => .p0
  | _ => .p1

/-- Bytes waiting in the FIFO that holds frames received on port p: the other port's FIFO (R463). -/
def State.ptBytes (s : State) (p : Nat) : Nat :=
  ((s.u.eth.port (1 - p)).fifo.map fun f => f.bytes.length).sum

/-- The modes in which the unit sends its own traffic on the ports (R453). -/
def Mode.sendsUplink : Mode → Bool
  | .solo | .doze | .active | .takeover | .reclaim => true
  | _ => false

/-- The modes in which the bridge uses its fixed defaults (R453). -/
def Mode.bridgeDefaults : Mode → Bool
  | .rom | .recovery | .commission => true
  | _ => false

/-- Whether pass-through PAUSE is on (R453, R467). -/
def State.ptPause (s : State) (p : Nat) : Bool := s.mode.bridgeDefaults || s.bit (ETH_Pp_PAUSE_PT_PAUSE p)

/-- Whether the port may assert PAUSE at all. -/
def State.pauseTxEn (s : State) (p : Nat) : Bool := s.mode.bridgeDefaults || s.bit (ETH_Pp_PAUSE_TX_EN p)

/-- The PAUSE condition of R463 for a port whose pass-through part holds or not. -/
def State.pauseCond (s : State) (p : Nat) (pt : Bool) : Bool :=
  s.pauseTxEn p && ((pt && s.ptPause p) ||
    (s.mode.sendsUplink && (List.range 8).any fun g =>
      Nat.testBit (s.fld (ETH_Pp_PAUSE_GROUPS p)) g && s.groupState g))

namespace Act

/-- One port's unit updated. -/
def ethUnit (p : Nat) (f : EthUnit → EthUnit) : Act :=
  eth fun e => if p = 0 then { e with p0 := f e.p0 } else { e with p1 := f e.p1 }

/-- PAUSE_ASSERT (R463): the condition of port p is evaluated; an edge queues a PAUSE frame. -/
def pauseEval (p : Nat) : Act := .read fun s =>
  let held := (s.u.eth.port p).ptHeld
  let bytes := s.ptBytes p
  let held' := if 49152 ≤ bytes then true else if bytes ≤ 16384 then false else held
  let was := s.bit (ETH_STATUS_Pp_PAUSING (EthPort.ofIdx p))
  let now := s.pauseCond p held'
  all [when (held != held') (ethUnit p fun u => { u with ptHeld := held' }),
    when (was != now)
      (all [setB (ETH_STATUS_Pp_PAUSING (EthPort.ofIdx p)) now,
        ethUnit p fun u => { u with pauseNext := some (if now then s.fld (ETH_Pp_PAUSE_QUANTA p) else 0) },
        when now (raiseOnce 90 p (leBytes 1 p))])]

/-- The level a group's pin is driven to, or left at while its hold time runs (R314). In HOLD enabled pins are driven
asserted (R315). -/
def fcPins : Act := .read fun s =>
  let driven := s.mode.runs || decide (s.mode = .hold)
  each (List.range 8) fun g => .read fun t =>
    let want := if decide (t.mode = .hold) then true else s.groupState g
    let ball := Nat.blt g 4 || t.u.boot.gpio.getD (4 + g) 0 == 0
    let en := driven && ball && Nat.testBit (t.fld ENV_FC_CTL_EN) g
    let shown := Nat.testBit (t.fld ENV_FC_STATE_ASSERTED) g
    let held := t.u.env.fcHold.any fun h => h.1 == g
    let set := fun (b : Bool) => setF ⟨ENV_FC_STATE, 8 + g, 1⟩ (if b then 1 else 0)
    if !en then .seq (when shown (set false)) (env fun e => { e with fcHold := e.fcHold.filter fun h => !(h.1 == g) })
    else when (want != shown && !held)
      (all [set want,
        when (Nat.blt 0 (t.fld ENV_FC_CTL_MIN_HOLD_US)) (env fun e => { e with fcHold := e.fcHold ++ [(g, want)] }),
        when want (raiseOnce 60 g (leBytes 1 g))])

/-- The group states, pins and PAUSE follow the queues (R314, R463). -/
def fcFollow : Act :=
  all [.read fun s => setF ENV_FC_STATE_GROUP
      ((List.range 8).foldl (fun n g => if s.groupState g then n + 2 ^ g else n) 0),
    fcPins, pauseEval 0, pauseEval 1]

/-- A commit, ABORT, RELEASE or flush enters the store-update log with the pointers it leaves (R309, R489). -/
def queueLog (n op : Nat) : Act := .read fun s =>
  let q := s.queue n
  logUpdate ([0x12] ++ leBytes 2 n ++ leBytes 1 op ++ leBytes 4 q.head.toNat ++ leBytes 4 q.cptr.toNat ++
    leBytes 4 q.wptr.toNat)

/-- A packet committed to an uplink class queue enters the uplink output stream (R489). -/
def uplinkLog (n : Nat) (p : PacketInfo) : Act := .read fun s =>
  let q := s.queue n
  let bs := wordBytes (q.packetWords p)
  when (q.consumer == 5 || q.consumer == 6)
    (logUplink (leBytes 2 n ++ leBytes 2 bs.length ++ leBytes 1 p.colour ++ bs))

/-- What every operation on a queue ends with: FC is judged, the pages and the flow control follow (R296, R313). -/
def queueDone (n : Nat) : Act := all [queue n Queue.judge, pagesFollow n, fcFollow]

/-- The counters and events of an enqueue (R303, R311). -/
def enqCounts (n : Nat) (e : Enq) : Act :=
  all [satBy Reg.ENV_FRAMING e.framing, satBy Reg.ENV_DROP e.drops, satBy Reg.ENV_PARITY e.parity,
    wrapBy Reg.ENV_ABORTS e.aborts,
    when (Nat.blt 0 e.parity) (faultClass 4),
    each (List.range e.framing) fun _ => raise 58 (leBytes 2 n ++ leBytes 1 e.reason),
    when (Nat.blt 0 e.drops) (raiseOnce 59 n (leBytes 2 n)),
    each (List.range e.parity) fun _ => raise 57 (leBytes 2 n)]

/-- Enqueue words on queue n by a producer (R303); `k` gets the outcome. -/
def enqueue (n : Nat) (c : CommitInfo) (ws : List WordIn) (k : Enq → Act) : Act := .read fun s =>
  let e := (s.queue n).enqueue c ws
  all [queue n fun _ => e.q,
    each (e.q.packets.drop (s.queue n).packets.length) fun p => .seq (queueLog n 1) (uplinkLog n p),
    enqCounts n e, queueDone n, k e]

/-- A hardware port enqueues one whole packet; `k` is told whether it was committed. -/
def enqPacket (n : Nat) (c : CommitInfo) (bs : List Byte) (k : Bool → Act) : Act :=
  enqueue n c ((packetWords bs).map fun w => ⟨w.data, BitVec.ofNat 8 w.tag, w.par, false⟩)
    fun e => k (Nat.beq e.drops 0)

/-- RELEASE on queue n (R302). -/
def releaseQueue (n : Nat) : Act := all [queue n Queue.release, queueLog n 6, queueDone n]

/-- The consumer moves RPTR past a packet and releases it. -/
def releasePacket (n start : Nat) : Act := .read fun s =>
  match (s.queue n).packetAt start with
  | none => .nop
  | some p => .seq (queue n fun q =>
      let past := BitVec.ofNat 32 p.stop
      { q with rptr := if q.off q.rptr < q.off past then past else q.rptr }) (releaseQueue n)

/-- The poisoned packets a consumer meets (R312). -/
def poisonCounts (n k : Nat) : Act :=
  when (Nat.blt 0 k) (all [satBy Reg.ENV_POISON_READ k,
    queue n fun q => { q with nPoisoned := min (q.nPoisoned + k) 0xFFFFFFFF, changed := true },
    raiseOnce 62 0 (leBytes 2 n)])

/-- The statistics record of a queue (R316). -/
def qstats (n : Nat) : Act := .read fun s =>
  let q := s.queue n
  .seq (memBytes ((s.reg ENV_QSTATS_BASE).toNat + 32 * n)
      (leBytes 8 q.nPackets ++ leBytes 8 q.nWords ++ leBytes 4 q.nRefused ++ leBytes 4 q.nAborted ++
        leBytes 4 q.nPoisoned ++ leBytes 4 s.workBeat))
    (queue n fun q => { q with changed := false })

/-- QSTATS_WRITE (R316). -/
def qstatsAll : Act := .read fun s =>
  each (s.u.env.queues.filter fun e => e.2.changed && !(e.2.producer == 0)) fun e => qstats e.1

/-- OPEN_PACKET_ABORT (R306): open packets of engine ports bound to the beat are aborted and counted. -/
def abortOpen (beat : Nat) : Act := .read fun s =>
  each (s.u.env.queues.filter fun e => e.2.openBy == some (true, beat)) fun e =>
    all [queue e.1 fun q => q.abort.countAbort, wrap Reg.ENV_ABORTS, queueLog e.1 2, queueDone e.1]

/-- TAIL_ADVANCE and the heads of R303 at the boundary that starts beat m. -/
def queuesBoundary (m : Nat) : Act :=
  env fun e => { e with queues := e.queues.map fun x => (x.1, { (x.2.advance m) with headB := x.2.head }) }

end Act

end Sys2Proof.Machine
end

