-- ==== Sys2Proof/Machine/SchedOps.lean ====
section
/-!
DEFINITION. Machine/SchedOps.lean: fair queueing by virtual finish time (R324–R329), the credit shaper (R330–R333), the
policers (R334–R337), and the selection of an uplink port (R331). The air planner stands in Machine/Planner.lean.
-/

namespace Sys2Proof.Machine

open Sys2Proof Sys2Proof.Reg

/-- later(a, b) of R326 over 48 bits. -/
def later (a b : Nat) : Nat :=
  let d := (a + 2 ^ 48 - b % 2 ^ 48) % 2 ^ 48
  if 1 ≤ d ∧ d < 2 ^ 47 then a else b

/-- a precedes b (R326). -/
def precedes (a b : Nat) : Bool := !(a == b) && later a b == b

/-- The queues a port consumes, in rising number; the first eight are its uplink class queues in class order (log 30). -/
def State.portQueues (s : State) (code : Nat) : List Nat :=
  (s.u.env.queues.filter fun e => e.2.consumer == code && !(e.2.producer == 0)).map Prod.fst

/-- The uplink class queue of class c on port p. -/
def State.classQueue (s : State) (p c : Nat) : Option Nat := (s.portQueues (5 + p))[c]?

/-- The queue of a flow of a domain: 0 P0, 1 P1, 2 Air S, 3 Air W (R324, R339). -/
def State.flowQueue (s : State) (d f : Nat) : Option Nat :=
  if d < 2 then (if f < 8 then s.classQueue d f else none)
  else
    let p := if d = 2 then RfPort.s else RfPort.w
    if s.fld (SCH_AIRx_Fq_WEIGHT p f) = 0 ∨ 4 < s.fld (SCH_AIRx_Fq_CLASS p f) then none
    else some (s.fld (SCH_AIRx_Fq_QUEUE p f))

/-- A flow's weight. -/
def State.flowWeight (s : State) (d f : Nat) : Nat :=
  if d < 2 then max 1 (s.fld (SCH_ULk_CFG_WEIGHT (8 * d + f)))
  else max 1 (s.fld (SCH_AIRx_Fq_WEIGHT (if d = 2 then .s else .w) f))

/-- Flow numbers of a domain. -/
def flowsOf (d : Nat) : List Nat := List.range (if d < 2 then 8 else 64)

/-- Flow f of domain d. -/
def State.flow (s : State) (d f : Nat) : Flow := s.u.sch.flows.getD (64 * d + f) Flow.idle

/-- V of domain d. -/
def State.virt (s : State) (d : Nat) : Nat := s.u.sch.v.getD d 0

/-- The oldest visible packet of a flow that has not been selected: its scheduling head (R325). -/
def State.flowHead (s : State) (d f : Nat) : Option PacketInfo :=
  match s.flowQueue d f with
  | none => none
  | some n => ((s.queue n).visible).find? fun p =>
    !(s.flow d f).selected.contains p.start && !(s.flow d f).finished.contains p.start

/-- cost(p) of R325. -/
def costOf (d : Nat) (p : PacketInfo) : Nat := if d < 2 then p.acct else p.length

/-- The finish time of a flow's head, where it is stamped. -/
def Flow.stampOf (w : Flow) (start : Nat) : Option Nat := (w.stamps.find? fun x => x.1 == start).map (·.2)

namespace Act

/-- One flow updated. -/
def flow (d f : Nat) (g : Flow → Flow) : Act :=
  sch fun x => { x with flows := x.flows.setD (64 * d + f) Flow.idle (g (x.flows.getD (64 * d + f) Flow.idle)) }

/-- stamp of R325 for a flow's head, where it has none; `backlogged` when the flow had a head just before. -/
def stamp (backlogged : Bool) (d f : Nat) : Act := .read fun s =>
  match s.flowHead d f with
  | none => .nop
  | some p =>
    let w := s.flow d f
    when (w.stampOf p.start).isNone
      (let from_ := if backlogged then w.fLast else later (s.virt d) w.fLast
      let fin := (from_ + costOf d p * 65536 / s.flowWeight d f) % 2 ^ 48
      flow d f fun w => { w with stamps := w.stamps ++ [(p.start, fin)], fLast := fin })

/-- Every flow whose queue now shows a head is stamped (R325). -/
def stampAll : Act := each (List.range 4) fun d => each (flowsOf d) (stamp false d)

/-- A head is selected (R328): V moves on, and the next visible packet becomes the head, backlogged. -/
def selectHead (d f start fin : Nat) : Act :=
  all [sch fun x => { x with v := x.v.setD d 0 (later (x.v.getD d 0) fin) },
    flow d f fun w => { w with selected := w.selected ++ [start] },
    stamp true d f]

/-- A selected packet goes back to the head of its queue and keeps its F (R329). -/
def returnPacket (d f start : Nat) : Act :=
  flow d f fun w => { w with selected := w.selected.filter fun x => !(x == start) }

/-- A packet that leaves its queue takes its stamp with it. -/
def forgetPacket (d f start : Nat) : Act :=
  flow d f fun w => { w with
    selected := w.selected.filter fun x => !(x == start)
    finished := w.finished.filter fun x => !(x == start)
    stamps := w.stamps.filter fun x => !(x.1 == start) }

/-- F_LAST_CATCHUP (R327). -/
def fLastCatchup : Act := .read fun s =>
  each (List.range 4) fun d => each (flowsOf d) fun f =>
    when ((s.flowHead d f).isNone && !(s.flow d f == Flow.idle && s.virt d == 0))
      (flow d f fun w => { w with fLast := later (s.virt d) w.fLast })

/-- SCH_STATUS.REBUILD of a domain. -/
def rebuildBit (d : Nat) (b : Bool) : Act := setF ⟨SCH_STATUS, 1 + d, 1⟩ (if b then 1 else 0)

end Act

/-- A domain awaits rebuild (R353). -/
def State.rebuilding (s : State) (d : Nat) : Bool := Nat.testBit (s.fld SCH_STATUS_REBUILD) d

/-- DOMAIN_REBUILD (R353): V, F_last and credits are zeroed and the heads stamped again in flow order. -/
def Act.domainRebuild : Act := .read fun s =>
  .each (List.range 4) fun d => .when (s.rebuilding d)
    (.all [Act.sch fun x => { x with
        v := x.v.setD d 0 0
        credit := x.credit.filter fun e => !(e.1 / 8 == d)
        robin := x.robin.setD d 0 0 },
      .each (flowsOf d) fun f => .seq
        (Act.flow d f fun w => { w with fLast := 0, stamps := w.stamps.filter fun x => w.selected.contains x.1 })
        (Act.stamp false d f),
      Act.rebuildBit d false])

/-! ### Credits (R332) -/

/-- The credit of class k, milli-bits. -/
def State.credit (s : State) (k : Nat) : Int := s.u.sch.credit.getD k 0

def creditMax : Int := 16384000

/-- What a microsecond does to a shaped class's credit. -/
def creditTick (c slope : Int) (busy : Bool) : Int :=
  if busy then min (c + slope) creditMax else if c < 0 then min (c + slope) 0 else 0

/-- A class is transmitting: the port sends a packet of its queue. -/
def State.classSending (s : State) (k : Nat) : Bool :=
  match (s.u.eth.port (k / 8)).sending with
  | some (.packet q _ _) => decide (s.classQueue (k / 8) (k % 8) = some q)
  | _ => false

/-- A class has a visible packet. -/
def State.classVisible (s : State) (k : Nat) : Bool := (s.flowHead (k / 8) (k % 8)).isSome

/-- SHAPER_TICK for every shaped class. -/
def Act.creditTicks : Act := .read fun s =>
  .each (List.range 16) fun k => .when (s.bit (SCH_ULk_CFG_SHAPE_EN k))
    (let busy := s.classSending k || s.classVisible k
    let c := creditTick (s.credit k) (s.fld (SCH_ULk_SLOPE_IDLE_SLOPE k)) busy
    Act.sch fun x => { x with credit := x.credit.setD k 0 c })

/-! ### Selection (R328, R331, R353) -/

/-- A class may be selected: it has a head and is unshaped, has credit, or its domain awaits rebuild. -/
def State.classEligible (s : State) (k : Nat) : Bool :=
  s.classVisible k &&
  (!s.bit (SCH_ULk_CFG_SHAPE_EN k) || decide (0 ≤ s.credit k) || s.rebuilding (k / 8))

/-- The earliest of stamped flows: F precedes, the lower flow on equal F (R328). -/
def earliest : List (Nat × Nat) → Option (Nat × Nat)
  | [] => none
  | (f, t) :: l => match earliest l with
    | none => some (f, t)
    | some (g, u) => if t = u then some (if f ≤ g then (f, t) else (g, u)) else if precedes u t then some (g, u)
      else some (f, t)

/-- Round-robin choice among flows from a position on (R353). -/
def nextRobin (pos : Nat) (l : List Nat) : Option Nat :=
  match l.find? fun f => Nat.ble pos f with
  | some f => some f
  | none => l.head?

/-- The flow an uplink port selects, with its finish time. -/
def State.uplinkChoice (s : State) (p : Nat) : Option (Nat × Nat) :=
  let fs := (List.range 8).filter fun c => s.classEligible (8 * p + c)
  let fin := fun c => ((s.flowHead p c).bind fun h => (s.flow p c).stampOf h.start).getD 0
  if s.rebuilding p then (nextRobin (s.u.sch.robin.getD p 0) fs).map fun c => (c, fin c)
  else earliest (fs.map fun c => (c, fin c))

/-! ### Policers (R334, R335) -/

/-- Colours: 0 GREEN, 1 YELLOW, 2 RED. -/
def colourOf (aware : Bool) (tc tp b pre : Nat) : Nat :=
  let pc := if aware then pre else 0
  if pc = 2 ∨ tp < b then 2 else if pc = 1 ∨ tc < b then 1 else 0

namespace Act

/-- POLICER_REFILL (R334, R360): at each boundary, a policer enabled since the last one filled to full. -/
def policerRefill : Act := .read fun s =>
  each (List.range 16) fun k => when (s.bit (SCH_POLk_CTL_EN k))
    (let cbs := 8 * s.fld (SCH_POLk_CBS_CBS k)
    let pbs := 8 * s.fld (SCH_POLk_PBS_PBS k)
    let full := s.u.sch.polOn.contains k
    sch fun x => { x with
      tc := x.tc.setD k 0 (if full then cbs else min (x.tc.getD k 0 + s.fld (SCH_POLk_CIR_CIR k)) cbs)
      tp := x.tp.setD k 0 (if full then pbs else min (x.tp.getD k 0 + s.fld (SCH_POLk_PIR_PIR k)) pbs)
      polOn := x.polOn.filter fun j => !(j == k) })

/-- POLICER_COLOUR: the colour of a packet of accounting length a offered to class k, tokens taken (R334); a shadow gives
the colours of the record (R338). -/
def police (k a pre : Nat) (next : Nat → Act) : Act := .read fun s =>
  if !s.bit (SCH_POLk_CTL_EN k) then next 0
  else
    let b := 8 * a
    let given := if s.shadows then s.u.pair.colours.find? fun x => x.1 == k else none
    let c : Nat := match given with
      | some x => x.2
      | none => colourOf (s.bit (SCH_POLk_CTL_AWARE k)) (s.u.sch.tc.getD k 0) (s.u.sch.tp.getD k 0) b pre
    all [recordInput 0x0B,
      when given.isSome (pair fun p => { p with colours := dropFirst (fun x => x.1 == k) p.colours }),
      sch fun x => { x with
        tc := if c = 0 then x.tc.setD k 0 (x.tc.getD k 0 - b) else x.tc
        tp := if c = 2 then x.tp else x.tp.setD k 0 (x.tp.getD k 0 - b) },
      if c = 0 then wrap (SCH_POLk_GREEN k) else if c = 1 then wrap (SCH_POLk_YELLOW k) else sat (SCH_POLk_RED k),
      next c]

/-- A packet of `bs` offered to the uplink class queue of class c on port p: policed, then under the drop rule
(R304, R334, R335). `headend` is none for a bridged frame; `k` is told whether it was committed. -/
def uplinkOffer (p c beat : Nat) (headend stampAt : Option Nat) (pre : Nat) (bs : List Byte) (k : Bool → Act) : Act :=
  .read fun s =>
  match s.classQueue p c with
  | none => k false
  | some n =>
    let a := bs.length + s.fld (if headend.isSome then SCH_PORTp_OH_PLE p else SCH_PORTp_OH_BRIDGE p)
    police (8 * p + c) a pre fun colour => .read fun t =>
      let q := t.queue n
      if colour = 2 then k false
      else if colour == 1 && t.bit (SCH_POLk_CTL_YELLOW_HI (8 * p + c)) && !(q.hi == 0) && Nat.ble q.hi q.depth then
        .seq (sat (SCH_POLk_YDROP (8 * p + c))) (k false)
      else enqPacket n ⟨false, beat, fun _ => a, colour, headend, stampAt⟩ bs fun ok =>
        .seq (stamp false p c) (k ok)

end Act

end Sys2Proof.Machine
end

