-- ==== Sys2Proof/Machine/Tables.lean ====
section
/-!
DEFINITION. Machine/Tables.lean: the forwarding tables (R252–R272): entries, hashing, insertion and eviction, learning,
ageing, the move rule, digests; the route walk (R273); and headend encapsulation (R269, R275–R277).
-/

namespace Sys2Proof.Machine

open Sys2Proof Sys2Proof.Reg

/-- Big-endian bytes. -/
def beBytes (n v : Nat) : List Byte := (leBytes n v).reverse

def beValue (l : List Byte) : Nat := leValue l.reverse

/-- A table entry (R254, R255). -/
abbrev Entry := BitVec 128

/-- A field of an entry. -/
def Entry.fld (e : Entry) (lo w : Nat) : Nat := e.toNat / 2 ^ lo % 2 ^ w

/-- An entry with a field replaced. -/
def Entry.set (e : Entry) (lo w v : Nat) : Entry :=
  BitVec.ofNat 128 (e.toNat % 2 ^ lo + v % 2 ^ w * 2 ^ lo + e.toNat / 2 ^ (lo + w) * 2 ^ (lo + w))

/-- FP0 and FP1 hold AIR entries, FP2 and FP3 NET entries (R252). -/
def isAir (n : Nat) : Bool := Nat.blt n 2

def tableBuckets (n : Nat) : Nat := if isAir n then 65536 else 4096
def tableBlocks (n : Nat) : Nat := if isAir n then 256 else 16

/-- Width of a table's key: NSA, or MAC and VID. -/
def keyWidth (n : Nat) : Nat := if isAir n then 24 else 60

def entryKey (n : Nat) (e : Entry) : Nat := e.fld 0 (keyWidth n)
def entryValid (n : Nat) (e : Entry) : Bool := Nat.beq (e.fld (keyWidth n) 1) 1
def entryStatic (n : Nat) (e : Entry) : Bool := Nat.beq (e.fld (keyWidth n + 1) 1) 1
def entryPend (n : Nat) (e : Entry) : Bool := isAir n && Nat.beq (e.fld 26 1) 1
def entryStamp (e : Entry) : Nat := e.fld 72 24
def withStamp (e : Entry) (v : Nat) : Entry := e.set 72 24 v
def entryMoving (e : Entry) : Bool := Nat.beq (e.fld 62 1) 1

/-- The key bytes of R258. A MAC stands in bits [47:0] with its first octet highest
(log 31). -/
def keyBytes (n key : Nat) : List Byte :=
  if isAir n then leBytes 3 key else leBytes 2 (key / 2 ^ 48) ++ beBytes 6 key

/-- The bucket of a key under a seed (R258). -/
def bucketWith (seed : Word) (n key : Nat) : Nat := (crc32From seed (keyBytes n key)).toNat % tableBuckets n

/-- Reserved bits of an entry (R254, R255). -/
def reservedSet (n : Nat) (e : Entry) : Bool :=
  if isAir n then !(e.fld 59 1 == 0) || !(e.fld 68 4 == 0) || !(e.fld 112 16 == 0)
  else !(e.fld 63 1 == 0) || !(e.fld 68 4 == 0)

/-- AGE_NOW of a beat (R256). -/
def ageNow (beat : Nat) : Nat := beat / 1024 % 2 ^ 24

def ageOf (now : Nat) (e : Entry) : Nat := (now + 2 ^ 24 - entryStamp e) % 2 ^ 24

/-- The slot's 128 bits. -/
def State.entry (s : State) (n slot : Nat) : Entry := s.u.fwd.tables.getD (n * 2 ^ 18 + slot) 0

def State.bucket (s : State) (n key : Nat) : Nat := bucketWith (s.reg (FWD_TBLn_SEED n)) n key

/-- The ways of a bucket. -/
def ways : List Nat := [0, 1, 2, 3]

/-- The way that holds a key, valid. -/
def State.wayOf (s : State) (n key : Nat) : Option Nat :=
  ways.find? fun w =>
    let e := s.entry n (4 * s.bucket n key + w)
    entryValid n e && entryKey n e == key

/-- The valid entry of a key. -/
def State.lookupEntry (s : State) (n key : Nat) : Option Entry :=
  (s.wayOf n key).map fun w => s.entry n (4 * s.bucket n key + w)

/-- Table statuses (R280). -/
def tblOk : Nat := 0
def tblNotFound : Nat := 1
def tblEvicted : Nat := 2
def tblNoSpace : Nat := 3
def tblStamp : Nat := 4
def tblPaired : Nat := 5
def tblBadOp : Nat := 6
def tblNotRunning : Nat := 7

/-- The element of a list with the largest measure, the first on ties. -/
def largest (f : Nat → Nat) : List Nat → Option Nat
  | [] => none
  | a :: l => match largest f l with
    | none => some a
    | some b => if f a < f b then some b else some a

namespace Act

/-- Store a slot. -/
def entry (n slot : Nat) (e : Entry) : Act :=
  fwd fun x => { x with tables := x.tables.setD (n * 2 ^ 18 + slot) 0 e }

/-- FWD_TBLn_COUNT and NEAR_FULL follow the table (R282, R284). -/
def tableCount (n : Nat) : Act := .read fun s =>
  let es := (s.u.fwd.tables.filter fun e => e.1 / 2 ^ 18 == n && entryValid n e.2).map Prod.snd
  let v := es.length
  all [setF ⟨FWD_TBLn_COUNT n, 0, 19⟩ v,
    setF ⟨FWD_TBLn_COUNT n, 19, 13⟩ (min (es.filter (entryStatic n)).length 8191),
    setF ⟨FWD_STATUS, 8 + n, 1⟩ (if 4 * tableBuckets n * 9 ≤ v * 10 then 1 else 0)]

/-- Insert an entry under R263; `k` gets STATUS, way, bucket and the evicted entry. -/
def tableInsert (n : Nat) (e : Entry) (k : Nat → Nat → Nat → Entry → Act) : Act := .read fun s =>
  let b := s.bucket n (entryKey n e)
  let at_ := fun w => s.entry n (4 * b + w)
  let put := fun w => .seq (entry n (4 * b + w) e) (tableCount n)
  match s.wayOf n (entryKey n e) with
  | some w => .seq (put w) (k tblOk w b 0)
  | none =>
    match ways.find? fun w => !entryValid n (at_ w) with
    | some w => .seq (put w) (k tblOk w b 0)
    | none =>
      let free := ways.filter fun w => !entryStatic n (at_ w)
      let quiet := free.filter fun w => !entryPend n (at_ w)
      let cand := if quiet.isEmpty then free else quiet
      let now := ageNow s.workBeat
      let lfsr := s.u.fwd.lfsr.getD n 0
      let random := s.bit (FWD_TBLn_CFG_EVICT n)
      let victim := if random then cand[lfsr % cand.length]? else largest (fun w => ageOf now (at_ w)) cand
      match victim with
      | none => all [sat (FWD_TBLn_NOSPACE n), raiseOnce 48 n (leBytes 1 n), k tblNoSpace 0 b 0]
      | some w => all [when random (fwd fun x => { x with lfsr := x.lfsr.setD n 0 (Air.lfsrStep lfsr) }),
          sat (FWD_TBLn_EVICT n), put w, k tblEvicted w b (at_ w)]

/-- Clear VALID of a key's entry; `k` is told the status, way, bucket and the entry as found. -/
def tableDelete (n key : Nat) (stamp : Option Nat) (k : Nat → Nat → Nat → Entry → Act) : Act := .read fun s =>
  let b := s.bucket n key
  match s.wayOf n key with
  | none => k tblNotFound 0 b 0
  | some w =>
    let e := s.entry n (4 * b + w)
    if (match stamp with | none => false | some t => !(t == entryStamp e)) then k tblStamp w b e
    else all [entry n (4 * b + w) (e.set (keyWidth n) 1 0), tableCount n, k tblOk w b e]

/-- Replace the entry of a key that the table holds. -/
def tableUpdate (n key : Nat) (f : Entry → Entry) : Act := .read fun s =>
  match s.wayOf n key with
  | none => .nop
  | some w => entry n (4 * s.bucket n key + w) (f (s.entry n (4 * s.bucket n key + w)))

/-- Every non-static entry of a table is deleted (R279). -/
def tableFlush (n : Nat) : Act :=
  .seq (fwd fun x => { x with tables := x.tables.map fun e =>
    if e.1 / 2 ^ 18 == n && entryValid n e.2 && !entryStatic n e.2 then (e.1, Entry.set e.2 (keyWidth n) 1 0) else e })
    (tableCount n)

/-- A lookup met an uncorrectable error (R272): a non-static entry is invalidated, a static one rewritten. -/
def tableEcc (n slot : Nat) : Act := .read fun s =>
  let e := s.entry n slot
  all [when (entryValid n e && !entryStatic n e) (.seq (entry n slot (e.set (keyWidth n) 1 0)) (tableCount n)),
    when (entryValid n e && entryStatic n e)
      (match s.u.boot.statics.find? fun x => x.1 == n && entryKey n (BitVec.ofNat 128 x.2) == entryKey n e with
      | none => .nop
      | some x => entry n slot (BitVec.ofNat 128 x.2)),
    sat (FWD_TBLn_ECC_UNC n), raise 50 (leBytes 1 n ++ leBytes 3 slot)]

/-- The PEND bit of a node's AIR entries (R262). -/
def pendBits (nsa : Nat) (on : Bool) : Act :=
  .seq (tableUpdate 0 nsa fun e => e.set 26 1 (if on then 1 else 0))
    (tableUpdate 1 nsa fun e => e.set 26 1 (if on then 1 else 0))

end Act

/-! ### Learning (R260, R268) -/

/-- LINK_DBM of an RSSI in dBm × 4: −RSSI in 0.5 dB units, 0–255 (R254). -/
def linkDbm (rssi : Int) : Nat := min 255 (Int.toNat (-rssi) / 2)

namespace Act

/-- learn of R260 for one NSA, heard on table n. -/
def learnAir (n nsa : Nat) (direct : Bool) (hop decoder link beat : Nat) : Act := .read fun s =>
  let fill := fun (e : Entry) =>
    (((e.set 27 1 (if direct then 1 else 0)).set 28 24 hop).set 52 7 decoder).set 60 8 link
  .seq (wrap (FWD_TBLn_LOOKUP n))
    (match s.lookupEntry n nsa with
    | some e =>
      let take := !entryStatic n e && (direct || e.fld 27 1 == 0)
      all [tableUpdate n nsa fun e => withStamp (if take then fill e else e) (ageNow beat),
        wrap (FWD_TBLn_HIT n), wrap (FWD_TBLn_LEARN n)]
    | none => when (s.bit (FWD_TBLn_CFG_LEARN_EN n))
      (let e : Entry := BitVec.ofNat 128 (nsa + 2 ^ 24 +
          (if s.recValid nsa && Nat.blt 0 (s.node nsa Node.PEND_COUNT) then 2 ^ 26 else 0))
      tableInsert n (withStamp (fill e) (ageNow beat)) fun st _ _ _ =>
        when (!(st == tblNoSpace)) (wrap (FWD_TBLn_LEARN n))))

/-- A normal NET learn: a held key refreshed, a new one inserted (R264). `moving` is what MOVING becomes. -/
def learnNet (n key headend beat : Nat) (moving : Bool) : Act := .read fun s =>
  let fill := fun (e : Entry) =>
    let e := ((e.set 64 4 headend).set 62 1 (if moving then 1 else 0))
    if moving then e.set 96 32 beat else e
  .seq (wrap (FWD_TBLn_LOOKUP n))
    (match s.lookupEntry n key with
    | some e => all [tableUpdate n key fun _ => withStamp (if entryStatic n e then e else fill e) (ageNow beat),
        wrap (FWD_TBLn_HIT n), wrap (FWD_TBLn_LEARN n)]
    | none => when (s.bit (FWD_TBLn_CFG_LEARN_EN n))
      (tableInsert n (withStamp (fill (BitVec.ofNat 128 (key + 2 ^ 60))) (ageNow beat)) fun st _ _ _ =>
        when (!(st == tblNoSpace)) (wrap (FWD_TBLn_LEARN n))))

/-- NET_LEARN with the move rule (R264, R268): a PLE message from a configured headend on port p. -/
def netLearn (p mac vid headend beat : Nat) : Act := .read fun s =>
  let n := 2 + p
  let o := 3 - p
  let key := mac + 2 ^ 48 * vid
  let mine := s.lookupEntry n key
  match s.lookupEntry o key with
  | none => learnNet n key headend beat false
  | some other =>
    if mine.isSome && entryMoving other then
      .seq (tableUpdate n key fun e => withStamp e (ageNow beat)) (tableUpdate o key fun e => e.set 96 32 beat)
    else if entryStatic o other then .nop
    else match mine with
      | some e =>
        if entryMoving e then
          .seq (tableUpdate n key fun e => withStamp e (ageNow beat))
            (when (Nat.ble 2 ((beat + 2 ^ 32 - e.fld 96 32) % 2 ^ 32))
              (all [tableDelete o key (some (entryStamp other)) fun _ _ _ _ => .nop,
                tableUpdate n key fun e => e.set 62 1 0,
                wrap FWD_MOVES,
                raise 52 (leBytes 6 mac ++ leBytes 2 vid ++ leBytes 1 p)]))
        else learnNet n key headend beat true
      | none => learnNet n key headend beat true

end Act

/-! ### Digests and ageing (R265, R270) -/

/-- The bytes a block's digest runs over. -/
def State.blockBytes (s : State) (n blk : Nat) : List Byte :=
  (List.range 1024).flatMap fun i =>
    let e := s.entry n (1024 * blk + i)
    if entryValid n e then leBytes 16 e.toNat else List.replicate 16 0

/-- The digest of a block (R270). -/
def State.blockDigest (s : State) (n blk : Nat) : Nat := (crc64 (s.blockBytes n blk)).toNat

/-- The entries a sweep of block blk finds expired, in slot order (R265). -/
def State.expiredOf (s : State) (n blk now : Nat) : List Entry :=
  let limit := s.fld (FWD_TBLn_CFG_AGE_LIMIT n)
  if limit = 0 then []
  else ((s.u.fwd.tables.filter fun e => e.1 / 2 ^ 18 == n && e.1 % 2 ^ 18 / 1024 == blk).map Prod.snd).filter fun e =>
    entryValid n e && !entryStatic n e && Nat.ble limit (ageOf now e)

/-- AGEING_SWEEP (R265, R266): the read phase of the four tables for beat n. -/
def Act.sweepRead (beat : Nat) : Act := .read fun s =>
  let ex := if decide (s.mode = .standby) then [] else
    (List.range 4).flatMap fun n => (s.expiredOf n (beat % tableBlocks n) (ageNow beat)).map fun e => (n, e)
  .seq (Act.fwd fun x => { x with
      digests := (List.range 4).map fun n => s.blockDigest n (beat % tableBlocks n)
      expired := ex
      swept := [] })
    (Act.setB FWD_STATUS_SWEEP true)

/-! ### The route walk (R273, R274) -/

/-- How a walk ends. -/
structure Walk where
  reason : Nat                 -- 0 OK, 1 NO_NODE, 2 BROKEN, 3 LOOP, 4 TOO_LONG
  nsa : Nat
  route : List Nat
  deriving DecidableEq, Repr

/-- The loop of R273 from parent a with the path so far, nearest first; `bad` lists records with an uncorrectable error
(R290). -/
def State.walkFrom (s : State) (final : Nat) (bad : Nat → Bool) : Nat → Nat → List Nat → Walk
  | 0, _, _ => ⟨4, 0, []⟩
  | fuel + 1, a, path =>
    if path.length = 15 then ⟨4, 0, []⟩
    else if !s.recValid a || bad a || s.recState a == 4 then ⟨2, a, []⟩
    else if a = final ∨ path.contains a = true then ⟨3, a, []⟩
    else
      let q := s.node a Node.PARENT
      if q = 0 then ⟨0, a, a :: path⟩
      else s.walkFrom final bad fuel q (a :: path)

/-- The walk of R273 to `final`. -/
def State.walk (s : State) (final : Nat) (bad : Nat → Bool) : Walk :=
  if !s.recValid final || bad final then ⟨1, 0, []⟩
  else if s.node final Node.PARENT = 0 then ⟨0, final, []⟩
  else s.walkFrom final bad 17 (s.node final Node.PARENT) []

/-- The 50-byte result of R274. -/
def Walk.bytes (w : Walk) : List Byte :=
  padTo 50 (leBytes 1 w.route.length ++ leBytes 1 w.reason ++ leBytes 3 w.nsa ++ w.route.flatMap (leBytes 3))

/-- The counters and the event of a walk (R274). -/
def Act.walkCounts (w : Walk) : Act :=
  if w.reason = 0 then Act.wrap FWD_RW_OK
  else .all [Act.sat FWD_RW_FAIL,
    Act.fwd fun x => { x with rwFails := x.rwFails.set (w.reason - 1) (x.rwFails.getD (w.reason - 1) 0 + 1) },
    .read fun s => Act.raiseOnce 51 0 (s.u.fwd.rwFails.flatMap (leBytes 2))]

/-! ### Headend encapsulation (R269, R275–R277) -/

/-- The 40-byte HEADENDS entry of headend h (R550). -/
def State.headend (s : State) (h : Nat) : Option (List Byte) := s.u.boot.headends[h]?

/-- The port and Ethernet destination of uplink messages to headend h (R269); entries of a port that is down are
absent (R447). -/
def State.headendRoute (s : State) (h : Nat) : Nat × List Byte :=
  let best := fun p =>
    if !s.bit (ETH_STATUS_Pp_UP (EthPort.ofIdx p)) then none
    else ((s.u.fwd.tables.filter fun e => e.1 / 2 ^ 18 == 2 + p).map Prod.snd).find? fun e =>
      entryValid (2 + p) e && e.fld 64 4 == h && !entryMoving e
  let now := ageNow s.workBeat
  match best 0, best 1 with
  | some a, some b => if ageOf now b < ageOf now a then (1, beBytes 6 (b.fld 0 48)) else (0, beBytes 6 (a.fld 0 48))
  | some a, none => (0, beBytes 6 (a.fld 0 48))
  | none, some b => (1, beBytes 6 (b.fld 0 48))
  | none, none => (s.fld FWD_ENCAP_DEF_PORT, (((s.headend h).getD []).drop 20).take 6)

/-- A PLE message (R276). -/
structure Ple where
  kind : Nat
  nsa : Nat
  info : Nat
  seq : Nat
  beat : Nat
  decoder : Nat
  status : Nat
  rssi : Nat
  ctr : Nat
  payload : List Byte
  deriving DecidableEq, Repr

def Ple.bytes (m : Ple) (netId : Nat) : List Byte :=
  beBytes 1 1 ++ beBytes 1 m.kind ++ beBytes 2 netId ++ beBytes 3 m.nsa ++ beBytes 1 m.info ++ beBytes 4 m.seq ++
    beBytes 4 m.beat ++ beBytes 1 m.decoder ++ beBytes 1 m.status ++ beBytes 2 m.rssi ++ beBytes 4 m.ctr ++
    beBytes 2 m.payload.length ++ [0, 0] ++ m.payload

namespace Act

/-- A PLE message to headend h in class c, offered to the class queue of the port R269 picks. -/
def pleSend (h c beat pre : Nat) (m : Ple) (k : Bool → Act) : Act := .read fun s =>
  uplinkOffer (s.headendRoute h).1 c beat (some h) none pre (m.bytes s.u.boot.networkId) k

/-- The next per-headend SEQ of an UPLINK message (R276). -/
def nextSeq (h : Nat) (k : Nat → Act) : Act := .read fun s =>
  let n := (s.u.fwd.seqs.getD h 0 + 1) % 2 ^ 32
  .seq (fwd fun x => { x with seqs := x.seqs.setD h 0 n }) (k n)

end Act

end Sys2Proof.Machine
end

