-- ==== Sys2Proof/Machine/Pending.lean ====
section
/-!
DEFINITION. Machine/Pending.lean: the pending lists of sleepy direct children (R218–R220): buffers of the pending-frame
pool in the System region, chained from the Node Directory record (R670).
-/

namespace Sys2Proof.Machine

open Sys2Proof Sys2Proof.Reg

/-- The pool's base (R293). -/
def State.poolBase (s : State) : Nat := s.systemBase + 0x0BC00000

/-- Pending buffers the pool holds (R670). -/
def State.poolCount (s : State) : Nat := (s.fld ⟨ENV_REGr_SIZE 5, 0, 13⟩ * 2 ^ 20 - 204 * 2 ^ 20) / 1088

/-- The address of buffer i. -/
def State.pendBuffer (s : State) (i : Nat) : Nat := s.poolBase + 1088 * i

/-- The number of the buffer at an address. -/
def State.pendIndex (s : State) (a : Nat) : Nat := (a - s.poolBase) / 1088

/-- A chain of buffers, at most n long. -/
def State.pendFrom (s : State) : Nat → Nat → List Nat
  | 0, _ => []
  | n + 1, a => if a = 0 then [] else a :: s.pendFrom n (s.le a 4)

/-- The buffers of a child's pending list, in list order. -/
def State.pendList (s : State) (nsa : Nat) : List Nat :=
  if s.recValid nsa then s.pendFrom (s.node nsa Node.PEND_COUNT) (s.node nsa Node.PEND_HEAD) else []

def State.pendClass (s : State) (a : Nat) : Nat := s.le (a + 7) 1
def State.pendArrival (s : State) (a : Nat) : Nat := s.le (a + 8) 4
def State.pendSealed (s : State) (a : Nat) : Bool := Nat.testBit (s.le (a + 14) 1) 0
def State.pendBlock (s : State) (a : Nat) : Bool := Nat.testBit (s.le (a + 14) 1) 1
def State.pendRetries (s : State) (a : Nat) : Nat := s.le (a + 15) 1
def State.pendFrame (s : State) (a : Nat) : List Byte := s.bytes (a + 64) (s.le (a + 12) 2)

/-- A sleepy direct child (R218). -/
def State.sleepyChild (s : State) (nsa : Nat) : Bool :=
  s.recValid nsa && s.recFlag nsa 3 && s.node nsa Node.PARENT == 0

namespace Act

/-- The NEXT fields of a chain. -/
def pendChain : List Nat → Act
  | [] => .nop
  | [a] => memBytes a (leBytes 4 0)
  | a :: b :: l => .seq (memBytes a (leBytes 4 b)) (pendChain (b :: l))

/-- A child's list becomes these buffers: the chain, the record, and the pending bit of its forwarding entries (R219). -/
def pendLink (nsa : Nat) (l : List Nat) : Act :=
  all [pendChain l,
    recUpdate nsa [(Node.PEND_COUNT, l.length), (Node.PEND_HEAD, l.headD 0)],
    pendBits nsa (!l.isEmpty)]

/-- Buffers return to the pool. -/
def pendFree (l : List Nat) : Act := .read fun s =>
  let gone := l.map s.pendIndex
  mac fun m => { m with poolUsed := m.poolUsed.filter fun i => !gone.contains i }

/-- Buffers leave a child's list. -/
def pendRemove (nsa : Nat) (gone : List Nat) : Act := .read fun s =>
  let l := s.pendList nsa
  when (l.any gone.contains) (.seq (pendLink nsa (l.filter fun a => !gone.contains a)) (pendFree gone))

/-- A frame takes the lowest free buffer and joins the end of the list (R670, log 43). -/
def pendAppend (nsa cls : Nat) (ready block : Bool) (bs : List Byte) (k : Bool → Act) : Act := .read fun s =>
  match firstFree s.u.mac.poolUsed s.poolCount with
  | none => k false
  | some i =>
    let a := s.pendBuffer i
    let flags := (if ready then 1 else 0) + (if block then 2 else 0)
    all [mac fun m => { m with poolUsed := m.poolUsed ++ [i] },
      memBytes a (leBytes 4 0 ++ leBytes 3 nsa ++ leBytes 1 cls ++ leBytes 4 (s.bindBeat % 2 ^ 32) ++
        leBytes 2 bs.length ++ leBytes 1 flags ++ leBytes 1 0 ++ List.replicate 48 0 ++ padTo 1024 bs),
      pendLink nsa (s.pendList nsa ++ [a]),
      k true]

/-- PEND_FRAME_LIST (R219): the ninth frame replaces the oldest of a lower class, or is refused; `k` is told 0 listed,
1 listed with PEND_REPLACED, 2 PEND_FULL. -/
def pendAdd (nsa cls : Nat) (ready block : Bool) (bs : List Byte) (k : Nat → Act) : Act := .read fun s =>
  let full := .seq (sat MAC_PEND_FULL) (k 2)
  let l := s.pendList nsa
  if l.length < 8 then pendAppend nsa cls ready block bs fun ok => if ok then k 0 else full
  else if s.bit MAC_PEND_HIGH_REPLACE && Nat.ble cls 1 then
    match l.find? fun a => Nat.blt cls (s.pendClass a) with
    | none => full
    | some a => all [sat MAC_PEND_FULL, pendRemove nsa [a], pendAppend nsa cls ready block bs fun _ => k 1]
  else full

end Act

end Sys2Proof.Machine
end

