-- ==== Sys2Proof/Machine/RxOps.lean ====
section
/-!
DEFINITION. Machine/RxOps.lean: the shared operations of the receive chain (R159–R198): the announcement bus, erased
spans, the two contexts of a decoder channel and how they end, frames and their status, decode requests and the AGC.
What the analogue path and the sample-level filters measure comes with the commands; what is decided from it is here.
-/

namespace Sys2Proof.Machine

open Sys2Proof Sys2Proof.Reg

/-! ### Time -/

/-- Device time in ns of a sample index, at the nominal sample rate (log 44). -/
def State.sampleNs (s : State) (i : Nat) : Nat :=
  ((s.u.bt.beat * 1000000 : Nat) + ((i : Int) - s.u.bt.sample) * 100000 / 12288 : Int).toNat

/-! ### Decoder channels -/

/-- T in tenths of a sample (R170). -/
def symbol10 : Nat → Nat
  | 0 => 49152
  | 1 => 12288
  | 2 => 3072
  | _ => 768

/-- The port of decoder n (R162). -/
def decoderPort (n : Nat) : RfPort := if n < 48 then .s else .w

/-- Decoder numbers of a port. -/
def decodersOf : RfPort → List Nat
  | .s => List.range 48
  | .w => (List.range 32).map (· + 48)

/-- Decoder n. -/
def State.decoder (s : State) (n : Nat) : Decoder := s.u.rx.decoders.getD n Decoder.idle

/-- The rate a decoder serves. -/
def State.chRate (s : State) (n : Nat) : Nat := s.fld (RXD_CHn_CFG_RATE n)

/-- The port's run bit of RXD_STATUS. -/
def rxRun : RfPort → Field
  | .s => RXD_STATUS_S_RUN
  | .w => RXD_STATUS_W_RUN

/-- A decoder channel in service: enabled, at a rate its port carries (R162, R198). -/
def State.chEnabled (s : State) (n : Nat) : Bool := s.bit (RXD_CHn_CFG_EN n) && Air.rateOnPort (decoderPort n) (s.chRate n)

/-- A decoder channel that receives: its port runs, in a mode with air reception (R24, R192). -/
def State.chOn (s : State) (n : Nat) : Bool :=
  s.chEnabled n && s.bit (rxRun (decoderPort n)) && s.mode.airRx && s.decoderKept n && Nat.blt s.u.pwr.driftEntry 2

/-- A context equalises (R179). -/
def State.chDfe (s : State) (n : Nat) : Bool := s.chRate n == 3 || (s.chRate n == 2 && s.bit (RXD_CHn_CFG_DFE n))

/-- Width of a slice in kHz (R116). -/
def sliceKHz : RfPort → Nat → Nat
  | .s, w => 18000 * (w + 1)
  | .w, w => 22500 * (w + 1)

/-- The slice covers the channel's occupied width (R118, R151). -/
def State.inSlice (s : State) (p : RfPort) (k r : Nat) : Bool :=
  let c := 50 * s.fld (RFx_SLICE_CENTRE p)
  let w := sliceKHz p (s.fld (RFx_SLICE_WIDTH p))
  let lo := 2 * Air.centreKHz p k
  Nat.ble (c + Air.widthKHz r) (lo + w) && Nat.ble (lo + Air.widthKHz r) (c + w)

/-- The port's AGC. -/
def Rx.agc (x : Rx) : RfPort → Agc
  | .s => x.agcS
  | .w => x.agcW

/-- The gain code the AGC has decided on last. -/
def State.gain (s : State) (p : RfPort) : Nat :=
  match (s.u.rx.agc p).next with
  | some g => g.1
  | none => s.fld (RXD_AGCx_STAT_G p)

/-! ### Erased spans (R170, R171) -/

/-- Two spans share time. -/
def overlaps (a b : Nat × Nat) : Bool := Nat.blt a.1 b.2 && Nat.blt b.1 a.2

/-- The span a record erases, in tenths of a sample: half a symbol beyond the samples on both sides. -/
def erasedSpan (rate first last : Nat) : Nat × Nat :=
  (10 * first - symbol10 rate / 2, 10 * last + symbol10 rate / 2)

/-- The interval of symbol k of a frame that starts at a sample. -/
def symbolSpan (rate start k : Nat) : Nat × Nat :=
  (10 * start + k * symbol10 rate, 10 * start + (k + 1) * symbol10 rate)

/-- Symbol k is erased. -/
def erasedAt (rate start : Nat) (spans : List (Nat × Nat)) (k : Nat) : Bool :=
  spans.any fun e => overlaps e (symbolSpan rate start k)

/-- Symbols erased among the first n, each counted once (R171). -/
def erasedCount (rate start : Nat) (spans : List (Nat × Nat)) (n : Nat) : Nat :=
  ((List.range n).filter (erasedAt rate start spans)).length

/-- The spans of a context with the open blanked interval of its decoder. -/
def Decoder.spansOf (d : Decoder) (rate : Nat) (c : RxCtx) : List (Nat × Nat) :=
  match d.opened with
  | none => c.spans
  | some o => (10 * o - symbol10 rate / 2, 2 ^ 70) :: c.spans

/-- A correlation window of 62 symbols that ends at a sample overlaps no erased span (R172). -/
def Decoder.windowClear (d : Decoder) (rate last : Nat) : Bool :=
  let w := (10 * last - 62 * symbol10 rate, 10 * last)
  !(d.spans.any fun e => overlaps e w) && (match d.opened with
    | none => true
    | some o => !overlaps (10 * o - symbol10 rate / 2, 2 ^ 70) w)

/-! ### Status codes (R178) -/

def rxOk : Nat := 0
def rxSfdTimeout : Nat := 1
def rxHdrCrc : Nat := 2
def rxHdrField : Nat := 3
def rxCaptured : Nat := 4
def rxLateCaptured : Nat := 5
def rxWatchLost : Nat := 6
def rxDecodeFail : Nat := 7
def rxDecodeLate : Nat := 8
def rxAnnounceGap : Nat := 9
def rxBlanked : Nat := 10
def rxPortOff : Nat := 11
def rxChannelOff : Nat := 12

namespace Act

/-- One decoder updated. -/
def decoder (n : Nat) (f : Decoder → Decoder) : Act :=
  rx fun x => { x with decoders := x.decoders.setD n Decoder.idle (f (x.decoders.getD n Decoder.idle)) }

/-- One port's AGC updated. -/
def agc (p : RfPort) (f : Agc → Agc) : Act :=
  rx fun x => match p with
    | .s => { x with agcS := f x.agcS }
    | .w => { x with agcW := f x.agcW }

/-- RXD_CHn_STAT follows the decoder (R198). -/
def chStat (n : Nat) : Act := .read fun s =>
  let d := s.decoder n
  let ps := if !s.chOn n then 0 else match d.p with | none => 1 | some c => c.phase
  let watching := match d.p with
    | none => false
    | some c => Nat.blt c.phase 4 || s.bit RXD_CAPTURE_LATE_EN
  let ws := match d.w with | some c => c.phase | none => if s.chOn n && watching then 1 else 0
  all [setF (RXD_CHn_STAT_P_STATE n) ps, setF (RXD_CHn_STAT_W_STATE n) ws,
    setB (RXD_CHn_STAT_FROZEN n) d.p.isSome]

/-- RXD_STATUS follows the LDPC pool (R192). -/
def poolStat : Act := .read fun s =>
  all [setF RXD_STATUS_CORE_BUSY
      ((List.range 8).foldl (fun m k => if s.u.rx.reqs.any (fun r => r.core == some k) then m + 2 ^ k else m) 0),
    setF RXD_STATUS_QUEUE (s.u.rx.reqs.filter fun r => r.core.isNone).length]

/-- A reception's end in the counters (R178): LAST, the counter of its status, and RX_FALSE_DET. -/
def countStatus (n st : Nat) : Act :=
  .seq (setF (RXD_CHn_STAT_LAST n) st)
    (if st = rxOk then wrap (RXD_CHn_FRAME_OK n)
    else if st = rxCaptured ∨ st = rxLateCaptured then sat (RXD_CHn_CAPTURED n)
    else if st = rxDecodeFail ∨ st = rxDecodeLate then sat (RXD_CHn_DEC_FAIL n)
    else if rxAnnounceGap ≤ st then sat (RXD_CHn_ABORT n)
    else all [wrap (RXD_CHn_FALSE n), decoder n fun d => { d with falses := d.falses + 1 },
      .read fun s => when (Nat.blt 0 s.u.rx.falseLimit && Nat.blt s.u.rx.falseLimit (s.decoder n).falses)
        (raiseOnce 34 n (leBytes 1 (decoderPort n).idx ++ leBytes 1 n))])

/-- A reception as a DIVERSITY frame carries it (R484). -/
def RxFrame.link (f : RxFrame) (stopNs : Nat) (bits : List Bool) : AirRx where
  decoder := Fin.ofNat 80 f.decoder
  length := BitVec.ofNat 10 f.length
  beacon := f.beacon
  stopNs := BitVec.ofNat 64 stopNs
  rssi := BitVec.ofInt 16 f.rssi
  noise := BitVec.ofInt 16 f.noise
  freq := BitVec.ofInt 16 f.freq
  flags := BitVec.ofNat 8 f.flags
  erased := BitVec.ofNat 16 f.erased
  bytes := (List.range (bits.length / 8)).map fun i =>
    BitVec.ofNat 8 ((List.range 8).foldl (fun v j => if bits.getD (8 * i + j) false then v + 2 ^ j else v) 0)

/-- A frame leaves the receive chain with its outcome: the descriptor, with the bits of a frame that is OK (R187). A
standby processes none of its own: it shares those it decoded (R23, R484). -/
def deliverFrame (f : RxFrame) (st : Nat) (beat : Nat) : Act :=
  let bits := if st = rxOk then f.cws.flatMap fun c => match c.result with | .ok b _ => b | _ => [] else []
  .read fun s =>
  all [if s.pstate == 8 then .nop
    else if decide (s.mode = .standby) then
      let l := RxFrame.link f (s.sampleNs f.stop) bits
      when (st == rxOk)
        (.seq (pair fun p => { p with kept := p.kept ++ [l] })
          (when (s.shadows && s.bit PAIR_CFG_DIVERSITY) (linkSend (.diversity l))))
    else
      let l := RxFrame.link f (s.sampleNs f.stop) bits
      all [rx fun x => { x with handoff := x.handoff ++ [⟨f, st, beat, bits⟩] },
        when (s.bit GEN_MODE_PAIR_CFG && st == rxOk) (pair fun p => { p with
          heard := p.heard ++ [(f.decoder, l.stopNs.toNat, l.bytes)] }),
        recordInput 1],
    countStatus f.decoder st]

end Act

/-- The frame of a context. -/
def State.rxFrame (s : State) (id : Nat) : Option RxFrame := s.u.rx.frames.find? fun f => f.id == id

namespace Act

/-- A frame updated. -/
def rxFrame (id : Nat) (g : RxFrame → RxFrame) : Act :=
  rx fun x => { x with frames := x.frames.map fun f => if f.id = id then g f else f }

/-- A frame as its context leaves it: the erased symbols counted and FLAGS set (R171, R187). -/
def closeFrame (s : State) (c : RxCtx) (f : RxFrame) : RxFrame :=
  let lost := erasedCount f.rate f.start ((s.decoder f.decoder).spansOf f.rate c) (Air.symbols f.rate f.length)
  let bit := fun (b : Bool) (v : Nat) => if b then v else 0
  { f with
    erased := lost
    flags := bit c.captured 1 + bit c.watch 2 + bit c.stepped 4 + bit (Nat.blt 0 lost) 8 +
      bit (s.chDfe f.decoder) 16 + bit f.beacon 32 }

/-- A context's end with a status: a frame with a valid header ends too, its decode requests with it (R177, R187). -/
def endCtx (n : Nat) (c : RxCtx) (st : Nat) : Act := .read fun s =>
  if c.phase = 4 then match s.rxFrame c.frame with
    | none => .nop
    | some f =>
      all [rx fun x => { x with
          frames := x.frames.filter fun g => !(g.id == f.id)
          reqs := x.reqs.filter fun r => !(r.frame == f.id && r.engine.isNone) },
        poolStat,
        deliverFrame (closeFrame s c f) st s.bindBeat]
  else countStatus n st

/-- P ends; a watch context under way becomes P (R175). -/
def endP (n st : Nat) : Act := .read fun s =>
  let d := s.decoder n
  match d.p with
  | none => .nop
  | some c => all [endCtx n c st, decoder n fun d => { d with p := d.w, w := none }, chStat n]

/-- W ends. -/
def endW (n st : Nat) : Act := .read fun s =>
  match (s.decoder n).w with
  | none => .nop
  | some c => all [endCtx n c st, decoder n fun d => { d with w := none }, chStat n]

/-- Both contexts of a decoder end (R177). -/
def endBoth (n st : Nat) : Act := .seq (endW n st) (endP n st)

/-- Every context of a port ends (R177). -/
def endPort (p : RfPort) (st : Nat) : Act := each (decodersOf p) fun n => endBoth n st

/-! ### The announcement bus (R167–R170) -/

/-- A gap any decoder of a port reports (R169). -/
def announceGap (p : RfPort) : Act :=
  all [endPort p rxAnnounceGap, sat (RXD_ANN_GAP_x p), raise 32 (leBytes 1 p.idx)]

/-- A record is issued on a port's bus: every enabled decoder holds it; one that holds four has no room and reports a
gap, and applies it all the same after those ahead of it (R169). -/
def announce (p : RfPort) (kind sEff sClip : Nat) (step : Int) (gain : Nat) : Act := .read fun s =>
  let seqNo := (s.fld (RXD_AGCx_STAT_SEQ p) + 1) % 256
  let r : AnnRecord := ⟨seqNo, kind, sEff, sClip, step, gain, kind == 0 && Nat.blt gain 8 != Nat.blt (s.gain p) 8⟩
  let ds := (decodersOf p).filter s.chEnabled
  all [setF (RXD_AGCx_STAT_SEQ p) seqNo,
    when (kind == 0) (wrap (RXD_STEPS_x p)),
    when (ds.any fun n => Nat.ble 4 (s.decoder n).held.length) (announceGap p),
    each ds fun n => decoder n fun d => { d with held := d.held ++ [r] }]

/-- A span is erased for both contexts of a decoder and for later correlation windows. -/
def eraseSpan (n : Nat) (span : Nat × Nat) : Act := .read fun s =>
  let old := span.2 - 70 * symbol10 (s.chRate n)
  let add := fun (c : RxCtx) => { c with spans := c.spans ++ [span] }
  decoder n fun d => { d with
    p := d.p.map add
    w := d.w.map add
    spans := (d.spans.filter fun e => Nat.ble old e.2) ++ [span] }

/-- BLANKED (R170): a context whose frame lost more than BLANK_MAX symbols to this interval. -/
def blankCheck (n : Nat) (span : Nat × Nat) : Act := .read fun s =>
  let d := s.decoder n
  let rate := s.chRate n
  let lost := fun (c : RxCtx) =>
    let len := match s.rxFrame c.frame with
      | some f => if c.phase = 4 then Air.symbols f.rate f.length else 284
      | none => 284
    Nat.blt (s.fld RXD_LLR_BLANK_MAX) (erasedCount rate c.start [span] len)
  .seq (match d.w with | some c => when (lost c) (endW n rxBlanked) | none => .nop)
    (match d.p with | some c => when (lost c) (endP n rxBlanked) | none => .nop)

/-- A decoder applies a record (R170). -/
def applyRecord (n : Nat) (r : AnnRecord) : Act := .read fun s =>
  let rate := s.chRate n
  let step := fun (c : RxCtx) => { c with comp := c.comp - r.step, stepped := true }
  if r.kind = 0 then
    .seq (eraseSpan n (erasedSpan rate r.sClip r.sEff)) (decoder n fun d => { d with p := d.p.map step, w := d.w.map step })
  else if r.kind = 1 then decoder n fun d => { d with opened := some r.sEff }
  else if r.kind = 2 then match (s.decoder n).opened with
    | none => .nop
    | some o =>
      let span := erasedSpan rate o r.sEff
      all [decoder n fun d => { d with opened := none }, eraseSpan n span, blankCheck n span]
  else eraseSpan n (erasedSpan rate r.sClip r.sEff)

end Act

/-! ### The AGC (R163–R168) -/

/-- The VGA index of a gain code. -/
def gainIdx (g : Nat) : Nat := if 8 ≤ g then g - 8 else g

/-- cum(G) (R163), 1/64 dB. -/
def State.cum (s : State) (p : RfPort) (g : Nat) : Nat :=
  (if 8 ≤ g then s.fld (RXD_EXTx_STEP_TRIMMED p) else 0) +
    ((List.range (gainIdx g)).map fun i => (s.reg (RXD_STEPTAB_xi p i)).toNat % 1024).sum

/-- Some decoder of a port has a context between detection and frame end (R166). -/
def State.portBusy (s : State) (p : RfPort) : Bool := (decodersOf p).any fun n => (s.decoder n).p.isSome

/-- The middle of a sorted list of reports; the mean of the two middle ones where their number is even (log 41). -/
def medianOf (l : List Int) : Int :=
  let m := l.mergeSort (fun a b => decide (a ≤ b))
  let k := m.length
  if k % 2 = 1 then m.getD (k / 2) 0 else (m.getD (k / 2 - 1) 0 + m.getD (k / 2) 0) / 2

/-- TRIMMED after one step event (R164): at most 16 units toward the median, within 192 of EXT. -/
def trimOf (ext trimmed : Nat) (reports : List Int) : Nat :=
  let d : Int := medianOf reports - trimmed
  let t : Int := trimmed + max (-16) (min 16 d)
  (max ((ext : Int) - 192) (min ((ext : Int) + 192) t)).toNat

namespace Act

/-- CUM follows G and the tables. -/
def agcStat (p : RfPort) : Act := .read fun s =>
  let g := s.fld (RXD_AGCx_STAT_G p)
  all [setB (RXD_AGCx_STAT_BYPASS p) (Nat.blt g 8), setF (RXD_AGCx_STAT_CUM p) (s.cum p g)]

/-- A gain decision at sample `at_`, held until 1,024 samples after the last (R165): the GAIN record is issued 256
samples before S_EFF (R168). `clip` is the first clipped sample of an attack. -/
def gainDecision (p : RfPort) (g at_ : Nat) (clip : Option Nat) : Act := .read fun s =>
  let when_ := match (s.u.rx.agc p).lastAt with
    | some l => max at_ (l + 1024)
    | none => at_
  let sEff := when_ + 256
  let step : Int := (s.cum p g : Int) - s.cum p (s.gain p)
  let count := (s.u.rx.agc p).decisions + 1
  all [announce p 0 sEff (clip.getD sEff) step g,
    agc p fun a => { a with next := some (g, sEff), lastAt := some when_, decisions := count },
    when (Nat.blt 64 count) (raiseOnce 33 p.idx (leBytes 1 p.idx))]

/-- The bypass step is trimmed (R164), once for each step event. -/
def trimExt (p : RfPort) (seqNo : Nat) (reports : List Int) : Act := .read fun s =>
  let ext := s.fld (RXD_EXTx_STEP_EXT p)
  let old := s.fld (RXD_EXTx_STEP_TRIMMED p)
  let new := trimOf ext old (reports.take 8)
  when (!reports.isEmpty && !((s.u.rx.agc p).trimmed == some seqNo))
    (all [agc p fun a => { a with trimmed := some seqNo },
      setF (RXD_EXTx_STEP_TRIMMED p) new,
      agcStat p,
      when (!(new == old) && (new == ext - 192 || new == ext + 192)) (raise 36 (leBytes 1 p.idx))])

end Act

/-! ### Headers (R89, R173) -/

/-- How a header block is judged on a decoder's rate: OK, HDR_CRC or HDR_FIELD. -/
def headerStatus (blk rate : Nat) : Nat :=
  if Air.headerOk blk rate then rxOk
  else if Air.headerBlock (blk / 256) = blk then rxHdrField
  else rxHdrCrc

/-! ### Soft symbols and decode requests (R181–R186) -/

/-- Division rounded to the nearest, halves away from zero (log 42). -/
def roundDiv (a : Int) (b : Nat) : Int :=
  if b = 0 then 0 else if 0 ≤ a then ((2 * a + b) / (2 * b : Nat) : Int) else -((2 * -a + b) / (2 * b : Nat) : Int)

/-- One LLR (R181). -/
def llrOf (scale : Nat) (dfe : Bool) (x : Soft) : Int :=
  let y := x.y.toInt
  let mu1 : Int := if dfe then 65536 else x.mu1.toInt
  let mu0 : Int := if dfe then 0 else x.mu0.toInt
  max (-31) (min 31 (roundDiv ((mu1 - mu0) * (mu1 + mu0 - 2 * y) * scale) (32 * (x.sigma.toNat + 1))))

/-- The symbol at which codeword i of a frame begins (R82, R91). -/
def codewordAt (rate len i : Nat) : Nat :=
  (List.range i).foldl (fun n j => n + Air.kc rate len j + Air.np rate (Air.kc rate len j)) 284

/-- The 1,152 LLRs of a codeword (R176, R182): certain zeros in the shortened positions, 0 in the punctured ones. -/
def codewordLlrs (rate len i : Nat) (soft : List Int) : List Int :=
  let k := Air.kc rate len i
  let n := Air.np rate k
  let full := infoBits rate
  (soft.take k) ++ List.replicate (full - k) 31 ++ ((soft.drop k).take n) ++ List.replicate (1152 - full - n) 0

/-- The hard decisions of LLRs: a positive value favours 0. -/
def hardBits (l : List Int) : List Bool := l.map fun v => decide (v < 0)

/-- A word satisfies the code (R97). -/
def syndromeZero (rate : Nat) (w : List Bool) : Bool :=
  decide (Air.parity rate (w.take (infoBits rate)) = w.drop (infoBits rate))

/-- A request precedes another in the queue (R186). -/
def LdpcReq.before (a b : LdpcReq) : Bool :=
  Nat.blt a.beat b.beat || (a.beat == b.beat && a.engine.isNone && b.engine.isSome)

/-- The request taken next: the first among the earliest (R186). -/
def nextReq : List LdpcReq → Option LdpcReq
  | [] => none
  | r :: l => match nextReq l with
    | none => some r
    | some q => if q.before r then some q else some r

/-- The lowest-numbered free LDPC core. -/
def State.freeLdpc (s : State) : Option Nat :=
  (List.range s.ldpcCores).find? fun k => !s.u.pair.ldpcOut.contains k && !(s.u.rx.reqs.any fun r => r.core == some k)

/-- The status of a frame whose codewords have all returned (R176). -/
def RxFrame.outcome (f : RxFrame) : Nat :=
  if f.cws.any fun c => decide (c.result = .late) then rxDecodeLate
  else if f.cws.any fun c => decide (c.result = .fail) then rxDecodeFail
  else rxOk

def CwResult.done : CwResult → Bool
  | .waiting => false
  | _ => true

namespace Act

/-- The frame's status is decided when its last symbol has passed and the last of its decodes has returned (R176). -/
def settleFrame (id : Nat) : Act := .read fun s =>
  match s.rxFrame id with
  | none => .nop
  | some f => when (f.ended && !f.settled && f.cws.all fun c => c.result.done)
      (all [rxFrame id fun g => { g with settled := true },
        deliverFrame f f.outcome ((f.cws.getLast?.map (·.beat)).getD 0)])

/-- A codeword's decode returns. -/
def cwDone (id i : Nat) (r : CwResult) : Act :=
  .seq (rxFrame id fun f => { f with cws := f.cws.zipIdx.map fun c => if c.2 = i then { c.1 with result := r } else c.1 })
    (settleFrame id)

/-- The commit window of a beat (R59, R182, R186): fast-path decodes bound to it that have not returned complete LATE,
and the LLRs of its codewords are given up. -/
def rxCommit (beat : Nat) : Act := .read fun s =>
  let late := s.u.rx.reqs.filter fun r => r.beat == beat && r.engine.isNone
  all [rx fun x => { x with reqs := x.reqs.filter fun r => !(r.beat == beat) },
    each late fun r => all [sat RXD_LDPC_LATE, wrap BT_LATE_FAST, wrap BT_LATE_TOTAL, recordInput 6,
      .read fun t => match t.rxFrame r.frame with
        | some f => raise 35 (leBytes 1 (decoderPort f.decoder).idx ++ leBytes 1 f.decoder)
        | none => .nop,
      cwDone r.frame r.cw .late],
    rx fun x => { x with frames := (x.frames.map fun f =>
        { f with cws := f.cws.map fun c => if c.beat = beat then { c with llrs := [] } else c }).filter fun f =>
          !(f.settled && f.cws.all fun c => c.llrs.isEmpty) },
    poolStat]

/-- RXD_STATUS follows the ports (R192), and the decoders' states with it. -/
def rxRunning (p : RfPort) : Act := .read fun s =>
  .seq (setB (rxRun p) (s.bit (RFx_STATUS_RX_LOCKED p) && !s.bit (RFx_STATUS_RX_CAL p)))
    (each ((decodersOf p).filter s.chEnabled) chStat)

/-- A write to RXD_CHn_CFG (R198): any change ends both contexts with CHANNEL_OFF, and search restarts. -/
def decoderCfg (n : Nat) (w : Word) : Act := .read fun s =>
  when (!(s.reg (RXD_CHn_CFG n) == w))
    (all [endBoth n rxChannelOff,
      .reg (RXD_CHn_CFG n) w,
      decoder n fun d => { d with held := [], last := none, opened := none, spans := [] },
      chStat n])

/-- A write to RXD_CAPTURE (R194): LATE_EN cleared stops the watches that run after a valid header. -/
def captureCfg (w : Word) : Act := .read fun s =>
  let was := s.bit RXD_CAPTURE_LATE_EN
  .seq (.reg RXD_CAPTURE w) (when (was && Nat.beq (fieldOf w 8 1) 0)
    (each (List.range 80) fun n => .read fun t =>
      match (t.decoder n).p with
      | some c => when (c.phase == 4) (.seq (endW n rxWatchLost) (chStat n))
      | none => .nop))

/-- A write to RXD_EXTx_STEP (R197): TRIMMED is reset to EXT. -/
def extCfg (p : RfPort) (w : Word) : Act :=
  all [.reg (RXD_EXTx_STEP p) w, .read fun s => setF (RXD_EXTx_STEP_TRIMMED p) (s.fld (RXD_EXTx_STEP_EXT p)), agcStat p]

/-- The receive chain at a boundary: the counts of the beat restart, and FALSE_LIMIT as it stands applies (R178, R193). -/
def rxBoundary : Act := .read fun s =>
  rx fun x => { x with
    decoders := x.decoders.map fun d => (d.1, { d.2 with falses := 0 })
    agcS := { x.agcS with decisions := 0 }
    agcW := { x.agcW with decisions := 0 }
    falseLimit := s.fld RXD_DET_FALSE_LIMIT }

end Act

end Sys2Proof.Machine
end

