-- ==== Sys2Proof/Machine/RfOps.lean ====
section
/-!
DEFINITION. Machine/RfOps.lean: the shared operations of the RF ports (R116–R158): blanking, the synthesisers, what a
chain's command goes through, how it ends early, coexistence, and regional airtime.
-/

namespace Sys2Proof.Machine

open Sys2Proof Sys2Proof.Reg

/-! ### Ports and chains -/

/-- One port's unit. -/
def Rf.port (r : Rf) : RfPort → RfUnit
  | .s => r.s
  | .w => r.w

/-- One chain's record. -/
def RfUnit.chain (u : RfUnit) (n : Nat) : TxChain := if n = 0 then u.tx0 else u.tx1

/-- Chain n of a port. -/
def chainOf (p : RfPort) (n : Nat) : Chain :=
  match p, n with
  | .s, 0 => .ts0
  | .s, _ => .ts1
  | .w, 0 => .tw0
  | .w, _ => .tw1

def State.tx (s : State) (c : Chain) : TxChain := (s.u.rf.port c.port).chain c.n

/-- The states of R124. -/
def stIdle : Nat := 0
def stCal : Nat := 1
def stLocked : Nat := 3
def stTx : Nat := 4
def stFault : Nat := 5

def State.txState (s : State) (c : Chain) : Nat := s.fld (RFx_TXn_STAT_STATE c.port c.n)
def State.txChannel (s : State) (c : Chain) : Nat := s.fld (RFx_TXn_STAT_CHANNEL c.port c.n)
/-- The state a chain counts with: a shadow takes its partner's, not its own idle chains' (R351). -/
def State.chainState (s : State) (c : Chain) : Nat :=
  match if s.shadows then s.u.pair.chains.find? fun x => x.1 == c.idx else none with
  | some x => x.2.1
  | none => s.txState c

/-- The channel a chain counts with (R351). -/
def State.chainChan (s : State) (c : Chain) : Nat :=
  match if s.shadows then s.u.pair.chains.find? fun x => x.1 == c.idx else none with
  | some x => x.2.2
  | none => s.txChannel c

def State.txEn (s : State) (c : Chain) : Bool := s.bit (RFx_TXn_CTL_EN c.port c.n)

/-- A phase within a transmit sequence: from X to the return edge. -/
def TxPhase.inSeq : TxPhase → Bool
  | .tr | .pa | .ramp | .frame | .down | .drained | .back => true
  | _ => false

/-- A phase from X to the end of the frame, in which a lock loss or an order to stop cuts the frame off. -/
def TxPhase.sending : TxPhase → Bool
  | .tr | .pa | .ramp | .frame => true
  | _ => false

def TxChain.inSeq (t : TxChain) : Bool := match t.cmd with | some c => c.phase.inSeq | none => false
def TxChain.sending (t : TxChain) : Bool := match t.cmd with | some c => c.phase.sending | none => false

/-- Either chain of a port is in a transmit sequence (R117). -/
def State.portSeq (s : State) (p : RfPort) : Bool := (s.u.rf.port p).tx0.inSeq || (s.u.rf.port p).tx1.inSeq

/-- What a command sends: its decoder, power class, and frame length. -/
def TxWhat.decoder : TxWhat → Nat
  | .entry e => e.decoder
  | .ack a => a.decoder

def TxWhat.isAck : TxWhat → Bool
  | .entry _ => false
  | .ack _ => true

/-- The channel index and rate of a command. -/
def State.whatChan (s : State) : TxWhat → Nat
  | .entry e => s.fld (RXD_CHn_CFG_CHANNEL e.decoder)
  | .ack a => a.chan

def State.whatRate (s : State) : TxWhat → Nat
  | .entry e => s.chRate e.decoder
  | .ack a => a.rate

def State.whatClass (s : State) : TxWhat → Nat
  | .entry e => e.cls
  | .ack _ => s.fld MAC_ACK_ACK_CLASS

/-! ### Times, in ns (R128, R131, R138) -/

/-- t_ramp of a rate on a port. -/
def State.rampNs (s : State) (p : RfPort) (rate : Nat) : Nat := 2000 * 2 ^ s.fld (RFx_RAMP_rate p rate)

/-- The pre-frame time P. -/
def State.preNs (s : State) (p : RfPort) (rate : Nat) : Nat :=
  1000 * (s.fld (RFx_FE_TIMING_T_TR p) + s.fld (RFx_FE_TIMING_T_PAON p)) + s.rampNs p rate

/-- c: 128 µs where the port listens before it talks. -/
def State.ccaNs (s : State) (p : RfPort) : Nat := if s.bit (MAC_CCA_x_LBT_EN p) then 128000 else 0

/-- From frame end to the release of PA_EN. -/
def State.paOffNs (s : State) (p : RfPort) (rate : Nat) : Nat :=
  s.rampNs p rate + 1000 * s.fld (RFx_FE_TIMING_T_PAOFF p)

/-- From frame end to the return edge. -/
def State.backNs (s : State) (p : RfPort) (rate : Nat) : Nat :=
  s.paOffNs p rate + 1000 * s.fld (RFx_FE_TIMING_T_TRBACK p)

/-- Airtime that counts against regions: frame, ramp-up and ramp-down (R143). -/
def State.dutyNs (s : State) (p : RfPort) (rate len : Nat) : Nat := Air.airtimeNs rate len + 2 * s.rampNs p rate

/-- Turnaround of a rate (R114). -/
def turnaroundNs (rate : Nat) : Nat := if rate = 0 then 1000000 else 500000

/-- The latest start of a command: the plan's, or 20 µs past an ACK's (R129). -/
def TxWhat.latest : TxWhat → Nat
  | .entry e => e.latest
  | .ack a => a.startNs + 20000

/-- The decision instant D of R128 and R129. -/
def State.holdNs (s : State) (p : RfPort) (cca : Bool) (w : TxWhat) : Nat :=
  w.latest - s.preNs p (s.whatRate w) - (if cca then 128000 else 0)

/-! ### Regions (R143–R147) -/

/-- A region counts. -/
def State.dutyOn (s : State) (p : RfPort) (r : Nat) : Bool :=
  s.bit (RFx_DUTYr_BAND_EN p r) && Nat.blt (s.fld (RFx_DUTYr_BAND_LO p r)) (s.fld (RFx_DUTYr_BAND_HI p r))

/-- The occupied width of a channel overlaps a region; edges in half-kHz above the band's edge. -/
def State.dutyHits (s : State) (p : RfPort) (r k rate : Nat) : Bool :=
  let c := 2 * Air.centreKHz p k
  Nat.blt (50 * s.fld (RFx_DUTYr_BAND_LO p r)) (c + Air.widthKHz rate) &&
  Nat.blt (c - Air.widthKHz rate) (50 * s.fld (RFx_DUTYr_BAND_HI p r))

def State.dutyRegion (s : State) (p : RfPort) (r : Nat) : DutyRegion := (s.u.rf.port p).duty.getD r DutyRegion.empty

/-- A region's usage in ns. -/
def DutyRegion.used (d : DutyRegion) : Nat := d.buckets.sum

/-- Its allowance: LIMIT × WINDOW_S × 100 µs. -/
def State.dutyAllow (s : State) (p : RfPort) (r : Nat) : Nat :=
  100000 * (s.fld (RFx_DUTYr_LIMIT_LIMIT p r) * s.fld (RFx_DUTYr_LIMIT_WINDOW_S p r))

/-- Beats of one bucket. -/
def State.dutyBeats (s : State) (p : RfPort) (r : Nat) : Nat := (1000 * s.fld (RFx_DUTYr_LIMIT_WINDOW_S p r) + 63) / 64

/-- A frame's airtime fits region r beside `extra` ns that are planned already. -/
def State.dutyFits (s : State) (p : RfPort) (r t extra : Nat) : Bool :=
  Nat.ble ((s.dutyRegion p r).used + extra + t) (s.dutyAllow p r)

/-- The dwell limit. -/
def State.dwellFits (s : State) (p : RfPort) (r t : Nat) : Bool :=
  s.fld (RFx_DUTYr_LIMIT_DWELL p r) == 0 || Nat.ble t (50000000 * s.fld (RFx_DUTYr_LIMIT_DWELL p r))

/-- The check of R145 over every region a channel counts against. -/
def State.dutyOk (s : State) (p : RfPort) (k rate t : Nat) (extra : Nat → Nat) : Bool :=
  (List.range 16).all fun r => !(s.dutyOn p r && s.dutyHits p r k rate) || (s.dutyFits p r t (extra r) && s.dwellFits p r t)

/-- The airtime of a 14-byte ACK at the slowest rate configured in a region; none where no channel counts against it. -/
def State.dutyAck (s : State) (p : RfPort) (r : Nat) : Option Nat :=
  ((decodersOf p).filter fun n => s.chEnabled n && s.dutyHits p r (s.fld (RXD_CHn_CFG_CHANNEL n)) (s.chRate n)).foldl
    (fun m n =>
      let t := s.dutyNs p (s.chRate n) 14
      match m with
      | none => some t
      | some u => some (max u t)) none

/-! ### Packets of the air queues -/

/-- The flow of a port that a queue feeds. -/
def State.flowOf (s : State) (p : RfPort) (q : Nat) : Option Nat :=
  (List.range 64).find? fun f => decide (s.flowQueue (2 + p.idx) f = some q)

/-- The MAC frame an entry sends. -/
def State.entryBytes (s : State) (e : PlanEntry) : List Byte :=
  match e.queue with
  | none => s.pendFrame e.start
  | some q => match (s.queue q).packetAt e.start with
    | none => []
    | some k => wordBytes ((s.queue q).packetWords k)

def State.whatBytes (s : State) : TxWhat → List Byte
  | .entry e => s.entryBytes e
  | .ack a => a.bytes

/-- Retransmissions an entry's frame has had. -/
def State.entryRetries (s : State) (e : PlanEntry) : Nat :=
  match e.queue with
  | none => s.pendRetries e.start
  | some q => (((s.queue q).packetAt e.start).map (·.retries)).getD 0

/-- The flow class of a command, for PRI_CLASSES (R140). -/
def State.entryClass (s : State) (e : PlanEntry) : Nat :=
  match e.queue with
  | none => s.pendClass e.start
  | some q => match s.flowOf e.port q with
    | none => 4
    | some f => s.fld (SCH_AIRx_Fq_CLASS e.port f)

/-- The backoff drawn for a frame that stands in its queue. -/
def State.deferredOf (s : State) (queue : Option Nat) (start : Nat) : Option Deferred :=
  s.u.mac.deferred.find? fun d => d.queue == queue && d.start == start

namespace Act

def rfUnit (p : RfPort) (f : RfUnit → RfUnit) : Act :=
  rf fun r => match p with
    | .s => { r with s := f r.s }
    | .w => { r with w := f r.w }

def txUnit (c : Chain) (f : TxChain → TxChain) : Act :=
  rfUnit c.port fun u => if c.n = 0 then { u with tx0 := f u.tx0 } else { u with tx1 := f u.tx1 }

/-- The command of a chain updated. -/
def txCmd (c : Chain) (f : TxCmd → TxCmd) : Act := txUnit c fun t => { t with cmd := t.cmd.map f }

/-- HOLDING follows the command (R156). -/
def txHolding (c : Chain) : Act := .read fun s =>
  setB (RFx_TXn_STAT_HOLDING c.port c.n) (match (s.tx c).cmd with
    | some d => d.due && decide (d.phase = .held)
    | none => false)

/-- TX_ON follows the chains' states (R150). -/
def txOn (p : RfPort) : Act := .read fun s =>
  setF (RFx_STATUS_TX_ON p) ((if s.txState (chainOf p 0) = stTx then 1 else 0) + (if s.txState (chainOf p 1) = stTx then 2 else 0))

def txSetState (c : Chain) (st : Nat) : Act := .seq (setF (RFx_TXn_STAT_STATE c.port c.n) st) (txOn c.port)

/-- The record of an RF event: port, chain. -/
def rfEvent (src : Nat) (c : Chain) : Act := raise src (leBytes 1 c.port.idx ++ leBytes 1 c.n)

/-! ### Releasing and returning frames -/

/-- Packets at the front of an air queue that are done with are released in order (R302). -/
def airDrain (q d f : Nat) : Nat → Act
  | 0 => .nop
  | k + 1 => .read fun s =>
    match (s.queue q).packets with
    | [] => .nop
    | p :: _ => when ((s.flow d f).finished.contains p.start)
      (all [releasePacket q p.start, forgetPacket d f p.start, stamp false d f, airDrain q d f k])

/-- The air port is done with a packet (R209). -/
def airRelease (p : RfPort) (q start : Nat) : Act := .read fun s =>
  match s.flowOf p q with
  | none => releasePacket q start
  | some f => all [
    flow (2 + p.idx) f fun w => { w with finished := w.finished ++ [start] },
    mac fun m => { m with deferred := m.deferred.filter fun d => !(d.queue == some q && d.start == start) },
    airDrain q (2 + p.idx) f ((s.queue q).packets.length)]

/-- A frame is done with: its packet is released, or its buffer leaves the pending list. -/
def entryDone (e : PlanEntry) : Act :=
  match e.queue with
  | some q => airRelease e.port q e.start
  | none => .seq (mac fun m => { m with deferred := m.deferred.filter fun d => !(d.queue.isNone && d.start == e.start) })
      (pendRemove e.nsa [e.start])

/-- A frame goes back to the head of its queue, or stays at the head of its pending list (R329). -/
def entryBack (e : PlanEntry) : Act := .read fun s =>
  match e.queue with
  | none => .nop
  | some q => match s.flowOf e.port q with
    | none => .nop
    | some f => returnPacket (2 + e.port.idx) f e.start

/-- A frame that goes back waits out a backoff first (R202, R209). -/
def entryDefer (e : PlanEntry) (nb be stopNs : Nat) : Act :=
  .seq (mac fun m => { m with deferred :=
      (m.deferred.filter fun d => !(d.queue == e.queue && d.start == e.start)) ++ [⟨e.queue, e.start, nb, be, stopNs⟩] })
    (entryBack e)

/-- An ACK enters the beat's transmit plan stream (R489): sent, or not sent with its reason. -/
def ackDigest (a : AckTx) (reason : Option Nat) : Act := .read fun s =>
  let bs := [0x02, BitVec.ofNat 8 a.chain.port.idx, BitVec.ofNat 8 (if reason.isSome then 0xFF else a.chain.n)] ++
    leBytes 1 a.decoder ++ leBytes 1 (match reason with | none => 0 | some r => r + 1) ++
    (a.bytes.drop 4).take 4 ++ leBytes 1 (leAt a.bytes 0 2 / 16 % 2)
  when (s.bit GEN_MODE_PAIR_CFG) (pair fun p => { p with acks := p.acks ++ [(a.startNs, bs)] })

/-- An ACK that is not sent (R207): 0 NOT_ARMED, 1 NO_CHAIN, 2 LATE_SYNTH, 3 CX_DENIED, 4 DUTY. -/
def ackDropped (a : AckTx) (reason : Nat) : Act :=
  let p := a.chain.port
  all [sat MAC_ACK_DROP,
    recordInput 7,
    ackDigest a (some reason),
    mac fun m => { m with ackDrops := m.ackDrops.set reason (m.ackDrops.getD reason 0 + 1) },
    .read fun s => raiseOnce 47 p.idx (leBytes 1 p.idx ++ s.u.mac.ackDrops.flatMap fun n => leBytes 2 n)]

/-- The armed ACKs of a chain are not sent (R206). -/
def acksLost (c : Chain) : Act := .read fun s =>
  let mine := s.u.mac.acks.filter fun a => decide (a.chain = c)
  all [mac fun m => { m with acks := m.acks.filter fun a => !decide (a.chain = c) },
    txUnit c fun t => { t with early := t.early.filter fun w => !w.isAck },
    each mine fun a => ackDropped a 1]

/-- The plan entries of a chain that it has not taken go back (R127). -/
def planLost (c : Chain) : Act := .read fun s =>
  let mine := s.u.sch.plan.filter fun e => decide (e.port = c.port) && e.chain == c.n
  all [sch fun x => { x with plan := x.plan.filter fun e => !(decide (e.port = c.port) && e.chain == c.n) },
    txUnit c fun t => { t with early := t.early.filter fun w => w.isAck },
    each mine entryBack]

/-! ### Coexistence (R139–R142) -/

/-- REQ and PRI follow the commands of the port (R140). -/
def cxFollow (p : RfPort) : Act := .read fun s =>
  let asks := [(s.u.rf.port p).tx0, (s.u.rf.port p).tx1].flatMap fun t =>
    ((t.cmd.filter fun c => c.req).map (·.what)).toList ++ t.early.toList
  let pri := asks.any fun w => match w with
    | .ack _ => s.bit (RFx_CX_CTL_ACK_PRI p)
    | .entry e => Nat.testBit (s.fld (RFx_CX_CTL_PRI_CLASSES p)) (s.entryClass e)
  .seq (setB (RFx_STATUS_CX_REQ p) (!asks.isEmpty || (s.u.rf.port p).cxHold))
    (rfUnit p fun u => { u with cxPri := pri || (u.cxHold && u.cxPri) })

/-- A command leaves its chain. -/
def txDrop (c : Chain) : Act :=
  all [txUnit c fun t => { t with cmd := none }, txHolding c, cxFollow c.port]

/-! ### Blanking (R117, R134, R135) -/

/-- A CCA under way on a chain is discarded and restarts when blanking ends (R135). -/
def ccaRestart (c : Chain) : Act := .read fun s =>
  match (s.tx c).cmd with
  | none => .nop
  | some d => when (decide (d.phase = .cca))
    (all [txCmd c fun d => { d with phase := .held }, wrap (RFx_CCA_RESTART c.port), txHolding c])

/-- Blanking starts; every decoder hears of its first sample (R134). -/
def blankOn (p : RfPort) (t sample : Nat) : Act := .read fun s =>
  when (!s.bit (RFx_STATUS_BLANK p))
    (all [setB (RFx_STATUS_BLANK p) true,
      rfUnit p fun u => { u with blankSince := some t },
      announce p 1 sample sample 0 (s.gain p),
      ccaRestart (chainOf p 0), ccaRestart (chainOf p 1)])

/-- A held command whose chain is locked and whose port is open goes on (R128, R135). -/
def txProceed (c : Chain) : Act := .read fun s =>
  match (s.tx c).cmd with
  | none => .nop
  | some d => when (d.due && decide (d.phase = .held) && s.txState c == stLocked &&
      s.txChannel c == s.whatChan d.what && !s.bit (RFx_STATUS_RX_CAL c.port) &&
      !(d.cca && s.bit (RFx_STATUS_BLANK c.port)))
    (.seq (txCmd c fun d => { d with phase := if d.cca then .cca else .ready }) (txHolding c))

/-- Blanking ends with its last sample; its microseconds are counted, and CCAs restart (R134, R135). -/
def blankOff (p : RfPort) (t sample : Nat) : Act := .read fun s =>
  when (s.bit (RFx_STATUS_BLANK p))
    (all [setB (RFx_STATUS_BLANK p) false,
      match (s.u.rf.port p).blankSince with
      | none => .nop
      | some b => wrapBy (RFx_BLANK_US p) ((t - b) / 1000),
      rfUnit p fun u => { u with blankSince := none },
      announce p 2 sample sample 0 (s.gain p),
      txProceed (chainOf p 0), txProceed (chainOf p 1)])

/-! ### Synthesisers -/

/-- A chain starts a calibration for a channel (R123). -/
def txCalStart (c : Chain) (k : Nat) : Act :=
  all [txUnit c fun t => { t with calibrating := true, fails := 0 },
    setF (RFx_TXn_STAT_CHANNEL c.port c.n) k,
    txSetState c stCal,
    wrap (RFx_TX_CAL c.port)]

end Act

/-- What a chain sends next: its first armed ACK, or the first entry of its plan. -/
def State.nextWhat (s : State) (c : Chain) (ack : Bool) : Option TxWhat :=
  if ack then (s.u.mac.acks.find? fun a => decide (a.chain = c)).map .ack
  else (s.u.sch.plan.find? fun e => decide (e.port = c.port) && e.chain == c.n).map .entry

/-- The channel of what a chain sends next: the command it holds, else its armed ACKs and its plan, the earlier
first. -/
def State.nextChan (s : State) (c : Chain) : Option Nat :=
  match (s.tx c).cmd.filter fun d => !d.phase.inSeq with
  | some d => some (s.whatChan d.what)
  | none =>
    let plan := (s.u.sch.plan.find? fun e => decide (e.port = c.port) && e.chain == c.n).map fun e =>
      (e.planned, s.whatChan (.entry e))
    let ack := (s.u.mac.acks.find? fun a => decide (a.chain = c)).map fun a => (a.startNs, a.chan)
    match plan, ack with
    | some a, some b => some (if a.1 ≤ b.1 then a.2 else b.2)
    | some a, none => some a.2
    | none, b => b.map (·.2)

namespace Act

/-- A chain that is free moves to the channel it is needed on next (R123); a shadow's chains stay idle (R351). -/
def txRetune (c : Chain) : Act := .read fun s =>
  match s.nextChan c with
  | none => .nop
  | some k => when (!s.shadows && s.txEn c && s.chainKept c.idx && !(s.tx c).inSeq &&
      (s.txState c == stIdle || ((s.txState c == stLocked || s.txState c == stCal) && !(s.txChannel c == k))))
    (txCalStart c k)

/-! ### Taking a command -/

/-- The command of a chain with nothing under way: its earliest armed ACK, or the first entry of its plan. -/
def txTake (c : Chain) (ack : Bool) : Act := .read fun s =>
  let fresh := fun (w : TxWhat) (cca : Bool) (nb be : Nat) =>
    let d : TxCmd := { what := w, phase := .held, due := false, cca := cca, nb := nb, be := be, bytes := [],
                       xNs := none, rampNs := none, recal := false, req := (s.tx c).early == some w, granted := false }
    txUnit c fun t => { t with cmd := some d, early := none }
  when ((s.tx c).cmd.isNone)
    (if ack then match s.u.mac.acks.find? fun a => decide (a.chain = c) with
      | none => .nop
      | some a => .seq (mac fun m => { m with acks := m.acks.erase a }) (fresh (.ack a) false 0 0)
    else match s.u.sch.plan.find? fun e => decide (e.port = c.port) && e.chain == c.n with
      | none => .nop
      | some e =>
        let d := s.deferredOf e.queue e.start
        .seq (sch fun x => { x with plan := x.plan.erase e })
          (fresh (.entry e) (s.bit (MAC_CCA_x_LBT_EN c.port)) ((d.map (·.nb)).getD 0)
            ((d.map (·.be)).getD (s.fld MAC_BACKOFF_BE_MIN))))

/-- A command that does not reach X ends: an ACK with the reason of R207, a frame back to its queue. -/
def txGiveUp (c : Chain) (reason : Nat) : Act := .read fun s =>
  match (s.tx c).cmd with
  | none => .nop
  | some d => .seq (txDrop c) (match d.what with
    | .ack a => ackDropped a reason
    | .entry e => entryBack e)

/-! ### Ending early (R126, R127, R137, R142) -/

/-- The driver ramps down at once; `back` sends a frame back to its queue, otherwise its packet is released, as a
beacon's always is (R436). -/
def txAbort (c : Chain) (recal back : Bool) : Act := .read fun s =>
  match (s.tx c).cmd with
  | none => .nop
  | some d => when d.phase.sending
    (.seq (txCmd c fun d => { d with phase := .down, recal := recal })
      (match d.what with
      | .ack _ => .nop
      | .entry e => if back && !((parseMac d.bytes).typ == 3 && !d.bytes.isEmpty) then entryBack e else match e.queue with
        | some q => airRelease e.port q e.start
        | none => .nop))

/-- A chain goes out of service (R127): EN cleared, FAULT, or the port off. -/
def txOff (c : Chain) : Act := .read fun s =>
  all [if (s.tx c).sending then txAbort c false true else when (!(s.tx c).inSeq) (txGiveUp c 1),
    planLost c, acksLost c]

/-- TX_ABORT_ON_MODE (R137). -/
def txModeAbort : Act :=
  each [Chain.ts0, .ts1, .tw0, .tw1] fun c => .read fun s =>
    all [if (s.tx c).sending then txAbort c false false else when (!(s.tx c).inSeq) (txGiveUp c 1),
      planLost c, acksLost c,
      txCmd c fun d => { d with req := d.req && d.phase.inSeq }]

/-- What has not reached X waits (R120, R121): a frame is held, and an ACK is not sent (R206). -/
def txSuspend (c : Chain) : Act :=
  all [ccaRestart c,
    .read fun s => match (s.tx c).cmd with
      | none => .nop
      | some d => when (!d.phase.inSeq) (match d.what with
        | .ack _ => txGiveUp c 1
        | .entry _ => when (decide (d.phase = .ready)) (txCmd c fun d => { d with phase := .held })),
    txHolding c,
    acksLost c]

/-! ### Airtime (R144–R147) -/

/-- USED and DUTY_FULL follow a region's history. -/
def dutyStat (p : RfPort) (r : Nat) : Act := .read fun s =>
  let d := s.dutyRegion p r
  let full := s.dutyOn p r && (match s.dutyAck p r with
    | none => false
    | some t => !s.dutyFits p r t 0)
  all [.reg (RFx_DUTYr_USED p r) (BitVec.ofNat 32 (d.used / 1000)),
    setF ⟨RFx_STATUS p, 16 + r, 1⟩ (if full then 1 else 0)]

/-- A region's record updated; RF_DUTY_WARN at 90 %, armed again below 80 % (R146). -/
def dutySet (p : RfPort) (r : Nat) (d : DutyRegion) : Act := .read fun s =>
  let allow := s.dutyAllow p r
  let high := Nat.blt 0 allow && Nat.ble (9 * allow) (10 * d.used)
  let low := Nat.blt (5 * d.used) (4 * allow)
  all [rfUnit p fun u => { u with duty := u.duty.setD r DutyRegion.empty { d with warned := (d.warned || high) && !low } },
    dutyStat p r,
    when (high && !d.warned) (raise 24 (leBytes 1 p.idx ++ leBytes 1 r))]

/-- A transmission's airtime joins the current bucket of every region it counts against (R143, R144). -/
def dutyAdd (p : RfPort) (k rate t : Nat) : Act := .read fun s =>
  each (List.range 16) fun r => when (s.dutyOn p r && s.dutyHits p r k rate)
    (let d := s.dutyRegion p r
    dutySet p r { d with buckets := (d.buckets.headD 0 + t) :: d.buckets.tail })

/-- The history of a region is cleared (R147). -/
def dutyClear (p : RfPort) (r : Nat) : Act :=
  all [rfUnit p fun u => { u with duty := u.duty.setD r DutyRegion.empty DutyRegion.empty },
    dutyStat p r, raise 25 (leBytes 1 p.idx ++ leBytes 1 r)]

/-- A write to a region's BAND or LIMIT register (R147, R158). -/
def dutyWrite (p : RfPort) (r : Nat) (band : Bool) (w : Word) : Act := .read fun s =>
  let a := if band then RFx_DUTYr_BAND p r else RFx_DUTYr_LIMIT p r
  let moved := if band then !(s.reg a == w) else !(fieldOf (s.reg a) 14 12 == fieldOf w 14 12)
  .seq (.reg a w) (if moved then dutyClear p r else dutyStat p r)

/-! ### Receive calibration (R119–R121, R151) -/

/-- A recalibration is requested: RX_CAL reads 1 from here on. -/
def recalRequest (p : RfPort) (cause : Nat) : Act :=
  all [setB (RFx_STATUS_RX_CAL p) true,
    rfUnit p fun u => { u with recal := some ⟨cause, false⟩, rxFails := 0 }, rxRunning p]

/-- Step 1 starts: the port blanks and its frames abort (R120). -/
def recalStart (p : RfPort) (cause t sample : Nat) : Act :=
  all [setB (RFx_STATUS_RX_CAL p) true, setB (RFx_STATUS_RX_LOCKED p) false,
    rfUnit p fun u => { u with recal := some ⟨cause, true⟩ },
    endPort p rxPortOff, rxRunning p,
    blankOn p t sample,
    txSuspend (chainOf p 0), txSuspend (chainOf p 1)]

/-- The port goes out of service (R151): sequences end as R127 gives, frames abort, the port blanks. -/
def portOff (p : RfPort) (t sample : Nat) : Act :=
  all [txOff (chainOf p 0), txOff (chainOf p 1),
    setB (RFx_STATUS_RX_LOCKED p) false, setB (RFx_STATUS_RX_CAL p) false,
    rfUnit p fun u => { u with recal := none },
    endPort p rxPortOff, rxRunning p,
    blankOn p t sample]

/-- A write to RFx_SLICE (R151). -/
def sliceWrite (p : RfPort) (w : Word) (t sample : Nat) : Act := .read fun s =>
  let old := s.reg (RFx_SLICE p)
  let was := s.bit (RFx_SLICE_EN p)
  let now := Nat.beq (fieldOf w 14 1) 1
  .seq (.reg (RFx_SLICE p) w)
    (if was && !now then portOff p t sample
    else if now && !was then recalRequest p 0
    else when (now && !(fieldOf old 0 14 == fieldOf w 0 14)) (recalRequest p 1))

/-- A write to RFx_RXCAL (R120): refused while RX_CAL is 1. -/
def rxcalWrite (p : RfPort) (w : Word) : Act := .read fun s =>
  when (w.getLsbD 0)
    (if s.bit (RFx_STATUS_RX_CAL p) then sat (RFx_RXCAL_REFUSED p) else recalRequest p 1)

/-- A write to RFx_TXn_CTL (R127, R156, R206). -/
def txCtlWrite (c : Chain) (w : Word) : Act := .read fun s =>
  let a := RFx_TXn_CTL c.port c.n
  let was := s.txEn c
  let now := w.getLsbD 0
  all [.reg a w,
    when (was && !now) (all [txOff c, when (!(s.tx c).sending) (txSetState c stIdle),
      txUnit c fun t => { t with calibrating := false, retries := 0 }]),
    when (!was && now) (.seq (txUnit c fun t => { t with retries := 0 }) (txCalStart c (s.txChannel c))),
    when (!w.getLsbD 1) (acksLost c)]

/-- A write to RFx_CX_CTL (R154): EN = 0 drops REQ and PRI at once. -/
def cxCtlWrite (p : RfPort) (w : Word) : Act :=
  .seq (.reg (RFx_CX_CTL p) w) (when (!w.getLsbD 0)
    (all [each [chainOf p 0, chainOf p 1] fun c => .seq (txCmd c fun d => { d with req := false })
        (txUnit c fun t => { t with early := none }),
      rfUnit p fun u => { u with cxHold := false, cxPri := false }, cxFollow p]))

/-- What every boundary does on the RF ports: failed receivers and chains in FAULT retry (R121, R125), buckets age. -/
def rfBoundary : Act := .read fun s =>
  all [each [RfPort.s, .w] fun p =>
      when (s.bit (RFx_SLICE_EN p) && !s.bit (RFx_STATUS_RX_LOCKED p) && (s.u.rf.port p).recal.isNone &&
          Nat.ble 3 (s.u.rf.port p).rxFails)
        (.seq (setB (RFx_STATUS_RX_CAL p) true) (rfUnit p fun u => { u with recal := some ⟨2, true⟩ })),
    each [Chain.ts0, .ts1, .tw0, .tw1] fun c =>
      when (s.txState c == stFault && Nat.blt 0 (s.tx c).retries)
        (.seq (txUnit c fun t => { t with retries := t.retries - 1, calibrating := true }) (wrap (RFx_TX_CAL c.port))),
    each [RfPort.s, .w] fun p => rfUnit p fun u =>
      let ageing := (List.range 16).filter fun r => s.dutyOn p r || (u.duty.get? r).isSome
      let aged := ageing.foldl (fun m r =>
        let d := m.getD r DutyRegion.empty
        m.setD r DutyRegion.empty { d with beats := d.beats + 1 }) u.duty
      { u with duty := aged }]

end Act

end Sys2Proof.Machine
end

