-- ==== Sys2Proof/Machine/MacOps.lean ====
section
/-!
DEFINITION. Machine/MacOps.lean: the shared operations of the MAC unit (R199–R244): sealing, retries, the received
frame's checks, ACKs, polls and listen windows, beacons, joins and the Bridle.
-/

namespace Sys2Proof.Machine

open Sys2Proof Sys2Proof.Reg

/-- Airtime of a 14-byte ACK. -/
def ackNs (rate : Nat) : Nat := Air.airtimeNs rate 14

/-! ### Sealing (R104, R105, R391) -/

/-- The configured minimum LEVEL of a TYPE (R104). -/
def State.minLevel (s : State) (typ : Nat) : Nat := s.u.sec.levels.getD typ (if typ = 3 then 2 else 6)

namespace Act

/-- One seal of a frame: the counter is taken, the key obtained, and the counter stored with its completion (R391). -/
def sealOne (k : FrameKey) (seal_ : List Nat → Nat → Nat → List Byte) (refuse : Act) (next : List Byte → Act) : Act :=
  takeCtr k refuse fun c => .read fun s =>
    let (slot, label) := s.frameLabel k true s.epoch
    derived slot label (.seq (sat SEC_INVALID_KEY) refuse) fun key =>
      all [wrap SEC_CCM_OPS, storeCtr k c, next (seal_ key s.epoch c)]

/-- The BCAST and MESH keys of a SET_KEYS command take their places in its plaintext, from the NET_ROOT slot and the GROUP
the frame names; any other frame stays (R622). -/
def groupKeys (f : List Byte) (refuse : Act) (k : List Byte → Act) : Act := .read fun s =>
  let p := parseMac f
  let slot := s.fld SEC_ROOTMAP_NET_ROOT
  let label := fun purpose => labelOf purpose 0 s.u.boot.networkId 0 0 0 (leAt f (p.bodyAt + 3) 4)
  if p.typ = 5 ∧ leAt f p.bodyAt 1 = 1 then
    derived slot (label 5) refuse fun b => derived slot (label 6) refuse fun m =>
      k (patch f (p.bodyAt + 7) (bytesOfNat (b ++ m)))
  else k f

/-- A frame without MICs and FCS is sealed: end to end first, then at the link (R105). -/
def sealFrame (link : FrameKey) (f : List Byte) (refuse : Act) (next : List Byte → Act) : Act :=
  let p := parseMac f
  let outer := fun g => sealOne link (fun key ep c => linkSeal key ep c g) refuse next
  groupKeys f refuse fun f =>
    if p.e2e then sealOne (.e2e p.final) (fun key ep c => e2eSeal key ep c f) refuse outer else outer f

end Act

/-- A frame's header: FRAME_CONTROL, NETWORK_ID, DST, SRC 0x00_0000, and a link security header to be filled. -/
def State.macHead (s : State) (typ flags dstMode dst level : Nat) : List Byte :=
  leBytes 2 (typ + 8 + flags + 256 * dstMode + 1024) ++ leBytes 2 s.u.boot.networkId ++
    leBytes (modeBytes dstMode) dst ++ leBytes 3 0 ++ leBytes 1 level ++ leBytes 6 0

/-! ### Queueing the device's own control frames -/

/-- The lowest-numbered flow of class control of a port, with its queue (log 45). -/
def State.controlFlow (s : State) (p : RfPort) : Option (Nat × Nat) :=
  (List.range 64).findSome? fun f =>
    if s.fld (SCH_AIRx_Fq_CLASS p f) = 0 then (s.flowQueue (2 + p.idx) f).map fun q => (f, q) else none

namespace Act

/-- What a placement request registers of the packet that starts at `start` (R339). -/
def placePacket (q start decoder cls len : Nat) : Act :=
  queue q fun x => { x with packets := x.packets.map fun p =>
    if p.start = start then { p with decoder := some decoder, cls := cls, length := len } else p }

/-- A sealed frame joins an air flow queue with its placement request; `k` is told queue, packet, and whether the queue
took it. -/
def airEnq (p : RfPort) (f q decoder cls : Nat) (bs : List Byte) (k : Nat → Nat → Bool → Act) : Act := .read fun s =>
  let start := (s.queue q).cptr.toNat
  enqPacket q ⟨true, s.workBeat, fun n => n, 0, none, none⟩ bs fun ok =>
    .seq (when ok (.seq (placePacket q start decoder cls bs.length) (stamp false (2 + p.idx) f))) (k q start ok)

/-- A sealed control frame joins the control flow of a port; `k` is told queue and packet. -/
def sendControl (p : RfPort) (decoder cls : Nat) (bs : List Byte) (k : Nat → Nat → Act) : Act := .read fun s =>
  match s.controlFlow p with
  | none => .nop
  | some (f, q) => airEnq p f q decoder cls bs fun q start ok => when ok (k q start)

/-! ### Retries (R209) -/

/-- One attempt at a frame with AR = 1 failed: it waits out a fresh backoff for its next retransmission, or is dropped. -/
def attemptFailed (e : PlanEntry) (draw t : Nat) : Act := .read fun s =>
  let r := s.entryRetries e
  if r < s.fld MAC_RETRY_MAX then
    let be := s.fld MAC_BACKOFF_BE_MIN
    let wait := draw % 2 ^ be * s.fld MAC_BACKOFF_UNIT_US * 1000
    .seq (match e.queue with
      | none => memBytes (e.start + 15) (leBytes 1 (r + 1))
      | some q => queue q fun x => { x with packets := x.packets.map fun p =>
          if p.start = e.start then { p with retries := r + 1 } else p })
      (entryDefer e 0 (min (be + 1) (s.fld MAC_BACKOFF_BE_MAX)) (t + wait))
  else
    let dst := (parseMac (s.entryBytes e)).dst
    all [entryDone e, campDone e.queue e.start false, sat MAC_RETRY_EXH, raise 39 (leBytes 3 dst ++ leBytes 1 e.decoder)]

end Act

/-! ### Received frames -/

/-- A frame's bytes from its decoded bits, descrambled (R90). -/
def descramble (bits : List Bool) : List Byte :=
  let b := Air.whiten 0x4A80 bits
  (List.range (b.length / 8)).map fun i =>
    BitVec.ofNat 8 ((List.range 8).foldl (fun v j => if b.getD (8 * i + j) false then v + 2 ^ j else v) 0)

/-- The first check of R112 a frame fails, in order, with its drop reason (R217). -/
def State.structureDrop (s : State) (f : List Byte) (p : MacParts) (beacon : Bool) : Option Nat :=
  if p.ver ≠ 0 then some 1
  else if p.netId ≠ s.u.boot.networkId then some 2
  else if (p.typ == 3) != beacon then some 3
  else if !p.allowed beacon then some 4
  else if p.typ = 1 then none
  else if !levelAtLeast p.level (s.minLevel p.typ) || (p.e2e && !levelAtLeast p.e2eLevel (s.minLevel p.typ)) then some 5
  else if !p.fits f then some 6
  else if p.mesh && Nat.blt p.routeLen p.routeIdx then some 7
  else if !p.forUs then some 8
  else none

/-- The key of a received frame (R369). -/
def MacParts.key (p : MacParts) : FrameKey :=
  if p.dstMode = 1 ∧ p.dst = 0xFFFFFF then .mesh
  else if p.typ = 4 ∧ p.srcMode = 2 then .join p.src
  else .link p.src

/-- A direct JOIN: its source has no record (R102). -/
def MacParts.directJoin (p : MacParts) : Bool := p.typ == 4 && p.srcMode == 2

/-- digest(frame) (R213). -/
def frameDigest (f : List Byte) (p : MacParts) : Nat := leAt f (f.length - 4 - p.micBytes) 4

/-- The outcomes of R212: 0 NEW, 1 DUPLICATE, 2 REPLAY, 3 STALE. -/
def replayOutcome (seen : Bool) (epoch ctr e c : Nat) (same : Bool) : Nat :=
  if !seen then 0
  else
    let d := (e + 65536 - epoch) % 65536
    if d = 0 then (if ctr < c then 0 else if c = ctr then (if same then 1 else 2) else 3)
    else if d ≤ 0x7FFF then 0 else 3

/-- The join replay table's entry for an EUI-64 (R370), 16 bytes: EUI-64, epoch, counter, two bytes 0 (log 46). -/
def State.joinSlot (s : State) (eui : Nat) : Nat :=
  s.systemBase + 0x200000 + 16 * ((crc32 (leBytes 8 eui)).toNat % 65536)

/-- The link replay check of a frame (R212), or of a direct join request (R370), without its update. -/
def State.linkOutcome (s : State) (f : List Byte) (p : MacParts) : Nat :=
  if p.directJoin then
    let a := s.joinSlot p.src
    replayOutcome (s.le a 8 == p.src) (s.le (a + 8) 2) (s.le (a + 10) 4) p.epoch p.ctr
      (s.u.sec.replay.getD (a / 16) [] == f)
  else replayOutcome (s.recFlag p.src 5) (s.node p.src Node.LINK_EPOCH) (s.node p.src Node.LINK_CTR) p.epoch p.ctr
    (s.node p.src Node.LINK_DIGEST == frameDigest f p)

/-- One frame in the MAC unit, by its place in the order of END. -/
def State.macFrame (s : State) (i : Nat) : Option MacFrame := s.u.mac.frames[i]?

/-- A frame with an earlier END from the same source is still being checked (R211). -/
def State.macBlocked (s : State) (i : Nat) : Bool :=
  match s.macFrame i with
  | none => true
  | some f =>
    let src := (parseMac f.bytes).src
    (s.u.mac.frames.take i).any fun g =>
      (parseMac g.bytes).src == src && !(decide (g.stage = .deliver)) && !(decide (g.stage = .ack))

/-- PEND of an ACK (R205, R262): the entry of the pipeline the frame came in on, else the record. -/
def State.ackPend (s : State) (p : RfPort) (nsa : Nat) : Bool :=
  s.sleepyChild nsa && (match s.lookupEntry p.idx nsa with
    | some e => entryPend p.idx e
    | none => Nat.blt 0 (s.node nsa Node.PEND_COUNT))

/-- One chain's time taken by the plan: from X − c to the latest return edge (R341). -/
def State.occupancy (s : State) (e : PlanEntry) : Nat × Nat :=
  let r := s.chRate e.decoder
  (e.x - s.ccaNs e.port, e.latest + Air.airtimeNs r e.length + s.backNs e.port r)

/-- An armed ACK's sequence: from X to its return edge (R206). -/
def State.ackSpan (s : State) (p : RfPort) (a : AckTx) : Nat × Nat :=
  (a.startNs - s.preNs p a.rate, a.startNs + ackNs a.rate + s.backNs p a.rate)

/-- A chain's command in progress, as time taken. -/
def State.cmdSpan (s : State) (c : Chain) : Option (Nat × Nat) :=
  (s.tx c).cmd.map fun d => match d.what with
    | .entry e => s.occupancy e
    | .ack a => s.ackSpan c.port a

/-- Everything planned or armed on a chain. -/
def State.chainSpans (s : State) (c : Chain) : List (Nat × Nat) :=
  ((s.u.sch.plan.filter fun e => decide (e.port = c.port) && e.chain == c.n).map s.occupancy) ++
  ((s.u.mac.acks.filter fun a => decide (a.chain = c)).map (s.ackSpan c.port)) ++ (s.cmdSpan c).toList

/-- The chain an ACK is armed on (R206), and whether it must move channel. -/
def State.ackChain (s : State) (p : RfPort) (chan rate startNs t : Nat) : Option (Chain × Bool) :=
  let span := (startNs - s.preNs p rate, startNs + ackNs rate + s.backNs p rate)
  let able := [chainOf p 0, chainOf p 1].filter fun c =>
    s.txEn c && s.bit (RFx_TXn_CTL_ACK_OK p c.n) && !(s.chainState c == stFault) && s.chainKept c.idx &&
    !s.bit (RFx_STATUS_RX_CAL p)
  let free := fun (c : Chain) (sp : Nat × Nat) => !((s.chainSpans c).any fun x => overlaps x sp)
  let here := able.find? fun c => s.chainChan c == chan &&
    (s.chainState c == stLocked || s.chainState c == stTx) && free c span
  match here with
  | some c => some (c, false)
  | none => (able.find? fun c => free c (t, span.2) && !(s.chainState c == stTx) &&
      Nat.ble (t + 90000 + s.preNs p rate) startNs).map fun c => (c, true)

/-- A planned switchover stops an ACK whose frame start falls at or after the start of beat H (R493). -/
def State.switchStops (s : State) (start : Nat) : Bool :=
  match s.u.pair.switch with
  | some w => w.acked && !w.incoming && Nat.ble (w.h * 1000000) start
  | none => false

/-- On a shadow: a check of a received frame was LATE on the active unit, and is LATE here (R64). -/
def State.lateHere (s : State) (f : MacFrame) (e2e : Bool) : Bool :=
  s.shadows && s.u.pair.lateFrames.any fun x =>
    x.1 == f.rx.decoder && x.2.1 == s.sampleNs f.rx.stop && x.2.2 == e2e

namespace Act

/-- A frame leaves the MAC unit. -/
def macGone (id : Nat) : Act := mac fun m => { m with frames := m.frames.filter fun f => !(f.id == id) }

/-- A frame is dropped with a reason of R217. -/
def macDrop (id r : Nat) : Act := .seq (sat (MAC_DROPr r)) (macGone id)

def macSet (id : Nat) (g : MacFrame → MacFrame) : Act :=
  mac fun m => { m with frames := m.frames.map fun f => if f.id = id then g f else f }

/-- ACK_ARM (R204–R207, R493): the ACK to a frame whose link checks end at device time t. -/
def ackArm (f : MacFrame) (p : MacParts) (t : Nat) : Act := .read fun s =>
  let port := decoderPort f.rx.decoder
  let rate := f.rx.rate
  let stop := s.sampleNs f.rx.stop
  let start := stop + turnaroundNs rate
  let chan := s.fld (RXD_CHn_CFG_CHANNEL f.rx.decoder)
  let mic := (f.bytes.drop (f.bytes.length - 4 - p.micBytes)).take 2
  if !s.meshRuns || (s.u.pwr.driftEntry == 1 && Nat.ble ((s.u.bt.beat + 1) * 1000000) start) ||
      Nat.ble 2 s.u.pwr.driftEntry || s.switchStops start then .nop
  else if !s.shadows && Nat.blt (stop + turnaroundNs rate - 100000) t then
    ackDropped ⟨p.linkSource, chan, rate, ackFrame s.u.boot.networkId p.ctr mic (s.ackPend port p.src), start, f.rx.decoder,
      chainOf port 0⟩ 0
  else match s.ackChain port chan rate start t with
    | none => ackDropped ⟨p.linkSource, chan, rate, ackFrame s.u.boot.networkId p.ctr mic (s.ackPend port p.src), start,
        f.rx.decoder, chainOf port 0⟩ 1
    | some (c, move) =>
      let a : AckTx := ⟨p.linkSource, chan, rate, ackFrame s.u.boot.networkId p.ctr mic (s.ackPend port p.src), start,
        f.rx.decoder, c⟩
      .seq (mac fun m => { m with acks := m.acks ++ [a] }) (when (move && !s.shadows) (txCalStart c chan))

/-! ### Polls and listen windows (R221–R225, R671) -/

end Act

/-- Half-width of poll window k in ns (R223). -/
def State.pollGuard (s : State) (period k : Nat) : Nat :=
  min (1000000 * s.fld MAC_POLL_GUARD_BASE_MS + k * period * 1000000000 / 20000) (period * 1000000000 / 4)

/-- A POLL that ends at device time t lies inside one of its node's windows; true where the node has none. -/
def State.pollInside (s : State) (nsa t : Nat) : Bool :=
  let period := s.node nsa Node.POLL_PERIOD_S
  let a := s.node nsa Node.ANCHOR_S * 1000000000 + s.node nsa Node.ANCHOR_NS
  let p := period * 1000000000
  if period = 0 ∨ a = 0 then true
  else
    let el := t % (2 ^ 32 * 1000000000) - a
    [el / p, el / p + 1].any fun k => Nat.blt 0 k &&
      Nat.ble (max el (k * p) - min el (k * p)) (s.pollGuard period k)

namespace Act

/-- POLL_RESPONSE (R221, R225, R671): an accepted POLL from a node. -/
def pollAccepted (f : MacFrame) (p : MacParts) (body : List Byte) : Act := .read fun s =>
  let nsa := p.src
  let port := decoderPort f.rx.decoder
  let flags := leAt body 0 1
  let ms := leAt body 1 1
  let t := s.sampleNs f.rx.stop
  let ackEnd := t + turnaroundNs f.rx.rate + ackNs f.rx.rate
  let inside := s.pollInside nsa t
  let st := stateWith (s.node nsa Node.STATE) 4 (Nat.testBit flags 1)
  let pend := s.ackPend port nsa
  all [wrap MAC_POLLS,
    when (!inside) (.seq (sat MAC_POLL_OUTSIDE)
      (when (Nat.testBit flags 0) (raise 42 (leBytes 3 nsa ++ leBytes 1 f.rx.decoder)))),
    recUpdate nsa [(Node.STATE, st), (Node.ANCHOR_S, t / 1000000000 % 2 ^ 32), (Node.ANCHOR_NS, t % 1000000000)],
    when (pend && Nat.blt 0 ms)
      (if s.u.mac.listens.any fun l => l.nsa == nsa && !l.closed then
        mac fun m => { m with listens := m.listens.map fun l =>
          if l.nsa = nsa ∧ l.closed = false then
            { l with closeNs := max l.closeNs (ackEnd + 1000000 * ms), decoder := f.rx.decoder, listenMs := ms }
          else l }
      else mac fun m => { m with listens := m.listens ++
        [⟨nsa, ackEnd + 200000, ackEnd + 1000000 * ms, false, ms, f.rx.decoder, [], false, [], false⟩] })]

/-- The pending frames of a child are sealed, each with PEND = 1 where a further frame stands behind it (R221, R224); a
frame whose seal is refused stays as it is. -/
def pendSeal (nsa : Nat) : List Nat → Act
  | [] => .nop
  | a :: l => .seq (.read fun s => when (!s.pendSealed a)
      (let f := s.pendFrame a
      let fc := leAt f 0 2
      let g := patch f 0 (leBytes 2 (stateWith fc 4 (!l.isEmpty)))
      sealFrame (.link nsa) g .nop fun bs => .read fun t =>
        all [memBytes (a + 12) (leBytes 2 bs.length ++ leBytes 1 (stateWith (t.le (a + 14) 1) 0 true)),
          memBytes (a + 64) (padTo 1024 bs)]))
    (pendSeal nsa l)

/-- Removals that a listen window holds back wait for its close (R220). -/
def pendTake (nsa : Nat) (gone : List Nat) : Act := .read fun s =>
  if s.u.mac.listens.any fun l => l.nsa == nsa && !l.closed then
    mac fun m => { m with listens := m.listens.map fun l =>
      if l.nsa = nsa then { l with drop := l.drop ++ gone.filter fun a => !l.drop.contains a } else l }
  else pendRemove nsa gone

/-! ### Beacons (R226, R227, R435) -/

end Act

/-- Whether beat m is a nominal beat of decoder n (R226). -/
def State.beaconDue (s : State) (n m : Nat) : Bool :=
  let p := s.fld MAC_BEACON_PERIOD_MS
  Nat.blt 0 p && m % p == n * p / 80

/-- The next nominal beat after beat m. -/
def State.nextBeacon (s : State) (n m : Nat) : Nat :=
  let p := s.fld MAC_BEACON_PERIOD_MS
  let o := n * p / 80
  m + (if o ≤ m % p then p + o - m % p else o - m % p)

/-- Beaconing is enabled on decoder n (R243, R244). -/
def State.beaconOn (s : State) (n : Nat) : Bool :=
  s.bit MAC_BEACON_EN && Nat.testBit (s.reg (if n < 32 then MAC_BEACON_EN0 else if n < 64 then MAC_BEACON_EN1
    else MAC_BEACON_EN2)).toNat (n % 32) && s.bit (RXD_CHn_CFG_EN n)

/-- The type fields of a beacon. -/
def beaconFields (open_ valid : Bool) (sec ns next : Nat) : List Byte :=
  leBytes 1 ((if open_ then 1 else 0) + (if valid then 2 else 0)) ++ leBytes 6 sec ++ leBytes 4 ns ++ leBytes 2 next

/-- Device time at a beacon's header reference, in ns, for a T/R edge at x (R435). -/
def State.headerNs (s : State) (p : RfPort) (rate x : Nat) : Nat :=
  let delay := s.fld (match p with | .s => TK_BCN_DELAY_DELAY_S | .w => TK_BCN_DELAY_DELAY_W)
  let d := s.preNs p rate + 156 * symbolNs rate + delay
  (x * 2 ^ 32 + d * s.u.tk.inc / 4) / 2 ^ 32

namespace Act

/-- BEACON_TIME_INSERT (R435): the TIME fields and NEXT_BEACON_MS are filled at X, and the link MIC is computed. -/
def beaconFill (e : PlanEntry) (f : List Byte) (x : Nat) (k : List Byte → Act) : Act := .read fun s =>
  let p := parseMac f
  let rate := s.chRate e.decoder
  let t := s.headerNs e.port rate x
  let ahead := s.nextBeacon e.decoder s.workBeat - s.workBeat
  let next := if s.beaconOn e.decoder && Nat.ble ahead 65535 then ahead else 0
  let (slot, label) := s.frameLabel .bcast true p.epoch
  derived slot label (k f) fun key =>
    let open_ := match linkOpen key f p with
      | some b => Nat.testBit (leAt b 0 1) 0
      | none => false
    let plain := f.take p.bodyAt ++ beaconFields open_ (s.bit TK_STATUS_TRACE) (t / 1000000000 % 2 ^ 48)
      (t % 1000000000) next
    all [wrap TK_BCN_INSERT, k (linkSeal key p.epoch p.ctr plain)]

/-- A queued packet of the device's own is discarded before it started: out of the plan, off its chain, released. -/
def discardPacket (p : RfPort) (q start : Nat) : Act :=
  all [sch fun x => { x with plan := x.plan.filter fun e => !(e.queue == some q && e.start == start) },
    each [chainOf p 0, chainOf p 1] fun c => .read fun s =>
      match (s.tx c).cmd with
      | none => .nop
      | some d => match d.what with
        | .entry e => when (e.queue == some q && e.start == start && !d.phase.inSeq) (txDrop c)
        | .ack _ => .nop,
    airRelease p q start]

end Act

/-- A packet is in its transmit sequence. -/
def State.started (s : State) (q start : Nat) : Bool :=
  [Chain.ts0, .ts1, .tw0, .tw1].any fun c => match (s.tx c).cmd with
    | none => false
    | some d => d.phase.inSeq && (match d.what with
      | .entry e => e.queue == some q && e.start == start
      | .ack _ => false)

namespace Act

/-! ### Joins (R228–R231) -/

/-- A JOIN response (R110, R369): to the EUI-64 of a direct joiner, or to the relay, over the route to it. -/
def joinSend (r : JoinReq) (cls : Nat) (body : List Byte) (sent : Act) : Act := .read fun s =>
  let level := s.minLevel 4
  if r.relay = 0xFFFFFF then
    sealFrame (.join r.eui) (s.macHead 4 32 2 r.eui level ++ body) .nop fun bs =>
      sendControl r.port r.decoder cls bs fun _ _ => sent
  else
    let w := s.walk r.relay fun _ => false
    let hop := w.nsa
    let mesh := if hop = r.relay then [] else
      leBytes 1 w.route.length ++ [0] ++ leBytes 1 (w.route.length + 1) ++ leBytes 3 0 ++ leBytes 3 r.relay ++
        w.route.flatMap (leBytes 3)
    .seq (walkCounts w) (when (w.reason == 0)
      (sealFrame (.link hop) (s.macHead 4 (32 + if mesh.isEmpty then 0 else 64) 1 hop level ++ mesh ++ body) .nop fun bs =>
        sendControl r.port r.decoder cls bs fun _ _ => sent))

/-- A wait or a refuse, within the budget of R229. -/
def joinTurnAway (r : JoinReq) (cls op retry : Nat) : Act := .read fun s =>
  when (Nat.blt s.u.mac.waitsSent s.u.mac.waitPerBeat)
    (.seq (mac fun m => { m with waitsSent := m.waitsSent + 1 })
      (joinSend r cls (leBytes 1 op ++ leBytes 8 r.eui ++ leBytes 2 retry) (when (op == 3) (wrap MAC_JOIN_REFUSE))))

/-- A JOIN accept. -/
def joinAccept (r : JoinReq) (cls : Nat) (d : JoinDone) : Act :=
  joinSend r cls (leBytes 1 2 ++ leBytes 8 r.eui ++ leBytes 3 d.nsa ++ leBytes 3 d.parent ++ leBytes 2 d.period)
    (wrap MAC_JOIN_ACCEPT)

/-- One join request bound to the beat is taken (R228–R231). -/
def joinTake (cls : Nat) (r : JoinReq) : Act := .read fun s =>
  let base := s.fld MAC_JOIN_RETRY_BASE_S
  let direct := r.relay == 0xFFFFFF
  if s.u.mac.admitting.any fun a => a.eui == r.eui then
    mac fun m => { m with admitting := m.admitting.map fun a => if a.eui = r.eui then { r with beat := a.beat } else a }
  else match s.u.mac.joined.find? fun d => d.eui == r.eui && Nat.ble s.u.tk.s (d.seconds + s.fld MAC_JOIN_HOLD_S) with
    | some d => joinAccept r cls d
    | none =>
      if direct && (!s.u.mac.joinOpen || s.bit MAC_STATUS_NBR_FULL) then joinTurnAway r cls 3 base
      else if s.u.mac.admitted < s.u.mac.perBeat then
        mac fun m => { m with admitting := m.admitting ++ [r], admitted := m.admitted + 1 }
      else all [sat MAC_JOIN_OVER, joinTurnAway r cls 4 (base + r.eui % 65536 % base),
        when (!s.bit MAC_STATUS_JOIN_LIMITED)
          (.seq (setB MAC_STATUS_JOIN_LIMITED true) (raiseOnce 44 0 (leBytes 8 r.eui)))]

/-- The routing role's answer to an admission in progress (R230). -/
def joinAnswer (cls eui : Nat) (o : JoinOutcome) : Act := .read fun s =>
  match s.u.mac.admitting.find? fun a => a.eui == eui with
  | none => .nop
  | some r =>
    let gone := mac fun m => { m with admitting := m.admitting.filter fun a => !(a.eui == eui) }
    match o with
    | .waiting => .nop
    | .refuse => .seq gone (joinTurnAway r cls 3 (s.fld MAC_JOIN_RETRY_BASE_S))
    | .accept nsa parent period =>
      let d : JoinDone := ⟨eui, nsa.toNat, parent.toNat, period.toNat, s.u.tk.s⟩
      all [gone, mac fun m => { m with joined := (m.joined.filter fun j => !(j.eui == eui)) ++ [d] }, joinAccept r cls d]

/-! ### The Bridle of reports (R233, R234) -/

/-- MAC_REPORT of an entry. -/
def reportEvent (b : MacBridle) (early : Bool) : Act :=
  .seq (wrap MAC_BRIDLE_EVT)
    (raise 46 (leBytes 1 b.code ++ leBytes 3 b.subject ++ leBytes 4 b.count ++ leBytes 3 b.first ++
      leBytes 1 (if early then 1 else 0) ++ leBytes 4 b.firstBeat ++ leBytes 4 b.lastBeat ++ padTo 8 b.detail))

def bridleFollow : Act := .read fun s => setB MAC_STATUS_BRIDLE_FULL (Nat.ble 512 s.u.mac.bridle.length)

/-- An entry closes with its event. -/
def bridleEnd (b : MacBridle) (early : Bool) : Act :=
  all [mac fun m => { m with bridle := m.bridle.erase b }, reportEvent b early, bridleFollow]

/-- REPORT_OFFER (R233, R234). -/
def reportOffer (f : MacFrame) (reporter : Nat) (body : List Byte) : Act := .read fun s =>
  let code := leAt body 0 1
  let subject := leAt body 1 3
  let new : MacBridle := ⟨code, subject, 1, reporter, f.beat, f.beat, padTo 8 (body.drop 4),
    s.fld MAC_BRIDLE_WINDOW_MS⟩
  .seq (wrap MAC_REPORTS)
    (if code = 0x10 then img fun i => { i with reports := i.reports ++ [⟨reporter, subject, f.beat, body.drop 4⟩] }
    else if !s.bit MAC_BRIDLE_EN then reportEvent new false
    else if s.u.mac.bridle.any fun b => b.code == code && b.subject == subject then
      mac fun m => { m with bridle := m.bridle.map fun b =>
        if b.code = code ∧ b.subject = subject then { b with count := b.count + 1, lastBeat := f.beat } else b }
    else all [when (Nat.ble 512 s.u.mac.bridle.length) (match s.u.mac.bridle with
        | [] => .nop
        | b :: _ => .seq (sat MAC_BRIDLE_EVICT) (bridleEnd b true)),
      mac fun m => { m with bridle := m.bridle ++ [new] },
      bridleFollow])

/-! ### After the checks -/

/-- What every frame that passes R211 leaves in its source's record: the place it was heard, SILENT and the misses
cleared (R225, R248). -/
def heardFields (s : State) (f : MacFrame) (nsa : Nat) (state : Nat) : List (RecField × Nat) :=
  let st := if state % 8 = 3 then state - 1 else state
  [(Node.STATE, st), (Node.MISS_COUNT, s.node nsa Node.MISS_COUNT / 16 * 16), (Node.LAST_DECODER, f.rx.decoder),
    (Node.LAST_BEAT, f.beat % 2 ^ 32), (Node.LAST_RSSI, (f.rx.rssi % 65536).toNat)]

/-- A frame has passed every check: POLLs, JOIN requests and REPORTs are taken up, and it goes on to delivery. -/
def macPassed (f : MacFrame) (p : MacParts) (clear : List Byte) : Act := .read fun s =>
  all [when (!p.directJoin) (recUpdate p.src (heardFields s f p.src (s.node p.src Node.STATE))),
    macSet f.id fun g => { g with stage := .deliver, clear := clear, accepted := true },
    if p.typ = 2 then pollAccepted f p clear
    else if p.typ = 6 then reportOffer f p.origin clear
    else if p.typ = 4 then when (leAt clear 0 1 == 1)
      (.seq (wrap MAC_JOIN_REQ) (mac fun m => { m with joins := m.joins ++
        [⟨leAt clear 1 8, if p.srcMode = 2 then 0xFFFFFF else p.origin, p.mesh, p.origin, f.rx.stop,
          decoderPort f.rx.decoder, f.rx.decoder, f.beat⟩] }))
    else .nop]

/-! ### The MAC unit at the commit window and the boundary -/

/-- PEND_AGEING (R220). -/
def pendAgeing : Act := .read fun s =>
  let age := 1000 * s.fld MAC_PEND_AGE_S
  let old := (s.u.mac.poolUsed.map s.pendBuffer).filter fun a =>
    Nat.blt age ((s.workBeat + 2 ^ 32 - s.pendArrival a) % 2 ^ 32)
  let waits := fun (a : Nat) => s.u.mac.listens.any fun l => l.nsa == s.le (a + 4) 3 && !l.closed && l.drop.contains a
  each (old.filter fun a => !waits a) fun a => .read fun t =>
    all [pendTake (t.le (a + 4) 3) [a], sat MAC_PEND_AGED, raiseOnce 41 0 (leBytes 3 (t.le (a + 4) 3))]

/-- A poll window of a child ended without a POLL (R225). -/
def pollMiss (nsa : Nat) : Act := .read fun s =>
  let misses := min 15 (s.node nsa Node.MISS_COUNT % 16 + 1)
  let count := s.node nsa Node.MISS_COUNT / 16 * 16 + misses
  let st := s.node nsa Node.STATE
  let silent := Nat.ble (s.fld MAC_POLL_MISS_LIMIT) misses && st % 8 == 2
  all [sat MAC_POLL_MISSED,
    recUpdate nsa [(Node.MISS_COUNT, count), (Node.STATE, if silent then st + 1 else st)],
    when silent (raise 43 (leBytes 3 nsa))]

/-- A node leaves (R621): its pending frames, its FP0 and FP1 entries, its record. -/
def nodeForget (nsa : Nat) : Act := .read fun s =>
  all [pendRemove nsa (s.pendList nsa),
    tableDelete 0 nsa none fun _ _ _ _ => .nop,
    tableDelete 1 nsa none fun _ _ _ _ => .nop,
    nbrTrack nsa (recFree nsa)]

/-- The removals that closed listen windows held back take effect (R220, R621). -/
def listenDrops : Act := .read fun s =>
  .seq (each (s.u.mac.listens.filter fun l => l.closed) fun l =>
      .seq (pendRemove l.nsa l.drop) (when l.forget (nodeForget l.nsa)))
    (mac fun m => { m with listens := m.listens.filter fun l => !l.closed })

/-- The MAC unit at the commit window of a beat (R61, R217, R220, R228, R243). -/
def macCommit (beat : Nat) : Act := .read fun s =>
  let late := s.u.mac.frames.filter fun f => f.beat == beat && !decide (f.stage = .deliver) && !decide (f.stage = .ack)
  all [each late fun f => .seq (macDrop f.id 15)
      (all [wrap BT_LATE_FAST, wrap BT_LATE_TOTAL, recordInput 6]),
    pendAgeing,
    listenDrops,
    when (!s.bit MAC_BRIDLE_EN) (each s.u.mac.bridle fun b => bridleEnd b false)]

/-- The counts of the beat restart; admissions still in progress count against the new beat's limit (R228), and the
settings that apply from a beat on are taken (R242, R243). -/
def macBoundary : Act := .read fun s =>
  all [mac fun m => { m with
      admitted := m.admitting.length
      waitsSent := 0
      rejects := 0
      ackDrops := [0, 0, 0, 0, 0]
      perBeat := s.fld MAC_JOIN_PER_BEAT
      waitPerBeat := s.fld MAC_JOIN_WAIT_PER_BEAT
      joinOpen := s.bit MAC_JOIN_OPEN
      rejectLimit := s.fld MAC_E2E_EVT_LIMIT },
    setB MAC_STATUS_JOIN_LIMITED false]

end Act

end Sys2Proof.Machine
end

