-- ==== Sys2Proof/Machine/DownOps.lean ====
section
/-!
DEFINITION. Machine/DownOps.lean: sending a frame down to a node (R267, R273, R278, R621): its route, its bytes, the
band and decoder it takes, and the flow queue or pending list it joins.
-/

namespace Sys2Proof.Machine

open Sys2Proof Sys2Proof.Reg

/-- A downlink frame: TYPE, FINAL, flow class, whether it is end-to-end protected, and its type fields and payload. -/
structure Down where
  typ : Nat
  nsa : Nat
  cls : Nat
  e2e : Bool
  body : List Byte
  deriving DecidableEq, Repr

/-- The end-to-end LEVEL of a downlink frame: the minimum of its TYPE, and encryption for SET_KEYS (R622). -/
def State.downLevel (s : State) (d : Down) : Nat :=
  let m := s.minLevel d.typ
  if d.typ = 5 ∧ leAt d.body 0 1 = 1 ∧ m < 5 then 6 else m

/-- The frame along a route, without MICs and FCS (R101, R106, R108): a mesh header where it is relayed, or where
DATA is end-to-end protected (R109). -/
def State.downFrame (s : State) (d : Down) (hop : Nat) (route : List Nat) : List Byte :=
  let mesh := !route.isEmpty || (d.e2e && d.typ == 0)
  let flags := 32 + (if mesh then 64 else 0) + (if d.e2e then 128 else 0)
  s.macHead d.typ flags 1 hop (s.minLevel d.typ) ++
    (if mesh then leBytes 1 route.length ++ [0] ++ leBytes 1 (route.length + 1) ++ leBytes 3 0 ++ leBytes 3 d.nsa ++
      route.flatMap (leBytes 3) else []) ++
    (if d.e2e then leBytes 1 (s.downLevel d) ++ leBytes 6 0 else []) ++ d.body

/-- The length of the sealed frame. -/
def sealedLength (f : List Byte) : Nat :=
  let p := parseMac f
  f.length + p.e2eMicBytes + p.micBytes + 4

/-- A first hop's AIR entry on a band. -/
def State.airEntry (s : State) (p : RfPort) (nsa : Nat) : Option Entry := s.lookupEntry p.idx nsa

def entryDirect (e : Option Entry) : Bool := match e with | some e => e.fld 27 1 == 1 | none => false

/-- The band for a first hop (R267); `pick` where the rules leave it to policy. -/
def State.bandOf (s : State) (hop : Nat) (pick : RfPort) : RfPort :=
  let es := s.airEntry .s hop
  let ew := s.airEntry .w hop
  let ds := entryDirect es
  let dw := entryDirect ew
  if s.node hop Node.PARENT = 0 ∧ ds = false ∧ dw = false then decoderPort (s.node hop Node.LAST_DECODER)
  else if ds && !dw then .s
  else if dw && !ds then .w
  else if es.isSome && ew.isNone then .s
  else if ew.isSome && es.isNone then .w
  else pick

/-- The decoder a frame to a first hop goes out on: policy's, else the entry's, else the last one, each only where it is
enabled on the band (log 48). -/
def State.downDecoder (s : State) (p : RfPort) (hop pick : Nat) : Option Nat :=
  ([pick] ++ ((s.airEntry p hop).map fun e => e.fld 52 7).toList ++ [s.node hop Node.LAST_DECODER]).find? fun n =>
    decide (decoderPort n = p) && s.chEnabled n

/-- The flow a frame of a class joins on a port: policy's where it has that class, else the lowest one. -/
def State.downFlow (s : State) (p : RfPort) (cls pick : Nat) : Option (Nat × Nat) :=
  ([pick] ++ List.range 64).findSome? fun f =>
    if s.fld (SCH_AIRx_Fq_CLASS p f) = cls then (s.flowQueue (2 + p.idx) f).map fun q => (f, q) else none

/-- Statuses of R278. -/
def dlQueued : Nat := 0
def dlPending : Nat := 1
def dlUnknown : Nat := 2
def dlNoRoute : Nat := 3
def dlTooLong : Nat := 4
def dlQueueFull : Nat := 5
def dlPendFull : Nat := 6
def dlBadMessage : Nat := 7

namespace Act

/-- A downlink frame is routed, and sealed into a flow queue or listed (R278); `k` gets its status. Where the seal is
refused nothing is sent and no status is given (R61). `block` marks a BLOCK frame of a campaign (R670), and `took` is
told the queue and packet, or the buffer, that took it. -/
def downSend (d : Down) (pick : Pick) (block : Bool) (took : Option Nat → Nat → Act) (k : Nat → Act) : Act :=
  .read fun s =>
  let w := s.walk d.nsa fun _ => false
  let hop := w.nsa
  let f := s.downFrame d hop w.route
  let band := s.bandOf hop pick.band
  if !s.recValid d.nsa then k dlUnknown
  else .seq (walkCounts w)
    (if w.reason ≠ 0 then k dlNoRoute
    else if 1024 < sealedLength f then k dlTooLong
    else match s.downDecoder band hop pick.decoder with
      | none => k dlNoRoute
      | some n =>
        if s.sleepyChild d.nsa then
          pendAdd d.nsa d.cls false block f fun r =>
            if r = 2 then k dlPendFull
            else .seq (.read fun t => took none ((t.pendList d.nsa).getLastD 0)) (k dlPending)
        else match s.downFlow band d.cls pick.flow with
          | none => k dlQueueFull
          | some (fl, q) => sealFrame (.link hop) f .nop fun bs =>
              airEnq band fl q n pick.cls bs fun q start ok =>
                if ok then .seq (took (some q) start) (k dlQueued) else k dlQueueFull)

end Act

end Sys2Proof.Machine
end

