-- ==== Sys2Proof/Machine/CampaignOps.lean ====
section
/-!
DEFINITION. Machine/CampaignOps.lean: the work of the campaign role in a beat (R588–R595): the walk, enrolment, rounds,
repair, and what the end of a campaign drops.
-/

namespace Sys2Proof.Machine

open Sys2Proof Sys2Proof.Reg

/-- The image class (R339). -/
def imageClass : Nat := 3

/-- The type fields and bytes of block b of a campaign (R110, R582, R585). -/
def State.blockBody (s : State) (r b : Nat) : List Byte :=
  let slot := s.camp r Camp.SLOT
  let size := s.lib slot Lib.BLOCK_SIZE
  let off := (b - 1) * size
  leBytes 2 (s.camp r Camp.NUMBER) ++ leBytes 2 b ++ leBytes 2 (s.camp r Camp.BLOCKS_TOTAL) ++
    (if b = 0 then
      [0x4E, 0x49, 0x4D, 0x47, 0x01] ++ leBytes 1 (s.lib slot Lib.NODE_CLASS) ++ leBytes 2 size ++
        leBytes 4 (s.lib slot Lib.LENGTH) ++ leBytes 4 (s.lib slot Lib.FW_VERSION) ++ s.bytes (s.libSlot slot + 12) 32 ++
        leBytes 2 (s.camp r Camp.NUMBER) ++ leBytes 2 (s.camp r Camp.BLOCKS_TOTAL) ++ List.replicate 12 0
    else s.bytes (s.libSlot slot + 64 + off) (min size (s.lib slot Lib.LENGTH - off)))

/-- PATH of a node (R588). -/
def State.campPath (s : State) (n : Nat) : Nat :=
  if s.node n Node.PARENT ≠ 0 then 1 else if s.recFlag n 3 then 2 else 0

/-- Every element once, in order. -/
def nodup (l : List Nat) : List Nat := l.foldl (fun acc x => if acc.contains x then acc else acc ++ [x]) []

/-! ### The walk (R589) -/

/-- A valid record in state ACTIVE or SILENT that matches a campaign. -/
def State.campMatch (s : State) (r n : Nat) : Bool :=
  let st := s.recState n
  let flags := s.camp r Camp.FLAGS
  let band := decoderPort (s.node n Node.LAST_DECODER)
  s.recValid n && (st == 2 || st == 3) &&
  ((s.run r).named.contains n ||
    (Nat.testBit flags 0 && s.node n Node.NODE_CLASS == s.lib (s.camp r Camp.SLOT) Lib.NODE_CLASS)) &&
  Nat.testBit flags (match band with | .s => 1 | .w => 2) && !(s.run r).removed.contains n

/-- The node is held by another live campaign. -/
def State.campElsewhere (s : State) (r n : Nat) : Bool :=
  match s.campOf (s.node n Node.CAMPAIGN) with
  | none => false
  | some q => !(q == r) && s.campLive q

namespace Act

/-- One record of the walk. -/
def walkRecord (r n : Nat) : Act := .read fun s =>
  if !s.campMatch r n then .nop
  else if s.node n Node.FW_VERSION = s.lib (s.camp r Camp.SLOT) Lib.FW_VERSION then campCount r Camp.SKIPPED
  else if s.campElsewhere r n then campCount r Camp.EXCLUDED
  else .seq (recUpdate n [(Node.C_ALL, 0), (Node.CAMPAIGN, s.camp r Camp.NUMBER), (Node.C_STATE, 1),
      (Node.C_PATH, s.campPath n)]) (campCount r Camp.TARGETS)

/-- CAMPAIGN_WALK: 4,096 records of a campaign in ENROLLING; BROADCAST follows the last of them (R590). -/
def campWalk : Act := each (List.range 16) fun r => .read fun s =>
  match (s.run r).walk with
  | none => .nop
  | some n => when (s.camp r Camp.STATE == 1)
    (.seq (each (s.dirNumbers.filter fun k => Nat.ble n k && Nat.blt k (n + 4096)) (walkRecord r))
      (if n + 4096 < maxRecord then runSet r fun x => { x with walk := some (n + 4096) }
      else .seq (runSet r fun x => { x with walk := none }) (campPut r Camp.STATE 2)))

end Act

/-! ### Sending (R588, R590, R593) -/

/-- A frame of a campaign still waits where it was put. -/
def State.flightHeld (s : State) (f : Flight) : Bool :=
  match f.queue with
  | none => (s.pendList f.node).contains f.start && s.pendBlock f.start
  | some q => ((s.queue q).packetAt f.start).isSome

/-- BLOCK frames of a node, or broadcast on a decoder, not yet delivered or placed. -/
def Run.toNode (x : Run) (n : Nat) : Nat := (x.flights.filter fun f => f.node == n).length
def Run.onDecoder (x : Run) (d : Nat) : Nat :=
  (x.flights.filter fun f => f.node == 0xFFFFFF && f.decoder == d).length

/-- BLOCK frames in a node's pending list. -/
def State.pendBlocks (s : State) (n : Nat) : Nat := ((s.pendList n).filter s.pendBlock).length

/-- A further unicast frame may be queued for a node (R588, R593). -/
def State.campRoom (s : State) (r n : Nat) : Bool :=
  if s.node n Node.C_PATH = 2 then Nat.blt (s.pendBlocks n) (s.camp r Camp.SLEEPY_MAX)
  else Nat.blt ((s.run r).toNode n) (s.camp r Camp.QUEUED)

/-- Decoders with a RECEIVING node of the broadcast path. -/
def State.campDecoders (s : State) (r : Nat) : List Nat :=
  nodup ((s.campNodes r (· == 2)).filterMap fun n =>
    if s.node n Node.C_PATH = 0 then some (s.node n Node.LAST_DECODER) else none)

namespace Act

/-- A unicast BLOCK frame on a node's path; `sent` where it was taken. -/
def campSend (r n b cls : Nat) (sent : Act) : Act := .read fun s =>
  let dec := s.node n Node.LAST_DECODER
  let pick : Pick := ⟨decoderPort dec, 0, ⟨dec % 80, Nat.mod_lt _ (by decide)⟩, ⟨cls % 4, Nat.mod_lt _ (by decide)⟩⟩
  downSend ⟨7, n, imageClass, false, s.blockBody r b⟩ pick true
    (fun q start => runSet r fun x => { x with flights := x.flights ++ [⟨n, dec, b, q, start⟩] })
    fun st => when (Nat.ble st 1) sent

/-- A broadcast BLOCK frame on a decoder. -/
def campBcast (r d b cls : Nat) (sent : Act) : Act := .read fun s =>
  let band := decoderPort d
  match s.downFlow band imageClass 0 with
  | none => .nop
  | some (f, q) => when (s.chEnabled d)
    (sealFrame .bcast (s.macHead 7 0 1 0xFFFFFF (s.minLevel 7) ++ s.blockBody r b) .nop fun bs =>
      airEnq band f q d cls bs fun q start ok => when ok
        (.seq (runSet r fun x => { x with flights := x.flights ++ [⟨0xFFFFFF, d, b, some q, start⟩] }) sent))

/-- Frames placed in the plan just built are counted; a broadcast one is then out of the role's hands. -/
def campPlaced (r : Nat) : Act := .read fun s =>
  let placed := (s.run r).flights.filter fun f =>
    s.u.sch.plan.any fun e => e.queue == f.queue && e.start == f.start
  let (b, u) := placed.partition fun f => f.node == 0xFFFFFF
  all [campCount r Camp.BCAST_SENT b.length, campCount r Camp.UCAST_SENT u.length,
    runSet r fun x => { x with flights := x.flights.filter fun f => !b.contains f }]

/-- Frames that left their list or queue without an ACK are sent again later (R593). -/
def campLost (r : Nat) : Act := .read fun s =>
  let lost := (s.run r).flights.filter fun f => !s.flightHeld f
  let again := lost.filter fun f => !(f.node == 0xFFFFFF) && Nat.blt 0 f.block
  runSet r fun x => { x with
    flights := x.flights.filter fun f => !lost.contains f
    repairU := x.repairU ++ again.map fun f => (f.node, f.block) }

/-- Manifests to the nodes still to be enrolled (R590). -/
def campManifests (r cls : Nat) : Act := .read fun s =>
  each (s.campNodes r (· == 1)) fun n => .read fun t =>
    when (!((t.run r).waiting.any fun w => w.1 == n) && (t.run r).toNode n == 0 && t.campRoom r n)
      (campSend r n 0 cls .nop)

/-- The rounds of BROADCAST (R593). -/
def campRounds (r cls : Nat) : Act := .read fun s =>
  let ds := s.campDecoders r
  let total := s.camp r Camp.BLOCKS_TOTAL
  .seq (each ds fun d => each (List.range (s.camp r Camp.QUEUED)) fun _ => .read fun t =>
      let b := (t.run r).rounds.getD d 1
      when (Nat.blt b total && Nat.blt ((t.run r).onDecoder d) (t.camp r Camp.QUEUED))
        (campBcast r d b cls (runSet r fun x => { x with rounds := x.rounds.setD d 1 (b + 1) })))
    (.read fun t =>
      let waits := (t.campNodes r (· == 1)).any fun n => t.node n Node.C_PATH == 0
      let over_ := if ds.isEmpty then !waits
        else ds.all fun d => Nat.ble total ((t.run r).rounds.getD d 1) && (t.run r).onDecoder d == 0
      let n := t.camp r Camp.ROUND + 1
      when over_ (all [campPut r Camp.ROUND n, runSet r fun x => { x with rounds := [] },
        when (Nat.ble (t.camp r Camp.ROUNDS) n)
          (.seq (campPut r Camp.STATE 3) (runSet r fun x => { x with lastPass := t.workBeat }))]))

/-- First transfers by unicast and by pending list, and whole images sent again (R588, R592). -/
def campTransfers (r cls : Nat) : Act := .read fun s =>
  each ((s.campNodes r (· == 2)).filter fun n => !(s.node n Node.C_PATH == 0) || (s.run r).resend.contains n) fun n =>
    each (List.range 8) fun _ => .read fun t =>
      let b := t.node n Node.C_NEXT
      when (Nat.blt 0 b && Nat.blt b (t.camp r Camp.BLOCKS_TOTAL) && t.campRoom r n)
        (campSend r n b cls (recUpdate n [(Node.C_NEXT, b + 1)]))

/-- The blocks a pass or a failed attempt left to be sent (R593). -/
def campRepairs (r cls : Nat) : Act := .read fun s =>
  .seq (each (s.run r).repairB fun p => .read fun t =>
      when (Nat.blt ((t.run r).onDecoder p.1) (t.camp r Camp.QUEUED))
        (campBcast r p.1 p.2 cls (runSet r fun x => { x with repairB := x.repairB.erase p })))
    (each (s.run r).repairU fun p => .read fun t =>
      let erase := runSet r fun x => { x with repairU := x.repairU.erase p }
      if !(t.node p.1 Node.C_STATE == 2) then erase else when (t.campRoom r p.1) (campSend r p.1 p.2 cls erase))

/-- BLOCK frames of ended campaigns leave the flow queues and the pending lists (R594); one that is being sent stays. -/
def campDrops : Act := .read fun s =>
  .seq (each s.u.img.dropping fun f => match f.queue with
      | none => pendTake f.node [f.start]
      | some q => .read fun t => when (!t.started q f.start && t.flightHeld f) (discardPacket (decoderPort f.decoder) q f.start))
    (img fun i => { i with dropping := [] })

/-- The campaign role at the commit window, after the plan is built (R593–R595); `cls` is the power class policy gives
its frames. -/
def campCommit (cls : Nat) : Act :=
  .seq (each (List.range 16) fun r => .read fun s => when (s.campLive r && s.meshRuns)
      (all [campPlaced r, campLost r, .read fun t =>
          let st := t.camp r Camp.STATE
          all [when (Nat.ble 1 st && Nat.ble st 3) (campManifests r cls), when (st == 2) (campRounds r cls),
            when (st == 2 || st == 3) (.seq (campTransfers r cls) (campRepairs r cls))],
        campFinish r])) campDrops

/-! ### Repair passes (R593) -/

end Act

/-- A node's missing set, ascending. -/
def State.missingSet (s : State) (r n : Nat) : List Nat :=
  let total := s.camp r Camp.BLOCKS_TOTAL
  let base := s.node n Node.C_BASE
  let map := s.node n Node.C_BITMAP
  let m := (s.run r).reps.getD n 0
  let marked := (List.range (8 * m)).filter fun i => Nat.testBit map i
  let past := if marked.length < s.node n Node.C_MISSING then (List.range total).filter fun b => Nat.ble (base + 8 * m) b
    else []
  ((marked.map (· + base)).filter fun b => Nat.blt b total) ++ past

namespace Act

/-- One pass: what it sends again, its counts, and the nodes whose passes are used up. -/
def repairPass (r : Nat) : Act := .read fun s =>
  let spent := (s.campNodes r (· == 2)).filter fun n => Nat.ble (s.camp r Camp.REPAIR_MAX) (s.node n Node.C_REPAIRS)
  let sets := ((s.campNodes r (· == 2)).filter fun n => !spent.contains n).map fun n => (n, s.missingSet r n)
  let sets := sets.filter fun e => !e.2.isEmpty
  let onAir := fun (d b : Nat) => (sets.filter fun e =>
    s.node e.1 Node.LAST_DECODER == d && e.2.contains b).length
  let blocks := (List.range (s.camp r Camp.BLOCKS_TOTAL)).filter fun b => sets.any fun e => e.2.contains b
  let bcast := blocks.flatMap fun b => ((List.range 80).filter fun d =>
    Nat.ble (s.camp r Camp.REBCAST_MIN) (onAir d b)).map fun d => (d, b)
  let uni := sets.map fun e => (e.1, (e.2.filter fun b => !(bcast.any fun p => p.2 == b)).take 224)
  let sends := blocks.flatMap fun b => (uni.filter fun e => e.2.contains b).map fun e => (e.1, b)
  all [each spent fun n => campFail r n 2,
    each sets fun e => recUpdate e.1 [(Node.C_REPAIRS, min 255 (s.node e.1 Node.C_REPAIRS + 1))],
    runSet r fun x => { x with
      repairB := bcast ++ x.repairB.filter fun p => !bcast.contains p
      repairU := sends ++ x.repairU.filter fun p => !sends.contains p
      lastPass := s.workBeat },
    campFinish r]

end Act

end Sys2Proof.Machine
end

