-- ==== Sys2Proof/Machine/Planner.lean ====
section
/-!
DEFINITION. Machine/Planner.lean: the air planner (R339–R350): which packets are candidates, where one is placed under
the constraints of R342, and the plan of a port as the commit window builds it. Times are ns of device time.
-/

namespace Sys2Proof.Machine

open Sys2Proof Sys2Proof.Reg

/-- A candidate. -/
structure Cand where
  queue : Option Nat
  start : Nat
  nsa : Nat
  decoder : Nat
  cls : Nat
  length : Nat
  lower : Nat                  -- the lower bound of R348 but for the beat's own
  close : Option Nat           -- the close of the listen window, in tier 0
  deriving DecidableEq, Repr

/-- A placement under trial: X, the chain chosen, and the reason of the step that last raised X. -/
structure Trial where
  x : Nat
  chain : Nat
  why : Nat
  deriving DecidableEq, Repr

def Trial.raiseTo (t : Trial) (x why : Nat) : Trial := if t.x < x then { t with x := x, why := why } else t

/-- The start of the beat that is planned. -/
def State.planStart (s : State) : Nat := (s.workBeat + 1) * 1000000

/-- The commit instant of R344. -/
def State.planCommit (s : State) : Nat := s.planStart - 10000

/-- The mode that will be in force in the beat planned (R350). -/
def State.nextMode (s : State) : Mode := match s.u.pwr.staged with | some m => m.1 | none => s.mode

/-- Entries of a port that are planned or on a chain. -/
def State.portEntries (s : State) (p : RfPort) : List PlanEntry :=
  (s.u.sch.plan.filter fun e => decide (e.port = p)) ++
  [chainOf p 0, chainOf p 1].filterMap fun c => (s.tx c).cmd.bind fun d => match d.what with
    | .entry e => some e
    | .ack _ => none

/-- An entry's latest return edge, latest PA_EN release, and planned blanked interval (R341). -/
def State.entryReturn (s : State) (e : PlanEntry) : Nat := (s.occupancy e).2

def State.entryRelease (s : State) (e : PlanEntry) : Nat :=
  let r := s.chRate e.decoder
  e.latest + Air.airtimeNs r e.length + s.paOffNs e.port r

def State.entryBlank (s : State) (e : PlanEntry) : Nat × Nat :=
  (e.x, s.entryReturn e + 1000 * s.fld (RFx_FE_TIMING_RX_RECOVER e.port))

/-- The entry a candidate makes at a placement. -/
def State.entryAt (s : State) (p : RfPort) (c : Cand) (t : Trial) : PlanEntry :=
  let planned := t.x + s.preNs p (s.chRate c.decoder)
  { port := p, chain := t.chain, queue := c.queue, start := c.start, nsa := c.nsa, decoder := c.decoder, cls := c.cls,
    length := c.length, x := t.x, planned := planned, latest := planned + 1000 * s.fld (SCH_AIRx_CTL_SLACK_US p) }

/-- The ends of the spans that a span runs into, the latest. -/
def clearOf (span : Nat × Nat) (l : List (Nat × Nat)) : Nat :=
  (l.filter fun x => overlaps x span).foldl (fun m x => max m x.2) 0

/-- Channel (R343). -/
def State.planChannel (s : State) (p : RfPort) (c : Cand) (t : Trial) : Trial :=
  let cca := s.ccaNs p
  let k := s.fld (RXD_CHn_CFG_CHANNEL c.decoder)
  let r := s.chRate c.decoder
  let mine := s.occupancy (s.entryAt p c t)
  let near := (s.portEntries p).filter fun e =>
    !Air.apart p k r (s.fld (RXD_CHn_CFG_CHANNEL e.decoder)) (s.chRate e.decoder)
  let stop := clearOf mine (near.map s.occupancy)
  if stop = 0 then t else t.raiseTo (stop + cca) 0

/-- R345 lets a frame on the ACK chain. -/
def State.ackAllows (s : State) (p : RfPort) (c : Cand) (n : Nat) : Bool :=
  let cost := fun dec len => Air.airtimeNs (s.chRate dec) len + 2 * s.rampNs p (s.chRate dec)
  let mine := cost c.decoder c.length
  let others := ((s.portEntries p).filter fun e => e.chain == n && Nat.ble s.planStart e.planned &&
    Nat.blt e.planned (s.planStart + 1000000)).map fun e => cost e.decoder e.length
  !(s.bit (SCH_AIRx_ACK_EN p) && s.fld (SCH_AIRx_ACK_CHAIN p) == n) ||
    (Nat.ble mine (1000 * s.fld (SCH_AIRx_ACK_MAX_US p)) &&
      Nat.ble (others.sum + mine) (10000 * s.fld (SCH_AIRx_ACK_SHARE_PCT p)))

/-- The last entry of a chain. -/
def State.lastEntry (s : State) (p : RfPort) (n : Nat) : Option PlanEntry :=
  ((s.portEntries p).filter fun e => e.chain == n).foldl (fun m e => match m with
    | none => some e
    | some f => if s.entryReturn f ≤ s.entryReturn e then some e else some f) none

/-- The channel a chain stands on after its last entry; none for an idle chain. -/
def State.chainChannel (s : State) (p : RfPort) (n : Nat) : Option Nat :=
  match s.lastEntry p n with
  | some e => some (s.fld (RXD_CHn_CFG_CHANNEL e.decoder))
  | none =>
    let c := chainOf p n
    if s.chainState c = stCal ∨ s.chainState c = stLocked ∨ s.chainState c = stTx then some (s.chainChan c) else none

/-- The earliest X of a chain (R344). -/
def State.chainX (s : State) (p : RfPort) (c : Cand) (n : Nat) : Nat :=
  let cca := s.ccaNs p
  let last := s.lastEntry p n
  if s.chainChannel p n = some (s.fld (RXD_CHn_CFG_CHANNEL c.decoder)) then
    ((last.map s.entryReturn).getD s.planStart) + cca
  else max ((last.map s.entryRelease).getD 0) s.planCommit + 90000 + cca

/-- Whether a chain is usable (R344). -/
def State.chainUsable (s : State) (p : RfPort) (c : Cand) (n : Nat) : Bool :=
  let ch := chainOf p n
  s.txEn ch && !(s.chainState ch == stFault) && s.chainKept ch.idx && s.ackAllows p c n

/-- Chain (R344): the smallest start, then a chain that is not the ACK chain, then the lower number. -/
def State.planChain (s : State) (p : RfPort) (c : Cand) (t : Trial) : Option Trial :=
  let isAck := fun n => s.bit (SCH_AIRx_ACK_EN p) && s.fld (SCH_AIRx_ACK_CHAIN p) == n
  let go := fun n => { t.raiseTo (s.chainX p c n) 1 with chain := n }
  match s.chainUsable p c 0, s.chainUsable p c 1 with
  | false, false => none
  | true, false => some (go 0)
  | false, true => some (go 1)
  | true, true =>
    let a := go 0
    let b := go 1
    some (if a.x < b.x then a else if b.x < a.x then b else if isAck 0 then b else a)

/-- Airtime of the entries not yet started that count against a region (R346). -/
def State.plannedDuty (s : State) (p : RfPort) (r : Nat) : Nat :=
  let waits := (s.u.sch.plan.filter fun e => decide (e.port = p)) ++
    [chainOf p 0, chainOf p 1].filterMap fun c => (s.tx c).cmd.bind fun d => match d.what with
      | .entry e => if d.phase.inSeq then none else some e
      | .ack _ => none
  ((waits.filter fun e => s.dutyHits p r (s.fld (RXD_CHn_CFG_CHANNEL e.decoder)) (s.chRate e.decoder)).map fun e =>
    s.dutyNs p (s.chRate e.decoder) e.length).sum

/-- Duty cycle (R346). -/
def State.planDuty (s : State) (p : RfPort) (c : Cand) : Bool :=
  let r := s.chRate c.decoder
  s.dutyOk p (s.fld (RXD_CHn_CFG_CHANNEL c.decoder)) r (s.dutyNs p r c.length) (s.plannedDuty p)

/-- Coexistence (R347). -/
def State.planCoex (s : State) (p : RfPort) (t : Trial) : Trial :=
  if s.bit (RFx_CX_CTL_EN p) then t.raiseTo (s.planCommit + 1000 * s.fld (RFx_CX_TIMING_LEAD p)) 3 else t

/-- CSMA (R348): the CCA overlaps no planned blanked interval. -/
def State.planCsma (s : State) (p : RfPort) (t : Trial) : Trial :=
  let cca := s.ccaNs p
  let stop := clearOf (t.x - cca, t.x) ((s.portEntries p).map s.entryBlank)
  if cca = 0 ∨ stop = 0 then t else t.raiseTo (stop + cca) 4

/-- X + P lies beyond the beat, or beyond the listen window's close. -/
def State.beyond (s : State) (p : RfPort) (c : Cand) (t : Trial) : Bool :=
  let f := t.x + s.preNs p (s.chRate c.decoder)
  Nat.blt (s.planStart + 1000000) f || (match c.close with
    | some z => Nat.blt z f
    | none => false)

/-- The placement loop of R342: an entry, or the reason of the refusal (R349). -/
def State.planFrom (s : State) (p : RfPort) (c : Cand) : Nat → Trial → Except Nat PlanEntry
  | 0, t => .error t.why
  | fuel + 1, t0 =>
    match s.planChain p c (s.planChannel p c t0) with
    | none => .error 1
    | some t =>
      if !s.planDuty p c then .error 2
      else
        let t := s.planCsma p (s.planCoex p t)
        if s.beyond p c t then .error t.why
        else if t.x = t0.x then .ok (s.entryAt p c t)
        else s.planFrom p c fuel t

/-- One candidate tried. -/
def State.planTry (s : State) (p : RfPort) (c : Cand) : Except Nat PlanEntry :=
  if !s.chEnabled c.decoder || !s.bit (RFx_SLICE_EN p) then .error 0
  else
    let t : Trial := ⟨max (s.planStart + s.ccaNs p) c.lower, 0, 6⟩
    if s.beyond p c t then .error 6 else s.planFrom p c 256 t

/-! ### Candidates (R37, R340) -/

/-- The bound a drawn backoff puts on X, where it ends in time for the beat (R202). -/
def State.backoffBound (s : State) (p : RfPort) (queue : Option Nat) (start : Nat) : Option Nat :=
  match s.deferredOf queue start with
  | none => some 0
  | some d => if d.stopNs ≤ s.planStart + 1000000 then some (d.stopNs + s.ccaNs p) else none

/-- A pending frame is in a plan, on a chain or waits for its ACK. -/
def State.pendBusy (s : State) (a : Nat) : Bool :=
  let is := fun (e : PlanEntry) => e.queue.isNone && e.start == a
  s.u.sch.plan.any is || (s.u.mac.waits.any fun w => is w.entry) ||
  [Chain.ts0, .ts1, .tw0, .tw1].any fun c => match (s.tx c).cmd with
    | none => false
    | some d => match d.what with
      | .entry e => is e
      | .ack _ => false

/-- Tier 0 of a port: the pending frames of the children whose listen window overlaps the beat, by the instant the
window opened, then in list order. `cls` is the power class policy gives a pending frame. -/
def State.tier0 (s : State) (p : RfPort) (cls : Nat) : List Cand :=
  let b := s.planStart
  let ls := s.u.mac.listens.filter fun l => s.u.sch.pendCands.contains l.nsa && l.opened && !l.closed &&
    Nat.blt l.openNs (b + 1000000) && Nat.blt b l.closeNs && decide (decoderPort l.decoder = p)
  let ls := ls.foldl (fun (acc : List Listen) l =>
    (acc.filter fun m => Nat.ble m.openNs l.openNs) ++ [l] ++ acc.filter fun m => Nat.blt l.openNs m.openNs) []
  ls.flatMap fun l => (s.pendList l.nsa).filterMap fun a =>
    if !s.pendSealed a || s.pendBusy a || l.drop.contains a then none
    else (s.backoffBound p none a).map fun z =>
      let len := s.le (a + 12) 2
      let low := max z (l.openNs - s.preNs p (s.chRate l.decoder))
      { queue := none, start := a, nsa := l.nsa, decoder := l.decoder, cls := cls, length := len, lower := low,
        close := some l.closeNs }

/-- The candidate of an air flow: its head, where a placement request has registered it. -/
def State.flowCand (s : State) (p : RfPort) (f : Nat) : Option Cand :=
  match s.flowQueue (2 + p.idx) f, s.flowHead (2 + p.idx) f with
  | some q, some h => h.decoder.bind fun n => (s.backoffBound p (some q) h.start).map fun z =>
      { queue := some q, start := h.start, nsa := 0, decoder := n, cls := h.cls, length := h.length, lower := z,
        close := none }
  | _, _ => none

/-- The head of a flow holds a poisoned word (R312). -/
def State.headPoisoned (s : State) (p : RfPort) (f : Nat) : Option (Nat × Nat) :=
  match s.flowQueue (2 + p.idx) f, s.flowHead (2 + p.idx) f with
  | some q, some h => if ((s.queue q).packetWords h).any fun w => w.poison then some (q, h.start) else none
  | _, _ => none

/-- A flow is in tier 1 (R340). -/
def State.flowStrict (s : State) (p : RfPort) (f : Nat) : Bool :=
  Nat.testBit (s.fld (SCH_AIRx_CTL_STRICT p)) (s.fld (SCH_AIRx_Fq_CLASS p f))

/-- The flow of a tier that is taken next (R328, R353). -/
def State.flowNext (s : State) (p : RfPort) (fs : List Nat) : Option (Nat × Nat) :=
  let d := 2 + p.idx
  let able := fs.filter fun f => (s.flowCand p f).isSome
  let fin := fun f => ((s.flowHead d f).bind fun h => (s.flow d f).stampOf h.start).getD 0
  if s.rebuilding d then (nextRobin (s.u.sch.robin.getD d 0) able).map fun f => (f, fin f)
  else earliest (able.map fun f => (f, fin f))

namespace Act

/-- A candidate is refused (R349). -/
def planRefuse (p : RfPort) (why : Nat) : Act := sat (SCH_AIRx_REFr p why)

/-- A flow whose head was not placed (R349). -/
def planStarve (p : RfPort) (f : Nat) : Act := .read fun s =>
  let d := 2 + p.idx
  let limit := s.fld (SCH_AIRx_CTL_STARVE_LIMIT p)
  let w := s.flow d f
  let hit := Nat.blt 0 limit && Nat.ble limit (w.starve + 1) && !w.starved
  .seq (flow d f fun w => { w with starve := w.starve + 1, starved := w.starved || hit })
    (when hit (raise 15 (leBytes 1 d ++ leBytes 1 f)))

def planAdd (e : PlanEntry) : Act := sch fun x => { x with plan := x.plan ++ [e] }

/-- Tier 0. -/
def planPend (p : RfPort) : List Cand → Nat → (Nat → Act) → Act
  | [], n, k => k n
  | c :: l, n, k => .read fun s =>
    if s.fld (SCH_AIRx_CTL_PLAN_MAX p) ≤ n then .seq (planRefuse p 5) (planPend p l n k)
    else match s.planTry p c with
      | .error why => .seq (planRefuse p why) (planPend p l n k)
      | .ok e => all [planAdd e,
        mac fun m =>
          let ls := m.listens.map fun w =>
            if w.nsa = c.nsa ∧ w.closed = false then { w with placed := w.placed ++ [c.start] } else w
          { m with listens := ls },
        planPend p l (n + 1) k]

/-- One of tiers 1 and 2: the flows in WFQ order, each head that is placed making way for the next. -/
def planFlows (p : RfPort) : Nat → List Nat → Nat → (Nat → Act) → Act
  | 0, _, n, k => k n
  | fuel + 1, fs, n, k => .read fun s =>
    let d := 2 + p.idx
    match s.flowNext p fs with
    | none => k n
    | some (f, fin) => match s.flowCand p f, s.headPoisoned p f with
      | _, some (q, start) => all [poisonCounts q 1, airRelease p q start, planFlows p fuel fs n k]
      | none, none => k n
      | some c, none =>
        if s.fld (SCH_AIRx_CTL_PLAN_MAX p) ≤ n then
          all [planRefuse p 5, planStarve p f, planFlows p fuel (fs.erase f) n k]
        else match s.planTry p c with
          | .error why => all [planRefuse p why, planStarve p f, planFlows p fuel (fs.erase f) n k]
          | .ok e => all [planAdd e,
            selectHead d f c.start fin,
            flow d f fun w => { w with starve := 0, starved := false },
            sch fun x => { x with robin := x.robin.setD d 0 (f + 1) },
            planFlows p fuel fs (n + 1) k]

/-- PLAN_BUILD for one port (R340–R350); `silent` is a takeover's air silence. A shadow builds the plan of the unit that
serves (R351). -/
def planPort (p : RfPort) (silent : Bool) (cls : Nat) : Act := .read fun s =>
  let d := 2 + p.idx
  let t0 := s.tier0 p cls
  let fs := (s.u.sch.cands.filter fun c => c / 64 == d).map fun c => c % 64
  let strict := fs.filter (s.flowStrict p)
  let rest := fs.filter fun f => !s.flowStrict p f
  let forced := silent || !(s.shadows || s.nextMode.serves) || !s.bit (RFx_SLICE_EN p)
  let (placedF, emptyF) := match p with
    | .s => (SCH_STATUS_PLACED_S, SCH_STATUS_EMPTY_S)
    | .w => (SCH_STATUS_PLACED_W, SCH_STATUS_EMPTY_W)
  let finish := fun n => all [setF placedF n, setB emptyF forced, wrapBy (SCH_AIRx_PLACED p) n,
    txRetune (chainOf p 0), txRetune (chainOf p 1)]
  if forced then
    all [each t0 fun _ => planRefuse p 7,
      each (fs.filter fun f => (s.flowCand p f).isSome) fun f => .seq (planRefuse p 7) (planStarve p f),
      finish 0]
  else planPend p t0 0 fun n => planFlows p 160 strict n fun n => planFlows p 160 rest n finish

/-- PLAN_BUILD for both ports. -/
def planBuild (silent : Bool) (cls : Nat) : Act := .seq (planPort .s silent cls) (planPort .w silent cls)

/-- The flows and children that are candidates for the next plan, as the plan window closes (R37). -/
def planGather : Act := .read fun s =>
  let fs := [RfPort.s, .w].flatMap fun p => ((List.range 64).filter fun f =>
    (s.flowHead (2 + p.idx) f).isSome).map fun f => 64 * (2 + p.idx) + f
  sch fun x => { x with cands := fs, pendCands := (s.u.mac.listens.filter fun l => l.opened && !l.closed).map (·.nsa) }

/-- A write to SCH_AIRx_CTL (R361): a new STARVE_LIMIT restarts every run. -/
def airCtlWrite (p : RfPort) (w : Word) : Act := .read fun s =>
  .seq (.reg (SCH_AIRx_CTL p) w)
    (when (!(s.fld (SCH_AIRx_CTL_STARVE_LIMIT p) == fieldOf w 24 8))
      (each (List.range 64) fun f => when (!(s.flow (2 + p.idx) f == Flow.idle))
        (flow (2 + p.idx) f fun x => { x with starve := 0 })))

end Act

end Sys2Proof.Machine
end

