-- ==== Sys2Proof/Machine/Deliver.lean ====
section
/-!
DEFINITION. Machine/Deliver.lean: learning and sending up what the air brought (R260, R261, R277), and taking in what a
headend sends down (R278).
-/

namespace Sys2Proof.Machine

open Sys2Proof Sys2Proof.Reg Sys2Proof.Machine.Act

/-! ### Up (R260, R261, R277) -/

/-- Every frame of the pipeline with an earlier END has been learned or has ended (R261). -/
def State.settledBefore (s : State) (i : Nat) (f : MacFrame) : Bool :=
  let p := decoderPort f.rx.decoder
  let mine := fun (g : RxFrame) => decide (decoderPort g.decoder = p) && Nat.blt g.stop f.rx.stop
  !((s.u.mac.frames.take i).any fun g => decide (decoderPort g.rx.decoder = p)) &&
  !(s.u.rx.handoff.any fun d => mine d.frame) && !(s.u.rx.frames.any fun g => !g.settled && mine g)

/-- The UPLINK message of a delivered frame (R276, R277). -/
def uplinkMessage (f : MacFrame) (p : MacParts) (cls seqNo : Nat) : Ple where
  kind := 1
  nsa := if p.mesh then p.origin else p.src
  info := p.typ + (if p.e2e && p.final == 0 then 8 else 0) + 32 * cls
  seq := seqNo
  beat := f.beat % 2 ^ 32
  decoder := f.rx.decoder
  status := 0
  rssi := (f.rx.rssi % 65536).toNat
  ctr := if p.e2e && p.final == 0 then p.e2eCtr else 0
  payload := f.clear

/-- FORWARD_LEARN (R260, R261) with UPLINK_ENQUEUE (R277): `headend`, `cls` and `pre` are policy's choice of headend,
uplink class and pre-colour. -/
def execForwardLearn (index : Fin 256) (headend : Fin 16) (cls : Fin 8) (pre : Fin 3) (s : State) : Result :=
  s.act <|
    match s.macFrame index with
    | none => .nop
    | some f =>
      let p := parseMac f.bytes
      let n := (decoderPort f.rx.decoder).idx
      let link := linkDbm f.rx.rssi
      let up := p.typ == 0 || (p.typ == 6 && s.bit FWD_ENCAP_UL_REPORTS)
      when (decide (f.stage = .deliver) && s.settledBefore index f)
        (all [macGone f.id,
          when (p.srcMode == 1) (learnAir n p.src true p.src f.rx.decoder link f.beat),
          when (p.srcMode == 1 && p.mesh && p.final == 0 && !(p.origin == p.src))
            (learnAir n p.origin false p.src f.rx.decoder link f.beat),
          when (up && (s.headend headend).isSome)
            (let seqNo := (s.u.fwd.seqs.getD headend 0 + 1) % 2 ^ 32
            pleSend headend cls f.beat pre (uplinkMessage f p cls seqNo) fun ok => when ok
              (.seq (fwd fun x => { x with seqs := x.seqs.setD headend 0 seqNo }) (wrap FWD_UL_OUT)))])

/-! ### Down (R278) -/

/-- The ingress queue of a port: the lowest-numbered queue it produces for an engine (R449). -/
def State.ingressQueue (s : State) (p : Nat) : Option Nat :=
  (s.u.env.queues.find? fun e => e.2.producer == 3 + p).map Prod.fst

/-- A DOWNLINK message is well formed (R276, R278). -/
def State.downOk (s : State) (m : List Byte) : Bool :=
  let len := beValue ((m.drop 24).take 2)
  let info := leAt m 7 1
  let typ := info % 8
  leAt m 0 1 == 1 && leAt m 1 1 == 2 && beValue ((m.drop 2).take 2) == s.u.boot.networkId &&
  (typ == 0 || typ == 5) && Nat.ble (info / 32) 4 && Nat.ble len 1024 && m.length == 28 + len &&
  Nat.ble (if typ = 0 then 1 else 3) len

/-- The answer to a DOWNLINK message, its counters and FWD_DL_REJECT (R278, R281). -/
def Act.downAnswer (h ulClass pre : Nat) (m : List Byte) (st : Nat) : Act := .read fun s =>
  let nsa := beValue ((m.drop 4).take 3)
  let answer : Ple := ⟨3, nsa, leAt m 7 1, beValue ((m.drop 8).take 4), s.workBeat % 2 ^ 32, 0xFF, st, 0, 0, []⟩
  all [if st ≤ 1 then wrap FWD_DL_IN
    else all [sat FWD_DL_REFUSED,
      fwd fun x => { x with dlFails := x.dlFails.set (st - 2) (x.dlFails.getD (st - 2) 0 + 1) },
      .read fun t => raiseOnce 54 0 (t.u.fwd.dlFails.flatMap (leBytes 2))],
    when (Nat.ble 2 st || s.bit FWD_ENCAP_STATUS_ALL) (pleSend h ulClass s.workBeat pre answer fun _ => .nop)]

/-- PLE_DOWNLINK_RECEIVED (R278): the oldest message of a port's ingress queue is checked, sent down or refused, and
released. `pick` is air policy's choice, `cls` and `pre` the uplink class and pre-colour of an answer. -/
def execPleDownlinkReceived (port : EthPort) (pick : Pick) (cls : Fin 8) (pre : Fin 3) (s : State) : Result :=
  s.act <|
    match s.ingressQueue port.idx with
    | none => .nop
    | some q => match ((s.queue q).visible).head? with
      | none => .nop
      | some k =>
        let m := wordBytes ((s.queue q).packetWords k)
        let h := k.headend.getD 0
        let finish := fun st => .seq (downAnswer h cls pre m st) (releasePacket q k.start)
        let info := leAt m 7 1
        let d : Down := ⟨info % 8, beValue ((m.drop 4).take 3), info / 32, info % 8 == 5 || Nat.testBit info 3, m.drop 28⟩
        if !s.downOk m then finish dlBadMessage else downSend d pick false (fun _ _ => .nop) finish

end Sys2Proof.Machine
end

