-- ==== Sys2Proof/Machine/Ranges.lean ====
section
/-!
DEFINITION. Machine/Ranges.lean: the stated range of every RW field that has one, from the field tables of the spec,
whether a value outside it is stored as the nearest limit, and the idyan defaults that BOOT_DONE loads (R551).
-/

namespace Sys2Proof.Reg

open Sys2Proof

/-- The stated range of one field of `count` registers from `base`; `clamps`: stored as the nearest limit. -/
structure FieldRange where
  base : Nat
  count : Nat
  lo : Nat
  width : Nat
  min : Nat
  max : Nat
  clamps : Bool
  deriving DecidableEq, Repr

def fieldRanges_0 : List FieldRange := [
  ⟨0x010004, 1, 0, 8, 1, 255, true⟩,
  ⟨0x010008, 1, 0, 12, 0, 3840, true⟩,
  ⟨0x020004, 1, 0, 16, 1, 65535, true⟩,
  ⟨0x020004, 1, 16, 12, 0, 4095, false⟩,
  ⟨0x030020, 1, 0, 9, 0, 300, true⟩,
  ⟨0x030024, 1, 0, 8, 0, 255, false⟩,
  ⟨0x040004, 1, 0, 12, 0, 2600, true⟩,
  ⟨0x04000c, 1, 0, 6, 2, 50, true⟩,
  ⟨0x04000c, 1, 8, 5, 1, 30, true⟩,
  ⟨0x04000c, 1, 16, 4, 0, 15, true⟩,
  ⟨0x04000c, 1, 20, 4, 0, 15, true⟩,
  ⟨0x04000c, 1, 24, 6, 0, 50, true⟩,
  ⟨0x040010, 1, 8, 8, 0, 250, false⟩,
  ⟨0x040018, 1, 0, 10, 2, 1000, false⟩,
  ⟨0x040018, 1, 20, 8, 0, 255, false⟩,
  ⟨0x040030, 4, 0, 6, 0, 32, true⟩,
  ⟨0x040140, 16, 0, 14, 1, 10000, false⟩,
  ⟨0x040140, 16, 14, 12, 1, 3600, false⟩,
  ⟨0x050004, 1, 0, 12, 0, 3340, true⟩,
  ⟨0x05000c, 1, 0, 6, 2, 50, true⟩,
  ⟨0x05000c, 1, 8, 5, 1, 30, true⟩,
  ⟨0x05000c, 1, 16, 4, 0, 15, true⟩,
  ⟨0x05000c, 1, 20, 4, 0, 15, true⟩,
  ⟨0x05000c, 1, 24, 6, 0, 50, true⟩,
  ⟨0x050010, 1, 8, 8, 0, 250, false⟩,
  ⟨0x050018, 1, 0, 10, 2, 1000, false⟩,
  ⟨0x050018, 1, 20, 8, 0, 255, false⟩,
  ⟨0x050030, 4, 0, 6, 0, 32, true⟩,
  ⟨0x050140, 16, 0, 14, 1, 10000, false⟩,
  ⟨0x050140, 16, 14, 12, 1, 3600, false⟩,
  ⟨0x060004, 1, 0, 8, 77, 243, true⟩,
  ⟨0x060004, 1, 8, 8, 64, 160, false⟩,
  ⟨0x060004, 1, 16, 2, 0, 3, false⟩,
  ⟨0x060004, 1, 24, 8, 0, 255, false⟩,
  ⟨0x060008, 1, 0, 6, 0, 40, false⟩,
  ⟨0x060008, 1, 9, 6, 6, 60, false⟩,
  ⟨0x06000c, 1, 0, 8, 1, 255, true⟩,
  ⟨0x06000c, 1, 8, 10, 0, 1023, false⟩,
  ⟨0x060010, 1, 0, 6, 1, 32, true⟩,
  ⟨0x060014, 1, 0, 4, 2, 10, false⟩]

def fieldRanges_1 : List FieldRange := [
  ⟨0x060014, 1, 4, 4, 4, 12, false⟩,
  ⟨0x060020, 1, 0, 11, 1024, 2047, false⟩,
  ⟨0x060020, 1, 11, 4, 1, 8, false⟩,
  ⟨0x060020, 1, 15, 4, 1, 12, false⟩,
  ⟨0x060020, 1, 19, 6, 6, 30, false⟩,
  ⟨0x060020, 1, 25, 3, 1, 7, false⟩,
  ⟨0x060024, 1, 0, 8, 1, 200, false⟩,
  ⟨0x060024, 1, 8, 8, 1, 255, false⟩,
  ⟨0x06002c, 1, 0, 12, 1344, 1728, false⟩,
  ⟨0x060030, 1, 0, 11, 1024, 2047, false⟩,
  ⟨0x060030, 1, 11, 4, 1, 8, false⟩,
  ⟨0x060030, 1, 15, 4, 1, 12, false⟩,
  ⟨0x060030, 1, 19, 6, 6, 30, false⟩,
  ⟨0x060030, 1, 25, 3, 1, 7, false⟩,
  ⟨0x060034, 1, 0, 8, 1, 200, false⟩,
  ⟨0x060034, 1, 8, 8, 1, 255, false⟩,
  ⟨0x06003c, 1, 0, 12, 1344, 1728, false⟩,
  ⟨0x070008, 1, 0, 8, 60, 100, true⟩,
  ⟨0x07000c, 1, 0, 8, 60, 100, true⟩,
  ⟨0x070010, 1, 0, 10, 160, 1000, true⟩,
  ⟨0x070010, 1, 10, 4, 0, 8, true⟩,
  ⟨0x070010, 1, 14, 4, 0, 8, true⟩,
  ⟨0x070010, 1, 18, 3, 1, 5, true⟩,
  ⟨0x070014, 1, 0, 3, 0, 7, true⟩,
  ⟨0x070018, 1, 0, 6, 20, 60, true⟩,
  ⟨0x070018, 1, 8, 2, 0, 3, true⟩,
  ⟨0x07001c, 1, 0, 12, 1, 3600, true⟩,
  ⟨0x070020, 1, 0, 8, 1, 255, true⟩,
  ⟨0x070020, 1, 8, 4, 1, 15, true⟩,
  ⟨0x070020, 1, 12, 8, 0, 255, false⟩,
  ⟨0x070024, 1, 1, 6, 1, 63, true⟩,
  ⟨0x070024, 1, 7, 6, 0, 63, false⟩,
  ⟨0x070024, 1, 13, 10, 0, 1023, false⟩,
  ⟨0x070024, 1, 23, 9, 1, 511, true⟩,
  ⟨0x070028, 1, 0, 16, 100, 60000, true⟩,
  ⟨0x07002c, 1, 0, 8, 0, 255, false⟩,
  ⟨0x070030, 1, 0, 16, 100, 65535, true⟩,
  ⟨0x080030, 1, 16, 8, 1, 255, true⟩,
  ⟨0x080040, 4, 0, 22, 0, 4194303, false⟩,
  ⟨0x090004, 1, 1, 8, 1, 168, true⟩]

def fieldRanges_2 : List FieldRange := [
  ⟨0x090010, 1, 16, 8, 0, 255, false⟩,
  ⟨0x0a0030, 2, 0, 8, 0, 255, false⟩,
  ⟨0x0a0030, 2, 8, 8, 0, 255, false⟩,
  ⟨0x0a0040, 16, 0, 16, 1, 65535, true⟩,
  ⟨0x0a0080, 16, 0, 24, 0, 10000000, true⟩,
  ⟨0x0a0100, 16, 0, 24, 1, 10000000, false⟩,
  ⟨0x0a0140, 16, 0, 24, 1, 10000000, false⟩,
  ⟨0x0a0180, 16, 0, 24, 1200, 16777215, false⟩,
  ⟨0x0a01c0, 16, 0, 24, 1200, 16777215, false⟩,
  ⟨0x0a0200, 1, 0, 9, 0, 500, true⟩,
  ⟨0x0a0200, 1, 10, 6, 1, 32, true⟩,
  ⟨0x0a0200, 1, 24, 8, 0, 255, false⟩,
  ⟨0x0a0204, 1, 0, 9, 0, 500, true⟩,
  ⟨0x0a0204, 1, 10, 6, 1, 32, true⟩,
  ⟨0x0a0204, 1, 24, 8, 0, 255, false⟩,
  ⟨0x0a0208, 1, 2, 7, 0, 100, true⟩,
  ⟨0x0a0208, 1, 9, 12, 0, 4000, true⟩,
  ⟨0x0a020c, 1, 2, 7, 0, 100, true⟩,
  ⟨0x0a020c, 1, 9, 12, 0, 4000, true⟩,
  ⟨0x0a0300, 64, 12, 3, 0, 7, false⟩,
  ⟨0x0a0300, 64, 16, 16, 0, 65535, false⟩,
  ⟨0x0a0400, 64, 12, 3, 0, 7, false⟩,
  ⟨0x0a0400, 64, 16, 16, 0, 65535, false⟩,
  ⟨0x0b0010, 1, 0, 16, 1, 65535, true⟩,
  ⟨0x0b0024, 1, 0, 8, 1, 255, true⟩,
  ⟨0x0c0028, 1, 0, 2, 0, 2, true⟩,
  ⟨0x0c0028, 1, 4, 12, 0, 4095, false⟩,
  ⟨0x0c0038, 1, 0, 30, 0, 999999999, false⟩,
  ⟨0x0c0070, 1, 2, 28, 1, 500000, true⟩,
  ⟨0x0c0074, 1, 1, 10, 1, 900, false⟩,
  ⟨0x0c0074, 1, 11, 16, 1, 65535, true⟩,
  ⟨0x0c0078, 1, 0, 8, 0, 255, false⟩,
  ⟨0x0c0078, 1, 8, 8, 0, 255, false⟩,
  ⟨0x0c0084, 2, 0, 12, 0, 4095, false⟩,
  ⟨0x0c0084, 2, 16, 12, 0, 4095, false⟩,
  ⟨0x0c0090, 1, 0, 11, 0, 2000, true⟩,
  ⟨0x0c0090, 1, 16, 11, 0, 2000, true⟩,
  ⟨0x0d0004, 2, 3, 14, 64, 9216, true⟩,
  ⟨0x0d000c, 2, 0, 12, 1, 4094, false⟩,
  ⟨0x0d001c, 2, 10, 16, 1, 65535, true⟩]

def fieldRanges_3 : List FieldRange := [
  ⟨0x0d001c, 2, 27, 5, 1, 31, true⟩,
  ⟨0x0d0024, 1, 2, 12, 10, 4000, true⟩,
  ⟨0x0d0028, 1, 0, 2, 0, 2, true⟩,
  ⟨0x0e0004, 1, 4, 7, 10, 90, true⟩,
  ⟨0x0e0008, 1, 0, 5, 2, 31, true⟩,
  ⟨0x0e0008, 1, 5, 2, 0, 2, true⟩,
  ⟨0x0e0008, 1, 7, 12, 1, 4095, true⟩,
  ⟨0x0e0008, 1, 19, 8, 1, 255, true⟩,
  ⟨0x0e000c, 1, 0, 8, 0, 255, false⟩,
  ⟨0x0e000c, 1, 16, 16, 1, 65535, true⟩,
  ⟨0x0f0010, 1, 0, 8, 60, 110, true⟩,
  ⟨0x0f0014, 1, 1, 6, 5, 30, true⟩,
  ⟨0x0f0018, 1, 2, 8, 1, 255, true⟩,
  ⟨0x0f0018, 1, 10, 16, 1, 65535, true⟩,
  ⟨0x0f001c, 1, 16, 4, 1, 8, false⟩,
  ⟨0x0f001c, 1, 20, 4, 1, 8, false⟩,
  ⟨0x0f0030, 1, 14, 10, 0, 1000, false⟩,
  ⟨0x0f0030, 1, 24, 8, 1, 255, true⟩,
  ⟨0x0f0034, 1, 0, 7, 0, 79, false⟩,
  ⟨0x0f0034, 1, 9, 8, 60, 110, false⟩,
  ⟨0x0f0034, 1, 17, 4, 1, 15, true⟩,
  ⟨0x0f0034, 1, 21, 11, 20, 1000, false⟩,
  ⟨0x0f003c, 1, 0, 16, 0, 65535, false⟩,
  ⟨0x100044, 1, 0, 16, 0, 65535, false⟩,
  ⟨0x100044, 1, 17, 15, 1, 32767, true⟩]

/-- Every stated range. -/
def fieldRanges : List FieldRange := fieldRanges_0 ++ fieldRanges_1 ++ fieldRanges_2 ++ fieldRanges_3

def cfgDefaults_0 : List (Nat × Nat) := [
  (0x010004, 0x120),
  (0x020004, 0x3203e8),
  (0x020020, 0x55555555),
  (0x020028, 0x55555555),
  (0x02002c, 0xaaaaaaaa),
  (0x020050, 0xffffffdc),
  (0x020054, 0xffffbfff),
  (0x020058, 0xffffee7f),
  (0x02005c, 0xff80fdff),
  (0x030020, 0x64),
  (0x030024, 0x8),
  (0x030030, 0x22111111),
  (0x030034, 0x76543322),
  (0x04000c, 0x5210604),
  (0x040010, 0x3208),
  (0x040014, 0x38),
  (0x040018, 0x2864),
  (0x04001c, 0x6f),
  (0x040020, 0x2),
  (0x040024, 0x2),
  (0x05000c, 0x5210604),
  (0x050010, 0x3208),
  (0x050014, 0x38),
  (0x050018, 0x2864),
  (0x05001c, 0x6f),
  (0x050020, 0x2),
  (0x050024, 0x2),
  (0x060004, 0xa02649a),
  (0x060008, 0x280c),
  (0x06000c, 0x10020),
  (0x060010, 0xc14),
  (0x060014, 0x85),
  (0x060020, 0x169327c0),
  (0x060024, 0x1414),
  (0x06002c, 0x600),
  (0x060030, 0x169327c0),
  (0x060034, 0x1414),
  (0x06003c, 0x600),
  (0x070008, 0x755),
  (0x07000c, 0x755)]

def cfgDefaults_1 : List (Nat × Nat) := [
  (0x070010, 0x160d40),
  (0x070014, 0x3),
  (0x070018, 0x28),
  (0x07001c, 0x112c),
  (0x070020, 0x32414),
  (0x070024, 0x1e03c420),
  (0x070028, 0x107d0),
  (0x07002c, 0x10),
  (0x070030, 0x10fa0),
  (0x080030, 0x40b86a),
  (0x080040, 0x1800a50),
  (0x080044, 0x1800a50),
  (0x080048, 0x180012c),
  (0x08004c, 0x180012c),
  (0x090004, 0x31),
  (0x090010, 0xa0000),
  (0x0a0030, 0x1856),
  (0x0a0034, 0x1856),
  (0x0a0040, 0x10),
  (0x0a0044, 0x10),
  (0x0a0048, 0x10),
  (0x0a004c, 0x10),
  (0x0a0050, 0x10),
  (0x0a0054, 0x10),
  (0x0a0058, 0x10),
  (0x0a005c, 0x10),
  (0x0a0060, 0x10),
  (0x0a0064, 0x10),
  (0x0a0068, 0x10),
  (0x0a006c, 0x10),
  (0x0a0070, 0x10),
  (0x0a0074, 0x10),
  (0x0a0078, 0x10),
  (0x0a007c, 0x10),
  (0x0a00c0, 0x4),
  (0x0a00c4, 0x4),
  (0x0a00c8, 0x4),
  (0x0a00cc, 0x4),
  (0x0a00d0, 0x4),
  (0x0a00d4, 0x4)]

def cfgDefaults_2 : List (Nat × Nat) := [
  (0x0a00d8, 0x4),
  (0x0a00dc, 0x4),
  (0x0a00e0, 0x4),
  (0x0a00e4, 0x4),
  (0x0a00e8, 0x4),
  (0x0a00ec, 0x4),
  (0x0a00f0, 0x4),
  (0x0a00f4, 0x4),
  (0x0a00f8, 0x4),
  (0x0a00fc, 0x4),
  (0x0a0200, 0x4003403c),
  (0x0a0204, 0x4003403c),
  (0x0a0208, 0x960ca),
  (0x0a020c, 0x960ca),
  (0x0b0010, 0x11388),
  (0x0c0028, 0x2580),
  (0x0c0070, 0x61a82),
  (0x0c0074, 0x814),
  (0x0c0080, 0x7),
  (0x0d0004, 0x3007),
  (0x0d0008, 0x3007),
  (0x0d000c, 0x4001),
  (0x0d0010, 0x4001),
  (0x0d0014, 0xfac688),
  (0x0d0018, 0xfac688),
  (0x0d001c, 0x57fffc03),
  (0x0d0020, 0x57fffc03),
  (0x0d0024, 0x4b3),
  (0x0d002c, 0xfac688),
  (0x0e0004, 0x32f),
  (0x0e0008, 0x501e08),
  (0x0e000c, 0x138840a0),
  (0x0f000c, 0x17),
  (0x0f0010, 0x264),
  (0x0f0014, 0x33),
  (0x0f0018, 0x96050),
  (0x0f0030, 0x19fa0002),
  (0x0f0034, 0x1184bf00),
  (0x100044, 0x1c200258)]

/-- The idyan default of every cfg register whose default is not 0 (R551). -/
def cfgDefaults : List (Nat × Nat) := cfgDefaults_0 ++ cfgDefaults_1 ++ cfgDefaults_2

/-- The registers a REGS entry may name (R551): those whose Reset column is cfg, and SEC_TAMPER_CFG. -/
def cfgSpans : List (Nat × Nat) := [(0x010004, 1), (0x010010, 1), (0x01001c, 1), (0x010028, 1), (0x020004, 1), (0x020010, 8),
  (0x020030, 4), (0x020040, 4), (0x020050, 4), (0x020080, 4), (0x030020, 1), (0x030024, 1),
  (0x030030, 1), (0x030034, 1), (0x040004, 1), (0x04000c, 1), (0x040010, 1), (0x040014, 1),
  (0x040018, 1), (0x04001c, 1), (0x040020, 2), (0x040030, 4), (0x040100, 16), (0x040140, 16),
  (0x050004, 1), (0x05000c, 1), (0x050010, 1), (0x050014, 1), (0x050018, 1), (0x05001c, 1),
  (0x050020, 2), (0x050030, 4), (0x050100, 16), (0x050140, 16), (0x060004, 1), (0x060008, 1),
  (0x06000c, 1), (0x060010, 1), (0x060014, 1), (0x060020, 1), (0x060024, 1), (0x06002c, 1),
  (0x060030, 1), (0x060034, 1), (0x06003c, 1), (0x060400, 80), (0x070008, 1), (0x07000c, 1),
  (0x070010, 1), (0x070014, 1), (0x070018, 1), (0x07001c, 1), (0x070020, 1), (0x070024, 1),
  (0x070028, 1), (0x07002c, 1), (0x070030, 1), (0x070034, 1), (0x070038, 1), (0x07003c, 1),
  (0x080030, 1), (0x080034, 1), (0x080040, 4), (0x080050, 4), (0x090004, 1), (0x09000c, 1),
  (0x090010, 1), (0x090060, 8), (0x090080, 8), (0x0a0030, 2), (0x0a0040, 16), (0x0a0080, 16),
  (0x0a00c0, 16), (0x0a0100, 16), (0x0a0140, 16), (0x0a0180, 16), (0x0a01c0, 16), (0x0a0200, 1),
  (0x0a0204, 1), (0x0a0208, 1), (0x0a020c, 1), (0x0a0300, 64), (0x0a0400, 64), (0x0b0008, 1),
  (0x0b000c, 1), (0x0b0010, 1), (0x0b0020, 1), (0x0c0028, 1), (0x0c0060, 1), (0x0c0064, 1),
  (0x0c0070, 1), (0x0c0074, 1), (0x0c0078, 1), (0x0c0080, 1), (0x0c0084, 2), (0x0c0090, 1),
  (0x0d0004, 2), (0x0d000c, 2), (0x0d0014, 2), (0x0d001c, 2), (0x0d0024, 1), (0x0d0028, 1),
  (0x0d002c, 1), (0x0d0030, 8), (0x0d0050, 2), (0x0d0058, 2), (0x0e0004, 1), (0x0e0008, 1),
  (0x0e000c, 1), (0x0e0010, 1), (0x0f000c, 1), (0x0f0010, 1), (0x0f0014, 1), (0x0f0018, 1),
  (0x0f001c, 1), (0x0f0020, 3), (0x0f0030, 1), (0x0f0034, 1), (0x0f0038, 1), (0x0f003c, 1),
  (0x100044, 1)]

/-- Whether a REGS entry may name a register. -/
def isCfg (a : Nat) : Bool := cfgSpans.any fun p => Nat.ble p.1 a && Nat.blt a (p.1 + 4 * p.2) && Nat.beq (a % 4) 0

end Sys2Proof.Reg
end

