-- ==== Sys2Proof/Machine/Operands.lean ====
section
/-!
DEFINITION. Machine/Operands.lean: how a host access reaches the block: which interface answers, which host function
group a register belongs to (R606), what the access map allows (R607), how a refused access is logged (R605), and the
value a register field keeps (R6, R8 and the field tables).
-/

namespace Sys2Proof.Machine

open Sys2Proof Sys2Proof.Reg

/-! ### The lifecycle and the access map -/

/-- A LIFECYCLE group is blown when at least three of its four bits read 1 (R400). -/
def groupBlown (row0 : Word) (g : Nat) : Bool :=
  Nat.ble 3 ((List.range 4).foldl (fun n i => n + fieldOf row0 (4 * g + i) 1) 0)

/-- The lifecycle state: the number of blown groups (R400). -/
def lifecycleOf (row0 : Word) : Nat :=
  (List.range 3).foldl (fun n g => if groupBlown row0 g then n + 1 else n) 0

/-- One row of the fuse array (R399). -/
def State.fuseRow (s : State) (r : Nat) : Word := s.u.fuse.rows.getD r 0

/-- The lifecycle state of the part: 0 BLANK, 1 PROVISIONED, 2 DEPLOYED, 3 RETIRED (R400). -/
def State.lifecycle (s : State) : Nat := lifecycleOf (s.fuseRow 0)

/-- The ACCESS_MAP rows of a lifecycle state (R399). -/
def State.fuseMap (s : State) (l : Nat) : Nat :=
  (s.fuseRow (29 + 2 * l)).toNat + 2 ^ 32 * (s.fuseRow (30 + 2 * l)).toNat

/-- Whether a map has group g. -/
def mapHas (m g : Nat) : Bool := Nat.beq (m / 2 ^ g % 2) 1

/-- Whether the map applied in the part's lifecycle state allows a group (R607); groups 18 and up never are (R606). -/
def State.allows (s : State) (g : Nat) : Bool :=
  Nat.blt g 18 &&
  match s.lifecycle with
  | 0 => g == 0 || g == 1 || g == 14 || g == 15 || g == 16
  | 1 => if s.fuseMap 1 = 0 then true else mapHas (s.fuseMap 1) g
  | 2 => if s.fuseMap 2 = 0 then Nat.blt g 17 else mapHas (s.fuseMap 2) g
  | _ => g == 0

/-- The mailbox request registers of group 1 (R606). -/
def diagMailbox (a : Nat) : Bool :=
  a == BT_BEAT_REQ || a == SCH_SNAP_REQ || a == TK_TIME_REQ || a == TK_CAP_REQ || a == PAIR_DIG_REQ ||
  a == BOOT_CFG_HASH_REQ

/-- The host function group a register write belongs to (R604, R606). -/
def writeGroup (a : Nat) : Nat :=
  if a == FUSE_READ_REQ then 0
  else if diagMailbox a then 1
  else if a / 0x10000 = 2 then 2
  else if a / 0x10000 = 1 then (if 0x18000 ≤ a then 2 else 3)
  else if a == FWD_CMD || a == ENV_QCMD || a == ETH_BR_CMD then 5
  else if a == SEC_SLOT_CMD then 9
  else if a == TK_STEP_CMD || a == TK_REARM || a == TK_INCR_FRAC || a == TK_INCR_INT then 10
  else if a == PAIR_CMD || a == PAIR_ROLE_OVR then 11
  else if a == PWR_REQ || a == PWR_MODE_FORCE || a == PWR_RESET then 12
  else if a == SEC_ZEROISE || a == SEC_TAMPER_CLR then 13
  else if a == FUSE_PROG || a == FUSE_PROG_DATA then 14
  else if a == FUSE_ADVANCE then 15
  else if a == BOOT_RECOVERY || a == BOOT_RCV_CMD || a == BOOT_RCV_ARG then 16
  else 4

/-- The writes HOLD serves (R607): the mailbox requests and the two guarded ways out. -/
def holdWrite (a : Nat) : Bool :=
  a == FUSE_READ_REQ || diagMailbox a || a == HIF_JRN_REQ || a == PWR_RESET || a == SEC_TAMPER_CLR

/-- Whether a host write to a register is permitted in the lifecycle state and the mode (R604, R607). -/
def State.permits (s : State) (a : Nat) : Bool :=
  s.allows (writeGroup a) && (!decide (s.mode = .hold) || holdWrite a)

/-- The group of a BAR0 read (R606). -/
def readGroup (a : Nat) : Nat :=
  if a / 0x10000 = 0 || a == FUSE_STATUS || a == FUSE_READ_REQ || a == FUSE_READ_DATA || a == BOOT_STATUS ||
    a == PAIR_STATUS || a == PAIR_SCORE then 0
  else if a / 0x10000 = 2 then 2
  else if a / 0x10000 = 1 then (if 0x18000 ≤ a then 1 else 3)
  else 1

/-- Whether a BAR0 read is permitted (R604, R607): in HOLD group 0, group 1 and the HIF_ reads of group 3 stay. -/
def State.permitsRead (s : State) (a : Nat) : Bool :=
  s.allows (readGroup a) && (!decide (s.mode = .hold) || !(readGroup a == 2))

/-! ### Which interface answers -/

/-- Whether an access of this interface reaches the block (R597, R599). -/
def State.reaches (s : State) (i : HostIface) : Bool :=
  s.u.pins.resetN && Nat.blt s.u.pwr.driftEntry 3 && match i with
  | .pcie => s.bit HIF_STATUS_PCIE_UP && !decide (s.mode = .cold) && !decide (s.mode = .drift)
  | .spi => !decide (s.mode = .cold) && !decide (s.mode = .drift) && (!s.mode.serving || s.bit HIF_CFG_SPI_EN)


namespace Act

/-- Log a refused access (R605): the last one's description, the count, and HIF_ACCESS_ERROR once per beat. -/
def accessError (reason : Nat) (i : HostIface) (byteEn addr : Nat) : Act :=
  all [setF HIF_ACCERR_REASON reason, setF HIF_ACCERR_IFACE i.code, setF HIF_ACCERR_BYTE_EN byteEn,
    .reg HIF_ACCERR_ADDR (BitVec.ofNat 32 addr),
    sat HIF_ACCERR_CNT,
    when (i.code == 1) (hif fun h => { h with spiErr := true }),
    .read fun s => raiseOnce 120 0 (leBytes 4 (s.reg HIF_ACCERR).toNat ++ leBytes 4 addr)]

/-- A host write that needs permission: done where the interface answers and the map allows it (R604), and logged as
NOT_PERMITTED where the map does not. -/
def permitted (i : HostIface) (a : Nat) (act : Act) : Act := .read fun s =>
  if !s.reaches i then .nop
  else if s.permits a then act
  else accessError 2 i 15 a

end Act

/-! ### The value a register keeps -/

/-- A field limited to its stated range where the field table stores the nearest limit. -/
def clampField (w : Word) (r : FieldRange) : Word :=
  insertField w r.lo r.width (max r.min (min r.max (fieldOf w r.lo r.width)))

/-- The stated ranges of a register's fields. -/
def rangesOf (a : Nat) : List FieldRange :=
  fieldRanges.filter fun r => Nat.ble r.base a && Nat.blt a (r.base + 4 * r.count)

/-- The clamps that depend on another field of the same register (R154, R240), and the values R467 stores as others. -/
def clampSpecial (a : Nat) (w : Word) : Word :=
  if a = MAC_BACKOFF then insertField w 14 4 (max (fieldOf w 14 4) (fieldOf w 10 4))
  else if a = RFx_CX_TIMING .s || a = RFx_CX_TIMING .w then
    insertField w 10 10 (min (fieldOf w 10 10) (fieldOf w 0 10 - 1))
  else if a = ETH_Pp_VLAN 0 || a = ETH_Pp_VLAN 1 then
    let w := if fieldOf w 0 12 = 0 || fieldOf w 0 12 = 4095 then insertField w 0 12 1 else w
    if fieldOf w 12 2 = 3 then insertField w 12 2 0 else w
  else w

/-- The value a register keeps of one written: only writable bits, each clamped field at its nearest limit. -/
def storedValue (a : Nat) (w : Word) : Word :=
  match rowOf a with
  | none => 0
  | some r => clampSpecial a ((rangesOf a).foldl (fun v f => if f.clamps then clampField v f else v)
      (w &&& BitVec.ofNat 32 r.writable))

/-- Whether every field of a register lies in its stated range (R556 VALUE_RANGE). -/
def inRange (a : Nat) (w : Word) : Bool :=
  (rangesOf a).all fun f => Nat.ble f.min (fieldOf w f.lo f.width) && Nat.ble (fieldOf w f.lo f.width) f.max

end Sys2Proof.Machine
end

