-- ==== Sys2Proof/Machine/Sched.lean ====
section
/-!
DEFINITION. Machine/Sched.lean: the scheduler's commands (R331, R332, R353, R358).
-/

namespace Sys2Proof.Machine

open Sys2Proof Sys2Proof.Reg Sys2Proof.Machine.Act

/-- A port can start a frame of its own (R331, R447, R453): its link is up, nothing is being sent, no PAUSE is in force
and the mode has an uplink. -/
def State.portFree (s : State) (p : EthPort) : Bool :=
  s.bit (ETH_STATUS_Pp_UP p) && (s.u.eth.port p.idx).sending.isNone && !s.bit (ETH_STATUS_Pp_PAUSED p) && s.mode.uplink

/-- A selection on an uplink port (R328, R331, R332, R460): V and the credit move on, and a PLE datagram takes its
sequence number, which `k` is told. -/
def Act.uplinkPick (p c fin : Nat) (h : PacketInfo) (k : Nat → Act) : Act := .read fun s =>
  let cls := 8 * p + c
  let n := match h.headend with
    | none => 0
    | some e => (s.u.eth.rseq.getD e 0 + 1) % 65536
  all [selectHead p c h.start fin,
    when (s.bit (SCH_ULk_CFG_SHAPE_EN cls))
      (sch fun x => { x with credit := x.credit.setD cls 0 (x.credit.getD cls 0 - 8000 * (h.acct : Int)) }),
    sch fun x => { x with robin := x.robin.setD p 0 (c + 1) },
    match h.headend with
    | none => .nop
    | some e => eth fun x => { x with rseq := x.rseq.setD e 0 n },
    k n]

/-- A selected packet waits at its port (R457). -/
def Act.uplinkTake (p c fin : Nat) (h : PacketInfo) (q : Nat) : Act :=
  uplinkPick p c fin h fun n => all [recordInput 0x0B, wrap (SCH_ULk_SENT (8 * p + c)),
    ethUnit p fun u => { u with chosen := some (q, h.start, n) }]

/-- UPLINK_SELECT (R331). -/
def execUplinkSelect (port : EthPort) (s : State) : Result :=
  s.act <|
    let p := port.idx
    when (s.portFree port && (s.u.eth.port p).chosen.isNone)
      (match s.uplinkChoice p with
      | none => .nop
      | some (c, fin) => match s.flowHead p c, s.classQueue p c with
        | some h, some q => uplinkTake p c fin h q
        | _, _ => .nop)

/-- SHAPER_TICK (R332): a whole microsecond of device time. -/
def execShaperTick (s : State) : Result :=
  s.act <| when (s.bit TK_STATUS_RUNNING && s.mode.inService) creditTicks

/-- RESIDUE_MISMATCH (R353): a first mismatch is repeated and cured; a second marks the domain for rebuild. -/
def execResidueMismatch (domain : Fin 4) (second : Bool) (s : State) : Result :=
  s.act <|
    if second then all [sat SCH_ARITH_FAULT, raise 14 (leBytes 1 domain), rebuildBit domain true,
      healthFault 8 7, raise 110 [8]]
    else sat SCH_RESIDUE_FIX

/-- SCH_SNAPSHOT_REQ (R358): V, F and, for an uplink flow, credit and buckets, from one instant. -/
def Act.schSnapReq (iface : HostIface) (value : BitVec 32) : Act :=
  permitted iface SCH_SNAP_REQ (.read fun s =>
    let d := fieldOf value 0 2
    let f := fieldOf value 8 6
    let f := if d < 2 then f % 8 else f
    let w := s.flow d f
    let head := (s.flowHead d f).bind fun h => w.stampOf h.start
    let fin := head.getD w.fLast
    let c := if d < 2 then BitVec.ofInt 48 (s.credit (8 * d + f)) else 0
    let bucket := fun (b : Store Nat) => if d < 2 then b.getD (8 * d + f) 0 else 0
    all [.reg SCH_SNAP_REQ (BitVec.ofNat 32 (d + 256 * f + 2 ^ 31)),
      .reg SCH_SNAP_V_LO (BitVec.ofNat 32 (s.virt d)),
      .reg SCH_SNAP_V_HI (BitVec.ofNat 32 (s.virt d / 2 ^ 32)),
      .reg SCH_SNAP_F_LO (BitVec.ofNat 32 fin),
      .reg SCH_SNAP_F_HI (BitVec.ofNat 32 (fin / 2 ^ 32 % 65536 + (if head.isSome then 65536 else 0))),
      .reg SCH_SNAP_C_LO (BitVec.ofNat 32 c.toNat),
      .reg SCH_SNAP_C_HI (BitVec.ofNat 32 (c.toNat / 2 ^ 32)),
      .reg SCH_SNAP_TC (BitVec.ofNat 32 (bucket s.u.sch.tc)),
      .reg SCH_SNAP_TP (BitVec.ofNat 32 (bucket s.u.sch.tp))])

/-- SCH_SNAPSHOT_REQ. -/
def execSchSnapshotReq (iface : HostIface) (value : BitVec 32) (s : State) : Result :=
  s.act (Act.schSnapReq iface value)

end Sys2Proof.Machine
end

