-- ==== Sys2Proof/Machine/Guard.lean ====
section
/-!
DEFINITION. Machine/Guard.lean: guarded writes (R609, R610), and writes that reach a register from the host or from the
device's own firmware.
-/

namespace Sys2Proof.Machine

open Sys2Proof Sys2Proof.Reg

/-- RESULT codes of a guard block (R609). -/
def grdAccepted : Nat := 1
def grdMismatch : Nat := 2
def grdTimeout : Nat := 3
def grdInterrupted : Nat := 4
def grdNotPermitted : Nat := 5
def grdBusy : Nat := 6

/-- The guarded registers, by their type GRD in the register tables (R6). -/
def isGuarded (a : Nat) : Bool :=
  a == TK_REARM || a == PWR_MODE_FORCE || a == PWR_RESET || a == SEC_ZEROISE || a == SEC_TAMPER_CLR || a == FUSE_PROG ||
  a == FUSE_ADVANCE || a == PAIR_ROLE_OVR || a == BOOT_RECOVERY

/-- The value armed at a guarded register. -/
def State.armed (s : State) (x : Nat) : Option Word := s.u.hif.armed.get? x

namespace Act

/-- Nothing is armed at x. -/
def disarm (x : Nat) : Act :=
  .seq (hif fun h => { h with armed := h.armed.del x }) (setB (guardArmed x) false)

/-- A guarded write is rejected (R610): counted and raised. -/
def guardReject (x res : Nat) : Act :=
  all [setF (guardResult x) res, sat HIF_GUARD_REJ, raise 119 (leBytes 4 x ++ leBytes 1 res)]

/-- A value written to X waits for its complement; one already waiting is interrupted (R609, R610). -/
def guardArm (x : Nat) (v : Word) : Act := .read fun s =>
  all [when (s.armed x).isSome (guardReject x grdInterrupted),
    hif fun h => { h with armed := h.armed.put x v },
    setB (guardArmed x) true]

/-- A complement written to X+0x4 (R609, R610): `check` gives what the register makes of the value (ACCEPTED, MISMATCH or
BUSY), `apply` its effect. The order of the checks is that of R609: the complement, the value, the access map. -/
def guardComplement (x : Nat) (comp : Word) (check : Word → State → Nat) (apply : Word → Act) : Act := .read fun s =>
  match s.armed x with
  | none => guardReject x grdMismatch
  | some v =>
    let r := if !(decide (comp = ~~~v)) then grdMismatch
      else if check v s = grdMismatch then grdMismatch
      else if !s.permits x then grdNotPermitted
      else check v s
    .seq (disarm x)
      (if r = grdAccepted then .seq (setF (guardResult x) grdAccepted) (apply v) else guardReject x r)

/-- A write from an interface that answers. -/
def reached (i : HostIface) (a : Act) : Act := .read fun s => when (s.reaches i) a

/-- A write to a register by the host, which needs permission (R604), or by the device's own firmware, which does not. -/
def written (src : Option HostIface) (a : Nat) (act : Act) : Act :=
  match src with
  | none => act
  | some i => permitted i a act

end Act

end Sys2Proof.Machine
end

