-- ==== Sys2Proof/Machine/TimeOps.lean ====
section
/-!
DEFINITION. Machine/TimeOps.lean: the time keeper's counter (R413–R415), the step (R419–R421), servo state and TRACE
(R423), and the residence counter (R432).
-/

namespace Sys2Proof.Machine

open Sys2Proof Sys2Proof.Reg

/-! ### The counter (R413, R414) -/

/-- Device time in units of 2⁻³² ns. -/
def Tk.total (t : Tk) : Nat := (t.s * 1000000000 + t.n) * 2 ^ 32 + t.fr

/-- Device time from units of 2⁻³² ns, seconds modulo 2⁴⁸. -/
def Tk.ofTotal (t : Tk) (v : Nat) : Tk :=
  { t with s := v / 2 ^ 32 / 1000000000 % 2 ^ 48, n := v / 2 ^ 32 % 1000000000, fr := v % 2 ^ 32 }

/-- `edges` TIME clock edges (R414), with the residence counter beside device time (R432). -/
def Tk.tick (t : Tk) (edges : Nat) : Tk :=
  { t.ofTotal (t.total + edges * t.inc) with residence := t.residence + edges * t.inc }

/-- Device time has reached a whole millisecond: it moves on to it, never back. -/
def Tk.reach (t : Tk) (m : Nat) : Tk :=
  if t.ms < m then
    let u := t.atMs m
    { u with residence := t.residence + (u.total - t.total) }
  else t

/-- ns of device time. -/
def Tk.ns (t : Tk) : Nat := t.s * 1000000000 + t.n

/-- ns of the residence counter. -/
def Tk.residenceNs (t : Tk) : Nat := t.residence / 2 ^ 32

/-! ### The increment (R415) -/

def incLow : Nat := 0x03FFCB923B
def incHigh : Nat := 0x0400346DC5

/-- A written increment as it is stored. -/
def clampInc (v : Nat) : Nat := max incLow (min incHigh v)

/-! ### States of the time keeper (R441) -/

def tkFree : Nat := 0
def tkLocked : Nat := 1
def tkHoldover : Nat := 2
def tkFault : Nat := 3

/-- The step's outcomes (R420). -/
def stepOk : Nat := 1
def stepNotArmed : Nat := 2
def stepBusy : Nat := 3
def stepBadValue : Nat := 4

/-- The offset staged in the step registers, ns (R420). -/
def State.stepOffset (s : State) : Int :=
  let v : Nat := (s.reg TK_STEP_S_LO).toNat + 2 ^ 32 * ((s.reg TK_STEP_S_HI).toNat % 2 ^ 16)
  (if v < 2 ^ 47 then (v : Int) else (v : Int) - (2 ^ 48 : Int)) * 1000000000 + (s.fld TK_STEP_NS_NS : Int)

namespace Act

/-- TIME clock edges pass. -/
def timePasses (edges : Nat) : Act := .read fun s => when (s.bit TK_STATUS_RUNNING) (tk fun t => t.tick edges)

/-- A step is applied (R420): device time moves by the offset, the fraction and INC stay. -/
def stepApply (off : Int) : Act := .read fun s =>
  all [tk fun t => { t with
      s := (((t.ns : Int) + off) / 1000000000 % (2 ^ 48 : Int)).toNat
      n := (((t.ns : Int) + off) % 1000000000).toNat
      step := none },
    setB TK_STATUS_STEP_BUSY false,
    setF TK_STATUS_STEP_LAST stepOk,
    sat TK_STEPS,
    raise 80 (leBytes 8 (BitVec.ofInt 64 off).toNat ++
      leBytes 4 (if s.bit BT_STATUS_RUNNING then s.u.bt.beat % 2 ^ 32 else 0))]

/-- GO (R420, R421): while the sequencer is stopped the step is applied at once, otherwise at a boundary. -/
def stepGo : Act := .read fun s =>
  let off := s.stepOffset
  if s.bit TK_STATUS_STEP_BUSY then .seq (setF TK_STATUS_STEP_LAST stepBusy) (sat TK_STEP_CMD_REFUSED)
  else if 1000000000 ≤ s.fld TK_STEP_NS_NS then setF TK_STATUS_STEP_LAST stepBadValue
  else if !s.bit TK_STATUS_ARMED then
    all [setF TK_STATUS_STEP_LAST stepNotArmed, sat TK_STEP_REFUSED, raise 81 []]
  else all [setB TK_STATUS_ARMED false, setB TK_STATUS_STEP_BUSY true,
    if s.bit BT_STATUS_RUNNING then tk fun t => { t with step := some off } else stepApply off]

/-- The pair of increment registers takes effect (R415). -/
def incApply (int : Nat) : Act := .read fun s =>
  let v := int % 256 * 2 ^ 32 + (s.reg TK_INCR_FRAC).toNat
  let c := clampInc v
  all [.reg TK_INCR_INT (BitVec.ofNat 32 (c / 2 ^ 32)),
    .reg TK_INCR_FRAC (BitVec.ofNat 32 c),
    when (!(Nat.beq c v)) (.seq (sat TK_CLAMPED) (raise 86 (leBytes 5 v))),
    setB TK_STATUS_AT_LIMIT (c == incLow || c == incHigh),
    tk fun t => { t with inc := c }]

/-- TRACE takes a value; its loss is raised (R423). -/
def traceSet (on : Bool) : Act := .read fun s =>
  all [setB TK_STATUS_TRACE on, when (s.bit TK_STATUS_TRACE && !on) (raise 83 []),
    when (s.bit TK_STATUS_TRACE != on) (recordInput 0x0E)]

/-- STATE takes a value (R423): TRACE follows, and entering HOLDOVER or LOCKED is raised. TRACE of a shadow is the active
unit's, as its record carries it (R425, R486), and only a FAULT forces it to 0 (R416). -/
def tkState (st : Nat) (watchdog : Bool) : Act := .read fun s =>
  let old := s.fld TK_STATUS_STATE
  let held := if st = tkHoldover then (if old = tkHoldover then s.u.tk.holdTrace else old == tkLocked) else false
  all [setF TK_STATUS_STATE st,
    tk fun t => { t with holdTrace := held },
    when (st == tkHoldover && !(old == tkHoldover)) (raise 82 [if watchdog then 1 else 0]),
    when (st == tkLocked && !(old == tkLocked)) (raise 84 []),
    when (!s.shadows || st == tkFault) (traceSet (st == tkLocked || held))]

/-- A write to TK_SERVO (R423, R442): 3 is stored as 2. -/
def servoWrite (w : Word) : Act :=
  let v := storedValue TK_SERVO (if fieldOf w 0 2 = 3 then insertField w 0 2 2 else w)
  .seq (.reg TK_SERVO v) (tkState (fieldOf v 0 2) false)

/-- TSI_PENDING and TSI_FULL follow the FIFOs (R441). -/
def tsiFollow : Act := .read fun s =>
  let has := fun (k : Nat) => (List.range 4).foldl (fun n i =>
    if Nat.ble k ((s.u.tk.fifos.getD i []).length) then n + 2 ^ i else n) 0
  .seq (setF TK_STATUS_TSI_PENDING (has 1)) (setF TK_STATUS_TSI_FULL (has 16))

end Act

end Sys2Proof.Machine
end

