-- ==== Sys2Proof/Machine/EthOps.lean ====
section
/-!
DEFINITION. Machine/EthOps.lean: Ethernet frames as bytes: VLAN tags (R450–R452), PTP and the transparent clock
(R431–R433), IPv6 and checksums (R275), the frames a port sends (R458–R463), and the bridge's table (R454, R455).
-/

namespace Sys2Proof.Machine

open Sys2Proof Sys2Proof.Reg

/-! ### Bytes -/

/-- A big-endian field of a frame. -/
def beAt (f : List Byte) (off n : Nat) : Nat := beValue ((f.drop off).take n)

/-- The IEEE 802.3 FCS of a frame, in the order it is sent. -/
def fcsOf (f : List Byte) : List Byte := leBytes 4 (crc32 f).toNat

/-- A frame filled up to the 60 bytes before the FCS that IEEE 802.3 asks for. -/
def fill60 (f : List Byte) : List Byte := f ++ List.replicate (60 - f.length) 0

/-! ### VLAN tags (R450) -/

/-- TPID_88A8 as the mode applies it (R453). -/
def State.tpid88 (s : State) (p : Nat) : Bool := !s.mode.bridgeDefaults && s.bit (ETH_Pp_VLAN_TPID_88A8 p)

/-- The TCI of a frame's outer tag. -/
def tagOfFrame (tpid88 : Bool) (f : List Byte) : Option Nat :=
  let t := beAt f 12 2
  if t = 0x8100 ∨ (tpid88 = true ∧ t = 0x88A8) then some (beAt f 14 2) else none

/-- Where the Ethertype after the tag stands. -/
def typeOff (tpid88 : Bool) (f : List Byte) : Nat := if (tagOfFrame tpid88 f).isSome then 16 else 12

/-- The VID an admitted frame belongs to (R450, R451). -/
def vidOf (pvid : Nat) (tag : Option Nat) : Nat :=
  match tag with
  | none => pvid
  | some t => if t % 4096 = 0 then pvid else t % 4096

/-- The PVID of a port; the fixed defaults give it no tag changes, and 1 as the register's default (R453, R467). -/
def State.pvid (s : State) (p : Nat) : Nat := if s.mode.bridgeDefaults then 1 else s.fld (ETH_Pp_VLAN_PVID p)

/-- The member VIDs (R451). -/
def State.members (s : State) : List Nat :=
  (List.range 8).flatMap fun i =>
    (if s.bit (ETH_MEMBERi_A_EN i) then [s.fld (ETH_MEMBERi_VID_A i)] else []) ++
    (if s.bit (ETH_MEMBERi_B_EN i) then [s.fld (ETH_MEMBERi_VID_B i)] else [])

/-- VLAN admission (R451). -/
def State.vlanAdmits (s : State) (p : Nat) (tag : Option Nat) : Bool :=
  s.mode.bridgeDefaults ||
  (let own := match tag with
    | none => false
    | some t => !(t % 4096 == 0)
  let acc := s.fld (ETH_Pp_VLAN_ACCEPT p)
  !(acc == 1 && !own) && !(acc == 2 && own) &&
    (s.members.isEmpty || s.members.contains (vidOf (s.pvid p) tag)))

/-- A bridged frame's tag at egress (R452), `q` the ingress port. -/
def State.egressTag (s : State) (p q : Nat) (f : List Byte) : List Byte :=
  if s.mode.bridgeDefaults then f
  else
    let pvid := s.fld (ETH_Pp_VLAN_PVID p)
    let untag := s.bit (ETH_Pp_VLAN_UNTAG p)
    match tagOfFrame (s.tpid88 q) f with
    | some t => if t % 4096 = pvid ∧ untag = true then f.take 12 ++ f.drop 16 else f
    | none => if untag then f
      else f.take 12 ++ beBytes 2 (if s.tpid88 p then 0x88A8 else 0x8100) ++ beBytes 2 pvid ++ f.drop 12

/-- DEI of a tagged frame set from its colour (R456). -/
def withDei (tpid88 : Bool) (yellow : Bool) (f : List Byte) : List Byte :=
  match tagOfFrame tpid88 f with
  | none => f
  | some t => patch f 14 (beBytes 2 (t / 8192 * 8192 + (if yellow then 4096 else 0) + t % 4096))

/-! ### PTP (R431–R434) -/

/-- A PTP version 2 message in a frame: where it stands, and its transport: 0 Ethernet, 1 UDP over IPv4, 2 over IPv6. -/
def ptpIn (tpid88 : Bool) (f : List Byte) : Option (Nat × Nat) :=
  let o := typeOff tpid88 f
  let t := beAt f o 2
  let l3 := o + 2
  let found := if t = 0x88F7 then some (l3, 0)
    else if t = 0x0800 then
      let ihl := 4 * (beAt f l3 1 % 16)
      if beAt f (l3 + 9) 1 = 17 ∧ beAt f (l3 + ihl + 2) 2 = 319 then some (l3 + ihl + 8, 1) else none
    else if t = 0x86DD then
      if beAt f (l3 + 6) 1 = 17 ∧ beAt f (l3 + 42) 2 = 319 then some (l3 + 48, 2) else none
    else none
  found.filter fun x => beAt f (x.1 + 1) 1 % 16 == 2

/-- An event message: types 0 to 3. -/
def ptpEvent (tpid88 : Bool) (f : List Byte) : Bool :=
  match ptpIn tpid88 f with
  | none => false
  | some (o, _) => Nat.blt (beAt f o 1 % 16) 4

/-- The transparent clock corrects a frame (R431, R444): Sync and Delay_Req, over a transport it is enabled for. -/
def State.corrects (s : State) (p : Nat) (f : List Byte) : Bool :=
  !s.mode.bridgeDefaults && s.bit TK_TC_CFG_EN &&
  (match ptpIn (s.tpid88 p) f with
  | none => false
  | some (o, k) => Nat.blt (beAt f o 1 % 16) 2 &&
      (k == 0 || (k == 1 && s.bit TK_TC_CFG_UDP4) || (k == 2 && s.bit TK_TC_CFG_UDP6)))

/-- The 16-bit one's-complement sum of numbers, folded. -/
def fold16 (n : Nat) : Nat :=
  let a := n % 65536 + n / 65536
  let b := a % 65536 + a / 65536
  b % 65536 + b / 65536

/-- The sum of a byte list's 16-bit words. -/
def sum16 : List Byte → Nat
  | [] => 0
  | [a] => a.toNat * 256
  | a :: b :: l => a.toNat * 256 + b.toNat + sum16 l

/-- A checksum that follows the change of some of its words (R433). -/
def checksumMove (old : Nat) (before after : List Byte) : Nat :=
  let n := fold16 ((65535 - old) + sum16 (before.map fun b => ~~~b) + sum16 after)
  let c := 65535 - n
  if c = 0 then 65535 else c

/-- A frame with `res` ns of residence added to its correctionField (R431, R433), and whether the field saturated. -/
def corrected (tpid88 : Bool) (f : List Byte) (res : Int) : List Byte × Bool :=
  match ptpIn tpid88 f with
  | none => (f, false)
  | some (o, k) =>
    let old := (BitVec.ofNat 64 (beAt f (o + 8) 8)).toInt
    let sum := old + res * 65536
    let sat := decide ((2 : Int) ^ 63 ≤ sum)
    let new := beBytes 8 (if sat then 2 ^ 63 - 1 else (BitVec.ofInt 64 sum).toNat)
    let g := patch f (o + 8) new
    let h := if k = 1 then patch g (o - 2) [0, 0]
      else if k = 2 then patch g (o - 2) (beBytes 2 (checksumMove (beAt f (o - 2) 2) ((f.drop (o + 8)).take 8) new))
      else g
    (h, sat)

/-! ### IPv6 (R275) -/

/-- The checksum of an upper-layer packet under its IPv6 pseudo-header. -/
def checksum6 (src dst : List Byte) (next : Nat) (l : List Byte) : Nat :=
  let n := fold16 (fold16 (sum16 (src ++ dst)) + fold16 (l.length + next) + fold16 (sum16 l))
  let c := 65535 - n
  if c = 0 then 65535 else c

def ipv6 (tc next hop : Nat) (src dst l : List Byte) : List Byte :=
  beBytes 4 (6 * 2 ^ 28 + tc * 2 ^ 20) ++ beBytes 2 l.length ++ beBytes 1 next ++ beBytes 1 hop ++ src ++ dst ++ l

/-- A UDP datagram with its checksum. -/
def udp (src dst : List Byte) (sp dp : Nat) (m : List Byte) : List Byte :=
  let h := beBytes 2 sp ++ beBytes 2 dp ++ beBytes 2 (m.length + 8)
  h ++ beBytes 2 (checksum6 src dst 17 (h ++ [0, 0] ++ m)) ++ m

/-- An ICMPv6 message with its checksum. -/
def icmp6 (src dst : List Byte) (typ : Nat) (body : List Byte) : List Byte :=
  beBytes 2 (typ * 256) ++ beBytes 2 (checksum6 src dst 58 (beBytes 2 (typ * 256) ++ [0, 0] ++ body)) ++ body

/-- A port's own MAC address. -/
def State.portMac (s : State) (p : Nat) : List Byte :=
  beBytes 2 ((s.reg (ETH_Pp_MAC_HI p)).toNat % 65536) ++ beBytes 4 (s.reg (ETH_Pp_MAC_LO p)).toNat

/-- The device's IPv6 address. -/
def State.ip (s : State) : List Byte := s.u.boot.ipv6

/-- The solicited-node group of the device's address and its Ethernet address (RFC 4291, RFC 2464; log 51). -/
def State.groupIp (s : State) : List Byte :=
  [0xFF, 0x02, 0, 0, 0, 0, 0, 0, 0, 0, 0, 1, 0xFF] ++ s.ip.drop 13

def State.groupMac (s : State) : List Byte := [0x33, 0x33, 0xFF] ++ s.ip.drop 13

def allNodesIp : List Byte := [0xFF, 0x02, 0, 0, 0, 0, 0, 0, 0, 0, 0, 0, 0, 0, 0, 1]
def allNodesMac : List Byte := [0x33, 0x33, 0, 0, 0, 1]

/-- A Neighbour Advertisement for the device's address (RFC 4861; log 51), as destination MAC and IPv6 packet. -/
def State.advertise (s : State) (p : Nat) (mac dst : List Byte) (solicited : Bool) : List Byte :=
  mac ++ ipv6 0 58 255 s.ip dst
    (icmp6 s.ip dst 136 (beBytes 4 (if solicited then 0x60000000 else 0x20000000) ++ s.ip ++ [2, 1] ++ s.portMac p))

/-- The fields of a HEADENDS entry (R550). -/
def heIp (h : List Byte) : List Byte := h.take 16
def hePort (h : List Byte) : Nat := leAt h 16 2
def heVid (h : List Byte) : Nat := leAt h 18 2
def heDscp (h : List Byte) (c : Nat) : Nat := leAt h (26 + c) 1

/-- The headend a datagram comes from (R275). -/
def State.headendFrom (s : State) (src : List Byte) (port : Nat) : Option Nat :=
  s.u.boot.headends.findIdx? fun h => heIp h == src && hePort h == port

/-! ### Frames a port sends -/

/-- A PAUSE frame (R463). -/
def pauseFrame (mac : List Byte) (q : Nat) : List Byte :=
  fill60 ([0x01, 0x80, 0xC2, 0, 0, 1] ++ mac ++ [0x88, 0x08, 0, 1] ++ beBytes 2 q)

/-- A VLAN tag (R450). -/
def State.vlanTag (s : State) (p pcp : Nat) (yellow : Bool) (vid : Nat) : List Byte :=
  beBytes 2 (if s.tpid88 p then 0x88A8 else 0x8100) ++ beBytes 2 (pcp * 8192 + (if yellow then 4096 else 0) + vid)

/-- Datagrams are tagged with the R-TAG (R461). -/
def State.rtagged (s : State) : Bool :=
  !decide (s.mode = .solo) && (s.fld ETH_RTAG_MODE == 2 || (s.fld ETH_RTAG_MODE == 1 && s.bit PAIR_STATUS_WINDOW))

/-- A PLE datagram as one frame (R275, R458, R459). -/
def State.pleFrame (s : State) (p c h rseq : Nat) (yellow : Bool) (m : List Byte) : List Byte :=
  let he := (s.headend h).getD []
  let tag := if heVid he = 0 then [] else s.vlanTag p (s.fld (ETH_CLASS_PCP_c c)) yellow (heVid he)
  let rtag := if s.rtagged then [0xF1, 0xC1, 0, 0] ++ beBytes 2 rseq else []
  (s.headendRoute h).2 ++ s.portMac p ++ tag ++ rtag ++ [0x86, 0xDD] ++
    ipv6 (4 * heDscp he c) 17 (s.fld FWD_ENCAP_HOP_LIMIT) s.ip (heIp he)
      (udp s.ip (heIp he) (s.fld FWD_ENCAP_UDP_PORT) (hePort he) m)

/-! ### The bridge's table (R454, R455) -/

/-- The bucket of a key: R258 with the NET key bytes. -/
def brBucket (mac vid : Nat) : Nat := (crc32 (leBytes 2 vid ++ beBytes 6 mac)).toNat % 1024

def State.brEntry (s : State) (slot : Nat) : Option BrEntry := s.u.eth.bridge.getD slot none

/-- The slot that holds a key. -/
def State.brSlot (s : State) (mac vid : Nat) : Option Nat :=
  (ways.map fun w => 4 * brBucket mac vid + w).find? fun k => match s.brEntry k with
    | none => false
    | some e => e.mac == mac && e.vid == vid

/-- The entry of a key. -/
def State.brLookup (s : State) (mac vid : Nat) : Option BrEntry := (s.brSlot mac vid).bind s.brEntry

/-- A sighting's time (R455): the bound beat, or the millisecond while the sequencer is stopped. -/
def State.sightTime (s : State) : Nat := if s.bit BT_STATUS_RUNNING then s.bindBeat else s.u.tk.ms

namespace Act

/-- Store a slot of the bridge's table, and let ENTRIES follow. -/
def brPut (slot : Nat) (e : Option BrEntry) : Act :=
  .seq (eth fun x => { x with bridge := x.bridge.setD slot none e })
    (.read fun s => setF ETH_BR_STAT_ENTRIES s.u.eth.bridge.length)

/-- Every non-static entry of a port is deleted; of both ports for none. -/
def brFlush (gone : BrEntry → Bool) : Act :=
  .seq (eth fun x => { x with bridge := x.bridge.filter fun e => match e.2 with
      | none => false
      | some b => b.static || !gone b })
    (.read fun s => setF ETH_BR_STAT_ENTRIES s.u.eth.bridge.length)

/-- A learn of the bridge on port p, with the move rule (R454, R455): until a move is confirmed the old port stays. -/
def brLearn (p mac vid : Nat) : Act := .read fun s =>
  let now := s.sightTime
  match s.brSlot mac vid with
  | none => match (ways.map fun w => 4 * brBucket mac vid + w).find? fun k => (s.brEntry k).isNone with
    | none => .seq (sat ETH_BR_NOSPACE) (raiseOnce 93 0 [])
    | some k => brPut k (some ⟨mac, vid, p, false, false, 0, s.u.tk.s⟩)
  | some k => match s.brEntry k with
    | none => .nop
    | some e =>
      let e := { e with seen := s.u.tk.s }
      if e.static then .nop
      else if e.port = p then brPut k (some { e with moveTime := if e.moving then now else e.moveTime })
      else if !e.moving then brPut k (some { e with moving := true, moveTime := now })
      else if e.moveTime + 2 ≤ now then
        all [brPut k (some { e with port := p, moving := false }), wrap ETH_BR_MOVES,
          raise 92 (leBytes 6 mac ++ leBytes 2 vid ++ leBytes 1 p)]
      else brPut k (some e)

/-! ### Links (R446, R447) -/

/-- A pass-through frame toward port p is lost (R447, R453). -/
def ptDrop (p n : Nat) : Act := when (Nat.blt 0 n) (.seq (satBy (ETH_Pp_PT_DROP p) n) (raiseOnce 94 p (leBytes 1 p)))

/-- The link of port p goes down (R447). -/
def linkDown (p : Nat) : Act := .read fun s =>
  let port := EthPort.ofIdx p
  when (s.bit (ETH_STATUS_Pp_UP port))
    (all [setB (ETH_STATUS_Pp_UP port) false, setF (ETH_STATUS_Pp_MODE port) 0, setB (ETH_STATUS_Pp_PAUSED port) false,
      sat (ETH_Pp_LINK_DOWN p),
      raise 89 (leBytes 1 p),
      brFlush fun e => e.port == p,
      ptDrop p (s.u.eth.port p).fifo.length,
      ethUnit p fun u => { u with fifo := [], sending := none },
      pauseEval (1 - p)])

/-- The link of port p starts anew in its mode (R446, R467). -/
def linkRestart (p : Nat) : Act := .read fun s =>
  let auto := s.mode.bridgeDefaults || s.fld (ETH_Pp_CFG_MODE p) == 3
  .seq (linkDown p) (ethUnit p fun u => { u with trying := if auto then 2 else 0 })

/-- ETH_STATUS.PATH follows the mode (R453, R467). -/
def ethPath : Act := .read fun s =>
  setF ETH_STATUS_PATH (if s.mode.bridgeDefaults then 3
    else if decide (s.mode = .solo) || decide (s.mode = .doze) then 1
    else if s.mode.runs then 2 else 0)

/-- A write to ETH_Pp_PAUSE (R467): RX_EN cleared ends a pause in force, and the conditions are evaluated again. -/
def ethPauseWrite (p : Nat) (w : Word) : Act :=
  let v := storedValue (ETH_Pp_PAUSE p) w
  all [.reg (ETH_Pp_PAUSE p) v, when (fieldOf v 0 1 == 0) (setB (ETH_STATUS_Pp_PAUSED (EthPort.ofIdx p)) false),
    pauseEval p]

/-- A write to ETH_Pp_CFG (R467): a new MODE or AN_EN restarts the link. -/
def ethCfgWrite (p : Nat) (w : Word) : Act := .read fun s =>
  let v := storedValue (ETH_Pp_CFG p) w
  .seq (.reg (ETH_Pp_CFG p) v)
    (when (!(fieldOf v 0 3 == fieldOf (s.reg (ETH_Pp_CFG p)) 0 3) && !s.mode.bridgeDefaults) (linkRestart p))

/-- A write to ETH_BR_CMD (R467). -/
def brCmdWrite (w : Word) : Act := .read fun s =>
  if s.bit ETH_BR_STAT_BUSY then sat ETH_BR_CMD_REFUSED
  else when (fieldOf w 0 1 == 1 && Nat.blt (fieldOf w 1 2) 3)
    (.seq (setB ETH_BR_STAT_BUSY true) (eth fun x => { x with flush := some (fieldOf w 1 2) }))

end Act

end Sys2Proof.Machine
end

