-- ==== Sys2Proof/Machine/Shift.lean ====
section
/-!
DEFINITION. Machine/Shift.lean: what a change of the major mode does beyond GEN_MODE (R23–R25, R137, R449, R453, R475):
the transmitters, the receivers, the ports and the pair pull follow the mode; and the entry into HOLD.
-/

namespace Sys2Proof.Machine

open Sys2Proof Sys2Proof.Reg

/-- The modes that allow transmission (R24). -/
def Mode.airTx : Mode → Bool := Mode.serves

/-- The unit's own health score (R505). -/
def State.score (s : State) : Nat := s.fld ⟨PAIR_SCORE, 0, 8⟩

/-- The AON count carries on by ticks of XTAL32 (R417). -/
def Tk.aonPass (t : Tk) (ticks : Nat) : Tk :=
  { t with aonS := (t.aonS * 32768 + t.aonFr + ticks) / 32768 % 2 ^ 48, aonFr := (t.aonFr + ticks) % 32768 }

/-- BT_ENG_STATE codes (R71). -/
def engOff : Nat := 0
def engServing : Nat := 1
def engBist : Nat := 2
def engFaulted : Nat := 3

namespace Act

/-- HEALTH_OK follows the score and the pair state (R476); each crossing of OK_MIN raises HEALTH_SCORE. -/
def healthPin : Act := .read fun s =>
  let st := s.fld PAIR_STATUS_PSTATE
  let want := s.bit GEN_MODE_PAIR_CFG && !decide (s.mode = .hold) && (st == 1 || st == 2 || st == 7 || st == 8 || st == 5) &&
    Nat.ble (s.fld PAIR_HEALTH_CFG_OK_MIN) s.score
  when (want != s.u.pair.healthOk) (pair fun p => { p with healthOk := want })

/-- Ticks of XTAL32 pass: the AON count, and in DRIFT the seconds counted in it (R417, R538). -/
def aonPass (ticks : Nat) : Act := .read fun s =>
  .seq (tk fun t => t.aonPass ticks)
    (when (decide (s.mode = .drift))
      (let n := s.u.pwr.driftFr + ticks
      .seq (pwr fun p => { p with driftFr := n % 32768 }) (wrapBy PWR_ACC_DRIFT_S (n / 32768))))

/-- The pull on PAIR_ALIVE ends (R475). -/
def aliveRelease : Act := setB PAIR_STATUS_ALIVE_DRV false

/-- Work in progress is discarded where the engines lose power or are held in reset (R25, R43, R513). -/
def discardWork : Act :=
  all [accel fun a => { a with ops := [] },
    bt fun b => { b with engines := b.engines.map fun e =>
      (e.1, { e.2 with second := none, slots := [], ring := [], held := [], stalled := [] }) },
    each (List.range 16) engineStat,
    rx fun x => { x with frames := [], reqs := [] },
    mac fun m => { m with frames := [], joins := [], admitting := [] }]

/-- MODE takes a new value, and everything that follows the mode with it. -/
def shift (m : Mode) (row : Nat) : Act := .read fun s =>
  let old := s.mode
  when (!decide (old = m))
    (all [enterMode m row,
      when (old.airTx && !m.airTx) (.seq txModeAbort aliveRelease),
      when (old.airRx && !m.airRx) (each (List.range 80) fun n => endBoth n rxChannelOff),
      when (old.runs && !m.runs) discardWork,
      when (!m.serves) (pair fun p => { p with window := 0 }),
      ethPath,
      if decide (m = .cold) || decide (m = .drift) || decide (m = .hold) then .seq (linkDown 0) (linkDown 1)
        else when (old.bridgeDefaults != m.bridgeDefaults) (.seq (linkRestart 0) (linkRestart 1)),
      when (!old.sendsUplink && m.sendsUplink)
        (.seq (ethUnit 0 fun u => { u with naLeft := 3 }) (ethUnit 1 fun u => { u with naLeft := 3 })),
      when (!m.runs) (mac fun c => { c with listens := c.listens.filter fun l => !l.closed }),
      rxRunning .s, rxRunning .w, poolStat,
      healthPin,
      fcFollow])

/-- HOLD_ENTRY (R25, R475, R627): at once, from any mode; the ring stops after MODE_CHANGED is in it, a transition of the
power controller ends without its result, and a boot or a start-up wait ends. -/
def holdEntry : Act := .read fun s =>
  when (!decide (s.mode = .hold))
    (all [shift .hold 20,
      aliveRelease,
      when s.u.pwr.trans.isSome (.seq (setF PWR_REQ_STAT_RESULT 5) (setB PWR_REQ_STAT_IN_PROGRESS false)),
      pwr fun p => { p with
        trans := none
        staged := none
        nextLevel := none
        change := none
        exitForced := false
        driftEntry := 0
        latchArmed := false },
      boot fun b => { b with running := false, commissionWait := false, migrating := false },
      evt fun e => { e with stopped := true },
      setF BT_STATUS_WINDOW 0])

/-- Zeroise and enter HOLD (R396, R397): the store is overwritten, the device enters HOLD, and the key area is erased
there where the configuration asks for it. -/
def zeroiseHold : Act := all [zeroise, holdEntry, eraseKeyArea]

/-- A cause of R395 (R396): latched, counted, and answered by mode. -/
def tamper (cause : Nat) : Act := .read fun s =>
  match s.mode with
  | .hold => sat SEC_TAMPER_CNT
  | .cold | .drift => latchTamper cause
  | .rom => if s.u.sec.kek.isNone then .seq (latchTamper cause) holdEntry
      else .seq (latchTamper cause) zeroiseHold
  | _ => .seq (latchTamper cause) zeroiseHold

/-- The code of R395 of a monitor: 0 the voltages of the rails, 1 temperature, 2 clock, 3 the voltage of VBAT_AON. -/
def monitorCode (m : Nat) : Nat := if m = 3 then 3 else 3 + m

/-- What a value of SEC_TAMPER_CFG does on a monitor's code: 0 nothing, 1 ALARM, 2 TAMPER (R409). -/
def monitorMode (cfg : Word) (code : Nat) : Nat := fieldOf cfg (2 * code - 2) 2

/-- A monitor condition under its setting (R395): an alarm, a tamper, or nothing. -/
def monitorMet (code setting : Nat) : Act :=
  .seq (when (setting == 1) (.seq (raiseOnce 73 code (leBytes 1 code)) (healthFault 11 15)))
    (when (setting == 2) (.seq (pair fun p => { p with lastFault := 15 }) (tamper code)))

/-- The sources at the sample after SEC_TAMPER_CFG changed from `old` (R395, R409): the pins' active levels and their
debounce, and each monitor whose condition is present under a new setting. -/
def tamperFollow (old : Word) : Act := .read fun s =>
  let new := s.reg SEC_TAMPER_CFG
  let moved := fun i => old.getLsbD i != new.getLsbD i
  let a0 := s.u.pins.tamper0 != moved 1
  let a1 := s.u.pins.tamper1 != moved 3
  let deb := fun (was was' now en en' : Bool) => now && en' && (was || !(was' && en))
  all [pins fun p => { p with tamper0 := a0, tamper1 := a1 },
    setB SEC_TAMPER_STAT_T0_NOW a0, setB SEC_TAMPER_STAT_T1_NOW a1,
    sec fun x => { x with
      deb0 := deb x.deb0 s.u.pins.tamper0 a0 (old.getLsbD 0) (new.getLsbD 0)
      deb1 := deb x.deb1 s.u.pins.tamper1 a1 (old.getLsbD 2) (new.getLsbD 2) },
    each ((s.u.sec.mon.map monitorCode).filter fun c => !(monitorMode old c == monitorMode new c)) fun c =>
      monitorMet c (monitorMode new c)]

/-- The boot ROM starts after a reset (R553): ROM mode, step 1, the straps sampled, the boot counted (R576). -/
def startRom (old : Mode) (row : Nat) (st : Straps) : Act :=
  all [setF GEN_MODE_MODE old.code,
    seedTime,
    enterMode .rom row,
    setF GEN_MODE_ROLE_B (if st.roleB then 1 else 0), setB PAIR_STATUS_ROLE_A (!st.roleB),
    pins fun p => { p with rcvrLow := st.rcvrLow, roleB := st.roleB },
    ethPath, linkRestart 0, linkRestart 1,
    wrap BOOT_COUNT,
    setF BOOT_STATUS_STAGE 1,
    boot fun b => { b with running := true }]

/-- The effect of RESET_n asserted and released, of PWR_RESET and of the resets defined like it (R510, R536). The level of
the PAIR_ALIVE line is the board's, and stays. -/
def resetIntoRom (row : Nat) (st : Straps) : Act := .read fun s =>
  .seq resetDevice (.seq (setB PAIR_STATUS_ALIVE_LOW (s.bit PAIR_STATUS_ALIVE_LOW)) (startRom s.mode row st))

/-- A reset with the strap balls at the levels they were sampled at last. -/
def resetKeepStraps (row : Nat) : Act := .read fun s =>
  resetIntoRom row ⟨s.u.pins.rcvrLow, s.u.pins.roleB⟩

end Act

end Sys2Proof.Machine
end

