-- ==== Sys2Proof/Machine/Engine.lean ====
section
/-!
DEFINITION. Machine/Engine.lean: the operations the engines issue (R49–R54, R182, R273, R311, R339, R363–R366, R391),
the cipher cores' dispatch (R363), and the completions.
-/

namespace Sys2Proof.Machine

open Sys2Proof Sys2Proof.Reg Sys2Proof.Machine.Act

/-! ### Ciphers -/

/-- The key a name stands for. -/
def keyOf : KeyName → FrameKey
  | .link n => .link n.toNat
  | .e2e n => .e2e n.toNat
  | .join e => .join e.toNat
  | .bcast => .bcast
  | .mesh => .mesh

/-- The end of a copy a side stands for. -/
def endOf : CopySide → CopyEnd
  | .envelope a => .envelope a.toNat
  | .sram a => .sram a.toNat

/-- Work that an AES core does (R363). -/
def OpWork.onCore : OpWork → Bool
  | .seal .. | .openFrame .. | .derive .. | .cmac .. => true
  | _ => false

/-- The counter a seal takes, by its key. -/
def OpWork.sealKey : OpWork → Option FrameKey
  | .seal k _ _ _ => some k
  | _ => none

/-- The AES core an operation occupies. -/
def Op.core (o : Op) : Option Nat := o.fetch.map (·.core)

/-- The cores in the pool that no operation occupies, lowest first (R363, R500, R520). -/
def State.freeAes (s : State) : Option Nat :=
  (List.range s.aesCores).find? fun k => !s.u.pair.aesOut.contains k && !(s.u.accel.ops.any fun o => o.core == some k)

/-- A seal waits while another that uses its counter is in a core (R391). -/
def State.sealWaits (s : State) (o : Op) : Bool :=
  match o.work.sealKey with
  | none => false
  | some k => s.u.accel.ops.any fun q => q.fetch.isSome && (match q.work.sealKey with
    | some j => k.sameCtr j
    | none => false)

/-- The earlier of two operations: by bound beat, then by arrival (R363). -/
def opFirst (a b : Op) : Op := if a.beat < b.beat then a else if b.beat < a.beat then b else if a.id ≤ b.id then a else b

/-- The operation served first of a list. -/
def firstOp : List Op → Option Op
  | [] => none
  | a :: l => match firstOp l with
    | none => some a
    | some b => some (opFirst a b)

/-- The next cipher operation a core takes. -/
def State.nextCipher (s : State) : Option Op :=
  firstOp (s.u.accel.ops.filter fun o => o.work.onCore && o.fetch.isNone && !s.sealWaits o)

namespace Act

/-- CORES_BUSY follows the cores (R408). -/
def coresBusy : Act := .read fun s =>
  setF SEC_STATUS_CORES_BUSY ((List.range 8).foldl
    (fun n k => if s.u.accel.ops.any fun o => o.core == some k then n + 2 ^ k else n) 0)

/-- An operation ends with INVALID_KEY (R376). -/
def opInvalid (o : Op) : Act := .seq (sat SEC_INVALID_KEY) (finish o cplInvalidKey 0 0)

/-- A core takes an operation with the key it fetched. -/
def coreTake (o : Op) (core slot ctr : Nat) (key : List Nat) : Act :=
  .seq (accel fun a => { a with ops := a.ops.map fun q =>
    if q.id = o.id then { q with fetch := some ⟨core, slot, key, ctr⟩ } else q }) coresBusy

/-- A storage upset that a fetch from the slot meets tears it, where the key is not in the cache (R382). -/
def fetchUpset (upset : Bool) (slot : Nat) (label : List Byte) : Act := .read fun s =>
  when (upset && decide ((s.slot slot).state = .valid) && (s.cached slot label).isNone) (tear slot)

/-- A frame key is fetched through the cache for an operation. -/
def frameFetch (o : Op) (core : Nat) (upset : Bool) (k : FrameKey) (down : Bool) (epoch ctr : Nat) : Act := .read fun s =>
  let (slot, label) := s.frameLabel k down epoch
  .seq (fetchUpset upset slot label) (derived slot label (opInvalid o) fun key => coreTake o core slot ctr key)

/-- A core starts an operation (R363, R371, R372, R391). -/
def coreStart (o : Op) (core : Nat) (upset : Bool) : Act := .read fun s =>
  match o.work with
  | .seal k _ _ _ =>
    if k = .mesh then finish o cplError 0 0
    else takeCtr k (finish o cplError 0 (Config.ctrExhausted).toNat) fun c =>
      frameFetch o core upset k true s.epoch c
  | .openFrame k addr len _ =>
    let p := parseMac (s.sramBytes o.pe addr len)
    let epoch := match k with | .e2e _ => p.e2eEpoch | _ => p.epoch
    frameFetch o core upset k false epoch 0
  | .derive slot label =>
    .seq (fetchUpset upset slot label) (derived slot label (opInvalid o) fun _ => coreTake o core slot 0 [])
  | .cmac slot _ _ _ => fetchSlot slot 2 upset (opInvalid o) fun key => coreTake o core slot 0 key
  | _ => .nop

/-- The end of a cipher operation on a core (R387, R388, R391): a failed open zeroes its output. -/
def coreEnd (o : Op) (f : Fetch) : Act := .read fun s =>
  match o.work with
  | .seal k addr len out =>
    let frame := s.sramBytes o.pe addr len
    let done := match k with
      | .e2e _ => e2eSeal f.key s.epoch f.ctr frame
      | _ => linkSeal f.key s.epoch f.ctr frame
    all [wrap SEC_CCM_OPS, storeCtr k f.ctr, sram o.pe out done, finish o cplOk 1 out]
  | .openFrame k addr len out =>
    let frame := s.sramBytes o.pe addr len
    let p := parseMac frame
    let plain := match k with
      | .e2e _ => e2eOpen f.key frame p (frame.drop p.bodyAt)
      | _ => linkOpen f.key frame p
    .seq (wrap SEC_CCM_OPS) (match plain with
      | some b => .seq (sram o.pe out b) (finish o cplOk 1 out)
      | none => all [sat SEC_MIC_FAIL, sram o.pe out (List.replicate len 0), finish o cplError 0 0])
  | .cmac _ addr len out =>
    .seq (sram o.pe out (bytesOfNat (Crypto.cmac f.key (natBytes (s.sramBytes o.pe addr len))))) (finish o cplOk 1 out)
  | _ => finish o cplOk 0 0

/-- Bytes of one end of a copy. -/
def copyRead (s : State) (pe : Nat) (len : Nat) : CopyEnd → List Byte
  | .envelope a => s.bytes a len
  | .sram a => s.sramBytes pe a len

/-- Bytes stored at one end of a copy. -/
def copyWrite (pe : Nat) (bs : List Byte) : CopyEnd → Act
  | .envelope a => regionWrite a bs
  | .sram a => sram pe a bs

end Act

/-- Addresses of a region (R292). -/
def State.inRegion (s : State) (r a : Nat) : Bool :=
  let b := s.fld ⟨ENV_REGr_BASE r, 0, 12⟩ * 2 ^ 20
  Nat.ble b a && Nat.blt a (b + s.fld ⟨ENV_REGr_SIZE r, 0, 13⟩ * 2 ^ 20)

/-- LDPC_REDECODE (R182, R183): a new decode of a codeword whose LLRs are still in the buffer. -/
def execLdpcRedecode (pe : Fin 16) (thread : Fin 4) (frame : BitVec 32) (codeword : Fin 16) (limit : Fin 33)
    (out : BitVec 18) (s : State) : Result :=
  s.act <| .read fun s =>
    match (s.rxFrame frame.toNat).bind fun f => f.cws[codeword.val]? with
    | none => issueNow pe thread 1 fun k => k cplError 0 0
    | some c =>
      if c.llrs.isEmpty then issueNow pe thread 1 fun k => k cplError 0 0
      else issueWith pe thread fun slot => .read fun s =>
        all [rx fun x => { x with reqs :=
            x.reqs ++ [⟨frame.toNat, codeword, s.workBeat, some s.u.accel.next, limit, c.llrs, none⟩] },
          accel fun x => { x with
            ops := x.ops ++ [⟨x.next, pe, thread, slot, 1, s.workBeat, .redecode frame.toNat codeword out.toNat, none⟩]
            next := x.next + 1 },
          poolStat]

/-- CCM_SEAL (R376, R391): a frame of the data SRAM without its MICs and FCS; its counter is taken as it starts. -/
def execCcmSeal (pe : Fin 16) (thread : Fin 4) (key : KeyName) (addr : BitVec 18) (len : Fin 1025) (out : BitVec 18)
    (s : State) : Result :=
  s.act <| issue pe thread 2 (.seal (keyOf key) addr.toNat len out.toNat)

/-- CCM_OPEN (R387). -/
def execCcmOpen (pe : Fin 16) (thread : Fin 4) (key : KeyName) (addr : BitVec 18) (len : Fin 1025) (out : BitVec 18)
    (s : State) : Result :=
  s.act <| issue pe thread 2 (.openFrame (keyOf key) addr.toNat len out.toNat)

/-- KDF_DERIVE (R366, R371): under a slot and a 32-byte label, through the cache, where the key stays. -/
def execKdfDerive (pe : Fin 16) (thread : Fin 4) (slot : Fin 1024) (label : BitVec 256) (s : State) : Result :=
  s.act <| issue pe thread 2 (.derive slot (leBytes 32 label.toNat))

/-- CMAC_COMPUTE (R364): of a buffer, under a slot with MAC (R376). -/
def execCmacCompute (pe : Fin 16) (thread : Fin 4) (slot : Fin 1024) (addr : BitVec 18) (len : BitVec 18)
    (out : BitVec 18) (s : State) : Result :=
  s.act <| issue pe thread 2 (.cmac slot addr.toNat len.toNat out.toNat)

/-- SHA256_BLOCK (R364): one 64-byte block into a chaining state of 32 bytes. -/
def execSha256Block (pe : Fin 16) (thread : Fin 4) (state block out : BitVec 18) (s : State) : Result :=
  s.act <| issue pe thread 2 (.sha state.toNat block.toNat out.toNat)

/-- ECDSA_VERIFY (R364): the public key, the signature and the hash in the data SRAM. -/
def execEcdsaVerify (pe : Fin 16) (thread : Fin 4) (key sig hash : BitVec 18) (s : State) : Result :=
  s.act <| issue pe thread 2 (.ecdsa key.toNat sig.toNat hash.toNat)

/-- ROUTE_WALK (R273). -/
def execRouteWalk (pe : Fin 16) (thread : Fin 4) (final : BitVec 24) (out : BitVec 18) (s : State) : Result :=
  s.act <| issue pe thread 5 (.routeWalk final.toNat out.toNat)

/-- PLACEMENT_REQUEST (R339): the packet of an air queue, by its start. -/
def execPlacementRequest (pe : Fin 16) (thread : Fin 4) (queue : Fin 4096) (start : BitVec 32) (decoder : Fin 80)
    (cls : Fin 4) (length : Fin 1025) (s : State) : Result :=
  s.act <| issue pe thread 6 (.place queue start.toNat decoder cls length)

/-- PLAN_QUERY (R49). -/
def execPlanQuery (pe : Fin 16) (thread : Fin 4) (out : BitVec 18) (s : State) : Result :=
  s.act <| issue pe thread 6 (.planQuery out.toNat)

/-- ENVELOPE_COPY (R49, R311). -/
def execEnvelopeCopy (pe : Fin 16) (thread : Fin 4) (src dst : CopySide) (len : BitVec 19) (s : State) : Result :=
  s.act <| issue pe thread 7 (.copy (endOf src) (endOf dst) len.toNat)

/-- CIPHER_DISPATCH (R363): the next operation goes to the lowest free core, which fetches its key (R380). -/
def execCipherDispatch (upset : Bool) (s : State) : Result :=
  s.act <| .read fun s =>
    match s.nextCipher, s.freeAes with
    | some o, some k => coreStart o k upset
    | _, _ => .nop

/-- OP_COMPLETION (R53): the accelerator of an outstanding operation finishes. `bad` are the Envelope addresses whose
reads met an uncorrectable error (R290). An AES operation must have its core, and a block of SHA-256 or a signature
its turn. A redecode ends with LDPC_DECODE_DONE. -/
def execOpCompletion (pe : Fin 16) (slot : Fin 48) (bad : List (BitVec 32)) (s : State) : Result :=
  s.act <| .read fun s =>
    match s.opAt pe slot with
    | none => .nop
    | some o => when (!(s.shadows && s.u.bt.late.contains (pe.val, slot.val))) <|
      let turn := fun (p : OpWork → Bool) =>
        (firstOp (s.u.accel.ops.filter fun q => p q.work)).map (·.id) == some o.id
      match o.work with
      | .redecode _ _ _ => .nop
      | .sha st blk out => when (turn fun w => match w with | .sha .. => true | _ => false)
          (let h := (List.range 8).map fun i => beValue (s.sramBytes pe (st + 4 * i) 4)
          let r := Crypto.shaBlock h (natBytes (s.sramBytes pe blk 64))
          .seq (sram pe out (r.flatMap (beBytes 4))) (finish o cplOk 1 out))
      | .ecdsa key sig hash => when (turn fun w => match w with | .ecdsa .. => true | _ => false)
          (let n := fun a => beValue (s.sramBytes pe a 32)
          let good := Crypto.ecdsaVerify (n key, n (key + 32)) (n hash) (n sig) (n (sig + 32))
          finish o (if good then cplOk else cplError) 0 (if good then 1 else 0))
      | .routeWalk final out =>
        let w := s.walk final fun r => bad.any fun a => Nat.beq ((a.toNat - s.dirBase) / 256) r && Nat.ble s.dirBase a.toNat
        all [each bad fun a => demandFail a.toNat,
          sram pe out w.bytes,
          walkCounts w,
          finish o (if w.reason = 0 then cplOk else if w.reason = 1 then cplNotFound else cplError) 1 out]
      | .place q start d c l => .seq (placePacket q start d c l) (finish o cplOk 0 0)
      | .planQuery _ => Act.free fun w => finish o cplOk 0 w.toNat
      | .copy src dst len =>
        let spill := bad.all fun a => s.inRegion 1 a.toNat
        .seq (each bad fun a => demandFail a.toNat)
          (if spill then .seq (copyWrite pe (copyRead s pe len src) dst) (finish o cplOk (if bad.isEmpty then 0 else 2) 0)
          else finish o cplError 0 0)
      | _ => match o.fetch with
        | none => .nop
        | some f => .seq (coreEnd o f) coresBusy

/-- COMPLETION_TAKE (R51): the entry of a tag leaves the ring, its tag is free, and a thread that waits for one goes on. -/
def execCompletionTake (pe : Fin 16) (slot : Fin 48) (s : State) : Result :=
  s.act <| .read fun s =>
    when ((s.engine pe).ring.any fun c => c.tag == tagOf pe slot)
      (.seq (engine pe fun e => { e with
        ring := e.ring.filter fun c => !(c.tag == tagOf pe slot)
        slots := e.slots.filter fun k => !(k == slot.val)
        stalled := e.stalled.drop 1 }) (engineStat pe))

end Sys2Proof.Machine
end

