-- ==== Sys2Proof/Machine/EngineOps.lean ====
section
/-!
DEFINITION. Machine/EngineOps.lean: operations that complete LATE (R54, R59), engines that leave and rejoin their roles
(R47, R48), and the health of the unit (R476, R501, R502).
-/

namespace Sys2Proof.Machine

open Sys2Proof Sys2Proof.Reg

/-! ### LATE (R54, R59) -/

namespace Act

/-- An outstanding operation completes LATE: no result, no effect, and it is counted. -/
def opLate (o : Op) : Act :=
  all [rx fun x => { x with reqs := x.reqs.filter fun r => !(r.engine == some o.id) },
    poolStat,
    opZero o,
    finish o cplLate 0 0,
    wrap (BT_PEn_LATE o.pe), wrap BT_LATE_TOTAL,
    recordInput 6]

end Act

/-! ### Roles (R47, R48) -/

/-- The role the image gives engine n (R45). -/
def State.role (s : State) (n : Nat) : Nat := s.fld (BT_ROLE_n n)

/-- An engine that is out of its role: under BIST, or faulted and not yet back. -/
def State.engineOut (s : State) (n : Nat) : Bool := (s.engine n).bist || (s.engine n).restoreIn.isSome

/-- The engines of a role that serve it now, in rising number. -/
def State.roleEngines (s : State) (r : Nat) : List Nat :=
  (List.range 16).filter fun n => s.role n == r && !s.engineOut n && !(s.engine n).gated

/-- The role of the most engines, the lowest code on a tie (R47). -/
def State.widestRole (s : State) : Nat :=
  [1, 2, 3, 4, 5, 6, 7].foldl (fun best r =>
    if (s.roleEngines best).length < (s.roleEngines r).length then r else best) 1

/-- The engine that carries the role of an engine that is out (R47). -/
def State.standIn (s : State) (n : Nat) : Option Nat :=
  match (s.roleEngines 8).head?, (s.roleEngines (s.role n)).head? with
  | some k, _ => some k
  | none, some k => some k
  | none, none => (s.roleEngines s.widestRole).head?

namespace Act

/-- Every role of an engine that is out is carried by another (R47). -/
def rolesFollow : Act :=
  .seq (each (List.range 16) fun n => .read fun s => when (s.engine n).second.isSome
      (engine n fun e => { e with second := none }))
    (each (List.range 16) fun n => .read fun s => when (s.engineOut n && !(s.role n == 0))
      (match s.standIn n with
      | none => .nop
      | some k => engine k fun e => { e with second := some (s.role n) }))

/-- An engine is marked faulted (R48): its operations complete LATE, its tasks end, and it returns at the second boundary.
`cls` is the fault's class in R503. -/
def engineFault (n cls : Nat) : Act := .read fun s =>
  all [each (s.u.accel.ops.filter fun o => o.pe == n) opLate,
    engine n fun e => { e with restoreIn := some 2, bist := false, stalled := [] },
    engineStat n,
    setF (BT_ENG_STATE_n n) engFaulted,
    rolesFollow,
    pair fun p => { p with enginesBad := p.enginesBad ++ [(n, s.u.tk.s)], lastFault := cls },
    raise 12 (leBytes 1 n)]

/-- A faulted engine returns to its role (R48, R63). -/
def engineBack (n : Nat) : Act := .read fun s =>
  all [engine n fun e => { e with restoreIn := none, ovrRun := 0 },
    setF (BT_ENG_STATE_n n) (if (s.engine n).gated || s.role n == 0 then engOff else engServing),
    rolesFollow,
    raise 13 (leBytes 1 n)]

end Act

/-! ### The health score (R501) -/

/-- A fault of a row counts for 60 s. -/
def State.recent (s : State) (row : Nat) : Nat :=
  (s.u.pair.faults.filter fun f => f.1 == row && Nat.ble s.u.tk.s (f.2 + 60)).length

/-- The penalty of each row of R501, in row order. -/
def State.penalties (s : State) : List Nat :=
  let p := s.u.pair
  let chains := [Chain.ts0, .ts1, .tw0, .tw1]
  [64 * ([EthPort.p0, .p1].filter fun q => !(s.fld (ETH_Pp_CFG_MODE q.idx) == 0) && !s.bit (ETH_STATUS_Pp_UP q)).length,
    48 * ([RfPort.s, .w].filter fun q => s.bit (RFx_SLICE_EN q) && !s.bit (RFx_STATUS_RX_LOCKED q)).length,
    16 * (chains.filter fun c => s.txState c == stFault).length,
    32 * ((List.range 16).filter fun n => (s.engine n).restoreIn.isSome ||
      p.enginesBad.any fun e => e.1 == n && Nat.ble s.u.tk.s (e.2 + 60)).length,
    16 * (p.ldpcOut.length + p.aesOut.length),
    min 64 (8 * s.recent 6),
    if s.recent 7 = 0 then 0 else 32,
    if s.recent 8 = 0 then 0 else 32,
    if s.fld TK_STATUS_STATE = tkFault then 16 else 0,
    if p.warm then 16 else 0,
    if s.recent 11 = 0 then 0 else 16]

/-- The score of the conditions as they stand. -/
def State.scoreNow (s : State) : Nat := if s.mode = .hold then 0 else 255 - s.penalties.sum

/-- The health record but for its CRC (R502); `mv` is VDD_ENG as the monitor reads it. -/
def State.healthBytes (s : State) (mv : Nat) : List Byte :=
  let p := s.u.pair
  let bits := s.penalties.zipIdx.foldl (fun n x => if x.1 = 0 then n else n + 2 ^ x.2) 0
  let cnt := fun (a : Nat) => (s.reg a).toNat
  let (beat, score) := match p.tether with
    | none => (0, 0)
    | some t => (t.beat.toNat, t.score.toNat)
  leBytes 1 1 ++ leBytes 1 s.mode.code ++ leBytes 1 s.pstate ++ leBytes 1 s.score ++ leBytes 4 s.u.bt.beat ++
  leBytes 4 bits ++ leBytes 2 (BitVec.ofInt 16 p.temp).toNat ++ leBytes 2 mv ++ leBytes 4 (cnt PAIR_BIST_RUNS) ++
  leBytes 2 (cnt PAIR_SELFTEST_FAIL) ++ leBytes 2 (s.recent 6) ++ leBytes 4 p.divergences ++ leBytes 4 p.lastDiv ++
  leBytes 4 p.upSeconds ++ leBytes 2 (cnt PAIR_TAKEOVERS) ++ leBytes 2 (cnt PAIR_RECLAIMS) ++ leBytes 4 beat ++
  leBytes 1 score ++ leBytes 1 p.lastFault ++ List.replicate 14 0

namespace Act

/-- The score is evaluated (R476, R501): PAIR_SCORE, HEALTH_OK, and HEALTH_SCORE at a crossing of OK_MIN. -/
def healthScore : Act := .read fun s =>
  let ok := s.fld PAIR_HEALTH_CFG_OK_MIN
  let new := s.scoreNow
  all [setF ⟨PAIR_SCORE, 0, 8⟩ new,
    pair fun p => { p with
      faults := p.faults.filter fun f => Nat.ble s.u.tk.s (f.2 + 60)
      enginesBad := p.enginesBad.filter fun e => Nat.ble s.u.tk.s (e.2 + 60) },
    healthPin,
    when (Nat.ble ok s.score != Nat.ble ok new) (raise 108 (leBytes 1 new))]

/-- The health record is written at PAIR_HEALTH_ADDR (R502). -/
def healthRecord : Act := free fun mv => .read fun s =>
  let b := s.healthBytes mv.toNat
  when (!(s.reg PAIR_HEALTH_ADDR == 0)) (memBytes (s.reg PAIR_HEALTH_ADDR).toNat (b ++ leBytes 4 (crc32 b).toNat))

/-- One run of a self-test (R500): counted, and a failure raised with the row of the test. -/
def selfTestRun (row : Nat) (pass : Bool) (bad : Act) : Act :=
  .seq (wrap PAIR_BIST_RUNS) (when (!pass)
    (all [sat PAIR_SELFTEST_FAIL, pair fun p => { p with lastFault := 8 }, raise 109 (leBytes 1 row), bad]))

end Act

end Sys2Proof.Machine
end

