-- ==== Sys2Proof/Machine/Ether.lean ====
section
/-!
DEFINITION. Machine/Ether.lean: the commands of the backhaul ports and the chain bridge (R445–R467). Frames are bytes
from DA to FCS; `edges` counts TIME clock edges as in Machine/Time.lean.
-/

namespace Sys2Proof.Machine

open Sys2Proof Sys2Proof.Reg Sys2Proof.Machine.Act

/-- The transmitters are on (R453). -/
def Mode.portsOn (m : Mode) : Bool := m.runs || m.bridgeDefaults

/-- The line mode a port follows: 0 off, 1 1000BASE-X, 2 10GBASE-R, 3 auto-detect. -/
def State.lineMode (s : State) (p : Nat) : Nat := if s.mode.bridgeDefaults then 3 else s.fld (ETH_Pp_CFG_MODE p)

/-- ETH_AUTODETECT_SWITCH (R446): 50 ms without lock. -/
def execEthAutodetectSwitch (port : EthPort) (s : State) : Result :=
  s.act <| when (s.mode.portsOn && s.lineMode port.idx == 3 && !s.bit (ETH_STATUS_Pp_UP port))
    (ethUnit port.idx fun u => { u with trying := if u.trying = 2 then 1 else 2 })

/-- ETH_LINK_UP (R447): lock, and auto-negotiation where it runs, has held for 10 ms; `rxPause` is what the partner's
abilities resolve to (R462). -/
def execEthLinkUp (port : EthPort) (ten rxPause : Bool) (s : State) : Result :=
  s.act <|
    let p := port.idx
    let m := if ten then 2 else 1
    let an := !ten && (s.mode.bridgeDefaults || s.bit (ETH_Pp_CFG_AN_EN p))
    when (s.mode.portsOn && !s.bit (ETH_STATUS_Pp_UP port) && (s.lineMode p == 3 || s.lineMode p == m))
      (all [setB (ETH_STATUS_Pp_UP port) true, setF (ETH_STATUS_Pp_MODE port) m,
        ethUnit p fun u => { u with trying := 0, rxPause := if an then rxPause else true },
        raise 88 (leBytes 1 p ++ leBytes 1 m), pauseEval p])

/-- ETH_LINK_DOWN (R447). -/
def execEthLinkDown (port : EthPort) (s : State) : Result := s.act <| linkRestart port.idx

/-! ### Reception (R448, R449) -/

/-- A received PAUSE frame (R462). -/
def Act.pauseReceived (p : Nat) (f : List Byte) : Act := .read fun s =>
  let en := (s.mode.bridgeDefaults || s.bit (ETH_Pp_PAUSE_RX_EN p)) && (s.u.eth.port p).rxPause
  .seq (wrap (ETH_Pp_PAUSE_RX p)) (when (beAt f 14 2 == 1 && en)
    (.seq (setB (ETH_STATUS_Pp_PAUSED (EthPort.ofIdx p)) (!(beAt f 16 2 == 0))) (raiseOnce 91 p (leBytes 1 p))))

/-- A PLE message enters its port's ingress queue, its headend's address learned (R449 step 5). -/
def Act.pleApply (p q mac vid h beat : Nat) (m : List Byte) : Act :=
  .seq (netLearn p mac vid h beat) (enqPacket q ⟨false, beat, fun n => n, 0, some h, none⟩ m fun _ => .nop)

/-- A PLE message enters a port's ingress queue (R268, R449). A unit that hands control over forwards it to its partner,
and one that does not serve binds none (R39, R493). -/
def Act.pleIngress (p q mac vid h beat : Nat) (m : List Byte) : Act := .read fun s =>
  if s.pstate == 8 then linkSend (.input 3)
  else .seq (recordInput 3) (pleApply p q mac vid h beat m)

/-- A frame addressed to the device (R449 step 5): IPv6 packet `ip6` from source MAC `sa`. -/
def Act.localFrame (p : Nat) (f : List Byte) (vid : Nat) (ip6 : List Byte) : Act := .read fun s =>
  let sa := (f.drop 6).take 6
  let src := (ip6.drop 8).take 16
  let next := beAt ip6 6 1
  let l4 := (ip6.drop 40).take (beAt ip6 4 2)
  let lost := sat (ETH_Pp_LOCAL_DROP p)
  if next = 17 ∧ beAt l4 2 2 = s.fld FWD_ENCAP_UDP_PORT ∧ (ip6.drop 24).take 16 = s.ip then
    match s.headendFrom src (beAt l4 0 2), s.ingressQueue p with
    | some h, some q =>
      let m := (l4.drop 8).take (beAt l4 4 2 - 8)
      pleIngress p q (beAt f 6 6) vid h s.bindBeat m
    | none, _ => sat FWD_DL_BAD
    | _, none => lost
  else if next = 58 ∧ beAt l4 0 1 = 135 ∧ (l4.drop 8).take 16 = s.ip then
    if src.all fun b => b == 0 then
      ethUnit p fun u => { u with own := u.own ++ [s.advertise p allNodesMac allNodesIp false] }
    else ethUnit p fun u => { u with own := u.own ++ [s.advertise p sa src true] }
  else if next = 58 ∧ beAt l4 0 1 = 128 ∧ (s.u.eth.port p).echoes < 10 then
    ethUnit p fun u => { u with
      echoes := u.echoes + 1
      own := u.own ++ [sa ++ ipv6 0 58 (s.fld FWD_ENCAP_HOP_LIMIT) s.ip src (icmp6 s.ip src 129 (l4.drop 4))] }
  else lost

/-- A frame on its way to the other port (R453, R456). -/
def Act.bridgeOut (p : Nat) (f : List Byte) (stamp : Option Nat) : Act := .read fun s =>
  let o := 1 - p
  let tag := tagOfFrame (s.tpid88 p) f
  if decide (s.mode = .solo) || decide (s.mode = .doze) then
    let c := match tag with
      | none => s.fld (ETH_Pp_PCPMAP_DEF_CLASS p)
      | some t => s.fld (ETH_Pp_PCPMAP_CLASS p (t / 8192))
    let pre := match tag with
      | none => 0
      | some t => t / 4096 % 2
    uplinkOffer o c s.bindBeat none stamp pre f fun _ => .nop
  else if 65536 < s.ptBytes p + f.length then ptDrop o 1
  else .seq (ethUnit o fun u => { u with fifo := u.fifo ++ [⟨f, stamp⟩] }) (pauseEval p)

/-- The bridge's handling of a frame (R454). -/
def Act.bridge (p : Nat) (f : List Byte) (vid : Nat) (stamp : Option Nat) : Act := .read fun s =>
  let en := s.mode.bridgeDefaults || s.bit ETH_BRIDGE_EN
  let learn := s.mode.bridgeDefaults || s.bit ETH_BRIDGE_LEARN_EN
  let group := beAt f 0 1 % 2 == 1
  let here := match s.brLookup (beAt f 0 6) vid with
    | none => false
    | some e => e.port == p
  .seq (when (beAt f 6 1 % 2 == 0 && learn) (brLearn p (beAt f 6 6) vid))
    (if !en || (!group && here) then wrap (ETH_Pp_BR_FILTER p) else bridgeOut p f stamp)

/-- Steps 1 to 6 of R449 for a frame without its FCS. -/
def Act.frameIn (p phase : Nat) (f : List Byte) : Act := .read fun s =>
  let da := beAt f 0 6
  let tag := tagOfFrame (s.tpid88 p) f
  let vid := vidOf (s.pvid p) tag
  let o := typeOff (s.tpid88 p) f
  let ip6 := f.drop (o + 2)
  let group := f.take 6 == s.groupMac
  let dst := (ip6.drop 24).take 16
  let mine := s.mode.sendsUplink && beAt f o 2 == 0x86DD && (f.take 6 == s.portMac p || group) &&
    (dst == s.ip || (group && dst == s.groupIp))
  let rx := s.fld (TK_ETHp_DELAY_RX_DELAY p)
  let stamp := if s.corrects p f then some (s.u.tk.residenceNs + phase - rx) else none
  let tns := s.u.tk.ns + phase - rx
  if da = 0x0180C2000001 ∧ beAt f 12 2 = 0x8808 then pauseReceived p f
  else if 0x0180C2000000 ≤ da ∧ da ≤ 0x0180C200000F then wrap (ETH_Pp_RX_RSVD p)
  else if !s.vlanAdmits p tag then sat (ETH_Pp_VLAN_DROP p)
  else all [when (ptpEvent (s.tpid88 p) f)
      (ethUnit p fun u => { u with ptpIn := some (tns / 1000000000, tns % 1000000000) }),
    when mine (localFrame p f (match tag with | none => 0 | some t => t % 4096) ip6),
    when (!mine || group) (bridge p f vid stamp)]

/-- ETH_FRAME_RECEIVED (R448, R449): `bytes` from DA to FCS, `code` a PCS code error in it; `phase` as for TSI edges. -/
def execEthFrameReceived (port : EthPort) (edges : BitVec 40) (phase : Fin 4) (code : Bool) (bytes : List Byte)
    (s : State) : Result :=
  s.act <| when (s.mode.portsOn && Nat.blt s.u.pwr.driftEntry 2 && s.bit (ETH_STATUS_Pp_UP port))
    (.seq (timePasses edges.toNat) (.read fun s =>
      let p := port.idx
      let n := bytes.length
      let f := bytes.take (n - 4)
      let max := if s.mode.bridgeDefaults then 1536 else s.fld (ETH_Pp_CFG_MAX_LEN p)
      let now := if s.bit BT_STATUS_RUNNING then s.u.bt.beat else s.u.tk.ms
      let old := (s.u.eth.port p).errors
      let count := if old.2 = now then old.1 + 1 else 1
      if n < 64 || max < n || code || !(bytes.drop (n - 4) == fcsOf f) then
        all [sat (ETH_Pp_RX_ERR p), ethUnit p fun u => { u with errors := (count, now) },
          when (Nat.blt 16 count) (raiseOnce 95 p (leBytes 1 p))]
      else .seq (wrap (ETH_Pp_RX_FRAMES p)) (frameIn p phase.val f)))

/-- ETH_PAUSE_EXPIRY (R462). -/
def execEthPauseExpiry (port : EthPort) (s : State) : Result := s.act <| setB (ETH_STATUS_Pp_PAUSED port) false

/-! ### Transmission (R457, R458) -/

/-- A frame of a residence-stamped PTP message as it leaves (R431, R433). -/
def Act.correctOut (p : Nat) (f : List Byte) (stamp : Option Nat) (now : Nat) (k : List Byte → Act) : Act := .read fun s =>
  match stamp with
  | none => k f
  | some t =>
    let (g, sat_) := corrected (s.tpid88 (1 - p)) f ((now : Int) + s.fld (TK_ETHp_DELAY_TX_DELAY p) - t)
    all [wrap TK_TC_FRAMES, when sat_ (sat TK_TC_SAT), k g]

/-- A frame starts on the wire. -/
def Act.ethSend (p : Nat) (what : EthTx) (f : List Byte) : Act :=
  let g := fill60 f
  ethUnit p fun u => { u with sending := some what, wire := g ++ fcsOf g, badFcs := false }

/-- The class of an uplink class queue of a port. -/
def State.classOf (s : State) (p q : Nat) : Nat := ((List.range 8).find? fun c => s.classQueue p c == some q).getD 0

/-- A selected packet starts, or is passed over where a word of it is poisoned (R312). -/
def Act.packetOut (p q start n now : Nat) : Act := .read fun s =>
  let c := s.classOf p q
  match (s.queue q).packetAt start with
  | none => ethUnit p fun u => { u with chosen := none }
  | some k =>
    let ws := (s.queue q).packetWords k
    let f := wordBytes ws
    let out := fun (g : List Byte) => .seq (ethUnit p fun u => { u with chosen := none }) (ethSend p (.packet q start n) g)
    if ws.any fun w => w.poison then
      all [ethUnit p fun u => { u with chosen := none }, poisonCounts q 1, forgetPacket p c start, releasePacket q start]
    else match k.headend with
      | some h => .seq (when s.rtagged (wrap ETH_RTAG_SENT)) (out (s.pleFrame p c h n (k.colour == 1) f))
      | none => correctOut p f k.stamp now fun g =>
          out (withDei (s.tpid88 (1 - p) || s.tpid88 p) (k.colour == 1) (s.egressTag p (1 - p) g))

/-- ETH_TX_START (R457): a PAUSE frame first (R463), then the device's own answers, then selections and pass-through
frames in turn. -/
def execEthTxStart (port : EthPort) (edges : BitVec 40) (phase : Fin 4) (s : State) : Result :=
  s.act <|
    let p := port.idx
    when (s.mode.portsOn && s.bit (ETH_STATUS_Pp_UP port) && (s.u.eth.port p).sending.isNone &&
        !s.bit (ETH_STATUS_Pp_PAUSED port))
      (.seq (timePasses edges.toNat) (.read fun s =>
        let u := s.u.eth.port p
        let now := s.u.tk.residenceNs + phase.val
        let mine := s.mode.sendsUplink
        match u.pauseNext, (if mine then u.own.head? else none), (if mine then u.chosen else none), u.fifo.head? with
        | some q, _, _, _ => .seq (ethUnit p fun u => { u with pauseNext := none })
            (ethSend p (.pause q) (pauseFrame (s.portMac p) q))
        | none, some b, _, _ =>
          let untag := s.bit (ETH_Pp_VLAN_UNTAG p)
          .seq (ethUnit p fun u => { u with own := u.own.drop 1 }) (free fun w =>
            let tag := if untag then [] else s.vlanTag p (w.toNat % 8) false (s.fld (ETH_Pp_VLAN_PVID p))
            ethSend p (.own b) (b.take 6 ++ s.portMac p ++ tag ++ [0x86, 0xDD] ++ b.drop 6))
        | none, none, some (q, start, n), none => packetOut p q start n now
        | none, none, some (q, start, n), some g =>
          if u.lastPt then .seq (ethUnit p fun u => { u with lastPt := false }) (packetOut p q start n now)
          else .seq (ethUnit p fun u => { u with lastPt := true })
            (correctOut p g.bytes g.stamp now fun f => ethSend p (.through g) (s.egressTag p (1 - p) f))
        | none, none, none, some g =>
          correctOut p g.bytes g.stamp now fun f => ethSend p (.through g) (s.egressTag p (1 - p) f)
        | none, none, none, none => .nop))

/-- ETH_TX_DONE (R457): the frame has left; `upset` is a parity failure met on its way (R312). -/
def execEthTxDone (port : EthPort) (upset : Bool) (s : State) : Result :=
  s.act <|
    let p := port.idx
    match (s.u.eth.port p).sending with
    | none => .nop
    | some w => all [ethUnit p fun u => { u with sending := none }, wrap (ETH_Pp_TX_FRAMES p),
        match w with
        | .pause _ => wrap (ETH_Pp_PAUSE_TX p)
        | .own _ => .nop
        | .through _ => all [wrap (ETH_Pp_BR_FWD p), ethUnit p fun u => { u with fifo := u.fifo.drop 1 }, pauseEval (1 - p)]
        | .packet q start _ => all [
            when (((s.queue q).packetAt start).any fun k => k.headend.isNone) (wrap (ETH_Pp_BR_FWD p)),
            when upset (all [sat Reg.ENV_PARITY, raise 57 (leBytes 2 q), faultClass 13, poisonCounts q 1, ethUnit p fun u =>
              let n := u.wire.length - 4
              { u with wire := u.wire.take n ++ ((u.wire.drop n).map fun b => ~~~b), badFcs := true }]),
            forgetPacket p (s.classOf p q) start,
            releasePacket q start]]

/-- PAUSE_REFRESH (R463): REFRESH has passed while the condition holds. -/
def execPauseRefresh (port : EthPort) (s : State) : Result :=
  s.act <| when (s.bit (ETH_STATUS_Pp_PAUSING port) && (s.u.eth.port port.idx).pauseNext.isNone)
    (ethUnit port.idx fun u => { u with pauseNext := some (s.fld (ETH_Pp_PAUSE_QUANTA port.idx)) })

/-- NA_ANNOUNCE (R449): one of the three unsolicited advertisements. -/
def execNaAnnounce (port : EthPort) (s : State) : Result :=
  s.act <|
    let p := port.idx
    when (s.mode.sendsUplink && s.bit (ETH_STATUS_Pp_UP port) && Nat.blt 0 (s.u.eth.port p).naLeft)
      (ethUnit p fun u => { u with
        naLeft := u.naLeft - 1
        own := u.own ++ [s.advertise p allNodesMac allNodesIp false] })

/-! ### The bridge's upkeep (R454, R467) -/

/-- BRIDGE_AGE_TICK (R454): once a second. -/
def execBridgeAgeTick (s : State) : Result :=
  s.act <|
    let age := if s.mode.bridgeDefaults then 300 else s.fld ETH_BRIDGE_AGE_S
    when s.mode.portsOn (brFlush fun e => Nat.ble (e.seen + age) s.u.tk.s)

/-- ETH_BR_FLUSH (R467). -/
def execEthBrFlush (iface : HostIface) (value : BitVec 32) (s : State) : Result :=
  s.act <| permitted iface ETH_BR_CMD (brCmdWrite value)

/-- ETH_BR_FLUSH_DONE (R467). -/
def execEthBrFlushDone (s : State) : Result :=
  s.act <|
    match s.u.eth.flush with
    | none => .nop
    | some k => all [brFlush fun e => k == 0 || e.port + 1 == k, setB ETH_BR_STAT_BUSY false,
        eth fun x => { x with flush := none }]

/-- ETH_PORT_CFG_WRITE (R467). -/
def execEthPortCfgWrite (iface : HostIface) (port : EthPort) (value : BitVec 32) (s : State) : Result :=
  s.act <| permitted iface (ETH_Pp_CFG port.idx) (ethCfgWrite port.idx value)

end Sys2Proof.Machine
end

