-- ==== Sys2Proof/Machine/Hostcmd.lean ====
section
/-!
DEFINITION. Machine/Hostcmd.lean: the command ring, the journal and the completion ring of region 3 (R611–R624): taking
a command with its checks (R615, R616), its journal entry, and its completion.
-/

namespace Sys2Proof.Machine

open Sys2Proof Sys2Proof.Reg

/-- A command's result: a value of 8 bytes, or the bytes of a result block (R613). -/
inductive CmdResult where
  | val (v : Nat)
  | block (bytes : List Byte)
  deriving DecidableEq, Repr

/-! ### Generic statuses (R619) -/

def stOk : Nat := 0
def stAccepted : Nat := 1
def stLate : Nat := 2
def stBadOp : Nat := 3
def stBadArgs : Nat := 4
def stNotPermitted : Nat := 5
def stMode : Nat := 6
def stNotActive : Nat := 7
def stBusy : Nat := 8

/-- A group status (R619): the opcode's group and the status's number; number 0 stays the generic OK. -/
def groupStatus (opcode n : Nat) : Nat := if n = 0 then stOk else opcode / 256 * 256 + n

/-! ### The opcode table (R620) -/

/-- What R616 checks of an opcode: its host function group, the fewest argument bytes of its fixed layout, and whether
it changes shadowed state (R483). -/
structure OpInfo where
  group : Nat
  minArgs : Nat
  changes : Bool
  deriving DecidableEq, Repr

/-- The opcodes of R620. The argument widths of groups 0x03 and 0x04 are not stated, so their minimum is 0 (log 20). -/
def opInfo (op : Nat) : Option OpInfo :=
  if op = 0x0001 then some ⟨3, 0, false⟩
  else if op = 0x0101 ∨ op = 0x0106 ∨ op = 0x0108 then some ⟨5, 20, false⟩
  else if 0x0101 ≤ op ∧ op ≤ 0x0108 then some ⟨5, 20, true⟩
  else if op = 0x0202 then some ⟨5, 20, true⟩
  else if op = 0x0204 then some ⟨5, 2, true⟩
  else if 0x0301 ≤ op ∧ op ≤ 0x0308 then some ⟨7, 0, true⟩
  else if op = 0x0415 then some ⟨8, 0, false⟩
  else if (0x0401 ≤ op ∧ op ≤ 0x0404) ∨ (0x0410 ≤ op ∧ op ≤ 0x0416) then some ⟨8, 0, true⟩
  else if op = 0x0501 then some ⟨9, 48, true⟩
  else if op = 0x0502 then some ⟨9, 40, true⟩
  else if op = 0x0503 then some ⟨9, 6, true⟩
  else if op = 0x0504 then some ⟨9, 2, true⟩
  else if op = 0x0601 then some ⟨6, 8, true⟩
  else if op = 0x0602 then some ⟨6, 3, true⟩
  else if op = 0x0603 then some ⟨6, 1, true⟩
  else if op = 0x0701 then some ⟨10, 6, true⟩
  else if op = 0x0801 then some ⟨1, 0, false⟩
  else if 0x0901 ≤ op ∧ op ≤ 0x0905 then some ⟨16, 4, false⟩
  else none

/-- Whether the unit serves in the sense of R483: no pair, or pair state ALONE, LEAD or INCOMING. -/
def State.unitServes (s : State) : Bool :=
  !s.bit GEN_MODE_PAIR_CFG || s.fld PAIR_STATUS_PSTATE == 0 || s.fld PAIR_STATUS_PSTATE == 1 ||
  s.fld PAIR_STATUS_PSTATE == 2 || s.fld PAIR_STATUS_PSTATE == 7

/-- The first failing check of R616, in its order; none where the command passes. -/
def State.cmdRefusal (s : State) (op argLen : Nat) : Option Nat :=
  match opInfo op with
  | none => some stBadOp
  | some o =>
    if 56 < argLen ∨ argLen < o.minArgs then some stBadArgs
    else if !s.allows o.group then some stNotPermitted
    else if (decide (s.mode = .recovery)) != Nat.beq o.group 16 then some stMode
    else if o.changes && !s.unitServes then some stNotActive
    else none

/-! ### The rings in the Envelope -/

/-- Address of command ring entry i (R611, R612). -/
def State.cmdEntry (s : State) (i : Nat) : Nat := (s.reg HIF_CMD_BASE).toNat + 64 * (i % 4096)

/-- Entries doorbelled and not yet taken. -/
def State.cmdWaiting (s : State) : Nat := (s.u.hif.doorbell + 4096 - s.fld ⟨HIF_CMD_HEAD, 0, 12⟩) % 4096

/-- Completion entries in use: written and not consumed. -/
def State.cplUsed (s : State) : Nat :=
  (s.fld ⟨HIF_CPL_PROD, 0, 12⟩ + 4096 - s.fld HIF_CPL_CONS_CONS) % 4096

/-- A journal entry's 64 bytes (R623). -/
def journalBytes (seq op status beat : Nat) (args : List Byte) (id : Nat) (src : HostIface) (final : Bool)
    (index : Nat) : List Byte :=
  let body := leBytes 4 seq ++ leBytes 2 op ++ leBytes 2 status ++ leBytes 4 beat ++
    leBytes 8 (crc64 args).toNat ++ padTo 32 args ++ leBytes 4 id ++ leBytes 1 src.code ++
    leBytes 1 (if final then 1 else 0) ++ leBytes 2 index
  body ++ leBytes 4 (crc32 body).toNat

namespace Act

/-- Write journal entry `c.seq` (R623). -/
def journal (c : HostCmd) (status : Nat) (final : Bool) : Act := .read fun s =>
  .seq (logUpdate ([0x14] ++ leBytes 4 c.seq ++ leBytes 2 c.opcode ++ leBytes 2 status)) <| memBytes ((s.reg HIF_JRN_BASE).toNat + 64 * (c.seq % 65536))
    (journalBytes c.seq c.opcode status (c.beat % 2 ^ 32) c.args c.id c.iface final c.index)

/-- The ring flags of HIF_STATUS follow the rings (R634). -/
def ringStatus : Act := .read fun s =>
  let tail := s.fld HIF_CMD_TAIL_TAIL
  all [setB HIF_STATUS_CMD_FULL (Nat.beq ((tail + 1) % 4096) (s.fld ⟨HIF_CMD_HEAD, 0, 12⟩)),
    setB HIF_STATUS_CPL_FULL (Nat.beq s.cplUsed 4095)]

/-- Write one completion entry (R613): the result block where there is one, PHASE flipping on each pass. -/
def completionEntry (c : HostCmd) (status : Nat) (res : CmdResult) : Act := .read fun s =>
  let p := s.fld ⟨HIF_CPL_PROD, 0, 12⟩
  let phase := if s.u.hif.cplPhase then 1 else 0
  let (flags, v, blk) := match res with
    | .val v => (phase, v, [])
    | .block b => (phase + 2, 0, b)
  all [memBytes ((s.reg HIF_CMD_BASE).toNat + 0x60000 + 64 * p) blk,
    memBytes ((s.reg HIF_CPL_BASE).toNat + 32 * p)
      (leBytes 4 c.id ++ leBytes 4 c.seq ++ leBytes 2 c.opcode ++ leBytes 2 status ++ leBytes 2 c.index ++
        leBytes 1 flags ++ [0] ++ leBytes 8 v ++ leBytes 4 (s.workBeat % 2 ^ 32) ++ leBytes 4 0),
    setF ⟨HIF_CPL_PROD, 0, 12⟩ (p + 1),
    hif fun h => { h with cplPhase := if p = 4095 then !h.cplPhase else h.cplPhase },
    if s.bit BT_STATUS_RUNNING then hif fun h => { h with done := h.done + 1 } else raiseOnce 122 0 (leBytes 4 1),
    setF ⟨HIF_CPL_PROD, 12, 1⟩ (if p = 4095 then 1 - phase else phase),
    ringStatus]

/-- A taken command completes: its journal entry becomes final, then its completion is written (R623). -/
def complete (c : HostCmd) (status : Nat) (res : CmdResult) : Act :=
  all [when (Nat.blt 0 c.seq) (journal c status true),
    .read fun s => when (!c.mirrored || Nat.blt s.cplUsed 4095) (completionEntry c status res),
    when (Nat.beq status stLate) (sat HIF_CMD_LATE),
    hif fun h => { h with cmds := h.cmds.filter fun d => !(d.index == c.index && d.seq == c.seq) }]

/-- A command enters the journal before it acts (R21, R623). -/
def journalNew (c : HostCmd) : Act := .read fun s =>
  let seq := s.u.hif.journalNext
  let c' := { c with seq := seq }
  all [recordInput 4, journal c' 0xFFFF false,
    hif fun h => { h with
      journalNext := seq + 1
      journalOldest := max h.journalOldest (seq + 1 - 65536)
      cmds := h.cmds ++ [c'] },
    when (Nat.beq ((seq + 1) % 32768) 0) (raise 123 (leBytes 4 (seq + 1)))]

/-- Take the entry at HEAD (R615, R616): a refused one completes with SEQUENCE 0, one that passes is journaled. -/
def takeOne : Act := .read fun s =>
  let i := s.fld ⟨HIF_CMD_HEAD, 0, 12⟩
  let a := s.cmdEntry i
  let op := s.le a 2
  let argLen := s.le (a + 2) 1
  let c : HostCmd := ⟨0, op, s.le (a + 4) 4, i, s.workBeat, s.bytes (a + 8) (min argLen 56), s.u.hif.bell, false⟩
  all [setF ⟨HIF_CMD_HEAD, 0, 12⟩ (i + 1),
    wrap HIF_CMD_TAKEN,
    match s.cmdRefusal op argLen with
    | some st => all [sat HIF_CMD_REFUSED,
        if s.bit BT_STATUS_RUNNING then hif fun h => { h with refused := h.refused + 1 } else raiseOnce 121 0 (leBytes 4 1),
        completionEntry c st (.val 0)]
    | none => journalNew c,
    ringStatus]

/-- Take up to n entries, while the completion ring has a free entry for each command taken and not completed. -/
def takeUpTo : Nat → Act
  | 0 => .nop
  | n + 1 => .read fun s =>
    when (Nat.blt 0 s.cmdWaiting && Nat.blt (s.cplUsed + s.u.hif.cmds.length) 4095)
      (.seq takeOne (takeUpTo n))

/-- COMMAND_TAKE (R615), in the plan window of each beat in which the ring is served. -/
def takeCommands : Act := .read fun s =>
  when (s.bit HIF_STATUS_RING_RUN && Nat.blt s.u.pwr.driftEntry 2) (takeUpTo (max 1 (s.fld HIF_CFG_CMD_PER_BEAT)))

end Act

/-! ### The command at a ring index -/

/-- The taken, uncompleted command of a ring index with one of the given opcodes. -/
def State.cmdAt (s : State) (i : Nat) (ok : Nat → Bool) : Option HostCmd :=
  s.u.hif.cmds.find? fun c => c.index == i && ok c.opcode

/-- Argument field of a command: `n` bytes at offset `at`, little-endian. -/
def HostCmd.arg (c : HostCmd) (off n : Nat) : Nat := leValue ((c.args.drop off).take n)

namespace Act

/-- Carry out the taken command of ring index i; nothing happens where none waits there with such an opcode. -/
def hostCmd (i : Nat) (ok : Nat → Bool) (k : HostCmd → Act) : Act := .read fun s =>
  match s.cmdAt i ok with
  | none => .nop
  | some c => k c

/-- Carry out and complete at once, the status and result read from the machine as it stands. -/
def hostCmdDo (i : Nat) (ok : Nat → Bool) (k : HostCmd → State → Act × Nat × CmdResult) : Act :=
  hostCmd i ok fun c => .read fun s =>
    let (a, st, r) := k c s
    .seq a (complete c st r)

end Act

end Sys2Proof.Machine
end

