-- ==== Sys2Proof/Machine/FuseOps.lean ====
section
/-!
DEFINITION. Machine/FuseOps.lean: the fuse array (R399–R404) and the two-phase slot write (R379, R380).
-/

namespace Sys2Proof.Machine

open Sys2Proof Sys2Proof.Reg

/-! ### Fuses -/

/-- The bytes of a span of fuse rows, in row order, each row least significant byte first (R402). -/
def State.fuseBytes (s : State) (row n : Nat) : List Nat :=
  (List.range n).flatMap fun i => natBytes (leBytes 4 (s.fuseRow (row + i)).toNat)

/-- A boot public-key hash passes its CRC-16 (R399). -/
def State.hashOk (s : State) (k : Nat) : Bool :=
  Crypto.crc16 (s.fuseBytes (2 + 8 * k) 8) == fieldOf (s.fuseRow 19) (16 * k) 16

/-- DEVICE_SEED passes its CRC-16 (R399). -/
def State.seedOk (s : State) : Bool := Crypto.crc16 (s.fuseBytes 20 8) == fieldOf (s.fuseRow 28) 0 16

/-- LAST codes (R412). -/
def fuseOk : Nat := 1
def fuseVerifyFail : Nat := 2
def fuseNotPermitted : Nat := 3
def fuseProtected : Nat := 4
def fuseBadState : Nat := 5

/-- Rows that can be programmed in a lifecycle state (R404); of row 0 only bits [17:16]. -/
def fuseAllowed (l row : Nat) (bits : Word) : Bool :=
  if row = 0 then Nat.blt l 2 && bits.toNat % 2 ^ 16 == 0 && bits.toNat / 2 ^ 18 == 0
  else if (2 ≤ row ∧ row ≤ 17) ∨ row = 19 ∨ (20 ≤ row ∧ row ≤ 28) then l == 0
  else if row = 18 then Nat.blt l 3
  else if 29 ≤ row ∧ row ≤ 36 then Nat.blt l 2
  else if (37 ≤ row ∧ row ≤ 44) ∨ (64 ≤ row ∧ row ≤ 127) then Nat.blt l 3
  else false

namespace Act

/-- FUSE_STATUS follows the array (R412). -/
def fuseStatus : Act := .read fun s =>
  let l := s.lifecycle
  all [setF FUSE_STATUS_LIFECYCLE l,
    setB FUSE_STATUS_DEBUG_LOCK (Nat.ble 2 l || Nat.testBit (s.fuseRow 0).toNat 16),
    setB FUSE_STATUS_TEST_LOCK (Nat.ble 2 l || Nat.testBit (s.fuseRow 0).toNat 17),
    setB FUSE_STATUS_HASH0_OK (s.hashOk 0),
    setB FUSE_STATUS_HASH1_OK (s.hashOk 1),
    setB FUSE_STATUS_SEED_OK s.seedOk,
    setF FUSE_STATUS_REVOKED (fieldOf (s.fuseRow 18) 0 2)]

/-- A fuse request is refused. -/
def fuseRefuse (why : Nat) : Act := setF FUSE_STATUS_LAST why

/-- Programming starts. -/
def fuseStart (row : Nat) (bits : Word) (advance : Bool) : Act :=
  .seq (fuse fun f => { f with job := some ⟨row, bits, advance⟩ }) (setB FUSE_STATUS_PROG_BUSY true)

/-- A guarded fuse write whose function group the map refuses reads NOT_PERMITTED in LAST too (R404). -/
def fuseGuard (x : Nat) (comp : Word) (check : Word → State → Nat) (apply : Word → Act) : Act := .read fun s =>
  .seq (guardComplement x comp check apply)
    (.read fun t => when ((s.armed x).isSome && t.fld (guardResult x) == grdNotPermitted) (fuseRefuse fuseNotPermitted))

end Act

/-! ### Slot writes -/

/-- Statuses of a key command that fails (R620). -/
def keyError : Nat := 0x0501
def keyInvalid : Nat := 0x0502

/-- The permissions a slot's ATTR gives: ENC, DEC, MAC, DERIVE, WRAP, UNWRAP. -/
def permsOf (attr : Nat) : Nat := attr % 64

/-- A set of permissions lies within another. -/
def permsWithin (a b : Nat) : Bool := (List.range 6).all fun i => !Nat.testBit a i || Nat.testBit b i

/-- A slot has a change under way. -/
def State.slotBusy (s : State) (n : Nat) : Bool := s.u.sec.writes.any fun w => w.slot == n

/-- The stored ATTR of a key under a parent: the reserved bits 0 and DEPTH one more than the parent's (R375). -/
def attrUnder (attr depth : Nat) : Nat := attr % 512 + depth % 4 * 512

/-- The operations that hold a key fetched from a slot (R380). -/
def State.slotHolders (s : State) (n : Nat) : Nat :=
  (s.u.accel.ops.filter fun o => match o.fetch with
    | some f => f.slot == n
    | none => false).length

namespace Act

/-- Complete the command of a journal sequence, where it still waits. -/
def completeSeq (seq status : Nat) : Act := .read fun s =>
  match s.u.hif.cmds.find? fun c => c.seq == seq with
  | none => .nop
  | some c => complete c status (.val 0)

/-- A key operation ends with INVALID_KEY (R376). -/
def invalidKey (c : HostCmd) : Act := .seq (sat SEC_INVALID_KEY) (complete c keyInvalid (.val 0))

/-- The slot enters DRAINING (R379, R380). -/
def slotDrain (n : Nat) : Act := .read fun s =>
  all [sec fun x => { x with writes := x.writes.map fun w => if w.slot == n then { w with draining := true } else w },
    putSlot n { s.slot n with state := .draining },
    slotsValid]

/-- A slot change starts: the shadow copy is written and tagged; a persistent one waits for its record (R379). -/
def slotWrite (n : Nat) (shadow : Option KeySlot) (cmd : Option Nat) : Act := .read fun s =>
  let tagged := match shadow, s.u.sec.integrity with
    | some k, some i =>
      let k' := { k with gen := ((s.slot n).gen + 1) % 65536, state := SlotState.valid }
      some { k' with tag := tagOfSlot i n k' }
    | k, _ => k
  let persists := match shadow with
    | some k => k.has 7
    | none => false
  .seq (sec fun x => { x with writes := x.writes ++ [⟨n, tagged, false, cmd⟩] })
    (if persists then .nop else slotDrain n)

end Act

end Sys2Proof.Machine
end

