-- ==== Sys2Proof/Machine/ImageFmt.lean ====
section
/-!
DEFINITION. Machine/ImageFmt.lean: the formats of start-up (R545–R550, R569): an image's header, a configuration image's
records, and the output of a delta.
-/

namespace Sys2Proof.Machine

open Sys2Proof

/-- Kinds of R547. -/
def kindFirmware : Nat := 1
def kindConfig : Nat := 2
def kindRecovery : Nat := 3
def kindFwDelta : Nat := 4
def kindCfgDelta : Nat := 5

/-! ### The header (R547) -/

/-- A field of an image's header, little-endian. -/
def hdr (b : List Byte) (off n : Nat) : Nat := leAt b off n

def imgKind (b : List Byte) : Nat := hdr b 4 1
def imgKeyIndex (b : List Byte) : Nat := hdr b 6 1
def imgAdvance (b : List Byte) : Bool := Nat.testBit (hdr b 7 1) 0
def imgRaiseFloor (b : List Byte) : Bool := Nat.testBit (hdr b 7 1) 1
def imgBody (b : List Byte) : Nat := hdr b 8 4
def imgVersion (b : List Byte) : Nat := hdr b 12 4
def imgRollback (b : List Byte) : Nat := hdr b 16 2
def imgFormat (b : List Byte) : Nat := hdr b 18 2
def imgFormatMin (b : List Byte) : Nat := hdr b 20 2
def imgDirFormat (b : List Byte) : Nat := hdr b 22 2
def imgDirFormatMin (b : List Byte) : Nat := hdr b 24 2
def imgMinFw (b : List Byte) : Nat := hdr b 28 4
def imgTargetId (b : List Byte) : Nat := hdr b 32 4
def imgTargetMask (b : List Byte) : Nat := hdr b 36 4

/-- Header and body of an image, without what follows it in its slot. -/
def imgWhole (b : List Byte) : List Byte := b.take (256 + imgBody b)

/-- SHA-256 of an image as stored. -/
def imgSha (b : List Byte) : List Nat := Crypto.sha256 (natBytes (imgWhole b))

/-- The most body bytes of a kind; a delta is bounded by the transfer area of size t. -/
def bodyLimit (t : Nat) : Nat → Nat
  | 1 => 12 * 2 ^ 20
  | 2 => 6 * 2 ^ 20
  | 3 => 7 * 2 ^ 20 - 256
  | _ => t - 256

/-- The first check of R548: MAGIC, KIND as expected, HDR_VERSION, BODY_LENGTH within R547 and within what is there. -/
def imgHeaderOk (b : List Byte) (kind t : Nat) : Bool :=
  b.take 4 == [0x50, 0x4C, 0x49, 0x4D] && imgKind b == kind && hdr b 5 1 == 1 &&
  Nat.ble (imgBody b) (bodyLimit t kind) && Nat.ble (256 + imgBody b) b.length

/-- SIGNATURE verifies over bytes 0–191 under PUBKEY. -/
def imgSigned (b : List Byte) : Bool :=
  let n := natBytes b
  let at32 := fun off => Crypto.beNat ((n.drop off).take 32)
  Crypto.ecdsaVerify (at32 96, at32 128) (Crypto.beNat (Crypto.sha256 (n.take 192))) (at32 192) (at32 224)

/-- SHA-256 of PUBKEY. -/
def imgKeyHash (b : List Byte) : List Nat := Crypto.sha256 ((natBytes b).drop 96 |>.take 64)

/-- SHA-256 of the body equals BODY_HASH. -/
def imgHashOk (b : List Byte) : Bool :=
  Crypto.sha256 ((natBytes (imgWhole b)).drop 256) == ((natBytes b).drop 40).take 32

/-! ### Records of a configuration image (R549, R550) -/

/-- One record: TYPE, CRITICAL, value. -/
structure CfgRec where
  typ : Nat
  critical : Bool
  value : List Byte
  deriving DecidableEq, Repr

/-- The records of a body up to its terminator, which ends exactly at its end (R549). -/
def cfgRecords : Nat → List Byte → Option (List CfgRec)
  | 0, _ => none
  | n + 1, b =>
    if b.length < 8 then none
    else
      let typ := leAt b 0 2
      let len := leAt b 4 4
      if typ = 0 then (if len = 0 ∧ b.length = 8 then some [] else none)
      else if b.length < 8 + (len + 7) / 8 * 8 then none
      else (cfgRecords n (b.drop (8 + (len + 7) / 8 * 8))).map fun rest =>
        ⟨typ, Nat.testBit (leAt b 2 1) 0, (b.drop 8).take len⟩ :: rest

/-- One entry of a record, with its place: the record's TYPE, its index in the record, and its order in the image. -/
structure CfgEntry where
  typ : Nat
  index : Nat
  ord : Nat
  bytes : List Byte
  deriving DecidableEq, Repr

/-- BOOT_ERR_DETAIL of an entry: TYPE and entry index. -/
def CfgEntry.detail (e : CfgEntry) : Nat := e.typ + 65536 * (e.index % 65536)

/-- The size of a record type's entries and of what stands before them; 0 for a record of one value. -/
def entryShape : Nat → Nat × Nat
  | 0x0002 => (0, 8)
  | 0x0010 => (0, 4)
  | 0x0011 => (0, 20)
  | 0x0020 => (0, 40)
  | 0x0021 => (0, 24)
  | 0x0030 => (8, 48)
  | 0x0040 => (0, 1)
  | _ => (0, 0)

/-- Cut bytes into pieces of n, `fuel` at most. -/
def pieces (n : Nat) : Nat → List Byte → List (List Byte)
  | 0, _ => []
  | fuel + 1, b => if b.length < n ∨ n = 0 then [] else b.take n :: pieces n fuel (b.drop n)

/-- Every entry of the records, in image order. -/
def cfgEntries (rs : List CfgRec) : List CfgEntry :=
  let raw := rs.flatMap fun r =>
    let (skip, size) := entryShape r.typ
    if size = 0 then [(r.typ, 0, r.value)]
    else (pieces size r.value.length (r.value.drop skip)).zipIdx.map fun (b, i) => (r.typ, i, b)
  raw.zipIdx.map fun ((t, i, b), o) => ⟨t, i, o, b⟩

/-- A parsed configuration image. -/
structure Cfg where
  recs : List CfgRec
  entries : List CfgEntry
  deriving DecidableEq, Repr

/-- The configuration a stored image holds; none where R549 fails. -/
def Cfg.parse (b : List Byte) : Option Cfg :=
  (cfgRecords (imgBody b) ((imgWhole b).drop 256)).map fun rs => ⟨rs, cfgEntries rs⟩

/-- The entries of a type. -/
def Cfg.of (c : Cfg) (t : Nat) : List CfgEntry := c.entries.filter fun e => e.typ == t

/-- The records of a type. -/
def Cfg.recsOf (c : Cfg) (t : Nat) : List CfgRec := c.recs.filter fun r => r.typ == t

/-- The value of the first record of a type. -/
def Cfg.value (c : Cfg) (t : Nat) : List Byte := ((c.recsOf t).head?.map (·.value)).getD []

/-- The known record types (R550). -/
def knownRecord (t : Nat) : Bool := [0x1, 0x2, 0x3, 0x10, 0x11, 0x20, 0x21, 0x30, 0x40, 0x50].contains t

/-- Records of unknown TYPE that are skipped (R549). -/
def Cfg.ignored (c : Cfg) : Nat := (c.recs.filter fun r => !knownRecord r.typ).length

/-! #### IDENTITY, REGS, PAIR -/

def Cfg.networkId (c : Cfg) : Nat := leAt (c.value 1) 0 2
def Cfg.syncWord (c : Cfg) : Nat := leAt (c.value 1) 2 4
def Cfg.ipv6 (c : Cfg) : List Byte := ((c.value 1).drop 6).take 16

/-- The MAC address of port p, in the order it is sent. -/
def Cfg.mac (c : Cfg) (p : Nat) : List Byte := ((c.value 1).drop (22 + 6 * p)).take 6

/-- An entry's BAR0 offset and value. -/
def CfgEntry.off (e : CfgEntry) : Nat := leAt e.bytes 0 4
def CfgEntry.val (e : CfgEntry) : Nat := leAt e.bytes 4 4

/-- The REGS entry that names an offset. -/
def Cfg.regEntry (c : Cfg) (a : Nat) : Option CfgEntry := (c.of 2).find? fun e => e.off == a

/-- The image declares a pair. -/
def Cfg.pair (c : Cfg) : Bool := !(c.recsOf 3).isEmpty

/-! #### REGIONS and QUEUES -/

/-- Base and size of region r, in MiB. -/
def Cfg.region (c : Cfg) (r : Nat) : Nat × Nat := (leAt (c.value 0x10) (4 * r) 2, leAt (c.value 0x10) (4 * r + 2) 2)

def Cfg.regions (c : Cfg) : List (Nat × Nat) := (List.range 6).map c.region

/-- The fields of a QUEUES entry. -/
def CfgEntry.queue (e : CfgEntry) : Nat := leAt e.bytes 0 2
def CfgEntry.producer (e : CfgEntry) : Nat := leAt e.bytes 2 1
def CfgEntry.consumer (e : CfgEntry) : Nat := leAt e.bytes 3 1
def CfgEntry.vis (e : CfgEntry) : Nat := leAt e.bytes 4 1
def CfgEntry.group (e : CfgEntry) : Nat := leAt e.bytes 5 1
def CfgEntry.fcEn (e : CfgEntry) : Nat := leAt e.bytes 6 1
def CfgEntry.limit (e : CfgEntry) : Nat := leAt e.bytes 8 4
def CfgEntry.hi (e : CfgEntry) : Nat := leAt e.bytes 12 4
def CfgEntry.lo (e : CfgEntry) : Nat := leAt e.bytes 16 4

/-! #### STATIC -/

def CfgEntry.table (e : CfgEntry) : Nat := leAt e.bytes 0 1
def CfgEntry.entry (e : CfgEntry) : Nat := leAt e.bytes 8 16

/-! #### ROOTS -/

def Cfg.rootset (c : Cfg) : Nat := leAt (c.value 0x30) 0 2
def Cfg.nodeRoot (c : Cfg) : Nat := leAt (c.value 0x30) 2 1
def Cfg.netRoot (c : Cfg) : Nat := leAt (c.value 0x30) 3 1
def Cfg.pairWrap (c : Cfg) : Nat := leAt (c.value 0x30) 4 1

def CfgEntry.slot (e : CfgEntry) : Nat := leAt e.bytes 0 1
def CfgEntry.attr (e : CfgEntry) : Nat := leAt e.bytes 4 4
def CfgEntry.blob (e : CfgEntry) : List Byte := e.bytes.drop 8

/-! #### PINS -/

/-- The function code of GPIO[n]; 0 where the image has no PINS record. -/
def Cfg.gpio (c : Cfg) (n : Nat) : Nat := leAt (c.value 0x40) n 1

/-- The owner code of GTk as PINS names it. -/
def Cfg.gtCode (c : Cfg) (k : Nat) : Nat := leAt (c.value 0x40) (16 + k) 1

/-! ### Deltas (R569) -/

/-- How a delta's operations end: the output, or none for BAD_DELTA. -/
def deltaRun (src : List Byte) (target t : Nat) : Nat → List Byte → List Byte → Option (List Byte)
  | 0, _, _ => none
  | n + 1, ops, out =>
    if ops.isEmpty then none
    else
      let take := fun (bs : List Byte) (rest : List Byte) =>
        if out.length + bs.length > target ∨ out.length + bs.length > t then none
        else deltaRun src target t n rest (out ++ bs)
      match leAt ops 0 1 with
      | 0 => some out
      | 1 =>
        let s := leAt ops 4 4
        let len := leAt ops 8 4
        if s + len > src.length then none else take ((src.drop s).take len) (ops.drop 12)
      | 2 =>
        let len := leAt ops 4 4
        if ops.length < 8 + len then none else take ((ops.drop 8).take len) (ops.drop (8 + (len + 3) / 4 * 4))
      | 3 =>
        let len := leAt ops 4 4
        take (List.replicate len (BitVec.ofNat 8 (leAt ops 8 1))) (ops.drop 12)
      | _ => none

/-- A delta applied to its source. -/
inductive DeltaOut where
  | built (b : List Byte) | sourceMismatch | bad
  deriving DecidableEq, Repr

/-- The output of a delta image over the running image of its kind (R569). -/
def deltaApply (delta src : List Byte) (t : Nat) : DeltaOut :=
  let body := (imgWhole delta).drop 256
  let target := leAt body 32 4
  if !(Crypto.sha256 (natBytes src) == natBytes (body.take 32)) then .sourceMismatch
  else match deltaRun src target t (body.length + 1) (body.drop 72) [] with
  | none => .bad
  | some out =>
    if out.length = target && Crypto.sha256 (natBytes out) == natBytes ((body.drop 36).take 32) then .built out else .bad

end Sys2Proof.Machine
end

