-- ==== Sys2Proof/Machine/LoadCheck.lean ====
section
/-!
DEFINITION. Machine/LoadCheck.lean: what the device accepts of an image (R548), and the configuration load check (R556,
R557) with the rules it names.
-/

namespace Sys2Proof.Machine

open Sys2Proof Sys2Proof.Reg

/-! ### Image checks (R548) -/

/-- BOOT_STATUS.ERROR codes (R580). -/
def bootNoFlash : Nat := 0x01
def bootBadHeader : Nat := 0x02
def bootBadKey : Nat := 0x03
def bootBadSignature : Nat := 0x04
def bootBadHash : Nat := 0x05
def bootRollback : Nat := 0x06
def bootWrongTarget : Nat := 0x07
def bootLifecycle : Nat := 0x08
def bootSeed : Nat := 0x09
def bootFormat : Nat := 0x0A
def bootNoFirmware : Nat := 0x0B
def bootNoConfig : Nat := 0x0C
def bootRoots : Nat := 0x1B
def bootKeyRole : Nat := 0x1A
def bootEpochExhausted : Nat := 0x1F
def bootKeyArea : Nat := 0x20
def bootMigration : Nat := 0x22

/-- The rollback count: blown bits of the ROLLBACK field from the lowest up to the first unblown one (R548). -/
def State.rollbackCount (s : State) : Nat :=
  ((List.range 256).takeWhile fun i => Nat.testBit (s.fuseRow (37 + i / 32)).toNat (i % 32)).length

/-- Size T of the transfer area, of a staging region of `mib` MiB (R565). -/
def transferSize (mib : Nat) : Nat := (mib - 1) * 2 ^ 19

/-- The checks of R548 in their order: the code of the first that fails; a verifier that failed its known-answer test
verifies nothing (R500). `t` is the transfer area, `floor` CFG_FLOOR. -/
def State.imageFault (s : State) (b : List Byte) (kind t floor : Nat) : Option Nat :=
  let blank := s.lifecycle == 0
  let k := imgKeyIndex b
  if !imgHeaderOk b kind t then some bootBadHeader
  else if !blank && !(Nat.blt k 2 && s.hashOk k && !Nat.testBit (s.fuseRow 18).toNat k &&
      imgKeyHash b == s.fuseBytes (2 + 8 * k) 8) then some bootBadKey
  else if !blank && (s.u.pair.ecdsaBad || !imgSigned b) then some bootBadSignature
  else if !blank && !((0x168000A1 ^^^ imgTargetId b) &&& imgTargetMask b == 0) then some bootWrongTarget
  else if !blank && (if kind = kindConfig then Nat.blt (imgVersion b) floor
      else (kind == kindFirmware || kind == kindRecovery) && Nat.blt (imgRollback b) s.rollbackCount) then some bootRollback
  else if !imgHashOk b then some bootBadHash
  else none

/-! ### What an image loads into a register (R551, R560) -/

/-- The idyan default of a register. -/
def cfgDefault (a : Nat) : Nat := ((cfgDefaults.find? fun e => e.1 == a).map (·.2)).getD 0

/-- The value the load gives a register: its entry's, or the idyan default. -/
def Cfg.word (c : Cfg) (a : Nat) : Word :=
  match c.regEntry a with
  | some e =>
    let w := BitVec.ofNat 32 e.val
    match rowOf a with
    | some r => if r.writable = 0 then w else storedValue a w
    | none => w
  | none => BitVec.ofNat 32 (cfgDefault a)

/-- A field of the loaded registers. -/
def Cfg.fld (c : Cfg) (f : Field) : Nat := fieldOf (c.word f.reg) f.lo f.width
def Cfg.bit (c : Cfg) (f : Field) : Bool := c.fld f == 1

/-- The registers the load writes from REGS or the defaults, in order of offset. -/
def cfgRegs : List Nat := cfgSpans.flatMap fun p => (List.range p.2).map fun i => p.1 + 4 * i

/-! ### The load check (R556) -/

/-- A failure: its code, BOOT_ERR_DETAIL and BOOT_ERR_OTHER. -/
structure CfgFail where
  code : Nat
  detail : Nat
  other : Nat
  deriving DecidableEq, Repr

/-- A check: what it finds, the first entry and the one it conflicts with. -/
abbrev Finding := Option (Nat × Nat)

/-- The detail of the entry that loads a register; 0 where a default loads it. -/
def Cfg.regDetail (c : Cfg) (a : Nat) : Nat := ((c.regEntry a).map CfgEntry.detail).getD 0

/-- An entry found by a condition. -/
def foundEntry (l : List CfgEntry) (p : CfgEntry → Bool) : Finding := (l.find? p).map fun e => (e.detail, 0)

/-- A register found at fault. -/
def Cfg.foundReg (c : Cfg) (a : Nat) (bad : Bool) : Finding := if bad then some (c.regDetail a, 0) else none

/-- The first finding of a list of checks. -/
def firstOf (l : List Finding) : Finding := l.findSome? id

/-- Where two claim one resource (R557): the second in the image's order, and the first. -/
def conflictOf (claims : List CfgEntry) : Finding :=
  match claims.mergeSort fun a b => Nat.ble a.ord b.ord with
  | a :: b :: _ => some (b.detail, a.detail)
  | _ => none

/-- The record counts and lengths of R550 of one type. -/
def recordShape (t : Nat) (lens : List Nat) : Bool :=
  let one := Nat.beq lens.length 1
  let atMostOne := Nat.ble lens.length 1
  match t with
  | 0x0001 => one && lens.all fun n => Nat.ble 34 n && Nat.ble n 98
  | 0x0002 => lens.all fun n => n % 8 == 0
  | 0x0003 => atMostOne && lens.all fun n => n == 4
  | 0x0010 => one && lens.all fun n => n == 24
  | 0x0011 => lens.all fun n => n % 20 == 0
  | 0x0020 => atMostOne && lens.all fun n => n % 40 == 0 && Nat.ble n 640
  | 0x0021 => lens.all fun n => n % 24 == 0
  | 0x0030 => one && lens.all fun n => n % 48 == 8 && Nat.ble 56 n && Nat.ble n 392
  | 0x0040 => atMostOne && lens.all fun n => n == 24
  | 0x0050 => atMostOne
  | _ => true

/-- The first entry whose key an earlier entry has. -/
def firstRepeat (key : CfgEntry → Nat) : List CfgEntry → List CfgEntry → Finding
  | _, [] => none
  | seen, e :: l =>
    match seen.find? fun d => key d == key e with
    | some d => some (e.detail, d.detail)
    | none => firstRepeat key (e :: seen) l

/-- STRUCTURE (R549, R550, R551). -/
def Cfg.badStructure (c : Cfg) : Finding :=
  firstOf ((c.recs.map fun r => if r.critical && !knownRecord r.typ then some (r.typ, 0) else none) ++
    ([0x1, 0x2, 0x3, 0x10, 0x11, 0x20, 0x21, 0x30, 0x40, 0x50].map fun t =>
      if recordShape t ((c.recsOf t).map fun r => r.value.length) then none else some (t, 0)) ++
    [firstRepeat CfgEntry.off [] (c.of 2)])

/-- A port code of R295. -/
def portCode (p : Nat) : Bool := Nat.ble p 9 || (Nat.ble 0x10 p && Nat.ble p 0x1F)

/-- A GPIO function code of R641. -/
def gpioCode (f : Nat) : Bool := Nat.ble f 5 || f == 8 || f == 9 || (Nat.ble 0x10 f && Nat.ble f 0x12)

/-- A QUEUES entry outside R295, R300, R313 or R322. -/
def CfgEntry.badQueue (e : CfgEntry) : Bool :=
  Nat.ble 4096 e.queue || !portCode e.producer || !portCode e.consumer || Nat.blt 1 e.vis || Nat.blt 7 e.group ||
  Nat.blt 1 e.fcEn || e.limit == 0 || Nat.ble (2 ^ 24) e.limit ||
  (!(e.hi == 0) && (Nat.ble e.hi e.lo || Nat.blt e.limit e.hi))

/-- A REGS value outside the ranges of its fields (R10, R45, R154, R240, R339, R540). -/
def badReg (a v : Nat) : Bool :=
  let w := BitVec.ofNat 32 v
  !inRange a w ||
  ((a == BT_ROLE0 || a == BT_ROLE1) && (List.range 8).any fun i => Nat.blt 8 (fieldOf w (4 * i) 4)) ||
  (a == MAC_BACKOFF && Nat.blt (fieldOf w 14 4) (fieldOf w 10 4)) ||
  ((a == RFx_CX_TIMING .s || a == RFx_CX_TIMING .w) &&
    (fieldOf w 10 10 == 0 || Nat.ble (fieldOf w 0 10) (fieldOf w 10 10))) ||
  (Nat.ble (SCH_AIRx_Fq .s 0) a && Nat.blt a (SCH_AIRx_Fq .s 0 + 512) && !(fieldOf w 16 16 == 0) &&
    Nat.blt 4 (fieldOf w 12 3)) ||
  (a == PWR_DOZE_ENG && (Nat.blt 8 (fieldOf w 16 4) || Nat.blt 8 (fieldOf w 20 4)))

/-- VALUE_RANGE. -/
def Cfg.badValue (c : Cfg) : Finding :=
  let pins := c.of 0x40
  firstOf [
    foundEntry (c.of 2) fun e => isCfg e.off && badReg e.off e.val,
    foundEntry (c.of 0x11) CfgEntry.badQueue,
    foundEntry (c.of 0x21) fun e => Nat.blt 3 e.table || reservedSet e.table (BitVec.ofNat 128 e.entry),
    foundEntry (c.of 0x20) fun e => Nat.blt 4094 (leAt e.bytes 18 2) || (List.range 8).any fun k => Nat.blt 63 (leAt e.bytes (26 + k) 1),
    foundEntry (c.of 0x30) fun e => Nat.blt 7 e.slot,
    foundEntry (pins.take 16) fun e => !gpioCode (leAt e.bytes 0 1),
    firstRepeat (fun e => leAt e.bytes 0 1) [] ((pins.take 16).filter fun e => Nat.ble 0x10 (leAt e.bytes 0 1)),
    c.foundReg PWR_VID (c.bit PWR_VID_VID_EN &&
      !(pins.any (fun e => leAt e.bytes 0 1 == 0x10 && Nat.blt e.index 16) &&
        pins.any (fun e => leAt e.bytes 0 1 == 0x11 && Nat.blt e.index 16))),
    foundEntry (pins.drop 16) fun e => Nat.blt 5 (leAt e.bytes 0 1)]

/-- REG_TARGET (R551, R669). -/
def Cfg.badTarget (c : Cfg) : Finding :=
  foundEntry (c.of 2) fun e => !isCfg e.off || e.off == ENV_QSTATS_BASE || e.off == PAIR_HEALTH_ADDR ||
    (Nat.ble (EVT_RINGr_BASE 0) e.off && Nat.ble e.off (EVT_RINGr_BASE 3))

/-- A claim made through a register. -/
def Cfg.regClaim (c : Cfg) (a : Nat) (on : Bool) : List CfgEntry :=
  if on then [(c.regEntry a).getD ⟨2, 0xFFFF, 0, []⟩] else []

/-- A claim made by a GPIO function. -/
def Cfg.gpioClaim (c : Cfg) (n : Nat) : List CfgEntry := (c.of 0x40).filter fun e => e.index == n && !(leAt e.bytes 0 1 == 0)

/-- PIN_CONFLICT (R557). -/
def Cfg.pinConflict (c : Cfg) : Finding :=
  firstOf (((List.range 4).map fun i =>
      conflictOf (c.regClaim ENV_FC_CTL (Nat.testBit (c.fld ENV_FC_CTL_EN) (4 + i)) ++ c.gpioClaim (8 + i))) ++
    [conflictOf (c.regClaim TK_BEAT_CFG (c.bit TK_BEAT_CFG_EN) ++ c.gpioClaim 15),
     conflictOf (c.regClaim TK_TSI_CFG (!(c.fld (TK_TSI_CFG_EDGE 3) == 0)) ++
       c.regClaim (RFx_CX_CTL .w) (c.bit (RFx_CX_CTL_EN .w)))])

/-- The enabled functions that use GTk, with their owner codes (R642). -/
def Cfg.gtUsers (c : Cfg) (k : Nat) : List (Nat × CfgEntry) :=
  let byReg := fun code a (on : Bool) => (c.regClaim a on).map fun e => (code, e)
  byReg 1 (RFx_CX_CTL .s) (c.bit (RFx_CX_CTL_EN .s) && c.fld (RFx_CX_CTL_GT .s) == k) ++
  byReg 2 (RFx_CX_CTL .w) (c.bit (RFx_CX_CTL_EN .w) && c.fld (RFx_CX_CTL_GT .w) == k) ++
  byReg 3 PWR_DRIFT_CFG (c.bit PWR_DRIFT_CFG_EN && c.fld PWR_DRIFT_CFG_SNIFF_GT == k) ++
  byReg 4 PWR_DRIFT_CFG (c.bit PWR_DRIFT_CFG_EN && c.fld PWR_DRIFT_CFG_LIMIT_GT == k) ++
  ((List.range 16).filter fun n => n % 8 == k && (c.gpio n == 8 || c.gpio n == 9)).flatMap fun n =>
    (c.gpioClaim n).map fun e => (5, e)

/-- TIMER_CONFLICT (R557, R642). -/
def Cfg.timerConflict (c : Cfg) : Finding :=
  firstOf ((List.range 8).map fun k =>
    let users := c.gtUsers k
    let owner := c.gtCode k
    conflictOf (users.map (·.2) ++
      (if !(owner == 0) && users.any fun u => !(u.1 == owner)
        then (c.of 0x40).filter fun e => e.index == 16 + k else [])))

/-- The owner a timer gets (R642): its PINS code, or, left FREE, the one enabled function that uses it. -/
def Cfg.gtOwner (c : Cfg) (k : Nat) : Nat :=
  if c.gtCode k = 0 then ((c.gtUsers k).head?.map (·.1)).getD 0 else c.gtCode k

/-- BUFFER_CONFLICT (R295, R310, R339). -/
def Cfg.bufferConflict (c : Cfg) : Finding :=
  let qs := c.of 0x11
  let flows := [RfPort.s, RfPort.w].flatMap fun p =>
    ((List.range 64).filter fun q => !(c.fld (SCH_AIRx_Fq_WEIGHT p q) == 0)).map fun q => (p, q)
  let claimed := flows.filterMap fun x => (c.regEntry (SCH_AIRx_Fq x.1 x.2)).map fun e =>
    (x.1, c.fld (SCH_AIRx_Fq_QUEUE x.1 x.2), e)
  firstOf [
    firstRepeat CfgEntry.queue [] qs,
    claimed.findSome? fun (p, q, e) =>
      match qs.find? fun d => d.queue == q with
      | none => some (e.detail, 0)
      | some d => if d.consumer = 7 + p.idx ∧ d.producer ≠ 0 then none else some (e.detail, d.detail),
    firstRepeat (fun e => fieldOf (BitVec.ofNat 32 e.val) 0 12) [] (claimed.map fun x => x.2.2),
    if ((qs.filter fun e => !(e.producer == 0)).foldl (fun n e => n + pagesFor e.limit) 0) ≤ 512 * (c.region 1).2
      then none else some (0x11, 0)]

/-- The least and greatest sizes of a region in MiB, and what its size is a multiple of (R292). -/
def regionRange : Nat → Nat × Nat × Nat
  | 0 => (256, 256, 1)
  | 1 => (256, 3328, 1)
  | 2 => (0, 512, 8)
  | 3 => (16, 256, 1)
  | 4 => (32, 256, 1)
  | _ => (256, 4096, 1)

/-- Two spans of MiB share none. -/
def apartMiB (a b : Nat × Nat) : Bool := Nat.ble (a.1 + a.2) b.1 || Nat.ble (b.1 + b.2) a.1

/-- REGION_LAYOUT (R292, R293): disjoint regions inside 4,096 MiB that together are 4,096 MiB leave no gap. -/
def Cfg.badRegions (c : Cfg) : Finding :=
  let rs := c.regions
  let sizeBad := (List.range 6).find? fun r =>
    let (lo, hi, m) := regionRange r
    let z := (c.region r).2
    Nat.blt z lo || Nat.blt hi z || !(z % m == 0) || Nat.blt 4096 ((c.region r).1 + z)
  let overlap := (List.range 6).find? fun r => (List.range r).any fun q =>
    !((c.region q).2 == 0) && !((c.region r).2 == 0) && !apartMiB (c.region q) (c.region r)
  match sizeBad, overlap with
  | some r, _ => some (0x10 + 65536 * r, 0)
  | none, some r => some (0x10 + 65536 * r, 0)
  | none, none => if rs.foldl (fun n r => n + r.2) 0 = 4096 then none else some (0x10, 0)

/-- The configured channels of a port: decoder, index and rate; a rate the port ignores leaves its channel off (R198). -/
def Cfg.channels (c : Cfg) (p : RfPort) : List (Nat × Nat × Nat) :=
  ((match p with | .s => List.range 48 | .w => (List.range 32).map (· + 48)).filter fun n =>
    c.bit (RXD_CHn_CFG_EN n) && Air.rateOnPort p (c.fld (RXD_CHn_CFG_RATE n))).map fun n =>
      (n, c.fld (RXD_CHn_CFG_CHANNEL n), c.fld (RXD_CHn_CFG_RATE n))

/-- A channel lies inside the slice and clear of its centre (R118); figures in half kHz. -/
def Cfg.inSlice (c : Cfg) (p : RfPort) (k r : Nat) : Bool :=
  let mid := 50 * c.fld (RFx_SLICE_CENTRE p)
  let w := sliceKHz p (c.fld (RFx_SLICE_WIDTH p))
  let f := 2 * Air.centreKHz p k
  Nat.ble (mid + Air.widthKHz r) (f + w) && Nat.ble (f + Air.widthKHz r) (mid + w) &&
    Nat.ble (Air.widthKHz r + 300) (max f mid - min f mid)

/-- CHANNEL_PLAN (R75, R76, R118). -/
def Cfg.badChannels (c : Cfg) : Finding :=
  firstOf ([RfPort.s, RfPort.w].flatMap fun p =>
    let chs := c.channels p
    chs.map fun (n, k, r) =>
      if !Air.usable p k r then some (c.regDetail (RXD_CHn_CFG n), 0)
      else if !c.inSlice p k r then some (c.regDetail (RXD_CHn_CFG n), c.regDetail (RFx_SLICE p))
      else (chs.find? fun (m, k', r') => Nat.blt m n && !Air.apart p k r k' r').map fun (m, _, _) =>
        (c.regDetail (RXD_CHn_CFG n), c.regDetail (RXD_CHn_CFG m)))

/-- The role of engine n. -/
def Cfg.role (c : Cfg) (n : Nat) : Nat := c.fld (BT_ROLE_n n)

/-- ROLE_MISSING (R46). -/
def Cfg.roleMissing (c : Cfg) : Finding :=
  let has := fun r => (List.range 16).any fun n => c.role n == r
  if [1, 3, 4, 6, 7].all has && (!c.bit (RFx_SLICE_EN .w) || has 2) && ((c.region 2).2 == 0 || has 5) then none
  else some (c.regDetail BT_ROLE0, 0)

/-- DOZE_PROFILE (R521). -/
def Cfg.badDoze (c : Cfg) : Finding :=
  let decs := fun n => c.word (PWR_DOZE_DECx n)
  let kept := fun r => (List.range 16).any fun n => Nat.testBit (c.fld PWR_DOZE_ENG_ENGINES) n && c.role n == r
  let wKept := !(fieldOf (decs 1) 16 16 == 0) || !(fieldOf (decs 2) 0 16 == 0)
  if decide (c.word PWR_DOZE_ENG = 0) && (List.range 3).all (fun n => decide (decs n = 0)) then none
  else c.foundReg PWR_DOZE_ENG (!([1, 3, 4, 6, 7].all kept) || (wKept && !kept 2) ||
    c.fld PWR_DOZE_ENG_LDPC_KEEP == 0 || c.fld PWR_DOZE_ENG_AES_KEEP == 0)

/-- Symbol period in ns (R77). -/
def periodNs : Nat → Nat
  | 0 => 40000
  | 1 => 10000
  | 2 => 2500
  | _ => 625

/-- DRIFT_CONFIG (R529–R531), of an image that enables DRIFT. -/
def Cfg.badDrift (c : Cfg) : Finding :=
  let lead := if (List.range 16).any fun n => c.gpio n == 0x12 then c.fld PWR_DRIFT_CFG_TCXO_LEAD_US else 0
  let us := 10 * c.fld PWR_DRIFT_SNIFF_SNIFF_US
  let d := c.fld PWR_DRIFT_SNIFF_SNIFF_DEC
  let rate := c.fld (RXD_CHn_CFG_RATE d)
  if !c.bit PWR_DRIFT_CFG_EN then none
  else firstOf [
    c.foundReg PWR_DRIFT_CFG (c.fld PWR_DRIFT_CFG_WAKE_EN == 0 ||
      Nat.blt (10000 * c.fld PWR_DRIFT_CFG_SNIFF_MS) (lead + us + 1600)),
    c.foundReg PWR_DRIFT_SNIFF (c.bit (RXD_CHn_CFG_EN d) &&
      (rate == 0 || Nat.blt (1000 * us) (62 * periodNs rate + 200000)))]

/-- RATES (R333, R337). -/
def Cfg.badRates (c : Cfg) : Finding :=
  firstOf (((List.range 2).map fun p =>
      let mode := c.fld (ETH_Pp_CFG_MODE p)
      let shaped := ((List.range 8).map fun i => 8 * p + i).filter fun k => c.bit (SCH_ULk_CFG_SHAPE_EN k)
      let total := shaped.foldl (fun n k => n + c.fld (SCH_ULk_SLOPE_IDLE_SLOPE k)) 0
      if mode = 0 then none
      else firstOf [
        (shaped.find? fun k => c.fld (SCH_ULk_SLOPE_IDLE_SLOPE k) == 0).map fun k => (c.regDetail (SCH_ULk_SLOPE k), 0),
        if total ≤ (if mode = 2 then 10000000 else 1000000) then none
          else some (c.regDetail (SCH_ULk_SLOPE (shaped.getLast?.getD 0)), 0)]) ++
    ((List.range 16).map fun k => c.foundReg (SCH_POLk_CTL k) (c.bit (SCH_POLk_CTL_EN k) &&
      (Nat.blt (c.fld (SCH_POLk_PIR_PIR k)) (c.fld (SCH_POLk_CIR_CIR k)) ||
        Nat.blt (c.fld (SCH_POLk_CBS_CBS k)) 1200 || Nat.blt (c.fld (SCH_POLk_PBS_PBS k)) 1200))))

/-- The rows of R556 checked before the key area, in their order; the first that fails. -/
def Cfg.loadFault (c : Cfg) : Option CfgFail :=
  let row := fun code (f : Finding) => f.map fun x => CfgFail.mk code x.1 x.2
  [row 0x10 c.badStructure, row 0x11 c.badValue, row 0x12 c.badTarget, row 0x13 c.pinConflict,
    row 0x14 c.timerConflict, row 0x15 c.bufferConflict, row 0x16 c.badRegions, row 0x17 c.badChannels,
    row 0x18 (if Air.networkIdOk c.networkId && Air.syncWordOk c.syncWord then none else some (1, 0)),
    row 0x19 c.roleMissing, row 0x1C c.badDoze, row 0x1D c.badDrift, row 0x1E c.badRates,
    row 0x21 (if (c.recsOf 0x50).isEmpty || Config.policyOk (c.value 0x50) then none else some (0x50, 0))].findSome? id

/-- The load check of a stored image's body. -/
def loadFault (b : List Byte) : Option CfgFail :=
  match Cfg.parse b with
  | none => some ⟨0x10, 0, 0⟩
  | some c => c.loadFault

/-- The format check of step 9 (R553): FORMAT_MIN ≤ FORMAT ≤ the firmware's FORMAT, MIN_FW_VERSION ≤ VERSION. -/
def formatOk (fw cfg : List Byte) : Bool :=
  Nat.ble (imgFormatMin fw) (imgFormat cfg) && Nat.ble (imgFormat cfg) (imgFormat fw) &&
    Nat.ble (imgMinFw cfg) (imgVersion fw)

/-! ### Keys of an image (R552, R377) -/

/-- The key a root entry's blob unwraps to under the KEK, as a slot's KEY; a 128-bit key's blob is its first 24 bytes. -/
def rootKey (kek : List Nat) (e : CfgEntry) : Option Nat :=
  let len256 := Nat.testBit e.attr 6
  (Crypto.kwUnwrap kek (natBytes (e.blob.take (if len256 then 40 else 24)))).map fun k => leValue (bytesOfNat k)

/-- The key check value of a key (R487). -/
def kcvOf (key : List Nat) : List Nat := (Crypto.cmac key [0x50, 0x4C, 0x49, 0x55, 0x52, 0x4B, 0x43, 0x56]).take 8

/-- KEY_ROLE (R377): a role unnamed, or on a slot that lacks its permissions. -/
def Cfg.keyRolesOk (c : Cfg) (slot : Nat → KeySlot) : Bool :=
  let ok := fun n bits => Nat.blt n 8 && decide ((slot n).state = SlotState.valid) && bits.all fun i => (slot n).has i
  ok c.nodeRoot [3] && ok c.netRoot [3] && (!c.pair || ok c.pairWrap [4, 5])

end Sys2Proof.Machine
end

