-- ==== Sys2Proof/Machine/Rf.lean ====
section
/-!
DEFINITION. Machine/Rf.lean: the commands of the RF ports (R116–R158, R199–R203): receive calibration, the transmit
synthesisers, clear-channel assessment, the transmit sequence edge by edge, coexistence and regional airtime. `off` is
an instant as ns from the start of the beat, `sample` the sample index an announcement carries.
-/

namespace Sys2Proof.Machine

open Sys2Proof Sys2Proof.Reg Sys2Proof.Machine.Act

/-! ### Receive calibration (R119–R121) -/

/-- RX_RECAL_REQUEST: a write to RFx_RXCAL (R120). -/
def execRxRecalRequest (iface : HostIface) (port : RfPort) (value : BitVec 32) (s : State) : Result :=
  s.act <| permitted iface (RFx_RXCAL port) (rxcalWrite port value)

/-- SLICE_WRITE (R151). -/
def execSliceWrite (iface : HostIface) (port : RfPort) (value : BitVec 32) (off : Fin 1000000) (sample : BitVec 64)
    (s : State) : Result :=
  s.act <| permitted iface (RFx_SLICE port)
    (sliceWrite port (storedValue (RFx_SLICE port) value) (s.atNs off) sample.toNat)

/-- RX_RECAL_START (R120): a requested recalibration starts once no transmit sequence is under way. -/
def execRxRecalStart (port : RfPort) (off : Fin 1000000) (sample : BitVec 64) (s : State) : Result :=
  s.act <|
    match (s.u.rf.port port).recal with
    | none => .nop
    | some r => when (!r.running && !s.portSeq port) (recalStart port r.cause (s.atNs off) sample.toNat)

/-- RX_RECAL_DONE (R119, R121, R164): the step table is measured, the port is open and RF_RX_RECAL is raised; without
lock the steps run again, three times at once and then at each boundary. -/
def execRxRecalDone (port : RfPort) (off : Fin 1000000) (sample : BitVec 64) (locked : Bool) (steps : List (BitVec 10))
    (us : BitVec 16) (s : State) : Result :=
  s.act <|
    let u := s.u.rf.port port
    match u.recal with
    | none => .nop
    | some r => when r.running
      (if locked then
        all [each (List.range 15) fun i =>
            .reg (RXD_STEPTAB_xi port i) (BitVec.ofNat 32 ((steps.getD i 0).toNat)),
          agcStat port,
          setB (RFx_STATUS_RX_LOCKED port) true, setB (RFx_STATUS_RX_CAL port) false,
          rfUnit port fun u => { u with recal := none, rxFails := 0 },
          rxRunning port,
          raise 21 (leBytes 1 port.idx ++ leBytes 1 r.cause ++ leBytes 2 us.toNat),
          when (!s.portSeq port) (blankOff port (s.atNs off) sample.toNat)]
      else
        all [rfUnit port fun u => { u with
            rxFails := u.rxFails + 1
            recal := if u.rxFails + 1 < 3 then u.recal else none },
          when (!decide (u.rxFails + 1 < 3)) (setB (RFx_STATUS_RX_CAL port) false)])

/-- RX_SYNTH_UNLOCK (R121). -/
def execRxSynthUnlock (port : RfPort) (off : Fin 1000000) (sample : BitVec 64) (s : State) : Result :=
  s.act <|
    when (s.bit (RFx_STATUS_RX_LOCKED port))
      (all [raise 20 (leBytes 1 port.idx), faultClass 14,
        rfUnit port fun u => { u with rxFails := 0 },
        recalStart port 2 (s.atNs off) sample.toNat])

/-! ### Transmit synthesisers (R123–R129) -/

/-- TX_LOCK_CONFIRMED (R123, R128): a command that was held goes on; otherwise the chain moves to where it is needed. -/
def execTxLockConfirmed (chain : Chain) (us : BitVec 16) (s : State) : Result :=
  s.act <|
    when ((s.tx chain).calibrating && Nat.blt us.toNat 200)
      (all [txUnit chain fun t => { t with calibrating := false, fails := 0, retries := 0 },
        setF (RFx_TXn_STAT_LAST_CAL_US chain.port chain.n) (min us.toNat 255),
        txSetState chain stLocked,
        txProceed chain,
        txRetune chain])

/-- TX_CAL_TIMEOUT (R125). -/
def execTxCalTimeout (chain : Chain) (s : State) : Result :=
  s.act <|
    let t := s.tx chain
    when t.calibrating
      (.seq (.seq (rfEvent 16 chain) (faultClass 14))
        (if s.txState chain = stFault then txUnit chain fun t => { t with calibrating := false }
        else if t.fails = 0 then
          .seq (txUnit chain fun t => { t with fails := 1 }) (wrap (RFx_TX_CAL chain.port))
        else
          all [txUnit chain fun t => { t with calibrating := false, fails := 2, retries := 4 },
            txSetState chain stFault,
            rfEvent 19 chain,
            txOff chain]))

/-- TX_SYNTH_UNLOCK (R126, R206): a frame on its way is cut off; a chain that was only locked recalibrates. -/
def execTxSynthUnlock (chain : Chain) (s : State) : Result :=
  s.act <|
    let t := s.tx chain
    if t.sending then all [faultClass 14, txAbort chain true true, sat (RFx_UNLOCK_ABORT chain.port), rfEvent 17 chain, acksLost chain]
    else if t.inSeq then all [faultClass 14, txCmd chain fun d => { d with recal := true }, acksLost chain]
    else when (s.txState chain == stLocked)
      (.seq (.seq (faultClass 14) (txCalStart chain (s.txChannel chain))) (txSuspend chain))

/-- TX_CHAIN_EN_WRITE (R127, R156). -/
def execTxChainEnWrite (iface : HostIface) (chain : Chain) (value : BitVec 32) (s : State) : Result :=
  s.act <| permitted iface (RFx_TXn_CTL chain.port chain.n)
    (txCtlWrite chain (storedValue (RFx_TXn_CTL chain.port chain.n) value))

/-- TX_HOLD_DECISION (R128, R129): a held command whose decision instant has come takes LATE_SYNTH. -/
def execTxHoldDecision (chain : Chain) (off : Fin 1000000) (s : State) : Result :=
  s.act <|
    match (s.tx chain).cmd with
    | none => .nop
    | some d => when (d.due && decide (d.phase = .held) && Nat.ble (s.holdNs chain.port d.cca d.what) (s.atNs off))
      (all [sat (RFx_LATE_SYNTH chain.port), rfEvent 18 chain, txGiveUp chain 2])

/-! ### Clear-channel assessment (R199–R203) -/

/-- A command's instant has come: its CCA runs, or it is held (R128, R135). -/
def Act.ccaBegin (c : Chain) : Act := .read fun s =>
  .seq (txCmd c fun d => { d with phase := .held, due := true })
    (.seq (when (s.bit (RFx_STATUS_BLANK c.port)) (wrap (RFx_CCA_RESTART c.port)))
      (.seq (txProceed c) (txHolding c)))

/-- CCA_START (R199). -/
def execCcaStart (chain : Chain) (s : State) : Result :=
  s.act <| .seq (txTake chain false) (.read fun s =>
    match (s.tx chain).cmd with
    | none => .nop
    | some d => when (d.cca && decide (d.phase = .held) && !d.due) (ccaBegin chain))

/-- The channel is busy (R200); `power` is the 128 µs power in dBm × 4. -/
def State.ccaBusy (s : State) (c : Chain) (d : TxCmd) (power : BitVec 16) : Bool :=
  (s.bit (MAC_CCA_x_ENERGY c.port) && decide (-4 * (s.fld (MAC_CCA_x_THR c.port) : Int) ≤ power.toInt)) ||
  (s.bit (MAC_CCA_x_PREAMBLE c.port) && (s.decoder d.what.decoder).p.isSome)

/-- A beacon has started, or is given up. -/
def Act.beaconGone (e : PlanEntry) : Act := mac fun m =>
  let left := m.beacons.filter fun b => !(some b.queue == e.queue && b.start == e.start)
  { m with beacons := left }

/-- A frame found the channel busy MAX_CCA times (R201): a failed attempt; a beacon is not retried (R227). -/
def Act.channelBusy (c : Chain) (e : PlanEntry) (draw t : Nat) : Act := .read fun s =>
  let beacon := (parseMac (s.entryBytes e)).typ == 3
  all [sat MAC_CCA_FAIL,
    raiseOnce 40 c.port.idx (leBytes 1 c.port.idx),
    txDrop c,
    if beacon then .seq (entryDone e) (beaconGone e)
    else attemptFailed e draw t]

/-- CCA_END (R200–R202). -/
def execCcaEnd (chain : Chain) (off : Fin 1000000) (power : BitVec 16) (draw : Fin 256) (s : State) : Result :=
  s.act <|
    match (s.tx chain).cmd with
    | none => .nop
    | some d => match d.what with
      | .ack _ => .nop
      | .entry e => when (decide (d.phase = .cca))
        (.seq (recordInput 8) <|
        let t := s.atNs off
        let wait := draw.val % 2 ^ d.be * s.fld MAC_BACKOFF_UNIT_US * 1000
        let be := min (d.be + 1) (s.fld MAC_BACKOFF_BE_MAX)
        if !s.ccaBusy chain d power then txCmd chain fun d => { d with phase := .ready }
        else .seq (wrap MAC_CCA_BUSY)
          (if s.fld MAC_BACKOFF_MAX_CCA ≤ d.nb + 1 then channelBusy chain e draw t
          else if t + wait + 128000 + s.preNs chain.port (s.whatRate d.what) ≤ e.latest then
            txCmd chain fun d => { d with phase := .backoff, nb := d.nb + 1, be := be, granted := false }
          else .seq (txDrop chain) (entryDefer e (d.nb + 1) be (t + wait))))

/-- BACKOFF_EXPIRY (R201): the next CCA runs. -/
def execBackoffExpiry (chain : Chain) (s : State) : Result :=
  s.act <|
    match (s.tx chain).cmd with
    | none => .nop
    | some d => when (decide (d.phase = .backoff)) (ccaBegin chain)

/-! ### The transmit sequence (R131–R134) -/

/-- X of a command that is ready and granted: the airtime check (R145), a beacon's TIME fields (R435), and the edges of
R131. -/
def Act.sequenceStart (c : Chain) (t sample : Nat) : Act := .read fun s =>
  match (s.tx c).cmd with
  | none => .nop
  | some d =>
    let p := c.port
    let rate := s.whatRate d.what
    let f := s.whatBytes d.what
    let cls := s.whatClass d.what
    let edges := fun (g : List Byte) => all [
      txCmd c fun d => { d with phase := .tr, bytes := g, xNs := some t },
      txUnit c fun t => { t with
        paMode := s.fld (RFx_PWRCLASSm_PA_MODE p cls)
        level := s.fld (RFx_PWRCLASSm_LEVEL p cls) },
      txSetState c stTx,
      setB (RFx_STATUS_TRS_TX p) true,
      when (s.bit (RFx_FE_CTL_BYP_IN_TX p)) (setB (RFx_STATUS_LNA_BYP p) true),
      blankOn p t sample]
    when (decide (d.phase = .ready) && s.mode.serves && s.mayTransmit && (d.granted || !s.bit (RFx_CX_CTL_EN p)))
      (if f.isEmpty then txDrop c
      else if !s.dutyOk p (s.whatChan d.what) rate (s.dutyNs p rate f.length) (fun _ => 0) then
        .seq (sat (RFx_DUTY_REFUSED p)) (txGiveUp c 4)
      else match d.what with
        | .ack _ => edges f
        | .entry e => if (parseMac f).typ = 3 then beaconFill e f t edges else edges f)

/-- TX_SEQUENCE_START (R131): at X. A command without CCA is taken here, and held where its chain is not locked. -/
def execTxSequenceStart (chain : Chain) (ack : Bool) (off : Fin 1000000) (sample : BitVec 64) (s : State) : Result :=
  s.act <| all [txTake chain ack,
    .read fun s => match (s.tx chain).cmd with
      | none => .nop
      | some d => when (!d.cca && decide (d.phase = .held) && !d.due)
        (all [txCmd chain fun d => { d with due := true }, txProceed chain, txHolding chain]),
    sequenceStart chain (s.atNs off) sample.toNat]

/-- TX_PA_ENABLE: PA_EN goes active T_TR after X (R131). -/
def execTxPaEnable (chain : Chain) (s : State) : Result :=
  s.act <|
    match (s.tx chain).cmd with
    | none => .nop
    | some d => when (decide (d.phase = .tr))
      (.seq (txCmd chain fun d => { d with phase := .pa }) (txUnit chain fun t => { t with paEn := true }))

/-- TX_RAMP_UP_START (R132). -/
def execTxRampUpStart (chain : Chain) (off : Fin 1000000) (s : State) : Result :=
  s.act <|
    match (s.tx chain).cmd with
    | none => .nop
    | some d => when (decide (d.phase = .pa))
      (txCmd chain fun d => { d with phase := .ramp, rampNs := some (s.atNs off) })

/-- TX_FRAME_START (R83): the symbols of R82 follow; a frame whose words fail their parity ends as R312 gives. -/
def execTxFrameStart (chain : Chain) (upset : Bool) (s : State) : Result :=
  s.act <|
    match (s.tx chain).cmd with
    | none => .nop
    | some d => when (decide (d.phase = .ramp))
      (let beacon := (parseMac d.bytes).typ == 3
      let keyed : Act := .seq
        (txUnit chain fun t => { t with air := Air.frameSymbols (s.whatRate d.what) s.u.boot.syncWord beacon d.bytes })
        (txCmd chain fun d => { d with phase := .frame })
      match d.what with
      | .ack a => .seq keyed (ackDigest a none)
      | .entry e => .seq (beaconGone e)
        (match upset, e.queue with
        | true, some q => all [sat Reg.ENV_PARITY, raise 57 (leBytes 2 q), faultClass 4, poisonCounts q 1, txAbort chain false false]
        | _, _ => keyed))

/-- A frame of the device is on the air to its end (R209, R221, R226). -/
def Act.frameSent (d : TxCmd) (e : PlanEntry) (stop : Nat) : Act := .read fun s =>
  let p := parseMac d.bytes
  let more := fun (l : Listen) => { l with closeNs := max l.closeNs (stop + 1000000 * l.listenMs) }
  all [when (p.typ == 3 && !s.shadows) (wrap MAC_BEACONS),
    when (e.queue.isNone && Nat.testBit (leAt d.bytes 0 2) 4)
      (mac fun m =>
        let ls := m.listens.map fun l => if l.nsa = e.nsa ∧ l.closed = false then more l else l
        { m with listens := ls }),
    if p.ar then
      let mic := (d.bytes.drop (d.bytes.length - 4 - p.micBytes)).take 2
      mac fun m => { m with waits := m.waits ++
        [⟨e, s.whatChan d.what, s.whatRate d.what, p.ctr, mic, stop⟩] }
    else entryDone e]

/-- TX_FRAME_END (R131): ramp-down starts; the readback CRC is compared (R487). -/
def execTxFrameEnd (chain : Chain) (off : Fin 1000000) (readback : Bool) (s : State) : Result :=
  s.act <|
    match (s.tx chain).cmd with
    | none => .nop
    | some d => when (decide (d.phase = .frame))
      (all [txCmd chain fun d => { d with phase := .down },
        when (!readback) (.seq (sat PAIR_TX_CHECK) (faultClass 12)),
        wrap (RFx_TX_FRAMES chain.port),
        match d.what with
        | .ack _ => wrap MAC_ACK_SENT
        | .entry e => frameSent d e (s.atNs off)])

/-- TX_RAMP_DOWN_END (R143, R144): the airtime from the start of ramp-up joins the regions. -/
def execTxRampDownEnd (chain : Chain) (off : Fin 1000000) (s : State) : Result :=
  s.act <|
    match (s.tx chain).cmd with
    | none => .nop
    | some d => when (decide (d.phase = .down))
      (.seq (txCmd chain fun d => { d with phase := .drained })
        (match d.rampNs with
        | none => .nop
        | some r => dutyAdd chain.port (s.whatChan d.what) (s.whatRate d.what) (s.atNs off - r)))

/-- TX_PA_DISABLE (R123, R124, R131): the sequence leaves state TX, and the chain moves on to its next channel. -/
def execTxPaDisable (chain : Chain) (s : State) : Result :=
  s.act <|
    match (s.tx chain).cmd with
    | none => .nop
    | some d => when (decide (d.phase = .drained))
      (all [txCmd chain fun d => { d with phase := .back },
        txUnit chain fun t => { t with paEn := false, paMode := 0 },
        if !s.txEn chain then txSetState chain stIdle
        else if d.recal then txCalStart chain (s.txChannel chain)
        else txSetState chain stLocked,
        when (s.txEn chain && !d.recal) (match s.nextChan chain with
          | none => .nop
          | some k => when (s.chainKept chain.idx && !(k == s.txChannel chain)) (txCalStart chain k))])

/-- TX_TR_RETURN (R131, R133, R137, R140): the last sequence's return edge frees the port. -/
def execTxTrReturn (chain : Chain) (s : State) : Result :=
  s.act <|
    let p := chain.port
    let mate := s.tx (chainOf p (1 - chain.n))
    match (s.tx chain).cmd with
    | none => .nop
    | some d => when (decide (d.phase = .back))
      (all [when (!mate.inSeq) (.seq (setB (RFx_STATUS_TRS_TX p) false)
          (setB (RFx_STATUS_LNA_BYP p) (Nat.blt (s.fld (RXD_AGCx_STAT_G p)) 8))),
        when (d.req && s.mode.serves && Nat.blt 0 (s.fld (RFx_CX_TIMING_HOLD p)))
          (rfUnit p fun u => { u with cxHold := true }),
        txDrop chain,
        txRetune chain])

/-- TX_BLANK_END (R131, R134): RX_RECOVER after the last return edge, where the receive path is in service. -/
def execTxBlankEnd (port : RfPort) (off : Fin 1000000) (sample : BitVec 64) (s : State) : Result :=
  s.act <|
    let calibrates := match (s.u.rf.port port).recal with
      | some r => r.running
      | none => false
    when (!s.portSeq port && !calibrates && s.bit (RFx_SLICE_EN port) && s.bit (RFx_STATUS_RX_LOCKED port))
      (blankOff port (s.atNs off) sample.toNat)

/-! ### Coexistence (R139–R142) -/

/-- CX_REQUEST_RAISE (R140): REQ and PRI go active LEAD before X; a request for the next command of a chain still in a
sequence joins the one that stands. -/
def execCxRequestRaise (chain : Chain) (ack : Bool) (s : State) : Result :=
  s.act <|
    when (s.bit (RFx_CX_CTL_EN chain.port))
      (if (s.tx chain).inSeq then
        .seq (txUnit chain fun t => { t with early := if t.early.isSome then t.early else s.nextWhat chain ack })
          (cxFollow chain.port)
      else all [txTake chain ack,
        txCmd chain fun d => { d with req := true },
        cxFollow chain.port])

/-- CX_GRANT_SAMPLE (R140, R141): GNT as sampled CHECK before X; a port whose timer is not its own is denied (R644). -/
def execCxGrantSample (chain : Chain) (granted : Bool) (s : State) : Result :=
  s.act <|
    match (s.tx chain).cmd with
    | none => .nop
    | some d => when (s.bit (RFx_CX_CTL_EN chain.port) && d.req && !d.phase.inSeq)
      (.seq (setB (RFx_STATUS_CX_GNT chain.port) granted)
        (if granted && s.gtOwned (s.fld (RFx_CX_CTL_GT chain.port)) (1 + chain.port.idx) then txCmd chain fun d => { d with granted := true }
        else all [sat (RFx_CX_DENIED chain.port), rfEvent 22 chain, txGiveUp chain 3]))

/-- CX_GRANT_WITHDRAWN (R142): between X and the return edge. -/
def execCxGrantWithdrawn (port : RfPort) (s : State) : Result :=
  s.act <|
    when (s.bit (RFx_CX_CTL_EN port))
      (.seq (setB (RFx_STATUS_CX_GNT port) false)
        (match [chainOf port 0, chainOf port 1].filter fun c => (s.tx c).inSeq with
        | [] => .nop
        | c :: cs => all [sat (RFx_CX_ABORT port), rfEvent 23 c,
          when (s.bit (RFx_CX_CTL_MIDFRAME port)) (each (c :: cs) fun d => txAbort d false true)]))

/-- CX_RELEASE (R140): HOLD has passed since the return edge. -/
def execCxRelease (port : RfPort) (s : State) : Result :=
  s.act <|
    when (s.u.rf.port port).cxHold
      (.seq (rfUnit port fun u => { u with cxHold := false }) (cxFollow port))

/-! ### Regional airtime (R144, R147) -/

/-- DUTY_BUCKET_ADVANCE (R144): the current bucket closes and the oldest of 64 drops out. -/
def execDutyBucketAdvance (port : RfPort) (region : Fin 16) (s : State) : Result :=
  s.act <|
    let d := s.dutyRegion port region
    when (Nat.ble (s.dutyBeats port region) d.beats)
      (dutySet port region { d with buckets := (0 :: d.buckets).take 64, beats := 0 })

/-- DUTY_REGION_WRITE (R147, R158). -/
def execDutyRegionWrite (iface : HostIface) (port : RfPort) (region : Fin 16) (band : Bool) (value : BitVec 32)
    (s : State) : Result :=
  s.act <|
    let a := if band then RFx_DUTYr_BAND port region else RFx_DUTYr_LIMIT port region
    permitted iface a (dutyWrite port region band (storedValue a value))

end Sys2Proof.Machine
end

