-- ==== Sys2Proof/Machine/PairOps.lean ====
section
/-!
DEFINITION. Machine/PairOps.lean: the Buesque Link's sequence numbers (R471, R472), the Tether and PAIR_ALIVE (R473–R476),
the pair states (R477–R479), pairing (R487), planned switchovers (R493) and the epoch of a new active unit (R393). The
model's readings of the pair are in log 57.
-/

namespace Sys2Proof.Machine

open Sys2Proof Sys2Proof.Reg

/-! ### The link -/

/-- The beat nearest the one in progress whose low 32 bits are given. -/
def State.nearBeat (s : State) (low : Nat) : Nat :=
  let b := s.u.bt.beat
  let d := (low + 2 ^ 32 - b % 2 ^ 32) % 2 ^ 32
  if d < 2 ^ 31 then b + d else b + d - 2 ^ 32

namespace Act

/-- The frames missing from the partner are asked for, from the first (R472, R481). -/
def linkAsk : Act := .read fun s =>
  match s.u.pair.lseqIn with
  | none => .nop
  | some e => .seq (pair fun p => { p with asked := true }) (linkSend (.resend e))

/-- A frame whose CRC passes is taken in LSEQ order (R471, R472); one ahead of its turn is asked for again with those
missing before it (log 58). -/
def linkTake (lseq : BitVec 32) (k : Act) : Act := .read fun s =>
  let take := pair fun p => { p with lseqIn := some ((lseq.toNat + 1) % 2 ^ 32), asked := false }
  when (s.bit PAIR_STATUS_LINK_UP)
    (match s.u.pair.lseqIn with
    | none => .seq take k
    | some e =>
      let ahead := (lseq.toNat + 2 ^ 32 - e) % 2 ^ 32
      if ahead = 0 then .seq take k
      else when (Nat.blt ahead (2 ^ 31) && !s.u.pair.asked) linkAsk)

/-! ### Pair states -/

/-- PSTATE takes a value; HEALTH_OK follows it (R476, R477). -/
def setPstate (n : Nat) : Act := .seq (setF PAIR_STATUS_PSTATE n) healthPin

/-- A change of the pair state waits for the boundary (R478). -/
def pairNext (n : Nat) : Act := pair fun p => { p with next := some n }

/-- SYNCING or SHADOW with the Tether lost and PAIR_ALIVE low becomes DETACHED (R478), and so does WAIT_CLAIM without a
Tether (R479). -/
def aliveHeld : Act := .read fun s =>
  when (!s.bit PAIR_STATUS_TETHER_OK && s.bit PAIR_STATUS_ALIVE_LOW && !(s.u.pair.next == some 6))
    (if s.pstate = 4 ∨ s.pstate = 5 then .seq (pairNext 6) (raise 107 [])
    else when (s.pstate == 3) (pairNext 6))

/-- The result of a pair command that was in progress. -/
def pairResult (n : Nat) : Act := .seq (setF PAIR_CMD_STAT_RESULT n) (setB PAIR_CMD_STAT_BUSY false)

/-- A planned switchover that has not begun is cancelled (R493). -/
def switchCancel (result : Nat) : Act := .read fun s =>
  match s.u.pair.switch with
  | none => .nop
  | some w => .seq (pair fun p => { p with switch := none }) (when w.cmd (pairResult result))

/-- The partner's Tether is declared lost (R474, R478). -/
def partnerLost : Act := .read fun s =>
  when (s.bit PAIR_STATUS_TETHER_OK)
    (all [setB PAIR_STATUS_TETHER_OK false,
      sat PAIR_LOST, faultClass 18,
      raise 98 [],
      pair fun p => { p with quiet := 0, helloed := false },
      when (s.pstate == 2) (.seq (pairNext 1) (switchCancel 3)),
      aliveHeld])

/-! ### Pairing (R487) -/

end Act

/-- What the unit tells of itself. -/
def State.hello (s : State) : Hello where
  chip := s.reg GEN_CHIP_ID
  fwVersion := s.reg BOOT_FW_VERSION
  cfgHash := BitVec.ofNat 256 s.u.boot.cfgHash
  kcv := (List.range 8).map fun n => BitVec.ofNat 64 (leValue (bytesOfNat (kcvOf (s.slot n).bytes)))
  roleA := s.bit PAIR_STATUS_ROLE_A

/-- The first field that refuses pairing, counted from 1 in the order R487 names them; 0 where pairing passes. -/
def helloDiffers (a b : Hello) : Nat :=
  if !(a.chip == b.chip) then 1
  else if !(a.fwVersion == b.fwVersion) then 2
  else if !(a.cfgHash == b.cfgHash) then 3
  else if !(a.kcv == b.kcv) then 4
  else if a.roleA == b.roleA then 5
  else 0

/-- The partner serves, as its last TETHER says. -/
def State.partnerServes (s : State) : Bool :=
  s.bit PAIR_STATUS_TETHER_OK && match s.u.pair.tether with
    | some t => t.pstate.val == 1 || t.pstate.val == 2
    | none => false

namespace Act

/-- HELLO is sent once in each attempt to pair. -/
def helloSend : Act := .read fun s =>
  when (s.bit PAIR_STATUS_LINK_UP && !s.u.pair.helloed)
    (.seq (pair fun p => { p with helloed := true }) (linkSend (.hello s.hello)))

/-- A unit in WAIT_CLAIM or DETACHED starts to pair with a partner that serves (R478, R487). -/
def helloStart : Act := .read fun s =>
  when ((s.pstate == 3 || s.pstate == 6) && s.partnerServes && !s.u.pair.barred && !s.u.pair.refused &&
      s.u.pair.retryAt.isNone && s.u.pair.selfTest == 0) helloSend

/-- A sync fails and starts again from HELLO after 10 s (R488). -/
def syncFail : Act := .read fun s =>
  .seq (pair fun p => { p with
      syncFrom := none
      syncAt := none
      helloed := false
      retryAt := some (s.u.bt.beat + 10000) })
    (raise 100 [])

/-- SYNCING begins (R487, R488): nothing is shadowed until bulk sync names a beat. -/
def syncEnter : Act := .read fun s =>
  all [setPstate 4,
    pair fun p => { p with
      recs := []
      own := []
      partner := []
      blockMiss := []
      arb := none
      outcome := none
      syncFrom := none
      syncAt := some s.u.bt.beat
      retryAt := none },
    setB PAIR_STATUS_ARBITRATING false,
    when (s.u.pair.selfTest == 0) helloSend]

/-! ### Planned switchovers (R493) -/

/-- A unit starts a planned switchover. How far past four beats H lies is open, and free. -/
def startSwitch (cause : Nat) (cmd : Bool) : Act := .read fun s =>
  when s.u.pair.switch.isNone (free fun m =>
    let h := s.u.bt.beat + 4 + m.toNat
    .seq (linkSend (.switch h))
      (pair fun p => { p with switch := some ⟨h, cause == 4, false, s.u.bt.beat, cmd, cause⟩ }))

/-- The dual-send window opens (R497). -/
def windowOpen : Act := .read fun s =>
  .seq (pair fun p => { p with window := s.fld PAIR_TIMING_DUALSEND }) (setB PAIR_STATUS_WINDOW true)

/-- The unit enters INCOMING (R478, R493, R494): TAKEOVER, or RECLAIM on Unit A. `l` is the first live beat. -/
def incoming (cause l : Nat) : Act := .read fun s =>
  all [pair fun p => { p with liveAt := none },
    setPstate 7,
    shift (if s.bit PAIR_STATUS_ROLE_A then .reclaim else .takeover) 14,
    windowOpen,
    sat PAIR_TAKEOVERS,
    raise 105 (leBytes 1 cause ++ leBytes 4 l)]

/-- A planned switchover reaches beat H (R493). HEALTH_OK of the incoming unit dips there (R476, revision A1). -/
def switchBegin (w : Switch) : Act :=
  if w.incoming then
    all [incoming (if w.cause = 4 then 4 else 1) (w.h + 1),
      pair fun p => { p with healthOk := false },
      when (w.cause == 4) (.seq (sat PAIR_RECLAIMS) (raise 106 []))]
  else
    all [setPstate 8, aliveRelease, windowOpen,
      pair fun p => { p with recs := [], lastRec := w.h - 1, execd := w.h - 1 },
      when w.cmd (pairResult 0)]

/-! ### The epoch (R392, R393) -/

/-- A confirmed epoch write commits (R392); in a pair the roll enters the record, and a unit that took control passes the
epoch mirrored last (R393). -/
def epochCommit : Act := .read fun s =>
  when (s.u.sec.roll == some true)
    (let old := s.epoch
    let new := max old s.u.sec.rollFrom + 1
    all [setF ⟨SEC_EPOCH, 0, 16⟩ new,
      sat SEC_ROLLS,
      sec fun x => { x with roll := none, rollFrom := 0 },
      setB SEC_STATUS_ROLL_PENDING false,
      setB SEC_STATUS_EPOCH_LOW (Nat.ble 0xFF00 new),
      raise 65 (leBytes 2 old ++ leBytes 2 new),
      recordInput 0x0F,
      logUpdate ([0x15] ++ leBytes 4 new)])

end Act

end Sys2Proof.Machine
end

