-- ==== Sys2Proof/Machine/Shadow.lean ====
section
/-!
DEFINITION. Machine/Shadow.lean: the digests of a beat and their comparison (R489, R490, R271), arbitration (R491, R492), and
the standby's execution of a beat from its partner's record (R481, R482).
-/

namespace Sys2Proof.Machine

open Sys2Proof Sys2Proof.Reg

/-! ### Digests (R489) -/

/-- A frame as the digests see it: a beacon's TIME_VALID, TIME_S, TIME_NS and link MIC count as zeros (R436). -/
def digestFrame (f : List Byte) : List Byte :=
  let p := parseMac f
  if p.typ == 3 then
    let flags := leAt f p.bodyAt 1
    patch (patch f p.bodyAt (leBytes 1 (flags - flags / 2 % 2 * 2) ++ List.replicate 10 0))
      (f.length - 4 - p.micBytes) (List.replicate p.micBytes 0)
  else f

/-- The transmit plan stream of the beat being executed: the plan of the next beat, then the beat's ACKs. -/
def State.planStream (s : State) : List Byte :=
  let es := s.u.sch.plan.filter fun e => Nat.ble s.planStart e.planned
  let ordered := sortOn (fun e : PlanEntry => e.port.idx) (sortOn (·.planned) (sortOn (·.chain) es))
  ordered.flatMap (fun e =>
    [0x01] ++ leBytes 1 e.port.idx ++ leBytes 1 e.chain ++ leBytes 1 e.decoder ++ leBytes 1 e.cls ++
    leBytes 4 (e.planned - s.planStart) ++ leBytes 4 (e.latest - s.planStart) ++ leBytes 2 e.length ++
    digestFrame (s.entryBytes e)) ++
  (sortOn (·.1) s.u.pair.acks).flatMap (·.2)

/-- The digest of a stream: 0 where it is empty. -/
def streamDigest (bs : List Byte) : Nat := if bs.isEmpty then 0 else (crc64 bs).toNat

/-- The digests of the beat being executed. -/
def State.digests (s : State) : DigestSet :=
  ⟨s.workBeat, [streamDigest s.planStream, streamDigest s.u.pair.uplink, streamDigest s.u.pair.log], s.u.fwd.digests⟩

/-- The table blocks of two sets that differ where blocks are compared (R271). -/
def State.blocksDiffer (s : State) (a b : DigestSet) : List Nat :=
  (List.range 4).filter fun t => s.bit (FWD_TBLn_CFG_SHADOW_EN t) && !(a.blocks.getD t 0 == b.blocks.getD t 0)

namespace Act

/-- A divergence of a beat (R490, R491): counted and raised with the streams, bit 3 for a table block; the arbitration
starts at the next boundary, unless one runs. -/
def diverge (beat mask : Nat) : Act := .read fun s =>
  let starts := (s.pstate == 2 || s.pstate == 5) && s.u.pair.arb.isNone && s.u.pair.outcome.isNone
  all [sat PAIR_MISMATCH,
    raise 102 (leBytes 1 mask ++ leBytes 4 beat),
    pair fun p => { p with
      divergences := p.divergences + 1
      lastDiv := beat
      holdRuns := false
      arb := if starts then some ⟨beat, none, none, s.u.bt.beat + 1⟩ else p.arb },
    when starts (setB PAIR_STATUS_ARBITRATING true)]

/-- A comparison that agrees ends a bulk sync on both units (R488). -/
def digestsAgree : Act := .read fun s =>
  let done := .seq (sat PAIR_SYNCS) (raise 99 [])
  if s.pstate == 4 then .seq (.seq (pairNext 5) (pair fun p => { p with syncAt := none })) done
  else when s.u.pair.syncing
    (all [pair fun p => { p with syncing := false, syncFrom := none },
      when (s.pstate == 1) (pairNext 2), done])

/-- A block differs for the first time (R271): the standby counts it, the active unit sends its entries. -/
def blockDiffers (t blk : Nat) : Act := .read fun s =>
  if s.records then linkSend (.block t blk ((List.range 1024).map fun i => s.entry t (1024 * blk + i)))
  else .seq (sat (FWD_TBLn_SHADOW t)) (raise 49 (leBytes 1 t ++ leBytes 1 blk))

/-- The digests of a beat are compared once both units' are held (R490). -/
def digestCompare (beat : Nat) : Act := .read fun s =>
  match s.u.pair.own.find? (fun d => d.beat == beat), s.u.pair.partner.find? (fun d => d.beat == beat) with
  | some a, some b =>
    let mask := ((List.range 3).filter fun i => !(a.streams.getD i 0 == b.streams.getD i 0)).foldl (fun n i => n + 2 ^ i) 0
    let blk := fun t => beat % tableBlocks t
    let bad := s.blocksDiffer a b
    let again := bad.filter fun t => s.u.pair.blockMiss.contains (t, blk t)
    let fresh := bad.filter fun t => !s.u.pair.blockMiss.contains (t, blk t)
    let kept := s.u.pair.blockMiss.filter fun m => !(m.2 == blk m.1)
    all [pair fun p => { p with
        own := p.own.filter fun d => Nat.blt beat d.beat
        partner := p.partner.filter fun d => Nat.blt beat d.beat
        compared := some (a, b)
        blockMiss := kept ++ fresh.map fun t => (t, blk t) },
      each fresh fun t => blockDiffers t (blk t),
      if mask = 0 ∧ again.isEmpty = true then digestsAgree
      else diverge beat (mask + if again.isEmpty then 0 else 8)]
  | _, _ => .nop

/-- The ACKs of a shadowed beat take the active unit's outcomes (R208); those whose frame starts before the commit window
opens are the beat's. -/
def shadowAcks : Act := .read fun s =>
  let gone := s.u.mac.acks.filter fun a => Nat.blt a.startNs (s.planStart - 50000)
  all [mac fun m => { m with acks := m.acks.filter fun a => !gone.contains a },
    each gone fun a => .read fun t =>
      match t.u.pair.ackDrops.find? fun x => x.1 == a.nsa with
      | some x => .seq (pair fun p => { p with ackDrops := p.ackDrops.erase x }) (ackDropped a x.2)
      | none => .seq (ackDigest a none)
          (dutyAdd a.chain.port a.chan a.rate (t.dutyNs a.chain.port a.rate a.bytes.length))]

/-- DIGEST_CLOSE (R489, R490) and the SEAL (R482), in the commit window. -/
def digestClose : Act := .read fun s =>
  .seq
    (when (s.records || s.shadows)
      (all [when (s.records && !(s.pstate == 1 && (s.u.pair.syncFrom.getD 0) > s.u.bt.beat)) (.seq (linkSend (.sealRecord s.u.pair.count))
          (pair fun p => { p with lastRec := s.u.bt.beat })),
        when s.shadows shadowAcks,
        .read fun t => .seq (linkSend (.digest t.digests.streams t.digests.blocks))
          (pair fun p => { p with own := p.own ++ [t.digests] }),
        digestCompare s.workBeat]))
    (pair fun p => { p with uplink := [], log := [], acks := [], count := p.countNext, countNext := 0 })

/-! ### Arbitration (R491, R492) -/

/-- A unit yields: the partner is told, and a second yield within 3,600 s bars it from pairing. -/
def yieldTo : Act := .read fun s =>
  let now := s.u.tk.s
  let recent := s.u.pair.yields.filter fun t => Nat.ble now (t + 3600)
  .seq (linkSend .yield)
    (pair fun p => { p with yields := recent ++ [now], barred := p.barred || !recent.isEmpty })

/-- The full self-test set starts (R500). -/
def fullSelfTest : Act := pair fun p => { p with selfTest := 20 }

/-- The standby leaves step and resyncs, or stays DETACHED where it is barred. -/
def standbyResync : Act := .read fun s => pairNext (if s.u.pair.barred then 6 else 4)

end Act

/-- The outcome of R492: 1 the standby yields, 2 the active yields, 3 both inconsistent, 4 equal scores. -/
def arbOutcome (active standby : Verdict) (activeScore standbyScore : Nat) : Nat :=
  match active, standby with
  | .inconsistent, .inconsistent => 3
  | .inconsistent, _ => 2
  | _, .inconsistent => 1
  | _, _ => if activeScore < standbyScore then 2 else if standbyScore < activeScore then 1 else 4

namespace Act

/-- Both ARB frames are held: the outcome waits for the boundary (R492). -/
def arbHeld : Act := .read fun s =>
  match s.u.pair.arb with
  | some ⟨_, some own, some other, _⟩ =>
    let n := if s.pstate == 2 then arbOutcome own.1 other.1 own.2 other.2 else arbOutcome other.1 own.1 other.2 own.2
    pair fun p => { p with outcome := some n }
  | _ => .nop

/-- This unit's verdict is sent. -/
def arbSend (v : Verdict) : Act := .read fun s =>
  match s.u.pair.arb with
  | some a => when (a.own.isNone)
      (all [pair fun p => { p with arb := some { a with own := some (v, s.score) } }, linkSend (.arb v s.score), arbHeld])
  | none => .nop

/-- The outcome is applied at the boundary (R492). -/
def arbApply : Act := .read fun s =>
  match s.u.pair.outcome with
  | none => .nop
  | some n =>
    let open_ := n == 3 || n == 4
    all [pair fun p => { p with outcome := none, arb := none },
      setB PAIR_STATUS_ARBITRATING false,
      sat PAIR_ARBITRATIONS,
      raise 103 (leBytes 1 n),
      when open_ (.seq (sat PAIR_UNRESOLVED) (raise 104 [])),
      when (s.pstate == 5)
        (if n = 2 then .nop
        else if n = 3 then standbyResync
        else all [yieldTo, fullSelfTest, standbyResync]),
      when (s.pstate == 2 && n == 2) (.seq yieldTo (startSwitch 2 false))]

end Act

/-! ### Receptions -/

/-- The first sample at or past an instant of device time, the inverse of `State.sampleNs`. -/
def State.nsSample (s : State) (t : Nat) : Nat :=
  let d : Int := (t : Int) - (s.u.bt.beat * 1000000 : Nat)
  ((s.u.bt.sample : Int) - (-(d * 12288)) / 100000).toNat

/-- A reception as the receive chain would hand it over. -/
def State.rxFrameOf (s : State) (x : AirRx) : RxFrame :=
  let rate := s.chRate x.decoder
  let stop := s.nsSample x.stopNs.toNat
  { id := s.u.rx.next, decoder := x.decoder, rate := rate, length := x.length.toNat, beacon := x.beacon,
    start := stop - Air.symbols rate x.length.toNat * symbol10 rate / 10, stop := stop, rssi := x.rssi.toInt,
    noise := x.noise.toInt, freq := x.freq.toInt, flags := x.flags.toNat, erased := x.erased.toNat,
    ended := true, settled := true, cws := [] }

/-- A reception matches one the unit already holds (R484): the same decoder, ENDs within 2 T + 2 µs, identical bits. -/
def State.matchesHeard (s : State) (x : AirRx) : Bool :=
  let near := 2 * symbolNs (s.chRate x.decoder) + 2000
  s.u.pair.heard.any fun h => h.1 == x.decoder.val && decide (h.2.2 = x.bytes) &&
    Nat.ble h.2.1 (x.stopNs.toNat + near) && Nat.ble x.stopNs.toNat (h.2.1 + near)

/-- The frame end of an entry keyed at an instant. -/
def State.frameStop (s : State) (e : PlanEntry) (start : Nat) : Nat := start + Air.airtimeNs (s.chRate e.decoder) e.length

namespace Act

/-- A reception joins those the MAC unit takes, bound to a beat. -/
def rxIn (x : AirRx) (beat : Nat) : Act := .read fun s =>
  .seq (rx fun y => { y with
      next := y.next + 1
      handoff := y.handoff ++ [⟨s.rxFrameOf x, rxOk, beat, Air.bitsLsb x.bytes⟩] })
    (pair fun p => { p with heard := p.heard ++ [(x.decoder.val, x.stopNs.toNat, x.bytes)] })

/-! ### The entries of a record (R482) -/

/-- A frame of a shadowed beat counts as sent: airtime, and what follows the frame's end (R144, R209). -/
def shadowSent (e : PlanEntry) (stop : Nat) : Act := .read fun s =>
  let bs := s.entryBytes e
  let k := s.fld (RXD_CHn_CFG_CHANNEL e.decoder)
  let rate := s.chRate e.decoder
  let d : TxCmd := { what := .entry e, phase := .frame, due := true, cca := false, nb := 0, be := 0, bytes := bs,
                     xNs := none, rampNs := none, recal := false, req := false, granted := false }
  all [sch fun x => { x with plan := x.plan.erase e },
    when ((parseMac bs).typ == 3) (beaconGone e),
    dutyAdd e.port k rate (s.dutyNs e.port rate e.length),
    frameSent d e stop]

/-- A CCA outcome of the active unit and the backoff it drew (R201–R203). -/
def shadowCca (c : Chain) (idle : Bool) (stop draw : Nat) : Act := .read fun s =>
  match s.u.sch.plan.find? fun e => decide (e.port = c.port) && e.chain == c.n && Nat.blt e.planned s.planStart with
  | none => .nop
  | some e =>
    let rate := s.chRate e.decoder
    let d := s.deferredOf e.queue e.start
    let nb := (d.map (·.nb)).getD 0
    let be := (d.map (·.be)).getD (s.fld MAC_BACKOFF_BE_MIN)
    let wait := draw % 2 ^ be * s.fld MAC_BACKOFF_UNIT_US * 1000
    let be' := min (be + 1) (s.fld MAC_BACKOFF_BE_MAX)
    let off := sch fun x => { x with plan := x.plan.erase e }
    if idle then shadowSent e (s.frameStop e (max e.planned (stop + s.preNs c.port rate)))
    else if s.fld MAC_BACKOFF_MAX_CCA ≤ nb + 1 then
      .seq off (if (parseMac (s.entryBytes e)).typ == 3 then .seq (entryDone e) (beaconGone e)
        else attemptFailed e draw stop)
    else if stop + wait + 128000 + s.preNs c.port rate ≤ e.latest then
      mac fun m => { m with deferred :=
        (m.deferred.filter fun d => !(d.queue == e.queue && d.start == e.start)) ++
          [⟨e.queue, e.start, nb + 1, be', stop + wait⟩] }
    else .seq off (entryDefer e (nb + 1) be' (stop + wait))

/-- The frames of a shadowed beat for which the record holds no outcome: sent where the port does not listen before it
talks, back to their queues otherwise. -/
def shadowPlan : Act := .read fun s =>
  each (s.u.sch.plan.filter fun e => Nat.blt e.planned s.planStart) fun e =>
    if s.bit (MAC_CCA_x_LBT_EN e.port) then .seq (sch fun x => { x with plan := x.plan.erase e }) (entryBack e)
    else shadowSent e (s.frameStop e e.planned)

/-- A queue's HEAD as it stood on the active unit at the boundary: HEAD, MARK and RPTR take it (R309), and HEAD_B is it
(R303). -/
def shadowHead (n : Nat) (v : Word) : Act := .read fun s =>
  let q := s.queue n
  let k := q.off v
  let gone := q.packets.filter fun p => Nat.ble (q.off (BitVec.ofNat 32 p.stop)) k
  let f := fun (p : PacketInfo) =>
    match q.consumer with
    | 5 | 6 => match (List.range 8).find? fun c => s.classQueue (q.consumer - 5) c == some n with
      | some c => forgetPacket (q.consumer - 5) c p.start
      | none => .nop
    | 7 | 8 => match s.flowOf (if q.consumer = 7 then .s else .w) n with
      | some c => forgetPacket (q.consumer - 5) c p.start
      | none => .nop
    | _ => .nop
  when (Nat.ble 5 q.consumer && Nat.ble q.consumer 8 && Nat.ble k q.depth)
    (all [each gone f,
      queue n fun x => ({ x with head := v, mark := v, rptr := v, headB := v, words := x.words.drop k } : Queue).forget,
      when (Nat.blt 0 k) (queueLog n 6),
      queueDone n])

/-- A host command of the record: journaled and carried out here, completed on the unit that took it (R482, R483). -/
def shadowHost (i : HostIface) (index : Nat) (bs : List Byte) : Act := .read fun s =>
  journalNew ⟨0, leAt bs 0 2, leAt bs 4 4, index, s.workBeat, (bs.drop 8).take (min (leAt bs 2 1) 56), i, true⟩

/-- An uplink selection of the active unit (R338): V, finish times and credit move on here as there. -/
def shadowSelect (p c : Nat) : Act := .read fun s =>
  match s.flowHead p c with
  | none => .nop
  | some h => uplinkPick p c (((s.flow p c).stampOf h.start).getD 0) h fun _ => .nop

/-- One entry is applied. -/
def recordEntry (x : RecEntry) : Act := .read fun s =>
  match x with
  | .air r => rxIn r s.workBeat
  | .diversity r => rxIn r s.workBeat
  | .ple port h mac vid m => match s.ingressQueue port.idx with
    | some q => pleApply port.idx q mac.toNat vid.toNat h s.workBeat m
    | none => .nop
  | .host i index bs => shadowHost i index bs
  | .timer gt => bt fun b => { b with timers := b.timers ++ [(gt.val, s.workBeat)] }
  | .pollMiss n => pollMiss n.toNat
  | .late pe slot => bt fun b => { b with late := b.late ++ [(pe.val, slot.val)] }
  | .lateFrame d stop e2e => pair fun p => { p with lateFrames := p.lateFrames ++ [(d.val, stop.toNat, e2e)] }
  | .ackDrop n why => pair fun p => { p with ackDrops := p.ackDrops ++ [(n.toNat, why.val)] }
  | .cca c idle stop draw => shadowCca c idle stop.toNat draw
  | .swept t key => tableDelete t key.toNat none fun _ _ _ _ => .nop
  | .envFail a => when (Nat.ble s.dirBase a.toNat && Nat.blt a.toNat (s.dirBase + 2 ^ 28))
      (env fun e => { e with deadRecords := e.deadRecords ++ [(a.toNat - s.dirBase) / 256] })
  | .selected port c => shadowSelect port.idx c
  | .policed c colour => pair fun p => { p with colours := p.colours ++ [(c.val, colour.val)] }
  | .credit c v => sch fun y => { y with credit := y.credit.setD c.val 0 v.toInt }
  | .chainState c st k => pair fun p => { p with
      chains := (p.chains.filter fun y => !(y.1 == c.idx)) ++ [(c.idx, st.val, k.toNat)] }
  | .head q v => shadowHead q v
  | .trace on _ => traceSet on
  | .epochRoll e =>
    all [setF ⟨SEC_EPOCH, 0, 16⟩ e.toNat,
      boot fun b => { b with flash := b.flash.addEpoch (fieldOf (s.reg SEC_EPOCH) 16 16) e.toNat },
      sat SEC_ROLLS,
      sec fun x => { x with roll := none },
      setB SEC_STATUS_ROLL_PENDING false,
      setB SEC_STATUS_EPOCH_LOW (Nat.ble 0xFF00 e.toNat),
      logUpdate ([0x15] ++ leBytes 4 e.toNat)]
  | .loopback _ => .nop

end Act

/-- HEADs and swept keys come before every operation of the beat (R266, R309). -/
def entryFirst : RecEntry → Bool
  | .head .. => true
  | .swept .. => true
  | _ => false

namespace Act

/-- A shadowed beat starts from its sealed record (R481). -/
def shadowBeat (r : InRecord) : Act :=
  all [pair fun p => { p with
      execd := r.beat
      ackDrops := []
      colours := []
      lateFrames := []
      recs := p.recs.filter fun q => Nat.blt r.beat q.beat },
    bt fun b => { b with late := [] },
    each ((r.entries.filter entryFirst) ++ r.entries.filter fun x => !entryFirst x) recordEntry,
    shadowPlan]

/-- SHADOW_BEAT_START (R481): at the boundary where the record is sealed, else when its SEAL comes; a missing one is asked
for. -/
def shadowStart : Act := .read fun s =>
  when (s.shadows && Nat.blt s.u.pair.execd s.workBeat)
    (match s.u.pair.recs.find? fun r => r.beat == s.workBeat && r.closed with
    | some r => shadowBeat r
    | none => linkAsk)

/-- The inputs of records never sealed, bound to the first live beat (R494); a reception the unit holds itself is dropped
(R484). -/
def leftoverEntry (x : RecEntry) : Act := .read fun s =>
  match x with
  | .air r => when (!s.matchesHeard r) (.seq (rxIn r s.u.bt.beat) (recordInput 1))
  | .diversity r => when (!s.matchesHeard r) (.seq (rxIn r s.u.bt.beat) (recordInput 2))
  | .ple .. => .seq (recordInput 3) (recordEntry x)
  | .host .. => recordEntry x
  | .timer _ => .seq (recordEntry x) (recordInput 5)
  | .pollMiss _ => .seq (recordEntry x) (recordInput 5)
  | .trace .. => recordEntry x
  | _ => .nop

/-- The first live beat of a unit that took control (R493, R494): the epoch roll commits, what arrived in void beats is
bound here, and the first plan is that of beat L + 1 + e. `k` is the last beat executed. -/
def liveBegin (k : Nat) : Act := .read fun s =>
  let l := s.u.bt.beat
  let own := s.u.pair.kept.filter fun r => Nat.ble ((k + 1) * 1000000) r.stopNs.toNat
  all [epochCommit,
    pair fun p => { p with
      liveAt := some l
      silentTo := l + 1 + s.fld PAIR_TIMING_SILENCE_EXTRA
      kept := [] },
    each own fun r => .seq (rxIn r l) (recordInput 1),
    rx fun x => { x with handoff := x.handoff.map fun d => { d with beat := max d.beat l } },
    mac fun m => { m with frames := m.frames.map fun f => { f with beat := max f.beat l } },
    each (s.u.pair.recs.flatMap (·.entries)) leftoverEntry,
    pair fun p => { p with recs := [] }]

end Act

end Sys2Proof.Machine
end

