-- ==== Sys2Proof/Machine/Sync.lean ====
section
/-!
DEFINITION. Machine/Sync.lean: bulk sync (R480, R488): what the serving unit sends, and what the joining unit does with it.
The dirty-block schedule of R488 is left out: everything goes in the commit window that names beat f (log 57).
-/

namespace Sys2Proof.Machine

open Sys2Proof Sys2Proof.Reg

/-! ### What is sent -/

/-- The spans of the Envelope that are shadowed, queue words apart (R480): base and bytes. -/
def State.shadowedSpans (s : State) : List (Nat × Nat) :=
  [(s.dirBase, 2 ^ 28),
   (s.fld ⟨ENV_REGr_BASE 2, 0, 12⟩ * 2 ^ 20, s.fld ⟨ENV_REGr_SIZE 2, 0, 13⟩ * 2 ^ 20),
   ((s.reg HIF_JRN_BASE).toNat, 64 * 65536),
   (s.campTable, 2048),
   (s.poolBase, 1088 * s.poolCount)]

/-- The 64 KiB blocks of a span that hold anything. -/
def State.spanBlocks (s : State) (p : Nat × Nat) : List BulkItem :=
  let inside := (s.mem.filter fun c => Nat.ble p.1 c.1 && Nat.blt c.1 (p.1 + p.2)).map fun c => (c.1 - p.1) / 65536
  (nodup inside).map fun i =>
    .block (BitVec.ofNat 32 (p.1 + 65536 * i)) (s.bytes (p.1 + 65536 * i) (min 65536 (p.2 - 65536 * i)))

/-- The 1,024-entry blocks of the tables that hold anything. -/
def State.tableBlockItems (s : State) : List BulkItem :=
  let blocks := nodup (s.u.fwd.tables.map fun e => e.1 / 1024)
  blocks.map fun b => .table (Fin.ofNat 4 (b / 256)) (BitVec.ofNat 8 (b % 256))
    ((List.range 1024).map fun i => s.entry (b / 256) (1024 * (b % 256) + i))

def packetOut (p : PacketInfo) : PacketIn where
  start := BitVec.ofNat 32 p.start
  stop := BitVec.ofNat 32 p.stop
  beat := BitVec.ofNat 58 p.beat
  acct := BitVec.ofNat 16 p.acct
  colour := Fin.ofNat 3 p.colour
  decoder := p.decoder.map (Fin.ofNat 80)
  cls := Fin.ofNat 4 p.cls
  length := Fin.ofNat 1025 p.length
  retries := BitVec.ofNat 8 p.retries
  headend := p.headend.map (Fin.ofNat 16)

def planOut (e : PlanEntry) : PlanIn where
  chain := chainOf e.port e.chain
  queue := e.queue.map (Fin.ofNat 4096)
  start := BitVec.ofNat 32 e.start
  nsa := BitVec.ofNat 24 e.nsa
  decoder := Fin.ofNat 80 e.decoder
  cls := Fin.ofNat 4 e.cls
  length := Fin.ofNat 1025 e.length
  x := BitVec.ofNat 64 e.x
  planned := BitVec.ofNat 64 e.planned
  latest := BitVec.ofNat 64 e.latest

def planIn (e : PlanIn) : PlanEntry where
  port := e.chain.port
  chain := e.chain.n
  queue := e.queue.map (·.val)
  start := e.start.toNat
  nsa := e.nsa.toNat
  decoder := e.decoder
  cls := e.cls
  length := e.length
  x := e.x.toNat
  planned := e.planned.toNat
  latest := e.latest.toNat

/-- The queues in use: pointers, words and packets. -/
def State.queueItems (s : State) : List BulkItem :=
  (s.u.env.queues.filter fun e => !(e.2.producer == 0)).map fun e =>
    .queue (Fin.ofNat 4096 e.1) e.2.head e.2.tail
      ((e.2.words.take (e.2.off e.2.cptr)).map fun w => (w.data, BitVec.ofNat 8 w.tag)) (e.2.packets.map packetOut)

/-- The scheduler's state. -/
def State.schedItems (s : State) : List BulkItem :=
  (List.range 4).map (fun d => .virt (Fin.ofNat 4 d) (BitVec.ofNat 48 (s.virt d))) ++
  s.u.sch.flows.map (fun e => .flow (Fin.ofNat 4 (e.1 / 64)) (Fin.ofNat 64 e.1) (BitVec.ofNat 48 e.2.fLast)
    (e.2.stamps.map fun x => (BitVec.ofNat 32 x.1, BitVec.ofNat 48 x.2)) (e.2.selected.map (BitVec.ofNat 32))
    (e.2.finished.map (BitVec.ofNat 32))) ++
  (List.range 16).map (fun k => .credit (Fin.ofNat 16 k) (BitVec.ofInt 48 (s.credit k))) ++
  (List.range 16).map (fun k => .buckets (Fin.ofNat 16 k) (BitVec.ofNat 32 (s.u.sch.tc.getD k 0))
    (BitVec.ofNat 32 (s.u.sch.tp.getD k 0))) ++
  s.u.sch.plan.map fun e => .plan (planOut e)

/-- Duty usage and the sequence numbers of each headend. -/
def State.usageItems (s : State) : List BulkItem :=
  [RfPort.s, .w].flatMap (fun p => (s.u.rf.port p).duty.map fun e => .duty p (Fin.ofNat 16 e.1) (BitVec.ofNat 32 e.2.beats)
    (e.2.buckets.map (BitVec.ofNat 40))) ++
  (List.range 16).map (fun h => .rseq (Fin.ofNat 16 h) (BitVec.ofNat 16 (s.u.eth.rseq.getD h 0))) ++
  (List.range 16).map fun h => .uplinkSeq (Fin.ofNat 16 h) (BitVec.ofNat 32 (s.u.fwd.seqs.getD h 0))

/-- The MAC unit's state. -/
def State.macItems (s : State) : List BulkItem :=
  let m := s.u.mac
  [.pool (m.poolUsed.map (BitVec.ofNat 20))] ++
  m.bridle.map (fun b => .bridle (BitVec.ofNat 8 b.code) (BitVec.ofNat 24 b.subject) (BitVec.ofNat 32 b.count)
    (BitVec.ofNat 24 b.first) (BitVec.ofNat 58 b.firstBeat) (BitVec.ofNat 58 b.lastBeat)
    (BitVec.ofNat 64 (leValue b.detail)) (BitVec.ofNat 32 b.window)) ++
  m.listens.map (fun l => .listen (BitVec.ofNat 24 l.nsa) (BitVec.ofNat 64 l.openNs) (BitVec.ofNat 64 l.closeNs) l.opened
    (BitVec.ofNat 16 l.listenMs) (Fin.ofNat 80 l.decoder)) ++
  m.deferred.map (fun d => .deferred (d.queue.map (Fin.ofNat 4096)) (BitVec.ofNat 32 d.start) (BitVec.ofNat 8 d.nb)
    (BitVec.ofNat 8 d.be) (BitVec.ofNat 64 d.stopNs)) ++
  m.waits.map (fun w => .wait (planOut w.entry) (BitVec.ofNat 8 w.chan) (Fin.ofNat 4 w.rate) (BitVec.ofNat 32 w.ctr)
    w.mic2 (BitVec.ofNat 64 w.stopNs)) ++
  m.beacons.map (fun b => .beacon (Fin.ofNat 80 b.decoder) (BitVec.ofNat 58 b.nominal) (Fin.ofNat 4096 b.queue)
    (BitVec.ofNat 32 b.start)) ++
  m.admitting.map (fun j => .admitting (BitVec.ofNat 64 j.eui) (BitVec.ofNat 24 j.relay) j.mesh (BitVec.ofNat 24 j.origin)
    j.port (Fin.ofNat 80 j.decoder) (BitVec.ofNat 58 j.beat)) ++
  m.joined.map fun d => .joined (BitVec.ofNat 64 d.eui) (BitVec.ofNat 24 d.nsa) (BitVec.ofNat 24 d.parent)
    (BitVec.ofNat 16 d.period) (BitVec.ofNat 48 d.seconds)

/-- Everything but the keys, in the order of R488. -/
def State.bulkItems (s : State) (f : Nat) : List BulkItem :=
  [.epoch (BitVec.ofNat 16 s.epoch), .counters (s.reg SEC_TXCTR_BCAST) (s.reg SEC_TXCTR_JOIN)] ++
  s.shadowedSpans.flatMap s.spanBlocks ++ s.tableBlockItems ++ s.queueItems ++ s.schedItems ++ s.usageItems ++
  s.macItems ++
  [.journal (BitVec.ofNat 32 s.u.hif.journalNext) (BitVec.ofNat 32 s.u.hif.journalOldest), .start (BitVec.ofNat 32 f)]

namespace Act

/-- Bulk sync (R488): in the commit window of beat f − 1 the serving unit sends the shadowed state and names f, once its
partner runs; what it has received for f already enters the record. -/
def bulkSend : Act := .read fun s =>
  let f := s.u.bt.beat + 1
  let near := match s.u.pair.tether with
    | some t => Nat.ble (s.nearBeat t.beat.toNat) f && Nat.ble s.u.bt.beat (s.nearBeat t.beat.toNat + 1)
    | none => false
  when (s.u.pair.syncing && s.u.pair.syncFrom.isNone && near && (s.pstate == 1 || s.pstate == 2))
    (all [linkSend (.bulk .begin),
      each ((s.u.sec.slots.filter fun e => decide (e.2.state = .valid) && !(e.2.parent == 0xFFFF)).map Prod.fst)
        fun n => wrapToPartner (Fin.ofNat 1024 n),
      each (s.bulkItems f) fun i => linkSend (.bulk i),
      pair fun p => { p with syncFrom := some f },
      each (s.u.rx.handoff.filter fun d => Nat.ble f d.beat) fun _ => recordInput 1])

/-! ### What is received -/

/-- The joining unit forgets its own shadowed state before the copy. -/
def bulkBegin : Act := .read fun s =>
  all [each s.shadowedSpans fun p => .zero p.1 p.2,
    fwd fun x => { x with tables := [], seqs := [], swept := [], expired := [], resync := [] },
    each (List.range 4) tableCount,
    sch fun x => { x with v := [], flows := [], credit := [], tc := [], tp := [], plan := [], cands := [], pendCands := [] },
    mac fun m => { m with
      frames := []
      waits := []
      acks := []
      deferred := []
      listens := []
      poolUsed := []
      beacons := []
      joins := []
      admitting := []
      joined := []
      bridle := [] },
    bridleFollow,
    rx fun x => { x with handoff := [] },
    rf fun r => { r with s := { r.s with duty := [] }, w := { r.w with duty := [] } },
    eth fun e => { e with rseq := [] },
    hif fun h => { h with cmds := h.cmds.filter fun c => !c.mirrored },
    pair fun p => { p with uplink := [], log := [], acks := [] }]

/-- A queue takes its partner's pointers, words and packets; its pages are its own (R299). -/
def bulkQueue (n : Nat) (head tail : Word) (words : List (BitVec 64 × BitVec 8)) (packets : List PacketIn) : Act :=
  let ws := words.map fun w =>
    let q := QWord.of w.1 w.2.toNat false
    { q with par := q.rightPar }
  let ps : List PacketInfo := packets.map fun p =>
    ⟨p.start.toNat, p.stop.toNat, p.beat.toNat, p.acct.toNat, p.colour, p.decoder.map (·.val), p.cls, p.length,
      p.retries.toNat, p.headend.map (·.val), none⟩
  let top := head + BitVec.ofNat 32 ws.length
  .seq (queue n fun q => { q with
      head := head
      mark := head
      rptr := head
      tail := tail
      cptr := top
      wptr := top
      words := ws
      packets := ps
      openBy := none
      discarding := false
      skipping := false
      headB := head
      changed := true })
    (queueDone n)

/-- A key arrives wrapped under PAIR_WRAP (R378, R488). -/
def bulkSlot (n attr parent gen : Nat) (blob : List Byte) : Act := .read fun s =>
  when (s.bit SEC_ROOTMAP_PAIR_WRAP_EN) <|
  fetchSlot (s.fld SEC_ROOTMAP_PAIR_WRAP) 5 false (sat SEC_INVALID_KEY) fun kek =>
    match Crypto.kwUnwrap kek (natBytes (blob.take (if Nat.testBit attr 6 then 40 else 24))) with
    | none => .seq (sat SEC_UNWRAP_FAILS) (raise 70 (leBytes 2 n))
    | some key =>
      let k : KeySlot := ⟨leValue (bytesOfNat key), attr, parent, gen, 0, .valid⟩
      let k := match s.u.sec.integrity with
        | some i => { k with tag := tagOfSlot i n k }
        | none => k
      all [putSlot n k, dropCached n, slotsValid,
        when (k.has 7) (boot fun b => { b with flash := b.flash.writeKey n k })]

/-- One item of the copy is applied. -/
def bulkItem (x : BulkItem) : Act := .read fun s =>
  match x with
  | .begin => bulkBegin
  | .slot n attr parent gen blob => bulkSlot n attr.toNat parent.toNat gen.toNat blob
  | .epoch e =>
    all [setF ⟨SEC_EPOCH, 0, 16⟩ e.toNat,
      boot fun b => { b with flash := b.flash.addEpoch (fieldOf (s.reg SEC_EPOCH) 16 16) e.toNat },
      sec fun y => { y with rollFrom := max y.rollFrom s.epoch, roll := none },
      setB SEC_STATUS_ROLL_PENDING false,
      setB SEC_STATUS_EPOCH_LOW (Nat.ble 0xFF00 e.toNat)]
  | .counters b j => .seq (.reg SEC_TXCTR_BCAST b) (.reg SEC_TXCTR_JOIN j)
  | .block a bs => memBytes a.toNat bs
  | .table n blk es => .seq (each es.zipIdx fun e => Act.entry n.val (1024 * blk.toNat + e.2) e.1) (tableCount n.val)
  | .queue n head tail words packets => bulkQueue n head tail words packets
  | .virt d v => sch fun y => { y with v := y.v.setD d.val 0 v.toNat }
  | .flow d f last stamps selected finished => flow d f fun w => { w with
      fLast := last.toNat
      stamps := stamps.map fun e => (e.1.toNat, e.2.toNat)
      selected := selected.map (·.toNat)
      finished := finished.map (·.toNat) }
  | .plan e => planAdd (planIn e)
  | .credit k c => sch fun y => { y with credit := y.credit.setD k.val 0 c.toInt }
  | .buckets k tc tp => sch fun y => { y with tc := y.tc.setD k.val 0 tc.toNat, tp := y.tp.setD k.val 0 tp.toNat }
  | .duty p r beats bs => dutySet p r { s.dutyRegion p r with buckets := bs.map (·.toNat), beats := beats.toNat }
  | .rseq h n => eth fun e => { e with rseq := e.rseq.setD h.val 0 n.toNat }
  | .uplinkSeq h n => fwd fun y => { y with seqs := y.seqs.setD h.val 0 n.toNat }
  | .pool used => mac fun m => { m with poolUsed := used.map (·.toNat) }
  | .bridle code subject count first fb lb detail window => .seq (mac fun m => { m with bridle := m.bridle ++
      [⟨code.toNat, subject.toNat, count.toNat, first.toNat, fb.toNat, lb.toNat, leBytes 8 detail.toNat,
        window.toNat⟩] }) bridleFollow
  | .listen nsa o c opened ms d => mac fun m => { m with listens := m.listens ++
      [⟨nsa.toNat, o.toNat, c.toNat, opened, ms.toNat, d.val, [], false, [], false⟩] }
  | .deferred q start nb be stop => mac fun m => { m with deferred := m.deferred ++
      [⟨q.map (·.val), start.toNat, nb.toNat, be.toNat, stop.toNat⟩] }
  | .wait e k rate ctr mic stop => mac fun m => { m with waits := m.waits ++
      [⟨planIn e, k.toNat, rate, ctr.toNat, mic, stop.toNat⟩] }
  | .beacon d nominal q start => mac fun m => { m with beacons := m.beacons ++ [⟨d, nominal.toNat, q, start.toNat⟩] }
  | .admitting eui relay mesh origin port d beat => mac fun m => { m with admitting := m.admitting ++
      [⟨eui.toNat, relay.toNat, mesh, origin.toNat, 0, port, d, beat.toNat⟩] }
  | .joined eui nsa parent period sec => mac fun m => { m with joined := m.joined ++
      [⟨eui.toNat, nsa.toNat, parent.toNat, period.toNat, sec.toNat⟩] }
  | .journal next oldest => hif fun h => { h with journalNext := next.toNat, journalOldest := oldest.toNat }
  | .start b => pair fun p => { p with
      syncFrom := some (s.nearBeat b.toNat)
      execd := s.nearBeat b.toNat - 1
      recs := p.recs.filter fun r => Nat.ble (s.nearBeat b.toNat) r.beat }

end Act

end Sys2Proof.Machine
end

