-- ==== Sys2Proof/Machine/PairBeat.lean ====
section
/-!
DEFINITION. Machine/PairBeat.lean: what a pair does at a beat boundary and in the commit window: staged pair states (R478),
switchovers and takeovers (R493–R497), the health margin and the reclaim hold (R498, R499), TIME frames (R486).
-/

namespace Sys2Proof.Machine

open Sys2Proof Sys2Proof.Reg

/-- The plan committed now is empty for a switchover (R493, R496): for H and the silent beats after it, and for a takeover's
silent beats. -/
def State.planSilent (s : State) : Bool :=
  let n := s.workBeat + 1
  match s.u.pair.switch with
  | some w => w.acked && Nat.ble w.h n && Nat.blt n (w.h + 2 + s.fld PAIR_TIMING_SILENCE_EXTRA)
  | none => s.pstate == 7 && Nat.blt n s.u.pair.silentTo

/-- The partner is there to shadow a unit whose window ends (R478): it shadows, or is about to. -/
def State.partnerShadows (s : State) : Bool :=
  s.bit PAIR_STATUS_TETHER_OK && match s.u.pair.tether with
    | some t => t.pstate.val == 5 || t.pstate.val == 8
    | none => false

/-- The first beat that may be live after beat k was executed (R493, R494). -/
def State.liveFrom (s : State) : Nat :=
  match s.u.pair.takeover, s.u.pair.switch with
  | some k, _ => k + 2
  | none, some w => w.h + 1
  | none, none => 0

/-- The last beat this unit executed as a shadow before it took control. -/
def State.lastShadowed (s : State) : Nat :=
  match s.u.pair.takeover, s.u.pair.switch with
  | some k, _ => k
  | none, some w => w.h - 1
  | none, none => 0

namespace Act

/-- A takeover begins at the boundary after D (R494). Its first live beat is this one where the epoch write is confirmed,
else the next (R495). -/
def takeoverBegin : Act := .read fun s =>
  let b := s.u.bt.beat
  let l := max s.liveFrom (if s.u.sec.roll == some true then b else b + 1)
  .seq (incoming (if s.pstate = 6 then 3 else 2) l) (setB PAIR_STATUS_ALIVE_DRV true)

/-- A staged pair state takes effect (R25, R477, R478). -/
def pairEnter (n : Nat) : Act := .read fun s =>
  let old := s.pstate
  match n with
  | 1 => .seq (setPstate 1) (shift .solo (if old = 2 then 12 else if old = 7 then 15 else 13))
  | 2 => .seq (setPstate 2) (shift .active (if old = 7 then 15 else 11))
  | 4 => syncEnter
  | 5 => setPstate 5
  | 6 => .seq (setPstate 6) (pair fun p => { p with recs := [], syncFrom := none, syncAt := none })
  | 7 => takeoverBegin
  | _ => .nop

/-- The staged state, where one waits. -/
def pairStaged : Act := .read fun s =>
  match s.u.pair.next with
  | none => .nop
  | some n => .seq (pair fun p => { p with next := none }) (pairEnter n)

/-- One beat of the dual-send window passes; at its end INCOMING becomes LEAD or ALONE, and OUTGOING becomes SHADOW, or
resyncs where it yielded (R478, R492, R497). -/
def windowTick : Act := .read fun s =>
  let left := s.u.pair.window - 1
  let done := .seq (setB PAIR_STATUS_WINDOW false)
    (pair fun p => { p with switch := none, takeover := none, window := 0 })
  let yielded := match s.u.pair.switch with
    | some w => w.cause == 2
    | none => false
  .seq (pair fun p => { p with window := left })
    (if left = 0 ∧ s.pstate = 7 ∧ s.live = true then .seq done (pairEnter (if s.partnerShadows then 2 else 1))
    else if left = 0 ∧ s.pstate = 8 then
      all [done,
        setPstate (if yielded && s.u.pair.barred then 6 else if yielded then 4 else 5),
        shift .standby 16,
        when (yielded && !s.u.pair.barred) syncEnter]
    else .nop)

/-- A planned switchover whose beat H starts here (R493). -/
def switchStart : Act := .read fun s =>
  match s.u.pair.switch with
  | none => .nop
  | some w => when (w.acked && w.h == s.u.bt.beat && (s.pstate == 5 || s.pstate == 2))
      (.seq (switchBegin w) (when (!w.incoming && w.cause == 2) fullSelfTest))

/-- The first live beat starts where nothing holds it up (R494). -/
def liveStart : Act := .read fun s =>
  when (s.pstate == 7 && s.u.pair.liveAt.isNone && s.u.sec.roll == some true && Nat.ble s.liveFrom s.u.bt.beat)
    (liveBegin s.lastShadowed)

/-- The serving unit's score trails its partner's for SWITCH_HOLD beats (R499). -/
def marginRule : Act := .read fun s =>
  let m := s.fld PAIR_HEALTH_CFG_SWITCH_MARGIN
  let theirs := s.fld ⟨PAIR_SCORE, 8, 8⟩
  let run := s.u.pair.marginRun + 1
  if s.pstate = 2 ∧ m ≠ 0 ∧ s.bit PAIR_STATUS_TETHER_OK = true ∧ s.score + m ≤ theirs then
    if s.fld PAIR_HEALTH_CFG_SWITCH_HOLD ≤ run then
      .seq (pair fun p => { p with marginRun := 0 }) (startSwitch 3 false)
    else pair fun p => { p with marginRun := run }
  else pair fun p => { p with marginRun := 0 }

/-- The full self-test set of R492 runs for 20 beats, and pairing goes on after it. -/
def selfTestTick : Act := .read fun s =>
  when (Nat.blt 0 s.u.pair.selfTest)
    (.seq (pair fun p => { p with selfTest := p.selfTest - 1 })
      (when (s.u.pair.selfTest == 1 && s.pstate == 4) helloSend))

/-- TIME_FRAME_SEND (R486). -/
def timeFrame : Act := .read fun s =>
  when (s.bit PAIR_STATUS_LINK_UP) (.seq (linkSend .time) (pair fun p => { p with timeSent := some s.u.tk.ns }))

/-- What the link and the comparison keep is of the last four beats (R472, R491). -/
def pairTrim : Act := .read fun s =>
  let b := s.u.bt.beat
  pair fun p => { p with
    out := p.out.filter fun f => Nat.ble b (f.beat + 4)
    own := p.own.filter fun d => Nat.ble b (d.beat + 4)
    partner := p.partner.filter fun d => Nat.ble b (d.beat + 4)
    heard := p.heard.filter fun h => Nat.ble (b * 1000000) (h.2.1 + 4000000)
    kept := p.kept.filter fun r => Nat.ble (b * 1000000) (r.stopNs.toNat + 4000000) }

/-- The pair at a boundary, the new beat's number already in force. -/
def pairBoundary : Act := .read fun s =>
  when (s.bit GEN_MODE_PAIR_CFG)
    (all [pairTrim,
      arbApply,
      windowTick,
      when (s.pstate == 3) aliveHeld,
      pairStaged,
      switchStart,
      liveStart,
      .read fun t => when (!(t.pstate == 4) && !(t.pstate == 5) && !(t.pstate == 8) && t.live) epochCommit])

/-- The rest of it, once the queues stand as the boundary leaves them: a shadowed beat starts from its record (R309). -/
def pairAfter : Act := .read fun s =>
  when (s.bit GEN_MODE_PAIR_CFG)
    (all [shadowStart,
      selfTestTick,
      marginRule,
      timeFrame,
      .read fun t => setB PAIR_STATUS_SILENT (t.planSilent || (t.pstate == 7 && !t.live))])

/-- The good health a reclaim asks for (R498). -/
def holdGood (s : State) : Bool :=
  s.pstate == 5 && s.bit PAIR_STATUS_ROLE_A && s.bit PAIR_STATUS_LINK_UP &&
  Nat.ble (s.fld PAIR_HEALTH_CFG_OK_MIN) s.score && Nat.ble (s.fld ⟨PAIR_SCORE, 8, 8⟩) s.score

/-- The reclaim hold starts with good health, and a break stops it (R498). -/
def holdFollow : Act := .read fun s =>
  let p := s.u.pair
  .seq
    (if holdGood s then when (!p.holdRuns)
        (pair fun p => { p with holdRuns := true, holdS := s.fld PAIR_TIMING_RECLAIM_HOLD_S })
      else pair fun p => { p with holdRuns := false, holdS := 0 })
    (.read fun t => setF PAIR_STATUS_HOLD_LEFT_S t.u.pair.holdS)

/-- The hold restarts where it runs (R498, R508). -/
def holdRestart : Act := .read fun s =>
  .seq (pair fun p => { p with holdS := if p.holdRuns then s.fld PAIR_TIMING_RECLAIM_HOLD_S else 0 })
    (.read fun t => setF PAIR_STATUS_HOLD_LEFT_S t.u.pair.holdS)

/-- The pair in the commit window, after every commit task of the beat. -/
def pairCommit : Act := .read fun s =>
  when (s.bit GEN_MODE_PAIR_CFG) (all [digestClose, bulkSend, holdFollow])

end Act

end Sys2Proof.Machine
end

