-- ==== Sys2Proof/Machine/BootOps.lean ====
section
/-!
DEFINITION. Machine/BootOps.lean: start-up as the boot ROM runs it (R542–R562): the boot-state record, the choice of a
slot, the key area with ROOTS applied, the regions, the registers, and the entry into RECOVERY or the next mode.
-/

namespace Sys2Proof.Machine

open Sys2Proof Sys2Proof.Reg

/-! ### The boot-state record (R545, R546) -/

/-- The valid copy with the higher SEQ. -/
def Flash.bsr (f : Flash) : Option Bsr :=
  match f.bsr0, f.bsr1 with
  | none, b => b
  | a, none => a
  | some a, some b => if a.seq < b.seq then some b else some a

/-- The record in use; its defaults where neither copy is valid. -/
def State.bsr (s : State) : Bsr := s.u.boot.flash.bsr.getD Bsr.default

/-- A write goes to the other sector, with SEQ one above the copy in use. -/
def Flash.writeBsr (f : Flash) (r : Bsr) : Flash :=
  let r' := { r with seq := ((f.bsr.map (·.seq)).getD 0) + 1 }
  let second := match f.bsr0, f.bsr1 with
    | some a, some b => Nat.ble b.seq a.seq
    | some _, none => true
    | none, _ => false
  if second then { f with bsr1 := some r' } else { f with bsr0 := some r' }

/-- How BOOT_BSR shows a trial (R580). -/
def trialCode : Option Nat → Nat
  | none => 0
  | some n => 2 + n

namespace Act

/-- BOOT_BSR follows the record in use. -/
def bsrShow : Act := .read fun s =>
  let b := s.bsr
  all [setF BOOT_BSR_FW_ACTIVE b.fwActive, setF BOOT_BSR_FW_TRIAL (trialCode b.fwTrial), setF BOOT_BSR_FW_TRIES b.fwTries,
    setF BOOT_BSR_CFG_ACTIVE b.cfgActive, setF BOOT_BSR_CFG_TRIAL (trialCode b.cfgTrial),
    setF BOOT_BSR_CFG_TRIES b.cfgTries, setB BOOT_BSR_COMMISSIONED b.commissioned, setF BOOT_BSR_DIR_FORMAT b.dirFormat]

/-- A write of the record, which reads back. -/
def bsrWrite (g : Bsr → Bsr) : Act := .read fun s =>
  .seq (boot fun b => { b with flash := b.flash.writeBsr (g s.bsr) }) bsrShow

/-- Replace what the flash holds. -/
def flash (g : Flash → Flash) : Act := boot fun b => { b with flash := g b.flash }

end Act

/-! ### Slots (R543, R554) -/

/-- An image slot: 0 and 1 firmware, 2 and 3 configuration, 4 the Recovery image (R575). -/
def Flash.image (f : Flash) (n : Nat) : List Byte := if n = 4 then f.recovery else f.slots.getD n []

def Flash.writeImage (f : Flash) (n : Nat) (b : List Byte) : Flash :=
  if n = 4 then { f with recovery := b } else { f with slots := f.slots.setD n [] b }

/-- The active slot, the trial and the tries of one kind. -/
def Bsr.fields (b : Bsr) (fw : Bool) : Nat × Option Nat × Nat :=
  if fw then (b.fwActive, b.fwTrial, b.fwTries) else (b.cfgActive, b.cfgTrial, b.cfgTries)

def Bsr.setActive (b : Bsr) (fw : Bool) (n : Nat) : Bsr :=
  if fw then { b with fwActive := n } else { b with cfgActive := n }

def Bsr.setTrial (b : Bsr) (fw : Bool) (t : Option Nat) : Bsr :=
  if fw then { b with fwTrial := t } else { b with cfgTrial := t }

def Bsr.setTries (b : Bsr) (fw : Bool) (n : Nat) : Bsr :=
  if fw then { b with fwTries := n } else { b with cfgTries := n }

/-- The number of slot A or B of a kind. -/
def slotNo (fw : Bool) (n : Nat) : Nat := (if fw then 0 else 2) + n

/-- A slot passes R548. -/
def State.slotGood (s : State) (fw : Bool) (n : Nat) : Bool :=
  (s.imageFault (s.u.boot.flash.image (slotNo fw n)) (if fw then kindFirmware else kindConfig) 0 s.bsr.cfgFloor).isNone

namespace Act

/-- The choice of R554: `k` gets the slot, whether it runs as a trial, and how often a trial or slot was reverted. -/
def chooseSlot (fw : Bool) (fail : Nat → Act) (k : Nat → Bool → Nat → Act) : Act := .read fun s =>
  let (active, trial, tries) := s.bsr.fields fw
  let fromActive := fun (reverted : Nat) => Act.read fun s =>
    if s.slotGood fw active then k active false reverted
    else .seq (sat BOOT_FAILS)
      (if s.slotGood fw (1 - active) then
        all [bsrWrite fun b => b.setActive fw (1 - active), sat BOOT_REVERTS, k (1 - active) false (reverted + 1)]
      else .seq (sat BOOT_FAILS) (fail reverted))
  let drop := .seq (bsrWrite fun b => b.setTrial fw none) (sat BOOT_REVERTS)
  match trial with
  | none => fromActive 0
  | some t =>
    if tries = 0 then .seq drop (fromActive 1)
    else .seq (bsrWrite fun b => b.setTries fw (tries - 1))
      (.read fun s => if s.slotGood fw t then k t true 0 else all [sat BOOT_FAILS, drop, fromActive 1])

end Act

/-! ### Where the regions stand (R292, R669) -/

/-- The default placement (R292). -/
def defaultRegions : List (Nat × Nat) :=
  [(0, 256), (0x100, 2048), (0x900, 512), (0xB00, 64), (0xB40, 64), (0xB80, 1152)]

namespace Act

/-- The registers that report a placement take it (R293, R611, R669), and the event rings have their place. -/
def placeRegions (rs : List (Nat × Nat)) : Act :=
  let base := fun r => (rs.getD r (0, 0)).1
  let sys := base 5 * 2 ^ 20
  let jrn := base 3 * 2 ^ 20
  let put := fun a v => Act.reg a (BitVec.ofNat 32 v)
  all [each (List.range 6) fun r => .seq (put (ENV_REGr_BASE r) (base r)) (put (ENV_REGr_SIZE r) (rs.getD r (0, 0)).2),
    put FWD_DIR_BASE (base 0),
    put ENV_QSTATS_BASE (sys + 0x100000),
    put PAIR_HEALTH_ADDR (sys + 0x120000),
    each (List.range 4) fun r => put (EVT_RINGr_BASE r) (sys + 0x40000 * r),
    put HIF_CMD_BASE jrn,
    put HIF_CPL_BASE (jrn + 0x40000),
    put HIF_JRN_BASE (jrn + 0xA0000),
    evt fun e => { e with placed := true }]

end Act

/-! ### Entering RECOVERY (R573, R574) -/

/-- RCV_CAUSE (R580). -/
def rcvStrap : Nat := 1
def rcvLifecycle : Nat := 2
def rcvBootFail : Nat := 3
def rcvLoadFail : Nat := 4
def rcvMigration : Nat := 5
def rcvRequest : Nat := 6
def rcvKeys : Nat := 7

/-- Causes that are an error (R573, R576). -/
def rcvIsError (cause : Nat) : Bool := cause == 3 || cause == 4 || cause == 5 || cause == 7

namespace Act

/-- BOOT_DONE's record (R577). -/
def bootDoneEvent (firstStart : Bool) (ms : Nat) : Act := .read fun s =>
  raise 112 (leBytes 1 (s.fld BOOT_STATUS_FW_SLOT) ++ leBytes 1 (s.fld BOOT_STATUS_CFG_SLOT) ++
    leBytes 4 (s.reg BOOT_FW_VERSION).toNat ++ leBytes 4 (s.reg BOOT_CFG_VERSION).toNat ++
    leBytes 1 (if firstStart then 1 else 0) ++ leBytes 4 ms)

/-- RECOVERY is entered (R573, R574): cause, code and detail are shown; the placement is the default one; the Recovery
image runs the command ring where the lifecycle allows it and it passes R548. -/
def enterRecovery (cause code detail other row : Nat) : Act := .read fun s =>
  let shell := (s.lifecycle == 1 || s.lifecycle == 2) &&
    (s.imageFault s.u.boot.flash.recovery kindRecovery 0 0).isNone
  all [setF BOOT_STATUS_ERROR code, setF BOOT_STATUS_RCV_CAUSE cause,
    .reg BOOT_ERR_DETAIL (BitVec.ofNat 32 detail), .reg BOOT_ERR_OTHER (BitVec.ofNat 32 other),
    setB BOOT_STATUS_MIGRATING false,
    placeRegions defaultRegions,
    boot fun b => { b with
      running := false
      migrating := false
      commissionWait := false
      recoveryShell := shell
      rcvSeen := false
      rcvOp := none
      checked := none
      rcvError := rcvIsError cause },
    shift .recovery row,
    when (rcvIsError cause) (raise 113 (leBytes 1 code ++ leBytes 4 detail ++ leBytes 1 cause))]

end Act

/-! ### Keys (R377, R385, R386, R389, R390, R552) -/

/-- The records of a slot in either sector of its group. -/
def Flash.slotRecs (f : Flash) (slot : Nat) : List KeyRec :=
  ((f.sector (2 * groupOf slot)).recs ++ (f.sector (2 * groupOf slot + 1)).recs).filter fun r => r.slot == slot

/-- The record with the highest SEQ. -/
def bestRec : List KeyRec → Option KeyRec
  | [] => none
  | r :: l => match bestRec l with
    | none => some r
    | some b => some (if b.seq < r.seq then r else b)

/-- A record counts (R385): it verifies and unwraps, and its parent was loaded from the record it was written under;
chains are at most four long (R376). -/
def Flash.counts (f : Flash) : Nat → KeyRec → Bool
  | 0, _ => false
  | d + 1, r => r.good && (r.parent == 0xFFFF ||
      match bestRec ((f.slotRecs r.parent).filter (f.counts d)) with
      | none => false
      | some p => p.seq == r.parentSeq)

/-- A slot as the boot loads it (R385): none where it has no record. -/
def Flash.bootSlot (f : Flash) (integrity : List Nat) (n : Nat) : Option KeySlot :=
  let rs := f.slotRecs n
  if rs.isEmpty then none
  else match bestRec (rs.filter (f.counts 4)) with
    | some r =>
      let k : KeySlot := ⟨r.key, r.attr, r.parent, 0, 0, .valid⟩
      some { k with tag := tagOfSlot integrity n k }
    | none => some { KeySlot.zeroed with state := if rs.any (·.good) then .orphan else .torn }

/-- The key store as the boot loads it. -/
def Flash.bootSlots (f : Flash) (integrity : List Nat) : Store KeySlot :=
  (List.range 1024).filterMap fun n => (f.bootSlot integrity n).map fun k => (n, k)

/-- The records of a root slot are gone. -/
def Flash.dropKey (f : Flash) (slot : Nat) : Flash :=
  { f with keys := f.keys.map fun e => (e.1, { e.2 with recs := e.2.recs.filter fun r => !(r.slot == slot) }) }

/-- Slots 0–7 written from an image's blobs, with PERSIST (R552); a root slot the image does not name has no record. -/
def Flash.writeRoots (f : Flash) (c : Cfg) (kek : List Nat) : Flash :=
  let named := c.of 0x30
  let cleared := ((List.range 8).filter fun n => !named.any fun e => e.slot == n).foldl Flash.dropKey f
  named.foldl (fun g e => match rootKey kek e with
    | none => g
    | some k => g.writeKey e.slot ⟨k, attrUnder (e.attr ||| 0x80) 0, 0xFFFF, 0, 0, .valid⟩) cleared

/-- How ROOTS applies (R552): the flash it leaves, or none for error ROOTS. -/
def rootsApply (f : Flash) (c : Cfg) (kek integrity : List Nat) (commissioned : Bool) : Option Flash :=
  let named := c.of 0x30
  if named.any fun e => (rootKey kek e).isNone then none
  else
    let fresh := some ((f.writeRoots c kek).addEpoch c.rootset 0)
    match f.epoch with
    | none => if commissioned then none else fresh
    | some r =>
      if r.rootset < c.rootset then fresh
      else if c.rootset < r.rootset then none
      else
        let loaded := fun n => (f.bootSlot integrity n).filter fun k => decide (k.state = SlotState.valid)
        let same := (List.range 8).all fun n =>
          match named.find? fun e => e.slot == n, loaded n with
          | none, none => true
          | some e, some k => match rootKey kek e with
            | none => false
            | some v =>
              kcvOf (natBytes (leBytes (if Nat.testBit e.attr 6 then 32 else 16) v)) == kcvOf k.bytes
          | _, _ => false
        if same then some f else none

/-! ### Start-up as one flow (R553) -/

/-- The KEK and INTEGRITY keys derived from the seed (R386). -/
def State.bootKeys (s : State) : List Nat × List Nat :=
  let seed := s.fuseBytes 20 8
  (Crypto.kdf seed (natBytes (labelOf 0x70 0 0 0 0 0 0)) true, Crypto.kdf seed (natBytes (labelOf 0x71 0 0 0 0 0 0)) true)

/-- The last sequence a journal at `base` holds: the highest of its entries whose CRC checks. -/
def State.lastJournal (s : State) (base : Nat) : Nat :=
  (s.blocksUsed base 64 65536).foldl (fun n i =>
    let b := s.bytes (base + 64 * i) 64
    if leAt b 60 4 == (crc32 (b.take 60)).toNat && Nat.blt n (leAt b 0 4) then leAt b 0 4 else n) 0

/-- Whether a Directory record's CHECK fails (R250). -/
def State.recTorn (s : State) (n : Nat) : Bool :=
  !(s.node n Node.NSA == 0) && !(s.node n Node.CHECK == (crc32 (s.bytes (s.recAddr n) 252)).toNat)

/-- What the flow knows when it reaches step 13. -/
structure Loaded where
  fw : List Byte
  cfg : List Byte
  c : Cfg
  fwTrial : Bool
  cfgTrial : Bool
  reverted : List Bool          -- BOOT_REVERTED to raise: firmware, configuration
  torn : List Nat               -- slots that came up TORN
  epochLow : Bool

namespace Act

/-- One region zeroed (R555). -/
def zeroRegion (c : Cfg) (r : Nat) : Act := .zero ((c.region r).1 * 2 ^ 20) ((c.region r).2 * 2 ^ 20)

/-- The kept Directory's records are checked (R250), and lose their pending frames with the System region (R670). -/
def dirCheck : Act := .read fun s =>
  let bad := s.dirNumbers.filter s.recTorn
  all [each bad recFree,
    when (!bad.isEmpty) (.seq (satBy FWD_DIR_TORN bad.length) (raise 53 (leBytes 4 bad.length))),
    .read fun t =>
      each (t.dirNumbers.filter fun n => !(t.node n Node.NSA == 0) && !(t.node n Node.PEND_COUNT == 0)) fun n =>
        all [recPut n Node.PEND_COUNT 0, recPut n Node.PEND_HEAD 0, recClose n]]

/-- The registers take their values (R551), in image order, and what follows from them. -/
def loadRegisters (l : Loaded) : Act :=
  let c := l.c
  let order := (cfgRegs.filter fun a => (c.regEntry a).isNone && !(a == SEC_TAMPER_CFG)) ++
    ((c.of 2).map CfgEntry.off)
  all [each order fun a => .reg a (c.word a),
    placeRegions c.regions,
    setF SEC_ROOTMAP_NODE_ROOT c.nodeRoot, setF SEC_ROOTMAP_NET_ROOT c.netRoot,
    setF SEC_ROOTMAP_PAIR_WRAP (if c.pair then c.pairWrap else 0), setB SEC_ROOTMAP_PAIR_WRAP_EN c.pair,
    each [0, 1] fun p => .seq
      (.reg (ETH_Pp_MAC_LO p) (BitVec.ofNat 32 (leValue (c.mac p).reverse)))
      (.reg (ETH_Pp_MAC_HI p) (BitVec.ofNat 32 (leValue (c.mac p).reverse / 2 ^ 32))),
    setB GEN_MODE_PAIR_CFG c.pair,
    each [RfPort.s, .w] fun p => .read fun s =>
      setF (RXD_EXTx_STEP_TRIMMED p) (s.fld (RXD_EXTx_STEP_EXT p)),
    each (List.range 16) fun n => setF (BT_ENG_STATE_n n) (if c.role n = 0 then engOff else engServing),
    satBy BOOT_CFG_IGNORED c.ignored]

/-- The units take what the records give them (R323, R263, R334, R456, R641, R642). -/
def loadUnits (l : Loaded) : Act := .read fun s =>
  let c := l.c
  let queues := ((c.of 0x11).filter fun e => !(e.producer == 0)).foldl (fun m e =>
    Store.put m e.queue { Queue.unused with
      producer := e.producer
      consumer := e.consumer
      deferred := e.vis == 1
      group := e.group
      fcEn := e.fcEn == 1
      limit := e.limit
      hi := e.hi
      lo := e.lo }) ([] : Store Queue)
  let seed := fun n => let v := (s.reg (FWD_TBLn_SEED n)).toNat % 65536; if v = 0 then 0xACE1 else v
  all [boot fun b => { b with
      cfgHash := leValue (bytesOfNat (imgSha l.cfg))
      cfgFormat := imgFormat l.cfg
      fwFormat := (imgFormatMin l.fw, imgFormat l.fw)
      fwDirFormat := (imgDirFormat l.fw, imgDirFormatMin l.fw)
      networkId := c.networkId
      syncWord := c.syncWord
      ipv6 := c.ipv6
      headends := (c.of 0x20).map (·.bytes)
      statics := (c.of 0x21).map fun e => (e.table, e.entry)
      gpio := (List.range 16).map c.gpio
      gtOwner := (List.range 8).map c.gtOwner
      priOwned := c.bit (RFx_CX_CTL_EN .w)
      trial := (l.fwTrial, l.cfgTrial)
      placement := c.regions },
    pins fun p => { p with memUp := true },
    env fun e => { e with queues := queues },
    fwd fun f => { f with lfsr := (List.range 4).map fun n => (n, seed n) },
    each (c.of 0x21) fun e => .read fun t =>
      let x : Entry := BitVec.ofNat 128 e.entry
      let b := t.bucket e.table (entryKey e.table x)
      match ways.find? fun w => !entryValid e.table (t.entry e.table (4 * b + w)) with
      | none => .nop
      | some w => .seq (entry e.table (4 * b + w) x) (tableCount e.table),
    sch fun x => { x with polOn := (List.range 16).filter fun k => s.bit (SCH_POLk_CTL_EN k) },
    each [RfPort.s, .w] fun p => .read fun t => when (t.bit (RFx_SLICE_EN p)) (recalRequest p 0),
    each (List.range 80) chStat,
    agcStat .s, agcStat .w,
    joinFollow]

/-- The save area is restored (R534). -/
def restoreArea (a : SaveArea) : Act :=
  all [env fun _ => a.env,
    fwd fun f => { f with tables := a.tables },
    sch fun _ => a.sch,
    mac fun m => { m with bridle := a.bridle, listens := a.listens },
    each (List.range 4) tableCount, bridleFollow,
    setB PWR_WAKE_SRC_RESTORED true]

/-- The key store and the epoch as the boot brings them up (R386). -/
def loadKeys (slots : Store KeySlot) (keys : List Nat × List Nat) (f : Flash) : Act :=
  all [boot fun b => { b with flash := f },
    sec fun x => { x with slots := slots, kek := some keys.1, integrity := some keys.2 },
    .reg SEC_EPOCH (match f.epoch with
      | none => 0
      | some r => BitVec.ofNat 32 (r.rootset * 65536 + r.epoch)),
    slotsValid]

/-- The pair rule of R510: a unit whose image declares a pair goes to STANDBY and WAIT_CLAIM, any other to SOLO. -/
def startUnit (solo standby : Nat) : Act := .read fun s =>
  if s.bit GEN_MODE_PAIR_CFG then .seq (shift .standby standby) (.seq (setF PAIR_STATUS_PSTATE 3) (pair fun p => { p with quiet := 0 }))
  else shift .solo solo

/-- Steps 13 and 14 of R553, and the choice of the next mode (R555, R558, R510). -/
def bootFinish (l : Loaded) (ms : Nat) : Act := .read fun s =>
  let c := l.c
  let kept := s.u.pins.memUp && s.u.boot.placement.length == 6 &&
    s.u.boot.placement.getD 0 (0, 0) == c.region 0 && s.u.boot.placement.getD 3 (0, 0) == c.region 3
  let saved := s.u.drift.saved.filter fun a =>
    s.u.pwr.woke && s.u.pins.memUp && a.good && a.cfgHash == leValue (bytesOfNat (imgSha l.cfg))
  let lost := s.lastJournal ((s.u.boot.placement.getD 3 (0, 0)).1 * 2 ^ 20 + 0xA0000)
  let dirFormat := if kept then s.bsr.dirFormat else imgDirFormat l.fw
  let migrate := kept && !(dirFormat == imgDirFormat l.fw)
  let first := l.fwTrial || l.cfgTrial || !s.bsr.commissioned || migrate
  all [setF BOOT_STATUS_STAGE 13,
    if saved.isSome then .nop
      else if kept then each [1, 2, 4, 5] (zeroRegion c)
      else .zero 0 (2 ^ 32),
    setB BOOT_STATUS_JOURNAL_KEPT kept, setB BOOT_STATUS_DIR_KEPT kept,
    setF BOOT_STATUS_STAGE 14,
    loadRegisters l,
    loadUnits l,
    .read fun t => memBytes (t.systemBase + 0x400000) (imgWhole l.cfg),
    .read fun t => memBytes (t.systemBase + t.fld ⟨ENV_REGr_SIZE 5, 0, 13⟩ * 2 ^ 20 - 2 ^ 24) (imgWhole l.fw),
    when kept (.read fun t => hif fun h =>
      let n := t.lastJournal (t.reg HIF_JRN_BASE).toNat
      { h with journalNext := n + 1, journalOldest := max 1 (n + 1 - 65536) }),
    (match saved with
    | some a => restoreArea a
    | none => when kept dirCheck),
    .read fun t => nbrSet (t.dirNumbers.filter t.isNbr).length,
    drift fun d => { d with saved := none },
    setB BOOT_STATUS_FIRST_START first, setB BOOT_STATUS_TRIAL (l.fwTrial || l.cfgTrial),
    setB BOOT_STATUS_MIGRATING migrate,
    setF BOOT_STATUS_STAGE 15,
    boot fun b => { b with running := false, migrating := first },
    if first then shift .commission 5 else startUnit 6 7,
    bootDoneEvent first ms,
    each l.reverted fun fw => raise 114 (leBytes 1 (if fw then 0 else 1)),
    each l.torn fun n => raise 68 (leBytes 2 n),
    when l.epochLow (raise 67 (leBytes 2 s.epoch)),
    when (!kept) (raise 115 (leBytes 4 lost)),
    when s.u.pwr.woke (.read fun t => all [
      raise 5 (leBytes 1 (t.fld PWR_WAKE_SRC_SOURCE) ++ leBytes 1 (t.fld PWR_WAKE_SRC_REPLAYED) ++
        leBytes 1 (if saved.isSome then 1 else 0)),
      pwr fun p => { p with woke := false }]),
    tamperFollow (s.reg SEC_TAMPER_CFG)]

/-- RECOVERY from the ROM, at a step. -/
def bootFail (step cause code detail other ms : Nat) : Act :=
  all [setF BOOT_STATUS_STAGE step, enterRecovery cause code detail other 4, bootDoneEvent false ms]

/-- RECOVERY from the ROM once slots were chosen: what the boot noted on its way is raised (R385, R554). -/
def loadFail (reverted : List Bool) (torn : List Nat) (step cause code detail other ms : Nat) : Act :=
  all [bootFail step cause code detail other ms,
    each reverted fun fw => raise 114 (leBytes 1 (if fw then 0 else 1)),
    each torn fun n => raise 68 (leBytes 2 n)]

/-- Steps 10 to 12 of R553: ROOTS, the epoch, the roles. -/
def bootKeysUp (l : Loaded) (epochOk : Bool) (ms : Nat) : Act := .read fun s =>
  let (kek, integrity) := s.bootKeys
  let f := s.u.boot.flash
  let badBlobs := ((l.c.of 0x30).filter fun e => (rootKey kek e).isNone).length
  match rootsApply f l.c kek integrity s.bsr.commissioned with
  | none => .seq (satBy SEC_UNWRAP_FAILS badBlobs)
      (.seq (loadFail l.reverted [] 10 rcvKeys bootRoots 0x30 0 ms) (when (Nat.blt 0 badBlobs) (raise 70 [])))
  | some g =>
    let slots := g.bootSlots integrity
    let torn := (slots.filter fun e => decide (e.2.state = SlotState.torn)).map (·.1)
    let orphans := (slots.filter fun e => decide (e.2.state = SlotState.orphan)).length
    let epoch := (g.epoch.map (·.epoch)).getD 0
    let rootset := (g.epoch.map (·.rootset)).getD 0
    .seq (.seq (loadKeys slots (kek, integrity) g) (.seq (satBy SEC_TORN torn.length) (satBy SEC_ORPHANS orphans)))
      (if epoch = 0xFFFF then loadFail l.reverted torn 11 rcvKeys bootEpochExhausted 0x30 0 ms
      else if !epochOk then .seq (loadFail l.reverted torn 11 rcvKeys bootKeyArea 0 0 ms) (raise 74 [])
      else
        let up := g.addEpoch rootset (epoch + 1)
        .seq (loadKeys slots (kek, integrity) up)
          (if !l.c.keyRolesOk (fun n => slots.getD n KeySlot.zeroed) then loadFail l.reverted torn 12 rcvKeys bootKeyRole 0x30 0 ms
          else all [setB SEC_STATUS_READY true, setB SEC_STATUS_EPOCH_LOW (Nat.ble 0xFF00 (epoch + 1)),
            bootFinish { l with torn := torn, epochLow := Nat.ble 0xFF00 (epoch + 1) } ms]))

/-- Steps 7 to 9 of R553: the slots, the formats, the load check. -/
def bootImages (epochOk : Bool) (ms : Nat) : Act :=
  chooseSlot true (fun n => loadFail (List.replicate n true) [] 7 rcvBootFail bootNoFirmware 0 0 ms) fun fwSlot fwTrial fwBack => .read fun s =>
    let fw := s.u.boot.flash.image (slotNo true fwSlot)
    all [setF BOOT_STATUS_FW_SLOT fwSlot, .reg BOOT_FW_VERSION (BitVec.ofNat 32 (imgVersion fw)),
      chooseSlot false (fun n =>
          loadFail (List.replicate fwBack true ++ List.replicate n false) [] 8 rcvBootFail bootNoConfig 0 0 ms) fun cfgSlot cfgTrial cfgBack => .read fun t =>
        let cfg := t.u.boot.flash.image (slotNo false cfgSlot)
        let reverted := List.replicate fwBack true ++ List.replicate cfgBack false
        let untry := when cfgTrial (bsrWrite fun b => b.setTrial false none)
        .seq (.seq (setF BOOT_STATUS_CFG_SLOT cfgSlot) (.reg BOOT_CFG_VERSION (BitVec.ofNat 32 (imgVersion cfg))))
          (if !formatOk fw cfg then .seq untry (loadFail reverted [] 9 rcvLoadFail bootFormat 0 0 ms)
          else match Cfg.parse cfg, loadFault cfg with
            | some c, none => bootKeysUp
                ⟨fw, cfg, c, fwTrial, cfgTrial, reverted, [], false⟩
                epochOk ms
            | _, some e => .seq untry (loadFail reverted [] 9 rcvLoadFail e.code e.detail e.other ms)
            | none, none => .nop)]

/-- The ROM flow from step 1 (R553). -/
def bootRun (flashOk epochOk : Bool) (ms : Nat) : Act := .read fun s =>
  all [setB FUSE_STATUS_SENSED true, fuseStatus,
    if s.bit SEC_TAMPER_STAT_LATCHED then
      .seq (when s.u.pwr.woke (setB PWR_WAKE_SRC_TAMPERED true)) holdEntry
    else if s.u.sec.mon.any fun m => monitorMode (s.reg SEC_TAMPER_CFG) (monitorCode m) == 2 then
      each ((s.u.sec.mon.map monitorCode).filter fun c => monitorMode (s.reg SEC_TAMPER_CFG) c == 2) fun c =>
        monitorMet c 2
    else if !(s.lifecycle == 1 || s.lifecycle == 2) then bootFail 2 rcvLifecycle bootLifecycle 0 0 ms
    else if s.u.pins.rcvrLow then bootFail 2 rcvStrap 0 0 0 ms
    else if s.u.boot.requestRecovery then
      .seq (boot fun b => { b with requestRecovery := false }) (bootFail 2 rcvRequest 0 0 0 ms)
    else if !s.seedOk then bootFail 3 rcvKeys bootSeed 0 0 ms
    else if !flashOk then bootFail 6 rcvBootFail bootNoFlash 0 0 ms
    else all [bsrShow, setB BOOT_STATUS_BSR_DEFAULT s.u.boot.flash.bsr.isNone, bootImages epochOk ms]]

end Act

end Sys2Proof.Machine
end

