-- ==== Sys2Proof/Machine/UpdateOps.lean ====
section
/-!
DEFINITION. Machine/UpdateOps.lean: migration (R561, R562), confirmation of a trial (R563), update sessions (R565–R570)
and what a Recovery operation does (R575).
-/

namespace Sys2Proof.Machine

open Sys2Proof Sys2Proof.Reg

/-! ### Migration -/

namespace Act

/-- One record's rewrite (R561). -/
def migrateRecord (d f fMin n : Nat) : Act := .read fun s =>
  let old := s.bytes (s.recAddr n + 88) 104
  let new := if fMin ≤ d ∧ d < f then (List.range 104).map (Config.migratedByte d f old) else List.replicate 104 0
  .seq (memBytes (s.recAddr n + 88) new) (recClose n)

/-- Every record in use is rewritten; `bad` are the ones whose rewrite meets an uncorrectable error. -/
def migrateAll (bad : List Nat) : Act := .read fun s =>
  let (f, fMin) := s.u.boot.fwDirFormat
  each (s.dirNumbers.filter fun n => !(s.node n Node.NSA == 0)) fun n =>
    if bad.contains n then nbrTrack n (recFree n) else migrateRecord s.bsr.dirFormat f fMin n

/-- The migration fails (R562): the trials are cleared where the record can be written, and RECOVERY is entered. -/
def migrationFail (writable : Bool) : Act :=
  .seq (when writable (bsrWrite fun b => (b.setTrial true none).setTrial false none))
    (enterRecovery rcvMigration bootMigration 0 0 9)

/-- COMMISSION is left at the next boundary (R25, R559). -/
def commissionLeave : Act := .read fun s =>
  .seq (boot fun b => { b with commissionWait := false, migrating := false })
    (pwr fun p => { p with staged := some (if s.bit GEN_MODE_PAIR_CFG then (.standby, 8) else (.solo, 8)) })

/-! ### Confirmation (R563) -/

/-- One fuse row blown, `blown` being the bits that read 1 afterwards (R404). -/
def fuseBlow (row : Nat) (bits blown : Word) : Act := .read fun s =>
  let new := s.fuseRow row ||| (bits &&& blown)
  let good := decide (new &&& bits = bits)
  all [fuse fun f => { f with rows := f.rows.put row new },
    setF FUSE_STATUS_LAST (if good then fuseOk else fuseVerifyFail),
    sat (if good then FUSE_PROG_COUNT else FUSE_PROG_FAIL),
    raise 75 (leBytes 1 row ++ leBytes 1 (if good then fuseOk else fuseVerifyFail))]

/-- The rollback count advances to a target (R563); bit i of `blown` is what ROLLBACK bit i reads afterwards. -/
def rollbackTo (target : Nat) (blown : BitVec 256) : Act := .read fun s =>
  let n := s.rollbackCount
  each (List.range 8) fun r =>
    let bits := BitVec.ofNat 32 ((List.range 32).foldl (fun v i =>
      if n ≤ 32 * r + i ∧ 32 * r + i < target then v + 2 ^ i else v) 0)
    when (!decide (bits = 0)) (fuseBlow (37 + r) bits (BitVec.ofNat 32 (blown.toNat / 2 ^ (32 * r))))

/-- A trial is confirmed. -/
def confirmTrial (blown : BitVec 256) : Act := .read fun s =>
  let fwSlot := s.fld BOOT_STATUS_FW_SLOT
  let cfgSlot := s.fld BOOT_STATUS_CFG_SLOT
  let fw := s.u.boot.flash.image (slotNo true fwSlot)
  let cfg := s.u.boot.flash.image (slotNo false cfgSlot)
  let advance := imgAdvance fw && Nat.blt s.rollbackCount (imgRollback fw)
  all [bsrWrite fun b => { b with
      fwActive := fwSlot
      cfgActive := cfgSlot
      fwTrial := none
      cfgTrial := none
      cfgFloor := if imgRaiseFloor cfg then max b.cfgFloor (imgVersion cfg) else b.cfgFloor },
    boot fun b => { b with trial := (false, false) },
    setB BOOT_STATUS_TRIAL false,
    when advance (rollbackTo (imgRollback fw) blown),
    .read fun t => raise 118 (leBytes 1 (if advance && !(t.rollbackCount == imgRollback fw) then fuseVerifyFail else fuseOk))]

end Act

/-- A trial is running. -/
def State.onTrial (s : State) : Bool := s.u.boot.trial.1 || s.u.boot.trial.2

/-! ### Sessions (R565–R570) -/

/-- Base of the Own-update staging region. -/
def State.stagingBase (s : State) : Nat := s.fld ⟨ENV_REGr_BASE 4, 0, 12⟩ * 2 ^ 20

/-- Size T of the transfer area. -/
def State.transfer (s : State) : Nat := transferSize (s.fld ⟨ENV_REGr_SIZE 4, 0, 13⟩)

/-- The statuses of R570 in order, from 1. -/
def updOk : Nat := 1
def updAccepted : Nat := 2
def updSessionActive : Nat := 3
def updNoSession : Nat := 4
def updTrialPending : Nat := 5
def updBadRange : Nat := 6
def updBadCrc : Nat := 7
def updApplying : Nat := 8
def updIncomplete : Nat := 9
def updHashMismatch : Nat := 10
def updImageRejected : Nat := 11
def updSourceMismatch : Nat := 12
def updBadDelta : Nat := 13
def updFlashFail : Nat := 14
def updNotTrial : Nat := 15
def updMode : Nat := 16
def updTimeout : Nat := 17

/-- The completion status of one: generic for OK and ACCEPTED, else the number of its row in R570's table (R619). -/
def updStatus (n : Nat) : Nat :=
  if n = updOk then stOk else if n = updAccepted then stAccepted
  else groupStatus 0x0300 (if updBadDelta ≤ n then n - 1 else n)

/-- The units a block of a session covers. -/
def blockUnits (off bytes : Nat) : List Nat := (List.range ((bytes + 4095) / 4096)).map (· + off / 4096)

/-- A block within R567. -/
def blockInRange (length off bytes : Nat) : Bool :=
  off % 4096 == 0 && Nat.blt 0 bytes && Nat.ble bytes 65536 && Nat.ble (off + bytes) length &&
    (bytes % 4096 == 0 || off + bytes == length)

/-- A kind of transfer: firmware or configuration, whole or a delta. -/
def kindIsFw (k : Nat) : Bool := k == kindFirmware || k == kindFwDelta
def kindIsDelta (k : Nat) : Bool := k == kindFwDelta || k == kindCfgDelta

/-- The running slot of a kind. -/
def State.runningSlot (s : State) (fw : Bool) : Nat :=
  if fw then s.fld BOOT_STATUS_FW_SLOT else s.fld BOOT_STATUS_CFG_SLOT

/-- The last four rows of R556 for a configuration, against the key area (R568). -/
def State.keyRowsFault (s : State) (c : Cfg) : Option Nat :=
  match s.u.sec.kek, s.u.sec.integrity with
  | some kek, some integrity =>
    match rootsApply s.u.boot.flash c kek integrity s.bsr.commissioned with
    | none => some bootRoots
    | some g =>
      if (g.epoch.map (·.epoch)).getD 0 = 0xFFFF then some bootEpochExhausted
      else
        let slots := g.bootSlots integrity
        if c.keyRolesOk fun n => slots.getD n KeySlot.zeroed then none else some bootKeyRole
  | _, _ => some bootRoots

/-- A whole image against what runs (R568 step 4): the code it fails with. -/
def State.runsWith (s : State) (fw : Bool) (b : List Byte) : Option Nat :=
  if fw then
    if imgFormatMin b ≤ s.u.boot.cfgFormat ∧ s.u.boot.cfgFormat ≤ imgFormat b then none else some bootFormat
  else
    let running := s.u.boot.flash.image (slotNo true (s.runningSlot true))
    if !formatOk running b then some bootFormat
    else match Cfg.parse b, loadFault b with
      | some c, none => s.keyRowsFault c
      | _, some e => some e.code
      | none, none => some 0x10

/-- What UPDATE_END makes of a session (R568 steps 1 to 4): the image to write, or a status and a code. -/
def State.updateResult (s : State) (x : Session) : Except (Nat × Nat) (List Byte) :=
  let t := s.transfer
  let b := s.bytes (s.stagingBase + 2 ^ 20) x.length
  let fw := kindIsFw x.kind
  let whole := if fw then kindFirmware else kindConfig
  let judge := fun (img : List Byte) => match s.runsWith fw img with
    | some c => Except.error (updImageRejected, c)
    | none => .ok (imgWhole img)
  if !(blockUnits 0 x.length).all x.units.contains then .error (updIncomplete, 0)
  else if !(leValue (bytesOfNat (Crypto.sha256 (natBytes b))) == x.sha) then .error (updHashMismatch, 0)
  else match s.imageFault b x.kind t s.bsr.cfgFloor with
  | some c => .error (updImageRejected, c)
  | none =>
    if kindIsDelta x.kind then
      match deltaApply b (imgWhole (s.u.boot.flash.image (slotNo fw (s.runningSlot fw)))) t with
      | .sourceMismatch => .error (updSourceMismatch, 0)
      | .bad => .error (updBadDelta, 0)
      | .built out => match s.imageFault out whole t s.bsr.cfgFloor with
        | some c => .error (updImageRejected, c)
        | none => judge out
    else judge b

namespace Act

/-- BOOT_UPD_STAT follows the session, with the last status (R580). -/
def updShow (last : Nat) : Act := .read fun s =>
  let (st, kind, n) := match s.u.boot.session with
    | none => (0, 0, 0)
    | some x => (x.state, x.kind, x.units.length)
  all [setF BOOT_UPD_STAT_SESSION st, setF BOOT_UPD_STAT_KIND kind, setF BOOT_UPD_STAT_UNITS n,
    setF BOOT_UPD_STAT_LAST last]

/-- An update command completes with a status of R570. -/
def updDone (c : HostCmd) (n : Nat) : Act := .seq (updShow n) (complete c (updStatus n) (.val 0))

/-- The session in progress is replaced. -/
def session (x : Option Session) : Act := boot fun b => { b with session := x }

end Act

/-- A restart scheduled by UPDATE_ACTIVATE (R566): a beat ahead of the current one by its low 32 bits, or the next. -/
def State.activateBeat (s : State) (low : Nat) : Option Nat :=
  let ahead := (low + 2 ^ 32 - s.u.bt.beat % 2 ^ 32) % 2 ^ 32
  if low = 0 ∨ ahead = 0 ∨ 2 ^ 31 ≤ ahead then none else some (s.u.bt.beat + ahead)

/-! ### Recovery (R575) -/

/-- RESULT codes. -/
def rcvOk : Nat := 0
def rcvNotAllowed : Nat := 1
def rcvRejected : Nat := 2
def rcvFlashFail : Nat := 3
def rcvNotRecovery : Nat := 4

/-- The kind of image a slot holds. -/
def slotKind (n : Nat) : Nat := if n < 2 then kindFirmware else if n < 4 then kindConfig else kindRecovery

namespace Act

/-- A Recovery operation starts, or is refused (R575, R580). -/
def rcvStart (op : Nat) (via : HostVia) (k : Nat → Act) : Act :=
  let start := fun arg from_ => all [setB BOOT_RCV_STAT_BUSY true,
    boot fun b => { b with rcvOp := some (op, arg, from_), rcvSeen := true }, k arg]
  match via with
  | .register i => permitted i BOOT_RCV_CMD (.read fun s =>
      if s.bit BOOT_RCV_STAT_BUSY then sat BOOT_RCV_REFUSED
      else if !decide (s.mode = .recovery) then setF BOOT_RCV_STAT_RESULT rcvNotRecovery
      else start (s.reg BOOT_RCV_ARG).toNat none)
  | .ring i => hostCmd i (fun o => o == 0x0900 + op) fun c => .read fun s =>
      if s.bit BOOT_RCV_STAT_BUSY then complete c stBusy (.val 0)
      else start (c.arg 0 4) (some c.seq)

/-- A Recovery operation ends with its result, and the command that asked for it completes. -/
def rcvEnd (result code : Nat) : Act := .read fun s =>
  all [setB BOOT_RCV_STAT_BUSY false, setF BOOT_RCV_STAT_RESULT result, setF BOOT_RCV_STAT_CODE code,
    boot fun b => { b with rcvOp := none },
    match s.u.boot.rcvOp.bind fun o => o.2.2 with
    | none => .nop
    | some n => completeSeq n (groupStatus 0x0900 result)]

/-- What an operation does as it finishes; `bad` is what a slot reads after a write that failed. -/
def rcvRun (op arg : Nat) (bad : Option (List Byte)) : Act := .read fun s =>
  let l := s.lifecycle
  let t := transferSize 64
  match op with
  | 1 =>
    let b := s.bytes (s.stagingBase + 2 ^ 20) arg
    let k := imgKind b
    if l = 3 then rcvEnd rcvNotAllowed 0
    else if !(Nat.ble 1 k && Nat.ble k 3) then rcvEnd rcvRejected bootBadHeader
    else match s.imageFault b k t s.bsr.cfgFloor with
      | some c => .seq (boot fun x => { x with checked := none }) (rcvEnd rcvRejected c)
      | none => .seq (boot fun x => { x with checked := some (imgWhole b) }) (rcvEnd rcvOk 0)
  | 2 =>
    match s.u.boot.checked with
    | none => rcvEnd rcvNotAllowed 0
    | some b =>
      if l = 3 ∨ 4 < arg ∨ imgKind b ≠ slotKind arg then rcvEnd rcvNotAllowed 0
      else match bad with
        | none => .seq (flash fun f => f.writeImage arg b) (rcvEnd rcvOk 0)
        | some w => .seq (flash fun f => f.writeImage arg w) (rcvEnd rcvFlashFail 0)
  | 3 =>
    if !(l == 1 || l == 2) ∨ 3 < arg then rcvEnd rcvNotAllowed 0
    else if bad.isSome then rcvEnd rcvFlashFail 0
    else
      let fw := Nat.blt arg 2
      .seq (bsrWrite fun r => (r.setActive fw (arg % 2)).setTrial fw none) (rcvEnd rcvOk 0)
  | 4 =>
    if !(l == 1 || (l == 2 && s.allows 17)) then rcvEnd rcvNotAllowed 0
    else if bad.isSome then rcvEnd rcvFlashFail 0
    else .seq (bsrWrite fun r => { r with commissioned := false }) (rcvEnd rcvOk 0)
  | _ => rcvEnd rcvNotAllowed 0

end Act

end Sys2Proof.Machine
end

