-- ==== Sys2Proof/Machine/Boot.lean ====
section
/-!
DEFINITION. Machine/Boot.lean: the commands of start-up, update and Recovery (R542–R580).
-/

namespace Sys2Proof.Machine

open Sys2Proof Sys2Proof.Reg Sys2Proof.Machine.Act

/-- BOOT_DONE (R553): the ROM flow runs to its end. -/
def execBootDone (flashOk epochOk : Bool) (ms : BitVec 32) (s : State) : Result :=
  s.act <| .read fun s => when (decide (s.mode = .rom) && s.u.boot.running) (bootRun flashOk epochOk ms.toNat)

/-- MIGRATION_DONE (R559, R561, R562): `bad` are the records whose rewrite met an uncorrectable error, `written` whether
the boot-state record reads back. -/
def execMigrationDone (bad : List (BitVec 20)) (written : Bool) (s : State) : Result :=
  s.act <| .read fun s =>
    let f := s.u.boot.fwDirFormat.1
    when (decide (s.mode = .commission) && s.u.boot.migrating)
      (.seq (when (s.bit BOOT_STATUS_MIGRATING) (migrateAll (bad.map BitVec.toNat)))
        (if written then all [setB BOOT_STATUS_MIGRATING false,
          bsrWrite fun b => { b with commissioned := true, dirFormat := f },
          if s.bit BOOT_CONFIRM_COMMISSION_WAIT then boot fun b => { b with commissionWait := true, migrating := false }
          else commissionLeave]
        else migrationFail false))

/-- MIGRATION_TIMEOUT (R562). -/
def execMigrationTimeout (written : Bool) (s : State) : Result :=
  s.act <| .read fun s => when (decide (s.mode = .commission) && s.u.boot.migrating) (migrationFail written)

/-- COMMISSION_WAIT_EXPIRY (R559). -/
def execCommissionWaitExpiry (s : State) : Result :=
  s.act <| .read fun s => when s.u.boot.commissionWait commissionLeave

/-- COMMISSION_DONE (R559, R566). -/
def execCommissionDone (index : Fin 4096) (s : State) : Result :=
  s.act <| hostCmd index (fun o => o == 0x0308) fun c => .read fun s =>
    .seq (when s.u.boot.commissionWait commissionLeave) (updDone c updOk)

/-- CONFIRM_TIMER_EXPIRY (R563): CONFIRM_S seconds served without a break at OK_MIN or more. -/
def execConfirmTimerExpiry (blown : BitVec 256) (s : State) : Result :=
  s.act <| .read fun s =>
    when (s.onTrial && s.mode.serves && !(s.fld BOOT_CONFIRM_CONFIRM_S == 0) &&
        Nat.ble (s.fld PAIR_HEALTH_CFG_OK_MIN) s.score)
      (confirmTrial blown)

/-- UPDATE_BEGIN (R566, R567, R570). -/
def execUpdateBegin (index : Fin 4096) (kind : UpdateKind) (length : BitVec 32) (tries : Fin 3) (sha : BitVec 256)
    (s : State) : Result :=
  s.act <| hostCmd index (fun o => o == 0x0301) fun c => .read fun s =>
    if s.u.boot.session.isSome then updDone c updSessionActive
    else if s.bsr.fwTrial.isSome || s.bsr.cfgTrial.isSome then updDone c updTrialPending
    else if Nat.blt s.transfer length.toNat then updDone c updBadRange
    else if !(s.shadows || decide (s.mode = .commission) || decide (s.mode = .solo) || decide (s.mode = .active) ||
        decide (s.mode = .doze)) then updDone c updMode
    else .seq (session (some ⟨kind.code, length.toNat, tries.val + 1, sha.toNat, [], 1⟩)) (updDone c updOk)

/-- UPDATE_BLOCK (R566, R567, R570). -/
def execUpdateBlock (index : Fin 4096) (offset bytes crc : BitVec 32) (s : State) : Result :=
  s.act <| hostCmd index (fun o => o == 0x0302) fun c => .read fun s =>
    let landing := s.bytes s.stagingBase (min bytes.toNat 65536)
    let us := blockUnits offset.toNat bytes.toNat
    match s.u.boot.session with
    | none => updDone c updNoSession
    | some x =>
      if x.state = 3 then updDone c updNoSession
      else if x.state = 2 then updDone c updApplying
      else if !blockInRange x.length offset.toNat bytes.toNat then updDone c updBadRange
      else if !decide (crc32 landing = crc) then updDone c updBadCrc
      else all [memBytes (s.stagingBase + 2 ^ 20 + offset.toNat) landing,
        logUpdate ([0x16] ++ leBytes 4 (s.stagingBase + 2 ^ 20 + offset.toNat) ++ leBytes 4 bytes.toNat ++
          leBytes 4 crc.toNat),
        wrap BOOT_UPD_BLOCKS,
        when (us.any x.units.contains) (sat BOOT_UPD_REPEATS),
        session (some { x with units := x.units ++ us.filter fun u => !x.units.contains u }),
        updDone c updOk]

/-- UPDATE_END (R568). -/
def execUpdateEnd (index : Fin 4096) (s : State) : Result :=
  s.act <| hostCmd index (fun o => o == 0x0303) fun c => .read fun s =>
    match s.u.boot.session with
    | none => updDone c updNoSession
    | some x =>
      if x.state = 3 then updDone c updNoSession
      else if x.state = 2 then updDone c updApplying
      else all [session (some { x with state := 2 }), setB BOOT_STATUS_UPDATE_BUSY true, updDone c updAccepted]

/-- UPDATE_APPLY_COMPLETE (R568–R570): `bad` is what the slot reads after a write that failed, `written` whether the
boot-state record reads back. -/
def execUpdateApplyComplete (bad : Option (List Byte)) (written : Bool) (s : State) : Result :=
  s.act <| .read fun s =>
    match s.u.boot.session with
    | none => .nop
    | some x =>
      let fw := kindIsFw x.kind
      let slot := 1 - s.runningSlot fw
      let fail := fun st code => all [session (some { x with state := 1 }), updShow st,
        raise 117 (leBytes 1 st ++ leBytes 1 code)]
      when (x.state == 2)
        (.seq (setB BOOT_STATUS_UPDATE_BUSY false)
          (match s.updateResult x, bad with
          | .error (st, code), _ => fail st code
          | .ok _, some w => .seq (flash fun f => f.writeImage (slotNo fw slot) w) (fail updFlashFail 0)
          | .ok img, none => .seq (flash fun f => f.writeImage (slotNo fw slot) img)
            (if !written then fail updFlashFail 0
            else all [bsrWrite fun b => (b.setTrial fw (some slot)).setTries fw x.tries,
              session (some { x with state := 3 }), updShow updOk, raise 116 (leBytes 1 x.kind)])))

/-- UPDATE_ABORT (R566). -/
def execUpdateAbort (index : Fin 4096) (s : State) : Result :=
  s.act <| hostCmd index (fun o => o == 0x0304) fun c => .read fun s =>
    match s.u.boot.session with
    | none => updDone c updOk
    | some x =>
      if x.state = 2 then updDone c updApplying
      else all [when (x.state == 3) (bsrWrite fun b => b.setTrial (kindIsFw x.kind) none), session none, updDone c updOk]

/-- UPDATE_ACTIVATE (R566, R572). -/
def execUpdateActivate (index : Fin 4096) (beat : BitVec 32) (s : State) : Result :=
  s.act <| hostCmd index (fun o => o == 0x0305) fun c => .read fun s =>
    .seq (boot fun b => { b with activateAt := some (s.activateBeat beat.toNat) }) (updDone c updAccepted)

/-- UPDATE_CONFIRM (R563). -/
def execUpdateConfirm (index : Fin 4096) (blown : BitVec 256) (s : State) : Result :=
  s.act <| hostCmd index (fun o => o == 0x0306) fun c => .read fun s =>
    if s.onTrial then .seq (confirmTrial blown) (updDone c updOk) else updDone c updNotTrial

/-- UPDATE_REVERT (R564): the trial leaves the record, and the device restarts. -/
def execUpdateRevert (index : Fin 4096) (ticks : BitVec 40) (s : State) : Result :=
  s.act <| hostCmd index (fun o => o == 0x0307) fun c => .read fun s =>
    if s.onTrial then
      all [bsrWrite fun b =>
          let b := if s.u.boot.trial.1 then b.setTrial true none else b
          if s.u.boot.trial.2 then b.setTrial false none else b,
        updDone c updAccepted, aonPass ticks.toNat, resetKeepStraps 3]
    else updDone c updNotTrial

/-- PAIR_UPDATE_TIMEOUT (R572): 600 s after the named beat the partner has not handed over. -/
def execPairUpdateTimeout (s : State) : Result :=
  s.act <| .read fun s =>
    when (s.u.boot.activateWait && s.u.boot.activateAt.isNone)
      (all [boot fun b => { b with activateWait := false }, updShow updTimeout,
        raise 117 (leBytes 1 updTimeout ++ leBytes 1 0)])

/-- BOOT_RECOVERY (R573): the complement of a guarded write of 0x5A5A0030. -/
def Act.bootRecoveryGuard (iface : HostIface) (comp : BitVec 32) (ticks : BitVec 40) : Act :=
  reached iface (guardComplement BOOT_RECOVERY comp
    (fun v _ => if v = 0x5A5A0030 then grdAccepted else grdMismatch)
    fun _ => all [boot fun b => { b with requestRecovery := true }, aonPass ticks.toNat, resetKeepStraps 3])

/-- BOOT_RECOVERY. -/
def execBootRecovery (iface : HostIface) (comp : BitVec 32) (ticks : BitVec 40) (s : State) : Result :=
  s.act (Act.bootRecoveryGuard iface comp ticks)

/-- RCV_CHECK (R575). -/
def execRcvCheck (via : HostVia) (s : State) : Result := s.act <| rcvStart 1 via fun _ => .nop

/-- RCV_WRITE (R575). -/
def execRcvWrite (via : HostVia) (s : State) : Result := s.act <| rcvStart 2 via fun _ => .nop

/-- RCV_SET_ACTIVE (R575). -/
def execRcvSetActive (via : HostVia) (s : State) : Result := s.act <| rcvStart 3 via fun _ => .nop

/-- RCV_REPROVISION (R575). -/
def execRcvReprovision (via : HostVia) (s : State) : Result := s.act <| rcvStart 4 via fun _ => .nop

/-- RCV_EXIT (R575): the device resets into ROM. -/
def Act.rcvExit (via : HostVia) (ticks : BitVec 40) : Act :=
  rcvStart 5 via fun _ => all [rcvEnd rcvOk 0, aonPass ticks.toNat, resetKeepStraps 10]

/-- RCV_EXIT. -/
def execRcvExit (via : HostVia) (ticks : BitVec 40) (s : State) : Result :=
  s.act (Act.rcvExit via ticks)

/-- RCV_OP_COMPLETE (R575): `bad` is what a slot reads after a flash write that failed. -/
def execRcvOpComplete (bad : Option (List Byte)) (s : State) : Result :=
  s.act <| .read fun s =>
    match s.u.boot.rcvOp with
    | none => .nop
    | some (op, arg, _) => when (decide (s.mode = .recovery)) (rcvRun op arg bad)

/-- RECOVERY_IDLE_TIMEOUT (R576). -/
def execRecoveryIdleTimeout (ticks : BitVec 40) (s : State) : Result :=
  s.act <| .read fun s =>
    when (decide (s.mode = .recovery) && s.u.boot.rcvError && !s.u.boot.rcvSeen)
      (.seq (aonPass ticks.toNat) (resetKeepStraps 10))

/-- BOOT_CFG_HASH_REQ (R579). -/
def Act.cfgHashReq (iface : HostIface) : Act :=
  permitted iface BOOT_CFG_HASH_REQ (.read fun s =>
    .seq (each (List.range 8) fun x =>
        .reg (BOOT_CFG_HASHx x) (BitVec.ofNat 32 (s.u.boot.cfgHash / 2 ^ (32 * x))))
      (.reg BOOT_CFG_HASH_REQ 0x80000000))

/-- BOOT_CFG_HASH_REQ. -/
def execBootCfgHashReq (iface : HostIface) (s : State) : Result :=
  s.act (Act.cfgHashReq iface)

end Sys2Proof.Machine
end

