-- ==== Sys2Proof/WellFormed.lean ====
section
/-!
DEFINITION. WellFormed.lean: which operands a command can carry. Most operand types hold only what an event can carry;
the checks here are the lengths the types do not bound.
-/

namespace Sys2Proof

/-- An enqueue writes one to sixteen words (R302). -/
def wordsOk (words : List WordIn) : Bool := Nat.ble 1 words.length && Nat.ble words.length 16

/-- A change stays in front of a record's check bytes, and a record created comes whole (R248, R249). -/
def recordOpOk : RecordOp → Bool
  | .change _ off bytes => Nat.ble (off.val + bytes.length) 248
  | .create _ bytes => bytes.length == 248
  | .free _ => true

/-- A codeword has 1,152 LLRs (R93). -/
def llrsOk (llrs : List (BitVec 6)) : Bool := llrs.length == 1152

/-- A block of a forwarding table has 1,024 entries (R270). -/
def blockOk (entries : List (BitVec 128)) : Bool := entries.length == 1024

/-- A command an event at the device's edge can carry. -/
def Instr.wf : Instr → Bool
  | .enq _ _ _ _ words => wordsOk words
  | .recordUpdate _ _ op => recordOpOk op
  | .llrReceived _ _ _ _ llrs => llrsOk llrs
  | .blockFrameReceived _ _ _ entries => blockOk entries
  | _ => true

end Sys2Proof
end

