-- ==== Sys2Proof/Machine/Envelope.lean ====
section
/-!
DEFINITION. Machine/Envelope.lean: the commands of the Envelope and its queues (R288–R323): the patrol scrubber, the
queue operations, and the queue command register.
-/

namespace Sys2Proof.Machine

open Sys2Proof Sys2Proof.Reg

/-! ### Ownership (R295, R302) -/

/-- An engine out of its role for the beat (R47, R48). -/
def Engine.out (e : Engine) : Bool := e.bist || e.restoreIn.isSome

/-- The role an engine serves beside its own, or in place of spare (R47). -/
def State.roleOf (s : State) (pe : Nat) : Nat := s.fld (BT_ROLE_n pe)

/-- Whether an engine uses a port: its own, or that of an engine whose role it serves (R295). -/
def State.usesPort (s : State) (pe code : Nat) : Bool :=
  code == 16 + pe ||
  (Nat.ble 16 code && Nat.blt code 32 && (s.engine (code - 16)).out &&
    decide ((s.engine pe).second = some (s.roleOf (code - 16))))

/-- Whether a worker holds a port code. -/
def State.portIs (s : State) (code : Nat) : QueuePort → Bool
  | .hard c => c.val == code && Nat.blt 0 code
  | .spool pe _ => s.usesPort pe.val code

/-- A committed packet's accounting length (R330): overhead of the port that consumes the queue. -/
def State.acctOf (s : State) (consumer : Nat) (ple : Bool) (bytes : Nat) : Nat :=
  if consumer = 5 ∨ consumer = 6 then
    bytes + s.fld (if ple then SCH_PORTp_OH_PLE (consumer - 5) else SCH_PORTp_OH_BRIDGE (consumer - 5))
  else bytes

namespace Act

/-- A queue operation: an engine's with its completion, a hardware port's without; `own` picks the end of the queue it
must hold, and `k` does the work and gives STATUS, FLAGS and RESULT. -/
def queueOp (p : QueuePort) (n : Nat) (own : Queue → Nat) (k : (Nat → Nat → Nat → Act) → Act) : Act := .read fun s =>
  let ok := s.portIs (own (s.queue n)) p
  match p with
  | .hard _ => when (s.mode.inService && ok) (k fun _ _ _ => .nop)
  | .spool pe t => issueNow pe.val t.val 4 fun done =>
      if ok then k done else done cplError 0 (3 * 256)

/-- The counters of a parity or DRAM upset found on the way out, with the address a DRAM error is at (R290, R291, R311). -/
def upsetCounts (n : Nat) : Option (WordUpset × Nat) → Act
  | none => .nop
  | some (.parity, _) => all [sat Reg.ENV_PARITY, raise 57 (leBytes 2 n), faultClass 4]
  | some (.dram, a) => all [sat ENV_ECC_UNC, raise 56 (leBytes 4 a), healthFault 6 2, recordInput 0x0A]

end Act

/-- The address of a queue's word in its spill page; none for a word on die (R299). -/
def State.wordAddr (s : State) (q : Queue) (seq : Word) : Option Nat :=
  q.pages.findSome? fun pg =>
    let i := (seq - BitVec.ofNat 32 pg.first).toNat
    if i < pg.count then some (s.pageAddr pg.no + 8 * i) else none

/-- The upsets that words from `seq` on meet: a DRAM error only where the word stands in a page. -/
def State.upsetsMet (s : State) (q : Queue) (seq : Word) : List (Option WordUpset) → List (Option (WordUpset × Nat))
  | [] => []
  | none :: us => none :: s.upsetsMet q (seq + 1) us
  | some .parity :: us => some (.parity, 0) :: s.upsetsMet q (seq + 1) us
  | some .dram :: us => (s.wordAddr q seq).map (fun a => (.dram, a)) :: s.upsetsMet q (seq + 1) us

/-- Words with the upsets they met: P set in each one hit (R290, R311). -/
def upsetWords {α : Type} : List QWord → List (Option α) → List QWord
  | [], _ => []
  | w :: ws, [] => w :: ws
  | w :: ws, none :: us => w :: upsetWords ws us
  | w :: ws, some _ :: us => w.poisoned :: upsetWords ws us

/-- Words written into data SRAM by an engine's DEQ: 16 bytes each (R305). -/
def sramWords (ws : List QWord) : List Byte :=
  ws.flatMap fun w => leBytes 8 w.data.toNat ++ leBytes 1 w.tag ++ leBytes 1 (if w.par then 1 else 0) ++
    List.replicate 6 0

/-! ### Queue operations (R302) -/

/-- ENQ (R303). `next` binds a hardware port's packet to the next beat, its input past the bind line (R39);
`headend` is the headend a PLE message is for. -/
def execEnq (port : QueuePort) (queue : Fin 4096) (next : Bool) (headend : Fin 16)
    (words : List WordIn) (s : State) : Result :=
  s.actIf (wordsOk words)
    (Act.queueOp port queue.val Queue.producer fun done => .read fun s =>
      let q := s.queue queue.val
      let engine := match port with | .spool _ _ => true | .hard _ => false
      let ple := !(q.producer == 3) && !(q.producer == 4)
      let c : CommitInfo := ⟨engine, s.workBeat + (if next && !engine then 1 else 0),
        s.acctOf q.consumer ple, 0, if ple then some headend.val else none, none⟩
      Act.enqueue queue.val c words fun e => done e.status 0 (e.accepted + 256 * e.reason))

/-- ABORT (R302): WPTR ← CPTR, OK even with no open packet. -/
def execAbort (port : QueuePort) (queue : Fin 4096) (s : State) : Result :=
  s.act (Act.queueOp port queue.val Queue.producer fun done => .read fun s =>
    let q := s.queue queue.val
    .all [Act.when (!(decide (q.wptr = q.cptr)))
        (.seq (Act.queue queue.val fun q => q.abort.countAbort) (Act.wrap Reg.ENV_ABORTS)),
      Act.queueLog queue.val 2,
      Act.queueDone queue.val, done cplOk 0 0])

/-- DEQ of n + 1 words (R305), with the upsets the words meet (R311, R312). -/
def execDeq (port : QueuePort) (queue : Fin 4096) (n : Fin 16) (stopAtL : Bool) (out : BitVec 18)
    (upsets : List (Option WordUpset)) (s : State) : Result :=
  s.act (Act.queueOp port queue.val Queue.consumer fun done => .read fun s =>
    let q := s.queue queue.val
    let count := n.val + 1
    let met := s.upsetsMet q q.rptr upsets
    let ws := upsetWords (q.readable count stopAtL) met
    let k := ws.length
    let (hits, skipping) := poisonScan ws q.skipping
    let poisoned := Nat.blt 0 hits || q.skipping
    let at_ := q.off q.rptr
    .all [Act.queue queue.val fun q => { q with
        rptr := q.rptr + BitVec.ofNat 32 k, skipping := skipping,
        words := q.words.take at_ ++ ws ++ q.words.drop (at_ + k) },
      Act.each (met.take k) (Act.upsetCounts queue.val),
      Act.poisonCounts queue.val hits,
      Act.when (k == 0) (Act.wrap Reg.ENV_EMPTY_READS),
      Act.queueDone queue.val,
      match port with
      | .hard _ => .nop
      | .spool pe _ => .seq (Act.sram pe.val out.toNat (sramWords (ws ++ List.replicate (count - k) QWord.notValid)))
          (done cplOk (1 + if poisoned then 2 else 0) k)])

/-- MARK (R302): MARK ← RPTR. -/
def execMark (port : QueuePort) (queue : Fin 4096) (s : State) : Result :=
  s.act (Act.queueOp port queue.val Queue.consumer fun done =>
    .all [Act.queue queue.val fun q => { q with mark := q.rptr }, Act.queueDone queue.val, done cplOk 0 0])

/-- REWIND (R302): RPTR ← MARK. -/
def execRewind (port : QueuePort) (queue : Fin 4096) (s : State) : Result :=
  s.act (Act.queueOp port queue.val Queue.consumer fun done =>
    .all [Act.queue queue.val fun q => { q with rptr := q.mark }, Act.queueDone queue.val, done cplOk 0 0])

/-- RELEASE (R302): HEAD ← RPTR; MARK ← RPTR; pages wholly before HEAD are free again. -/
def execRelease (port : QueuePort) (queue : Fin 4096) (s : State) : Result :=
  s.act (Act.queueOp port queue.val Queue.consumer fun done =>
    .seq (Act.releaseQueue queue.val) (done cplOk 0 0))

/-- The hold time of a ballast pin ends: a state that differs by then changes the pin at once (R314). -/
def execFcHoldExpiry (group : Fin 8) (s : State) : Result :=
  s.act (.seq (Act.env fun e => { e with fcHold := e.fcHold.filter fun h => !(h.1 == group.val) }) Act.fcPins)

/-! ### The patrol scrubber (R289) -/

/-- 64-byte bursts of the Envelope. -/
def bursts : Nat := 2 ^ 26

/-- The scrubber reads its next burst; the pass ends with the last one. -/
def execScrubBurst (corrected uncorrectable : Bool) (s : State) : Result :=
  s.act (Act.when (s.bit ENV_ECC_CFG_SCRUB_EN && s.mode.inService)
    (let a := s.u.env.scrubAt
    .all [Act.setB ENV_STATUS_SCRUBBING true,
      Act.when corrected (.all [Act.sat ENV_ECC_CORR, Act.env fun e => { e with passCorr := e.passCorr + 1 }, Act.faultClass 1]),
      Act.when uncorrectable (.all [Act.sat ENV_ECC_UNC, Act.env fun e => { e with passUnc := e.passUnc + 1 },
        Act.raise 56 (leBytes 4 (64 * a)), Act.healthFault 6 2]),
      Act.env fun e => { e with scrubAt := a + 1 },
      Act.when (a + 1 == bursts) (.read fun t =>
        .all [Act.wrap ENV_SCRUB_PASSES,
          Act.raise 61 (leBytes 4 t.u.env.passCorr ++ leBytes 4 t.u.env.passUnc),
          Act.env fun e => { e with scrubAt := 0, passCorr := 0, passUnc := 0 }])]))

/-! ### The queue commands (R321–R323) -/

/-- Modes in which a unit of a pair refuses direct changes (R279, R321). -/
def Mode.paired : Mode → Bool
  | .active | .standby | .takeover | .reclaim => true
  | _ => false

/-- Why WRITE_CFG refuses its values (R322): a reserved bit, LIMIT 0, watermarks, or the page budget (R310). -/
def State.badQueueCfg (s : State) (n : Nat) (w0 w1 w2 w3 : Nat) : Bool :=
  let limit := w0 % 2 ^ 24
  let hi := w1 % 2 ^ 24
  let lo := w2 % 2 ^ 24
  let others := (s.u.env.queues.filter fun e => !(e.1 == n) && !(e.2.producer == 0)).map fun e => pagesFor e.2.limit
  Nat.blt 0 (w0 / 2 ^ 29) || Nat.blt 0 (w1 / 2 ^ 24) || Nat.blt 0 (w2 / 2 ^ 24) || Nat.blt 0 (w3 / 2 ^ 16) ||
  limit == 0 || (!(hi == 0) && (Nat.ble hi lo || Nat.blt limit hi)) ||
  Nat.blt s.spillPages (others.sum + pagesFor limit)

namespace Act

/-- What a queue command does, with its status (R321) and results; `direct` for the register, whose writes a pair
refuses. Codes: 1 READ_CFG, 2 WRITE_CFG, 3 READ_STATE, 4 FLUSH. -/
def queueCmd (direct : Bool) (op n : Nat) (data : List Nat) (k : Nat → List Nat → Act) : Act := .read fun s =>
  let q := s.queue n
  let d := fun i => data.getD i 0
  if op = 0 ∨ 4 < op then k 5 []
  else if !s.mode.inService then k 3 []
  else if direct && s.mode.paired && (op == 2 || op == 4) then k 1 []
  else if q.producer = 0 then k 4 []
  else if op = 1 then
    k 0 [q.limit + 2 ^ 24 * q.group + 2 ^ 27 * (if q.fcEn then 1 else 0) + 2 ^ 28 * (if q.deferred then 1 else 0),
      q.hi, q.lo, q.producer + 256 * q.consumer]
  else if op = 2 then
    if s.badQueueCfg n (d 0) (d 1) (d 2) (d 3) then k 2 []
    else all [queue n fun q => { q with
        limit := d 0 % 2 ^ 24, group := d 0 / 2 ^ 24 % 8, fcEn := Nat.testBit (d 0) 27,
        hi := d 1 % 2 ^ 24, lo := d 2 % 2 ^ 24 },
      queueDone n, k 0 []]
  else if op = 3 then
    k 0 [q.head.toNat, q.mark.toNat, q.rptr.toNat, q.tail.toNat, q.cptr.toNat, q.wptr.toNat,
      (if q.wptr = q.cptr then 0 else 1) + (if q.fc then 2 else 0), q.pages.length]
  else all [when (!(decide (q.wptr = q.cptr))) (wrap Reg.ENV_ABORTS), queue n Queue.flush,
    queueLog n Config.flushCode.toNat, queueDone n, k 0 []]

/-- A command written to ENV_QCMD (R318, R321): refused and counted while BUSY, else started. -/
def queueCmdReg (op n : Nat) : Act := .read fun s =>
  if s.bit ENV_QCMD_STAT_BUSY then sat Reg.ENV_QCMD_REFUSED
  else all [setB ENV_QCMD_STAT_BUSY true, setB ENV_QCMD_STAT_VALID false,
    queueCmd true op n ((List.range 4).map fun i => (s.reg (ENV_QDATAx i)).toNat) fun status results =>
      env fun e => { e with cmd := some ⟨status, results⟩ }]

/-- The same by the host: its interface's register write, or the ring's command with words 0–3 after QUEUE. -/
def queueCmdVia (via : HostVia) (op n : Nat) : Act :=
  match via with
  | .register i => permitted i ENV_QCMD (queueCmdReg op n)
  | .ring i => hostCmd i.val (fun c => c == 0x0200 + op) fun c =>
      when (Nat.beq (c.arg 0 2) n)
        (queueCmd false op n ((List.range 4).map fun j => c.arg (4 + 4 * j) 4) fun status _ =>
          complete c (groupStatus c.opcode status) (.val 0))

end Act

/-- READ_CFG of ENV_QCMD (R321). -/
def execQueueReadCfg (iface : HostIface) (queue : Fin 4096) (s : State) : Result :=
  s.act (Act.queueCmdVia (.register iface) 1 queue.val)

/-- WRITE_CFG (R322), by ENV_QCMD or QUEUE_WRITE_CFG (R620). -/
def execQueueWriteCfg (via : HostVia) (queue : Fin 4096) (s : State) : Result :=
  s.act (Act.queueCmdVia via 2 queue.val)

/-- READ_STATE (R323). -/
def execQueueReadState (iface : HostIface) (queue : Fin 4096) (s : State) : Result :=
  s.act (Act.queueCmdVia (.register iface) 3 queue.val)

/-- FLUSH (R321), by ENV_QCMD or QUEUE_FLUSH (R620). -/
def execQueueFlush (via : HostVia) (queue : Fin 4096) (s : State) : Result :=
  s.act (Act.queueCmdVia via 4 queue.val)

/-- A queue command finishes: its status, results and VALID are posted (R321). -/
def execEnvQcmdComplete (s : State) : Result :=
  s.act (match s.u.env.cmd with
    | none => .nop
    | some c => .all [Act.each (c.results.zipIdx) fun r => .reg (ENV_QRESx r.2) (BitVec.ofNat 32 r.1),
        Act.setF ENV_QCMD_STAT_STATUS c.status, Act.setB ENV_QCMD_STAT_BUSY false, Act.setB ENV_QCMD_STAT_VALID true,
        Act.env fun e => { e with cmd := none }])

end Sys2Proof.Machine
end

