-- ==== Sys2Proof/Machine/Forward.lean ====
section
/-!
DEFINITION. Machine/Forward.lean: the table operations (R279, R280), the ageing sweep's delete phase (R265), the block
resync (R271) and record updates (R249).
-/

namespace Sys2Proof.Machine

open Sys2Proof Sys2Proof.Reg

/-- Operations the register refuses with PAIRED in the modes of a pair (R280). -/
def tableChanges (op : Nat) : Bool := op == 2 || op == 3 || op == 4 || op == 5 || op == 7

/-- A staged NSA that no node has (R280). -/
def badNsa (n key : Nat) : Bool := isAir n && (key == 0 || key == 0xFFFFFF)

/-- Whether the staged data refuses an operation (R280, step 3). -/
def badStaged (op n : Nat) (e : Entry) : Bool :=
  if op ≤ 5 then badNsa n (entryKey n e) || ((op == 2 || op == 3) && reservedSet n e)
  else if op = 6 then Nat.ble (4 * tableBuckets n) (e.fld 0 18)
  else if op = 8 then Nat.ble (tableBlocks n) (e.fld 0 8)
  else false

namespace Act

/-- A table operation (R279, R280); `direct` for the command register. `fault` is a slot whose entry a lookup finds with
an uncorrectable error (R272), or a corrected one. `k` gets status, way, bucket and result. -/
def tableOp (direct : Bool) (op n : Nat) (e : Entry) (ecc : Option EccFault) (k : Nat → Nat → Nat → Entry → Act) :
    Act := .read fun s =>
  let key := entryKey n e
  let b := s.bucket n key
  let now := ageNow s.workBeat
  if op = 0 ∨ 8 < op ∨ 4 ≤ n then k tblBadOp 0 0 0
  else if !s.mode.inService then k tblNotRunning 0 0 0
  else if direct && s.mode.paired && tableChanges op then k tblPaired 0 0 0
  else if badStaged op n e then k tblBadOp 0 0 0
  else if op = 1 then
    .seq (wrap (FWD_TBLn_LOOKUP n))
      (match s.wayOf n key with
      | none => k tblNotFound 0 b 0
      | some w => match ecc with
        | some .uncorrectable => .seq (tableEcc n (4 * b + w)) (k tblNotFound 0 b 0)
        | some .corrected => all [sat (FWD_TBLn_ECC_CORR n), wrap (FWD_TBLn_HIT n), k tblOk w b (s.entry n (4 * b + w))]
        | none => .seq (wrap (FWD_TBLn_HIT n)) (k tblOk w b (s.entry n (4 * b + w))))
  else if op = 2 then
    let w := withStamp e now
    tableInsert n w fun st way b old => k st way b (if st = tblEvicted then old else if st = tblOk then w else 0)
  else if op = 3 then
    let w := withStamp e now
    if (s.wayOf n key).isNone then k tblNotFound 0 b 0
    else tableInsert n w fun st way b _ => k st way b w
  else if op = 4 then tableDelete n key none k
  else if op = 5 then tableDelete n key (some (entryStamp e)) k
  else if op = 6 then k tblOk (e.fld 0 2) (e.fld 2 16) (s.entry n (e.fld 0 18))
  else if op = 7 then .seq (tableFlush n) (k tblOk 0 0 0)
  else k tblOk 0 0 (BitVec.ofNat 128 (s.blockDigest n (e.fld 0 8)))

/-- The entry staged in FWD_DATA0–FWD_DATA3. -/
def stagedData (s : State) : Entry :=
  BitVec.ofNat 128 ((List.range 4).foldr (fun i v => (s.reg (FWD_DATAx i)).toNat + 2 ^ 32 * v) 0)

/-- A command written to FWD_CMD (R279, R280): refused and counted while BUSY, else started. On revision A1 a FLUSH of
FP0 or FP1 holds its table until it ends. -/
def tableCmdReg (op n : Nat) (ecc : Option EccFault) : Act := .read fun s =>
  if s.bit FWD_CMD_STAT_BUSY then sat FWD_CMD_REFUSED
  else all [setB FWD_CMD_STAT_BUSY true, setB FWD_CMD_STAT_VALID false,
    tableOp true op n (stagedData s) ecc fun st way b r =>
      fwd fun x => { x with cmd := some ⟨st, way, b, r, if op == 7 && st == tblOk && isAir n then some n else none⟩ }]

/-- The completion STATUS of a table status (R53, R280). -/
def tableStatus (st : Nat) : Nat :=
  if st = tblOk ∨ st = tblEvicted then cplOk else if st = tblNotFound then cplNotFound
  else if st = tblNoSpace then cplNoSpace else cplError

/-- A table operation by the way it came. An engine's result is 16 bytes in data SRAM, then the R280 status (log 32). -/
def tableVia (via : Via) (op n : Nat) (ecc : Option EccFault) : Act :=
  match via with
  | .register i => permitted i FWD_CMD (tableCmdReg op n ecc)
  | .ring i => hostCmd i.val (fun c => c == 0x0100 + op) fun c =>
      when (Nat.beq (c.arg 0 1) n)
        (tableOp false op n (BitVec.ofNat 128 (c.arg 4 16)) ecc fun st way b r =>
          complete c (groupStatus c.opcode st) (.block (leBytes 16 r.toNat ++ leBytes 1 way ++ leBytes 2 b)))
  | .engine pe t d out => issueNow pe.val t.val 3 fun done =>
      tableOp false op n d ecc fun st _ _ r =>
        .seq (sram pe.val out.toNat (leBytes 16 r.toNat ++ leBytes 1 st)) (done (tableStatus st) 1 out.toNat)

end Act

/-- LOOKUP (R279). -/
def execFwdLookup (via : Via) (table : Fin 4) (ecc : Option EccFault) (s : State) : Result :=
  s.act (Act.tableVia via 1 table.val ecc)

/-- INSERT (R263, R279). -/
def execFwdInsert (via : Via) (table : Fin 4) (s : State) : Result := s.act (Act.tableVia via 2 table.val none)

/-- UPDATE (R279). -/
def execFwdUpdate (via : Via) (table : Fin 4) (s : State) : Result := s.act (Act.tableVia via 3 table.val none)

/-- DELETE (R279). -/
def execFwdDelete (via : Via) (table : Fin 4) (s : State) : Result := s.act (Act.tableVia via 4 table.val none)

/-- DELETE_IF_STAMP (R265, R279). -/
def execFwdDeleteIfStamp (via : Via) (table : Fin 4) (s : State) : Result :=
  s.act (Act.tableVia via 5 table.val none)

/-- READ_SLOT (R279). -/
def execFwdReadSlot (via : Via) (table : Fin 4) (s : State) : Result := s.act (Act.tableVia via 6 table.val none)

/-- FLUSH (R279). -/
def execFwdFlush (via : Via) (table : Fin 4) (s : State) : Result := s.act (Act.tableVia via 7 table.val none)

/-- DIGEST (R270, R279). -/
def execFwdDigest (via : Via) (table : Fin 4) (s : State) : Result := s.act (Act.tableVia via 8 table.val none)

/-- A table operation of the command register finishes: status, results and VALID are posted (R280, R285). -/
def execFwdOpComplete (s : State) : Result :=
  s.act (match s.u.fwd.cmd with
    | none => .nop
    | some c => .all [.each (List.range 4) fun i => .reg (FWD_RESx i) (BitVec.ofNat 32 (Entry.fld c.res (32 * i) 32)),
        Act.setF FWD_CMD_STAT_STATUS c.status, Act.setF FWD_CMD_STAT_WAY c.way, Act.setF FWD_CMD_STAT_BUCKET c.bucket,
        Act.setB FWD_CMD_STAT_BUSY false, Act.setB FWD_CMD_STAT_VALID true,
        Act.fwd fun x => { x with cmd := none }])

/-- The delete phase (R265): a compare-and-delete for each expired entry, in slot order, table by table. -/
def execAgeingDeletePhase (s : State) : Result :=
  s.act (.all [.each s.u.fwd.expired fun e =>
      Act.tableDelete e.1 (entryKey e.1 e.2) (some (entryStamp e.2)) fun st _ _ _ =>
        if st = tblOk then .seq (Act.wrap (FWD_TBLn_AGED e.1)) (.seq (Act.recordInput 9) (Act.fwd fun x => { x with swept := x.swept ++ [e] }))
        else Act.wrap (FWD_TBLn_CAD_LOST e.1),
    Act.fwd fun x => { x with expired := [] },
    Act.setB FWD_STATUS_SWEEP false])

/-- The standby's block takes the active unit's entries at the boundary (R271). -/
def execBlockResyncApply (s : State) : Result :=
  s.act (.all [.each s.u.fwd.resync fun b => .seq
      (.each b.entries.zipIdx fun e => Act.entry b.table (1024 * b.block + e.2) e.1) (Act.tableCount b.table),
    Act.fwd fun x => { x with resync := [] },
    Act.setB FWD_STATUS_RESYNC false])

/-- A whole-record operation of an engine role (R249): a change of bytes of the record still valid for its NSA, or, by
number, a record created or freed; class 0x7 completes it (log 33). -/
def execRecordUpdate (pe : Fin 16) (thread : Fin 4) (op : RecordOp) (s : State) : Result :=
  s.actIf (recordOpOk op) (Act.issueNow pe.val thread.val 7 fun done => .read fun s =>
    match op with
    | .change nsa off bytes =>
      if s.recValid nsa.toNat then
        .all [Act.nbrTrack nsa.toNat (.read fun s => Act.memBytes (s.recAddr nsa.toNat + off.val) bytes),
          Act.recClose nsa.toNat, done cplOk 0 0]
      else done cplNotFound 0 0
    | .create nsa bytes =>
      .all [Act.nbrTrack nsa.toNat (.seq (.read fun s => Act.memBytes (s.recAddr nsa.toNat) bytes)
          (Act.recPut nsa.toNat Node.NSA nsa.toNat)),
        .read fun s => Act.recPut nsa.toNat Node.STATE
          (stateWith (stateWith (s.node nsa.toNat Node.STATE) 5 false) 6 false),
        Act.recClose nsa.toNat, done cplOk 0 0]
    | .free n => .seq (Act.nbrTrack n.toNat (Act.recFree n.toNat)) (done cplOk 0 0))

end Sys2Proof.Machine
end

