-- ==== Sys2Proof/Machine/Keys.lean ====
section
/-!
DEFINITION. Machine/Keys.lean: the key slots' operations (R378–R384), the epoch (R389–R393), tamper (R395–R398), slot
queries (R410), the fuses (R403, R404, R411) and debug access (R401).
-/

namespace Sys2Proof.Machine

open Sys2Proof Sys2Proof.Reg Sys2Proof.Machine.Act

/-! ### Slot operations of the command ring -/

/-- A key command of the ring whose target slot has no change under way; it waits otherwise (R617). -/
def Act.keyCmd (index op target : Nat) (k : HostCmd → Nat → State → Act) : Act :=
  hostCmd index (fun o => o == op) fun c => .read fun s =>
    let n := c.arg target 2
    when (!s.slotBusy n)
      (if !s.mode.runs || !Nat.blt n 1024 then complete c keyError (.val 0) else k c n s)

/-- UNWRAP_TO_SLOT (R378): the blob is unwrapped under the wrapping slot, which becomes the PARENT; a failed integrity
check is counted and raised (R387, R405). A 128-bit key takes the blob's first 24 bytes. -/
def execUnwrapToSlot (index : Fin 4096) (s : State) : Result :=
  s.act <| keyCmd index 0x0501 0 fun c n s =>
    let w := c.arg 2 2
    let attr := c.arg 4 4
    let depth := (s.slot w).depth + 1
    if !s.usable w 5 || Nat.blt 3 depth then invalidKey c
    else if (s.slot n).has 8 || !permsWithin (permsOf attr) (permsOf (s.slot w).attr) then complete c keyError (.val 0)
    else fetchSlot w 5 false (invalidKey c) fun kek =>
      match Crypto.kwUnwrap kek (natBytes ((c.args.drop 8).take (if Nat.testBit attr 6 then 40 else 24))) with
      | none => all [sat SEC_UNWRAP_FAILS, raise 70 (leBytes 2 n), complete c keyError (.val 0)]
      | some key => slotWrite n
          (some ⟨leValue (bytesOfNat key), attrUnder attr depth, w, 0, 0, .valid⟩) (some c.seq)

/-- DERIVE_TO_SLOT (R378): the KDF of R366 with PURPOSE 0x07. -/
def execDeriveToSlot (index : Fin 4096) (s : State) : Result :=
  s.act <| keyCmd index 0x0502 0 fun c n s =>
    let p := c.arg 2 2
    let attr := c.arg 4 4
    let label := (BitVec.ofNat 8 7) :: (padTo 32 (c.args.drop 8)).drop 1
    if !s.usable p 3 || (s.slot p).depth == 3 then invalidKey c
    else if (s.slot n).has 8 || !permsWithin (permsOf attr) (permsOf (s.slot p).attr) then complete c keyError (.val 0)
    else fetchSlot p 3 false (invalidKey c) fun key =>
      let out := Crypto.kdf key (natBytes label) (Nat.testBit attr 6)
      .seq (wrapBy SEC_DERIVE 1)
        (slotWrite n (some ⟨leValue (bytesOfNat out), attrUnder attr ((s.slot p).depth + 1), p, 0, 0, .valid⟩)
          (some c.seq))

/-- WRAP_TO_PARTNER (R378). -/
def execWrapToPartner (source : Fin 1024) (s : State) : Result :=
  s.act <| .read fun s => when s.mode.runs (wrapToPartner source)

/-- RESTRICT (R378): ATTR bits [5:0] of the mask are cleared, and bit [8] of the mask sets LOCKED. -/
def execRestrict (index : Fin 4096) (s : State) : Result :=
  s.act <| keyCmd index 0x0503 0 fun c n s =>
    let k := s.slot n
    let mask := c.arg 2 4
    let perms := (List.range 6).foldl
      (fun v i => if Nat.testBit k.attr i && !Nat.testBit mask i then v + 2 ^ i else v) 0
    let attr := k.attr / 64 * 64 + perms
    let locked := if Nat.testBit mask 8 && !Nat.testBit attr 8 then attr + 256 else attr
    if !decide (k.state = .valid) then invalidKey c
    else if k.has 8 then complete c keyError (.val 0)
    else slotWrite n (some { k with attr := locked }) (some c.seq)

/-- ERASE (R378): not of a LOCKED slot. -/
def execErase (index : Fin 4096) (s : State) : Result :=
  s.act <| keyCmd index 0x0504 0 fun c n s =>
    if (s.slot n).has 8 then complete c keyError (.val 0) else slotWrite n none (some c.seq)

/-- SLOT_PERSIST_CONFIRMED (R379, R384): the record of the oldest write that waits for one. Confirmed, the slot starts
to drain; otherwise the operation fails, the slot stays as it was, and the sector that was being written is erased. -/
def execSlotPersistConfirmed (slot : Fin 1024) (ok : Bool) (s : State) : Result :=
  s.act <| .read fun s =>
    match s.u.sec.writes.find? fun w => !w.draining with
    | none => .nop
    | some w =>
      match w.shadow with
      | none => .nop
      | some k =>
        let g := groupOf slot
        let other := 2 * g + (match s.u.boot.flash.current g with | some 0 => 1 | _ => 0)
        when (w.slot == slot.val)
          (if ok then .seq (boot fun b => { b with flash := b.flash.writeKey slot k }) (slotDrain slot)
          else all [boot fun b => { b with flash := { b.flash with keys := b.flash.keys.put other ⟨none, []⟩ } },
            sec fun x => { x with writes := x.writes.filter fun v => !(v.slot == slot.val) },
            raise 74 (leBytes 2 slot),
            match w.cmd with
            | some c => completeSeq c keyError
            | none => .nop])

/-- SLOT_DRAIN_DONE (R380, R381): the last operation that held the old key has finished; the copies swap, the cache
forgets the slot, and its dependants are orphaned. -/
def execSlotDrainDone (slot : Fin 1024) (s : State) : Result :=
  s.act <| .read fun s =>
    match s.u.sec.writes.find? fun w => w.slot == slot.val && w.draining with
    | none => .nop
    | some w =>
      let old := s.slot slot
      let erased := { old with key := 0, gen := (old.gen + 1) % 65536, state := SlotState.empty }
      let new := match w.shadow with
        | some k => k
        | none => match s.u.sec.integrity with
          | some i => { erased with tag := tagOfSlot i slot erased }
          | none => erased
      when (s.slotHolders slot == 0)
        (all [sec fun x => { x with writes := x.writes.filter fun v => !(v.slot == slot.val) },
          putSlot slot new,
          dropCached slot,
          orphanWalk slot,
          slotsValid,
          match w.cmd with
          | some c => completeSeq c stOk
          | none => .nop])

/-- EPOCH_WRITE_CONFIRMED (R389, R392, R495): the epoch record of a pending roll reads back, or does not and is retried.
A unit that takes over rolls past the last epoch it mirrored (R393). -/
def execEpochWriteConfirmed (ok : Bool) (s : State) : Result :=
  s.act <| .read fun s =>
    when (s.u.sec.roll == some false && Nat.blt (max s.epoch s.u.sec.rollFrom) 0xFFFF)
      (if ok then
        let next := max s.epoch s.u.sec.rollFrom + 1
        all [boot fun b => { b with flash := b.flash.addEpoch (fieldOf (s.reg SEC_EPOCH) 16 16) next },
          sec fun x => { x with roll := some true }]
      else raise 74 (leBytes 2 (s.epoch + 1)))

/-! ### Tamper -/

/-- TAMPER_PIN_EDGE (R395, R409): the ball's level; reaching its active level starts the debounce. -/
def execTamperPinEdge (pin : Fin 2) (high : Bool) (s : State) : Result :=
  s.act <| .read fun s =>
    let zero := pin.val == 0
    let low := if zero then s.bit SEC_TAMPER_CFG_T0_LOW else s.bit SEC_TAMPER_CFG_T1_LOW
    let en := if zero then s.bit SEC_TAMPER_CFG_T0_EN else s.bit SEC_TAMPER_CFG_T1_EN
    let active := high != low
    if zero then all [pins fun p => { p with tamper0 := active }, setB SEC_TAMPER_STAT_T0_NOW active,
      sec fun x => { x with deb0 := active && en }]
    else all [pins fun p => { p with tamper1 := active }, setB SEC_TAMPER_STAT_T1_NOW active,
      sec fun x => { x with deb1 := active && en }]

/-- TAMPER_DEBOUNCED (R395, R396): the ball stayed active past DEB_US. -/
def execTamperDebounced (pin : Fin 2) (s : State) : Result :=
  s.act <| .read fun s =>
    if pin.val == 0 then when (s.u.sec.deb0 && s.bit SEC_TAMPER_CFG_T0_EN)
      (.seq (sec fun x => { x with deb0 := false }) (tamper 1))
    else when (s.u.sec.deb1 && s.bit SEC_TAMPER_CFG_T1_EN)
      (.seq (sec fun x => { x with deb1 := false }) (tamper 2))

/-- MONITOR_EXCURSION (R395, R650): a monitor meets its condition, or no longer does: 0 the voltage of VDD_ENG, VDD_SOC
or VDD_SRAM, 1 temperature, 2 clock, 3 the voltage of VBAT_AON. While RESET_n is low, 0 and 2 are masked. -/
def execMonitorExcursion (monitor : Fin 4) (present : Bool) (s : State) : Result :=
  s.act <| .read fun s =>
    let m := monitor.val
    let code := monitorCode m
    let seen := present && (s.u.pins.resetN || m == 1 || m == 3)
    let rest := s.u.sec.mon.filter fun k => !(k == m)
    let mon := if seen then rest ++ [m] else rest
    all [sec fun x => { x with mon := mon },
      setB SEC_TAMPER_STAT_MON_NOW (!mon.isEmpty),
      when seen (monitorMet code (monitorMode (s.reg SEC_TAMPER_CFG) code))]

/-- SEC_ZEROISE (R395, R397): the complement of a guarded write. -/
def Act.secZeroise (iface : HostIface) (comp : BitVec 32) : Act :=
  reached iface (guardComplement SEC_ZEROISE comp
    (fun v _ => if decide (v = 0x5A5A0001) then grdAccepted else grdMismatch)
    fun _ => tamper 6)

/-- SEC_ZEROISE. -/
def execSecZeroise (iface : HostIface) (comp : BitVec 32) (s : State) : Result :=
  s.act (Act.secZeroise iface comp)

/-- SEC_TAMPER_CLR (R398): the latch clears and the device resets, unless a cause is present. `ticks` of XTAL32 have
passed since the AON count was last brought up to date. -/
def Act.secTamperClr (iface : HostIface) (comp : BitVec 32) (ticks : BitVec 40) : Act :=
  reached iface (guardComplement SEC_TAMPER_CLR comp
    (fun v s => if !(decide (v = 0x5A5A0002)) then grdMismatch
      else if s.bit SEC_TAMPER_STAT_T0_NOW || s.bit SEC_TAMPER_STAT_T1_NOW || s.bit SEC_TAMPER_STAT_MON_NOW then grdBusy
      else grdAccepted)
    fun _ => .read fun s =>
      all [setB SEC_TAMPER_STAT_LATCHED false, setF SEC_TAMPER_STAT_CAUSE 0, setF SEC_TAMPER_STAT_MODE_AT 0,
        aonPass ticks.toNat,
        resetKeepStraps (if decide (s.mode = .hold) then 21 else 3)])

/-- SEC_TAMPER_CLR. -/
def execSecTamperClr (iface : HostIface) (comp : BitVec 32) (ticks : BitVec 40) (s : State) : Result :=
  s.act (Act.secTamperClr iface comp ticks)

/-! ### Slot queries -/

/-- SEC_SLOT_META0–2 show a slot (R406). -/
def Act.slotMeta (n : Nat) (tagOk : Bool) : Act := .read fun s =>
  let k := s.slot n
  all [.reg SEC_SLOT_META0 (BitVec.ofNat 32 k.attr),
    .reg SEC_SLOT_META1 (BitVec.ofNat 32 (k.parent + 2 ^ 16 * k.gen)),
    .reg SEC_SLOT_META2 (BitVec.ofNat 32
      (k.state.code + (if tagOk then 8 else 0) + 16 * min 63 (s.slotHolders n)))]

/-- A slot query: its result, and its snapshot where the key store runs (R410). -/
def Act.slotQuery (k : Act) : Act := .read fun s =>
  if s.mode.runs then all [k, setF SEC_SLOT_STAT_RESULT 0, setB SEC_SLOT_STAT_VALID true]
  else all [setB SEC_SLOT_STAT_VALID false, setF SEC_SLOT_STAT_RESULT 2]

/-- SLOT_READ_META (R410). -/
def Act.slotReadMeta (iface : HostIface) (slot : Fin 1024) : Act :=
  permitted iface SEC_SLOT_CMD (slotQuery (slotMeta slot false))

/-- SLOT_READ_META. -/
def execSlotReadMeta (iface : HostIface) (slot : Fin 1024) (s : State) : Result :=
  s.act (Act.slotReadMeta iface slot)

/-- SLOT_VERIFY_TAG (R410): the TAG is recomputed; a failure tears the slot (R382). `upset` is a storage upset it meets. -/
def Act.slotVerifyTag (iface : HostIface) (slot : Fin 1024) (upset : Bool) : Act :=
  permitted iface SEC_SLOT_CMD (slotQuery (.read fun s =>
    let good := !upset && s.tagOk slot
    .seq (when (!good && decide ((s.slot slot).state = .valid)) (tear slot)) (slotMeta slot good)))

/-- SLOT_VERIFY_TAG. -/
def execSlotVerifyTag (iface : HostIface) (slot : Fin 1024) (upset : Bool) (s : State) : Result :=
  s.act (Act.slotVerifyTag iface slot upset)

/-! ### Fuses and debug access -/

/-- FUSE_READ_REQ (R411): rows 20–28 read 0. -/
def Act.fuseReadReq (iface : HostIface) (value : BitVec 32) : Act :=
  permitted iface FUSE_READ_REQ (.read fun s =>
    let r := fieldOf value 0 7
    .seq (.reg FUSE_READ_DATA (if 20 ≤ r ∧ r ≤ 28 then 0 else s.fuseRow r))
      (.reg FUSE_READ_REQ (BitVec.ofNat 32 (2 ^ 31 + r))))

/-- FUSE_READ_REQ. -/
def execFuseReadReq (iface : HostIface) (value : BitVec 32) (s : State) : Result :=
  s.act (Act.fuseReadReq iface value)

/-- FUSE_PROG (R404): the complement of a guarded write of a row number. -/
def Act.fuseProgGuard (iface : HostIface) (comp : BitVec 32) : Act :=
  reached iface (fuseGuard FUSE_PROG comp
    (fun v s => if 128 ≤ v.toNat then grdMismatch else if s.bit FUSE_STATUS_PROG_BUSY then grdBusy else grdAccepted)
    fun v => .read fun s =>
      if fuseAllowed s.lifecycle v.toNat (s.reg FUSE_PROG_DATA) then fuseStart v.toNat (s.reg FUSE_PROG_DATA) false
      else fuseRefuse fuseProtected)

/-- FUSE_PROG. -/
def execFuseProg (iface : HostIface) (comp : BitVec 32) (s : State) : Result :=
  s.act (Act.fuseProgGuard iface comp)

/-- FUSE_ADVANCE (R403): one state forward; to RETIRED the store is zeroised and HOLD entered. -/
def Act.fuseAdvanceGuard (iface : HostIface) (comp : BitVec 32) : Act :=
  reached iface (fuseGuard FUSE_ADVANCE comp
    (fun v s => if v.toNat = 0 ∨ 4 ≤ v.toNat then grdMismatch else if s.bit FUSE_STATUS_PROG_BUSY then grdBusy else grdAccepted)
    fun v => .read fun s =>
      let l := s.lifecycle
      if !(v.toNat == l + 1) || (l == 0 && !(s.hashOk 0 && s.seedOk)) then fuseRefuse fuseBadState
      else .seq (fuseStart 0 (BitVec.ofNat 32 (15 * 2 ^ (4 * l))) true) (when (v.toNat == 3) (tamper 7)))

/-- FUSE_ADVANCE. -/
def execFuseAdvance (iface : HostIface) (comp : BitVec 32) (s : State) : Result :=
  s.act (Act.fuseAdvanceGuard iface comp)

/-- FUSE_PROG_DONE (R403, R404): `blown` are the bits that read 1 afterwards of those that were to be blown. -/
def execFuseProgDone (blown : BitVec 32) (s : State) : Result :=
  s.act <| .read fun s =>
    match s.u.fuse.job with
    | none => .nop
    | some j =>
      let new := s.fuseRow j.row ||| (j.bits &&& blown)
      let good := if j.advance then lifecycleOf new == s.lifecycle + 1 else decide (new &&& j.bits = j.bits)
      all [fuse fun f => { f with rows := f.rows.put j.row new, job := none },
        setB FUSE_STATUS_PROG_BUSY false,
        setF FUSE_STATUS_LAST (if good then fuseOk else fuseVerifyFail),
        fuseStatus,
        if good then .seq (when (!j.advance) (sat FUSE_PROG_COUNT)) .nop else sat FUSE_PROG_FAIL,
        if j.advance then when good (.read fun t => raise 76 (leBytes 1 t.lifecycle))
        else raise 75 (leBytes 1 j.row ++ leBytes 1 (if good then fuseOk else fuseVerifyFail))]

/-- DEBUG_ACCESS_OPEN (R401): in PROVISIONED with DEBUG_LOCK 0 the store is zeroised and HOLD entered. -/
def execDebugAccessOpen (s : State) : Result :=
  s.act <| .read fun s =>
    when (s.lifecycle == 1 && !Nat.testBit (s.fuseRow 0).toNat 16 && !decide (s.mode = .cold) && !decide (s.mode = .drift))
      (tamper 7)

end Sys2Proof.Machine
end

