-- ==== Sys2Proof/Machine/Pair.lean ====
section
/-!
DEFINITION. Machine/Pair.lean: the commands of the redundant pair and of self-test (R468–R509). A command whose condition
does not hold has no effect (log 12).
-/

namespace Sys2Proof.Machine

open Sys2Proof Sys2Proof.Reg Sys2Proof.Machine.Act

/-- A pair is configured. -/
def State.paired (s : State) : Bool := s.bit GEN_MODE_PAIR_CFG && !(s.pstate == 0)

/-! ### The link and the Tether -/

/-- PAIR_LINK_UP (R470): block lock has held for 1 ms. -/
def execPairLinkUp (s : State) : Result :=
  s.act <| when (s.paired && !s.bit PAIR_STATUS_LINK_UP)
    (all [setB PAIR_STATUS_LINK_UP true,
      pair fun p => { p with lseqIn := none, asked := false, helloed := false, refused := false },
      raise 96 []])

/-- PAIR_LINK_DOWN (R470, R474, R488): the Tether is lost at once, and a sync fails. -/
def execPairLinkDown (s : State) : Result :=
  s.act <| when (s.bit PAIR_STATUS_LINK_UP)
    (all [setB PAIR_STATUS_LINK_UP false,
      raise 97 [],
      pair fun p => { p with timeIn := none, syncing := false },
      when (s.u.pair.syncing) (pair fun p => { p with syncFrom := none }),
      when (s.pstate == 4 && s.u.pair.retryAt.isNone) syncFail,
      partnerLost])

/-- TETHER_SEND (R473): while boundaries are issued and the unit is not in HOLD. -/
def execTetherSend (s : State) : Result :=
  s.act <| when (s.paired && s.bit BT_STATUS_RUNNING && !decide (s.mode = .hold))
    (let bit := fun (b : Bool) (v : Nat) => if b then v else 0
    linkSend (.tether
      { beat := BitVec.ofNat 32 s.u.bt.beat
        pstate := Fin.ofNat 9 s.pstate
        mode := Fin.ofNat 12 s.mode.code
        score := BitVec.ofNat 8 s.score
        flags := BitVec.ofNat 8 (bit (s.bit PAIR_STATUS_ALIVE_DRV) 1 + bit (s.bit PAIR_STATUS_ARBITRATING) 2 +
          bit (s.bit TK_STATUS_TRACE) 4)
        last := BitVec.ofNat 32 s.u.pair.lastRec
        compared := BitVec.ofNat 32 ((s.u.pair.compared.map (·.1.beat)).getD 0) }))

/-- The serving unit restarts once its partner, on the new version, stands by in good health (R572). -/
def Act.updateFollow : Act := .read fun s =>
  match s.u.pair.tether with
  | some t => when (s.u.boot.activateWait && s.u.boot.activateAt.isNone && t.pstate.val == 6 && s.u.pair.refused &&
      Nat.ble (s.fld PAIR_HEALTH_CFG_OK_MIN) t.score.toNat)
      (boot fun b => { b with activateAt := some none })
  | none => .nop

/-- TETHER_RECEIVED (R473): the partner lives; a unit outside step may start to pair. -/
def execTetherReceived (lseq : BitVec 32) (t : TetherIn) (s : State) : Result :=
  s.act <| when (s.paired && s.bit PAIR_STATUS_LINK_UP)
    (all [linkTake lseq .nop,
      pair fun p => { p with tether := some t, quiet := 0 },
      setB PAIR_STATUS_TETHER_OK true,
      setF ⟨PAIR_SCORE, 8, 8⟩ t.score.toNat,
      helloStart,
      updateFollow])

/-- TETHER_MISS (R474): a 100 µs period with no TETHER. -/
def execTetherMiss (s : State) : Result := s.act <| when s.paired (wrap PAIR_TETHER_MISS)

/-- TETHER_LOST (R474): 310 µs after the last TETHER. -/
def execTetherLost (s : State) : Result := s.act partnerLost

/-- PAIR_ALIVE_EDGE (R475, R478). -/
def execPairAliveEdge (low : Bool) (s : State) : Result :=
  s.act <| .seq (setB PAIR_STATUS_ALIVE_LOW low) aliveHeld

/-- ALIVE_WATCHDOG_EXPIRY (R475): no boundary for 1,100 µs. -/
def execAliveWatchdogExpiry (s : State) : Result := s.act aliveRelease

/-- START_CLAIM (R479): the line has been high for its interval. -/
def execStartClaim (s : State) : Result :=
  s.act <|
    let a := s.bit PAIR_STATUS_ROLE_A
    let alone := !s.bit PAIR_STATUS_TETHER_OK
    let waits := match s.u.pair.tether with
      | some t => t.pstate.val == 3
      | none => false
    when ((s.pstate == 3 || s.pstate == 6) && !s.bit PAIR_STATUS_ALIVE_LOW && s.bit BT_STATUS_RUNNING &&
        (if alone then a || Nat.ble (s.fld PAIR_TIMING_BOOT_WAIT_S) s.u.pair.quiet else a && waits))
      (.seq (setB PAIR_STATUS_ALIVE_DRV true) (pairNext 1))

/-! ### The record -/

/-- The record of a beat with entries added (R482). -/
def recordAdd (beat : Nat) (es : List RecEntry) (l : List InRecord) : List InRecord :=
  if l.any fun r => r.beat == beat then l.map fun r => if r.beat = beat then { r with entries := r.entries ++ es } else r
  else l ++ [⟨beat, es, false⟩]

/-- A record of this beat is of use: the unit shadows it, or will. -/
def State.takesRecord (s : State) (beat : Nat) : Bool :=
  Nat.blt s.u.pair.execd beat && match s.pstate with
  | 4 => match s.u.pair.syncFrom with
    | some f => Nat.ble f beat
    | none => false
  | 5 => true
  | 8 => true
  | _ => false

/-- What a unit in beat H forwards reaches the one that takes over (R493). -/
def Act.forwarded (x : RecEntry) : Act := .read fun s =>
  match x with
  | .ple port h mac vid m => match s.ingressQueue port.idx with
    | some q => pleIngress port.idx q mac.toNat vid.toNat h s.bindBeat m
    | none => .nop
  | _ => .nop

/-- INPUT_RECEIVED (R482, R493). -/
def execInputReceived (lseq beat : BitVec 32) (entries : List RecEntry) (s : State) : Result :=
  s.act <| linkTake lseq (.read fun s =>
    let b := s.nearBeat beat.toNat
    if s.pstate = 7 then each entries forwarded
    else when (s.takesRecord b) (pair fun p => { p with recs := recordAdd b entries p.recs }))

/-- SEAL_RECEIVED (R481, R482): the record is complete where its count and CRC agree, and starts where the beat waits for
it. -/
def execSealReceived (lseq beat : BitVec 32) (count : BitVec 32) (crcOk : Bool) (s : State) : Result :=
  s.act <| linkTake lseq (.read fun s =>
    let b := s.nearBeat beat.toNat
    let held := recordAdd b [] s.u.pair.recs
    when (s.takesRecord b && crcOk && held.any fun r => r.beat == b && r.entries.length == count.toNat)
      (.seq (pair fun p => { p with
          recs := held.map fun r => if r.beat = b then { r with closed := true } else r
          lastRec := b })
        (when (s.shadows && s.workBeat == b) shadowStart)))

/-- SEAL_WAIT_EXPIRY (R481): out of step. -/
def execSealWaitExpiry (s : State) : Result :=
  s.act <| when (s.shadows && Nat.blt s.u.pair.execd s.workBeat && (s.pstate == 4 || s.pstate == 5)) (pairNext 4)

/-- DIGEST_RECEIVED (R490): the partner's digests of a beat. -/
def execDigestReceived (lseq beat : BitVec 32) (plan uplink log : BitVec 64) (b0 b1 b2 b3 : BitVec 64) (s : State) : Result :=
  s.act <| linkTake lseq (.read fun s =>
    let b := s.nearBeat beat.toNat
    .seq (pair fun p => { p with partner := p.partner ++
        [⟨b, [plan.toNat, uplink.toNat, log.toNat], [b0.toNat, b1.toNat, b2.toNat, b3.toNat]⟩] })
      (digestCompare b))

/-- RESEND_RECEIVED (R472): the frames kept from the named LSEQ on go again. -/
def execResendReceived (lseq wanted : BitVec 32) (s : State) : Result :=
  s.act <| linkTake lseq (.read fun s =>
    wrapBy PAIR_RESENDS
      (s.u.pair.out.filter fun f => Nat.blt ((f.lseq + 2 ^ 32 - wanted.toNat) % 2 ^ 32) (2 ^ 31)).length)

/-- LINK_FRAME_CRC_FAIL (R472): the frame is dropped, and the first one missing asked for. -/
def execLinkFrameCrcFail (s : State) : Result :=
  s.act <| when (s.bit PAIR_STATUS_LINK_UP) (all [sat PAIR_LINK_CRC, faultClass 18, linkAsk])

/-- DIVERSITY_RECEIVED (R484). -/
def execDiversityReceived (lseq : BitVec 32) (x : AirRx) (s : State) : Result :=
  s.act <| linkTake lseq (.read fun s =>
    when (s.mode.serves && s.live && !(s.pstate == 8))
      (if s.matchesHeard x then wrap PAIR_DIV_DUP
      else all [recordInput 2, wrap PAIR_DIV_IN, rxIn x s.bindBeat]))

/-- LLR_RECEIVED (R485): shared LLRs are added to the unit's own for the codeword, which is decoded again. -/
def execLlrReceived (lseq : BitVec 32) (decoder : Fin 80) (codeword : Fin 16) (stopNs : BitVec 64) (llrs : List (BitVec 6))
    (s : State) : Result :=
  s.actIf (llrsOk llrs) <| linkTake lseq (.read fun s =>
    let near := 2 * symbolNs (s.chRate decoder) + 2000
    match s.u.rx.frames.find? fun f => f.decoder == decoder.val && Nat.ble (s.sampleNs f.stop) (stopNs.toNat + near) &&
        Nat.ble stopNs.toNat (s.sampleNs f.stop + near) with
    | none => .nop
    | some f => match f.cws[codeword.val]? with
      | none => .nop
      | some c => when (decide (c.result = .fail) && !c.llrs.isEmpty && decide (s.mode = .standby))
        (let sum := (c.llrs.zip (llrs.map BitVec.toInt)).map fun p => max (-31) (min 31 (p.1 + p.2))
        .seq (rxFrame f.id fun g => { g with
            settled := false
            cws := g.cws.zipIdx.map fun d =>
              if d.2 = codeword.val then { d.1 with result := .waiting, llrs := sum } else d.1 })
          (.seq (rx fun x => { x with reqs := x.reqs ++
              [⟨f.id, codeword, c.beat, none, s.fld RXD_LDPC_MAX_ITER, sum, none⟩] }) poolStat)))

/-- BULK_RECEIVED (R480, R488): a joining unit applies one item of the copy. -/
def execBulkReceived (lseq : BitVec 32) (item : BulkItem) (s : State) : Result :=
  s.act <| linkTake lseq (.read fun s => when (s.pstate == 4 && s.u.pair.syncFrom.isNone) (bulkItem item))

/-- TIME_FRAME_RECEIVED (R486): `sent` is when the frame left the partner, `echo` when the partner received this unit's
last. The link delay comes from the round trip; a standby is stepped once while SYNCING and armed, and its servo follows
from then on with an increment the spec leaves open. -/
def execTimeFrameReceived (lseq : BitVec 32) (sent echo : BitVec 64) (edges : BitVec 40) (s : State) : Result :=
  s.act <| linkTake lseq (.read fun s0 =>
    .seq (when (s0.bit TK_STATUS_RUNNING) (timePasses edges.toNat)) (.read fun s =>
      let now : Int := s.u.tk.ns
      let asym : Int := 2 * (BitVec.ofNat 5 (s.fld PAIR_TIMING_LINK_ASYM)).toInt
      let delay := match s.u.pair.timeSent with
        | some t1 => ((now - t1) - ((sent.toNat : Int) - echo.toNat)) / 2 + asym
        | none => s.u.pair.linkDelay
      let off := (sent.toNat : Int) + delay - now
      all [pair fun p => { p with timeIn := some s.u.tk.ns, linkDelay := delay },
        if s.pstate == 4 && s.bit TK_STATUS_ARMED && !s.bit TK_STATUS_STEP_BUSY then
          all [setB TK_STATUS_ARMED false, setB TK_STATUS_STEP_BUSY true, tk fun t => { t with step := some off }]
        else when (s.pstate == 4 || s.pstate == 5)
          (free fun v => tk fun t => { t with inc := incLow + v.toNat % (incHigh - incLow + 1) })]))

/-! ### Pairing and switchovers -/

/-- HELLO_RECEIVED (R487): the pairing checks, on both units. -/
def execHelloReceived (lseq : BitVec 32) (h : Hello) (s : State) : Result :=
  s.act <| linkTake lseq (.read fun s =>
    let joins := s.pstate == 3 || s.pstate == 6 || s.pstate == 4
    let serving := s.pstate == 1 || s.pstate == 2
    let n := helloDiffers s.hello h
    .seq (when serving (linkSend (.hello s.hello)))
      (if n = 0 then
        .seq (when (joins && s.u.pair.helloed && !(s.pstate == 4)) (pairNext 4))
          (when serving (pair fun p => { p with syncing := true, syncFrom := none }))
      else
        all [raise 101 (leBytes 1 n), pair fun p => { p with refused := true },
          when joins (pairNext 6)]))

/-- SWITCH_RECEIVED (R493): the partner names beat H; the unit that will take control starts its epoch write (R393). -/
def execSwitchReceived (lseq beat : BitVec 32) (s : State) : Result :=
  s.act <| linkTake lseq (.read fun s =>
    let h := s.nearBeat beat.toNat
    when ((s.pstate == 5 || s.pstate == 2) && s.u.pair.switch.isNone)
      (all [pair fun p => { p with switch := some ⟨h, s.pstate == 5, true, s.u.bt.beat, false, if s.pstate = 2 then 4 else 1⟩ },
        linkSend (.switchAck h),
        when (s.pstate == 5) requestRoll]))

/-- SWITCH_ACK_RECEIVED (R493): both units know beat H. -/
def execSwitchAckReceived (lseq beat : BitVec 32) (s : State) : Result :=
  s.act <| linkTake lseq (.read fun s =>
    match s.u.pair.switch with
    | none => .nop
    | some w => when (!w.acked && w.h == s.nearBeat beat.toNat)
      (.seq (pair fun p => { p with switch := some { w with acked := true } }) (when w.incoming requestRoll)))

/-- SWITCH_ACK_TIMEOUT (R493): two beats without an answer. -/
def execSwitchAckTimeout (s : State) : Result :=
  s.act <| match s.u.pair.switch with
    | none => .nop
    | some w => when (!w.acked && Nat.ble (w.sentAt + 2) s.u.bt.beat) (switchCancel 3)

/-- SWITCHOVER_ALIVE_CLAIM (R493): in beat H, the line high for 100 µs. -/
def execSwitchoverAliveClaim (s : State) : Result :=
  s.act <| when (s.pstate == 7 && s.u.pair.takeover.isNone && !s.bit PAIR_STATUS_ALIVE_LOW)
    (setB PAIR_STATUS_ALIVE_DRV true)

/-! ### Arbitration and blocks -/

/-- ARB_RECEIVED (R492). -/
def execArbReceived (lseq : BitVec 32) (verdict : Verdict) (score : BitVec 8) (s : State) : Result :=
  s.act <| linkTake lseq (.read fun s =>
    match s.u.pair.arb with
    | none => .nop
    | some a => .seq (pair fun p => { p with arb := some { a with partner := some (verdict, score.toNat) } }) arbHeld)

/-- YIELD_RECEIVED (R492): the partner is out of step until it has synced, and nothing of it is compared. -/
def execYieldReceived (lseq : BitVec 32) (s : State) : Result :=
  s.act <| linkTake lseq (pair fun p => { p with own := [], partner := [], blockMiss := [] })

/-- BLOCK_FRAME_RECEIVED (R271). -/
def execBlockFrameReceived (lseq : BitVec 32) (table : Fin 4) (block : BitVec 8) (entries : List (BitVec 128)) (s : State) :
    Result :=
  s.actIf (blockOk entries) <| linkTake lseq (.read fun s =>
    when (s.shadows && Nat.blt block.toNat (tableBlocks table))
      (.seq (fwd fun x => { x with resync := x.resync ++ [⟨table, block.toNat, entries⟩] }) (setB FWD_STATUS_RESYNC true)))

/-- REEXECUTION_DONE (R491): whether the second execution of the beat gave the first one's digests. -/
def execReexecutionDone (consistent : Bool) (s : State) : Result :=
  s.act <| match s.u.pair.arb with
    | none => .nop
    | some a => when (Nat.ble a.start s.u.bt.beat) (arbSend (if consistent then .consistent else .inconsistent))

/-- REEXECUTION_DEADLINE (R491): the commit window of the third beat after it started. -/
def execReexecutionDeadline (s : State) : Result :=
  s.act <| match s.u.pair.arb with
    | none => .nop
    | some a => when (Nat.ble (a.start + 3) s.u.bt.beat) (arbSend .inconclusive)

/-! ### Takeover, sync and reclaim -/

/-- TAKEOVER_DECISION (R494): instant D. -/
def execTakeoverDecision (s : State) : Result :=
  s.act <| when (s.pstate == 5 && !s.bit PAIR_STATUS_TETHER_OK && !s.bit PAIR_STATUS_ALIVE_LOW && s.u.pair.takeover.isNone)
    (all [pair fun p => { p with takeover := some p.lastRec, switch := none }, faultClass 17, requestRoll, pairNext 7])

/-- STALE_TAKEOVER_EXPIRY (R478): PAIR_ALIVE high for 1 ms on a DETACHED unit. -/
def execStaleTakeoverExpiry (s : State) : Result :=
  s.act <| when (s.pstate == 6 && s.bit PAIR_CFG_STALE_TAKEOVER && !s.bit PAIR_STATUS_ALIVE_LOW && s.u.pair.takeover.isNone)
    (all [pair fun p => { p with takeover := some p.lastRec, switch := none }, requestRoll, pairNext 7])

/-- SYNC_TIMEOUT (R488): 120 s. -/
def execSyncTimeout (s : State) : Result :=
  s.act <| when (s.pstate == 4 && match s.u.pair.syncAt with
    | some b => Nat.ble (b + 120000) s.u.bt.beat
    | none => false) syncFail

/-- SYNC_RETRY_EXPIRY (R488): 10 s after a failed sync. -/
def execSyncRetryExpiry (s : State) : Result :=
  s.act <| when (match s.u.pair.retryAt with
    | some b => Nat.ble b s.u.bt.beat
    | none => false)
    (.seq (pair fun p => { p with retryAt := none, syncAt := some s.u.bt.beat }) (when (s.pstate == 4) helloSend))

/-- RECLAIM_HOLD_EXPIRY (R498). -/
def execReclaimHoldExpiry (s : State) : Result :=
  s.act <| when (s.bit PAIR_CFG_REVERTIVE && s.u.pair.holdRuns && s.u.pair.holdS == 0 && holdGood s)
    (.seq (pair fun p => { p with holdRuns := false }) (startSwitch 4 false))

/-! ### PAIR_CMD and its registers (R505–R509) -/

/-- A write of PAIR_CMD (R508): refused while a command is in progress; NOT_ALLOWED in a state that does not allow it. -/
def Act.pairCmd (iface : HostIface) (allowed : State → Bool) (go : Act) : Act :=
  permitted iface PAIR_CMD (.read fun s =>
    if s.bit PAIR_CMD_STAT_BUSY then sat PAIR_CMD_REFUSED
    else if allowed s then .seq (setF PAIR_CMD_STAT_RESULT 0) go
    else setF PAIR_CMD_STAT_RESULT 1)

/-- SWITCH of PAIR_CMD. -/
def Act.pairSwitch (iface : HostIface) : Act :=
  pairCmd iface (fun s => s.pstate == 2) (.read fun s =>
    if s.u.pair.switch.isSome then setF PAIR_CMD_STAT_RESULT 1
    else .seq (setB PAIR_CMD_STAT_BUSY true) (startSwitch 1 true))

/-- RESYNC of PAIR_CMD: a barred unit may pair again (R492). -/
def Act.pairResync (iface : HostIface) : Act :=
  pairCmd iface (fun s => s.pstate == 5 || s.pstate == 6) (.read fun s =>
    .seq (pair fun p => { p with barred := false, refused := false, helloed := false, retryAt := none })
      (if s.pstate = 5 then pairNext 4 else helloStart))

/-- HOLD_RECLAIM of PAIR_CMD. -/
def Act.pairHoldReclaim (iface : HostIface) : Act := pairCmd iface State.paired holdRestart

/-- DETACH of PAIR_CMD: LEAD becomes ALONE, SHADOW and SYNCING become DETACHED. -/
def Act.pairDetach (iface : HostIface) : Act :=
  pairCmd iface (fun s => !(s.pstate == 0)) (.read fun s =>
    if s.pstate = 2 then .seq (pair fun p => { p with syncing := false, syncFrom := none }) (pairNext 1)
    else if s.pstate = 5 ∨ s.pstate = 4 then .seq (pair fun p => { p with barred := true }) (pairNext 6)
    else pair fun p => { p with syncing := false, syncFrom := none, barred := p.barred || s.pstate == 6 || s.pstate == 3 })

/-- PAIR_SWITCH (R493, R508). -/
def execPairSwitch (iface : HostIface) (s : State) : Result := s.act (pairSwitch iface)

/-- PAIR_RESYNC (R508). -/
def execPairResync (iface : HostIface) (s : State) : Result := s.act (pairResync iface)

/-- PAIR_HOLD_RECLAIM (R498, R508). -/
def execPairHoldReclaim (iface : HostIface) (s : State) : Result := s.act (pairHoldReclaim iface)

/-- PAIR_DETACH (R508). -/
def execPairDetach (iface : HostIface) (s : State) : Result := s.act (pairDetach iface)

/-- PAIR_ROLE_OVR (R509): the complement of the guarded write. -/
def Act.pairRoleOvr (iface : HostIface) (comp : BitVec 32) : Act :=
  reached iface (guardComplement PAIR_ROLE_OVR comp
    (fun v _ => if v = 0x5A5A0010 ∨ v = 0x5A5A0011 ∨ v = 0x5A5A0012 then grdAccepted else grdMismatch)
    fun v => .read fun s =>
      let o := if v = 0x5A5A0010 then none else some (decide (v = 0x5A5A0011))
      .seq (pair fun p => { p with roleOvr := o }) (setB PAIR_STATUS_ROLE_A (o.getD (!s.u.pins.roleB))))

/-- PAIR_ROLE_OVR. -/
def execPairRoleOvr (iface : HostIface) (comp : BitVec 32) (s : State) : Result :=
  s.act (Act.pairRoleOvr iface comp)

/-- PAIR_DIG_REQ (R507): both units' digests of the last beat compared. -/
def Act.pairDigReq (iface : HostIface) (value : BitVec 32) : Act :=
  permitted iface PAIR_DIG_REQ (.read fun s =>
    let half := fun (d : DigestSet) (i : Nat) => BitVec.ofNat 32 (d.streams.getD (i / 2) 0 / 2 ^ (32 * (i % 2)))
    match s.u.pair.compared with
    | none => .reg PAIR_DIG_REQ (storedValue PAIR_DIG_REQ value ||| 0x80000000)
    | some (a, b) => all [.reg PAIR_DIG_BEAT (BitVec.ofNat 32 a.beat),
        each (List.range 6) fun i => .seq (.reg (PAIR_DIG_OWNx i) (half a i)) (.reg (PAIR_DIG_PARTx i) (half b i)),
        .reg PAIR_DIG_REQ (storedValue PAIR_DIG_REQ value ||| 0x80000000)])

/-- PAIR_DIG_REQ. -/
def execPairDigReq (iface : HostIface) (value : BitVec 32) (s : State) : Result :=
  s.act (Act.pairDigReq iface value)

/-! ### Self-test (R500) -/

/-- LOGIC_BIST_DONE (R47, R500): logic or memory BIST of the engine under test ends. -/
def execLogicBistDone (pe : Fin 16) (pass : Bool) (s : State) : Result :=
  s.act <| when ((s.engine pe).bist)
    (.seq (selfTestRun 1 pass (engineFault pe 8))
      (when pass (all [engine pe fun e => { e with bist := false }, setF (BT_ENG_STATE_n pe) engServing, rolesFollow])))

/-- LDPC_KAT (R500): a core that fails is out of the pool until it passes. -/
def execLdpcKat (core : Fin 8) (pass : Bool) (s : State) : Result :=
  s.act <| when s.mode.runs
    (.seq (selfTestRun 3 pass .nop) (.seq (pair fun p =>
      let rest := p.ldpcOut.filter fun k => !(k == core.val)
      { p with ldpcOut := if pass then rest else rest ++ [core.val] }) poolStat))

/-- CIPHER_KAT (R500). -/
def execCipherKat (core : Fin 8) (pass : Bool) (s : State) : Result :=
  s.act <| when s.mode.runs
    (.seq (selfTestRun 4 pass .nop) (pair fun p =>
      let rest := p.aesOut.filter fun k => !(k == core.val)
      { p with aesOut := if pass then rest else rest ++ [core.val] }))

/-- ECDSA_KAT (R500): while it fails, image verification is refused. -/
def execEcdsaKat (pass : Bool) (s : State) : Result :=
  s.act <| when s.mode.runs (.seq (selfTestRun 5 pass .nop) (pair fun p => { p with ecdsaBad := !pass }))

/-- A chain that fails its loopback enters FAULT, and retries as R125 gives. -/
def Act.radioFail (chain : Chain) : Act :=
  all [txOff chain, txSetState chain stFault, txUnit chain fun t => { t with retries := 4 }, rfEvent 19 chain]

/-- RADIO_LOOPBACK (R500). -/
def execRadioLoopback (chain : Chain) (pass : Bool) (s : State) : Result :=
  s.act <| when s.mode.runs (.seq (recordInput 0x10) (selfTestRun 6 pass (radioFail chain)))

/-- VOTER_CHECK (R500): forcing one copy of each voter; a failure enters HOLD. -/
def execVoterCheck (pass : Bool) (s : State) : Result :=
  s.act <| when s.mode.runs (selfTestRun 7 pass (tamper 7))

end Sys2Proof.Machine
end

