-- ==== Sys2Proof/Machine/PowerOps.lean ====
section
/-!
DEFINITION. Machine/PowerOps.lean: power requests and their refusers (R524–R526), DOZE (R520, R522), DRIFT entry and
wake (R527–R534), and what a boundary does of them.
-/

namespace Sys2Proof.Machine

open Sys2Proof Sys2Proof.Reg

/-! ### Requests -/

/-- The number PWR_REQ.OP gives an operation (R540). -/
def PwrOp.code : PwrOp → Nat
  | .level _ => 1 | .doze => 2 | .serve => 3 | .drift => 4 | .other n => n

/-- PEND_SRC (R540). -/
def PwrSrc.code : PwrSrc → Nat
  | .host => 1 | .mains => 2 | .thermal => 3

/-- Refusers (R526). -/
def refMode : Nat := 1
def refAccess : Nat := 2
def refPair : Nat := 3
def refConfig : Nat := 4
def refThermal : Nat := 5
def refSupply : Nat := 6
def refUpdate : Nat := 7

/-- RESULT codes of PWR_REQ_STAT (R540). -/
def pwrDone : Nat := 1
def pwrNoChange : Nat := 2
def pwrRefused : Nat := 3
def pwrSuperseded : Nat := 4
def pwrFailed : Nat := 5

/-- The image has a Doze profile (R521). -/
def State.hasDoze (s : State) : Bool :=
  !(s.reg PWR_DOZE_ENG == 0 && s.reg (PWR_DOZE_DECx 0) == 0 && s.reg (PWR_DOZE_DECx 1) == 0 && s.reg (PWR_DOZE_DECx 2) == 0)

/-- An own-image update or a migration is being applied (R526). -/
def State.updating (s : State) : Bool :=
  s.u.boot.migrating || (match s.u.boot.session with | some x => x.state == 2 | none => false)

/-- The operation has a transition from the current mode (R510, R513). -/
def State.pwrModeOk (s : State) : PwrOp → Bool
  | .level _ => s.mode.runs
  | .doze => decide (s.mode = .solo)
  | .serve => decide (s.mode = .doze)
  | .drift => decide (s.mode = .solo) || decide (s.mode = .doze)
  | .other _ => false

/-- The first refuser that applies (R526). -/
def State.refuser (s : State) (r : PwrReq) : Option Nat :=
  let sleep := match r.op with | .doze | .drift => true | _ => false
  let above := match r.op with | .level l => Nat.blt (s.fld PWR_THERM_CAP_LEVEL) l | _ => false
  let locked := match r.op with | .level l => s.u.pwr.locked.contains l | _ => false
  if !s.pwrModeOk r.op then some refMode
  else if decide (r.src = .host) && !s.allows 12 then some refAccess
  else if sleep && !(s.fld PAIR_STATUS_PSTATE == 0) then some refPair
  else if decide (r.op = .doze) && !s.hasDoze then some refConfig
  else if decide (r.op = .drift) && !s.bit PWR_DRIFT_CFG_EN then some refConfig
  else if above && s.u.pwr.capped then some refThermal
  else if (decide (r.op = .drift) && !s.u.pins.vbat18) || locked then some refSupply
  else if sleep && s.updating then some refUpdate
  else none

namespace Act

/-- PENDING, PEND_OP and PEND_SRC follow the slot. -/
def slotStat : Act := .read fun s =>
  match s.u.pwr.slot with
  | none => all [setB PWR_REQ_STAT_PENDING false, setF PWR_REQ_STAT_PEND_OP 0, setF PWR_REQ_STAT_PEND_SRC 0]
  | some r => all [setB PWR_REQ_STAT_PENDING true, setF PWR_REQ_STAT_PEND_OP r.op.code,
      setF PWR_REQ_STAT_PEND_SRC r.src.code]

/-- The record of a request in an event: operation, level and source. -/
def reqRecord (r : PwrReq) : List Byte :=
  leBytes 1 r.op.code ++ leBytes 1 (match r.op with | .level l => l | _ => 0) ++ leBytes 1 r.src.code

/-- A request is refused (R525). -/
def pwrRefuse (r : PwrReq) (why : Nat) : Act := .read fun s =>
  all [setF PWR_REQ_STAT_RESULT pwrRefused, setF PWR_REQ_STAT_REFUSER why,
    sat (PWR_REFr (why - 1)),
    setF PWR_LAST_REFUSAL_OP r.op.code, setF PWR_LAST_REFUSAL_SRC r.src.code, setF PWR_LAST_REFUSAL_REFUSER why,
    setF PWR_LAST_REFUSAL_BEAT s.u.bt.beat,
    raise 4 (leBytes 1 why ++ reqRecord r)]

/-- A request is staged: the transition is in progress (R525). A DRIFT request is at its commit point (R527, R533). -/
def pwrStage (r : PwrReq) : Act :=
  all [pwr fun p => { p with trans := some r },
    setB PWR_REQ_STAT_IN_PROGRESS true,
    match r.op with
    | .level l => pwr fun p => { p with nextLevel := some (l, r.src.code) }
    | .doze => pwr fun p => { p with staged := some (.doze, 17) }
    | .serve => pwr fun p => { p with staged := some (.solo, 18) }
    | .drift => pwr fun p => { p with driftEntry := 1, latchArmed := true, latch := none }
    | .other _ => .nop]

/-- POWER_SLOT_TAKE (R525). -/
def powerSlotTake : Act := .read fun s =>
  match s.u.pwr.slot with
  | none => .nop
  | some r =>
    let same := match r.op with | .level l => l == s.fld PWR_STATUS_LEVEL | _ => false
    when s.u.pwr.trans.isNone
      (all [pwr fun p => { p with slot := none }, slotStat,
        match s.refuser r with
        | some why => pwrRefuse r why
        | none => if same then setF PWR_REQ_STAT_RESULT pwrNoChange else pwrStage r])

/-- A request arrives (R525): the newest one holds the slot. With the sequencer stopped it is taken in the next
millisecond, which no beat marks, and so in the same step. -/
def pwrRequest (r : PwrReq) : Act := .read fun s =>
  all [match s.u.pwr.slot with
      | none => .nop
      | some old => all [sat PWR_SUPERSEDED, raise 3 (reqRecord old), setF PWR_REQ_STAT_RESULT pwrSuperseded],
    pwr fun p => { p with slot := some r },
    slotStat,
    when (!s.bit BT_STATUS_RUNNING && s.u.pwr.driftEntry == 0) powerSlotTake]

/-- The transition in progress ends. -/
def pwrEnd (result : Nat) : Act :=
  all [pwr fun p => { p with trans := none }, setB PWR_REQ_STAT_IN_PROGRESS false, setF PWR_REQ_STAT_RESULT result]

/-- A request of the MAINS source; DOZE is held off after a forced exit until mains has been restored (R523, R536). -/
def mainsRequest (op : PwrOp) : Act := .read fun s =>
  when (!(decide (op = .doze) && s.u.pwr.mainsHoldoff)) (pwrRequest ⟨op, .mains⟩)

/-! ### DOZE -/

/-- The number of a decoder mask made of PWR_DOZE_DECx. -/
def dozeMask (s : State) : Nat :=
  (s.reg (PWR_DOZE_DECx 0)).toNat + 2 ^ 32 * (s.reg (PWR_DOZE_DECx 1)).toNat + 2 ^ 64 * (s.reg (PWR_DOZE_DECx 2)).toNat

/-- DOZE_ENTRY (R520, R522): what the profile does not keep is gated at the boundary. -/
def dozeEnter : Act := .read fun s =>
  let eng := (s.reg PWR_DOZE_ENG).toNat
  let dec := dozeMask s
  all [pwr fun p => { p with dozeEng := eng, dozeDec := dec },
    bt fun b => { b with dozeReturn := none },
    shift .doze 17,
    each ((List.range 80).filter fun n => !Nat.testBit dec n) fun n =>
      .seq (endBoth n rxChannelOff) (decoder n fun d => { d with held := [], last := none, opened := none, spans := [] }),
    each [RfPort.s, .w] fun p => when (!((decodersOf p).any fun n => Nat.testBit dec n))
      (.seq (setB (RFx_STATUS_RX_LOCKED p) false) (rxRunning p)),
    each ((List.range 16).filter fun n => !Nat.testBit eng n && !(s.fld (BT_ROLE_n n) == 0)) fun n =>
      .seq (engine n fun e => { e with gated := true }) (setF (BT_ENG_STATE_n n) engOff),
    each (List.range 80) chStat,
    poolStat]

/-- DOZE_EXIT (R522): SOLO from this boundary; the gated resources start to return. -/
def dozeExit : Act := .read fun s =>
  let dec := s.u.pwr.dozeDec
  all [shift .solo 18,
    bt fun b => { b with dozeReturn := some 3 },
    each [RfPort.s, .w] fun p => when (s.bit (RFx_SLICE_EN p) && !((decodersOf p).any fun n => Nat.testBit dec n))
      (recalRequest p 0),
    each (List.range 80) chStat,
    poolStat]

/-! ### DRIFT -/

/-- WAKE_EN of a source of R529. -/
def wakeOn (s : State) (src : Nat) : Bool := Nat.blt 0 src && Nat.testBit (s.fld PWR_DRIFT_CFG_WAKE_EN) (src - 1)

/-- WAKE_BOOT (R533, R534): the wake is recorded and the boot ROM starts. -/
def wakeBoot (src seconds : Nat) (replayed : Bool) : Act :=
  all [wrap PWR_WAKES,
    when replayed (sat PWR_REPLAYS),
    .reg PWR_WAKE_SRC (BitVec.ofNat 32 (src + if replayed then 8 else 0)),
    .reg PWR_WAKE_TIME (BitVec.ofNat 32 seconds),
    pwr fun p => { p with latch := none },
    resetKeepStraps 3,
    pwr fun p => { p with woke := true }]

/-- A wake condition is met (R533): latched from the commit point on, a wake in DRIFT. -/
def wakeMet (src : Nat) : Act := .read fun s =>
  if !wakeOn s src then .nop
  else if decide (s.mode = .drift) then wakeBoot src s.u.tk.aonS false
  else when (s.u.pwr.latchArmed && s.u.pwr.latch.isNone) (pwr fun p => { p with latch := some (src, s.u.tk.aonS) })

/-- What the save area receives (R528). -/
def saveArea (s : State) : SaveArea where
  cfgHash := s.u.boot.cfgHash
  beat := s.u.bt.beat
  env := s.u.env
  tables := s.u.fwd.tables
  sch := { s.u.sch with plan := [], cands := [], pendCands := [] }
  bridle := s.u.mac.bridle
  listens := s.u.mac.listens
  good := true

/-- B of DRIFT entry (R527): CHANGING reads 1, and no input is bound from here on. -/
def driftB : Act :=
  all [setB GEN_MODE_CHANGING true,
    pwr fun p => { p with driftEntry := 2 },
    each (List.range 80) fun n => endBoth n rxChannelOff]

/-- 1 ms after B: the sequencer stops, transmissions ramp down, the ports and the host interface close (R527). -/
def driftStop : Act :=
  all [stopSequencer,
    txModeAbort,
    discardWork,
    linkDown 0, linkDown 1,
    pwr fun p => { p with driftEntry := 3 },
    setB HIF_STATUS_PCIE_UP false]

/-- Every domain but AON loses power (R26, R527): what they held is gone; the Envelope stays in self-refresh or goes. -/
def powerDown (retain : Bool) : Act := .read fun s =>
  all [.clear Reg.isAon,
    setF GEN_MODE_MODE s.mode.code,
    setB PWR_STATUS_MAINS (s.bit PWR_STATUS_MAINS),
    .units Units.afterReset,
    when (!retain) (.seq (.zero 0 (2 ^ 32)) (pins fun p => { p with memUp := false }))]

end Act

end Sys2Proof.Machine
end

