-- ==== Sys2Proof/Machine/Power.lean ====
section
/-!
DEFINITION. Machine/Power.lean: the power controller's commands (R510–R541). `ticks` counts the ticks of XTAL32 since the
AON count was last brought up to date.
-/

namespace Sys2Proof.Machine

open Sys2Proof Sys2Proof.Reg Sys2Proof.Machine.Act

/-- PWR_REQ_LEVEL (R524, R525): a host's write to PWR_REQ. -/
def execPwrReqLevel (iface : HostIface) (level : Fin 4) (s : State) : Result :=
  s.act <| permitted iface PWR_REQ (pwrRequest ⟨.level level, .host⟩)

/-- PWR_REQ_DOZE (R524, R525). -/
def execPwrReqDoze (iface : HostIface) (s : State) : Result :=
  s.act <| permitted iface PWR_REQ (pwrRequest ⟨.doze, .host⟩)

/-- PWR_REQ_SERVE (R524, R525). -/
def execPwrReqServe (iface : HostIface) (s : State) : Result :=
  s.act <| permitted iface PWR_REQ (pwrRequest ⟨.serve, .host⟩)

/-- PWR_REQ_DRIFT (R524, R525). -/
def execPwrReqDrift (iface : HostIface) (s : State) : Result :=
  s.act <| permitted iface PWR_REQ (pwrRequest ⟨.drift, .host⟩)

/-- THERMAL_READING (R518): the junction temperature in quarters of a degree; it is warm from 100 °C, 10 °C below the
110 °C of R1 (R501, log 26). -/
def execThermalReading (quarters : BitVec 16) (s : State) : Result :=
  s.act <| .read fun s =>
    let t := quarters.toInt
    let cap := (s.fld PWR_THERM_CAP_C : Int) * 4
    let capLevel := s.fld PWR_THERM_CAP_LEVEL
    let mode := match s.modeLevel s.mode with | some l => l | none => 0
    all [pair fun p => { p with temp := t, warm := decide (400 ≤ t) },
      setF PWR_STATUS_JUNCTION (min 255 (t / 4 + 64).toNat),
      if decide (cap ≤ t) && !s.u.pwr.capped then
        all [pwr fun p => { p with capped := true }, setB PWR_STATUS_CAPPED true,
          when (s.mode.runs && Nat.blt capLevel (s.fld PWR_STATUS_LEVEL)) (pwrRequest ⟨.level capLevel, .thermal⟩)]
      else when (decide (t < cap - 20) && s.u.pwr.capped)
        (all [pwr fun p => { p with capped := false }, setB PWR_STATUS_CAPPED false,
          when s.mode.runs (pwrRequest ⟨.level mode, .thermal⟩)])]

/-- MAINS_SENSE_EDGE (R523): the ball changes and its filter starts. -/
def execMainsSenseEdge (high : Bool) (s : State) : Result := s.act <| pins fun p => { p with mainsRaw := high }

/-- MAINS_FILTERED (R523): the ball has kept its level for DEB_MS; the loss or the restore has its action, and in DRIFT a
restore is a wake condition (R529). -/
def execMainsFiltered (ticks : BitVec 40) (s : State) : Result :=
  s.act <| .read fun s =>
    let up := s.u.pins.mainsRaw
    let on := s.fld PWR_MAINS_ON_LOSS
    when (up != s.bit PWR_STATUS_MAINS && !decide (s.mode = .cold))
      (all [aonPass ticks.toNat,
        setB PWR_STATUS_MAINS up,
        if up then
          all [raise 7 [],
            pwr fun p => { p with lossWait := false, mainsHoldoff := false },
            when (decide (s.mode = .doze) && (on == 1 || on == 3)) (mainsRequest .serve),
            wakeMet 1]
        else
          all [raise 6 [],
            when (on == 1 || on == 3) (mainsRequest .doze),
            when (on == 2) (mainsRequest .drift),
            when (on == 3) (pwr fun p => { p with lossWait := true })]])

/-- LOSS_DRIFT_EXPIRY (R523). -/
def execLossDriftExpiry (s : State) : Result :=
  s.act <| .read fun s =>
    when (s.u.pwr.lossWait && !s.bit PWR_STATUS_MAINS && s.fld PWR_MAINS_ON_LOSS == 3)
      (.seq (pwr fun p => { p with lossWait := false }) (mainsRequest .drift))

/-- DRIFT_ENTRY_COMPLETE (R527, R528, R533): state saved, keys zeroed, all domains but AON off; a latched wake replays at
once. -/
def execDriftEntryComplete (ticks : BitVec 40) (s : State) : Result :=
  s.act <| .read fun s =>
    let retain := s.bit PWR_DRIFT_CFG_RETAIN
    when (s.u.pwr.driftEntry == 3)
      (all [match s.u.pwr.slot with
          | none => .nop
          | some r => pwrRefuse r refMode,
        pwr fun p => { p with slot := none },
        drift fun d => { d with saved := if retain then some (saveArea s) else none },
        sec fun x => { x with slots := [], writes := [], cache := [], kek := none, integrity := none },
        shift .drift 19,
        setB GEN_MODE_CHANGING false,
        aonPass ticks.toNat,
        powerDown retain,
        .read fun t => match s.u.pwr.latch with
          | none => .nop
          | some (src, sec) => if decide (t.mode = .drift) then wakeBoot src sec true else .nop])

/-- SNIFF_CYCLE_START (R530): only with SNIFF or TEMP enabled, the timer Drift's own (R644), and no cycle running. -/
def execSniffCycleStart (s : State) : Result :=
  s.act <| .read fun s =>
    when (decide (s.mode = .drift) && !s.u.pwr.cycle && (wakeOn s 3 || wakeOn s 5) &&
        s.gtOwned (s.fld PWR_DRIFT_CFG_SNIFF_GT) 3)
      (pwr fun p => { p with cycle := true })

/-- SAMPLING_ISLAND_ON (R530): the temperature is read and TEMP compared. -/
def execSamplingIslandOn (quarters : BitVec 16) (ticks : BitVec 40) (s : State) : Result :=
  s.act <| .read fun s =>
    let t := quarters.toInt / 4 + 64
    when s.u.pwr.cycle
      (.seq (aonPass ticks.toNat)
        (when (decide (t < s.fld PWR_DRIFT_LIMIT_TLO) || decide ((s.fld PWR_DRIFT_LIMIT_THI : Int) < t)) (wakeMet 5)))

/-- SNIFF_CYCLE_END (R529–R531): `peak` is the highest 128 µs power of the window in dBm × 4, `detected` a preamble. -/
def execSniffCycleEnd (peak : BitVec 16) (detected : Bool) (ticks : BitVec 40) (s : State) : Result :=
  s.act <| .read fun s =>
    let energy := s.bit PWR_DRIFT_SNIFF_ENERGY && decide (-4 * (s.fld PWR_DRIFT_SNIFF_SNIFF_DBM : Int) ≤ peak.toInt)
    let hit := wakeOn s 3 && (energy || (s.bit PWR_DRIFT_SNIFF_PREAMBLE && detected))
    let n := if hit then s.u.pwr.hits + 1 else 0
    when s.u.pwr.cycle
      (all [aonPass ticks.toNat,
        pwr fun p => { p with cycle := false, hits := n },
        wrap PWR_DRIFT_SAMPLES,
        when hit (wrap PWR_SNIFF_HITS),
        when (hit && Nat.ble (s.fld PWR_DRIFT_SNIFF_HITS) n) (wakeMet 3)])

/-- DRIFT_TIMER_EXPIRY (R529): MAX_DRIFT_S since entry, on a timer that is Drift's own (R644). -/
def execDriftTimerExpiry (ticks : BitVec 40) (s : State) : Result :=
  s.act <| .read fun s =>
    when (decide (s.mode = .drift) && Nat.blt 0 (s.fld PWR_DRIFT_LIMIT_MAX_DRIFT_S) &&
        s.gtOwned (s.fld PWR_DRIFT_CFG_LIMIT_GT) 4)
      (.seq (aonPass ticks.toNat) (wakeMet 4))

/-- DRIFT_WAKE_CONDITION (R529, R533): the source's condition as filtered; `gpio` are the levels of GPIO[15:0]. -/
def execDriftWakeCondition (source : Fin 7) (gpio : BitVec 16) (ticks : BitVec 40) (s : State) : Result :=
  s.act <| .read fun s =>
    let mask := BitVec.ofNat 16 (s.fld PWR_DRIFT_GPIO_MASK)
    let value := BitVec.ofNat 16 (s.fld PWR_DRIFT_GPIO_VALUE)
    when (!(source.val == 2) || (!(mask == 0) && decide (gpio &&& mask = value &&& mask)))
      (.seq (aonPass ticks.toNat) (wakeMet source))

/-- The complement of a guarded write to PWR_MODE_FORCE (R536), for both values it knows. -/
def Act.modeForce (comp : Word) : Act :=
  guardComplement PWR_MODE_FORCE comp
    (fun v s => if decide (v = 0x5A5A000B) || (decide (v = 0x5A5A0004) && decide (s.mode = .doze)) then grdAccepted
      else grdMismatch)
    fun v => if decide (v = 0x5A5A000B) then tamper 6
      else pwr fun p => { p with exitForced := true, mainsHoldoff := true }

/-- FORCE_HOLD (R536): with 0x5A5A_000B armed, the store is zeroised and HOLD entered at once. -/
def execForceHold (iface : HostIface) (comp : BitVec 32) (s : State) : Result :=
  s.act <| reached iface (modeForce comp)

/-- FORCE_DOZE_EXIT (R536): with 0x5A5A_0004 armed in DOZE, DOZE ends at the next boundary. -/
def execForceDozeExit (iface : HostIface) (comp : BitVec 32) (s : State) : Result :=
  s.act <| reached iface (modeForce comp)

/-- PWR_RESET (R536): the effect of RESET_n; the AON fields keep their contents. -/
def Act.pwrResetGuard (iface : HostIface) (comp : BitVec 32) (ticks : BitVec 40) : Act :=
  reached iface (guardComplement PWR_RESET comp
    (fun v _ => if decide (v = 0x5A5A0020) then grdAccepted else grdMismatch)
    fun _ => .read fun s =>
      .seq (aonPass ticks.toNat) (resetKeepStraps (if decide (s.mode = .hold) then 21 else 3)))

/-- PWR_RESET. -/
def execPwrReset (iface : HostIface) (comp : BitVec 32) (ticks : BitVec 40) (s : State) : Result :=
  s.act (Act.pwrResetGuard iface comp ticks)

/-! ### Level changes -/

/-- VDD_ENG_SETTLED (R514). -/
def execVddEngSettled (s : State) : Result :=
  s.act <| pwr fun p => { p with change := p.change.map fun c => { c with settled := !c.failed } }

/-- VSETTLE_TIMEOUT (R515): the change is reversed; two failures in a row toward a level lock it out. -/
def execVsettleTimeout (s : State) : Result :=
  s.act <| .read fun s =>
    match s.u.pwr.change with
    | none => .nop
    | some c =>
      let n := match s.u.pwr.lastFail with
        | some (l, k) => if l = c.new then k + 1 else 1
        | none => 1
      when (!c.settled && !c.failed && s.bit PWR_VID_VID_EN)
        (all [pwr fun p => { p with
            change := some ⟨c.old, c.new, c.src, true, false⟩
            vid := c.old
            lastFail := some (c.new, n)
            locked := if 2 ≤ n then p.locked ++ [c.new] else p.locked },
          sat PWR_LEVEL_FAIL,
          raise 2 (leBytes 1 c.old ++ leBytes 1 c.new)])

/-- LEVEL_CHANGE_DONE (R514, R517): the engines resume, at the new level or, after a failure, at the old one; the
completions that waited are written (R57). -/
def execLevelChangeDone (s : State) : Result :=
  s.act <| .read fun s =>
    match s.u.pwr.change with
    | none => .nop
    | some c =>
      let ours := match s.u.pwr.trans with
        | some r => (match r.op with | .level _ => true | _ => false) && !(c.src == 0)
        | none => false
      when (c.failed || c.settled || !s.bit PWR_VID_VID_EN)
        (all [pwr fun p => { p with change := none },
          setB PWR_STATUS_CHANGING false,
          setF PWR_STATUS_LEVEL (if c.failed then c.old else c.new),
          setF BT_STATUS_LEVEL (if c.failed then c.old else c.new),
          when (!c.failed)
            (all [pwr fun p => { p with lastFail := none },
              wrap PWR_LEVEL_CHANGES,
              raise 1 (leBytes 1 c.old ++ leBytes 1 c.new ++ leBytes 1 c.src ++ leBytes 4 s.u.bt.beat)]),
          when ours (pwrEnd (if c.failed then pwrFailed else pwrDone)),
          releaseHeld])

end Sys2Proof.Machine
end

