-- ==== Sys2Proof/Machine/Receive.lean ====
section
/-!
DEFINITION. Machine/Receive.lean: the receive chain's commands (R159–R198): the slow AGC and its announcements,
detection and the watch, headers, codewords and the LDPC pool.
-/

namespace Sys2Proof.Machine

open Sys2Proof Sys2Proof.Reg Sys2Proof.Machine.Act

/-! ### AGC -/

/-- A port whose AGC decides: its receive path is locked and in service. -/
def State.agcOn (s : State) (p : RfPort) : Bool := s.bit (RFx_SLICE_EN p) && s.bit (RFx_STATUS_RX_LOCKED p)

/-- AGC_CLIP_ATTACK (R165): CLIP_COUNT samples at or above CLIP_LEVEL within 64. -/
def execAgcClipAttack (port : RfPort) (sample clip : BitVec 64) (samples : Fin 65) (peak : Fin 2048) (s : State) : Result :=
  s.act <|
    let g := s.gain port
    when (s.agcOn port && Nat.ble (s.fld (RXD_AGCx_CTL_CLIP_COUNT port)) samples &&
        Nat.ble (s.fld (RXD_AGCx_CTL_CLIP_LEVEL port)) peak)
      (.seq (setB (RXD_AGCx_STAT_CLIPPING port) true)
        (if g = 0 ∨ s.bit (RXD_AGCx_CTL_FREEZE port) then
          all [agc port fun a => { a with clip := if a.clip.isSome then a.clip else some clip.toNat },
            when (g == 0) (.seq (setB (RFx_STATUS_OVERLOAD port) true) (raise 26 (leBytes 1 port.idx)))]
        else gainDecision port (g - s.fld (RXD_AGCx_CTL_ATTACK_STEPS port)) sample.toNat (some clip.toNat)))

/-- The target in 1/64 dBFS (R196). -/
def State.agcTarget (s : State) (p : RfPort) : Int := -64 * (s.fld (RXD_AGCx_CTL_TARGET p) : Int)

def State.agcHyst (s : State) (p : RfPort) : Int := 64 * (s.fld (RXD_AGCx_CTL_HYST p) : Int)

/-- AGC_LEVEL_DECISION (R165, R166): the RMS over 64 µs, or over the RELEASE time where `long`, in 1/64 dBFS. -/
def execAgcLevelDecision (port : RfPort) (sample : BitVec 64) (long : Bool) (rms : BitVec 16) (s : State) : Result :=
  s.act <|
    let g := s.gain port
    when (s.agcOn port && !s.bit (RXD_AGCx_CTL_FREEZE port))
      (if long then
        when (Nat.blt g 23 && decide (rms.toInt < s.agcTarget port - s.agcHyst port))
          (if s.bit (RXD_AGCx_CTL_UP_DEFER port) && s.portBusy port then setB (RXD_AGCx_STAT_DEFERRED port) true
          else gainDecision port (g + 1) sample.toNat none)
      else
        when (Nat.blt 0 g && !s.bit (RXD_AGCx_STAT_CLIPPING port) &&
            decide (s.agcTarget port + s.agcHyst port < rms.toInt))
          (gainDecision port (g - 1) sample.toNat none))

/-- AGC_RELEASE_DEFER_END (R166): no context is in a frame, DEFER_MAX has passed, or UP_DEFER was cleared. -/
def execAgcReleaseDeferEnd (port : RfPort) (sample : BitVec 64) (expired : Bool) (s : State) : Result :=
  s.act <|
    let g := s.gain port
    when (s.bit (RXD_AGCx_STAT_DEFERRED port) && !s.bit (RXD_AGCx_CTL_FREEZE port) &&
        (expired || !s.portBusy port || !s.bit (RXD_AGCx_CTL_UP_DEFER port)))
      (.seq (setB (RXD_AGCx_STAT_DEFERRED port) false)
        (when (Nat.blt g 23) (gainDecision port (g + 1) sample.toNat none)))

/-- GAIN_STEP_EFFECTIVE (R168): the VGA and LNAx_BYP switch. LNA_BYP stays as a transmit sequence holds it (R131). -/
def execGainStepEffective (port : RfPort) (s : State) : Result :=
  s.act <|
    match (s.u.rx.agc port).next with
    | none => .nop
    | some g => all [setF (RXD_AGCx_STAT_G port) g.1,
      agc port fun a => { a with next := none },
      agcStat port,
      when (!(s.bit (RFx_STATUS_TRS_TX port) && s.bit (RFx_FE_CTL_BYP_IN_TX port)))
        (setB (RFx_STATUS_LNA_BYP port) (Nat.blt g.1 8))]

/-- CLIP_SPAN_END (R168): the CLIP record of a clipped span is issued where one is due. -/
def execClipSpanEnd (port : RfPort) (last : BitVec 64) (s : State) : Result :=
  s.act <|
    all [setB (RXD_AGCx_STAT_CLIPPING port) false, setB (RFx_STATUS_OVERLOAD port) false,
      match (s.u.rx.agc port).clip with
      | none => .nop
      | some c => .seq (agc port fun a => { a with clip := none }) (announce port 3 last.toNat c 0 (s.gain port))]

/-- ANNOUNCE_RECORD_APPLY (R169, R170): the oldest record a decoder holds, as it received it: the SEQ it read and the last
sample it had already processed. `reports` are the bypass-step reports of the contexts in payload (R164). -/
def execAnnounceRecordApply (decoder : Fin 80) (seq : BitVec 8) (processed : BitVec 64) (reports : List (BitVec 16))
    (s : State) : Result :=
  s.act <|
    let d := s.decoder decoder
    let p := decoderPort decoder
    match d.held with
    | [] => .nop
    | r :: rest =>
      let follows := match d.last with
        | none => true
        | some l => seq.toNat == (l + 1) % 256
      all [when (!follows || Nat.blt r.sEff processed.toNat) (announceGap p),
        Act.decoder decoder fun d => { d with held := rest, last := some seq.toNat },
        applyRecord decoder r,
        when r.bypass (trimExt p r.seq (reports.map fun v => v.toInt)),
        chStat decoder]

/-! ### Detection -/

/-- The context a detection opens (R172, R174). -/
def ctxOf (d : Decoder) (dfe watch : Bool) (x : Detection) : RxCtx where
  phase := 2
  start := x.start.toNat
  level := x.level.toInt
  noise := x.noise.toInt
  freq := if dfe then x.freq.toInt else 0
  comp := 0
  stepped := false
  watch := watch
  captured := false
  spans := d.spans
  frame := 0

/-- A peak on a decoder that counts as a detection (R172): at least DET_THR, its window clear of erased spans. -/
def State.detects (s : State) (n : Nat) (x : Detection) : Bool :=
  s.chOn n && s.inSlice (decoderPort n) (s.fld (RXD_CHn_CFG_CHANNEL n)) (s.chRate n) &&
  Nat.ble (s.fld RXD_DET_DET_THR) x.peak.toNat && (s.decoder n).windowClear (s.chRate n) x.window.toNat

/-- W at least this many half dB above P. -/
def above (p w : RxCtx) (halfDb : Nat) : Bool := decide (p.level + 2 * (halfDb : Int) ≤ w.level)

/-- Within ±2 T of P's timing modulo 31 T (R174). -/
def masked (rate pStart wStart : Nat) : Bool :=
  let t := symbol10 rate
  let r := (10 * wStart + 31 * t * 10 * pStart - 10 * pStart) % (31 * t)
  Nat.ble r (2 * t) || Nat.ble (29 * t) r

/-- CAPTURE_DECISION before P's header is valid (R175): a W strong enough replaces P. -/
def Act.captureDecide (n : Nat) : Act := .read fun s =>
  match (s.decoder n).p, (s.decoder n).w with
  | some p, some w => when (Nat.blt p.phase 4 && above p w (s.fld RXD_CAPTURE_CAPTURE_DB))
      (.seq (endP n rxCaptured)
        (Act.decoder n fun d => { d with p := d.p.map fun c => { c with captured := true } }))
  | _, _ => .nop

/-- PREAMBLE_DETECT (R172). -/
def execPreambleDetect (decoder : Fin 80) (found : Detection) (s : State) : Result :=
  s.act <|
    when ((s.decoder decoder).p.isNone && s.detects decoder found)
      (all [Act.decoder decoder fun d => { d with p := some (ctxOf d (s.chDfe decoder) false found) },
        wrap (RXD_CHn_DET decoder),
        chStat decoder])

/-- WATCH_DETECT (R174, R175): masked by P's timing until P's SFD matches; counted as busy while W acquires; with a valid
header of P only under LATE_EN and LATE_DB. -/
def execWatchDetect (decoder : Fin 80) (found : Detection) (s : State) : Result :=
  s.act <|
    let d := s.decoder decoder
    let w := ctxOf d (s.chDfe decoder) true found
    match d.p with
    | none => .nop
    | some p =>
      let mask := p.phase == 2 && masked (s.chRate decoder) p.start w.start
      let runs := Nat.blt p.phase 4 || s.bit RXD_CAPTURE_LATE_EN
      when (s.detects decoder found && runs && !mask)
        (if d.w.isSome then wrap RXD_WATCH_BUSY
        else when (Nat.blt p.phase 4 || above p w (s.fld RXD_CAPTURE_LATE_DB))
          (all [Act.decoder decoder fun d => { d with w := some w },
            wrap (RXD_CHn_DET decoder),
            captureDecide decoder,
            chStat decoder]))

/-- The context a command names. -/
def Decoder.ctx (d : Decoder) (watch : Bool) : Option RxCtx := if watch then d.w else d.p

/-- That context updated. -/
def Act.ctx (n : Nat) (watch : Bool) (f : RxCtx → RxCtx) : Act :=
  Act.decoder n fun d => if watch then { d with w := d.w.map f } else { d with p := d.p.map f }

/-- That context ends with a status. -/
def Act.endOne (n : Nat) (watch : Bool) (st : Nat) : Act := if watch then endW n st else endP n st

/-- SFD_MATCH (R173): 32 hard decisions at one symbol position, accepted where at most SFD_ERR bits disagree. -/
def execSfdMatch (decoder : Fin 80) (watch : Bool) (word : BitVec 32) (start : BitVec 64) (s : State) : Result :=
  s.act <|
    match (s.decoder decoder).ctx watch with
    | none => .nop
    | some c =>
      let wrong := Air.differ (Air.bitsMsb 32 word.toNat) (Air.bitsMsb 32 s.u.boot.syncWord)
      when (c.phase == 2 && Nat.ble wrong (s.fld RXD_DET_SFD_ERR))
        (all [Act.ctx decoder watch fun c => { c with phase := 3, start := start.toNat },
          captureDecide decoder,
          chStat decoder])

/-- SFD_TIMEOUT (R173): SFD_WAIT symbols have passed since the detection. -/
def execSfdTimeout (decoder : Fin 80) (watch : Bool) (s : State) : Result :=
  s.act <|
    match (s.decoder decoder).ctx watch with
    | none => .nop
    | some c => when (c.phase == 2) (endOne decoder watch rxSfdTimeout)

/-- The frame of a context whose header block is valid (R176): its end by R98. -/
def frameOf (s : State) (n : Nat) (c : RxCtx) (blk : Nat) : RxFrame where
  id := s.u.rx.next
  decoder := n
  rate := s.chRate n
  length := Air.headerLength blk
  beacon := Air.headerBeacon blk
  start := c.start
  stop := c.start + Air.symbols (s.chRate n) (Air.headerLength blk) * symbol10 (s.chRate n) / 10
  rssi := c.level
  noise := c.noise
  freq := c.freq
  flags := 0
  erased := 0
  ended := false
  settled := false
  cws := []

/-- P, with a valid header, opens its frame; the watch stops unless LATE_EN is 1 (R175, R176). -/
def Act.openFrame (n : Nat) (blk : Nat) : Act := .read fun s =>
  match (s.decoder n).p with
  | none => .nop
  | some c => all [
    rx fun x => { x with frames := x.frames ++ [frameOf s n c blk], next := x.next + 1 },
    Act.decoder n fun d => { d with p := some { c with phase := 4, frame := s.u.rx.next } },
    wrap (RXD_CHn_HDR_OK n),
    setF (RXD_CHn_STAT_RSSI n) (c.level % 65536).toNat,
    chStat n]

/-- HEADER_DECODED (R173, R175): the block the tail-biting Viterbi decoder returned is judged under R89. -/
def execHeaderDecoded (decoder : Fin 80) (watch : Bool) (block : BitVec 32) (s : State) : Result :=
  s.act <|
    let d := s.decoder decoder
    let st := headerStatus block.toNat (s.chRate decoder)
    match d.ctx watch with
    | none => .nop
    | some c => when (c.phase == 3)
      (if st ≠ rxOk then endOne decoder watch st
      else if watch then
        let late := match d.p with | some p => p.phase == 4 | none => false
        all [endP decoder (if late then rxLateCaptured else rxWatchLost),
          when late (Act.decoder decoder fun d => { d with p := d.p.map fun c => { c with captured := true } }),
          openFrame decoder block.toNat]
      else .seq (endW decoder rxWatchLost) (openFrame decoder block.toNat))

/-! ### Codewords and the LDPC pool -/

/-- CODEWORD_END (R176, R181, R182): the demapped symbols become LLRs, erased symbols 0, and the decode request is bound
(R39) and issued. -/
def execCodewordEnd (decoder : Fin 80) (soft : List Soft) (s : State) : Result :=
  s.act <|
    let d := s.decoder decoder
    match d.p with
    | none => .nop
    | some c => match s.rxFrame c.frame with
      | none => .nop
      | some f =>
        let i := f.cws.length
        let first := codewordAt f.rate f.length i
        let k := Air.kc f.rate f.length i
        let n := k + Air.np f.rate k
        let spans := d.spansOf f.rate c
        let soft' : List Soft := (soft ++ List.replicate n (Soft.mk 0 0 0 0)).take n
        let qs := soft'.zipIdx.map fun (x : Soft × Nat) =>
          if erasedAt f.rate f.start spans (first + x.2) then 0
          else llrOf (s.fld RXD_LLR_LLR_SCALE) (s.chDfe decoder) x.1
        let ll := codewordLlrs f.rate f.length i qs
        let beat := s.bindBeat
        when (c.phase == 4 && Nat.blt i (Air.codewords f.rate f.length))
          (all [Act.rxFrame f.id fun g => { g with cws := g.cws ++ [⟨beat, ll, .waiting⟩] },
            rx fun x => { x with
              reqs := x.reqs ++ [⟨f.id, i, beat, none, s.fld RXD_LDPC_MAX_ITER, ll, none⟩] },
            poolStat])

/-- RX_FRAME_END (R176): the last symbol has passed and P returns to search. -/
def execRxFrameEnd (decoder : Fin 80) (s : State) : Result :=
  s.act <|
    let d := s.decoder decoder
    match d.p with
    | none => .nop
    | some c => match s.rxFrame c.frame with
      | none => .nop
      | some f => when (c.phase == 4 && f.cws.length == Air.codewords f.rate f.length)
        (all [Act.rxFrame f.id fun g => { closeFrame s c g with ended := true },
          Act.decoder decoder fun d => { d with p := d.w, w := none },
          chStat decoder,
          settleFrame f.id])

/-- LDPC_DISPATCH (R186): the next request goes to the lowest free core. -/
def execLdpcDispatch (s : State) : Result :=
  s.act <|
    match nextReq (s.u.rx.reqs.filter fun r => r.core.isNone), s.freeLdpc with
    | some r, some k => .seq
      (rx fun x => { x with reqs := x.reqs.map fun q =>
        if q.frame = r.frame ∧ q.cw = r.cw ∧ q.engine = r.engine then { q with core := some k } else q })
      poolStat
    | _, _ => .nop

/-- What a core returns (R184): 0 iterations where the hard decisions on its input satisfy the code already, otherwise
the word it ends with where that does, and FAIL at the limit. -/
def decodeResult (rate : Nat) (r : LdpcReq) (hard : List Bool) (iters : Nat) : Option (List Bool) × Nat :=
  let input := hardBits r.llrs
  if syndromeZero rate input then (some (input.take (infoBits rate)), 0)
  else if syndromeZero rate hard && Nat.ble 1 iters && Nat.ble iters r.limit then (some (hard.take (infoBits rate)), iters)
  else (none, r.limit)

/-- LDPC_DECODE_DONE (R184): `hard` holds the word's bits, bit 0 first. -/
def execLdpcDecodeDone (core : Fin 8) (hard : BitVec 1152) (iterations : Fin 33) (s : State) : Result :=
  s.act <|
    match s.u.rx.reqs.find? fun r => r.core == some core.val with
    | none => .nop
    | some r => match s.rxFrame r.frame with
      | none => .seq (rx fun x => { x with reqs := x.reqs.filter fun q => !(q.core == some core.val) }) poolStat
      | some f =>
        let (bits, n) := decodeResult f.rate r ((List.range 1152).map hard.getLsbD) iterations
        let info := bits.map fun b => b.take (Air.kc f.rate f.length r.cw)
        all [rx fun x => { x with reqs := x.reqs.filter fun q => !(q.core == some core.val) },
          poolStat,
          wrap RXD_LDPC_DEC,
          wrapBy RXD_LDPC_ITER n,
          when info.isNone (sat RXD_LDPC_FAIL),
          when (info.isNone && r.engine.isNone && s.mode.serves && s.bit PAIR_CFG_LLR_SHARE &&
              s.bit PAIR_STATUS_LINK_UP)
            (.seq (linkSend (.llr f.decoder r.cw (s.sampleNs f.stop) r.llrs)) (wrap PAIR_LLR_SHARED)),
          match r.engine with
          | none => cwDone r.frame r.cw (match info with | some b => .ok b n | none => .fail)
          | some id => match s.u.accel.ops.find? fun o => o.id == id with
            | none => .nop
            | some o => match o.work, info with
              | .redecode _ _ out, some b =>
                let bytes := (List.range ((b.length + 7) / 8)).map fun i =>
                  BitVec.ofNat 8 ((List.range 8).foldl (fun v j => if b.getD (8 * i + j) false then v + 2 ^ j else v) 0)
                .seq (sram o.pe out bytes) (finish o cplOk 1 out)
              | _, _ => finish o cplError 0 0]

/-! ### Configuration -/

/-- DECODER_CFG_WRITE (R198). -/
def execDecoderCfgWrite (iface : HostIface) (decoder : Fin 80) (value : BitVec 32) (s : State) : Result :=
  s.act <| permitted iface (RXD_CHn_CFG decoder) (decoderCfg decoder (storedValue (RXD_CHn_CFG decoder) value))

/-- CAPTURE_CFG_WRITE (R194). -/
def execCaptureCfgWrite (iface : HostIface) (value : BitVec 32) (s : State) : Result :=
  s.act <| permitted iface RXD_CAPTURE (captureCfg (storedValue RXD_CAPTURE value))

end Sys2Proof.Machine
end

