-- ==== Sys2Proof/Machine/Time.lean ====
section
/-!
DEFINITION. Machine/Time.lean: the time keeper's commands (R413–R444). `edges` counts the TIME clock edges since device
time was last brought up to date.
-/

namespace Sys2Proof.Machine

open Sys2Proof Sys2Proof.Reg Sys2Proof.Machine.Act

/-- TIME_SECOND (R417, R429): the AON count is loaded, PPS_OUT rises, and what counts by the second does. `nap` is the
share of engine cycles spent napping in the second, in percent (R519). -/
def execTimeSecond (edges : BitVec 40) (nap : Fin 101) (s : State) : Result :=
  s.act <| when (s.bit TK_STATUS_RUNNING)
    (all [timePasses edges.toNat,
      setF ⟨PWR_NAP_PCT, 0, 7⟩ (if s.bit PWR_CFG_NAP_EN then nap.val else 0),
      .read fun s => tk fun t => { t with aonS := s.u.tk.s, aonFr := 0 },
      when (s.mode.runs && (s.fld TK_PPS_CFG_MODE == 1 || (s.fld TK_PPS_CFG_MODE == 2 && s.bit TK_STATUS_TRACE)))
        (tk fun t => { t with pps := true }),
      eth fun e => { e with p0 := { e.p0 with echoes := 0 }, p1 := { e.p1 with echoes := 0 } },
      pair fun p => { p with
        upSeconds := p.upSeconds + 1
        quiet := if s.bit PAIR_STATUS_TETHER_OK then 0 else p.quiet + 1
        holdS := if p.holdRuns then p.holdS - 1 else p.holdS },
      .read fun s => setF PAIR_STATUS_HOLD_LEFT_S s.u.pair.holdS,
      when (decide (s.mode = .hold)) (.seq healthScore healthRecord)])

/-- PPS_FALL (R429): PPS_WIDTH has passed. -/
def execPpsFall (s : State) : Result := s.act <| tk fun t => { t with pps := false }

/-- BEAT_OUT_FALL (R430): BEAT_WIDTH has passed. -/
def execBeatOutFall (s : State) : Result := s.act <| tk fun t => { t with beatOut := false }

/-- TIME_RESIDUE_FAIL (R416): the edge is repaired by the next one's double increment, so that no tick is lost; on a
second edge in a row the failure is counted and STATE becomes FAULT. -/
def execTimeResidueFail (again : Bool) (s : State) : Result :=
  s.act <| when (s.bit TK_STATUS_RUNNING)
    (if again then all [sat TK_ARITH_FAULT, raise 87 [], tkState tkFault false, healthFault 8 7,
      raise 110 [8]]
    else sat TK_RESIDUE_FIX)

/-- TK_STEP_GO (R420). -/
def Act.tkStepGo (src : Option HostIface) (value : BitVec 32) : Act :=
  written src TK_STEP_CMD (when (Nat.testBit value.toNat 0) stepGo)

/-- TK_STEP_GO. -/
def execTkStepGo (src : Option HostIface) (value : BitVec 32) (s : State) : Result :=
  s.act (Act.tkStepGo src value)

/-- TK_REARM (R419, R610): the complement of a guarded write. -/
def Act.tkRearm (iface : HostIface) (comp : BitVec 32) : Act :=
  reached iface (guardComplement TK_REARM comp
    (fun v s => if !(decide (v = 0x5A5A0003)) then grdMismatch
      else if s.bit TK_STATUS_STEP_BUSY then grdBusy else grdAccepted)
    fun _ => setB TK_STATUS_ARMED true)

/-- TK_REARM. -/
def execTkRearm (iface : HostIface) (comp : BitVec 32) (s : State) : Result :=
  s.act (Act.tkRearm iface comp)

/-- TK_INCR_WRITE (R415): edges before the write count with the old increment. -/
def Act.tkIncrWrite (src : Option HostIface) (value : BitVec 32) (edges : BitVec 40) : Act :=
  written src TK_INCR_INT (.seq (timePasses edges.toNat) (incApply value.toNat))

/-- TK_INCR_WRITE. -/
def execTkIncrWrite (src : Option HostIface) (value : BitVec 32) (edges : BitVec 40) (s : State) : Result :=
  s.act (Act.tkIncrWrite src value edges)

/-- TK_SERVO_WRITE (R423). -/
def execTkServoWrite (src : Option HostIface) (value : BitVec 32) (s : State) : Result :=
  s.act <| written src TK_SERVO (servoWrite value)

/-- SERVO_WATCHDOG_EXPIRY (R423): no write within 2 s while LOCKED. -/
def execServoWatchdogExpiry (s : State) : Result :=
  s.act <| when (s.fld TK_STATUS_STATE == tkLocked) (tkState tkHoldover true)

/-- HOLDOVER_TRACE_EXPIRY (R423). -/
def execHoldoverTraceExpiry (s : State) : Result :=
  s.act <| when (s.fld TK_STATUS_STATE == tkHoldover && s.u.tk.holdTrace)
    (.seq (tk fun t => { t with holdTrace := false }) (when (!s.shadows) (traceSet false)))

/-- TSI_EDGE (R426, R427): `phase` is the ns of the clock's four phases past the last edge. -/
def execTsiEdge (input : Fin 4) (rising : Bool) (edges : BitVec 40) (phase : Fin 4) (s : State) : Result :=
  s.act <| when (s.bit TK_STATUS_RUNNING) (.seq (timePasses edges.toNat) (.read fun s =>
    let i := input.val
    let at_ := s.u.tk.ns + phase.val
    let cfg := s.fld (TK_TSI_CFG_EDGE i)
    let enabled := cfg == 3 || (cfg == 1 && rising) || (cfg == 2 && !rising)
    let close := match s.u.tk.tsiLast.get? i with
      | none => false
      | some l => Nat.blt (at_ + 1 - l) 100
    let t := at_ - s.fld (TK_TSI_DELAY_n i)
    let fifo := s.u.tk.fifos.getD i []
    let seqNo := s.u.tk.seqs.getD i 0
    let c : Capture := ⟨t / 1000000000, t % 1000000000, rising, s.u.tk.lost.getD i false, seqNo⟩
    when (enabled && !close)
      (all [tk fun t => { t with tsiLast := t.tsiLast.put i (at_ + 1) },
        if 16 ≤ fifo.length then
          all [sat TK_CAP_LOST, raiseOnce 85 i (leBytes 1 i), tk fun t => { t with lost := t.lost.setD i false true }]
        else all [wrap (TK_CAPn i), tk fun t => { t with
            fifos := t.fifos.setD i [] (fifo ++ [c])
            lost := t.lost.setD i false false
            seqs := t.seqs.setD i 0 ((seqNo + 1) % 256) }],
        tsiFollow])))

/-- TK_CAP_REQ (R428): the oldest capture of an input, none where it is empty, or OWNED. -/
def Act.tkCapReq (iface : HostIface) (value : BitVec 32) : Act :=
  permitted iface TK_CAP_REQ (.read fun s =>
    let i := fieldOf value 0 2
    let owned := s.bit (TK_TSI_CFG_SERVO i)
    let show_ := fun (sec ns hi : Nat) => all [.reg TK_CAP_S_LO (BitVec.ofNat 32 sec),
      .reg TK_CAP_S_HI (BitVec.ofNat 32 (sec / 2 ^ 32 % 2 ^ 16 + i * 2 ^ 16 + hi)),
      .reg TK_CAP_NS (BitVec.ofNat 32 ns)]
    let bit := fun (b : Bool) (v : Nat) => if b then v else 0
    .seq (match owned, s.u.tk.fifos.getD i [] with
      | true, _ => show_ 0 0 (2 ^ 21)
      | false, [] => show_ 0 0 (2 ^ 20)
      | false, c :: rest => all [
          show_ c.s c.n (bit c.rising (2 ^ 18) + bit c.ovf (2 ^ 19) + c.seq * 2 ^ 24),
          tk fun t => { t with fifos := t.fifos.setD i [] rest },
          tsiFollow])
      (.reg TK_CAP_REQ (BitVec.ofNat 32 (i + 2 ^ 31))))

/-- TK_CAP_REQ. -/
def execTkCapReq (iface : HostIface) (value : BitVec 32) (s : State) : Result :=
  s.act (Act.tkCapReq iface value)

/-- TK_TIME_REQ (R440): S, N and the visible fraction from one edge. -/
def Act.tkTimeReq (iface : HostIface) (edges : BitVec 40) : Act :=
  permitted iface TK_TIME_REQ (.seq (timePasses edges.toNat) (.read fun s =>
    let t := s.u.tk
    all [.reg TK_TIME_S_LO (BitVec.ofNat 32 t.s), .reg TK_TIME_S_HI (BitVec.ofNat 32 (t.s / 2 ^ 32)),
      .reg TK_TIME_NS (BitVec.ofNat 32 t.n), .reg TK_TIME_FRAC (BitVec.ofNat 32 (t.fr / 2 ^ 16)),
      .reg TK_TIME_REQ (BitVec.ofNat 32 (2 ^ 31))]))

/-- TK_TIME_REQ. -/
def execTkTimeReq (iface : HostIface) (edges : BitVec 40) (s : State) : Result :=
  s.act (Act.tkTimeReq iface edges)

end Sys2Proof.Machine
end

