-- ==== Sys2Proof/Machine/HostOps.lean ====
section
/-!
DEFINITION. Machine/HostOps.lean: what a write to any BAR0 register does (R602–R610), the MSI-X table (R629), the rings'
indexes (R614, R636), and the BAR2 window (R294, R598).
-/

namespace Sys2Proof.Machine

open Sys2Proof Sys2Proof.Reg Sys2Proof.Machine.Act

/-! ### Guard blocks -/

/-- The register X of a guard block. -/
def guardAddr : GuardReg → Nat
  | .tkRearm => TK_REARM | .modeForce => PWR_MODE_FORCE | .pwrReset => PWR_RESET | .zeroise => SEC_ZEROISE
  | .tamperClr => SEC_TAMPER_CLR | .fuseProg => FUSE_PROG | .fuseAdvance => FUSE_ADVANCE | .roleOvr => PAIR_ROLE_OVR
  | .recovery => BOOT_RECOVERY

/-- A complement written to X+0x4 of each guarded register. -/
def Act.complement (i : HostIface) (g : GuardReg) (w : Word) (m : Moment) : Act :=
  match g with
  | .tkRearm => tkRearm i w
  | .modeForce => reached i (modeForce w)
  | .pwrReset => pwrResetGuard i w m.ticks
  | .zeroise => secZeroise i w
  | .tamperClr => secTamperClr i w m.ticks
  | .fuseProg => fuseProgGuard i w
  | .fuseAdvance => fuseAdvanceGuard i w
  | .roleOvr => pairRoleOvr i w
  | .recovery => bootRecoveryGuard i w m.ticks

/-- A write into a guard block behind X that is no complement (R609, R610). -/
def Act.guardBreak (x : Nat) : Act := .read fun s =>
  when (s.armed x).isSome (.seq (disarm x) (guardReject x grdInterrupted))

/-- The guard block an offset lies in, with its dword. -/
def guardAt (a : Nat) : Option (GuardReg × Nat) :=
  ([GuardReg.tkRearm, .modeForce, .pwrReset, .zeroise, .tamperClr, .fuseProg, .fuseAdvance, .roleOvr, .recovery].find?
    fun g => guardAddr g == a / 16 * 16).map fun g => (g, a % 16 / 4)

/-! ### The MSI-X table (R596, R629) -/

/-- Whether an offset lies in the MSI-X table: 128 entries of 16 bytes at 0x01_8000. -/
def inMsixTable (a : Nat) : Bool := Nat.ble 0x18000 a && Nat.blt a 0x18800

namespace Act

/-- A vector whose message waits for its mask sends it (R629). -/
def msixUnmask (v : Nat) : Act := .read fun s =>
  when (s.bit (MSIX_PENDING v) && s.bit HIF_STATUS_MSIX_EN && !s.u.hif.funcMask && s.u.hif.unmasked.contains v)
    (.seq (setF (MSIX_PENDING v) 0) (msixSend v))

/-- A write to the MSI-X table: address and data are kept; bit 0 of the fourth dword masks the vector. -/
def msixWrite (a : Nat) (w : Word) : Act :=
  let v := (a - 0x18000) / 16
  if a % 16 = 12 then
    .seq (hif fun h =>
        let rest := h.unmasked.filter fun n => !(n == v)
        { h with unmasked := if w.getLsbD 0 then rest else rest ++ [v] })
      (msixUnmask v)
  else .reg a w

end Act

/-! ### Ring indexes (R614, R636) -/

namespace Act

/-- Recovery serves its ring without beats (R574, R615): the commands doorbelled are taken as they come. -/
def recoveryTake : Act := .read fun s =>
  when (decide (s.mode = .recovery) && s.bit HIF_STATUS_RING_RUN)
    (.seq (hif fun h => { h with doorbell := s.fld HIF_CMD_TAIL_TAIL }) (takeUpTo 4095))

/-- A write to HIF_CMD_TAIL (R614): refused where it would leave fewer entries untaken. -/
def doorbell (i : HostIface) (w : Word) : Act := .read fun s =>
  let head := s.fld ⟨HIF_CMD_HEAD, 0, 12⟩
  let new := fieldOf w 0 12
  if (new + 4096 - head) % 4096 < (s.fld HIF_CMD_TAIL_TAIL + 4096 - head) % 4096 then accessError 3 i 15 HIF_CMD_TAIL
  else all [setF HIF_CMD_TAIL_TAIL new, hif fun h => { h with bell := i }, ringStatus, recoveryTake]

/-- A write to HIF_CPL_CONS (R614): refused where it would pass PROD. -/
def cplConsume (i : HostIface) (w : Word) : Act := .read fun s =>
  let cons := s.fld HIF_CPL_CONS_CONS
  if s.cplUsed < (fieldOf w 0 12 + 4096 - cons) % 4096 then accessError 3 i 15 HIF_CPL_CONS
  else all [setF HIF_CPL_CONS_CONS (fieldOf w 0 12), ringStatus, recoveryTake]

/-- A write to EVT_RINGr_CONS (R636). -/
def evtConsume (i : HostIface) (r : Nat) (w : Word) : Act := .read fun s =>
  let cons := s.fld (EVT_RINGr_CONS_CONS r)
  if s.ringUsed r < (fieldOf w 0 13 + 8192 - cons) % 8192 then accessError 3 i 15 (EVT_RINGr_CONS r)
  else .seq (setF (EVT_RINGr_CONS_CONS r) (fieldOf w 0 13)) evtStatus

/-- A write to HIF_JRN_REQ (R623). -/
def journalReq : Act := .read fun s =>
  all [.reg HIF_JRN_NEXT (BitVec.ofNat 32 s.u.hif.journalNext),
    .reg HIF_JRN_OLDEST (BitVec.ofNat 32 s.u.hif.journalOldest),
    .reg HIF_JRN_REQ 0x80000000]

/-- A write to BT_BEAT_REQ (R67). -/
def beatReq : Act := .read fun s =>
  all [.reg BT_BEAT_LO (BitVec.ofNat 32 s.u.bt.beat),
    .reg BT_BEAT_HI (BitVec.ofNat 32 (s.u.bt.beat / 2 ^ 32 % 2 ^ 26)),
    .reg BT_SAMPLE_LO (BitVec.ofNat 32 s.u.bt.sample),
    .reg BT_SAMPLE_HI (BitVec.ofNat 32 (s.u.bt.sample / 2 ^ 32)),
    .reg BT_BEAT_REQ 1]

/-! ### Registers whose write does more than store -/

/-- Store what the register keeps of a value; bits that are not the host's stay. -/
def keep (a : Nat) (w : Word) : Act := .read fun s =>
  match rowOf a with
  | none => .nop
  | some r => .reg a ((s.reg a &&& ~~~(BitVec.ofNat 32 r.writable)) ||| storedValue a w)

/-- A write to PAIR_CMD (R508). -/
def pairCmdWrite (i : HostIface) (w : Word) : Act :=
  match fieldOf w 0 3 with
  | 1 => pairSwitch i
  | 2 => pairResync i
  | 3 => pairHoldReclaim i
  | 4 => pairDetach i
  | _ => .read fun s => if s.bit PAIR_CMD_STAT_BUSY then sat PAIR_CMD_REFUSED else setF PAIR_CMD_STAT_RESULT 4

/-- A write to PWR_REQ (R524, R540). -/
def pwrReqWrite (w : Word) : Act :=
  pwrRequest ⟨match fieldOf w 0 3 with
    | 1 => .level (fieldOf w 4 2)
    | 2 => .doze
    | 3 => .serve
    | 4 => .drift
    | n => .other n, .host⟩

/-- A write to BOOT_RCV_CMD (R575). -/
def rcvCmdWrite (i : HostIface) (w : Word) (m : Moment) : Act :=
  let op := fieldOf w 0 3
  if op = 5 then rcvExit (.register i) m.ticks else rcvStart op (.register i) fun _ => .nop

/-- A write to SEC_SLOT_CMD (R412). -/
def slotCmdWrite (i : HostIface) (w : Word) (m : Moment) : Act :=
  match fieldOf w 0 2 with
  | 1 => slotReadMeta i (Fin.ofNat 1024 (fieldOf w 2 10))
  | 2 => slotVerifyTag i (Fin.ofNat 1024 (fieldOf w 2 10)) m.upset
  | _ => .seq (setB SEC_SLOT_STAT_VALID false) (setF SEC_SLOT_STAT_RESULT 1)

/-- A write to SCH_AIRx_Fq (R362): under a new queue, its head is stamped again. -/
def airFlowWrite (p : RfPort) (f : Nat) (w : Word) : Act := .read fun s =>
  let moved := !(s.fld (SCH_AIRx_Fq_QUEUE p f) == fieldOf w 0 12)
  .seq (keep (SCH_AIRx_Fq p f) w)
    (when moved (.seq (flow (2 + p.idx) f fun x => { x with stamps := x.stamps.filter fun e => x.selected.contains e.1 })
      (Act.stamp false (2 + p.idx) f)))

/-- A write to SCH_ULk_CFG (R359): shaping that is switched on starts from credit 0. -/
def ulCfgWrite (k : Nat) (w : Word) : Act := .read fun s =>
  let on := w.getLsbD 16 && !s.bit (SCH_ULk_CFG_SHAPE_EN k)
  .seq (keep (SCH_ULk_CFG k) w) (when on (sch fun x => { x with credit := x.credit.setD k 0 0 }))

/-- A write to SCH_POLk_CTL (R360): a policer that is switched on fills at the next boundary. -/
def polCtlWrite (k : Nat) (w : Word) : Act := .read fun s =>
  let on := w.getLsbD 0 && !s.bit (SCH_POLk_CTL_EN k)
  .seq (keep (SCH_POLk_CTL k) w)
    (when on (sch fun x => { x with polOn := (x.polOn.filter fun j => !(j == k)) ++ [k] }))

/-- A write to PAIR_TIMING (R508): a new RECLAIM_HOLD_S restarts the hold. -/
def pairTimingWrite (w : Word) : Act := .read fun s =>
  let old := s.fld PAIR_TIMING_RECLAIM_HOLD_S
  .seq (keep PAIR_TIMING w) (.read fun t => when (!(old == t.fld PAIR_TIMING_RECLAIM_HOLD_S)) holdRestart)

/-- A write to PAIR_HEALTH_CFG (R508): a new SWITCH_HOLD restarts the run. -/
def pairHealthWrite (w : Word) : Act := .read fun s =>
  let old := s.fld PAIR_HEALTH_CFG_SWITCH_HOLD
  .seq (keep PAIR_HEALTH_CFG w)
    (.read fun t => when (!(old == t.fld PAIR_HEALTH_CFG_SWITCH_HOLD)) (pair fun p => { p with marginRun := 0 }))

end Act

/-- The place of an offset in an array of n dwords from a base. -/
def slotIn (a base n : Nat) : Option Nat :=
  if base ≤ a ∧ a < base + 4 * n ∧ a % 4 = 0 then some ((a - base) / 4) else none

/-- What a write to an RF port's register does where it does more than store (R119, R151–R158). -/
def Act.rfWrite (p : RfPort) (a : Nat) (w : Word) (m : Moment) (s : State) : Option Act :=
  let v := storedValue a w
  if a = RFx_SLICE p then some (sliceWrite p v (s.atNs m.off) m.sample.toNat)
  else if a = RFx_RXCAL p then some (rxcalWrite p w)
  else if a = RFx_CX_CTL p then some (cxCtlWrite p v)
  else match slotIn a (RFx_TXn_CTL p 0) 2, slotIn a (RFx_DUTYr_BAND p 0) 16, slotIn a (RFx_DUTYr_LIMIT p 0) 16 with
    | some n, _, _ => some (txCtlWrite (chainOf p n) v)
    | none, some r, _ => some (dutyWrite p r true v)
    | none, none, some r => some (dutyWrite p r false v)
    | none, none, none => none

/-- What a write to a receive-chain register does where it does more than store (R194, R197, R198). -/
def Act.rxdWrite (a : Nat) (w : Word) : Option Act :=
  let v := storedValue a w
  if a = RXD_CAPTURE then some (captureCfg v)
  else if a = RXD_EXTx_STEP .s then some (extCfg .s v)
  else if a = RXD_EXTx_STEP .w then some (extCfg .w v)
  else (slotIn a (RXD_CHn_CFG 0) 80).map fun n => decoderCfg n v

/-- What a write to a forwarding or Envelope register does where it does more than store (R263, R280, R319, R321). -/
def Act.fwdWrite (a : Nat) (w : Word) (m : Moment) : Option Act :=
  if a = FWD_CMD then some (tableCmdReg (fieldOf w 0 4) (fieldOf w 4 2) m.ecc)
  else if a = ENV_QCMD then some (queueCmdReg (fieldOf w 0 4) (fieldOf w 4 12))
  else if a = ENV_FC_CTL then some (.seq (keep ENV_FC_CTL w) fcFollow)
  else none

/-- What a write to a scheduler register does where it does more than store (R358–R362). -/
def Act.schWrite (i : HostIface) (a : Nat) (w : Word) : Option Act :=
  if a = SCH_SNAP_REQ then some (schSnapReq i w)
  else if a = SCH_AIRx_CTL .s then some (airCtlWrite .s (storedValue a w))
  else if a = SCH_AIRx_CTL .w then some (airCtlWrite .w (storedValue a w))
  else match slotIn a (SCH_ULk_CFG 0) 16, slotIn a (SCH_POLk_CTL 0) 16, slotIn a (SCH_AIRx_Fq .s 0) 64,
      slotIn a (SCH_AIRx_Fq .w 0) 64 with
    | some k, _, _, _ => some (ulCfgWrite k w)
    | none, some k, _, _ => some (polCtlWrite k w)
    | none, none, some f, _ => some (airFlowWrite .s f w)
    | none, none, none, some f => some (airFlowWrite .w f w)
    | none, none, none, none => none

/-- What a write to a time-keeper register does where it does more than store (R415, R420, R423, R440). -/
def Act.tkWrite (i : HostIface) (a : Nat) (w : Word) (m : Moment) : Option Act :=
  if a = TK_STEP_CMD then some (tkStepGo (some i) w)
  else if a = TK_INCR_INT then some (tkIncrWrite (some i) w m.edges)
  else if a = TK_SERVO then some (written (some i) TK_SERVO (servoWrite w))
  else if a = TK_CAP_REQ then some (tkCapReq i w)
  else if a = TK_TIME_REQ then some (tkTimeReq i m.edges)
  else none

/-- What a write to an Ethernet register does where it does more than store (R467). -/
def Act.ethWrite (a : Nat) (w : Word) : Option Act :=
  if a = ETH_BR_CMD then some (brCmdWrite w)
  else match slotIn a (ETH_Pp_CFG 0) 2, slotIn a (ETH_Pp_PAUSE 0) 2 with
    | some p, _ => some (ethCfgWrite p w)
    | none, some p => some (ethPauseWrite p w)
    | none, none => none

/-- What a write to one of the remaining blocks does where it does more than store. -/
def Act.unitWrite (i : HostIface) (a : Nat) (w : Word) (m : Moment) : Option Act :=
  if a = BT_BEAT_REQ then some beatReq
  else if a = BT_OVR_LIMIT then some (.seq (keep a w) (bt fun b => { b with limitReset := true }))
  else if a = MAC_JOIN then some (.seq (keep a w) joinFollow)
  else if a = SEC_TAMPER_CFG then some (.read fun s => .seq (keep a w) (tamperFollow (s.reg a)))
  else if a = SEC_SLOT_CMD then some (slotCmdWrite i w m)
  else if a = FUSE_READ_REQ then some (fuseReadReq i w)
  else if a = PAIR_CMD then some (pairCmdWrite i w)
  else if a = PAIR_DIG_REQ then some (pairDigReq i w)
  else if a = PAIR_TIMING then some (pairTimingWrite w)
  else if a = PAIR_HEALTH_CFG then some (pairHealthWrite w)
  else if a = PWR_REQ then some (pwrReqWrite w)
  else if a = BOOT_RCV_CMD then some (rcvCmdWrite i w m)
  else if a = BOOT_CFG_HASH_REQ then some (cfgHashReq i)
  else if a = HIF_CMD_TAIL then some (doorbell i w)
  else if a = HIF_CPL_CONS then some (cplConsume i w)
  else if a = HIF_JRN_REQ then some journalReq
  else (slotIn a (EVT_RINGr_CONS 0) 4).map fun r => evtConsume i r w

/-- What a write to a register does beyond keeping its value; none where it only keeps it. -/
def Act.special (i : HostIface) (a : Nat) (w : Word) (m : Moment) (s : State) : Option Act :=
  match a / 0x10000 with
  | 4 => rfWrite .s a w m s
  | 5 => rfWrite .w a w m s
  | 6 => rxdWrite a w
  | 8 | 9 => fwdWrite a w m
  | 10 => schWrite i a w
  | 12 => tkWrite i a w m
  | 13 => ethWrite a w
  | _ => unitWrite i a w m

/-- Whether a write to the register of a row has an effect (R604): RO fields, MBX data and reserved bits take none. -/
def writes (a : Nat) (r : Row) : Bool :=
  match r.access with
  | .rw | .cnt => !(r.writable == 0)
  | .cmd => true
  | .mbx => a == FUSE_READ_REQ || diagMailbox a || a == HIF_JRN_REQ
  | .ro | .grd => false

/-- One dword written with all its bytes to a BAR0 offset (R602, R604, R609). -/
def Act.regWrite (i : HostIface) (a : Nat) (w : Word) (m : Moment) : Act := .read fun s =>
  match guardAt a with
  | some (g, 0) => guardArm (guardAddr g) w
  | some (g, 1) => complement i g w m
  | some (g, _) => guardBreak (guardAddr g)
  | none =>
    if inMsixTable a then permitted i a (msixWrite a w)
    else match rowOf a with
      | none => .nop
      | some r => when (writes a r) (permitted i a ((special i a w m s).getD (keep a w)))

/-- One dword of a BAR0 write, with its byte enables (R602). -/
def Act.dwordWrite (i : HostIface) (a : Nat) (w : Word) (byteEn : Nat) (m : Moment) : Act :=
  if byteEn = 15 then regWrite i a w m else accessError 1 i byteEn a

/-- What a BAR0 read of one dword returns (R602, R604). -/
def State.readDword (s : State) (a : Nat) : Word :=
  if !s.permitsRead a then 0
  else if inMsixTable a && a % 16 == 12 then (if s.u.hif.unmasked.contains ((a - 0x18000) / 16) then 0 else 1)
  else s.reg a

/-! ### The BAR2 window (R294, R598) -/

/-- The Envelope address of a window offset. -/
def State.winAddr (s : State) (off : Nat) : Nat := (s.fld HIF_WIN_BASE_BASE * 2 ^ 20 + off) % 2 ^ 32

/-- The command ring (R611). -/
def State.inCmdRing (s : State) (a : Nat) : Bool :=
  let base := (s.reg HIF_CMD_BASE).toNat
  Nat.ble base a && Nat.blt a (base + 0x40000)

/-- Whether an address is writable through BAR2 (R292): the command ring and own-update staging. -/
def State.barWritable (s : State) (a : Nat) : Bool := s.u.evt.placed && (s.inCmdRing a || s.inRegion 4 a)

/-- Whether a BAR2 write is permitted (R606, R607): the command ring's group; none in HOLD. -/
def State.barPermits (s : State) (a : Nat) : Bool :=
  !decide (s.mode = .hold) && (!s.inCmdRing a || s.allows 3)

/-- Whether a BAR2 read is permitted (R606, R607). -/
def State.barReadable (s : State) (a : Nat) : Bool :=
  let health := (s.reg PAIR_HEALTH_ADDR).toNat
  if s.u.evt.placed && Nat.ble health a && Nat.blt a (health + 64) then s.allows 0
  else s.allows 1 && (!decide (s.mode = .hold) || s.inRegion 3 a)

namespace Act

/-- A BAR2 write of enabled bytes from a window offset (R294, R598, R605). -/
def barWrite (i : HostIface) (off : Nat) (bytes : List (Option Byte)) : Act := .read fun s =>
  let cells := (bytes.zipIdx.filterMap fun x => x.1.map fun b => (s.winAddr (off + x.2), b))
  let first := (bytes.take (4 - off % 4)).zipIdx.foldl (fun n x =>
    if x.1.isSome then n + 2 ^ (off % 4 + x.2) else n) 0
  let refuse := fun reason => accessError reason i first (2 ^ 31 + off)
  if cells.any fun c => !s.barWritable c.1 then refuse 4
  else if cells.any fun c => !s.barPermits c.1 then refuse 2
  else each cells fun c => .mem c.1 c.2

/-- Errors a read through the window meets (R290, R294): corrected ones, and addresses it could not correct. -/
def barErrors (corrected : Nat) (bad : List Nat) : Act := .read fun s =>
  .seq (.seq (satBy ENV_ECC_CORR corrected) (when (Nat.blt 0 corrected) (faultClass 1)))
    (each bad fun a => all [sat ENV_ECC_UNC, raise 56 (leBytes 4 a), healthFault 6 2,
      when (s.inRegion 0 a) (env fun e => { e with deadRecords := e.deadRecords ++ [(a - s.dirBase) / 256] })])

end Act

/-- What a read of bytes through the window returns; a byte the map does not allow reads 0 (R604). -/
def State.barRead (s : State) (off n : Nat) : List Byte :=
  (List.range n).map fun k =>
    let a := s.winAddr (off + k)
    if s.barReadable a then s.byte a else 0

/-- The addresses of a list that a read of n bytes from a window offset meets. -/
def State.barMeets (s : State) (off n : Nat) (bad : List (BitVec 32)) : List Nat :=
  (bad.map (·.toNat)).filter fun a => (List.range n).any fun k => s.winAddr (off + k) == a

end Sys2Proof.Machine
end

