-- ==== Sys2Proof/Machine/System.lean ====
section
/-!
DEFINITION. Machine/System.lean: supplies and resets (R510, R645–R648), the PCIe link (R597), copies of triplicated logic
(R42, R468), and engines that fault and return (R48, R522).
-/

namespace Sys2Proof.Machine

open Sys2Proof Sys2Proof.Reg Sys2Proof.Machine.Act

/-! ### Supplies and resets -/

/-- SUPPLIES_APPLIED (R510): the device is in COLD, held by its internal power-on reset; VBAT_AON newly applied returns
the AON domain to its reset values (R7, R417). A VBAT_AON that only left its range comes back into it (R526). -/
def execSuppliesApplied (vbatNew : Bool) (s : State) : Result :=
  s.act <| .seq (pins fun p => { p with vbat18 := true })
    (when (!s.u.pins.supplies || !s.u.pins.vbat)
      (all [when vbatNew resetAon,
        pins fun p => { p with supplies := true, vbat := true, porHeld := true }]))

/-- SUPPLY_LOSS (R26, R646): the rails, VBAT_AON or both leave their range, `rails` and `vbat` being what is still there.
A rail, or VBAT_AON below 1.7 V: COLD, with everything outside the flash, the fuses, the AON domain and a DRAM that keeps
its rails gone. VBAT_AON below 1.8 V alone only refuses DRIFT (R526). -/
def execSupplyLoss (rails : Bool) (vbat : VbatLevel) (ticks : BitVec 40) (s : State) : Result :=
  s.act <|
    let kept := !decide (vbat = .lost)
    .seq (pins fun p => { p with vbat18 := p.vbat18 && decide (vbat = .full) })
      (when (!rails || !kept)
        (all [when s.u.pins.vbat (aonPass ticks.toNat),
          drift fun d => if rails then d else { d with saved := none },
          resetDevice,
          setF GEN_MODE_MODE Mode.cold.code,
          when (!rails) (.zero 0 (2 ^ 32)),
          pins fun p => { p with
            supplies := p.supplies && rails
            vbat := p.vbat && kept
            porHeld := true
            memUp := p.memUp && rails }]))

/-- POWER_ON_RESET_RELEASE (R510, R648): 2 ms after every rail is in its range. -/
def execPowerOnResetRelease (straps : Straps) (ticks : BitVec 40) (s : State) : Result :=
  s.act <| when (decide (s.mode = .cold) && s.u.pins.supplies && s.u.pins.vbat && s.u.pins.porHeld)
    (all [pins fun p => { p with porHeld := false },
      aonPass ticks.toNat,
      when s.u.pins.resetN (resetIntoRom 2 straps)])

/-- RESET_N_ASSERT (R43, R475, R648): the sequencer stops at once and outstanding work is discarded. -/
def execResetNAssert (s : State) : Result :=
  s.act <| .seq (pins fun p => { p with resetN := false })
    (when (s.u.pins.resetN && !decide (s.mode = .cold) && !decide (s.mode = .drift))
      (all [stopSequencer, discardWork, txModeAbort, aliveRelease, pair fun p => { p with healthOk := false }]))

/-- RESET_N_RELEASE (R510): ROM from any mode but COLD; from COLD where the power-on reset has ended. A device that was
in DRIFT records RESET_n as its wake source (R540). -/
def execResetNRelease (straps : Straps) (ticks : BitVec 40) (s : State) : Result :=
  s.act <| when (!s.u.pins.resetN)
    (.seq (pins fun p => { p with resetN := true })
      (if s.mode = .cold then
        when (s.u.pins.supplies && s.u.pins.vbat && !s.u.pins.porHeld)
          (.seq (aonPass ticks.toNat) (resetIntoRom 2 straps))
      else all [aonPass ticks.toNat,
        when (decide (s.mode = .drift)) (.read fun t =>
          .seq (.reg PWR_WAKE_SRC 7) (.reg PWR_WAKE_TIME (BitVec.ofNat 32 t.u.tk.aonS))),
        resetIntoRom (if decide (s.mode = .hold) then 21 else 3) straps]))

/-! ### The PCIe link (R597, R648) -/

/-- The link as HIF_STATUS shows it, and HIF_LINK_CHANGE where that is new (R597). -/
def Act.linkShow (up speed width : Nat) : Act := .read fun s =>
  when (!(s.fld HIF_STATUS_PCIE_UP == up) || !(s.fld HIF_STATUS_SPEED == speed) || !(s.fld HIF_STATUS_WIDTH == width))
    (all [setF HIF_STATUS_PCIE_UP up, setF HIF_STATUS_SPEED speed, setF HIF_STATUS_WIDTH width,
      raise 127 (leBytes 1 up ++ leBytes 1 speed ++ leBytes 1 width)])

/-- PERST_N_EDGE (R648): its assertion resets the endpoint, MSI-X included, and drops the link. -/
def execPerstNEdge (high : Bool) (s : State) : Result :=
  s.act <| .seq (pins fun p => { p with perstN := high })
    (when (!high)
      (all [linkShow 0 0 0,
        setB HIF_STATUS_MSIX_EN false,
        hif fun h => { h with funcMask := false, unmasked := [] }]))

/-- PCIE_LINK_CHANGE (R597): the link trains from step 4 of the ROM flow on, with PERST_n high, in every mode but COLD and
DRIFT; vectors whose masks end send what is pending (R629). -/
def execPcieLinkChange (link : Option PcieLink) (s : State) : Result :=
  s.act <|
    match link with
    | none => linkShow 0 0 0
    | some l =>
      when (s.u.pins.perstN && s.u.pins.resetN && !decide (s.mode = .cold) && !decide (s.mode = .drift) &&
          Nat.ble 4 (s.fld BOOT_STATUS_STAGE))
        (all [linkShow 1 (l.gen.val + 1) (if l.wide then 2 else 1),
          setB HIF_STATUS_MSIX_EN l.msixEn,
          hif fun h => { h with funcMask := l.funcMask },
          each (List.range 128) msixUnmask])

/-! ### Triplicated logic (R42, R468) -/

/-- The copy that disagrees is reloaded from the majority; the sequencer keeps its own counter and event. -/
def Act.tmrReload : Act := .read fun s =>
  match s.u.bt.split with
  | none => .nop
  | some part => .seq (bt fun b => { b with split := none })
      (if part = .sequencer then
        all [setB BT_STATUS_TMR_SPLIT false, sat BT_TMR_FIX, pair fun p => { p with lastFault := 5 }, raise 10 []]
      else all [sat PAIR_TMR_FIX, pair fun p => { p with lastFault := 5 }, raise 111 [5]])

/-- TMR_COPY_UPSET: one copy disagrees and the voted output is used, or no two agree and the device enters HOLD, a fatal
tamper (R395). A copy
that disagreed before has been reloaded by then, since that takes one cycle. -/
def execTmrCopyUpset (part : TmrUnit) (agree : Bool) (s : State) : Result :=
  s.act <| when (!decide (s.mode = .cold))
    (if agree then
      all [tmrReload, bt fun b => { b with split := some part },
        when (decide (part = .sequencer)) (setB BT_STATUS_TMR_SPLIT true)]
    else tamper 7)

/-- TMR_COPY_RELOAD: at the next cycle. -/
def execTmrCopyReload (s : State) : Result := s.act tmrReload

/-! ### Engines (R48, R522) -/

/-- ENGINE_SRAM_ERROR: a corrected error is counted; any other faults the engine. -/
def execEngineSramError (pe : Fin 16) (uncorrectable : Bool) (s : State) : Result :=
  s.act <| when ((s.modeLevel s.mode).isSome && !(s.engine pe).gated)
    (if uncorrectable then when (s.engine pe).restoreIn.isNone (engineFault pe 3)
    else .seq (sat BT_SRAM_CORR) (pair fun p => { p with lastFault := 1 }))

/-- ENGINE_RESTORED: at the second boundary after the error. -/
def execEngineRestored (pe : Fin 16) (s : State) : Result :=
  s.act <| when ((s.engine pe).restoreIn == some 0) (engineBack pe)

/-- DOZE_ENGINES_RETURN (R522): at the third boundary after the exit. -/
def execDozeEnginesReturn (s : State) : Result :=
  s.act <| when (s.u.bt.dozeReturn == some 0)
    (all [bt fun b => { b with dozeReturn := none },
      each (List.range 16) fun n => .read fun t => when (t.engine n).gated
        (.seq (engine n fun e => { e with gated := false })
          (when (t.engine n).restoreIn.isNone (setF (BT_ENG_STATE_n n) engServing))),
      rolesFollow])

end Sys2Proof.Machine
end

