-- ==== Sys2Proof/Machine/Beat.lean ====
section
/-!
DEFINITION. Machine/Beat.lean: the beat (R34–R64): its boundary, the close of its plan window, its bind line and its commit
window, with everything the spec places at each of them.
-/

namespace Sys2Proof.Machine

open Sys2Proof Sys2Proof.Reg Sys2Proof.Machine.Act

/-! ### Overruns (R60, R63) -/

/-- An engine whose tasks can overrun: one that serves (R47, R48, R520). -/
def State.mayOverrun (s : State) (n : Nat) : Bool := !(s.engine n).gated && !s.engineOut n

/-- An engine overran in this beat: counted once a beat, and raised after every LIMIT beats in a row. -/
def Act.overrun (n : Nat) : Act := .read fun s =>
  let run := (s.engine n).ovrRun + 1
  let limit := s.fld BT_OVR_LIMIT_LIMIT
  when (s.mayOverrun n && !(s.engine n).overran)
    (all [sat (BT_PEn_OVR n),
      setB (BT_PEn_STAT_PAST_DEADLINE n) true,
      engine n fun e => { e with overran := true, ovrRun := run },
      when (!(limit == 0) && run % limit == 0)
        (.seq (pair fun p => { p with faults := p.faults ++ [(7, s.u.tk.s)] }) (raise 8 (leBytes 1 n)))])

/-! ### The end of a beat -/

/-- Cycles BT_PEn_USED counts beside those used: on revision A1, those of the level change that opened the beat (R58). -/
def State.changeCycles (s : State) : Nat :=
  if s.u.bt.opensChange then 15000 * (s.fld BT_STATUS_LEVEL + 1) else 0

/-- One more beat at a level, or in DOZE: a counter of seconds moves on every 1,000 (R538). -/
def Act.accBeat (key counter : Nat) : Act := .read fun s =>
  let n := s.u.pwr.accMs.getD key 0 + 1
  .seq (pwr fun p => { p with accMs := p.accMs.setD key 0 (n % 1000) }) (when (n == 1000) (wrap counter))

/-- The beat in progress ends: cycles used, commit tasks that did not finish, and the runs of engines that kept their
budget (R58, R60, R63). -/
def Act.beatEnd (used : List Nat) (unfinished : List Nat) : Act := .read fun s =>
  let extra := s.changeCycles
  all [each (List.range 16) fun n => .reg (BT_PEn_USED n) (BitVec.ofNat 32 ((used.getD n 0 + extra) % 2 ^ 21)),
    each unfinished fun n => when (s.mayOverrun n) (.seq (Act.overrun n) (raise 9 (leBytes 1 n))),
    each (List.range 16) fun n => .seq (setB (BT_PEn_STAT_PAST_DEADLINE n) false)
      (engine n fun e => { e with ovrRun := if e.overran then e.ovrRun else 0, overran := false }),
    accBeat (s.fld BT_STATUS_LEVEL) (PWR_ACC_PLl (s.fld BT_STATUS_LEVEL)),
    when (decide (s.mode = .doze)) (accBeat 4 PWR_ACC_DOZE_S)]

/-- A beacon past its T/R edge has its header reference after an instant of device time (R421, R435). -/
def State.beaconAcross (s : State) (t : Nat) : Bool :=
  [Chain.ts0, .ts1, .tw0, .tw1].any fun c =>
    match (s.tx c).cmd with
    | none => false
    | some d => match d.xNs with
      | none => false
      | some x => d.phase.sending && (parseMac d.bytes).typ == 3 &&
          Nat.blt t (s.headerNs c.port (s.whatRate d.what) x)

/-! ### The start of a beat -/

/-- The number of the next beat: the next whole millisecond of device time, and never one used before (R41, R43). -/
def State.nextBeatNo (s : State) : Nat :=
  match s.u.bt.used with
  | none => s.u.tk.nextMs
  | some u => max s.u.tk.nextMs (u + 1)

/-- A restart that UPDATE_ACTIVATE scheduled is due at the boundary of beat n (R566). -/
def State.restartDue (s : State) (n : Nat) : Bool :=
  match s.u.boot.activateAt with
  | none => false
  | some none => true
  | some (some b) => Nat.ble b n

/-- With stale takeover, the serving unit of a pair waits for its partner before it restarts (R572). -/
def State.restartWaits (s : State) : Bool :=
  s.bit GEN_MODE_PAIR_CFG && s.bit PAIR_CFG_STALE_TAKEOVER && !s.u.boot.activateWait &&
  (s.pstate == 1 || s.pstate == 2 || s.pstate == 7)

namespace Act

/-- MODE_CHANGE_APPLY (R25): what was staged for this boundary takes effect. -/
def stagedMode : Act := .read fun s =>
  match s.u.pwr.staged with
  | none => .nop
  | some (m, row) =>
    .seq (pwr fun p => { p with staged := none })
      (if m = .doze then when (decide (s.mode = .solo)) (.seq dozeEnter (pwrEnd pwrDone))
      else if row = 18 then .seq (when (decide (s.mode = .doze)) dozeExit) (pwrEnd pwrDone)
      else .seq (shift m row)
        (when (decide (m = .standby)) (.seq (setPstate 3) (pair fun p => { p with quiet := 0 }))))

/-- LEVEL_CHANGE_START (R514): a staged level change starts; one whose level is in force already is done. -/
def stagedLevel : Act := .read fun s =>
  match s.u.pwr.nextLevel with
  | none => .nop
  | some (l, src) =>
    .seq (pwr fun p => { p with nextLevel := none })
      (if l = s.fld PWR_STATUS_LEVEL then
        all [pwr fun p => { p with change := none, vid := l },
          setB PWR_STATUS_CHANGING false, setF BT_STATUS_LEVEL l, pwrEnd pwrDone]
      else startLevel l src)

/-- A forced exit from DOZE (R536). -/
def forcedExit : Act := .read fun s =>
  when s.u.pwr.exitForced
    (.seq (pwr fun p => { p with exitForced := false }) (when (decide (s.mode = .doze)) dozeExit))

/-- Boundaries pass toward the return of faulted and gated engines (R48, R522). -/
def engineReturns : Act :=
  .seq (bt fun b => { b with dozeReturn := b.dozeReturn.map (· - 1) })
    (each (List.range 16) fun n => .read fun s => when (s.engine n).restoreIn.isSome
      (engine n fun e => { e with restoreIn := e.restoreIn.map (· - 1) }))

/-- LOGIC_BIST_ROLE_MOVE (R47, R500): every 64 beats one engine, in turn, leaves its role for the beat. -/
def logicBist (n : Nat) : Act := .read fun s =>
  let k := n / 64 % 16
  when (n % 64 == 0 && !(s.role k == 0) && !(s.engine k).gated && !s.engineOut k &&
      !((List.range 16).any fun j => (s.engine j).bist))
    (.seq (engine k fun e => { e with bist := true }) (setF (BT_ENG_STATE_n k) engBist))

/-- BUDGET_ISSUE (R55, R56). -/
def budgetIssue : Act := .read fun s =>
  let us := if s.u.bt.opensChange then 900 else 950
  .reg BT_BUDGET (BitVec.ofNat 32 (us * 300 * (s.fld BT_STATUS_LEVEL + 1)))

/-- BEAT_OUT rises (R430). -/
def beatPulse (n : Nat) : Act := .read fun s =>
  let d := s.fld TK_BEAT_CFG_BEAT_DIV
  tk fun t => { t with beatOut := t.beatOut || (s.bit TK_BEAT_CFG_EN && (d == 0 || n % d == 0)) }

/-- The HEADs of the queues that ports consume enter the record (R309). -/
def recordHeads : Act := .read fun s =>
  each (s.u.env.queues.filter fun e => Nat.ble 5 e.2.consumer && Nat.ble e.2.consumer 8) fun _ => recordInput 0x0D

/-- Beat n begins: its sequencer state. -/
def beatOpen (n sample : Nat) : Act := .read fun s =>
  all [bt fun b => { b with
      beat := n
      used := some n
      sample := sample
      margin := min 300 (s.fld BT_BIND_MARGIN_MARGIN_US)
      opensChange := false
      once := []
      timers := b.timers.filter fun x => Nat.ble n (x.2 + 1)
      limitReset := false },
    when s.u.bt.limitReset (each (List.range 16) fun k => engine k fun e => { e with ovrRun := 0 }),
    setF BT_STATUS_WINDOW 1, setF BT_STATUS_PAST_BIND 0, setF BT_STATUS_GAP 0]

/-- BEAT_BOUNDARY's other half: beat n begins at its millisecond, and everything the spec places at a boundary happens. -/
def beatBegin (n sample ticks : Nat) : Act := .read fun s =>
  if s.restartDue n && !s.restartWaits then
    all [tk fun t => t.reach n, aonPass ticks, resetKeepStraps 3]
  else
    all [when (s.restartDue n) (boot fun b => { b with activateAt := none, activateWait := true }),
      tk fun t => t.reach n,
      beatOpen n sample,
      engineReturns,
      when (s.u.boot.commissionWait && !s.bit BOOT_CONFIRM_COMMISSION_WAIT) commissionLeave,
      forcedExit, stagedMode, stagedLevel,
      when (s.u.pwr.driftEntry == 1) driftB,
      budgetIssue,
      logicBist n, rolesFollow,
      if s.bit GEN_MODE_PAIR_CFG then pairBoundary else epochCommit,
      rfBoundary, rxBoundary, macBoundary,
      policerRefill, fLastCatchup, domainRebuild,
      .read fun t => queuesBoundary t.workBeat,
      recordHeads,
      pairAfter,
      .read fun t => hif fun h => { h with doorbell := t.fld HIF_CMD_TAIL_TAIL },
      takeCommands,
      .read fun t => when t.meshRuns campWalk,
      beatPulse n]

end Act

/-- SEQUENCER_START (R41, R43): the first beat begins at the first whole millisecond after. -/
def execSequencerStart (sample : BitVec 64) (s : State) : Result :=
  s.act <| when (s.bit BT_STATUS_RUNNING && s.fld BT_STATUS_WINDOW == 0 && !s.bit BT_STATUS_GAP)
    (beatBegin s.nextBeatNo sample.toNat 0)

/-- A step waiting for a boundary is applied at the end of the beat (R40, R421); the next beat begins at once where the
stepped time is a whole millisecond not used before, else after an interval that belongs to no beat. -/
def Act.stepBoundary (off : Int) (sample ticks : Nat) : Act :=
  .seq (stepApply off) (.read fun s =>
    let t := s.u.tk
    let fresh := match s.u.bt.used with
      | none => true
      | some u => Nat.blt u t.ms
    if t.n % 1000000 = 0 ∧ t.fr = 0 ∧ fresh = true then beatBegin t.ms sample ticks
    else all [setB BT_STATUS_GAP true, setF BT_STATUS_WINDOW 0, setB BT_STATUS_PAST_BIND false,
      sat BT_GAPS, raise 11 []])

/-- BEAT_BOUNDARY (R35): `used` are the cycles each engine used, `unfinished` the engines whose commit tasks did not
finish; `ticks` of XTAL32 count where a restart is due here. -/
def execBeatBoundary (sample : BitVec 64) (used : List (BitVec 21)) (unfinished : List (Fin 16)) (ticks : BitVec 40)
    (s : State) : Result :=
  s.act <|
    let edge := (s.u.bt.beat + 1) * 1000000
    if !s.bit BT_STATUS_RUNNING then .nop
    else if s.bit BT_STATUS_GAP then beatBegin s.nextBeatNo sample.toNat ticks.toNat
    else when (s.fld BT_STATUS_WINDOW == 3)
      (.seq (beatEnd (used.map (·.toNat)) (unfinished.map (·.val)))
        (if s.u.pwr.driftEntry == 2 then .seq (tk fun t => t.reach (s.u.bt.beat + 1)) driftStop
        else match s.u.tk.step with
          | none => beatBegin (s.u.bt.beat + 1) sample.toNat ticks.toNat
          | some off =>
            if s.beaconAcross edge then beatBegin (s.u.bt.beat + 1) sample.toNat ticks.toNat
            else .seq (tk fun t => t.reach (s.u.bt.beat + 1)) (stepBoundary off sample.toNat ticks.toNat)))

/-- PLAN_WINDOW_CLOSE (R36, R37): the candidates of the next plan are fixed. -/
def execPlanWindowClose (s : State) : Result :=
  s.act <| when (s.bit BT_STATUS_RUNNING && s.fld BT_STATUS_WINDOW == 1) (.seq (setF BT_STATUS_WINDOW 2) planGather)

/-- BIND_LINE (R38): inputs are bound to the next beat from here on. -/
def execBindLine (s : State) : Result :=
  s.act <| when (s.bit BT_STATUS_RUNNING && s.fld BT_STATUS_WINDOW == 2) (setB BT_STATUS_PAST_BIND true)

/-! ### The commit window -/

namespace Act

/-- Work of the beat that is still outstanding completes LATE, and unfinished tasks are ended (R59–R61). -/
def lateWork (unfinished : List Nat) : Act := .read fun s =>
  let beat := s.workBeat
  let pendingKey := fun (c : HostCmd) => s.u.sec.writes.any fun w => w.cmd == some c.seq
  let stalled := (List.range 16).filter fun n => !(s.engine n).stalled.isEmpty
  all [each (s.u.accel.ops.filter fun o => Nat.ble o.beat beat) opLate,
    rxCommit beat, macCommit beat, abortOpen beat,
    each (s.u.hif.cmds.filter fun c => Nat.ble c.beat beat && !c.mirrored && !pendingKey c) fun c =>
      complete c stLate (.val 0),
    hif fun h => { h with cmds := h.cmds.filter fun c => !(c.mirrored && Nat.ble c.beat beat) },
    each (stalled ++ unfinished.filter fun n => !stalled.contains n) overrun,
    each stalled fun n => .seq (engine n fun e => { e with stalled := [] }) (engineStat n)]

/-- The ageing sweep's read phase, the errors its reads meet coming first (R265, R272). -/
def sweep (entries : List (Nat × Nat × EccFault)) : Act := .read fun s =>
  let beat := s.workBeat
  .seq (each entries fun x => when (x.2.1 / 1024 == beat % tableBlocks x.1)
      (match x.2.2 with
      | .corrected => .seq (sat (FWD_TBLn_ECC_CORR x.1)) (pair fun p => { p with lastFault := 1 })
      | .uncorrectable => tableEcc x.1 x.2.1))
    (sweepRead beat)

/-- Records an uncorrectable error was read in become FREE (R290). -/
def clearDead : Act := .read fun s =>
  .seq (each s.u.env.deadRecords.eraseDups fun n => nbrTrack n (recFree n)) (env fun e => { e with deadRecords := [] })

/-- SLOT_TAG_SCRUB (R382): the TAGs of eight slots; `torn` are slots whose stored bits an upset has changed. -/
def tagScrub (torn : List Nat) : Act := .read fun s =>
  .seq (each ((List.range 8).map fun i => (s.u.sec.scrubAt + i) % 1024) fun n => .read fun t =>
      when ((decide ((t.slot n).state = .valid) || decide ((t.slot n).state = .draining)) &&
        (torn.contains n || !t.tagOk n)) (tear n))
    (sec fun x => { x with scrubAt := (x.scrubAt + 8) % 1024 })

/-- REGISTER_SCRUB (R469): each configured register that an upset has changed is repaired from its copy. -/
def registerScrub (upsets : List Nat) : Act :=
  each (upsets.eraseDups.filter fun a => cfgRegs.contains a) fun _ =>
    all [sat PAIR_REG_FIX, pair fun p => { p with lastFault := 6 }, raise 111 [6]]

/-- HIF_CMD_REFUSED and HIF_CPL of the beat are raised with their counts (R631). -/
def hostCounts : Act := .read fun s =>
  all [when (Nat.blt 0 s.u.hif.refused) (raiseOnce 121 0 (leBytes 4 s.u.hif.refused)),
    when (Nat.blt 0 s.u.hif.done) (raiseOnce 122 0 (leBytes 4 s.u.hif.done)),
    hif fun h => { h with refused := 0, done := 0 }]

/-- One commit window passes for the event Bridle (R628); an entry whose source the Bridle no longer serves ends. -/
def bridlePass : Act := .read fun s =>
  let off := (List.range 64).filter fun i => match s.u.evt.bridle[i]? with
    | none => false
    | some b => !s.bit (EVT_BRIDLE_n b.src)
  all [evt fun e => { e with bridle := e.bridle.map fun b => { b with window := b.window - 1 } },
    each off.reverse fun i => bridleClose (fun r => .read fun t =>
      raiseOnce 124 r (leBytes 1 r ++ leBytes 4 (t.reg (EVT_LOSTr r)).toNat)) i false,
    evtStatus]

/-- What else the record of the beat holds as its window closes: chain states and credits (R338, R351). -/
def recordCommit : Act := .read fun s =>
  .seq (each (List.range 4) fun _ => recordInput 0x0C)
    (each ((List.range 16).filter fun k => s.bit (SCH_ULk_CFG_SHAPE_EN k)) fun _ => recordInput 0x0B)

end Act

/-- COMMIT_WINDOW_OPEN (R59): `unfinished` are the engines with unfinished tasks, `cls` the power class policy gives the
frames the device plans for itself, and the rest what the scrubbers find. -/
def execCommitWindowOpen (unfinished : List (Fin 16)) (cls : Fin 4) (upsets : List (BitVec 24)) (torn : List (Fin 1024))
    (entries : List (Fin 4 × BitVec 18 × EccFault)) (s : State) : Result :=
  s.act <| when (s.bit BT_STATUS_RUNNING && s.fld BT_STATUS_WINDOW == 2)
    (all [setF BT_STATUS_WINDOW 3, setB BT_STATUS_PAST_BIND true,
      lateWork (unfinished.map (·.val)),
      powerSlotTake,
      .read fun t => when t.meshRuns (planBuild (t.planSilent || Nat.blt 0 t.u.pwr.driftEntry) cls.val),
      campCommit cls.val,
      sweep (entries.map fun x => (x.1.val, x.2.1.toNat, x.2.2)),
      clearDead,
      tagScrub (torn.map (·.val)),
      registerScrub (upsets.map (·.toNat)),
      healthScore, healthRecord,
      qstatsAll,
      hostCounts,
      bridlePass,
      recordCommit,
      pairCommit])

end Sys2Proof.Machine
end

