-- ==== Sys2Proof/Machine/Mac.lean ====
section
/-!
DEFINITION. Machine/Mac.lean: the MAC unit's commands (R209–R235): a received frame's checks, ACKs, listen and poll
windows, beacons, join admission and the Bridle of reports. `index` numbers a list of the unit from its oldest entry,
`off` is an instant as ns from the start of the beat.
-/

namespace Sys2Proof.Machine

open Sys2Proof Sys2Proof.Reg Sys2Proof.Machine.Act

/-! ### A received frame (R211–R217) -/

/-- A frame joins the MAC unit in the order of END. -/
def insertFrame (f : MacFrame) : List MacFrame → List MacFrame
  | [] => [f]
  | g :: l => if f.rx.stop < g.rx.stop then f :: g :: l else g :: insertFrame f l

/-- MAC_FRAME_RECEIVED (R211): the oldest descriptor is taken; its FCS and structure are checked. -/
def execMacFrameReceived (s : State) : Result :=
  s.act <|
    match s.u.rx.handoff with
    | [] => .nop
    | d :: rest => .seq (rx fun x => { x with handoff := rest })
      (when (d.status == rxOk)
        (let f := descramble d.bits
        let p := parseMac f
        let stage := if p.typ = 1 then MacStage.ack else if p.directJoin then .key else .record
        let frame : MacFrame := ⟨d.frame.id, d.frame, d.beat, f, stage, [], [], [], false⟩
        if !fcsOk f then sat (MAC_DROPr 0)
        else match s.structureDrop f p d.frame.beacon with
          | some r => sat (MAC_DROPr r)
          | none => mac fun m => { m with frames := insertFrame frame m.frames }))

/-- MAC_RECORD_FETCHED (R211, R246): NO_RECORD, and LINK_STALE ahead of the key. `bad` is a read of the record that met
an uncorrectable error (R290). -/
def execMacRecordFetched (index : Fin 256) (bad : Bool) (s : State) : Result :=
  s.act <|
    match s.macFrame index with
    | none => .nop
    | some f => when (decide (f.stage = .record) && !s.macBlocked index)
      (let p := parseMac f.bytes
      .seq (when bad (demandFail (s.recAddr p.src)))
        (if !(p.typ == 4) && (bad || !s.recValid p.src) then macDrop f.id 9
        else if s.linkOutcome f.bytes p = 3 then macDrop f.id 12
        else macSet f.id fun g => { g with stage := .key }))

/-- MAC_LINK_KEY_READY (R369, R371): the link key through the cache, or NO_KEY. -/
def execMacLinkKeyReady (index : Fin 256) (s : State) : Result :=
  s.act <|
    match s.macFrame index with
    | none => .nop
    | some f => when (decide (f.stage = .key) && !s.macBlocked index)
      (let p := parseMac f.bytes
      let (slot, label) := s.frameLabel p.key false p.epoch
      derived slot label (.seq (sat SEC_INVALID_KEY) (macDrop f.id 10)) fun key =>
        macSet f.id fun g => { g with stage := .mic, key := key })

/-- A frame that is NEW goes on to its end-to-end check where that is the router's, or has passed. -/
def Act.afterLink (f : MacFrame) (p : MacParts) (body : List Byte) : Act :=
  if p.e2e && p.final == 0 then macSet f.id fun g => { g with stage := .e2e, body := body }
  else macPassed f p body

/-- The replay update of a NEW frame (R212), and what follows it. -/
def Act.linkNew (f : MacFrame) (p : MacParts) (body : List Byte) (t : Nat) : Act := .read fun s =>
  let next := .seq (wrap MAC_RX_OK) (.seq (when p.ar (ackArm f p t)) (afterLink f p body))
  if p.directJoin then
    let a := s.joinSlot p.src
    all [memBytes a (leBytes 8 p.src ++ leBytes 2 p.epoch ++ leBytes 4 p.ctr ++ leBytes 2 0),
      sec fun x => { x with replay := x.replay.setD (a / 16) [] f.bytes },
      next]
  else if !s.recValid p.src then macDrop f.id 9
  else .seq (recUpdate p.src [(Node.LINK_EPOCH, p.epoch), (Node.LINK_CTR, p.ctr),
      (Node.LINK_DIGEST, frameDigest f.bytes p), (Node.STATE, stateWith (s.node p.src Node.STATE) 5 true)]) next

/-- MAC_LINK_MIC_DONE (R211–R214). -/
def execMacLinkMicDone (index : Fin 256) (off : Fin 1000000) (s : State) : Result :=
  s.act <|
    match s.macFrame index with
    | none => .nop
    | some f => when (decide (f.stage = .mic) && !s.macBlocked index && !s.lateHere f false)
      (let p := parseMac f.bytes
      let t := s.atNs off
      .seq (wrap SEC_CCM_OPS) (match linkOpen f.key f.bytes p with
        | none => .seq (sat SEC_MIC_FAIL) (macDrop f.id 11)
        | some body => match s.linkOutcome f.bytes p with
          | 0 => linkNew f p body t
          | 1 => all [wrap MAC_DUP, when p.ar (ackArm f p t), macGone f.id]
          | 2 => .seq (macDrop f.id 13) (raise 37 (leBytes 3 p.linkSource ++ leBytes 1 f.rx.decoder))
          | _ => macDrop f.id 12))

/-- The window of R215: the new E2E_EPOCH, E2E_HIGH and E2E_MAP where the frame is accepted; 0 DUP and 1 OLD
otherwise. -/
def e2eWindow (seen : Bool) (epoch high map e c : Nat) : Except Nat (Nat × Nat × Nat) :=
  let d := (e + 65536 - epoch) % 65536
  if !seen then .ok (e, c, 1)
  else if d ≠ 0 ∧ d ≤ 0x7FFF then .ok (e, c, 1)
  else if d ≠ 0 then .error 1
  else if high < c then .ok (e, c, if c - high < 64 then (map * 2 ^ (c - high) ||| 1) % 2 ^ 64 else 1)
  else if 64 ≤ high - c then .error 1
  else if Nat.testBit map (high - c) then .error 0
  else .ok (e, high, map + 2 ^ (high - c))

/-- A frame the window rejects (R215); MAC_E2E_REJECT once per beat past EVT_LIMIT. -/
def Act.e2eReject (f : MacFrame) (nsa why : Nat) : Act := .read fun s =>
  all [if why = 0 then wrap MAC_E2E_DUP else sat MAC_E2E_OLD,
    mac fun m => { m with rejects := m.rejects + 1 },
    when (Nat.blt 0 s.u.mac.rejectLimit && Nat.blt s.u.mac.rejectLimit (s.u.mac.rejects + 1))
      (raiseOnce 38 0 (leBytes 3 nsa)),
    macGone f.id]

/-- MAC_E2E_CHECK_DONE (R211, R215). `bad` is a read of the ORIGIN's record that met an uncorrectable error (R290). -/
def execMacE2eCheckDone (index : Fin 256) (bad : Bool) (s : State) : Result :=
  s.act <|
    match s.macFrame index with
    | none => .nop
    | some f => when (decide (f.stage = .e2e) && !s.macBlocked index && !s.lateHere f true)
      (let p := parseMac f.bytes
      let o := p.origin
      let (slot, label) := s.frameLabel (.e2e o) false p.e2eEpoch
      if bad then .seq (demandFail (s.recAddr o)) (macDrop f.id 9)
      else if !s.recValid o then macDrop f.id 9
      else derived slot label (.seq (sat SEC_INVALID_KEY) (macDrop f.id 10)) fun key =>
        .seq (wrap SEC_CCM_OPS) (match e2eOpen key f.bytes p f.body with
          | none => .seq (sat SEC_MIC_FAIL) (macDrop f.id 14)
          | some plain => match e2eWindow (s.recFlag o 6) (s.node o Node.E2E_EPOCH) (s.node o Node.E2E_HIGH)
              (s.node o Node.E2E_MAP) p.e2eEpoch p.e2eCtr with
            | .error why => e2eReject f o why
            | .ok (e, h, m) => .seq
              (recUpdate o [(Node.E2E_EPOCH, e), (Node.E2E_HIGH, h), (Node.E2E_MAP, m),
                (Node.STATE, stateWith (s.node o Node.STATE) 6 true)])
              (macPassed f p plain)))

/-! ### ACKs (R209, R210) -/

/-- ACK_WAIT_EXPIRY: no ACK came to a frame of the device; never before the instant of R209. -/
def execAckWaitExpiry (index : Fin 256) (draw : Fin 256) (off : Fin 1000000) (s : State) : Result :=
  s.act <|
    match s.u.mac.waits[index.val]? with
    | none => .nop
    | some w =>
      let last := w.stopNs + turnaroundNs w.rate + 1000 * s.fld MAC_ACK_WIN_US + 160 * symbolNs w.rate
      when (Nat.ble last (s.atNs off))
        (all [mac fun m => { m with waits := m.waits.erase w },
          sat MAC_ACK_MISSED,
          attemptFailed w.entry draw (s.atNs off)])

/-- An ACK answers a frame of the device (R113, R209). -/
def State.ackMatches (s : State) (f : MacFrame) (w : AckWait) : Bool :=
  let at_ := s.sampleNs f.rx.start
  let due := w.stopNs + turnaroundNs w.rate
  let win := 1000 * s.fld MAC_ACK_WIN_US
  decide (decoderPort f.rx.decoder = w.entry.port) && s.fld (RXD_CHn_CFG_CHANNEL f.rx.decoder) == w.chan &&
  f.rx.rate == w.rate && leAt f.bytes 4 4 == w.ctr && (f.bytes.drop 8).take 2 == w.mic2 &&
  Nat.ble due (at_ + win) && Nat.ble at_ (due + win)

/-- ACK_RECEIVED (R209, R210). -/
def execAckReceived (index : Fin 256) (s : State) : Result :=
  s.act <|
    match s.macFrame index with
    | none => .nop
    | some f => when (decide (f.stage = .ack))
      (.seq (macGone f.id) (match s.u.mac.waits.find? (s.ackMatches f) with
        | none => wrap MAC_ACK_STRAY
        | some w => all [mac fun m => { m with waits := m.waits.erase w }, entryDone w.entry,
            campDone w.entry.queue w.entry.start true]))

/-! ### Listen and poll windows (R220–R225) -/

/-- The open or coming listen window of a child. -/
def State.listenOf (s : State) (nsa : Nat) : Option Listen := s.u.mac.listens.find? fun l => l.nsa == nsa && !l.closed

/-- A listen window updated. -/
def Act.listenSet (nsa : Nat) (g : Listen → Listen) : Act := mac fun m =>
  let ls := m.listens.map fun l => if l.nsa = nsa ∧ l.closed = false then g l else l
  { m with listens := ls }

/-- LISTEN_WINDOW_OPEN (R221): the pending frames become candidates, sealed where they are not yet. -/
def execListenWindowOpen (node : BitVec 24) (off : Fin 1000000) (s : State) : Result :=
  s.act <|
    match s.listenOf node.toNat with
    | none => .nop
    | some l => when (!l.opened && Nat.ble l.openNs (s.atNs off))
      (.seq (listenSet node.toNat fun l => { l with opened := true }) (pendSeal node.toNat (s.pendList node.toNat)))

/-- LISTEN_WINDOW_CLOSE (R220, R221). -/
def execListenWindowClose (node : BitVec 24) (off : Fin 1000000) (s : State) : Result :=
  s.act <|
    match s.listenOf node.toNat with
    | none => .nop
    | some l => when (l.opened && Nat.ble l.closeNs (s.atNs off))
      (.seq (satBy MAC_LISTEN_MISS ((s.pendList node.toNat).filter fun a => !l.placed.contains a).length)
        (listenSet node.toNat fun l => { l with closed := true }))

/-- Scheduled poll windows of a child: its anchor in ns and its period in s, where it has any (R223). -/
def State.pollPlan (s : State) (nsa : Nat) : Option (Nat × Nat) :=
  let a := s.node nsa Node.ANCHOR_S * 1000000000 + s.node nsa Node.ANCHOR_NS
  let p := s.node nsa Node.POLL_PERIOD_S
  if s.sleepyChild nsa && Nat.blt 0 p && Nat.blt 0 a then some (a, p) else none

/-- POLL_STAGE (R224): between STAGE_MS before a window's opening and its end. -/
def execPollStage (node : BitVec 24) (off : Fin 1000000) (s : State) : Result :=
  s.act <|
    match s.pollPlan node.toNat with
    | none => .nop
    | some (a, p) =>
      let t := s.atNs off
      let k0 := (t - a) / (p * 1000000000)
      let near := [k0, k0 + 1].any fun k =>
        let mid := a + k * p * 1000000000
        let g := s.pollGuard p k
        Nat.blt 0 k && Nat.ble (mid - g) (t + 1000000 * s.fld MAC_POLL_STAGE_MS) && Nat.ble t (mid + g)
      when near (pendSeal node.toNat (s.pendList node.toNat))

/-- POLL_WINDOW_CLOSE (R225): a window of the anchor has ended without a POLL; a shadow takes it from the record (R39). -/
def execPollWindowClose (node : BitVec 24) (off : Fin 1000000) (s : State) : Result :=
  s.act <|
    match s.pollPlan node.toNat with
    | none => .nop
    | some (a, p) => when (!s.shadows && Nat.ble (a + p * 1000000000 + s.pollGuard p 1) (s.atNs off))
        (.seq (pollMiss node.toNat) (recordInput 5))

/-! ### Beacons (R226, R227) -/

/-- BEACON_DUE (R226, R435): the seal takes the counter and the frame joins the control flow; X fills its TIME fields. -/
def execBeaconDue (decoder : Fin 80) (cls : Fin 4) (s : State) : Result :=
  s.act <|
    let n := decoder.val
    let f := s.macHead 3 0 1 0xFFFFFF (s.minLevel 3) ++ beaconFields (s.bit MAC_STATUS_JOIN_OPEN) false 0 0 0
    let nominal := s.workBeat
    when (s.meshRuns && s.beaconOn n && s.beaconDue n nominal)
      (sealFrame .bcast f .nop fun bs => sendControl (decoderPort n) n cls bs fun q start =>
        mac fun m => { m with beacons := m.beacons ++ [⟨n, nominal, q, start⟩] })

/-- BEACON_SKIP_DEADLINE (R227): a beacon that has not started by half a period past its nominal beat. -/
def execBeaconSkipDeadline (decoder : Fin 80) (s : State) : Result :=
  s.act <|
    let half := s.fld MAC_BEACON_PERIOD_MS / 2
    let late := s.u.mac.beacons.filter fun b =>
      b.decoder == decoder.val && Nat.ble (b.nominal + half) s.workBeat && !s.started b.queue b.start
    each late fun b => all [discardPacket (decoderPort b.decoder) b.queue b.start,
      mac fun m => { m with beacons := m.beacons.erase b },
      sat MAC_BEACON_SKIP]

/-! ### Joins (R228–R231) -/

/-- Requests in the order of END. -/
def insertJoin (r : JoinReq) : List JoinReq → List JoinReq
  | [] => [r]
  | q :: l => if r.stop < q.stop then r :: q :: l else q :: insertJoin r l

/-- JOIN_ADMISSION: the requests bound so far are taken in order of END, and the routing role's answers to admissions in
progress go out. -/
def execJoinAdmission (cls : Fin 4) (answers : List (BitVec 64 × JoinOutcome)) (s : State) : Result :=
  s.act <|
    let due := s.u.mac.joins.foldl (fun l r => insertJoin r l) []
    when s.meshRuns
      (all [mac fun m => { m with joins := [] },
        each due (joinTake cls),
        each answers fun a => joinAnswer cls a.1.toNat a.2])

/-! ### The Bridle of reports (R233) -/

/-- BRIDLE_WINDOW_END: an entry's last beat has come. -/
def execBridleWindowEnd (index : Fin 512) (s : State) : Result :=
  s.act <|
    match s.u.mac.bridle[index.val]? with
    | none => .nop
    | some b => when (Nat.ble (b.firstBeat + b.window) (s.workBeat + 1)) (bridleEnd b false)

end Sys2Proof.Machine
end

