-- ==== Sys2Proof/Machine/Host.lean ====
section
/-!
DEFINITION. Machine/Host.lean: the host's commands (R596–R636): accesses over PCIe and SPI, guards, the rings, the host
and node commands of R620, and the timers of events and of the general timers.
-/

namespace Sys2Proof.Machine

open Sys2Proof Sys2Proof.Reg Sys2Proof.Machine.Act

/-! ### SPI (R599, R600) -/

/-- An SPI transaction: ignored where the target is not in service; SPI_SEL reads 1 while it lasts. -/
def Act.spi (a : Act) : Act :=
  reached .spi (all [hif fun h => { h with spiErr := false, spiOut := [] },
    setB HIF_STATUS_SPI_SEL true, a, setB HIF_STATUS_SPI_SEL false])

/-- SPI_READ (R599, R600): dwords from A upward, of BAR0 or, with A[31] set, of the BAR2 window; `corrected` and `bad` are
the memory errors a read of the window meets. -/
def execSpiRead (addr : BitVec 32) (dwords : Fin 1025) (corrected : Fin 1025) (bad : List (BitVec 32)) (s : State) :
    Result :=
  s.act <| spi (.read fun s =>
    let a := addr.toNat
    let n := dwords.val
    if a % 4 ≠ 0 then
      .seq (hif fun h => { h with spiOut := List.replicate (4 * n) 0 }) (accessError 5 .spi 15 a)
    else if 2 ^ 31 ≤ a then
      let off := a % 2 ^ 28
      .seq (hif fun h => { h with spiOut := s.barRead off (4 * n) })
        (barErrors corrected.val (s.barMeets off (4 * n) bad))
    else hif fun h => { h with
      spiOut := (List.range n).flatMap fun k => leBytes 4 (s.readDword ((a + 4 * k) % 2 ^ 24)).toNat })

/-- Whole dwords of a list of bytes. -/
def dwordsOf : List Byte → List (List Byte)
  | b0 :: b1 :: b2 :: b3 :: bs => [b0, b1, b2, b3] :: dwordsOf bs
  | _ => []

/-- SPI_WRITE (R599, R600): each whole dword is one access; 1 to 3 bytes left over are discarded. -/
def execSpiWrite (addr : BitVec 32) (bytes : List (BitVec 8)) (m : Moment) (s : State) : Result :=
  s.act <| spi (
    let a := addr.toNat
    let window := decide (2 ^ 31 ≤ a)
    let tail := bytes.length % 4
    let last := bytes.length / 4 * 4
    if a % 4 ≠ 0 then accessError 5 .spi 15 a
    else .seq
      (each (dwordsOf bytes).zipIdx fun d =>
        if window then barWrite .spi ((a + 4 * d.2) % 2 ^ 28) (d.1.map some)
        else regWrite .spi ((a + 4 * d.2) % 2 ^ 24) (BitVec.ofNat 32 (leValue d.1)) m)
      (when (!(tail == 0))
        (accessError 1 .spi (2 ^ tail - 1)
          (if window then 2 ^ 31 + (a + last) % 2 ^ 28 else (a + last) % 2 ^ 24))))

/-- SPI_STATUS (R599). -/
def execSpiStatus (s : State) : Result :=
  s.act <| reached .spi (.read fun s =>
    let bit := fun (b : Bool) (v : Nat) => if b then v else 0
    let v := bit s.u.hif.spiErr 1 + bit (Nat.ble 4 (s.fld BOOT_STATUS_STAGE)) 2 + bit (decide (s.mode = .recovery)) 4 +
      bit (!(s.fld EVT_STATUS_PENDING == 0)) 8
    hif fun h => { h with spiErr := false, spiOut := leBytes 1 v })

/-- SPI_ID (R599). -/
def execSpiId (s : State) : Result :=
  s.act <| reached .spi (.read fun s =>
    hif fun h => { h with spiErr := false, spiOut := leBytes 4 (s.reg GEN_CHIP_ID).toNat })

/-! ### PCIe -/

/-- REGISTER_WRITE (R598, R602–R604): the dwords of a BAR0 request in address order. -/
def execRegisterWrite (addr : BitVec 24) (dwords : List (BitVec 32 × BitVec 4)) (m : Moment) (s : State) : Result :=
  s.act <| reached .pcie (
    let a := addr.toNat / 4 * 4
    if 16 < dwords.length then accessError 6 .pcie 15 a
    else each dwords.zipIdx fun d => dwordWrite .pcie ((a + 4 * d.2) % 2 ^ 24) d.1.1 d.1.2.toNat m)

/-- BAR2_WRITE (R294, R598). -/
def execBar2Write (offset : BitVec 28) (bytes : List (Option (BitVec 8))) (s : State) : Result :=
  s.act <| reached .pcie (barWrite .pcie offset.toNat bytes)

/-- BAR2_READ (R294, R598): `corrected` single-bit errors, and the addresses of errors that cannot be corrected. -/
def execBar2Read (offset : BitVec 28) (len : Fin 4097) (corrected : Fin 4097) (bad : List (BitVec 32)) (s : State) :
    Result :=
  s.act <| reached .pcie (.read fun s =>
    .seq (hif fun h => { h with barOut := s.barRead offset.toNat len.val })
      (barErrors corrected.val (s.barMeets offset.toNat len.val bad)))

/-! ### Guards (R609, R610) -/

/-- GUARD_ARM (R609). -/
def execGuardArm (iface : HostIface) (guard : GuardReg) (value : BitVec 32) (s : State) : Result :=
  s.act <| reached iface (guardArm (guardAddr guard) value)

/-- GUARD_TIMEOUT (R610): 10 µs without the complement. -/
def execGuardTimeout (guard : GuardReg) (s : State) : Result :=
  s.act <| when (s.armed (guardAddr guard)).isSome
    (.seq (disarm (guardAddr guard)) (guardReject (guardAddr guard) grdTimeout))

/-- GUARD_INTERRUPT (R610): X+0x8 or X+0xC written while armed, or a complement with nothing armed. -/
def execGuardInterrupt (iface : HostIface) (guard : GuardReg) (part : GuardPart) (s : State) : Result :=
  s.act <| reached iface (.read fun s =>
    let x := guardAddr guard
    match part with
    | .complement => when (s.armed x).isNone (guardReject x grdMismatch)
    | .result => guardBreak x
    | .reserved => guardBreak x)

/-! ### Rings, journal and snapshots -/

/-- CMD_DOORBELL (R614). -/
def execCmdDoorbell (iface : HostIface) (value : BitVec 32) (s : State) : Result :=
  s.act <| permitted iface HIF_CMD_TAIL (doorbell iface value)

/-- CPL_CONSUME (R614). -/
def execCplConsume (iface : HostIface) (value : BitVec 32) (s : State) : Result :=
  s.act <| permitted iface HIF_CPL_CONS (cplConsume iface value)

/-- EVT_RING_CONSUME (R636). -/
def execEvtRingConsume (iface : HostIface) (ring : Fin 4) (value : BitVec 32) (s : State) : Result :=
  s.act <| permitted iface (EVT_RINGr_CONS ring) (evtConsume iface ring value)

/-- HIF_JRN_REQ (R623). -/
def execHifJrnReq (iface : HostIface) (s : State) : Result := s.act <| permitted iface HIF_JRN_REQ journalReq

/-- BEAT_SNAPSHOT_REQ (R67). -/
def execBeatSnapshotReq (iface : HostIface) (s : State) : Result := s.act <| permitted iface BT_BEAT_REQ beatReq

/-! ### Commands of the ring (R620, R621) -/

/-- NOP (R620). -/
def execNop (index : Fin 4096) (s : State) : Result :=
  s.act <| hostCmdDo index (fun o => o == 0x0001) fun _ _ => (.nop, stOk, .val 0)

/-- The status of a NODE_CMD for a status of R278 (R619). -/
def nodeStatus (st : Nat) : Nat := if st = dlQueued then stOk else groupStatus 0x0601 st

/-- NODE_CMD (R621, R622): a CMD frame, sealed end to end. SET_KEYS takes its GROUP alone; the keys are put in where the
frame is sealed. -/
def execNodeCmd (index : Fin 4096) (pick : Pick) (s : State) : Result :=
  s.act <| hostCmd index (fun o => o == 0x0601) fun c =>
    let code := c.arg 3 1
    let args := c.args.drop 8
    let body := leBytes 1 code ++ leBytes 2 (c.arg 4 2) ++ (if code = 1 then args ++ List.replicate 32 0 else args)
    if code = 1 ∧ args.length ≠ 4 then complete c stBadArgs (.val 0)
    else if 4 < c.arg 6 1 then complete c (nodeStatus dlBadMessage) (.val 0)
    else downSend ⟨5, c.arg 0 3, c.arg 6 1, true, body⟩ pick false (fun _ _ => .nop) fun st =>
      complete c (nodeStatus st) (.val 0)

/-- NODE_FORGET (R220, R621): while the node's listen window is open, its removal waits for the close. -/
def execNodeForget (index : Fin 4096) (s : State) : Result :=
  s.act <| hostCmd index (fun o => o == 0x0602) fun c => .read fun s =>
    let nsa := c.arg 0 3
    if !s.recValid nsa then complete c (groupStatus 0x0602 2) (.val 0)
    else .seq
      (if (s.listenOf nsa).isSome then listenSet nsa fun l => { l with forget := true } else nodeForget nsa)
      (complete c stOk (.val 0))

/-- JOIN_CONTROL (R621). -/
def execJoinControl (index : Fin 4096) (s : State) : Result :=
  s.act <| hostCmdDo index (fun o => o == 0x0603) fun c _ =>
    (.seq (setF MAC_JOIN_OPEN (c.arg 0 1)) joinFollow, stOk, .val 0)

/-- TIME_OF_DAY (R425, R620). -/
def execTimeOfDay (index : Fin 4096) (s : State) : Result :=
  s.act <| hostCmdDo index (fun o => o == 0x0701) fun c _ =>
    (tk fun t => { t with tod := some (c.arg 0 6) }, stOk, .val 0)

/-- The row of R500 of a failed test. -/
def failRow : TestFail → Nat
  | .logicBist _ => 1 | .memoryBist _ => 2 | .ldpc _ => 3 | .cipher _ => 4 | .ecdsa => 5 | .loopback _ => 6 | .voter => 7

/-- What a failed test does (R500). -/
def Act.failEffect : TestFail → Act
  | .logicBist pe => engineFault pe 8
  | .memoryBist pe => engineFault pe 8
  | .ldpc core => .seq (pair fun p => { p with ldpcOut := p.ldpcOut ++ [core.val] }) poolStat
  | .cipher core => pair fun p => { p with aesOut := p.aesOut ++ [core.val] }
  | .ecdsa => pair fun p => { p with ecdsaBad := true }
  | .loopback c => radioFail c
  | .voter => tamper 7

/-- SELFTEST_RUN (R500, R620): every test runs once; the result is the row of the first that failed, 0 if none. -/
def execSelftestRun (index : Fin 4096) (failed : List TestFail) (s : State) : Result :=
  s.act <| hostCmd index (fun o => o == 0x0801) fun c =>
    let rows := failed.map failRow
    let first := ([1, 2, 3, 4, 5, 6, 7].find? rows.contains).getD 0
    all [pair fun p => { p with ldpcOut := [], aesOut := [], ecdsaBad := false },
      poolStat,
      each [1, 2, 3, 4, 5, 6, 7] fun r => when (!rows.contains r) (selfTestRun r true .nop),
      each failed fun f => selfTestRun (failRow f) false (failEffect f),
      complete c stOk (.val first)]

/-! ### Timers of the events and the general timers -/

/-- EVENT_BRIDLE_WINDOW_END (R628): in the commit window of the last beat of the window; while the sequencer is stopped,
at a whole millisecond. -/
def execEventBridleWindowEnd (index : Fin 64) (s : State) : Result :=
  s.act <| .read fun s =>
    match s.u.evt.bridle[index.val]? with
    | none => .nop
    | some b => when (!s.bit BT_STATUS_RUNNING || b.window == 0)
      (.seq (bridleClose (fun r => raiseOnce 124 r (leBytes 1 r ++ leBytes 4 (s.reg (EVT_LOSTr r)).toNat)) index false)
        evtStatus)

/-- MSIX_MODERATION_EXPIRY (R629): MOD_US after a message, waiting requests give one more. -/
def execMsixModerationExpiry (vector : Fin 128) (s : State) : Result :=
  s.act <| .read fun s =>
    match s.u.evt.cooling.find? fun c => c.1 == vector.val with
    | none => .nop
    | some c => .seq (evt fun e => { e with cooling := e.cooling.filter fun d => !(d.1 == vector.val) })
      (when c.2 (msixRequest vector.val))

/-- GT_TIMER_EXPIRY (R39): bound as a timer input; a shadow takes its timers from the record. -/
def execGtTimerExpiry (gt : Fin 8) (s : State) : Result :=
  s.act <| when (s.bit BT_STATUS_RUNNING && !s.shadows && Nat.blt s.u.pwr.driftEntry 2)
    (.seq (bt fun b => { b with timers := b.timers ++ [(gt.val, s.bindBeat)] }) (recordInput 5))

end Sys2Proof.Machine
end

