-- ==== Sys2Proof/Machine/Images.lean ====
section
/-!
DEFINITION. Machine/Images.lean: the commands of the image library and of campaigns (R581–R595). `index` is the command
ring entry of a taken command; the arguments R583 and R587 name are the row's operands (log 20).
-/

namespace Sys2Proof.Machine

open Sys2Proof Sys2Proof.Reg Sys2Proof.Machine.Act

/-! ### Statuses of R587: the row in its table -/

def imgOk : Nat := 1
def imgNotEnabled : Nat := 2
def imgBadSlot : Nat := 3
def imgSlotBusy : Nat := 4
def imgNotReady : Nat := 5
def imgInUse : Nat := 6
def imgBadRange : Nat := 7
def imgBadCrc : Nat := 8
def imgIncomplete : Nat := 9
def imgHashMismatch : Nat := 10
def imgNoCampaign : Nat := 11
def imgBadState : Nat := 12
def imgLimit : Nat := 13

def imgStatus (n : Nat) : Nat := if n = imgOk then stOk else groupStatus 0x0400 n

namespace Act

def imgDone (c : HostCmd) (n : Nat) : Act := complete c (imgStatus n) (.val 0)

/-- An image or campaign command: taken from the ring, and NOT_ENABLED without a library (R581). -/
def imgCmd (index op : Nat) (k : HostCmd → State → Act) : Act := hostCmd index (fun o => o == op) fun c => .read fun s =>
  if s.libSlots = 0 then imgDone c imgNotEnabled else k c s

/-- A command on a slot of the library. -/
def slotCmd (index op slot : Nat) (k : HostCmd → State → Act) : Act := imgCmd index op fun c s =>
  if s.libSlots ≤ slot then imgDone c imgBadSlot else k c s

/-- A command on a campaign in one of the states `ok` names. -/
def campCmd (index op number : Nat) (ok : Nat → Bool) (k : HostCmd → State → Nat → Act) : Act :=
  imgCmd index op fun c s => match s.campOf number with
    | none => imgDone c imgNoCampaign
    | some r => if ok (s.camp r Camp.STATE) then k c s r else imgDone c imgBadState

end Act

/-! ### The library (R582, R583) -/

/-- IMAGE_OPEN. -/
def execImageOpen (index : Fin 4096) (slot nodeClass : BitVec 8) (blockSize : BitVec 16) (length version : BitVec 32)
    (sha : BitVec 256) (s : State) : Result :=
  s.act <| slotCmd index 0x0401 slot.toNat fun c s =>
    let b := blockSize.toNat
    let len := length.toNat
    let i := slot.toNat
    if !(s.lib i Lib.STATE == 0) then imgDone c imgSlotBusy
    else if b < 64 ∨ 896 < b ∨ b % 64 ≠ 0 ∨ len = 0 ∨ 2 ^ 23 - 64 < len ∨ b * 65534 < len then imgDone c imgBadRange
    else all [regionWrite (s.libSlot i) ([1] ++ leBytes 1 nodeClass.toNat ++ leBytes 2 b ++ leBytes 4 len ++
        leBytes 4 version.toNat ++ leBytes 32 sha.toNat ++ List.replicate 20 0),
      img fun x => { x with maps := x.maps.setD i [] [] },
      imgDone c imgOk]

/-- IMAGE_PUT. -/
def execImagePut (index : Fin 4096) (slot : BitVec 8) (offset bytes crc : BitVec 32) (s : State) : Result :=
  s.act <| slotCmd index 0x0402 slot.toNat fun c s =>
    let i := slot.toNat
    let landing := s.bytes s.stagingBase (min bytes.toNat 65536)
    let us := blockUnits offset.toNat bytes.toNat
    if !(s.lib i Lib.STATE == 1) then imgDone c imgBadState
    else if !blockInRange (s.lib i Lib.LENGTH) offset.toNat bytes.toNat then imgDone c imgBadRange
    else if !decide (crc32 landing = crc) then imgDone c imgBadCrc
    else all [regionWrite (s.libSlot i + 64 + offset.toNat) landing,
      img fun x =>
        let old := x.maps.getD i []
        { x with maps := x.maps.setD i [] (old ++ us.filter fun u => !old.contains u) },
      imgDone c imgOk]

/-- IMAGE_CLOSE. -/
def execImageClose (index : Fin 4096) (slot : BitVec 8) (s : State) : Result :=
  s.act <| slotCmd index 0x0403 slot.toNat fun c s =>
    let i := slot.toNat
    let len := s.lib i Lib.LENGTH
    let map := s.u.img.maps.getD i []
    if !(s.lib i Lib.STATE == 1) then imgDone c imgBadState
    else if !(blockUnits 0 len).all map.contains then imgDone c imgIncomplete
    else if !(Crypto.sha256 (natBytes (s.bytes (s.libSlot i + 64) len)) == natBytes (s.bytes (s.libSlot i + 12) 32)) then
      imgDone c imgHashMismatch
    else .seq (regionWrite (s.libSlot i) [2]) (imgDone c imgOk)

/-- IMAGE_DELETE. -/
def execImageDelete (index : Fin 4096) (slot : BitVec 8) (s : State) : Result :=
  s.act <| slotCmd index 0x0404 slot.toNat fun c s =>
    let i := slot.toNat
    if 0 < s.lib i Lib.USERS then imgDone c imgInUse
    else all [regionWrite (s.libSlot i) (List.replicate 64 0), img fun x => { x with maps := x.maps.setD i [] [] },
      imgDone c imgOk]

/-! ### Campaigns (R587) -/

/-- The parameters of CAMPAIGN_CREATE are within their ranges. -/
def campParamsOk (p : CampParams) : Bool :=
  let inside := fun lo hi v => Nat.ble lo v && Nat.ble v hi
  inside 1 8 p.rounds.toNat && inside 1 8 p.queued.toNat && inside 1 65535 p.rebcastMin.toNat &&
  inside 1 32 p.repairMax.toNat && inside 1 8 p.sleepyMax.toNat && inside 10 86400 p.reportWait.toNat &&
  inside 0 86400 p.progress.toNat && inside 60 2592000 p.deadline.toNat

/-- The next campaign number: 0 and the numbers of records in use are skipped. -/
def State.campNumber (s : State) : Nat :=
  (((List.range 17).map fun i => (s.u.img.last + 1 + i) % 65536).find? fun n =>
    !(n == 0) && (s.campOf n).isNone).getD 0

/-- CAMPAIGN_CREATE. -/
def execCampaignCreate (index : Fin 4096) (slot : BitVec 8) (flags : BitVec 3) (p : CampParams) (s : State) : Result :=
  s.act <| slotCmd index 0x0410 slot.toNat fun c s =>
    let i := slot.toNat
    let n := s.campNumber
    if !(s.lib i Lib.STATE == 2) then imgDone c imgNotReady
    else if !campParamsOk p then imgDone c imgBadRange
    else match (List.range 16).find? fun r => s.camp r Camp.NUMBER == 0 with
    | none => imgDone c imgLimit
    | some r => all [
        regionWrite (s.campTable + 128 * r) (leBytes 2 n ++ [0] ++ leBytes 1 i ++ [0] ++ leBytes 1 flags.toNat ++
          leBytes 2 (s.libBlocks i) ++ List.replicate 8 0 ++ leBytes 4 p.deadline.toNat ++ List.replicate 44 0 ++
          leBytes 1 p.rounds.toNat ++ leBytes 1 p.queued.toNat ++ leBytes 2 p.rebcastMin.toNat ++
          leBytes 1 p.repairMax.toNat ++ leBytes 1 p.sleepyMax.toNat ++ [0, 0] ++ leBytes 4 p.reportWait.toNat ++
          leBytes 4 p.progress.toNat ++ List.replicate 48 0),
        libPut i Lib.USERS (s.lib i Lib.USERS + 1),
        img fun x => { x with last := n, runs := x.runs.setD r Run.idle Run.idle },
        complete c stOk (.val n)]

/-- CAMPAIGN_TARGET: ADD or REMOVE names one to ten nodes. -/
def execCampaignTarget (index : Fin 4096) (number : BitVec 16) (add : Bool) (nodes : List (BitVec 24)) (s : State) :
    Result :=
  s.act <| campCmd index 0x0411 number.toNat (· == 0) fun c _ r =>
    let ns := nodes.map BitVec.toNat
    let without := fun (l : List Nat) => l.filter fun n => !ns.contains n
    if ns.isEmpty ∨ 10 < ns.length then imgDone c imgBadRange
    else .seq (runSet r fun x => { x with
        named := if add then nodup (x.named ++ ns) else without x.named
        removed := if add then without x.removed else nodup (x.removed ++ ns) }) (imgDone c imgOk)

/-- CAMPAIGN_START (R589). -/
def execCampaignStart (index : Fin 4096) (number : BitVec 16) (s : State) : Result :=
  s.act <| campCmd index 0x0412 number.toNat (· == 0) fun c s r =>
    all [campPut r Camp.STATE 1, campPut r Camp.START_BEAT (s.workBeat % 2 ^ 32),
      runSet r fun x => { x with
        walk := some 0
        lastProgress := s.workBeat },
      imgDone c imgOk]

/-- CAMPAIGN_PAUSE. -/
def execCampaignPause (index : Fin 4096) (number : BitVec 16) (s : State) : Result :=
  s.act <| campCmd index 0x0413 number.toNat (fun st => Nat.ble 1 st && Nat.ble st 3) fun c s r =>
    let st := s.camp r Camp.STATE
    all [campPut r Camp.STATE 4, campPut r Camp.FLAGS (s.camp r Camp.FLAGS % 8 + (if st = 2 then 8 else 0)),
      runSet r fun x => { x with paused := st }, imgDone c imgOk]

/-- CAMPAIGN_RESUME: CAMPAIGN_PAUSE with RESUME. -/
def execCampaignResume (index : Fin 4096) (number : BitVec 16) (s : State) : Result :=
  s.act <| campCmd index 0x0413 number.toNat (· == 4) fun c s r =>
    all [campPut r Camp.STATE (s.run r).paused, campPut r Camp.FLAGS (s.camp r Camp.FLAGS % 8), imgDone c imgOk]

/-- CAMPAIGN_CANCEL (R594). -/
def execCampaignCancel (index : Fin 4096) (number : BitVec 16) (s : State) : Result :=
  s.act <| campCmd index 0x0414 number.toNat (fun st => Nat.ble st 4) fun c s r =>
    all [each (s.campNodes r campOpen) fun n => campNode n 0 0, campEnd r 6, imgDone c imgOk]

/-- CAMPAIGN_QUERY. -/
def execCampaignQuery (index : Fin 4096) (s : State) : Result :=
  s.act <| imgCmd index 0x0415 fun c s => complete c stOk (.val s.campTable)

/-- CAMPAIGN_CLEAR. -/
def execCampaignClear (index : Fin 4096) (number : BitVec 16) (s : State) : Result :=
  s.act <| campCmd index 0x0416 number.toNat (fun st => Nat.ble 5 st && Nat.ble st 7) fun c s r =>
    .seq (regionWrite (s.campTable + 128 * r) (List.replicate 128 0)) (imgDone c imgOk)

/-! ### What runs by itself -/

/-- ENROL_RETRY_EXPIRY (R590): REPORT_WAIT_S after its failed manifest a node gets the manifest again. -/
def execEnrolRetryExpiry (record : Fin 16) (node : BitVec 24) (s : State) : Result :=
  s.act <|
    let r := record.val
    match (s.run r).waiting.find? fun w => w.1 == node.toNat with
    | none => .nop
    | some w => when (s.campLive r && Nat.ble (s.camp r Camp.REPORT_WAIT_S) (s.secondsSince w.2))
      (runSet r fun x => { x with waiting := x.waiting.erase w })

/-- A report that is applied: the row of R592 for its STATUS. -/
def Act.reportApply (r n : Nat) (x : CampReport) : Act := .read fun s =>
  let d := x.detail
  let st := s.node n Node.C_STATE
  let version := leAt d 3 4
  let slot := s.camp r Camp.SLOT
  match leAt d 2 1 with
  | 0 => .seq (recUpdate n [(Node.C_STATE, 2), (Node.C_BASE, leAt d 7 2), (Node.C_MISSING, leAt d 9 2),
      (Node.C_BITMAP, leValue ((d.drop 11).take 21)), (Node.C_REPORT_BEAT, x.beat % 2 ^ 32)])
      (runSet r fun y => { y with reps := y.reps.setD n 0 (min 21 (d.length - 11)) })
  | 1 => .seq (campNode n 3 0) (when (!(st == 3)) (campCount r Camp.COMPLETE))
  | 2 =>
    let fails := s.node n Node.C_HASH_FAILS + 1
    if 2 ≤ fails then .seq (recUpdate n [(Node.C_HASH_FAILS, fails)]) (campFail r n 3)
    else .seq (recUpdate n [(Node.C_STATE, 2), (Node.C_HASH_FAILS, fails), (Node.C_NEXT, 1)])
      (runSet r fun y => { y with
        resend := nodup (y.resend ++ [n])
        reps := y.reps.setD n 0 0 })
  | 3 =>
    if version = s.lib slot Lib.FW_VERSION then
      all [recUpdate n [(Node.FW_VERSION, version)], campNode n 4 0, campCount r Camp.VERIFIED]
    else campFail r n 4
  | 4 => campFail r n 4
  | _ => .nop

/-- CAMPAIGN_REPORT (R592): the oldest report goes to its campaign. -/
def execCampaignReport (s : State) : Result :=
  s.act <|
    match s.u.img.reports with
    | [] => .nop
    | x :: rest => .seq (img fun i => { i with reports := rest })
      (let n := x.node
      let number := leAt x.detail 0 2
      match s.campOf (s.node n Node.CAMPAIGN), s.campOf number with
      | some r, some q =>
        if r = q ∧ s.campLive r = true ∧ 1 ≤ s.camp r Camp.STATE ∧ x.subject = n then
          all [campCount r Camp.REPORTS, when (campOpen (s.node n Node.C_STATE)) (reportApply r n x), campFinish r]
        else campCount q Camp.STALE_REPORTS
      | some r, none => campCount r Camp.STALE_REPORTS
      | none, some q => campCount q Camp.STALE_REPORTS
      | none, none => .nop)

/-- REPAIR_PASS (R593): REPORT_WAIT_S after the last one, or after REPAIR was entered. -/
def execRepairPass (record : Fin 16) (s : State) : Result :=
  s.act <|
    let r := record.val
    when (s.campLive r && s.camp r Camp.STATE == 3 &&
      Nat.ble (s.camp r Camp.REPORT_WAIT_S) (s.secondsSince (s.run r).lastPass)) (repairPass r)

/-- CAMPAIGN_DEADLINE (R594). -/
def execCampaignDeadline (record : Fin 16) (s : State) : Result :=
  s.act <|
    let r := record.val
    let beats := (s.workBeat + 2 ^ 32 - s.camp r Camp.START_BEAT) % 2 ^ 32
    when (s.campLive r && Nat.ble 1 (s.camp r Camp.STATE) && Nat.ble (1000 * s.camp r Camp.DEADLINE_S) beats)
      (.seq (each (s.campNodes r campOpen) fun n => campFail r n 5) (campEnd r 7))

/-- CAMPAIGN_PROGRESS_EXPIRY (R594). -/
def execCampaignProgressExpiry (record : Fin 16) (s : State) : Result :=
  s.act <|
    let r := record.val
    let period := s.camp r Camp.PROGRESS_S
    when (s.campLive r && Nat.ble 1 (s.camp r Camp.STATE) && Nat.blt 0 period &&
        Nat.ble period (s.secondsSince (s.run r).lastProgress))
      (all [runSet r fun x => { x with lastProgress := s.workBeat },
        raise 125 (leBytes 2 (s.camp r Camp.NUMBER) ++ leBytes 1 (s.camp r Camp.STATE) ++
          s.bytes (s.campTable + 128 * r + 20) 28),
        campFinish r])

end Sys2Proof.Machine
end

