-- ==== Sys2Proof/Machine/Dispatch.lean ====
section
/-!
DEFINITION. Machine/Dispatch.lean: what each command does to everything but the queue, one direct call per constructor.
-/

namespace Sys2Proof.Machine

open Sys2Proof

def exec (i : Instr) (s : State) : Host.Outcome State Fault Refusal :=
  match i with
  | .powerOnResetRelease straps ticks => Sys2Proof.Machine.execPowerOnResetRelease straps ticks s
  | .supplyLoss rails vbat ticks => Sys2Proof.Machine.execSupplyLoss rails vbat ticks s
  | .resetNAssert => Sys2Proof.Machine.execResetNAssert s
  | .resetNRelease straps ticks => Sys2Proof.Machine.execResetNRelease straps ticks s
  | .bootDone flashOk epochOk ms => Sys2Proof.Machine.execBootDone flashOk epochOk ms s
  | .perstNEdge high => Sys2Proof.Machine.execPerstNEdge high s
  | .pcieLinkChange link => Sys2Proof.Machine.execPcieLinkChange link s
  | .sequencerStart sample => Sys2Proof.Machine.execSequencerStart sample s
  | .beatBoundary sample used unfinished ticks => Sys2Proof.Machine.execBeatBoundary sample used unfinished ticks s
  | .planWindowClose => Sys2Proof.Machine.execPlanWindowClose s
  | .bindLine => Sys2Proof.Machine.execBindLine s
  | .commitWindowOpen unfinished cls upsets torn entries => Sys2Proof.Machine.execCommitWindowOpen unfinished cls upsets torn entries s
  | .tmrCopyUpset part agree => Sys2Proof.Machine.execTmrCopyUpset part agree s
  | .tmrCopyReload => Sys2Proof.Machine.execTmrCopyReload s
  | .engineSramError pe uncorrectable => Sys2Proof.Machine.execEngineSramError pe uncorrectable s
  | .engineRestored pe => Sys2Proof.Machine.execEngineRestored pe s
  | .dozeEnginesReturn => Sys2Proof.Machine.execDozeEnginesReturn s
  | .ldpcRedecode pe thread frame codeword limit out => Sys2Proof.Machine.execLdpcRedecode pe thread frame codeword limit out s
  | .ccmSeal pe thread key addr len out => Sys2Proof.Machine.execCcmSeal pe thread key addr len out s
  | .ccmOpen pe thread key addr len out => Sys2Proof.Machine.execCcmOpen pe thread key addr len out s
  | .kdfDerive pe thread slot label => Sys2Proof.Machine.execKdfDerive pe thread slot label s
  | .cmacCompute pe thread slot addr len out => Sys2Proof.Machine.execCmacCompute pe thread slot addr len out s
  | .sha256Block pe thread state block out => Sys2Proof.Machine.execSha256Block pe thread state block out s
  | .ecdsaVerify pe thread key sig hash => Sys2Proof.Machine.execEcdsaVerify pe thread key sig hash s
  | .routeWalk pe thread final out => Sys2Proof.Machine.execRouteWalk pe thread final out s
  | .placementRequest pe thread queue start decoder cls length => Sys2Proof.Machine.execPlacementRequest pe thread queue start decoder cls length s
  | .planQuery pe thread out => Sys2Proof.Machine.execPlanQuery pe thread out s
  | .envelopeCopy pe thread src dst len => Sys2Proof.Machine.execEnvelopeCopy pe thread src dst len s
  | .cipherDispatch upset => Sys2Proof.Machine.execCipherDispatch upset s
  | .opCompletion pe slot bad => Sys2Proof.Machine.execOpCompletion pe slot bad s
  | .completionTake pe slot => Sys2Proof.Machine.execCompletionTake pe slot s
  | .beatSnapshotReq iface => Sys2Proof.Machine.execBeatSnapshotReq iface s
  | .vddEngSettled => Sys2Proof.Machine.execVddEngSettled s
  | .vsettleTimeout => Sys2Proof.Machine.execVsettleTimeout s
  | .levelChangeDone => Sys2Proof.Machine.execLevelChangeDone s
  | .rxRecalRequest iface port value => Sys2Proof.Machine.execRxRecalRequest iface port value s
  | .sliceWrite iface port value off sample => Sys2Proof.Machine.execSliceWrite iface port value off sample s
  | .rxRecalStart port off sample => Sys2Proof.Machine.execRxRecalStart port off sample s
  | .rxRecalDone port off sample locked steps us => Sys2Proof.Machine.execRxRecalDone port off sample locked steps us s
  | .rxSynthUnlock port off sample => Sys2Proof.Machine.execRxSynthUnlock port off sample s
  | .txLockConfirmed chain us => Sys2Proof.Machine.execTxLockConfirmed chain us s
  | .txCalTimeout chain => Sys2Proof.Machine.execTxCalTimeout chain s
  | .txSynthUnlock chain => Sys2Proof.Machine.execTxSynthUnlock chain s
  | .txChainEnWrite iface chain value => Sys2Proof.Machine.execTxChainEnWrite iface chain value s
  | .txHoldDecision chain off => Sys2Proof.Machine.execTxHoldDecision chain off s
  | .ccaStart chain => Sys2Proof.Machine.execCcaStart chain s
  | .ccaEnd chain off power draw => Sys2Proof.Machine.execCcaEnd chain off power draw s
  | .backoffExpiry chain => Sys2Proof.Machine.execBackoffExpiry chain s
  | .txSequenceStart chain ack off sample => Sys2Proof.Machine.execTxSequenceStart chain ack off sample s
  | .txPaEnable chain => Sys2Proof.Machine.execTxPaEnable chain s
  | .txRampUpStart chain off => Sys2Proof.Machine.execTxRampUpStart chain off s
  | .txFrameStart chain upset => Sys2Proof.Machine.execTxFrameStart chain upset s
  | .txFrameEnd chain off readback => Sys2Proof.Machine.execTxFrameEnd chain off readback s
  | .txRampDownEnd chain off => Sys2Proof.Machine.execTxRampDownEnd chain off s
  | .txPaDisable chain => Sys2Proof.Machine.execTxPaDisable chain s
  | .txTrReturn chain => Sys2Proof.Machine.execTxTrReturn chain s
  | .txBlankEnd port off sample => Sys2Proof.Machine.execTxBlankEnd port off sample s
  | .cxRequestRaise chain ack => Sys2Proof.Machine.execCxRequestRaise chain ack s
  | .cxGrantSample chain granted => Sys2Proof.Machine.execCxGrantSample chain granted s
  | .cxGrantWithdrawn port => Sys2Proof.Machine.execCxGrantWithdrawn port s
  | .cxRelease port => Sys2Proof.Machine.execCxRelease port s
  | .dutyBucketAdvance port region => Sys2Proof.Machine.execDutyBucketAdvance port region s
  | .dutyRegionWrite iface port region band value => Sys2Proof.Machine.execDutyRegionWrite iface port region band value s
  | .agcClipAttack port sample clip samples peak => Sys2Proof.Machine.execAgcClipAttack port sample clip samples peak s
  | .agcLevelDecision port sample long rms => Sys2Proof.Machine.execAgcLevelDecision port sample long rms s
  | .agcReleaseDeferEnd port sample expired => Sys2Proof.Machine.execAgcReleaseDeferEnd port sample expired s
  | .gainStepEffective port => Sys2Proof.Machine.execGainStepEffective port s
  | .clipSpanEnd port last => Sys2Proof.Machine.execClipSpanEnd port last s
  | .announceRecordApply decoder seq processed reports => Sys2Proof.Machine.execAnnounceRecordApply decoder seq processed reports s
  | .preambleDetect decoder found => Sys2Proof.Machine.execPreambleDetect decoder found s
  | .watchDetect decoder found => Sys2Proof.Machine.execWatchDetect decoder found s
  | .sfdMatch decoder watch word start => Sys2Proof.Machine.execSfdMatch decoder watch word start s
  | .sfdTimeout decoder watch => Sys2Proof.Machine.execSfdTimeout decoder watch s
  | .headerDecoded decoder watch block => Sys2Proof.Machine.execHeaderDecoded decoder watch block s
  | .codewordEnd decoder soft => Sys2Proof.Machine.execCodewordEnd decoder soft s
  | .rxFrameEnd decoder => Sys2Proof.Machine.execRxFrameEnd decoder s
  | .ldpcDispatch => Sys2Proof.Machine.execLdpcDispatch s
  | .ldpcDecodeDone core hard iterations => Sys2Proof.Machine.execLdpcDecodeDone core hard iterations s
  | .decoderCfgWrite iface decoder value => Sys2Proof.Machine.execDecoderCfgWrite iface decoder value s
  | .captureCfgWrite iface value => Sys2Proof.Machine.execCaptureCfgWrite iface value s
  | .macFrameReceived => Sys2Proof.Machine.execMacFrameReceived s
  | .macRecordFetched index bad => Sys2Proof.Machine.execMacRecordFetched index bad s
  | .macLinkKeyReady index => Sys2Proof.Machine.execMacLinkKeyReady index s
  | .macLinkMicDone index off => Sys2Proof.Machine.execMacLinkMicDone index off s
  | .macE2eCheckDone index bad => Sys2Proof.Machine.execMacE2eCheckDone index bad s
  | .ackWaitExpiry index draw off => Sys2Proof.Machine.execAckWaitExpiry index draw off s
  | .ackReceived index => Sys2Proof.Machine.execAckReceived index s
  | .listenWindowOpen node off => Sys2Proof.Machine.execListenWindowOpen node off s
  | .listenWindowClose node off => Sys2Proof.Machine.execListenWindowClose node off s
  | .pollStage node off => Sys2Proof.Machine.execPollStage node off s
  | .pollWindowClose node off => Sys2Proof.Machine.execPollWindowClose node off s
  | .beaconDue decoder cls => Sys2Proof.Machine.execBeaconDue decoder cls s
  | .beaconSkipDeadline decoder => Sys2Proof.Machine.execBeaconSkipDeadline decoder s
  | .joinAdmission cls answers => Sys2Proof.Machine.execJoinAdmission cls answers s
  | .bridleWindowEnd index => Sys2Proof.Machine.execBridleWindowEnd index s
  | .forwardLearn index headend cls pre => Sys2Proof.Machine.execForwardLearn index headend cls pre s
  | .recordUpdate pe thread op => Sys2Proof.Machine.execRecordUpdate pe thread op s
  | .fwdLookup via table ecc => Sys2Proof.Machine.execFwdLookup via table ecc s
  | .fwdInsert via table => Sys2Proof.Machine.execFwdInsert via table s
  | .fwdUpdate via table => Sys2Proof.Machine.execFwdUpdate via table s
  | .fwdDelete via table => Sys2Proof.Machine.execFwdDelete via table s
  | .fwdDeleteIfStamp via table => Sys2Proof.Machine.execFwdDeleteIfStamp via table s
  | .fwdReadSlot via table => Sys2Proof.Machine.execFwdReadSlot via table s
  | .fwdFlush via table => Sys2Proof.Machine.execFwdFlush via table s
  | .fwdDigest via table => Sys2Proof.Machine.execFwdDigest via table s
  | .fwdOpComplete => Sys2Proof.Machine.execFwdOpComplete s
  | .ageingDeletePhase => Sys2Proof.Machine.execAgeingDeletePhase s
  | .blockResyncApply => Sys2Proof.Machine.execBlockResyncApply s
  | .pleDownlinkReceived port pick cls pre => Sys2Proof.Machine.execPleDownlinkReceived port pick cls pre s
  | .scrubBurst corrected uncorrectable => Sys2Proof.Machine.execScrubBurst corrected uncorrectable s
  | .enq port queue next headend words => Sys2Proof.Machine.execEnq port queue next headend words s
  | .abort port queue => Sys2Proof.Machine.execAbort port queue s
  | .deq port queue n stopAtL out upsets => Sys2Proof.Machine.execDeq port queue n stopAtL out upsets s
  | .mark port queue => Sys2Proof.Machine.execMark port queue s
  | .rewind port queue => Sys2Proof.Machine.execRewind port queue s
  | .release port queue => Sys2Proof.Machine.execRelease port queue s
  | .fcHoldExpiry group => Sys2Proof.Machine.execFcHoldExpiry group s
  | .queueReadCfg iface queue => Sys2Proof.Machine.execQueueReadCfg iface queue s
  | .queueWriteCfg via queue => Sys2Proof.Machine.execQueueWriteCfg via queue s
  | .queueReadState iface queue => Sys2Proof.Machine.execQueueReadState iface queue s
  | .queueFlush via queue => Sys2Proof.Machine.execQueueFlush via queue s
  | .envQcmdComplete => Sys2Proof.Machine.execEnvQcmdComplete s
  | .bar2Write offset bytes => Sys2Proof.Machine.execBar2Write offset bytes s
  | .uplinkSelect port => Sys2Proof.Machine.execUplinkSelect port s
  | .shaperTick => Sys2Proof.Machine.execShaperTick s
  | .residueMismatch domain second => Sys2Proof.Machine.execResidueMismatch domain second s
  | .schSnapshotReq iface value => Sys2Proof.Machine.execSchSnapshotReq iface value s
  | .unwrapToSlot index => Sys2Proof.Machine.execUnwrapToSlot index s
  | .deriveToSlot index => Sys2Proof.Machine.execDeriveToSlot index s
  | .wrapToPartner source => Sys2Proof.Machine.execWrapToPartner source s
  | .restrict index => Sys2Proof.Machine.execRestrict index s
  | .erase index => Sys2Proof.Machine.execErase index s
  | .slotPersistConfirmed slot ok => Sys2Proof.Machine.execSlotPersistConfirmed slot ok s
  | .slotDrainDone slot => Sys2Proof.Machine.execSlotDrainDone slot s
  | .epochWriteConfirmed ok => Sys2Proof.Machine.execEpochWriteConfirmed ok s
  | .tamperPinEdge pin high => Sys2Proof.Machine.execTamperPinEdge pin high s
  | .tamperDebounced pin => Sys2Proof.Machine.execTamperDebounced pin s
  | .monitorExcursion monitor present => Sys2Proof.Machine.execMonitorExcursion monitor present s
  | .secZeroise iface comp => Sys2Proof.Machine.execSecZeroise iface comp s
  | .secTamperClr iface comp ticks => Sys2Proof.Machine.execSecTamperClr iface comp ticks s
  | .slotReadMeta iface slot => Sys2Proof.Machine.execSlotReadMeta iface slot s
  | .slotVerifyTag iface slot upset => Sys2Proof.Machine.execSlotVerifyTag iface slot upset s
  | .fuseReadReq iface value => Sys2Proof.Machine.execFuseReadReq iface value s
  | .fuseProg iface comp => Sys2Proof.Machine.execFuseProg iface comp s
  | .fuseAdvance iface comp => Sys2Proof.Machine.execFuseAdvance iface comp s
  | .fuseProgDone blown => Sys2Proof.Machine.execFuseProgDone blown s
  | .debugAccessOpen => Sys2Proof.Machine.execDebugAccessOpen s
  | .timeSecond edges nap => Sys2Proof.Machine.execTimeSecond edges nap s
  | .ppsFall => Sys2Proof.Machine.execPpsFall s
  | .beatOutFall => Sys2Proof.Machine.execBeatOutFall s
  | .timeResidueFail again => Sys2Proof.Machine.execTimeResidueFail again s
  | .tkStepGo src value => Sys2Proof.Machine.execTkStepGo src value s
  | .tkRearm iface comp => Sys2Proof.Machine.execTkRearm iface comp s
  | .tkIncrWrite src value edges => Sys2Proof.Machine.execTkIncrWrite src value edges s
  | .tkServoWrite src value => Sys2Proof.Machine.execTkServoWrite src value s
  | .servoWatchdogExpiry => Sys2Proof.Machine.execServoWatchdogExpiry s
  | .holdoverTraceExpiry => Sys2Proof.Machine.execHoldoverTraceExpiry s
  | .tsiEdge input rising edges phase => Sys2Proof.Machine.execTsiEdge input rising edges phase s
  | .tkCapReq iface value => Sys2Proof.Machine.execTkCapReq iface value s
  | .tkTimeReq iface edges => Sys2Proof.Machine.execTkTimeReq iface edges s
  | .ethAutodetectSwitch port => Sys2Proof.Machine.execEthAutodetectSwitch port s
  | .ethLinkUp port ten rxPause => Sys2Proof.Machine.execEthLinkUp port ten rxPause s
  | .ethLinkDown port => Sys2Proof.Machine.execEthLinkDown port s
  | .ethFrameReceived port edges phase code bytes => Sys2Proof.Machine.execEthFrameReceived port edges phase code bytes s
  | .ethPauseExpiry port => Sys2Proof.Machine.execEthPauseExpiry port s
  | .ethTxStart port edges phase => Sys2Proof.Machine.execEthTxStart port edges phase s
  | .ethTxDone port upset => Sys2Proof.Machine.execEthTxDone port upset s
  | .pauseRefresh port => Sys2Proof.Machine.execPauseRefresh port s
  | .bridgeAgeTick => Sys2Proof.Machine.execBridgeAgeTick s
  | .naAnnounce port => Sys2Proof.Machine.execNaAnnounce port s
  | .ethBrFlush iface value => Sys2Proof.Machine.execEthBrFlush iface value s
  | .ethBrFlushDone => Sys2Proof.Machine.execEthBrFlushDone s
  | .ethPortCfgWrite iface port value => Sys2Proof.Machine.execEthPortCfgWrite iface port value s
  | .pairLinkUp => Sys2Proof.Machine.execPairLinkUp s
  | .pairLinkDown => Sys2Proof.Machine.execPairLinkDown s
  | .tetherSend => Sys2Proof.Machine.execTetherSend s
  | .tetherReceived lseq t => Sys2Proof.Machine.execTetherReceived lseq t s
  | .tetherMiss => Sys2Proof.Machine.execTetherMiss s
  | .tetherLost => Sys2Proof.Machine.execTetherLost s
  | .pairAliveEdge low => Sys2Proof.Machine.execPairAliveEdge low s
  | .aliveWatchdogExpiry => Sys2Proof.Machine.execAliveWatchdogExpiry s
  | .startClaim => Sys2Proof.Machine.execStartClaim s
  | .inputReceived lseq beat entries => Sys2Proof.Machine.execInputReceived lseq beat entries s
  | .sealReceived lseq beat count crcOk => Sys2Proof.Machine.execSealReceived lseq beat count crcOk s
  | .sealWaitExpiry => Sys2Proof.Machine.execSealWaitExpiry s
  | .digestReceived lseq beat plan uplink log b0 b1 b2 b3 => Sys2Proof.Machine.execDigestReceived lseq beat plan uplink log b0 b1 b2 b3 s
  | .resendReceived lseq wanted => Sys2Proof.Machine.execResendReceived lseq wanted s
  | .diversityReceived lseq rx => Sys2Proof.Machine.execDiversityReceived lseq rx s
  | .llrReceived lseq decoder codeword stopNs llrs => Sys2Proof.Machine.execLlrReceived lseq decoder codeword stopNs llrs s
  | .bulkReceived lseq item => Sys2Proof.Machine.execBulkReceived lseq item s
  | .timeFrameReceived lseq sent echo edges => Sys2Proof.Machine.execTimeFrameReceived lseq sent echo edges s
  | .helloReceived lseq h => Sys2Proof.Machine.execHelloReceived lseq h s
  | .switchReceived lseq beat => Sys2Proof.Machine.execSwitchReceived lseq beat s
  | .switchAckReceived lseq beat => Sys2Proof.Machine.execSwitchAckReceived lseq beat s
  | .switchAckTimeout => Sys2Proof.Machine.execSwitchAckTimeout s
  | .arbReceived lseq verdict score => Sys2Proof.Machine.execArbReceived lseq verdict score s
  | .yieldReceived lseq => Sys2Proof.Machine.execYieldReceived lseq s
  | .blockFrameReceived lseq table block entries => Sys2Proof.Machine.execBlockFrameReceived lseq table block entries s
  | .reexecutionDone consistent => Sys2Proof.Machine.execReexecutionDone consistent s
  | .reexecutionDeadline => Sys2Proof.Machine.execReexecutionDeadline s
  | .takeoverDecision => Sys2Proof.Machine.execTakeoverDecision s
  | .staleTakeoverExpiry => Sys2Proof.Machine.execStaleTakeoverExpiry s
  | .syncTimeout => Sys2Proof.Machine.execSyncTimeout s
  | .syncRetryExpiry => Sys2Proof.Machine.execSyncRetryExpiry s
  | .reclaimHoldExpiry => Sys2Proof.Machine.execReclaimHoldExpiry s
  | .pairSwitch iface => Sys2Proof.Machine.execPairSwitch iface s
  | .pairResync iface => Sys2Proof.Machine.execPairResync iface s
  | .pairHoldReclaim iface => Sys2Proof.Machine.execPairHoldReclaim iface s
  | .pairDetach iface => Sys2Proof.Machine.execPairDetach iface s
  | .pairRoleOvr iface comp => Sys2Proof.Machine.execPairRoleOvr iface comp s
  | .pairDigReq iface value => Sys2Proof.Machine.execPairDigReq iface value s
  | .logicBistDone pe pass => Sys2Proof.Machine.execLogicBistDone pe pass s
  | .ldpcKat core pass => Sys2Proof.Machine.execLdpcKat core pass s
  | .cipherKat core pass => Sys2Proof.Machine.execCipherKat core pass s
  | .ecdsaKat pass => Sys2Proof.Machine.execEcdsaKat pass s
  | .radioLoopback chain pass => Sys2Proof.Machine.execRadioLoopback chain pass s
  | .voterCheck pass => Sys2Proof.Machine.execVoterCheck pass s
  | .pwrReqLevel iface level => Sys2Proof.Machine.execPwrReqLevel iface level s
  | .pwrReqDoze iface => Sys2Proof.Machine.execPwrReqDoze iface s
  | .pwrReqServe iface => Sys2Proof.Machine.execPwrReqServe iface s
  | .pwrReqDrift iface => Sys2Proof.Machine.execPwrReqDrift iface s
  | .thermalReading quarters => Sys2Proof.Machine.execThermalReading quarters s
  | .mainsSenseEdge high => Sys2Proof.Machine.execMainsSenseEdge high s
  | .mainsFiltered ticks => Sys2Proof.Machine.execMainsFiltered ticks s
  | .lossDriftExpiry => Sys2Proof.Machine.execLossDriftExpiry s
  | .driftEntryComplete ticks => Sys2Proof.Machine.execDriftEntryComplete ticks s
  | .sniffCycleStart => Sys2Proof.Machine.execSniffCycleStart s
  | .samplingIslandOn quarters ticks => Sys2Proof.Machine.execSamplingIslandOn quarters ticks s
  | .sniffCycleEnd peak detected ticks => Sys2Proof.Machine.execSniffCycleEnd peak detected ticks s
  | .driftTimerExpiry ticks => Sys2Proof.Machine.execDriftTimerExpiry ticks s
  | .driftWakeCondition source gpio ticks => Sys2Proof.Machine.execDriftWakeCondition source gpio ticks s
  | .forceHold iface comp => Sys2Proof.Machine.execForceHold iface comp s
  | .forceDozeExit iface comp => Sys2Proof.Machine.execForceDozeExit iface comp s
  | .pwrReset iface comp ticks => Sys2Proof.Machine.execPwrReset iface comp ticks s
  | .migrationDone bad written => Sys2Proof.Machine.execMigrationDone bad written s
  | .migrationTimeout written => Sys2Proof.Machine.execMigrationTimeout written s
  | .commissionWaitExpiry => Sys2Proof.Machine.execCommissionWaitExpiry s
  | .commissionDone index => Sys2Proof.Machine.execCommissionDone index s
  | .confirmTimerExpiry blown => Sys2Proof.Machine.execConfirmTimerExpiry blown s
  | .updateBegin index kind length tries sha => Sys2Proof.Machine.execUpdateBegin index kind length tries sha s
  | .updateBlock index offset bytes crc => Sys2Proof.Machine.execUpdateBlock index offset bytes crc s
  | .updateEnd index => Sys2Proof.Machine.execUpdateEnd index s
  | .updateApplyComplete bad written => Sys2Proof.Machine.execUpdateApplyComplete bad written s
  | .updateAbort index => Sys2Proof.Machine.execUpdateAbort index s
  | .updateActivate index beat => Sys2Proof.Machine.execUpdateActivate index beat s
  | .updateConfirm index blown => Sys2Proof.Machine.execUpdateConfirm index blown s
  | .updateRevert index ticks => Sys2Proof.Machine.execUpdateRevert index ticks s
  | .pairUpdateTimeout => Sys2Proof.Machine.execPairUpdateTimeout s
  | .bootRecovery iface comp ticks => Sys2Proof.Machine.execBootRecovery iface comp ticks s
  | .rcvCheck via => Sys2Proof.Machine.execRcvCheck via s
  | .rcvWrite via => Sys2Proof.Machine.execRcvWrite via s
  | .rcvSetActive via => Sys2Proof.Machine.execRcvSetActive via s
  | .rcvReprovision via => Sys2Proof.Machine.execRcvReprovision via s
  | .rcvExit via ticks => Sys2Proof.Machine.execRcvExit via ticks s
  | .rcvOpComplete bad => Sys2Proof.Machine.execRcvOpComplete bad s
  | .recoveryIdleTimeout ticks => Sys2Proof.Machine.execRecoveryIdleTimeout ticks s
  | .bootCfgHashReq iface => Sys2Proof.Machine.execBootCfgHashReq iface s
  | .imageOpen index slot nodeClass blockSize length version sha => Sys2Proof.Machine.execImageOpen index slot nodeClass blockSize length version sha s
  | .imagePut index slot offset bytes crc => Sys2Proof.Machine.execImagePut index slot offset bytes crc s
  | .imageClose index slot => Sys2Proof.Machine.execImageClose index slot s
  | .imageDelete index slot => Sys2Proof.Machine.execImageDelete index slot s
  | .campaignCreate index slot flags p => Sys2Proof.Machine.execCampaignCreate index slot flags p s
  | .campaignTarget index number add nodes => Sys2Proof.Machine.execCampaignTarget index number add nodes s
  | .campaignStart index number => Sys2Proof.Machine.execCampaignStart index number s
  | .campaignPause index number => Sys2Proof.Machine.execCampaignPause index number s
  | .campaignResume index number => Sys2Proof.Machine.execCampaignResume index number s
  | .campaignCancel index number => Sys2Proof.Machine.execCampaignCancel index number s
  | .campaignQuery index => Sys2Proof.Machine.execCampaignQuery index s
  | .campaignClear index number => Sys2Proof.Machine.execCampaignClear index number s
  | .enrolRetryExpiry record node => Sys2Proof.Machine.execEnrolRetryExpiry record node s
  | .campaignReport => Sys2Proof.Machine.execCampaignReport s
  | .repairPass record => Sys2Proof.Machine.execRepairPass record s
  | .campaignDeadline record => Sys2Proof.Machine.execCampaignDeadline record s
  | .campaignProgressExpiry record => Sys2Proof.Machine.execCampaignProgressExpiry record s
  | .spiRead addr dwords corrected bad => Sys2Proof.Machine.execSpiRead addr dwords corrected bad s
  | .spiWrite addr bytes m => Sys2Proof.Machine.execSpiWrite addr bytes m s
  | .spiStatus => Sys2Proof.Machine.execSpiStatus s
  | .spiId => Sys2Proof.Machine.execSpiId s
  | .registerWrite addr dwords m => Sys2Proof.Machine.execRegisterWrite addr dwords m s
  | .guardArm iface guard value => Sys2Proof.Machine.execGuardArm iface guard value s
  | .guardTimeout guard => Sys2Proof.Machine.execGuardTimeout guard s
  | .guardInterrupt iface guard part => Sys2Proof.Machine.execGuardInterrupt iface guard part s
  | .cmdDoorbell iface value => Sys2Proof.Machine.execCmdDoorbell iface value s
  | .cplConsume iface value => Sys2Proof.Machine.execCplConsume iface value s
  | .evtRingConsume iface ring value => Sys2Proof.Machine.execEvtRingConsume iface ring value s
  | .hifJrnReq iface => Sys2Proof.Machine.execHifJrnReq iface s
  | .nop index => Sys2Proof.Machine.execNop index s
  | .nodeCmd index pick => Sys2Proof.Machine.execNodeCmd index pick s
  | .nodeForget index => Sys2Proof.Machine.execNodeForget index s
  | .joinControl index => Sys2Proof.Machine.execJoinControl index s
  | .timeOfDay index => Sys2Proof.Machine.execTimeOfDay index s
  | .selftestRun index failed => Sys2Proof.Machine.execSelftestRun index failed s
  | .eventBridleWindowEnd index => Sys2Proof.Machine.execEventBridleWindowEnd index s
  | .msixModerationExpiry vector => Sys2Proof.Machine.execMsixModerationExpiry vector s
  | .gtTimerExpiry gt => Sys2Proof.Machine.execGtTimerExpiry gt s
  | .linkFrameCrcFail => Sys2Proof.Machine.execLinkFrameCrcFail s
  | .suppliesApplied vbatNew => Sys2Proof.Machine.execSuppliesApplied vbatNew s
  | .switchoverAliveClaim => Sys2Proof.Machine.execSwitchoverAliveClaim s
  | .bar2Read offset len corrected bad => Sys2Proof.Machine.execBar2Read offset len corrected bad s

end Sys2Proof.Machine
end

