-- ==== Sys2Proof/Machine/Balls.lean ====
section
/-!
DEFINITION. Machine/Balls.lean: the levels of the output balls (R637-R643), read off the state of the functions that own
them. A ball the device leaves undriven answers none. Before the configuration load every register and unit below is at
its idle value, so the drivers stay low (R638, R639).
-/

namespace Sys2Proof.Machine

open Sys2Proof Sys2Proof.Reg

/-- PAx_ENn: active while the chain's PA is on, with the port's polarity (R131, R153). -/
def State.paEnBall (s : State) (c : Chain) : Bool := (s.tx c).paEn != s.bit (RFx_FE_CTL_PA_EN_LOW c.port)

/-- PAx_MODEn[1:0]: the class code from X to PA_EN inactive, 0b00 outside a sequence (R130, R131). -/
def State.paModeBall (s : State) (c : Chain) : Nat := (s.tx c).paMode

/-- TRx_SEL: the T/R switch, with its polarity (R131, R153). -/
def State.trsSelBall (s : State) (p : RfPort) : Bool := s.bit (RFx_STATUS_TRS_TX p) != s.bit (RFx_FE_CTL_TRS_TX_LOW p)

/-- LNAx_BYP: the bypass, with its polarity (R131, R136, R153). -/
def State.lnaBypBall (s : State) (p : RfPort) : Bool := s.bit (RFx_STATUS_LNA_BYP p) != s.bit (RFx_FE_CTL_BYP_LOW p)

/-- CXx_REQ (R139, R140). -/
def State.cxReqBall (s : State) (p : RfPort) : Bool := s.bit (RFx_STATUS_CX_REQ p)

/-- CXx_PRI (R139); Port W's shares its ball with TSI3, and is undriven where it does not own it (R643). -/
def State.cxPriBall (s : State) : RfPort → Option Bool
  | .s => some s.u.rf.s.cxPri
  | .w => if s.u.boot.priOwned then some s.u.rf.w.cxPri else none

/-- FC_OUTg: high while asserted, low otherwise, the other way round with POL (active low); undriven where the group is not enabled, its ball is the
GPIO function's, or the mode leaves the pins alone (R314, R315, R643). -/
def State.fcOutBall (s : State) (g : Fin 8) : Option Bool :=
  if (s.mode.runs || decide (s.mode = .hold)) && Nat.testBit (s.fld ENV_FC_CTL_EN) g.val &&
      (Nat.blt g.val 4 || s.u.boot.gpio.getD (4 + g.val) 0 == 0) then
    some (Nat.testBit (s.fld ENV_FC_STATE_ASSERTED) g.val != Nat.testBit (s.fld ENV_FC_CTL_POL) g.val)
  else none

/-- PPS_OUT (R429). -/
def State.ppsOutBall (s : State) : Bool := s.u.tk.pps

/-- BEAT_OUT, on the ball of GPIO[15] where its code is NONE (R430, R643). -/
def State.beatOutBall (s : State) : Option Bool :=
  if s.bit TK_BEAT_CFG_EN && s.u.boot.gpio.getD 15 0 == 0 then some s.u.tk.beatOut else none

/-- HEALTH_OK (R476). -/
def State.healthOkBall (s : State) : Bool := s.u.pair.healthOk

/-- PAIR_ALIVE is open drain: pulled low while the unit drives it, released otherwise (R475). -/
def State.pairAliveBall (s : State) : Option Bool := if s.bit PAIR_STATUS_ALIVE_DRV then some false else none

/-- REFCLK_EN: active in every mode but DRIFT, and there while a sample-compare cycle runs (R530, R641). -/
def State.refclkEn (s : State) : Bool := !decide (s.mode = .drift) || s.u.pwr.cycle

/-- GPIO[n] driven by a function of its own (R516, R641): ENG_VID and REFCLK_EN. The inputs, the outputs of Spool firmware
under POLICY, the general timers' and the shared balls answer none here. -/
def State.gpioBall (s : State) (n : Fin 16) : Option Bool :=
  let code := s.u.boot.gpio.getD n.val 0
  if code = 0x10 then some (Nat.testBit s.u.pwr.vid 0)
  else if code = 0x11 then some (Nat.testBit s.u.pwr.vid 1)
  else if code = 0x12 then some s.refclkEn
  else none

end Sys2Proof.Machine
end

