-- ==== Sys2Proof/Safety.lean ====
section
/-!
DEFINITION. Safety.lean: what every run keeps, in the terms the statements use.
-/

namespace Sys2Proof.Machine

open Sys2Proof Sys2Proof.Reg

/-- The canonical form of memory: addresses strictly rising, no listed byte equal to what an unlisted one reads as. -/
abbrev Memory.wf (m : List Host.Cell) : Prop := Store.Canonical (α := Byte) 0 m

/-- The canonical form of the registers. -/
abbrev Registers.wf (m : Store Word) : Prop := Store.Canonical (0 : Word) m

/-- The form every step keeps. -/
structure State.Inv (s : State) : Prop where
  mem : Memory.wf s.mem
  regs : Registers.wf s.regs

/-- The command answers a next state, and it is so. -/
def Completes (c : Instr) (s : State) (P : State → Prop) : Prop := ∃ t, exec c s = .next t ∧ P t

/-- Command c of the ring has completed: it is no longer outstanding, and the completion ring has one entry more. -/
def Finished (c : HostCmd) (s t : State) : Prop :=
  t.u.hif.cmds = s.u.hif.cmds.filter (fun d => !(d.index == c.index && d.seq == c.seq)) ∧
  t.fld ⟨HIF_CPL_PROD, 0, 12⟩ = (s.fld ⟨HIF_CPL_PROD, 0, 12⟩ + 1) % 4096

/-- The address of the completion written next (R613). -/
def State.cplAddr (s : State) : Nat := (s.reg HIF_CPL_BASE).toNat + 32 * s.fld ⟨HIF_CPL_PROD, 0, 12⟩

/-- A 32-bit counter that saturates, one on. -/
def satNext (w : Word) : Word := BitVec.ofNat 32 (min (w.toNat + 1) 0xFFFFFFFF)

/-! ### Frames: what a command leaves as it was -/

/-- A register of a list of spans, each a base offset and a number of registers. -/
def inSpans (l : List (Nat × Nat)) (a : Nat) : Bool := l.any fun p => Nat.ble p.1 a && Nat.blt a (p.1 + 4 * p.2)

/-- The registers that show the events raised (R626–R636). -/
def eventRegs : List (Nat × Nat) :=
  [(EVT_STATUS, 1), (EVT_RINGr_PROD 0, 4), (EVT_LOSTr 0, 4), (EVT_RAISED, 1), (EVT_COALESCED, 1),
   (EVT_BRIDLE_EARLY, 1), (EVT_MSIX_SENT, 1), ((MSIX_PENDING 0).reg, 4)]

/-- The registers that log a refused host access (R605). -/
def accessRegs : List (Nat × Nat) := [(HIF_ACCERR, 1), (HIF_ACCERR_ADDR, 1), (HIF_ACCERR_CNT, 1)]

/-- The result words of the guard blocks (R609). -/
def guardRegs : List (Nat × Nat) :=
  [TK_REARM, PWR_MODE_FORCE, PWR_RESET, SEC_ZEROISE, SEC_TAMPER_CLR, FUSE_PROG, FUSE_ADVANCE, PAIR_ROLE_OVR,
   BOOT_RECOVERY].map fun x => (x + 8, 1)

/-- The registers a completion of the command ring writes (R614, R619). -/
def ringRegs : List (Nat × Nat) := [(HIF_CPL_PROD, 1), (HIF_STATUS, 1), (HIF_CMD_LATE, 1)]

/-- Whether an address lies in a span of the Envelope, which wraps at its end. -/
def inArea (base len a : Nat) : Bool := Nat.blt ((a + 2 ^ 32 - base % 2 ^ 32) % 2 ^ 32) len

/-- Whether an address lies in the four event rings (R626). -/
def State.inEventRings (s : State) (a : Nat) : Bool :=
  (List.range 4).any fun r => inArea (s.reg (EVT_RINGr_BASE r)).toNat 0x40000 a

/-- Whether an address lies in the journal, the completion ring or its result blocks (R611, R613, R623). -/
def State.inHostRings (s : State) (a : Nat) : Bool :=
  inArea (s.reg HIF_JRN_BASE).toNat 0x400000 a || inArea (s.reg HIF_CPL_BASE).toNat 0x20000 a ||
  inArea ((s.reg HIF_CMD_BASE).toNat + 0x60000) 0x40000 a

/-- Every register outside the spans reads as before, and no byte of memory changes. -/
def KeepsQuiet (l : List (Nat × Nat)) (s t : State) : Prop :=
  (∀ a, inSpans l a = false → t.reg a = s.reg a) ∧ t.mem = s.mem

/-- Every register outside the spans and those of the events reads as before, and every byte outside the event rings. -/
def KeepsEvents (l : List (Nat × Nat)) (s t : State) : Prop :=
  (∀ a, inSpans (l ++ eventRegs) a = false → t.reg a = s.reg a) ∧
  ∀ a, s.inEventRings a = false → t.byte a = s.byte a

/-- Every register outside the spans and those of the events reads as before. -/
def KeepsRegs (l : List (Nat × Nat)) (s t : State) : Prop :=
  ∀ a, inSpans (l ++ eventRegs) a = false → t.reg a = s.reg a

/-- Every register outside the spans, those of the events and those of the command ring reads as before, and every byte
outside the rings and the journal. -/
def KeepsRing (l : List (Nat × Nat)) (s t : State) : Prop :=
  (∀ a, inSpans (l ++ ringRegs ++ eventRegs) a = false → t.reg a = s.reg a) ∧
  ∀ a, s.inEventRings a = false → s.inHostRings a = false → t.byte a = s.byte a

end Sys2Proof.Machine
end

