-- ==== Sys2Proof/Certificates/Slice0/Obligations.lean ====
section
/-!
DEFINITION. Certificates/Slice0/Obligations.lean: the statements for the provers. `Completes c s P` says that command c
in state s answers a next state t with P t.
-/

open Sys2Proof Sys2Proof.Machine Sys2Proof.Reg

/-- What the supplies and the reset balls do. Applied supplies put the device in COLD under its power-on reset; a
lost rail drops it to COLD with the Envelope gone; the end of the power-on reset and RESET_n released start the
boot ROM at step 1 in mode ROM with flash, fuses and Envelope as they were; RESET_n asserted stops the
sequencer; PERST_n resets the PCIe endpoint. -/
def Obligations.SuppliesAndResets : Prop :=
  (∀ (s : State) (vbatNew : Bool),
      s.u.pins.supplies = false →
      Completes (.suppliesApplied vbatNew) s fun t =>
        t.u.pins.supplies = true ∧ t.u.pins.vbat = true ∧ t.u.pins.porHeld = true ∧ (vbatNew = true → t.u.tk.aonS = 0)) ∧
  (∀ (s : State) (vbat : VbatLevel) (ticks : BitVec 40),
      Completes (.supplyLoss false vbat ticks) s fun t =>
        t.mode = .cold ∧ t.u.pins.supplies = false ∧ t.u.pins.porHeld = true ∧ t.mem = []) ∧
  (∀ (s : State) (straps : Straps) (ticks : BitVec 40),
      s.mode = .cold →
      s.u.pins.supplies = true →
      s.u.pins.vbat = true →
      s.u.pins.porHeld = true →
      s.u.pins.resetN = true →
      Completes (.powerOnResetRelease straps ticks) s fun t =>
        t.mode = .rom ∧ t.u.pins.porHeld = false ∧ t.fld BOOT_STATUS_STAGE = 1 ∧ t.u.boot.running = true ∧
        t.u.boot.flash = s.u.boot.flash ∧ t.u.fuse.rows = s.u.fuse.rows ∧ t.mem = s.mem) ∧
  (∀ (s : State),
      s.u.pins.resetN = true →
      s.mode ≠ .cold →
      s.mode ≠ .drift →
      Completes .resetNAssert s fun t =>
        t.u.pins.resetN = false ∧ t.bit BT_STATUS_RUNNING = false ∧ t.u.accel.ops = [] ∧ t.bit PAIR_STATUS_ALIVE_DRV = false) ∧
  (∀ (s : State) (straps : Straps) (ticks : BitVec 40),
      s.u.pins.resetN = false →
      s.mode ≠ .cold →
      Completes (.resetNRelease straps ticks) s fun t =>
        t.mode = .rom ∧ t.u.pins.resetN = true ∧ t.fld BOOT_STATUS_STAGE = 1 ∧ t.u.boot.running = true ∧
        t.u.boot.flash = s.u.boot.flash ∧ t.u.fuse.rows = s.u.fuse.rows ∧ t.mem = s.mem) ∧
  (∀ (s : State) (high : Bool),
      Completes (.perstNEdge high) s fun t =>
        t.u.pins.perstN = high ∧ (high = false → t.u.hif.unmasked = [] ∧ t.bit HIF_STATUS_PCIE_UP = false)) ∧
  (∀ (s : State) (l : PcieLink),
      s.u.pins.perstN = true →
      s.u.pins.resetN = true →
      s.mode = .solo →
      4 ≤ s.fld BOOT_STATUS_STAGE →
      Completes (.pcieLinkChange (some l)) s fun t =>
        t.bit HIF_STATUS_PCIE_UP = true ∧ t.bit HIF_STATUS_MSIX_EN = l.msixEn ∧ t.u.hif.funcMask = l.funcMask)

/-- Copies of triplicated logic, and engines that fault and return. A copy that disagrees waits for its reload and
the reload is counted; a corrected SRAM error is counted and one that is not takes the engine out for two
boundaries; a restored engine, and the engines gated in DOZE, are back. -/
def Obligations.TriplicatedLogicAndEngines : Prop :=
  (∀ (s : State) (part : TmrUnit),
      s.mode ≠ .cold →
      Completes (.tmrCopyUpset part true) s fun t =>
        t.u.bt.split = some part ∧ (part = .sequencer → t.bit BT_STATUS_TMR_SPLIT = true)) ∧
  (∀ (s : State) (part : TmrUnit),
      s.u.bt.split = some part →
      Completes .tmrCopyReload s fun t =>
        t.u.bt.split = none ∧ (part = .sequencer → t.reg BT_TMR_FIX = satNext (s.reg BT_TMR_FIX)) ∧
        (part ≠ .sequencer → t.reg PAIR_TMR_FIX = satNext (s.reg PAIR_TMR_FIX))) ∧
  (∀ (s : State) (pe : Fin 16),
      (s.modeLevel s.mode).isSome = true →
      (s.engine pe).gated = false →
      Completes (.engineSramError pe false) s fun t =>
        t.reg BT_SRAM_CORR = satNext (s.reg BT_SRAM_CORR)) ∧
  (∀ (s : State) (pe : Fin 16),
      (s.engine pe).restoreIn = some 0 →
      Completes (.engineRestored pe) s fun t =>
        (t.engine pe).restoreIn = none) ∧
  (∀ (s : State),
      s.u.bt.dozeReturn = some 0 →
      Completes .dozeEnginesReturn s fun t =>
        t.u.bt.dozeReturn = none ∧ ∀ n ∈ List.range 16, (t.engine n).gated = false)

/-- Where a beat begins and which window it opens. The first beat after a start begins at the next whole
millisecond, every later one is one on; the plan window closes into the work window, the bind line passes, and
the commit window opens. -/
def Obligations.BeatBoundaries : Prop :=
  (∀ (s : State) (sample : BitVec 64),
      s.bit BT_STATUS_RUNNING = true →
      s.fld BT_STATUS_WINDOW = 0 →
      s.bit BT_STATUS_GAP = false →
      s.u.boot.activateAt = none →
      Completes (.sequencerStart sample) s fun t =>
        t.u.bt.beat = s.nextBeatNo ∧ t.u.bt.used = some s.nextBeatNo ∧ t.u.bt.sample = sample.toNat) ∧
  (∀ (s : State) (sample : BitVec 64) (used : List (BitVec 21)) (unfinished : List (Fin 16)) (ticks : BitVec 40),
      s.bit BT_STATUS_RUNNING = true →
      s.fld BT_STATUS_WINDOW = 3 →
      s.bit BT_STATUS_GAP = false →
      s.u.pwr.driftEntry ≠ 2 →
      s.u.tk.step = none →
      s.u.boot.activateAt = none →
      Completes (.beatBoundary sample used unfinished ticks) s fun t =>
        t.u.bt.beat = s.u.bt.beat + 1 ∧ t.u.bt.used = some (s.u.bt.beat + 1) ∧ t.u.bt.sample = sample.toNat) ∧
  (∀ (s : State),
      s.bit BT_STATUS_RUNNING = true →
      s.fld BT_STATUS_WINDOW = 1 →
      Completes .planWindowClose s fun t =>
        t.fld BT_STATUS_WINDOW = 2 ∧ ∀ c ∈ t.u.sch.cands, c < 256) ∧
  (∀ (s : State),
      s.bit BT_STATUS_RUNNING = true →
      s.fld BT_STATUS_WINDOW = 2 →
      Completes .bindLine s fun t =>
        t.bit BT_STATUS_PAST_BIND = true ∧ t.bindBeat = s.u.bt.beat + 1) ∧
  (∀ (s : State) (unfinished : List (Fin 16)) (cls : Fin 4) (upsets : List (BitVec 24)) (torn : List (Fin 1024)) (entries : List (Fin 4 × BitVec 18 × EccFault)),
      s.bit BT_STATUS_RUNNING = true →
      s.fld BT_STATUS_WINDOW = 2 →
      Completes (.commitWindowOpen unfinished cls upsets torn entries) s fun t =>
        t.fld BT_STATUS_WINDOW = 3 ∧ t.bit BT_STATUS_PAST_BIND = true)

/-- A power request of a host stands in the pending slot. A permitted request for a level, DOZE, SERVE or DRIFT
while the sequencer runs takes the pending slot, whatever stood there; one that stood there is counted as
superseded. -/
def Obligations.PowerRequests : Prop :=
  (∀ (s : State) (iface : HostIface) (level : Fin 4),
      s.reaches iface = true →
      s.permits PWR_REQ = true →
      s.bit BT_STATUS_RUNNING = true →
      Completes (.pwrReqLevel iface level) s fun t =>
        t.u.pwr.slot = some ⟨.level level, .host⟩ ∧
        (s.u.pwr.slot.isSome → t.reg PWR_SUPERSEDED = satNext (s.reg PWR_SUPERSEDED))) ∧
  (∀ (s : State) (iface : HostIface),
      s.reaches iface = true →
      s.permits PWR_REQ = true →
      s.bit BT_STATUS_RUNNING = true →
      Completes (.pwrReqDoze iface) s fun t =>
        t.u.pwr.slot = some ⟨.doze, .host⟩ ∧
        (s.u.pwr.slot.isSome → t.reg PWR_SUPERSEDED = satNext (s.reg PWR_SUPERSEDED))) ∧
  (∀ (s : State) (iface : HostIface),
      s.reaches iface = true →
      s.permits PWR_REQ = true →
      s.bit BT_STATUS_RUNNING = true →
      Completes (.pwrReqServe iface) s fun t =>
        t.u.pwr.slot = some ⟨.serve, .host⟩ ∧
        (s.u.pwr.slot.isSome → t.reg PWR_SUPERSEDED = satNext (s.reg PWR_SUPERSEDED))) ∧
  (∀ (s : State) (iface : HostIface),
      s.reaches iface = true →
      s.permits PWR_REQ = true →
      s.bit BT_STATUS_RUNNING = true →
      Completes (.pwrReqDrift iface) s fun t =>
        t.u.pwr.slot = some ⟨.drift, .host⟩ ∧
        (s.u.pwr.slot.isSome → t.reg PWR_SUPERSEDED = satNext (s.reg PWR_SUPERSEDED)))

/-- Temperature, mains, level changes and forced transitions. A junction at the cap marks the part capped; the mains
ball starts its filter and the filtered level shows in PWR_STATUS; a change settles, fails back to the old level
or ends at its new level; the guarded writes force HOLD, end DOZE at the next boundary, or reset the device into
ROM. -/
def Obligations.PowerTransitions : Prop :=
  (∀ (s : State) (quarters : BitVec 16),
      s.u.pwr.capped = false →
      (s.fld PWR_THERM_CAP_C : Int) * 4 ≤ quarters.toInt →
      Completes (.thermalReading quarters) s fun t =>
        t.u.pwr.capped = true ∧ t.bit PWR_STATUS_CAPPED = true ∧ t.u.pair.temp = quarters.toInt) ∧
  (∀ (s : State) (high : Bool),
      Completes (.mainsSenseEdge high) s fun t =>
        t.u.pins.mainsRaw = high) ∧
  (∀ (s : State) (ticks : BitVec 40),
      s.u.pins.mainsRaw ≠ s.bit PWR_STATUS_MAINS →
      s.mode ≠ .cold →
      s.mode ≠ .drift →
      Completes (.mainsFiltered ticks) s fun t =>
        t.bit PWR_STATUS_MAINS = s.u.pins.mainsRaw) ∧
  (∀ (s : State),
      s.u.pwr.lossWait = true →
      s.bit PWR_STATUS_MAINS = false →
      s.fld PWR_MAINS_ON_LOSS = 3 →
      s.bit BT_STATUS_RUNNING = true →
      Completes .lossDriftExpiry s fun t =>
        t.u.pwr.slot = some ⟨.drift, .mains⟩ ∧ t.u.pwr.lossWait = false) ∧
  (∀ (s : State) (c : LevelChange),
      s.u.pwr.change = some c →
      c.failed = false →
      Completes .vddEngSettled s fun t =>
        t.u.pwr.change = some { c with settled := true }) ∧
  (∀ (s : State) (c : LevelChange),
      s.u.pwr.change = some c →
      c.failed = false →
      c.settled = false →
      s.bit PWR_VID_VID_EN = true →
      Completes .vsettleTimeout s fun t =>
        t.u.pwr.change = some ⟨c.old, c.new, c.src, true, false⟩ ∧ t.u.pwr.vid = c.old ∧ t.reg PWR_LEVEL_FAIL = satNext (s.reg PWR_LEVEL_FAIL)) ∧
  (∀ (s : State) (c : LevelChange),
      s.u.pwr.change = some c →
      c.failed = false →
      c.settled = true →
      c.new < 4 →
      Completes .levelChangeDone s fun t =>
        t.u.pwr.change = none ∧ t.fld PWR_STATUS_LEVEL = c.new ∧ t.reg PWR_LEVEL_CHANGES = s.reg PWR_LEVEL_CHANGES + 1) ∧
  (∀ (s : State) (iface : HostIface),
      s.reaches iface = true →
      s.permits PWR_MODE_FORCE = true →
      s.armed PWR_MODE_FORCE = some 0x5A5A000B →
      s.mode = .solo →
      Completes (.forceHold iface (~~~0x5A5A000B)) s fun t =>
        t.mode = .hold ∧ t.u.sec.slots = [] ∧ t.bit SEC_TAMPER_STAT_LATCHED = true) ∧
  (∀ (s : State) (iface : HostIface),
      s.reaches iface = true →
      s.permits PWR_MODE_FORCE = true →
      s.armed PWR_MODE_FORCE = some 0x5A5A0004 →
      s.mode = .doze →
      Completes (.forceDozeExit iface (~~~0x5A5A0004)) s fun t =>
        t.u.pwr.exitForced = true ∧ t.u.pwr.mainsHoldoff = true ∧ t.mode = .doze) ∧
  (∀ (s : State) (iface : HostIface) (ticks : BitVec 40),
      s.reaches iface = true →
      s.permits PWR_RESET = true →
      s.armed PWR_RESET = some 0x5A5A0020 →
      s.mode ≠ .rom →
      Completes (.pwrReset iface (~~~0x5A5A0020) ticks) s fun t =>
        t.mode = .rom ∧ t.u.boot.running = true ∧ t.u.boot.flash = s.u.boot.flash)

/-- What the power controller does in DRIFT. Entry into DRIFT ends with every domain but AON off; a sample-compare
cycle runs where SNIFF or TEMP is enabled; an enabled wake condition met in DRIFT starts the boot ROM and is
recorded with its source. -/
def Obligations.DriftSampling : Prop :=
  (∀ (s : State) (ticks : BitVec 40),
      s.u.pwr.driftEntry = 3 →
      s.u.pwr.latch = none →
      s.mode = .solo →
      Completes (.driftEntryComplete ticks) s fun t =>
        t.mode = .drift ∧ t.u.sec.slots = [] ∧ t.u.bt = Bt.reset ∧ (s.bit PWR_DRIFT_CFG_RETAIN = false → t.mem = [] ∧ t.u.drift.saved = none) ∧
        (s.bit PWR_DRIFT_CFG_RETAIN = true → t.u.drift.saved.isSome)) ∧
  (∀ (s : State),
      s.mode = .drift →
      s.u.pwr.cycle = false →
      (Act.wakeOn s 3 || Act.wakeOn s 5) = true →
      s.gtOwned (s.fld PWR_DRIFT_CFG_SNIFF_GT) 3 = true →
      Completes .sniffCycleStart s fun t =>
        t.u.pwr.cycle = true) ∧
  (∀ (s : State) (quarters : BitVec 16) (ticks : BitVec 40),
      s.u.pwr.cycle = true →
      s.mode = .drift →
      Act.wakeOn s 5 = true →
      (s.fld PWR_DRIFT_LIMIT_THI : Int) < quarters.toInt / 4 + 64 →
      Completes (.samplingIslandOn quarters ticks) s fun t =>
        t.mode = .rom ∧ t.fld PWR_WAKE_SRC_SOURCE = 5) ∧
  (∀ (s : State) (peak : BitVec 16) (ticks : BitVec 40),
      s.u.pwr.cycle = true →
      s.bit PWR_DRIFT_SNIFF_ENERGY = false →
      Completes (.sniffCycleEnd peak false ticks) s fun t =>
        t.u.pwr.cycle = false ∧ t.u.pwr.hits = 0 ∧ t.reg PWR_DRIFT_SAMPLES = s.reg PWR_DRIFT_SAMPLES + 1) ∧
  (∀ (s : State) (ticks : BitVec 40),
      s.mode = .drift →
      0 < s.fld PWR_DRIFT_LIMIT_MAX_DRIFT_S →
      s.gtOwned (s.fld PWR_DRIFT_CFG_LIMIT_GT) 4 = true →
      Act.wakeOn s 4 = true →
      Completes (.driftTimerExpiry ticks) s fun t =>
        t.mode = .rom ∧ t.fld PWR_WAKE_SRC_SOURCE = 4) ∧
  (∀ (s : State) (source : Fin 7) (gpio : BitVec 16) (ticks : BitVec 40),
      s.mode = .drift →
      source ≠ 2 →
      Act.wakeOn s source = true →
      Completes (.driftWakeCondition source gpio ticks) s fun t =>
        t.mode = .rom ∧ t.fld PWR_WAKE_SRC_SOURCE = source.val ∧ t.reg PWR_WAKES = s.reg PWR_WAKES + 1)

/-- How the ROM flow, commissioning and a trial end. The ROM flow ends in RECOVERY, HOLD or a mode past ROM;
migration done leaves for SOLO at the next boundary or waits for COMMISSION_DONE, one that took too long ends in
RECOVERY; the wait ends on its timer or on its command; a trial that served well is confirmed; a guarded write
resets into RECOVERY. -/
def Obligations.StartUp : Prop :=
  (∀ (s : State) (flashOk : Bool) (epochOk : Bool) (ms : BitVec 32),
      s.mode = .rom →
      s.u.boot.running = true →
      s.bit SEC_TAMPER_STAT_LATCHED = false →
      s.lifecycle = 1 ∨ s.lifecycle = 2 →
      s.u.pins.rcvrLow = true →
      Completes (.bootDone flashOk epochOk ms) s fun t =>
        t.mode = .recovery ∧ t.u.boot.running = false) ∧
  (∀ (s : State) (bad : List (BitVec 20)),
      s.mode = .commission →
      s.u.boot.migrating = true →
      s.bit BOOT_CONFIRM_COMMISSION_WAIT = false →
      s.bit GEN_MODE_PAIR_CFG = false →
      s.bit BOOT_STATUS_MIGRATING = false →
      Completes (.migrationDone bad true) s fun t =>
        t.u.pwr.staged = some (.solo, 8) ∧ t.bsr.commissioned = true ∧ t.u.boot.migrating = false) ∧
  (∀ (s : State) (written : Bool),
      s.mode = .commission →
      s.u.boot.migrating = true →
      Completes (.migrationTimeout written) s fun t =>
        t.mode = .recovery) ∧
  (∀ (s : State),
      s.u.boot.commissionWait = true →
      s.bit GEN_MODE_PAIR_CFG = false →
      Completes .commissionWaitExpiry s fun t =>
        t.u.pwr.staged = some (.solo, 8) ∧ t.u.boot.commissionWait = false) ∧
  (∀ (s : State) (index : Fin 4096) (c : HostCmd),
      s.cmdAt index (fun o => o == 0x0308) = some c →
      c.mirrored = false →
      s.u.boot.commissionWait = true →
      s.bit GEN_MODE_PAIR_CFG = false →
      Completes (.commissionDone index) s fun t =>
        t.u.pwr.staged = some (.solo, 8) ∧ t.u.boot.commissionWait = false ∧ Finished c s t) ∧
  (∀ (s : State) (blown : BitVec 256),
      s.onTrial = true →
      s.mode = .solo →
      s.fld BOOT_CONFIRM_CONFIRM_S ≠ 0 →
      s.fld PAIR_HEALTH_CFG_OK_MIN ≤ s.score →
      Completes (.confirmTimerExpiry blown) s fun t =>
        t.u.boot.trial = (false, false) ∧ t.bit BOOT_STATUS_TRIAL = false) ∧
  (∀ (s : State) (iface : HostIface) (ticks : BitVec 40),
      s.reaches iface = true →
      s.permits BOOT_RECOVERY = true →
      s.armed BOOT_RECOVERY = some 0x5A5A0030 →
      s.mode ≠ .rom →
      Completes (.bootRecovery iface (~~~0x5A5A0030) ticks) s fun t =>
        t.mode = .rom ∧ t.u.boot.requestRecovery = true ∧ t.u.boot.running = true) ∧
  (∀ (s : State) (iface : HostIface),
      s.reaches iface = true →
      s.permits BOOT_CFG_HASH_REQ = true →
      Completes (.bootCfgHashReq iface) s fun t =>
        t.reg BOOT_CFG_HASH_REQ = 0x80000000 ∧ t.reg (BOOT_CFG_HASHx 0) = BitVec.ofNat 32 s.u.boot.cfgHash)

/-- An update session from its opening to its end. UPDATE_BEGIN opens a session that receives; a checked block marks
its units; UPDATE_END applies; what is applied is named as a trial or the session receives again; UPDATE_ABORT
closes it, and ACTIVATE, CONFIRM and REVERT schedule the restart, confirm the trial and restart without it. Each
command completes. -/
def Obligations.UpdateSessions : Prop :=
  (∀ (s : State) (index : Fin 4096) (c : HostCmd) (kind : UpdateKind) (length : BitVec 32) (tries : Fin 3) (sha : BitVec 256),
      s.cmdAt index (fun o => o == 0x0301) = some c →
      c.mirrored = false →
      s.u.boot.session = none →
      s.bsr.fwTrial = none →
      s.bsr.cfgTrial = none →
      length.toNat ≤ s.transfer →
      s.mode = .solo →
      Completes (.updateBegin index kind length tries sha) s fun t =>
        t.u.boot.session = some ⟨kind.code, length.toNat, tries.val + 1, sha.toNat, [], 1⟩ ∧ t.fld BOOT_UPD_STAT_SESSION = 1 ∧ Finished c s t) ∧
  (∀ (s : State) (index : Fin 4096) (c : HostCmd) (offset : BitVec 32) (bytes : BitVec 32) (crc : BitVec 32) (x : Session),
      s.cmdAt index (fun o => o == 0x0302) = some c →
      c.mirrored = false →
      s.u.boot.session = some x →
      x.state = 1 →
      blockInRange x.length offset.toNat bytes.toNat = true →
      crc32 (s.bytes s.stagingBase (min bytes.toNat 65536)) = crc →
      Completes (.updateBlock index offset bytes crc) s fun t =>
        t.u.boot.session = some { x with units := x.units ++ (blockUnits offset.toNat bytes.toNat).filter fun k => !x.units.contains k } ∧
        t.reg BOOT_UPD_BLOCKS = s.reg BOOT_UPD_BLOCKS + 1 ∧ Finished c s t) ∧
  (∀ (s : State) (index : Fin 4096) (c : HostCmd) (x : Session),
      s.cmdAt index (fun o => o == 0x0303) = some c →
      c.mirrored = false →
      s.u.boot.session = some x →
      x.state = 1 →
      Completes (.updateEnd index) s fun t =>
        t.u.boot.session = some { x with state := 2 } ∧ t.bit BOOT_STATUS_UPDATE_BUSY = true ∧ Finished c s t) ∧
  (∀ (s : State) (bad : Option (List Byte)) (written : Bool) (x : Session),
      s.u.boot.session = some x →
      x.state = 2 →
      Completes (.updateApplyComplete bad written) s fun t =>
        t.bit BOOT_STATUS_UPDATE_BUSY = false ∧ t.u.boot.session = some { x with state := match s.updateResult x, bad, written with
          | .ok _, none, true => 3
          | _, _, _ => 1 }) ∧
  (∀ (s : State) (index : Fin 4096) (c : HostCmd) (x : Session),
      s.cmdAt index (fun o => o == 0x0304) = some c →
      c.mirrored = false →
      s.u.boot.session = some x →
      x.state ≠ 2 →
      Completes (.updateAbort index) s fun t =>
        t.u.boot.session = none ∧ Finished c s t) ∧
  (∀ (s : State) (index : Fin 4096) (c : HostCmd) (beat : BitVec 32),
      s.cmdAt index (fun o => o == 0x0305) = some c →
      c.mirrored = false →
      Completes (.updateActivate index beat) s fun t =>
        t.u.boot.activateAt = some (s.activateBeat beat.toNat) ∧ Finished c s t) ∧
  (∀ (s : State) (index : Fin 4096) (c : HostCmd) (blown : BitVec 256),
      s.cmdAt index (fun o => o == 0x0306) = some c →
      c.mirrored = false →
      s.onTrial = true →
      Completes (.updateConfirm index blown) s fun t =>
        t.u.boot.trial = (false, false) ∧ t.bit BOOT_STATUS_TRIAL = false ∧ Finished c s t) ∧
  (∀ (s : State) (index : Fin 4096) (c : HostCmd) (ticks : BitVec 40),
      s.cmdAt index (fun o => o == 0x0307) = some c →
      c.mirrored = false →
      s.onTrial = true →
      s.mode ≠ .rom →
      Completes (.updateRevert index ticks) s fun t =>
        t.mode = .rom ∧ t.u.boot.running = true ∧ (s.u.boot.trial.1 = true → t.bsr.fwTrial = none)) ∧
  (∀ (s : State),
      s.u.boot.activateWait = true →
      s.u.boot.activateAt = none →
      Completes .pairUpdateTimeout s fun t =>
        t.u.boot.activateWait = false ∧ t.fld BOOT_UPD_STAT_LAST = 17)

/-- A Recovery operation starts, runs and ends. In RECOVERY a permitted operation makes BOOT_RCV_STAT busy with its
argument kept, EXIT resets into ROM, a finished operation leaves it free, and an unattended RECOVERY entered for
an error resets into ROM. -/
def Obligations.RecoveryOperations : Prop :=
  (∀ (s : State) (iface : HostIface),
      s.reaches iface = true →
      s.permits BOOT_RCV_CMD = true →
      s.bit BOOT_RCV_STAT_BUSY = false →
      s.mode = .recovery →
      Completes (.rcvCheck (.register iface)) s fun t =>
        t.bit BOOT_RCV_STAT_BUSY = true ∧ t.u.boot.rcvOp = some (1, (s.reg BOOT_RCV_ARG).toNat, none) ∧ t.u.boot.rcvSeen = true) ∧
  (∀ (s : State) (iface : HostIface),
      s.reaches iface = true →
      s.permits BOOT_RCV_CMD = true →
      s.bit BOOT_RCV_STAT_BUSY = false →
      s.mode = .recovery →
      Completes (.rcvWrite (.register iface)) s fun t =>
        t.bit BOOT_RCV_STAT_BUSY = true ∧ t.u.boot.rcvOp = some (2, (s.reg BOOT_RCV_ARG).toNat, none) ∧ t.u.boot.rcvSeen = true) ∧
  (∀ (s : State) (iface : HostIface),
      s.reaches iface = true →
      s.permits BOOT_RCV_CMD = true →
      s.bit BOOT_RCV_STAT_BUSY = false →
      s.mode = .recovery →
      Completes (.rcvSetActive (.register iface)) s fun t =>
        t.bit BOOT_RCV_STAT_BUSY = true ∧ t.u.boot.rcvOp = some (3, (s.reg BOOT_RCV_ARG).toNat, none) ∧ t.u.boot.rcvSeen = true) ∧
  (∀ (s : State) (iface : HostIface),
      s.reaches iface = true →
      s.permits BOOT_RCV_CMD = true →
      s.bit BOOT_RCV_STAT_BUSY = false →
      s.mode = .recovery →
      Completes (.rcvReprovision (.register iface)) s fun t =>
        t.bit BOOT_RCV_STAT_BUSY = true ∧ t.u.boot.rcvOp = some (4, (s.reg BOOT_RCV_ARG).toNat, none) ∧ t.u.boot.rcvSeen = true) ∧
  (∀ (s : State) (iface : HostIface) (ticks : BitVec 40),
      s.reaches iface = true →
      s.permits BOOT_RCV_CMD = true →
      s.bit BOOT_RCV_STAT_BUSY = false →
      s.mode = .recovery →
      Completes (.rcvExit (.register iface) ticks) s fun t =>
        t.mode = .rom ∧ t.u.boot.running = true) ∧
  (∀ (s : State) (bad : Option (List Byte)) (op : Nat) (arg : Nat),
      s.u.boot.rcvOp = some (op, arg, none) →
      s.mode = .recovery →
      Completes (.rcvOpComplete bad) s fun t =>
        t.bit BOOT_RCV_STAT_BUSY = false ∧ t.u.boot.rcvOp = none) ∧
  (∀ (s : State) (ticks : BitVec 40),
      s.mode = .recovery →
      s.u.boot.rcvError = true →
      s.u.boot.rcvSeen = false →
      Completes (.recoveryIdleTimeout ticks) s fun t =>
        t.mode = .rom ∧ t.u.boot.running = true)

/-- The transmit sequence, edge by edge. At X an ACK that is ready blanks its port and takes TRS_SEL; PA_EN,
ramp-up, frame start, frame end, ramp-down, the release of PA_EN and the return edge follow one another, the
frame and its airtime being counted on the way. -/
def Obligations.TransmitSequence : Prop :=
  (∀ (s : State) (chain : Chain) (off : Fin 1000000) (sample : BitVec 64) (d : TxCmd) (a : AckTx),
      (s.tx chain).cmd = some d →
      d.what = .ack a →
      d.phase = .ready →
      s.mode = .solo →
      s.mayTransmit = true →
      s.bit (RFx_CX_CTL_EN chain.port) = false →
      a.bytes.isEmpty = false →
      s.dutyOk chain.port a.chan a.rate (s.dutyNs chain.port a.rate a.bytes.length) (fun _ => 0) = true →
      Completes (.txSequenceStart chain true off sample) s fun t =>
        ((t.tx chain).cmd.map fun d => d.phase) = some .tr ∧ t.bit (RFx_STATUS_TRS_TX chain.port) = true ∧ t.bit (RFx_STATUS_BLANK chain.port) = true ∧ t.txState chain = 4) ∧
  (∀ (s : State) (chain : Chain) (d : TxCmd),
      (s.tx chain).cmd = some d →
      d.phase = .tr →
      Completes (.txPaEnable chain) s fun t =>
        (t.tx chain).cmd = some { d with phase := .pa } ∧ (t.tx chain).paEn = true) ∧
  (∀ (s : State) (chain : Chain) (off : Fin 1000000) (d : TxCmd),
      (s.tx chain).cmd = some d →
      d.phase = .pa →
      Completes (.txRampUpStart chain off) s fun t =>
        (t.tx chain).cmd = some { d with phase := .ramp, rampNs := some (s.atNs off) }) ∧
  (∀ (s : State) (chain : Chain) (d : TxCmd),
      (s.tx chain).cmd = some d →
      d.phase = .ramp →
      Completes (.txFrameStart chain false) s fun t =>
        ((t.tx chain).cmd.map fun d => d.phase) = some .frame ∧
        (t.tx chain).air = Air.frameSymbols (s.whatRate d.what) s.u.boot.syncWord ((parseMac d.bytes).typ == 3) d.bytes) ∧
  (∀ (s : State) (chain : Chain) (off : Fin 1000000) (d : TxCmd),
      (s.tx chain).cmd = some d →
      d.phase = .frame →
      Completes (.txFrameEnd chain off true) s fun t =>
        ((t.tx chain).cmd.map fun d => d.phase) = some .down ∧ t.reg (RFx_TX_FRAMES chain.port) = s.reg (RFx_TX_FRAMES chain.port) + 1 ∧
        (d.what.isAck = true → t.reg MAC_ACK_SENT = s.reg MAC_ACK_SENT + 1)) ∧
  (∀ (s : State) (chain : Chain) (off : Fin 1000000) (d : TxCmd),
      (s.tx chain).cmd = some d →
      d.phase = .down →
      Completes (.txRampDownEnd chain off) s fun t =>
        ((t.tx chain).cmd.map fun d => d.phase) = some .drained) ∧
  (∀ (s : State) (chain : Chain) (d : TxCmd),
      (s.tx chain).cmd = some d →
      d.phase = .drained →
      Completes (.txPaDisable chain) s fun t =>
        ((t.tx chain).cmd.map fun d => d.phase) = some .back ∧ (t.tx chain).paEn = false) ∧
  (∀ (s : State) (chain : Chain) (d : TxCmd),
      (s.tx chain).cmd = some d →
      d.phase = .back →
      Completes (.txTrReturn chain) s fun t =>
        (t.tx chain).cmd = none ∧ (¬ (s.tx (chainOf chain.port (1 - chain.n))).inSeq = true → t.bit (RFx_STATUS_TRS_TX chain.port) = false)) ∧
  (∀ (s : State) (port : RfPort) (off : Fin 1000000) (sample : BitVec 64),
      s.portSeq port = false →
      (s.u.rf.port port).recal = none →
      s.bit (RFx_SLICE_EN port) = true →
      s.bit (RFx_STATUS_RX_LOCKED port) = true →
      Completes (.txBlankEnd port off sample) s fun t =>
        t.bit (RFx_STATUS_BLANK port) = false)

/-- Lock, loss of lock and the decision instant of a transmit chain. A confirmed lock is recorded with its
calibration time; a first calibration without lock counts and runs again; a lock lost while sending cuts the
frame; EN written keeps its value; a command held past its decision instant is given up as LATE_SYNTH. -/
def Obligations.TransmitSynthesisers : Prop :=
  (∀ (s : State) (chain : Chain) (us : BitVec 16),
      (s.tx chain).calibrating = true →
      us.toNat < 200 →
      Completes (.txLockConfirmed chain us) s fun t =>
        t.fld (RFx_TXn_STAT_LAST_CAL_US chain.port chain.n) = us.toNat ∧ (t.tx chain).fails = 0) ∧
  (∀ (s : State) (chain : Chain),
      (s.tx chain).calibrating = true →
      s.txState chain ≠ 5 →
      (s.tx chain).fails = 0 →
      Completes (.txCalTimeout chain) s fun t =>
        (t.tx chain).fails = 1 ∧ (t.tx chain).calibrating = true ∧ t.reg (RFx_TX_CAL chain.port) = s.reg (RFx_TX_CAL chain.port) + 1) ∧
  (∀ (s : State) (chain : Chain) (d : TxCmd),
      (s.tx chain).cmd = some d →
      d.phase.sending = true →
      Completes (.txSynthUnlock chain) s fun t =>
        (t.tx chain).cmd = some { d with phase := .down, recal := true } ∧
        t.reg (RFx_UNLOCK_ABORT chain.port) = satNext (s.reg (RFx_UNLOCK_ABORT chain.port))) ∧
  (∀ (s : State) (iface : HostIface) (chain : Chain) (value : BitVec 32),
      s.reaches iface = true →
      s.permits (RFx_TXn_CTL chain.port chain.n) = true →
      Completes (.txChainEnWrite iface chain value) s fun t =>
        t.reg (RFx_TXn_CTL chain.port chain.n) = storedValue (RFx_TXn_CTL chain.port chain.n) value) ∧
  (∀ (s : State) (chain : Chain) (off : Fin 1000000) (d : TxCmd),
      (s.tx chain).cmd = some d →
      d.due = true →
      d.phase = .held →
      s.holdNs chain.port d.cca d.what ≤ s.atNs off →
      Completes (.txHoldDecision chain off) s fun t =>
        (t.tx chain).cmd = none ∧ t.reg (RFx_LATE_SYNTH chain.port) = satNext (s.reg (RFx_LATE_SYNTH chain.port)))

/-- Listening before talking, and the coexistence handshake. A command whose instant has come is due; a clear
channel makes it ready; after its backoff the next assessment is due; a request goes active and a grant is kept;
a grant withdrawn shows at once, and HOLD ends. -/
def Obligations.ChannelAssessment : Prop :=
  (∀ (s : State) (chain : Chain) (d : TxCmd),
      (s.tx chain).cmd = some d →
      d.cca = true →
      d.phase = .held →
      d.due = false →
      Completes (.ccaStart chain) s fun t =>
        ((t.tx chain).cmd.map fun d => d.due) = some true) ∧
  (∀ (s : State) (chain : Chain) (off : Fin 1000000) (power : BitVec 16) (draw : Fin 256) (d : TxCmd) (e : PlanEntry),
      (s.tx chain).cmd = some d →
      d.what = .entry e →
      d.phase = .cca →
      s.ccaBusy chain d power = false →
      Completes (.ccaEnd chain off power draw) s fun t =>
        (t.tx chain).cmd = some { d with phase := .ready }) ∧
  (∀ (s : State) (chain : Chain) (d : TxCmd),
      (s.tx chain).cmd = some d →
      d.phase = .backoff →
      Completes (.backoffExpiry chain) s fun t =>
        ((t.tx chain).cmd.map fun d => d.due) = some true ∧ ((t.tx chain).cmd.map fun d => d.phase) ≠ some .backoff) ∧
  (∀ (s : State) (chain : Chain) (ack : Bool) (d : TxCmd),
      s.bit (RFx_CX_CTL_EN chain.port) = true →
      (s.tx chain).cmd = some d →
      d.phase.inSeq = false →
      Completes (.cxRequestRaise chain ack) s fun t =>
        (t.tx chain).cmd = some { d with req := true } ∧ t.bit (RFx_STATUS_CX_REQ chain.port) = true) ∧
  (∀ (s : State) (chain : Chain) (d : TxCmd),
      s.bit (RFx_CX_CTL_EN chain.port) = true →
      (s.tx chain).cmd = some d →
      d.req = true →
      d.phase.inSeq = false →
      s.gtOwned (s.fld (RFx_CX_CTL_GT chain.port)) (1 + chain.port.idx) = true →
      Completes (.cxGrantSample chain true) s fun t =>
        (t.tx chain).cmd = some { d with granted := true } ∧ t.bit (RFx_STATUS_CX_GNT chain.port) = true) ∧
  (∀ (s : State) (port : RfPort),
      s.bit (RFx_CX_CTL_EN port) = true →
      Completes (.cxGrantWithdrawn port) s fun t =>
        t.bit (RFx_STATUS_CX_GNT port) = false ∧ (s.portSeq port = true → t.reg (RFx_CX_ABORT port) = satNext (s.reg (RFx_CX_ABORT port)))) ∧
  (∀ (s : State) (port : RfPort),
      (s.u.rf.port port).cxHold = true →
      Completes (.cxRelease port) s fun t =>
        (t.u.rf.port port).cxHold = false)

/-- Calibrating a port, moving its slice, and its regions. A recalibration is requested, starts with the port
blanked and its receive path unlocked, and ends with the step table measured; a write to RFx_SLICE keeps its
value; a region closes its bucket, and a write that moves its band or window clears its history. -/
def Obligations.RfPorts : Prop :=
  (∀ (s : State) (iface : HostIface) (port : RfPort) (value : BitVec 32),
      s.reaches iface = true →
      s.permits (RFx_RXCAL port) = true →
      value.getLsbD 0 = true →
      s.bit (RFx_STATUS_RX_CAL port) = false →
      Completes (.rxRecalRequest iface port value) s fun t =>
        (t.u.rf.port port).recal = some ⟨1, false⟩ ∧ t.bit (RFx_STATUS_RX_CAL port) = true) ∧
  (∀ (s : State) (iface : HostIface) (port : RfPort) (value : BitVec 32) (off : Fin 1000000) (sample : BitVec 64),
      s.reaches iface = true →
      s.permits (RFx_SLICE port) = true →
      Completes (.sliceWrite iface port value off sample) s fun t =>
        t.reg (RFx_SLICE port) = storedValue (RFx_SLICE port) value ∧ (s.bit (RFx_SLICE_EN port) = false → t.bit (RFx_SLICE_EN port) = true →
          (t.u.rf.port port).recal = some ⟨0, false⟩)) ∧
  (∀ (s : State) (port : RfPort) (off : Fin 1000000) (sample : BitVec 64) (r : Recal),
      (s.u.rf.port port).recal = some r →
      r.running = false →
      s.portSeq port = false →
      Completes (.rxRecalStart port off sample) s fun t =>
        (t.u.rf.port port).recal = some { r with running := true } ∧ t.bit (RFx_STATUS_BLANK port) = true ∧ t.bit (RFx_STATUS_RX_LOCKED port) = false) ∧
  (∀ (s : State) (port : RfPort) (off : Fin 1000000) (sample : BitVec 64) (steps : List (BitVec 10)) (us : BitVec 16) (r : Recal),
      (s.u.rf.port port).recal = some r →
      r.running = true →
      Completes (.rxRecalDone port off sample true steps us) s fun t =>
        (t.u.rf.port port).recal = none ∧ t.bit (RFx_STATUS_RX_LOCKED port) = true ∧ t.bit (RFx_STATUS_RX_CAL port) = false ∧
        ∀ i ∈ List.range 15, t.reg (RXD_STEPTAB_xi port i) = BitVec.ofNat 32 (steps.getD i 0).toNat) ∧
  (∀ (s : State) (port : RfPort) (off : Fin 1000000) (sample : BitVec 64),
      s.bit (RFx_STATUS_RX_LOCKED port) = true →
      Completes (.rxSynthUnlock port off sample) s fun t =>
        (t.u.rf.port port).recal = some ⟨2, true⟩ ∧ t.bit (RFx_STATUS_RX_LOCKED port) = false ∧ t.bit (RFx_STATUS_BLANK port) = true) ∧
  (∀ (s : State) (port : RfPort) (region : Fin 16),
      s.dutyBeats port region ≤ (s.dutyRegion port region).beats →
      Completes (.dutyBucketAdvance port region) s fun t =>
        (t.dutyRegion port region).buckets = (0 :: (s.dutyRegion port region).buckets).take 64 ∧ (t.dutyRegion port region).beats = 0) ∧
  (∀ (s : State) (iface : HostIface) (port : RfPort) (region : Fin 16) (value : BitVec 32),
      s.reaches iface = true →
      s.permits (RFx_DUTYr_BAND port region) = true →
      s.reg (RFx_DUTYr_BAND port region) ≠ storedValue (RFx_DUTYr_BAND port region) value →
      Completes (.dutyRegionWrite iface port region true value) s fun t =>
        t.reg (RFx_DUTYr_BAND port region) = storedValue (RFx_DUTYr_BAND port region) value ∧ t.dutyRegion port region = DutyRegion.empty)

/-- The slow AGC and its announcement bus. A clipped block marks its port clipping, a loud measurement steps the
gain down and a quiet long one up, a deferred step proceeds; an announced step takes effect at its sample, a
clipped span ends, and a decoder applies the oldest record it holds. -/
def Obligations.AgcAndAnnouncements : Prop :=
  (∀ (s : State) (port : RfPort) (sample : BitVec 64) (clip : BitVec 64) (samples : Fin 65) (peak : Fin 2048),
      s.agcOn port = true →
      s.fld (RXD_AGCx_CTL_CLIP_COUNT port) ≤ samples.val →
      s.fld (RXD_AGCx_CTL_CLIP_LEVEL port) ≤ peak.val →
      Completes (.agcClipAttack port sample clip samples peak) s fun t =>
        t.bit (RXD_AGCx_STAT_CLIPPING port) = true ∧ (s.gain port = 0 → t.bit (RFx_STATUS_OVERLOAD port) = true)) ∧
  (∀ (s : State) (port : RfPort) (sample : BitVec 64) (rms : BitVec 16),
      s.agcOn port = true →
      s.bit (RXD_AGCx_CTL_FREEZE port) = false →
      s.bit (RXD_AGCx_STAT_CLIPPING port) = false →
      0 < s.gain port →
      s.agcTarget port + s.agcHyst port < rms.toInt →
      Completes (.agcLevelDecision port sample false rms) s fun t =>
        t.gain port = s.gain port - 1 ∧ (t.u.rx.agc port).decisions = (s.u.rx.agc port).decisions + 1) ∧
  (∀ (s : State) (port : RfPort) (sample : BitVec 64),
      s.bit (RXD_AGCx_STAT_DEFERRED port) = true →
      s.bit (RXD_AGCx_CTL_FREEZE port) = false →
      s.gain port < 23 →
      Completes (.agcReleaseDeferEnd port sample true) s fun t =>
        t.gain port = s.gain port + 1 ∧ t.bit (RXD_AGCx_STAT_DEFERRED port) = false) ∧
  (∀ (s : State) (port : RfPort) (g : Nat × Nat),
      (s.u.rx.agc port).next = some g →
      g.1 < 32 →
      Completes (.gainStepEffective port) s fun t =>
        t.fld (RXD_AGCx_STAT_G port) = g.1 ∧ (t.u.rx.agc port).next = none) ∧
  (∀ (s : State) (port : RfPort) (last : BitVec 64),
      Completes (.clipSpanEnd port last) s fun t =>
        (t.u.rx.agc port).clip = none ∧ t.bit (RXD_AGCx_STAT_CLIPPING port) = false ∧ t.bit (RFx_STATUS_OVERLOAD port) = false) ∧
  (∀ (s : State) (decoder : Fin 80) (seq : BitVec 8) (processed : BitVec 64) (reports : List (BitVec 16)) (r : AnnRecord) (rest : List AnnRecord),
      (s.decoder decoder).held = r :: rest →
      r.kind = 1 →
      (s.decoder decoder).last = none →
      processed.toNat ≤ r.sEff →
      Completes (.announceRecordApply decoder seq processed reports) s fun t =>
        (t.decoder decoder).held = rest ∧ (t.decoder decoder).last = some seq.toNat ∧ (t.decoder decoder).opened = some r.sEff)

/-- From a detection to the decoded frame. P opens at a detection and W beside it; the sync word leads to the
header, a valid header opens a frame, a wait without a sync word ends the context; each codeword issues its
decode request, the frame end returns P to search, a core takes the next request and its result counts. -/
def Obligations.Reception : Prop :=
  (∀ (s : State) (decoder : Fin 80) (found : Detection),
      (s.decoder decoder).p = none →
      s.detects decoder found = true →
      Completes (.preambleDetect decoder found) s fun t =>
        (t.decoder decoder).p = some (ctxOf (s.decoder decoder) (s.chDfe decoder) false found) ∧ t.reg (RXD_CHn_DET decoder) = s.reg (RXD_CHn_DET decoder) + 1) ∧
  (∀ (s : State) (decoder : Fin 80) (found : Detection) (p : RxCtx),
      (s.decoder decoder).p = some p →
      (s.decoder decoder).w = none →
      p.phase = 3 →
      s.detects decoder found = true →
      above p (ctxOf (s.decoder decoder) (s.chDfe decoder) true found) (s.fld RXD_CAPTURE_CAPTURE_DB) = false →
      Completes (.watchDetect decoder found) s fun t =>
        (t.decoder decoder).w = some (ctxOf (s.decoder decoder) (s.chDfe decoder) true found) ∧ (t.decoder decoder).p = some p) ∧
  (∀ (s : State) (decoder : Fin 80) (start : BitVec 64) (c : RxCtx),
      (s.decoder decoder).p = some c →
      (s.decoder decoder).w = none →
      c.phase = 2 →
      Completes (.sfdMatch decoder false (BitVec.ofNat 32 s.u.boot.syncWord) start) s fun t =>
        (t.decoder decoder).p = some { c with phase := 3, start := start.toNat }) ∧
  (∀ (s : State) (decoder : Fin 80) (c : RxCtx),
      (s.decoder decoder).p = some c →
      c.phase = 2 →
      Completes (.sfdTimeout decoder false) s fun t =>
        (t.decoder decoder).p = (s.decoder decoder).w ∧ (t.decoder decoder).w = none ∧ t.reg (RXD_CHn_FALSE decoder) = s.reg (RXD_CHn_FALSE decoder) + 1) ∧
  (∀ (s : State) (decoder : Fin 80) (block : BitVec 32) (c : RxCtx),
      (s.decoder decoder).p = some c →
      (s.decoder decoder).w = none →
      c.phase = 3 →
      headerStatus block.toNat (s.chRate decoder) = rxOk →
      Completes (.headerDecoded decoder false block) s fun t =>
        (t.decoder decoder).p = some { c with phase := 4, frame := s.u.rx.next } ∧ t.u.rx.frames = s.u.rx.frames ++ [frameOf s decoder c block.toNat] ∧
        t.reg (RXD_CHn_HDR_OK decoder) = s.reg (RXD_CHn_HDR_OK decoder) + 1) ∧
  (∀ (s : State) (decoder : Fin 80) (soft : List Soft) (c : RxCtx) (f : RxFrame),
      (s.decoder decoder).p = some c →
      c.phase = 4 →
      s.rxFrame c.frame = some f →
      f.cws.length < Air.codewords f.rate f.length →
      Completes (.codewordEnd decoder soft) s fun t =>
        t.u.rx.reqs.length = s.u.rx.reqs.length + 1 ∧
        (t.u.rx.reqs.getLast?.map fun r => (r.frame, r.cw, r.beat, r.core)) = some (f.id, f.cws.length, s.bindBeat, none)) ∧
  (∀ (s : State) (decoder : Fin 80) (c : RxCtx) (f : RxFrame),
      (s.decoder decoder).p = some c →
      c.phase = 4 →
      s.rxFrame c.frame = some f →
      f.cws.length = Air.codewords f.rate f.length →
      Completes (.rxFrameEnd decoder) s fun t =>
        (t.decoder decoder).p = (s.decoder decoder).w ∧ (t.decoder decoder).w = none) ∧
  (∀ (s : State) (r : LdpcReq) (k : Nat),
      nextReq (s.u.rx.reqs.filter fun r => r.core.isNone) = some r →
      s.freeLdpc = some k →
      Completes .ldpcDispatch s fun t =>
        ∃ q ∈ t.u.rx.reqs, q = { r with core := some k }) ∧
  (∀ (s : State) (core : Fin 8) (hard : BitVec 1152) (iterations : Fin 33) (r : LdpcReq) (f : RxFrame),
      (s.u.rx.reqs.find? fun r => r.core == some core.val) = some r →
      s.rxFrame r.frame = some f →
      Completes (.ldpcDecodeDone core hard iterations) s fun t =>
        (∀ q ∈ t.u.rx.reqs, q.core ≠ some core.val) ∧ t.reg RXD_LDPC_DEC = s.reg RXD_LDPC_DEC + 1) ∧
  (∀ (s : State) (iface : HostIface) (decoder : Fin 80) (value : BitVec 32),
      s.reaches iface = true →
      s.permits (RXD_CHn_CFG decoder) = true →
      s.reg (RXD_CHn_CFG decoder) ≠ storedValue (RXD_CHn_CFG decoder) value →
      Completes (.decoderCfgWrite iface decoder value) s fun t =>
        t.reg (RXD_CHn_CFG decoder) = storedValue (RXD_CHn_CFG decoder) value ∧ (t.decoder decoder).p = none ∧ (t.decoder decoder).w = none) ∧
  (∀ (s : State) (iface : HostIface) (value : BitVec 32),
      s.reaches iface = true →
      s.permits RXD_CAPTURE = true →
      Completes (.captureCfgWrite iface value) s fun t =>
        t.reg RXD_CAPTURE = storedValue RXD_CAPTURE value)

/-- The MAC unit takes a received frame through its checks. The oldest descriptor is taken in; a source without a
record drops the frame, a record moves it to its key and a key to its MIC, a failing MIC drops it and counts, a
good one is judged by its counter, and a frame whose end-to-end MIC is good is accepted; an ACK leaves the unit,
matched or stray; a frame of the pipeline that is ready is learned and leaves. -/
def Obligations.FrameChecks : Prop :=
  (∀ (s : State) (d : RxDesc) (rest : List RxDesc),
      s.u.rx.handoff = d :: rest →
      Completes .macFrameReceived s fun t =>
        t.u.rx.handoff = rest ∧ (d.status ≠ rxOk → t.u.mac.frames = s.u.mac.frames) ∧
        (d.status = rxOk → fcsOk (descramble d.bits) = false → t.reg (MAC_DROPr 0) = satNext (s.reg (MAC_DROPr 0))) ∧
        (d.status = rxOk → fcsOk (descramble d.bits) = true →
          s.structureDrop (descramble d.bits) (parseMac (descramble d.bits)) d.frame.beacon = none →
          ∃ g ∈ t.u.mac.frames, g.id = d.frame.id ∧ g.bytes = descramble d.bits)) ∧
  (∀ (s : State) (index : Fin 256) (f : MacFrame),
      s.macFrame index = some f →
      f.stage = .record →
      s.macBlocked index = false →
      (parseMac f.bytes).typ ≠ 4 →
      s.recValid (parseMac f.bytes).src = false →
      Completes (.macRecordFetched index false) s fun t =>
        (∀ g ∈ t.u.mac.frames, g.id ≠ f.id) ∧ t.reg (MAC_DROPr 9) = satNext (s.reg (MAC_DROPr 9))) ∧
  (∀ (s : State) (index : Fin 256) (f : MacFrame),
      s.macFrame index = some f →
      f.stage = .key →
      s.macBlocked index = false →
      (s.slot (s.frameLabel (parseMac f.bytes).key false (parseMac f.bytes).epoch).1).state = .empty →
      Completes (.macLinkKeyReady index) s fun t =>
        (∀ g ∈ t.u.mac.frames, g.id ≠ f.id) ∧ t.reg (MAC_DROPr 10) = satNext (s.reg (MAC_DROPr 10)) ∧ t.reg SEC_INVALID_KEY = satNext (s.reg SEC_INVALID_KEY)) ∧
  (∀ (s : State) (index : Fin 256) (off : Fin 1000000) (f : MacFrame),
      s.macFrame index = some f →
      f.stage = .mic →
      s.macBlocked index = false →
      s.lateHere f false = false →
      linkOpen f.key f.bytes (parseMac f.bytes) = none →
      Completes (.macLinkMicDone index off) s fun t =>
        (∀ g ∈ t.u.mac.frames, g.id ≠ f.id) ∧ t.reg (MAC_DROPr 11) = satNext (s.reg (MAC_DROPr 11)) ∧ t.reg SEC_MIC_FAIL = satNext (s.reg SEC_MIC_FAIL) ∧
        t.reg SEC_CCM_OPS = s.reg SEC_CCM_OPS + 1) ∧
  (∀ (s : State) (index : Fin 256) (f : MacFrame),
      s.macFrame index = some f →
      f.stage = .e2e →
      s.macBlocked index = false →
      s.lateHere f true = false →
      s.recValid (parseMac f.bytes).origin = false →
      Completes (.macE2eCheckDone index false) s fun t =>
        (∀ g ∈ t.u.mac.frames, g.id ≠ f.id) ∧ t.reg (MAC_DROPr 9) = satNext (s.reg (MAC_DROPr 9))) ∧
  (∀ (s : State) (index : Fin 256) (f : MacFrame),
      s.macFrame index = some f →
      f.stage = .record →
      s.macBlocked index = false →
      (parseMac f.bytes).typ ≠ 4 →
      Completes (.macRecordFetched index true) s fun t =>
        (∀ g ∈ t.u.mac.frames, g.id ≠ f.id) ∧ t.reg (MAC_DROPr 9) = satNext (s.reg (MAC_DROPr 9)) ∧ t.reg ENV_ECC_UNC = satNext (s.reg ENV_ECC_UNC)) ∧
  (∀ (s : State) (index : Fin 256) (f : MacFrame),
      s.macFrame index = some f →
      f.stage = .record →
      s.macBlocked index = false →
      s.recValid (parseMac f.bytes).src = true →
      s.linkOutcome f.bytes (parseMac f.bytes) ≠ 3 →
      Completes (.macRecordFetched index false) s fun t =>
        t.u.mac.frames = s.u.mac.frames.map (fun g => if g.id = f.id then { g with stage := .key } else g)) ∧
  (∀ (s : State) (index : Fin 256) (f : MacFrame) (key : List Nat),
      s.macFrame index = some f →
      f.stage = .key →
      s.macBlocked index = false →
      (s.slot (s.frameLabel (parseMac f.bytes).key false (parseMac f.bytes).epoch).1).state = .valid →
      s.cached (s.frameLabel (parseMac f.bytes).key false (parseMac f.bytes).epoch).1 (s.frameLabel (parseMac f.bytes).key false (parseMac f.bytes).epoch).2 = some key →
      Completes (.macLinkKeyReady index) s fun t =>
        t.u.mac.frames = s.u.mac.frames.map (fun g => if g.id = f.id then { g with stage := .mic, key := key } else g) ∧ t.reg SEC_CACHE_HIT = s.reg SEC_CACHE_HIT + 1) ∧
  (∀ (s : State) (index : Fin 256) (off : Fin 1000000) (f : MacFrame) (body : List Byte),
      s.macFrame index = some f →
      f.stage = .mic →
      s.macBlocked index = false →
      s.lateHere f false = false →
      linkOpen f.key f.bytes (parseMac f.bytes) = some body →
      s.recValid (parseMac f.bytes).src = true →
      (parseMac f.bytes).directJoin = false →
      Completes (.macLinkMicDone index off) s fun t =>
        (s.linkOutcome f.bytes (parseMac f.bytes) = 0 → t.reg MAC_RX_OK = s.reg MAC_RX_OK + 1) ∧
        (s.linkOutcome f.bytes (parseMac f.bytes) = 1 → t.reg MAC_DUP = s.reg MAC_DUP + 1 ∧ (∀ g ∈ t.u.mac.frames, g.id ≠ f.id)) ∧
        (s.linkOutcome f.bytes (parseMac f.bytes) = 2 → t.reg (MAC_DROPr 13) = satNext (s.reg (MAC_DROPr 13)) ∧ (∀ g ∈ t.u.mac.frames, g.id ≠ f.id)) ∧
        (s.linkOutcome f.bytes (parseMac f.bytes) = 3 → t.reg (MAC_DROPr 12) = satNext (s.reg (MAC_DROPr 12)) ∧ (∀ g ∈ t.u.mac.frames, g.id ≠ f.id))) ∧
  (∀ (s : State) (index : Fin 256) (f : MacFrame) (key : List Nat) (plain : List Byte),
      s.macFrame index = some f →
      f.stage = .e2e →
      s.macBlocked index = false →
      s.lateHere f true = false →
      s.recValid (parseMac f.bytes).origin = true →
      (s.slot (s.frameLabel (.e2e (parseMac f.bytes).origin) false (parseMac f.bytes).e2eEpoch).1).state = .valid →
      s.cached (s.frameLabel (.e2e (parseMac f.bytes).origin) false (parseMac f.bytes).e2eEpoch).1 (s.frameLabel (.e2e (parseMac f.bytes).origin) false (parseMac f.bytes).e2eEpoch).2 = some key →
      e2eOpen key f.bytes (parseMac f.bytes) f.body = some plain →
      s.recFlag (parseMac f.bytes).origin 6 = false →
      Completes (.macE2eCheckDone index false) s fun t =>
        (∃ g ∈ t.u.mac.frames, g.id = f.id ∧ g.stage = .deliver ∧ g.clear = plain ∧ g.accepted = true) ∧ t.reg SEC_CCM_OPS = s.reg SEC_CCM_OPS + 1) ∧
  (∀ (s : State) (index : Fin 256) (f : MacFrame),
      s.macFrame index = some f →
      f.stage = .ack →
      Completes (.ackReceived index) s fun t =>
        (∀ g ∈ t.u.mac.frames, g.id ≠ f.id) ∧ ((s.u.mac.waits.find? (s.ackMatches f)) = none → t.reg MAC_ACK_STRAY = s.reg MAC_ACK_STRAY + 1) ∧
        (∀ x, s.u.mac.waits.find? (s.ackMatches f) = some x → t.u.mac.waits = s.u.mac.waits.erase x))

/-- Retransmission, listen and poll windows, beacons and joins. A wait without its ACK ends; a listen window opens
and closes at its instants; a child that polls on a schedule has its frames staged, and a window missed counts;
a beacon is queued on its beat and skipped when late; join requests of the beat are taken; a report window ends
with its event. -/
def Obligations.WindowsAndBeacons : Prop :=
  (∀ (s : State) (index : Fin 256) (draw : Fin 256) (off : Fin 1000000) (x : AckWait),
      s.u.mac.waits[index.val]? = some x →
      x.stopNs + turnaroundNs x.rate + 1000 * s.fld MAC_ACK_WIN_US + 160 * symbolNs x.rate ≤ s.atNs off →
      Completes (.ackWaitExpiry index draw off) s fun t =>
        t.u.mac.waits = s.u.mac.waits.erase x ∧ t.reg MAC_ACK_MISSED = satNext (s.reg MAC_ACK_MISSED)) ∧
  (∀ (s : State) (node : BitVec 24) (off : Fin 1000000) (l : Listen),
      s.listenOf node.toNat = some l →
      l.opened = false →
      l.openNs ≤ s.atNs off →
      s.pendList node.toNat = [] →
      Completes (.listenWindowOpen node off) s fun t =>
        (t.listenOf node.toNat) = some { l with opened := true }) ∧
  (∀ (s : State) (node : BitVec 24) (off : Fin 1000000) (l : Listen),
      s.listenOf node.toNat = some l →
      l.opened = true →
      l.closeNs ≤ s.atNs off →
      (s.u.mac.listens.filter fun x => x.nsa == node.toNat) = [l] →
      Completes (.listenWindowClose node off) s fun t =>
        t.listenOf node.toNat = none ∧ { l with closed := true } ∈ t.u.mac.listens) ∧
  (∀ (s : State) (node : BitVec 24) (off : Fin 1000000) (a : Nat) (p : Nat),
      s.pollPlan node.toNat = some (a, p) →
      s.shadows = false →
      a + p * 1000000000 + s.pollGuard p 1 ≤ s.atNs off →
      Completes (.pollWindowClose node off) s fun t =>
        t.reg MAC_POLL_MISSED = satNext (s.reg MAC_POLL_MISSED)) ∧
  (∀ (s : State) (decoder : Fin 80) (b : BeaconQ),
      s.u.mac.beacons = [b] →
      b.decoder = decoder →
      b.nominal + s.fld MAC_BEACON_PERIOD_MS / 2 ≤ s.workBeat →
      s.started b.queue b.start = false →
      Completes (.beaconSkipDeadline decoder) s fun t =>
        t.u.mac.beacons = [] ∧ t.reg MAC_BEACON_SKIP = satNext (s.reg MAC_BEACON_SKIP)) ∧
  (∀ (s : State) (decoder : Fin 80) (cls : Fin 4) (key : List Nat),
      s.meshRuns = true →
      s.beaconOn decoder = true →
      s.beaconDue decoder s.workBeat = true →
      s.storedCtr .bcast < ctrWarn - 1 →
      (s.slot (s.frameLabel .bcast true s.epoch).1).state = .valid →
      s.cached (s.frameLabel .bcast true s.epoch).1 (s.frameLabel .bcast true s.epoch).2 = some key →
      Completes (.beaconDue decoder cls) s fun t =>
        t.reg SEC_TXCTR_BCAST = s.reg SEC_TXCTR_BCAST + 1 ∧ t.reg SEC_CCM_OPS = s.reg SEC_CCM_OPS + 1) ∧
  (∀ (s : State) (node : BitVec 24) (off : Fin 1000000) (a : Nat) (p : Nat) (x : Nat) (key : List Nat),
      s.pollPlan node.toNat = some (a, p) →
      a + p * 1000000000 ≤ s.atNs off + s.pollGuard p 1 + 1000000 * s.fld MAC_POLL_STAGE_MS →
      s.atNs off ≤ a + p * 1000000000 + s.pollGuard p 1 →
      s.pendList node.toNat = [x] →
      s.pendSealed x = false →
      (parseMac (s.pendFrame x)).typ = 0 →
      (parseMac (s.pendFrame x)).pend = false →
      (parseMac (s.pendFrame x)).e2e = false →
      s.storedCtr (.link node.toNat) < ctrWarn - 1 →
      (s.slot (s.frameLabel (.link node.toNat) true s.epoch).1).state = .valid →
      s.cached (s.frameLabel (.link node.toNat) true s.epoch).1 (s.frameLabel (.link node.toNat) true s.epoch).2 = some key →
      Completes (.pollStage node off) s fun t =>
        t.pendSealed x = true ∧ t.reg SEC_CCM_OPS = s.reg SEC_CCM_OPS + 1) ∧
  (∀ (s : State) (cls : Fin 4) (answers : List (BitVec 64 × JoinOutcome)),
      s.meshRuns = true →
      Completes (.joinAdmission cls answers) s fun t =>
        t.u.mac.joins = []) ∧
  (∀ (s : State) (index : Fin 512) (b : MacBridle),
      s.u.mac.bridle[index.val]? = some b →
      b.firstBeat + b.window ≤ s.workBeat + 1 →
      Completes (.bridleWindowEnd index) s fun t =>
        t.u.mac.bridle = s.u.mac.bridle.erase b)

/-- A delivered frame is learned and leaves; a headend message goes down to its node. A frame of the pipeline whose
turn has come leaves the MAC unit with one lookup of its source on its band; a well-formed message for a sleepy
direct child with room on its list takes a buffer of the pending pool and is counted as taken in. -/
def Obligations.UpAndDown : Prop :=
  (∀ (s : State) (index : Fin 256) (headend : Fin 16) (cls : Fin 8) (pre : Fin 3) (f : MacFrame),
      s.macFrame index = some f →
      f.stage = .deliver →
      s.settledBefore index f = true →
      (parseMac f.bytes).srcMode = 1 →
      (parseMac f.bytes).mesh = false →
      Completes (.forwardLearn index headend cls pre) s fun t =>
        (∀ g ∈ t.u.mac.frames, g.id ≠ f.id) ∧
        t.reg (FWD_TBLn_LOOKUP (decoderPort f.rx.decoder).idx) = s.reg (FWD_TBLn_LOOKUP (decoderPort f.rx.decoder).idx) + 1) ∧
  (∀ (s : State) (port : EthPort) (pick : Pick) (cls : Fin 8) (pre : Fin 3) (q : Nat) (k : PacketInfo) (m : List Byte) (nsa : Nat) (e2e : Bool) (n : Nat) (i : Nat),
      s.ingressQueue port.idx = some q →
      ((s.queue q).visible).head? = some k →
      m = wordBytes ((s.queue q).packetWords k) →
      s.downOk m = true →
      nsa = beValue ((m.drop 4).take 3) →
      e2e = (leAt m 7 1 % 8 == 5 || Nat.testBit (leAt m 7 1) 3) →
      s.sleepyChild nsa = true →
      (s.walk nsa fun _ => false).reason = 0 →
      sealedLength (s.downFrame ⟨leAt m 7 1 % 8, nsa, leAt m 7 1 / 32, e2e, m.drop 28⟩ (s.walk nsa fun _ => false).nsa (s.walk nsa fun _ => false).route) ≤ 1024 →
      s.downDecoder (s.bandOf (s.walk nsa fun _ => false).nsa pick.band) (s.walk nsa fun _ => false).nsa pick.decoder = some n →
      (s.pendList nsa).length < 8 →
      firstFree s.u.mac.poolUsed s.poolCount = some i →
      Completes (.pleDownlinkReceived port pick cls pre) s fun t =>
        t.u.mac.poolUsed = s.u.mac.poolUsed ++ [i] ∧ t.reg FWD_DL_IN = s.reg FWD_DL_IN + 1)

/-- The table operations of the command register. A permitted command of the register while it is not busy makes it
busy and does its work: LOOKUP finds and counts a hit, INSERT and UPDATE store the staged entry stamped with the
age of the beat, DELETE and DELETE_IF_STAMP clear VALID, READ_SLOT reads a slot, FLUSH leaves no valid
non-static entry, DIGEST digests a block; the end posts what it shows. -/
def Obligations.TableCommands : Prop :=
  (∀ (s : State) (iface : HostIface) (table : Fin 4) (w : Nat),
      s.reaches iface = true →
      s.permits FWD_CMD = true →
      s.bit FWD_CMD_STAT_BUSY = false →
      s.mode.inService = true →
      badStaged 1 table (Act.stagedData s) = false →
      s.wayOf table (entryKey table (Act.stagedData s)) = some w →
      Completes (.fwdLookup (.register iface) table none) s fun t =>
        t.u.fwd.cmd = some ⟨tblOk, w, s.bucket table (entryKey table (Act.stagedData s)), s.entry table (4 * s.bucket table (entryKey table (Act.stagedData s)) + w), none⟩ ∧ t.bit FWD_CMD_STAT_BUSY = true ∧
        t.reg (FWD_TBLn_HIT table) = s.reg (FWD_TBLn_HIT table) + 1) ∧
  (∀ (s : State) (iface : HostIface) (table : Fin 4) (w : Nat),
      s.reaches iface = true →
      s.permits FWD_CMD = true →
      s.bit FWD_CMD_STAT_BUSY = false →
      s.mode.inService = true →
      s.mode.paired = false →
      badStaged 2 table (Act.stagedData s) = false →
      s.wayOf table (entryKey table (Act.stagedData s)) = some w →
      Completes (.fwdInsert (.register iface) table) s fun t =>
        t.u.fwd.cmd = some ⟨tblOk, w, s.bucket table (entryKey table (Act.stagedData s)), withStamp (Act.stagedData s) (ageNow s.workBeat), none⟩ ∧ t.bit FWD_CMD_STAT_BUSY = true ∧
        t.entry table (4 * s.bucket table (entryKey table (Act.stagedData s)) + w) = withStamp (Act.stagedData s) (ageNow s.workBeat)) ∧
  (∀ (s : State) (iface : HostIface) (table : Fin 4) (w : Nat),
      s.reaches iface = true →
      s.permits FWD_CMD = true →
      s.bit FWD_CMD_STAT_BUSY = false →
      s.mode.inService = true →
      s.mode.paired = false →
      badStaged 3 table (Act.stagedData s) = false →
      s.wayOf table (entryKey table (Act.stagedData s)) = some w →
      Completes (.fwdUpdate (.register iface) table) s fun t =>
        t.u.fwd.cmd = some ⟨tblOk, w, s.bucket table (entryKey table (Act.stagedData s)), withStamp (Act.stagedData s) (ageNow s.workBeat), none⟩ ∧ t.bit FWD_CMD_STAT_BUSY = true ∧
        t.entry table (4 * s.bucket table (entryKey table (Act.stagedData s)) + w) = withStamp (Act.stagedData s) (ageNow s.workBeat)) ∧
  (∀ (s : State) (iface : HostIface) (table : Fin 4) (w : Nat),
      s.reaches iface = true →
      s.permits FWD_CMD = true →
      s.bit FWD_CMD_STAT_BUSY = false →
      s.mode.inService = true →
      s.mode.paired = false →
      badStaged 4 table (Act.stagedData s) = false →
      s.wayOf table (entryKey table (Act.stagedData s)) = some w →
      Completes (.fwdDelete (.register iface) table) s fun t =>
        t.u.fwd.cmd = some ⟨tblOk, w, s.bucket table (entryKey table (Act.stagedData s)), s.entry table (4 * s.bucket table (entryKey table (Act.stagedData s)) + w), none⟩ ∧ t.bit FWD_CMD_STAT_BUSY = true ∧
        t.entry table (4 * s.bucket table (entryKey table (Act.stagedData s)) + w) = (s.entry table (4 * s.bucket table (entryKey table (Act.stagedData s)) + w)).set (keyWidth table) 1 0) ∧
  (∀ (s : State) (iface : HostIface) (table : Fin 4) (w : Nat),
      s.reaches iface = true →
      s.permits FWD_CMD = true →
      s.bit FWD_CMD_STAT_BUSY = false →
      s.mode.inService = true →
      s.mode.paired = false →
      badStaged 5 table (Act.stagedData s) = false →
      s.wayOf table (entryKey table (Act.stagedData s)) = some w →
      entryStamp (s.entry table (4 * s.bucket table (entryKey table (Act.stagedData s)) + w)) = entryStamp (Act.stagedData s) →
      Completes (.fwdDeleteIfStamp (.register iface) table) s fun t =>
        t.u.fwd.cmd = some ⟨tblOk, w, s.bucket table (entryKey table (Act.stagedData s)), s.entry table (4 * s.bucket table (entryKey table (Act.stagedData s)) + w), none⟩ ∧ t.bit FWD_CMD_STAT_BUSY = true ∧
        t.entry table (4 * s.bucket table (entryKey table (Act.stagedData s)) + w) = (s.entry table (4 * s.bucket table (entryKey table (Act.stagedData s)) + w)).set (keyWidth table) 1 0) ∧
  (∀ (s : State) (iface : HostIface) (table : Fin 4),
      s.reaches iface = true →
      s.permits FWD_CMD = true →
      s.bit FWD_CMD_STAT_BUSY = false →
      s.mode.inService = true →
      (Act.stagedData s).fld 0 18 < 4 * tableBuckets table →
      Completes (.fwdReadSlot (.register iface) table) s fun t =>
        t.u.fwd.cmd = some ⟨tblOk, (Act.stagedData s).fld 0 2, (Act.stagedData s).fld 2 16, s.entry table ((Act.stagedData s).fld 0 18), none⟩ ∧ t.bit FWD_CMD_STAT_BUSY = true) ∧
  (∀ (s : State) (iface : HostIface) (table : Fin 4),
      s.reaches iface = true →
      s.permits FWD_CMD = true →
      s.bit FWD_CMD_STAT_BUSY = false →
      s.mode.inService = true →
      s.mode.paired = false →
      Completes (.fwdFlush (.register iface) table) s fun t =>
        t.bit FWD_CMD_STAT_BUSY = true ∧ t.u.fwd.cmd = some ⟨tblOk, 0, 0, 0, if isAir table then some table.val else none⟩ ∧
        (∀ e ∈ t.u.fwd.tables, e.1 / 2 ^ 18 = table → entryStatic table e.2 = false → entryValid table e.2 = false)) ∧
  (∀ (s : State) (iface : HostIface) (table : Fin 4),
      s.reaches iface = true →
      s.permits FWD_CMD = true →
      s.bit FWD_CMD_STAT_BUSY = false →
      s.mode.inService = true →
      (Act.stagedData s).fld 0 8 < tableBlocks table →
      Completes (.fwdDigest (.register iface) table) s fun t =>
        t.u.fwd.cmd = some ⟨tblOk, 0, 0, BitVec.ofNat 128 (s.blockDigest table ((Act.stagedData s).fld 0 8)), none⟩ ∧ t.bit FWD_CMD_STAT_BUSY = true) ∧
  (∀ (s : State) (x : FwdCmd),
      s.u.fwd.cmd = some x →
      Completes .fwdOpComplete s fun t =>
        t.bit FWD_CMD_STAT_BUSY = false ∧ t.bit FWD_CMD_STAT_VALID = true ∧ t.u.fwd.cmd = none ∧ t.fld FWD_CMD_STAT_STATUS = x.status % 16 ∧
        (∀ i ∈ List.range 4, t.reg (FWD_RESx i) = BitVec.ofNat 32 (x.res.toNat / 2 ^ (32 * i))))

/-- The same table operations from the command ring. A taken table command of its table completes, whatever the
operation finds. -/
def Obligations.TableCommandsOfTheRing : Prop :=
  (∀ (s : State) (index : Fin 4096) (c : HostCmd) (table : Fin 4),
      s.cmdAt index (fun o => o == 0x0101) = some c →
      c.mirrored = false →
      c.arg 0 1 = table →
      Completes (.fwdLookup (.ring index) table none) s fun t =>
        Finished c s t) ∧
  (∀ (s : State) (index : Fin 4096) (c : HostCmd) (table : Fin 4),
      s.cmdAt index (fun o => o == 0x0102) = some c →
      c.mirrored = false →
      c.arg 0 1 = table →
      Completes (.fwdInsert (.ring index) table) s fun t =>
        Finished c s t) ∧
  (∀ (s : State) (index : Fin 4096) (c : HostCmd) (table : Fin 4),
      s.cmdAt index (fun o => o == 0x0103) = some c →
      c.mirrored = false →
      c.arg 0 1 = table →
      Completes (.fwdUpdate (.ring index) table) s fun t =>
        Finished c s t) ∧
  (∀ (s : State) (index : Fin 4096) (c : HostCmd) (table : Fin 4),
      s.cmdAt index (fun o => o == 0x0104) = some c →
      c.mirrored = false →
      c.arg 0 1 = table →
      Completes (.fwdDelete (.ring index) table) s fun t =>
        Finished c s t) ∧
  (∀ (s : State) (index : Fin 4096) (c : HostCmd) (table : Fin 4),
      s.cmdAt index (fun o => o == 0x0105) = some c →
      c.mirrored = false →
      c.arg 0 1 = table →
      Completes (.fwdDeleteIfStamp (.ring index) table) s fun t =>
        Finished c s t) ∧
  (∀ (s : State) (index : Fin 4096) (c : HostCmd) (table : Fin 4),
      s.cmdAt index (fun o => o == 0x0106) = some c →
      c.mirrored = false →
      c.arg 0 1 = table →
      Completes (.fwdReadSlot (.ring index) table) s fun t =>
        Finished c s t) ∧
  (∀ (s : State) (index : Fin 4096) (c : HostCmd) (table : Fin 4),
      s.cmdAt index (fun o => o == 0x0107) = some c →
      c.mirrored = false →
      c.arg 0 1 = table →
      Completes (.fwdFlush (.ring index) table) s fun t =>
        Finished c s t) ∧
  (∀ (s : State) (index : Fin 4096) (c : HostCmd) (table : Fin 4),
      s.cmdAt index (fun o => o == 0x0108) = some c →
      c.mirrored = false →
      c.arg 0 1 = table →
      Completes (.fwdDigest (.ring index) table) s fun t =>
        Finished c s t)

/-- The same table operations issued by an engine. A table operation issued by an engine that has a free tag takes
the tag and answers in its completion ring; DELETE_IF_STAMP, READ_SLOT and FLUSH answer with the result in its
data SRAM. -/
def Obligations.TableOperationsOfAnEngine : Prop :=
  (∀ (s : State) (pe : Fin 16) (thread : Fin 4) (k : Nat) (table : Fin 4) (data : BitVec 128) (out : BitVec 18) (w : Nat),
      s.canIssue pe = true →
      (s.engine pe).freeSlot = some k →
      s.mode.inService = true →
      badStaged 1 table data = false →
      s.wayOf table (entryKey table data) = some w →
      Completes (.fwdLookup (.engine pe thread data out) table none) s fun t =>
        (t.engine pe).ring = (s.engine pe).ring ++ [⟨tagOf pe k, thread, 3, cplOk, 1, s.workBeat % 65536, out.toNat⟩] ∧
        t.sramBytes pe out.toNat 16 = leBytes 16 (s.entry table (4 * s.bucket table (entryKey table data) + w)).toNat) ∧
  (∀ (s : State) (pe : Fin 16) (thread : Fin 4) (k : Nat) (table : Fin 4) (data : BitVec 128) (out : BitVec 18) (w : Nat),
      s.canIssue pe = true →
      (s.engine pe).freeSlot = some k →
      s.mode.inService = true →
      badStaged 2 table data = false →
      s.wayOf table (entryKey table data) = some w →
      Completes (.fwdInsert (.engine pe thread data out) table) s fun t =>
        (t.engine pe).ring = (s.engine pe).ring ++ [⟨tagOf pe k, thread, 3, cplOk, 1, s.workBeat % 65536, out.toNat⟩] ∧
        t.entry table (4 * s.bucket table (entryKey table data) + w) = withStamp data (ageNow s.workBeat)) ∧
  (∀ (s : State) (pe : Fin 16) (thread : Fin 4) (k : Nat) (table : Fin 4) (data : BitVec 128) (out : BitVec 18) (w : Nat),
      s.canIssue pe = true →
      (s.engine pe).freeSlot = some k →
      s.mode.inService = true →
      badStaged 3 table data = false →
      s.wayOf table (entryKey table data) = some w →
      Completes (.fwdUpdate (.engine pe thread data out) table) s fun t =>
        (t.engine pe).ring = (s.engine pe).ring ++ [⟨tagOf pe k, thread, 3, cplOk, 1, s.workBeat % 65536, out.toNat⟩] ∧
        t.entry table (4 * s.bucket table (entryKey table data) + w) = withStamp data (ageNow s.workBeat)) ∧
  (∀ (s : State) (pe : Fin 16) (thread : Fin 4) (k : Nat) (table : Fin 4) (data : BitVec 128) (out : BitVec 18) (w : Nat),
      s.canIssue pe = true →
      (s.engine pe).freeSlot = some k →
      s.mode.inService = true →
      badStaged 4 table data = false →
      s.wayOf table (entryKey table data) = some w →
      Completes (.fwdDelete (.engine pe thread data out) table) s fun t =>
        (t.engine pe).ring = (s.engine pe).ring ++ [⟨tagOf pe k, thread, 3, cplOk, 1, s.workBeat % 65536, out.toNat⟩] ∧
        t.entry table (4 * s.bucket table (entryKey table data) + w) = (s.entry table (4 * s.bucket table (entryKey table data) + w)).set (keyWidth table) 1 0) ∧
  (∀ (s : State) (pe : Fin 16) (thread : Fin 4) (k : Nat) (table : Fin 4) (data : BitVec 128) (out : BitVec 18) (w : Nat),
      s.canIssue pe = true →
      (s.engine pe).freeSlot = some k →
      s.mode.inService = true →
      badStaged 5 table data = false →
      s.wayOf table (entryKey table data) = some w →
      entryStamp (s.entry table (4 * s.bucket table (entryKey table data) + w)) = entryStamp data →
      Completes (.fwdDeleteIfStamp (.engine pe thread data out) table) s fun t =>
        (t.engine pe).ring = (s.engine pe).ring ++ [⟨tagOf pe k, thread, 3, cplOk, 1, s.workBeat % 65536, out.toNat⟩] ∧
        t.entry table (4 * s.bucket table (entryKey table data) + w) = (s.entry table (4 * s.bucket table (entryKey table data) + w)).set (keyWidth table) 1 0) ∧
  (∀ (s : State) (pe : Fin 16) (thread : Fin 4) (k : Nat) (table : Fin 4) (data : BitVec 128) (out : BitVec 18),
      s.canIssue pe = true →
      (s.engine pe).freeSlot = some k →
      s.mode.inService = true →
      data.toNat % 2 ^ 18 < 4 * tableBuckets table →
      Completes (.fwdReadSlot (.engine pe thread data out) table) s fun t =>
        (t.engine pe).ring = (s.engine pe).ring ++ [⟨tagOf pe k, thread, 3, cplOk, 1, s.workBeat % 65536, out.toNat⟩] ∧ t.sramBytes pe out.toNat 16 = leBytes 16 (s.entry table (data.toNat % 2 ^ 18)).toNat) ∧
  (∀ (s : State) (pe : Fin 16) (thread : Fin 4) (k : Nat) (table : Fin 4) (data : BitVec 128) (out : BitVec 18),
      s.canIssue pe = true →
      (s.engine pe).freeSlot = some k →
      s.mode.inService = true →
      Completes (.fwdFlush (.engine pe thread data out) table) s fun t =>
        (t.engine pe).ring = (s.engine pe).ring ++ [⟨tagOf pe k, thread, 3, cplOk, 1, s.workBeat % 65536, out.toNat⟩] ∧
        (∀ e ∈ t.u.fwd.tables, e.1 / 2 ^ 18 = table → entryStatic table e.2 = false → entryValid table e.2 = false)) ∧
  (∀ (s : State) (pe : Fin 16) (thread : Fin 4) (k : Nat) (nsa : BitVec 24) (off : Fin 248) (bytes : List Byte),
      s.canIssue pe = true →
      (s.engine pe).freeSlot = some k →
      off + bytes.length ≤ 248 →
      s.recValid nsa.toNat = true →
      (s.reg MAC_NBR).toNat < 65535 →
      Completes (.recordUpdate pe thread (.change nsa off bytes)) s fun t =>
        (t.engine pe).ring = (s.engine pe).ring ++ [⟨tagOf pe k, thread, 7, cplOk, 0, s.workBeat % 65536, 0⟩] ∧
        (∀ i ∈ List.range bytes.length, t.byte (s.recAddr nsa.toNat + off + i) = bytes.getD i 0))

/-- The delete phase of a sweep, and a block taken from the partner. The delete phase deletes an expired entry that
still stands with its stamp, counts it as aged, and ends the sweep; a resynchronised block takes every entry it
brings. -/
def Obligations.SweepAndResync : Prop :=
  (∀ (s : State) (n : Nat) (e : Entry) (w : Nat),
      s.u.fwd.expired = [(n, e)] →
      s.wayOf n (entryKey n e) = some w →
      entryStamp (s.entry n (4 * s.bucket n (entryKey n e) + w)) = entryStamp e →
      Completes .ageingDeletePhase s fun t =>
        t.u.fwd.expired = [] ∧ t.bit FWD_STATUS_SWEEP = false ∧ t.reg (FWD_TBLn_AGED n) = s.reg (FWD_TBLn_AGED n) + 1 ∧
        entryValid n (t.entry n (4 * s.bucket n (entryKey n e) + w)) = false) ∧
  (∀ (s : State) (b : BlockResync),
      s.u.fwd.resync = [b] →
      Completes .blockResyncApply s fun t =>
        t.u.fwd.resync = [] ∧ t.bit FWD_STATUS_RESYNC = false ∧
        (∀ i ∈ List.range b.entries.length, t.entry b.table (1024 * b.block + i) = b.entries.getD i 0))

/-- An operation an engine issues takes a tag and waits for its accelerator. An engine that can issue and has a free
tag: the operation takes the lowest tag and stands, bound to the beat, behind the operations outstanding. A
redecode of a buffered codeword joins the decode requests as well. -/
def Obligations.IssuedOperations : Prop :=
  (∀ (s : State) (pe : Fin 16) (thread : Fin 4) (k : Nat) (key : KeyName) (addr : BitVec 18) (len : Fin 1025) (out : BitVec 18),
      s.canIssue pe = true →
      (s.engine pe).freeSlot = some k →
      Completes (.ccmSeal pe thread key addr len out) s fun t =>
        t.u.accel.ops = s.u.accel.ops ++ [⟨s.u.accel.next, pe, thread, k, 2, s.workBeat, .seal (keyOf key) addr.toNat len out.toNat, none⟩] ∧ (t.engine pe).slots = (s.engine pe).slots ++ [k]) ∧
  (∀ (s : State) (pe : Fin 16) (thread : Fin 4) (k : Nat) (key : KeyName) (addr : BitVec 18) (len : Fin 1025) (out : BitVec 18),
      s.canIssue pe = true →
      (s.engine pe).freeSlot = some k →
      Completes (.ccmOpen pe thread key addr len out) s fun t =>
        t.u.accel.ops = s.u.accel.ops ++ [⟨s.u.accel.next, pe, thread, k, 2, s.workBeat, .openFrame (keyOf key) addr.toNat len out.toNat, none⟩] ∧ (t.engine pe).slots = (s.engine pe).slots ++ [k]) ∧
  (∀ (s : State) (pe : Fin 16) (thread : Fin 4) (k : Nat) (slot : Fin 1024) (label : BitVec 256),
      s.canIssue pe = true →
      (s.engine pe).freeSlot = some k →
      Completes (.kdfDerive pe thread slot label) s fun t =>
        t.u.accel.ops = s.u.accel.ops ++ [⟨s.u.accel.next, pe, thread, k, 2, s.workBeat, .derive slot (leBytes 32 label.toNat), none⟩] ∧ (t.engine pe).slots = (s.engine pe).slots ++ [k]) ∧
  (∀ (s : State) (pe : Fin 16) (thread : Fin 4) (k : Nat) (slot : Fin 1024) (addr : BitVec 18) (len : BitVec 18) (out : BitVec 18),
      s.canIssue pe = true →
      (s.engine pe).freeSlot = some k →
      Completes (.cmacCompute pe thread slot addr len out) s fun t =>
        t.u.accel.ops = s.u.accel.ops ++ [⟨s.u.accel.next, pe, thread, k, 2, s.workBeat, .cmac slot addr.toNat len.toNat out.toNat, none⟩] ∧ (t.engine pe).slots = (s.engine pe).slots ++ [k]) ∧
  (∀ (s : State) (pe : Fin 16) (thread : Fin 4) (k : Nat) (state : BitVec 18) (block : BitVec 18) (out : BitVec 18),
      s.canIssue pe = true →
      (s.engine pe).freeSlot = some k →
      Completes (.sha256Block pe thread state block out) s fun t =>
        t.u.accel.ops = s.u.accel.ops ++ [⟨s.u.accel.next, pe, thread, k, 2, s.workBeat, .sha state.toNat block.toNat out.toNat, none⟩] ∧ (t.engine pe).slots = (s.engine pe).slots ++ [k]) ∧
  (∀ (s : State) (pe : Fin 16) (thread : Fin 4) (k : Nat) (key : BitVec 18) (sig : BitVec 18) (hash : BitVec 18),
      s.canIssue pe = true →
      (s.engine pe).freeSlot = some k →
      Completes (.ecdsaVerify pe thread key sig hash) s fun t =>
        t.u.accel.ops = s.u.accel.ops ++ [⟨s.u.accel.next, pe, thread, k, 2, s.workBeat, .ecdsa key.toNat sig.toNat hash.toNat, none⟩] ∧ (t.engine pe).slots = (s.engine pe).slots ++ [k]) ∧
  (∀ (s : State) (pe : Fin 16) (thread : Fin 4) (k : Nat) (final : BitVec 24) (out : BitVec 18),
      s.canIssue pe = true →
      (s.engine pe).freeSlot = some k →
      Completes (.routeWalk pe thread final out) s fun t =>
        t.u.accel.ops = s.u.accel.ops ++ [⟨s.u.accel.next, pe, thread, k, 5, s.workBeat, .routeWalk final.toNat out.toNat, none⟩] ∧ (t.engine pe).slots = (s.engine pe).slots ++ [k]) ∧
  (∀ (s : State) (pe : Fin 16) (thread : Fin 4) (k : Nat) (queue : Fin 4096) (start : BitVec 32) (decoder : Fin 80) (cls : Fin 4) (length : Fin 1025),
      s.canIssue pe = true →
      (s.engine pe).freeSlot = some k →
      Completes (.placementRequest pe thread queue start decoder cls length) s fun t =>
        t.u.accel.ops = s.u.accel.ops ++ [⟨s.u.accel.next, pe, thread, k, 6, s.workBeat, .place queue start.toNat decoder cls length, none⟩] ∧ (t.engine pe).slots = (s.engine pe).slots ++ [k]) ∧
  (∀ (s : State) (pe : Fin 16) (thread : Fin 4) (k : Nat) (out : BitVec 18),
      s.canIssue pe = true →
      (s.engine pe).freeSlot = some k →
      Completes (.planQuery pe thread out) s fun t =>
        t.u.accel.ops = s.u.accel.ops ++ [⟨s.u.accel.next, pe, thread, k, 6, s.workBeat, .planQuery out.toNat, none⟩] ∧ (t.engine pe).slots = (s.engine pe).slots ++ [k]) ∧
  (∀ (s : State) (pe : Fin 16) (thread : Fin 4) (k : Nat) (src : CopySide) (dst : CopySide) (len : BitVec 19),
      s.canIssue pe = true →
      (s.engine pe).freeSlot = some k →
      Completes (.envelopeCopy pe thread src dst len) s fun t =>
        t.u.accel.ops = s.u.accel.ops ++ [⟨s.u.accel.next, pe, thread, k, 7, s.workBeat, .copy (endOf src) (endOf dst) len.toNat, none⟩] ∧ (t.engine pe).slots = (s.engine pe).slots ++ [k]) ∧
  (∀ (s : State) (pe : Fin 16) (thread : Fin 4) (k : Nat) (frame : BitVec 32) (codeword : Fin 16) (limit : Fin 33) (out : BitVec 18) (x : Codeword),
      s.canIssue pe = true →
      (s.engine pe).freeSlot = some k →
      ((s.rxFrame frame.toNat).bind fun f => f.cws[codeword.val]?) = some x →
      x.llrs ≠ [] →
      Completes (.ldpcRedecode pe thread frame codeword limit out) s fun t =>
        t.u.accel.ops = s.u.accel.ops ++ [⟨s.u.accel.next, pe, thread, k, 1, s.workBeat, .redecode frame.toNat codeword out.toNat, none⟩] ∧ (t.engine pe).slots = (s.engine pe).slots ++ [k] ∧
        t.u.rx.reqs = s.u.rx.reqs ++ [⟨frame.toNat, codeword, s.workBeat, some s.u.accel.next, limit, x.llrs, none⟩])

/-- An outstanding operation is dispatched, done, and taken by its engine. The cipher first in order goes to the
lowest free core with its key; an operation done leaves the outstanding ones with one completion in its engine's
ring and its result where it was asked; an engine that takes a completion frees its tag. -/
def Obligations.OperationsEnd : Prop :=
  (∀ (s : State) (o : Op) (core : Nat) (slot : Nat) (label : List Byte) (key : List Nat),
      s.nextCipher = some o →
      s.freeAes = some core →
      o.work = .derive slot label →
      (s.slot slot).state = .valid →
      s.cached slot label = some key →
      Completes (.cipherDispatch false) s fun t =>
        t.u.accel.ops = s.u.accel.ops.map (fun q => if q.id = o.id then { q with fetch := some ⟨core, slot, [], 0⟩ } else q) ∧
        t.reg SEC_CACHE_HIT = s.reg SEC_CACHE_HIT + 1) ∧
  (∀ (s : State) (pe : Fin 16) (slot : Fin 48) (o : Op) (q : Nat) (start : Nat) (d : Nat) (c : Nat) (l : Nat),
      s.opAt pe slot = some o →
      s.shadows = false →
      s.bit PWR_STATUS_CHANGING = false →
      o.work = .place q start d c l →
      Completes (.opCompletion pe slot []) s fun t =>
        t.u.accel.ops = s.u.accel.ops.filter (fun p => !(p.id == o.id)) ∧
        (t.engine pe).ring = (s.engine pe).ring ++ [⟨tagOf pe slot, o.thread, o.cls, cplOk, 0, o.beat % 65536, 0⟩] ∧
        (t.queue q).packets = (s.queue q).packets.map (fun p => if p.start = start then { p with decoder := some d, cls := c, length := l } else p)) ∧
  (∀ (s : State) (pe : Fin 16) (slot : Fin 48) (o : Op) (a : Nat) (b : Nat) (len : Nat),
      s.opAt pe slot = some o →
      s.shadows = false →
      s.bit PWR_STATUS_CHANGING = false →
      o.work = .copy (.envelope a) (.envelope b) len →
      len < 2 ^ 19 →
      Completes (.opCompletion pe slot []) s fun t =>
        t.u.accel.ops = s.u.accel.ops.filter (fun p => !(p.id == o.id)) ∧
        (t.engine pe).ring = (s.engine pe).ring ++ [⟨tagOf pe slot, o.thread, o.cls, cplOk, 0, o.beat % 65536, 0⟩] ∧ t.bytes b len = s.bytes a len) ∧
  (∀ (s : State) (pe : Fin 16) (slot : Fin 48) (o : Op) (f : Fetch) (k : Nat) (a : Nat) (len : Nat) (out : Nat),
      s.opAt pe slot = some o →
      s.shadows = false →
      s.bit PWR_STATUS_CHANGING = false →
      o.work = .cmac k a len out →
      o.fetch = some f →
      Completes (.opCompletion pe slot []) s fun t =>
        t.u.accel.ops = s.u.accel.ops.filter (fun p => !(p.id == o.id)) ∧
        (t.engine pe).ring = (s.engine pe).ring ++ [⟨tagOf pe slot, o.thread, o.cls, cplOk, 1, o.beat % 65536, out⟩] ∧
        t.u.accel.sram = sramPut pe out (bytesOfNat (Crypto.cmac f.key (natBytes (s.sramBytes pe a len)))) s.u.accel.sram) ∧
  (∀ (s : State) (pe : Fin 16) (slot : Fin 48) (o : Op) (final : Nat) (out : Nat),
      s.opAt pe slot = some o →
      s.shadows = false →
      s.bit PWR_STATUS_CHANGING = false →
      o.work = .routeWalk final out →
      (s.walk final fun _ => false).reason = 0 →
      Completes (.opCompletion pe slot []) s fun t =>
        t.u.accel.ops = s.u.accel.ops.filter (fun p => !(p.id == o.id)) ∧
        (t.engine pe).ring = (s.engine pe).ring ++ [⟨tagOf pe slot, o.thread, o.cls, cplOk, 1, o.beat % 65536, out⟩] ∧
        t.u.accel.sram = sramPut pe out (s.walk final fun _ => false).bytes s.u.accel.sram ∧ t.reg FWD_RW_OK = s.reg FWD_RW_OK + 1) ∧
  (∀ (s : State) (pe : Fin 16) (slot : Fin 48) (o : Op) (st : Nat) (blk : Nat) (out : Nat),
      s.opAt pe slot = some o →
      s.shadows = false →
      s.bit PWR_STATUS_CHANGING = false →
      o.work = .sha st blk out →
      s.u.accel.ops = [o] →
      Completes (.opCompletion pe slot []) s fun t =>
        t.u.accel.ops = s.u.accel.ops.filter (fun p => !(p.id == o.id)) ∧
        (t.engine pe).ring = (s.engine pe).ring ++ [⟨tagOf pe slot, o.thread, o.cls, cplOk, 1, o.beat % 65536, out⟩]) ∧
  (∀ (s : State) (pe : Fin 16) (slot : Fin 48),
      ((s.engine pe).ring.any fun c => c.tag == tagOf pe slot) = true →
      Completes (.completionTake pe slot) s fun t =>
        (t.engine pe).ring = (s.engine pe).ring.filter (fun c => !(c.tag == tagOf pe slot)) ∧ (t.engine pe).slots = (s.engine pe).slots.filter (fun k => !(k == slot.val)))

/-- The queue operations of a hardware port. A hardware port that holds its end of a queue: ENQ of a one-word packet
with room commits it; ABORT drops the open packet and counts it; DEQ moves RPTR past the words it reads; MARK,
REWIND and RELEASE move MARK, RPTR, and HEAD with MARK. -/
def Obligations.QueueOperationsOfPorts : Prop :=
  (∀ (s : State) (code : Fin 10) (queue : Fin 4096) (next : Bool) (headend : Fin 16) (x : WordIn) (v : QWord),
      s.mode.inService = true →
      s.portIs ((s.queue queue).producer) (.hard code) = true →
      QWord.of x.data x.tag.toNat x.par = v →
      v.valid = true →
      v.first = true →
      v.last = true →
      v.parOk = true →
      (s.queue queue).discarding = false →
      (s.queue queue).wptr = (s.queue queue).cptr →
      ((s.queue queue).wptr - (s.queue queue).headB).toNat < (s.queue queue).limit →
      Completes (.enq (.hard code) queue next headend [x]) s fun t =>
        (t.queue queue).words = (s.queue queue).words ++ [v] ∧ (t.queue queue).wptr = (s.queue queue).wptr + 1 ∧ (t.queue queue).cptr = (s.queue queue).wptr + 1) ∧
  (∀ (s : State) (code : Fin 10) (queue : Fin 4096),
      s.mode.inService = true →
      s.portIs ((s.queue queue).producer) (.hard code) = true →
      (s.queue queue).wptr ≠ (s.queue queue).cptr →
      Completes (.abort (.hard code) queue) s fun t =>
        (t.queue queue).wptr = (s.queue queue).cptr ∧ t.reg ENV_ABORTS = s.reg ENV_ABORTS + 1) ∧
  (∀ (s : State) (code : Fin 10) (queue : Fin 4096) (n : Fin 16) (stop : Bool) (out : BitVec 18),
      s.mode.inService = true →
      s.portIs ((s.queue queue).consumer) (.hard code) = true →
      Completes (.deq (.hard code) queue n stop out []) s fun t =>
        (t.queue queue).rptr = (s.queue queue).rptr + BitVec.ofNat 32 ((s.queue queue).readable (n.val + 1) stop).length) ∧
  (∀ (s : State) (code : Fin 10) (queue : Fin 4096),
      s.mode.inService = true →
      s.portIs ((s.queue queue).consumer) (.hard code) = true →
      Completes (.mark (.hard code) queue) s fun t =>
        (t.queue queue).mark = (s.queue queue).rptr) ∧
  (∀ (s : State) (code : Fin 10) (queue : Fin 4096),
      s.mode.inService = true →
      s.portIs ((s.queue queue).consumer) (.hard code) = true →
      Completes (.rewind (.hard code) queue) s fun t =>
        (t.queue queue).rptr = (s.queue queue).mark) ∧
  (∀ (s : State) (code : Fin 10) (queue : Fin 4096),
      s.mode.inService = true →
      s.portIs ((s.queue queue).consumer) (.hard code) = true →
      Completes (.release (.hard code) queue) s fun t =>
        (t.queue queue).head = (s.queue queue).rptr ∧ (t.queue queue).mark = (s.queue queue).rptr)

/-- The queue operations of an engine. The same operations issued by an engine that uses the port of that end and
has a free tag, each with its completion. -/
def Obligations.QueueOperationsOfEngines : Prop :=
  (∀ (s : State) (pe : Fin 16) (thread : Fin 4) (k : Nat) (queue : Fin 4096) (next : Bool) (headend : Fin 16) (x : WordIn) (v : QWord),
      s.canIssue pe = true →
      (s.engine pe).freeSlot = some k →
      s.portIs ((s.queue queue).producer) (.spool pe thread) = true →
      QWord.of x.data x.tag.toNat x.par = v →
      v.valid = true →
      v.first = true →
      v.last = true →
      v.parOk = true →
      (s.queue queue).discarding = false →
      (s.queue queue).wptr = (s.queue queue).cptr →
      ((s.queue queue).wptr - (s.queue queue).headB).toNat < (s.queue queue).limit →
      Completes (.enq (.spool pe thread) queue next headend [x]) s fun t =>
        (t.queue queue).words = (s.queue queue).words ++ [v] ∧ (t.queue queue).wptr = (s.queue queue).wptr + 1 ∧ (t.queue queue).cptr = (s.queue queue).wptr + 1 ∧
        (t.engine pe).ring = (s.engine pe).ring ++ [⟨tagOf pe k, thread, 4, cplOk, 0, s.workBeat % 65536, 1⟩]) ∧
  (∀ (s : State) (pe : Fin 16) (thread : Fin 4) (k : Nat) (queue : Fin 4096),
      s.canIssue pe = true →
      (s.engine pe).freeSlot = some k →
      s.portIs ((s.queue queue).producer) (.spool pe thread) = true →
      (s.queue queue).wptr ≠ (s.queue queue).cptr →
      Completes (.abort (.spool pe thread) queue) s fun t =>
        (t.queue queue).wptr = (s.queue queue).cptr ∧ t.reg ENV_ABORTS = s.reg ENV_ABORTS + 1 ∧
        (t.engine pe).ring = (s.engine pe).ring ++ [⟨tagOf pe k, thread, 4, cplOk, 0, s.workBeat % 65536, 0⟩]) ∧
  (∀ (s : State) (pe : Fin 16) (thread : Fin 4) (k : Nat) (queue : Fin 4096) (n : Fin 16) (stop : Bool) (out : BitVec 18),
      s.canIssue pe = true →
      (s.engine pe).freeSlot = some k →
      s.portIs ((s.queue queue).consumer) (.spool pe thread) = true →
      ((s.queue queue).readable (n.val + 1) stop).all (fun x => !x.poison) = true →
      (s.queue queue).skipping = false →
      Completes (.deq (.spool pe thread) queue n stop out []) s fun t =>
        (t.queue queue).rptr = (s.queue queue).rptr + BitVec.ofNat 32 ((s.queue queue).readable (n.val + 1) stop).length ∧
        (t.engine pe).ring = (s.engine pe).ring ++ [⟨tagOf pe k, thread, 4, cplOk, 1, s.workBeat % 65536, ((s.queue queue).readable (n.val + 1) stop).length⟩]) ∧
  (∀ (s : State) (pe : Fin 16) (thread : Fin 4) (k : Nat) (queue : Fin 4096),
      s.canIssue pe = true →
      (s.engine pe).freeSlot = some k →
      s.portIs ((s.queue queue).consumer) (.spool pe thread) = true →
      Completes (.mark (.spool pe thread) queue) s fun t =>
        (t.queue queue).mark = (s.queue queue).rptr ∧
        (t.engine pe).ring = (s.engine pe).ring ++ [⟨tagOf pe k, thread, 4, cplOk, 0, s.workBeat % 65536, 0⟩]) ∧
  (∀ (s : State) (pe : Fin 16) (thread : Fin 4) (k : Nat) (queue : Fin 4096),
      s.canIssue pe = true →
      (s.engine pe).freeSlot = some k →
      s.portIs ((s.queue queue).consumer) (.spool pe thread) = true →
      Completes (.rewind (.spool pe thread) queue) s fun t =>
        (t.queue queue).rptr = (s.queue queue).mark ∧
        (t.engine pe).ring = (s.engine pe).ring ++ [⟨tagOf pe k, thread, 4, cplOk, 0, s.workBeat % 65536, 0⟩]) ∧
  (∀ (s : State) (pe : Fin 16) (thread : Fin 4) (k : Nat) (queue : Fin 4096),
      s.canIssue pe = true →
      (s.engine pe).freeSlot = some k →
      s.portIs ((s.queue queue).consumer) (.spool pe thread) = true →
      Completes (.release (.spool pe thread) queue) s fun t =>
        (t.queue queue).head = (s.queue queue).rptr ∧ (t.queue queue).mark = (s.queue queue).rptr ∧
        (t.engine pe).ring = (s.engine pe).ring ++ [⟨tagOf pe k, thread, 4, cplOk, 0, s.workBeat % 65536, 0⟩])

/-- The queue commands, the patrol scrubber and the pin hold time. READ_CFG and READ_STATE stand ready to be shown,
WRITE_CFG takes the limit, group and watermarks, FLUSH empties the queue and sets its six pointers together, by
register or by ring; the end posts status and VALID; a burst moves the scrubber on and is counted; a pin whose
hold time ends follows its group. -/
def Obligations.QueueCommandsAndScrubbing : Prop :=
  (∀ (s : State) (iface : HostIface) (queue : Fin 4096),
      s.reaches iface = true →
      s.permits ENV_QCMD = true →
      s.bit ENV_QCMD_STAT_BUSY = false →
      s.mode.inService = true →
      (s.queue queue).producer ≠ 0 →
      Completes (.queueReadCfg iface queue) s fun t =>
        t.bit ENV_QCMD_STAT_BUSY = true ∧ t.u.env.cmd = some ⟨0, [(s.queue queue).limit + 2 ^ 24 * (s.queue queue).group + 2 ^ 27 * (if (s.queue queue).fcEn then 1 else 0) + 2 ^ 28 * (if (s.queue queue).deferred then 1 else 0),
          (s.queue queue).hi, (s.queue queue).lo, (s.queue queue).producer + 256 * (s.queue queue).consumer]⟩) ∧
  (∀ (s : State) (iface : HostIface) (queue : Fin 4096),
      s.reaches iface = true →
      s.permits ENV_QCMD = true →
      s.bit ENV_QCMD_STAT_BUSY = false →
      s.mode.inService = true →
      (s.queue queue).producer ≠ 0 →
      Completes (.queueReadState iface queue) s fun t =>
        t.bit ENV_QCMD_STAT_BUSY = true ∧ t.u.env.cmd = some ⟨0, [(s.queue queue).head.toNat, (s.queue queue).mark.toNat, (s.queue queue).rptr.toNat, (s.queue queue).tail.toNat, (s.queue queue).cptr.toNat, (s.queue queue).wptr.toNat,
          (if (s.queue queue).wptr = (s.queue queue).cptr then 0 else 1) + (if (s.queue queue).fc then 2 else 0), (s.queue queue).pages.length]⟩) ∧
  (∀ (s : State) (iface : HostIface) (queue : Fin 4096),
      s.reaches iface = true →
      s.permits ENV_QCMD = true →
      s.bit ENV_QCMD_STAT_BUSY = false →
      s.mode.inService = true →
      (s.queue queue).producer ≠ 0 →
      s.mode.paired = false →
      s.badQueueCfg queue (s.reg (ENV_QDATAx 0)).toNat (s.reg (ENV_QDATAx 1)).toNat (s.reg (ENV_QDATAx 2)).toNat (s.reg (ENV_QDATAx 3)).toNat = false →
      Completes (.queueWriteCfg (.register iface) queue) s fun t =>
        t.bit ENV_QCMD_STAT_BUSY = true ∧ (t.queue queue).limit = (s.reg (ENV_QDATAx 0)).toNat % 2 ^ 24 ∧ (t.queue queue).group = (s.reg (ENV_QDATAx 0)).toNat / 2 ^ 24 % 8 ∧
        (t.queue queue).hi = (s.reg (ENV_QDATAx 1)).toNat % 2 ^ 24 ∧ (t.queue queue).lo = (s.reg (ENV_QDATAx 2)).toNat % 2 ^ 24) ∧
  (∀ (s : State) (iface : HostIface) (queue : Fin 4096),
      s.reaches iface = true →
      s.permits ENV_QCMD = true →
      s.bit ENV_QCMD_STAT_BUSY = false →
      s.mode.inService = true →
      (s.queue queue).producer ≠ 0 →
      s.mode.paired = false →
      Completes (.queueFlush (.register iface) queue) s fun t =>
        t.bit ENV_QCMD_STAT_BUSY = true ∧ (t.queue queue).head = (s.queue queue).cptr ∧ (t.queue queue).mark = (s.queue queue).cptr ∧ (t.queue queue).rptr = (s.queue queue).cptr ∧ (t.queue queue).tail = (s.queue queue).cptr ∧ (t.queue queue).cptr = (s.queue queue).cptr ∧ (t.queue queue).wptr = (s.queue queue).cptr ∧ (t.queue queue).words = []) ∧
  (∀ (s : State) (index : Fin 4096) (c : HostCmd) (queue : Fin 4096),
      s.cmdAt index (fun o => o == 0x0202) = some c →
      c.mirrored = false →
      c.arg 0 2 = queue →
      s.mode.inService = true →
      (s.queue queue).producer ≠ 0 →
      s.badQueueCfg queue (c.arg 4 4) (c.arg 8 4) (c.arg 12 4) (c.arg 16 4) = false →
      Completes (.queueWriteCfg (.ring index) queue) s fun t =>
        (t.queue queue).limit = (c.arg 4 4) % 2 ^ 24 ∧ (t.queue queue).hi = (c.arg 8 4) % 2 ^ 24 ∧ (t.queue queue).lo = (c.arg 12 4) % 2 ^ 24 ∧ Finished c s t) ∧
  (∀ (s : State) (index : Fin 4096) (c : HostCmd) (queue : Fin 4096),
      s.cmdAt index (fun o => o == 0x0204) = some c →
      c.mirrored = false →
      c.arg 0 2 = queue →
      s.mode.inService = true →
      (s.queue queue).producer ≠ 0 →
      Completes (.queueFlush (.ring index) queue) s fun t =>
        (t.queue queue).head = (s.queue queue).cptr ∧ (t.queue queue).mark = (s.queue queue).cptr ∧ (t.queue queue).rptr = (s.queue queue).cptr ∧ (t.queue queue).tail = (s.queue queue).cptr ∧ (t.queue queue).cptr = (s.queue queue).cptr ∧ (t.queue queue).wptr = (s.queue queue).cptr ∧ (t.queue queue).words = [] ∧ Finished c s t) ∧
  (∀ (s : State) (c : QCmd),
      s.u.env.cmd = some c →
      Completes .envQcmdComplete s fun t =>
        t.bit ENV_QCMD_STAT_BUSY = false ∧ t.bit ENV_QCMD_STAT_VALID = true ∧ t.u.env.cmd = none ∧ t.fld ENV_QCMD_STAT_STATUS = c.status % 2 ^ ENV_QCMD_STAT_STATUS.width) ∧
  (∀ (s : State) (corrected : Bool) (uncorrectable : Bool),
      s.bit ENV_ECC_CFG_SCRUB_EN = true →
      s.mode.inService = true →
      s.u.env.scrubAt + 1 ≠ bursts →
      Completes (.scrubBurst corrected uncorrectable) s fun t =>
        t.u.env.scrubAt = s.u.env.scrubAt + 1 ∧ t.bit ENV_STATUS_SCRUBBING = true ∧
        (corrected = true → t.reg ENV_ECC_CORR = satNext (s.reg ENV_ECC_CORR)) ∧ (uncorrectable = true → t.reg ENV_ECC_UNC = satNext (s.reg ENV_ECC_UNC))) ∧
  (∀ (s : State) (group : Fin 8) (b : Bool),
      s.u.env.fcHold = [(group.val, b)] →
      s.mode.runs = true →
      group.val < 4 →
      Nat.testBit (s.fld ENV_FC_CTL_EN) group = true →
      s.groupState group = true →
      Completes (.fcHoldExpiry group) s fun t =>
        Nat.testBit (t.fld ENV_FC_STATE_ASSERTED) group = true)

/-- The time keeper: seconds, the increment, steps, servo states, captures and requests. A second loads the AON
count; a second residue failure in a row is a FAULT; an armed GO waits for its boundary; the increment is
clamped; a servo write and the two expiries move STATE and TRACE; an enabled edge is captured; a request posts
what it asked for. -/
def Obligations.TimeKeeper : Prop :=
  (∀ (s : State) (edges : BitVec 40) (nap : Fin 101),
      s.bit TK_STATUS_RUNNING = true →
      Completes (.timeSecond edges nap) s fun t =>
        t.u.tk.aonS = (s.u.tk.tick edges.toNat).s ∧ t.u.tk.aonFr = 0 ∧ t.u.pair.upSeconds = s.u.pair.upSeconds + 1) ∧
  (∀ (s : State),
      Completes .ppsFall s fun t =>
        t.u.tk.pps = false) ∧
  (∀ (s : State),
      Completes .beatOutFall s fun t =>
        t.u.tk.beatOut = false) ∧
  (∀ (s : State) (again : Bool),
      s.bit TK_STATUS_RUNNING = true →
      Completes (.timeResidueFail again) s fun t =>
        (again = false → t.reg TK_RESIDUE_FIX = satNext (s.reg TK_RESIDUE_FIX)) ∧
        (again = true → t.fld TK_STATUS_STATE = tkFault ∧ t.bit TK_STATUS_TRACE = false ∧ t.reg TK_ARITH_FAULT = satNext (s.reg TK_ARITH_FAULT))) ∧
  (∀ (s : State) (src : Option HostIface) (value : BitVec 32),
      (match src with | none => true | some i => s.reaches i && s.permits TK_STEP_CMD) = true →
      Nat.testBit value.toNat 0 = true →
      s.bit TK_STATUS_STEP_BUSY = false →
      s.fld TK_STEP_NS_NS < 1000000000 →
      s.bit TK_STATUS_ARMED = true →
      s.bit BT_STATUS_RUNNING = true →
      Completes (.tkStepGo src value) s fun t =>
        t.u.tk.step = some s.stepOffset ∧ t.bit TK_STATUS_STEP_BUSY = true ∧ t.bit TK_STATUS_ARMED = false) ∧
  (∀ (s : State) (iface : HostIface),
      s.reaches iface = true →
      s.permits TK_REARM = true →
      s.armed TK_REARM = some 0x5A5A0003 →
      s.bit TK_STATUS_STEP_BUSY = false →
      Completes (.tkRearm iface (~~~0x5A5A0003)) s fun t =>
        t.bit TK_STATUS_ARMED = true ∧ t.fld (guardResult TK_REARM) = grdAccepted ∧ t.armed TK_REARM = none) ∧
  (∀ (s : State) (src : Option HostIface) (value : BitVec 32) (edges : BitVec 40),
      (match src with | none => true | some i => s.reaches i && s.permits TK_INCR_INT) = true →
      Completes (.tkIncrWrite src value edges) s fun t =>
        t.u.tk.inc = clampInc (value.toNat % 256 * 2 ^ 32 + (s.reg TK_INCR_FRAC).toNat)) ∧
  (∀ (s : State) (src : Option HostIface) (value : BitVec 32),
      (match src with | none => true | some i => s.reaches i && s.permits TK_SERVO) = true →
      fieldOf value 0 2 ≠ 3 →
      Completes (.tkServoWrite src value) s fun t =>
        t.reg TK_SERVO = storedValue TK_SERVO value ∧ t.fld TK_STATUS_STATE = fieldOf (storedValue TK_SERVO value) 0 2) ∧
  (∀ (s : State),
      s.fld TK_STATUS_STATE = tkLocked →
      Completes .servoWatchdogExpiry s fun t =>
        t.fld TK_STATUS_STATE = tkHoldover ∧ t.bit TK_STATUS_TRACE = true ∧ t.u.tk.holdTrace = true) ∧
  (∀ (s : State),
      s.fld TK_STATUS_STATE = tkHoldover →
      s.u.tk.holdTrace = true →
      Completes .holdoverTraceExpiry s fun t =>
        t.bit TK_STATUS_TRACE = false ∧ t.u.tk.holdTrace = false) ∧
  (∀ (s : State) (input : Fin 4) (rising : Bool) (edges : BitVec 40) (phase : Fin 4),
      s.bit TK_STATUS_RUNNING = true →
      s.fld (TK_TSI_CFG_EDGE input) = 3 →
      s.u.tk.tsiLast.get? input = none →
      (s.u.tk.fifos.getD input []).length < 16 →
      Completes (.tsiEdge input rising edges phase) s fun t =>
        t.u.tk.fifos.getD input [] = s.u.tk.fifos.getD input [] ++ [⟨((s.u.tk.tick edges.toNat).ns + phase - s.fld (TK_TSI_DELAY_n input)) / 1000000000,
          ((s.u.tk.tick edges.toNat).ns + phase - s.fld (TK_TSI_DELAY_n input)) % 1000000000, rising, s.u.tk.lost.getD input false, s.u.tk.seqs.getD input 0⟩] ∧
        t.reg (TK_CAPn input) = s.reg (TK_CAPn input) + 1) ∧
  (∀ (s : State) (iface : HostIface) (value : BitVec 32) (c : Capture) (rest : List Capture),
      s.reaches iface = true →
      s.permits TK_CAP_REQ = true →
      s.bit (TK_TSI_CFG_SERVO (fieldOf value 0 2)) = false →
      s.u.tk.fifos.getD (fieldOf value 0 2) [] = c :: rest →
      Completes (.tkCapReq iface value) s fun t =>
        t.u.tk.fifos.getD (fieldOf value 0 2) [] = rest ∧ t.reg TK_CAP_S_LO = BitVec.ofNat 32 c.s ∧ t.reg TK_CAP_NS = BitVec.ofNat 32 c.n ∧
        t.reg TK_CAP_REQ = BitVec.ofNat 32 (fieldOf value 0 2 + 2 ^ 31)) ∧
  (∀ (s : State) (iface : HostIface) (edges : BitVec 40),
      s.reaches iface = true →
      s.permits TK_TIME_REQ = true →
      s.bit TK_STATUS_RUNNING = true →
      Completes (.tkTimeReq iface edges) s fun t =>
        t.reg TK_TIME_S_LO = BitVec.ofNat 32 (s.u.tk.tick edges.toNat).s ∧ t.reg TK_TIME_NS = BitVec.ofNat 32 (s.u.tk.tick edges.toNat).n ∧
        t.reg TK_TIME_REQ = 0x80000000)

/-- Selection, credit, residues and the snapshots of the scheduler and the beat. A free port without a choice takes
the packet of the flow its scheduler chose; a microsecond moves every shaped credit; a residue mismatch is
repaired, a second marks the domain; a snapshot request posts its values with VALID. -/
def Obligations.Scheduling : Prop :=
  (∀ (s : State) (port : EthPort) (c : Nat) (fin : Nat) (h : PacketInfo) (q : Nat),
      s.portFree port = true →
      (s.u.eth.port port.idx).chosen = none →
      s.uplinkChoice port.idx = some (c, fin) →
      s.flowHead port.idx c = some h →
      s.classQueue port.idx c = some q →
      Completes (.uplinkSelect port) s fun t =>
        ((t.u.eth.port port.idx).chosen.map fun x => (x.1, x.2.1)) = some (q, h.start) ∧ h.start ∈ (t.flow port.idx c).selected ∧
        t.virt port.idx = later (s.virt port.idx) fin ∧ t.reg (SCH_ULk_SENT (8 * port.idx + c)) = s.reg (SCH_ULk_SENT (8 * port.idx + c)) + 1) ∧
  (∀ (s : State) (k : Fin 16),
      s.bit TK_STATUS_RUNNING = true →
      s.mode.inService = true →
      s.bit (SCH_ULk_CFG_SHAPE_EN k) = true →
      Completes .shaperTick s fun t =>
        t.credit k = creditTick (s.credit k) (s.fld (SCH_ULk_SLOPE_IDLE_SLOPE k)) (s.classSending k || s.classVisible k)) ∧
  (∀ (s : State) (domain : Fin 4) (second : Bool),
      Completes (.residueMismatch domain second) s fun t =>
        (second = false → t.reg SCH_RESIDUE_FIX = satNext (s.reg SCH_RESIDUE_FIX)) ∧
        (second = true → t.rebuilding domain = true ∧ t.reg SCH_ARITH_FAULT = satNext (s.reg SCH_ARITH_FAULT))) ∧
  (∀ (s : State) (iface : HostIface) (value : BitVec 32),
      s.reaches iface = true →
      s.permits SCH_SNAP_REQ = true →
      Completes (.schSnapshotReq iface value) s fun t =>
        t.reg SCH_SNAP_V_LO = BitVec.ofNat 32 (s.virt (fieldOf value 0 2)) ∧ t.reg SCH_SNAP_V_HI = BitVec.ofNat 32 (s.virt (fieldOf value 0 2) / 2 ^ 32) ∧
        Nat.testBit (t.reg SCH_SNAP_REQ).toNat 31 = true) ∧
  (∀ (s : State) (iface : HostIface),
      s.reaches iface = true →
      s.permits BT_BEAT_REQ = true →
      Completes (.beatSnapshotReq iface) s fun t =>
        t.reg BT_BEAT_REQ = 1 ∧ t.reg BT_BEAT_LO = BitVec.ofNat 32 s.u.bt.beat ∧ t.reg BT_SAMPLE_LO = BitVec.ofNat 32 s.u.bt.sample)

/-- The key commands of the ring start a slot change. UNWRAP_TO_SLOT with a blob that verifies, DERIVE_TO_SLOT,
RESTRICT and ERASE on a slot that is not LOCKED and has no change under way leave the slot draining, with the
change that waits for its last holder and completes the command. -/
def Obligations.KeyCommands : Prop :=
  (∀ (s : State) (index : Fin 4096) (c : HostCmd),
      s.cmdAt index (fun o => o == 0x0501) = some c →
      c.mirrored = false →
      (c.arg 0 2) < 1024 →
      s.slotBusy (c.arg 0 2) = false →
      s.mode.runs = true →
      s.usable (c.arg 2 2) 5 = true →
      (s.slot (c.arg 2 2)).depth < 3 →
      (s.slot (c.arg 0 2)).has 8 = false →
      permsWithin (permsOf (c.arg 4 4)) (permsOf (s.slot (c.arg 2 2)).attr) = true →
      s.tagOk (c.arg 2 2) = true →
      Nat.testBit (c.arg 4 4) 6 = false →
      Nat.testBit (c.arg 4 4) 7 = false →
      Completes (.unwrapToSlot index) s fun t =>
        if (Crypto.kwUnwrap (s.slot (c.arg 2 2)).bytes (natBytes ((c.args.drop 8).take 24))).isSome then (t.slot (c.arg 0 2)).state = .draining ∧ ∃ x ∈ t.u.sec.writes, x.slot = (c.arg 0 2) ∧ x.draining = true ∧ x.cmd = some c.seq ∧
          (x.shadow.map fun k => (k.key, k.parent)) = some (leValue (bytesOfNat ((Crypto.kwUnwrap (s.slot (c.arg 2 2)).bytes (natBytes ((c.args.drop 8).take 24))).getD [])), c.arg 2 2)
        else t.reg SEC_UNWRAP_FAILS = satNext (s.reg SEC_UNWRAP_FAILS) ∧ Finished c s t) ∧
  (∀ (s : State) (index : Fin 4096) (c : HostCmd),
      s.cmdAt index (fun o => o == 0x0502) = some c →
      c.mirrored = false →
      (c.arg 0 2) < 1024 →
      s.slotBusy (c.arg 0 2) = false →
      s.mode.runs = true →
      s.usable (c.arg 2 2) 3 = true →
      (s.slot (c.arg 2 2)).depth < 3 →
      (s.slot (c.arg 0 2)).has 8 = false →
      permsWithin (permsOf (c.arg 4 4)) (permsOf (s.slot (c.arg 2 2)).attr) = true →
      s.tagOk (c.arg 2 2) = true →
      Nat.testBit (c.arg 4 4) 7 = false →
      Completes (.deriveToSlot index) s fun t =>
        (t.slot (c.arg 0 2)).state = .draining ∧ t.reg SEC_DERIVE = s.reg SEC_DERIVE + 1 ∧ ∃ x ∈ t.u.sec.writes, x.slot = (c.arg 0 2) ∧ x.draining = true ∧ x.cmd = some c.seq) ∧
  (∀ (s : State) (index : Fin 4096) (c : HostCmd),
      s.cmdAt index (fun o => o == 0x0503) = some c →
      c.mirrored = false →
      (c.arg 0 2) < 1024 →
      s.slotBusy (c.arg 0 2) = false →
      s.mode.runs = true →
      (s.slot (c.arg 0 2)).state = .valid →
      (s.slot (c.arg 0 2)).has 8 = false →
      (s.slot (c.arg 0 2)).has 7 = false →
      Completes (.restrict index) s fun t =>
        (t.slot (c.arg 0 2)).state = .draining ∧ ∃ x ∈ t.u.sec.writes, x.slot = (c.arg 0 2) ∧ x.draining = true ∧ x.cmd = some c.seq) ∧
  (∀ (s : State) (index : Fin 4096) (c : HostCmd),
      s.cmdAt index (fun o => o == 0x0504) = some c →
      c.mirrored = false →
      (c.arg 0 2) < 1024 →
      s.slotBusy (c.arg 0 2) = false →
      s.mode.runs = true →
      (s.slot (c.arg 0 2)).has 8 = false →
      Completes (.erase index) s fun t =>
        (t.slot (c.arg 0 2)).state = .draining ∧ ∃ x ∈ t.u.sec.writes, x.slot = (c.arg 0 2) ∧ x.draining = true ∧ x.cmd = some c.seq) ∧
  (∀ (s : State) (source : Fin 1024),
      s.mode.runs = true →
      (s.slot source).parent ≠ 0xFFFF →
      s.bit SEC_ROOTMAP_PAIR_WRAP_EN = true →
      (s.slot source).state = .valid →
      s.usable (s.fld SEC_ROOTMAP_PAIR_WRAP) 4 = true →
      s.tagOk (s.fld SEC_ROOTMAP_PAIR_WRAP) = true →
      s.bit PAIR_STATUS_LINK_UP = true →
      Completes (.wrapToPartner source) s fun t =>
        t.u.pair.out.length = s.u.pair.out.length + 1 ∧ t.u.pair.lseq = (s.u.pair.lseq + 1) % 2 ^ 32) ∧
  (∀ (s : State) (slot : Fin 1024) (x : SlotWrite) (k : KeySlot),
      s.u.sec.writes = [x] →
      x.slot = slot →
      x.draining = false →
      x.shadow = some k →
      Completes (.slotPersistConfirmed slot true) s fun t =>
        t.u.sec.writes = [{ x with draining := true }] ∧ (t.slot slot).state = .draining ∧ t.u.boot.flash = s.u.boot.flash.writeKey slot k) ∧
  (∀ (s : State) (slot : Fin 1024) (x : SlotWrite) (k : KeySlot),
      (s.u.sec.writes.find? fun w => w.slot == slot.val && w.draining) = some x →
      x.shadow = some k →
      s.slotHolders slot = 0 →
      Completes (.slotDrainDone slot) s fun t =>
        t.slot slot = k ∧ t.u.sec.writes = s.u.sec.writes.filter (fun v => !(v.slot == slot.val))) ∧
  (∀ (s : State),
      s.u.sec.roll = some false →
      max s.epoch s.u.sec.rollFrom < 0xFFFF →
      Completes (.epochWriteConfirmed true) s fun t =>
        t.u.sec.roll = some true ∧ t.u.boot.flash = s.u.boot.flash.addEpoch (fieldOf (s.reg SEC_EPOCH) 16 16) (max s.epoch s.u.sec.rollFrom + 1))

/-- Tamper inputs, slot queries, fuse programming and debug access. A tamper ball starts or stops its debounce;
debounced in a running mode, written to SEC_ZEROISE, or at debug access the store is zeroised, the latch set and
HOLD entered; SEC_TAMPER_CLR with no cause present resets into ROM; slot queries and fuse reads post their
values; an allowed row or state starts programming, which ends with the bits that read 1. -/
def Obligations.TamperAndFuses : Prop :=
  (∀ (s : State) (pin : Fin 2) (high : Bool),
      Completes (.tamperPinEdge pin high) s fun t =>
        (pin.val = 0 → t.u.pins.tamper0 = (high != s.bit SEC_TAMPER_CFG_T0_LOW) ∧
          t.u.sec.deb0 = ((high != s.bit SEC_TAMPER_CFG_T0_LOW) && s.bit SEC_TAMPER_CFG_T0_EN)) ∧
        (pin.val = 1 → t.u.pins.tamper1 = (high != s.bit SEC_TAMPER_CFG_T1_LOW) ∧
          t.u.sec.deb1 = ((high != s.bit SEC_TAMPER_CFG_T1_LOW) && s.bit SEC_TAMPER_CFG_T1_EN))) ∧
  (∀ (s : State) (pin : Fin 2),
      (if pin.val = 0 then s.u.sec.deb0 && s.bit SEC_TAMPER_CFG_T0_EN else s.u.sec.deb1 && s.bit SEC_TAMPER_CFG_T1_EN) = true →
      s.mode = .solo →
      Completes (.tamperDebounced pin) s fun t =>
        t.mode = .hold ∧ t.u.sec.slots = [] ∧ t.bit SEC_TAMPER_STAT_LATCHED = true ∧
        (s.bit SEC_TAMPER_STAT_LATCHED = false → t.fld SEC_TAMPER_STAT_CAUSE = pin.val + 1)) ∧
  (∀ (s : State) (monitor : Fin 4),
      s.u.pins.resetN = true →
      Completes (.monitorExcursion monitor true) s fun t =>
        monitor.val ∈ t.u.sec.mon ∧ t.bit SEC_TAMPER_STAT_MON_NOW = true) ∧
  (∀ (s : State) (iface : HostIface),
      s.reaches iface = true →
      s.permits SEC_ZEROISE = true →
      s.armed SEC_ZEROISE = some 0x5A5A0001 →
      s.mode = .solo →
      Completes (.secZeroise iface (~~~0x5A5A0001)) s fun t =>
        t.mode = .hold ∧ t.u.sec.slots = [] ∧ t.u.sec.cache = [] ∧ t.bit SEC_STATUS_ZEROISED = true) ∧
  (∀ (s : State) (iface : HostIface) (ticks : BitVec 40),
      s.reaches iface = true →
      s.permits SEC_TAMPER_CLR = true →
      s.armed SEC_TAMPER_CLR = some 0x5A5A0002 →
      s.bit SEC_TAMPER_STAT_T0_NOW = false →
      s.bit SEC_TAMPER_STAT_T1_NOW = false →
      s.bit SEC_TAMPER_STAT_MON_NOW = false →
      s.mode = .hold →
      Completes (.secTamperClr iface (~~~0x5A5A0002) ticks) s fun t =>
        t.mode = .rom ∧ t.bit SEC_TAMPER_STAT_LATCHED = false ∧ t.u.boot.running = true) ∧
  (∀ (s : State) (iface : HostIface) (slot : Fin 1024),
      s.reaches iface = true →
      s.permits SEC_SLOT_CMD = true →
      s.mode.runs = true →
      Completes (.slotReadMeta iface slot) s fun t =>
        t.reg SEC_SLOT_META0 = BitVec.ofNat 32 (s.slot slot).attr ∧ t.reg SEC_SLOT_META1 = BitVec.ofNat 32 ((s.slot slot).parent + 2 ^ 16 * (s.slot slot).gen) ∧
        t.bit SEC_SLOT_STAT_VALID = true ∧ t.fld SEC_SLOT_STAT_RESULT = 0) ∧
  (∀ (s : State) (iface : HostIface) (slot : Fin 1024) (upset : Bool),
      s.reaches iface = true →
      s.permits SEC_SLOT_CMD = true →
      s.mode.runs = true →
      Completes (.slotVerifyTag iface slot upset) s fun t =>
        t.bit SEC_SLOT_STAT_VALID = true ∧ t.fld SEC_SLOT_STAT_RESULT = 0 ∧ t.reg SEC_SLOT_META0 = BitVec.ofNat 32 (s.slot slot).attr ∧
        ((s.slot slot).state = .valid → (upset || !s.tagOk slot) = true → (t.slot slot).state = .torn)) ∧
  (∀ (s : State) (iface : HostIface) (value : BitVec 32),
      s.reaches iface = true →
      s.permits FUSE_READ_REQ = true →
      Completes (.fuseReadReq iface value) s fun t =>
        t.reg FUSE_READ_DATA = (if 20 ≤ fieldOf value 0 7 ∧ fieldOf value 0 7 ≤ 28 then 0 else s.fuseRow (fieldOf value 0 7)) ∧
        t.reg FUSE_READ_REQ = BitVec.ofNat 32 (2 ^ 31 + fieldOf value 0 7)) ∧
  (∀ (s : State) (iface : HostIface) (v : BitVec 32),
      s.reaches iface = true →
      s.permits FUSE_PROG = true →
      s.armed FUSE_PROG = some v →
      v.toNat < 128 →
      s.bit FUSE_STATUS_PROG_BUSY = false →
      fuseAllowed s.lifecycle v.toNat (s.reg FUSE_PROG_DATA) = true →
      Completes (.fuseProg iface (~~~v)) s fun t =>
        t.u.fuse.job = some ⟨v.toNat, s.reg FUSE_PROG_DATA, false⟩ ∧ t.bit FUSE_STATUS_PROG_BUSY = true) ∧
  (∀ (s : State) (iface : HostIface) (v : BitVec 32),
      s.reaches iface = true →
      s.permits FUSE_ADVANCE = true →
      s.armed FUSE_ADVANCE = some v →
      v.toNat = s.lifecycle + 1 →
      s.lifecycle = 1 →
      s.bit FUSE_STATUS_PROG_BUSY = false →
      Completes (.fuseAdvance iface (~~~v)) s fun t =>
        t.u.fuse.job = some ⟨0, 0xF0, true⟩ ∧ t.bit FUSE_STATUS_PROG_BUSY = true) ∧
  (∀ (s : State) (blown : BitVec 32) (j : FuseJob),
      s.u.fuse.job = some j →
      j.advance = false →
      j.row ≠ 0 →
      Completes (.fuseProgDone blown) s fun t =>
        t.u.fuse.job = none ∧ t.bit FUSE_STATUS_PROG_BUSY = false ∧ t.fuseRow j.row = (s.fuseRow j.row ||| (j.bits &&& blown)) ∧
        t.fld FUSE_STATUS_LAST = (if (s.fuseRow j.row ||| (j.bits &&& blown)) &&& j.bits = j.bits then fuseOk else fuseVerifyFail)) ∧
  (∀ (s : State),
      s.lifecycle = 1 →
      Nat.testBit (s.fuseRow 0).toNat 16 = false →
      s.mode = .solo →
      Completes .debugAccessOpen s fun t =>
        t.mode = .hold ∧ t.u.sec.slots = [] ∧ t.bit SEC_TAMPER_STAT_LATCHED = true)

/-- The backhaul ports: links, reception, transmission and PAUSE. An unlocked port under auto-detect tries the other
mode; a link comes up with its mode and goes down with its pass-through frames discarded; a good frame is
counted; a pause ends; a free port sends a waiting PAUSE frame, or the oldest pass-through frame when nothing
else waits; a frame sent is counted; a refresh and an announcement queue their frames; a port configuration is
stored. -/
def Obligations.BackhaulPorts : Prop :=
  (∀ (s : State) (port : EthPort),
      s.mode.portsOn = true →
      s.lineMode port.idx = 3 →
      s.bit (ETH_STATUS_Pp_UP port) = false →
      Completes (.ethAutodetectSwitch port) s fun t =>
        (t.u.eth.port port.idx).trying = (if (s.u.eth.port port.idx).trying = 2 then 1 else 2)) ∧
  (∀ (s : State) (port : EthPort) (ten : Bool) (rxPause : Bool),
      s.mode.portsOn = true →
      s.bit (ETH_STATUS_Pp_UP port) = false →
      s.lineMode port.idx = 3 ∨ s.lineMode port.idx = (if ten then 2 else 1) →
      Completes (.ethLinkUp port ten rxPause) s fun t =>
        t.bit (ETH_STATUS_Pp_UP port) = true ∧ t.fld (ETH_STATUS_Pp_MODE port) = (if ten then 2 else 1) ∧ (t.u.eth.port port.idx).trying = 0) ∧
  (∀ (s : State) (port : EthPort),
      s.bit (ETH_STATUS_Pp_UP port) = true →
      Completes (.ethLinkDown port) s fun t =>
        t.bit (ETH_STATUS_Pp_UP port) = false ∧ (t.u.eth.port port.idx).fifo = [] ∧ (t.u.eth.port port.idx).sending = none ∧
        t.reg (ETH_Pp_LINK_DOWN port.idx) = satNext (s.reg (ETH_Pp_LINK_DOWN port.idx))) ∧
  (∀ (s : State) (port : EthPort) (edges : BitVec 40) (phase : Fin 4) (bytes : List Byte),
      s.mode.portsOn = true →
      s.u.pwr.driftEntry < 2 →
      s.bit (ETH_STATUS_Pp_UP port) = true →
      64 ≤ bytes.length →
      bytes.length ≤ (if s.mode.bridgeDefaults then 1536 else s.fld (ETH_Pp_CFG_MAX_LEN port.idx)) →
      bytes.drop (bytes.length - 4) = fcsOf (bytes.take (bytes.length - 4)) →
      Completes (.ethFrameReceived port edges phase false bytes) s fun t =>
        t.reg (ETH_Pp_RX_FRAMES port.idx) = s.reg (ETH_Pp_RX_FRAMES port.idx) + 1 ∧ t.reg (ETH_Pp_RX_ERR port.idx) = s.reg (ETH_Pp_RX_ERR port.idx)) ∧
  (∀ (s : State) (port : EthPort) (edges : BitVec 40) (phase : Fin 4) (bytes : List Byte),
      s.mode.portsOn = true →
      s.u.pwr.driftEntry < 2 →
      s.bit (ETH_STATUS_Pp_UP port) = true →
      Completes (.ethFrameReceived port edges phase true bytes) s fun t =>
        t.reg (ETH_Pp_RX_ERR port.idx) = satNext (s.reg (ETH_Pp_RX_ERR port.idx)) ∧ t.reg (ETH_Pp_RX_FRAMES port.idx) = s.reg (ETH_Pp_RX_FRAMES port.idx)) ∧
  (∀ (s : State) (port : EthPort),
      Completes (.ethPauseExpiry port) s fun t =>
        t.bit (ETH_STATUS_Pp_PAUSED port) = false) ∧
  (∀ (s : State) (port : EthPort) (edges : BitVec 40) (phase : Fin 4) (q : Nat),
      s.mode.portsOn = true →
      s.bit (ETH_STATUS_Pp_UP port) = true →
      (s.u.eth.port port.idx).sending = none →
      s.bit (ETH_STATUS_Pp_PAUSED port) = false →
      (s.u.eth.port port.idx).pauseNext = some q →
      Completes (.ethTxStart port edges phase) s fun t =>
        (t.u.eth.port port.idx).sending = some (.pause q) ∧ (t.u.eth.port port.idx).pauseNext = none) ∧
  (∀ (s : State) (port : EthPort) (edges : BitVec 40) (phase : Fin 4) (g : PtFrame) (rest : List PtFrame),
      s.mode.portsOn = true →
      s.bit (ETH_STATUS_Pp_UP port) = true →
      (s.u.eth.port port.idx).sending = none →
      s.bit (ETH_STATUS_Pp_PAUSED port) = false →
      (s.u.eth.port port.idx).pauseNext = none →
      (s.u.eth.port port.idx).own = [] →
      (s.u.eth.port port.idx).chosen = none →
      (s.u.eth.port port.idx).fifo = g :: rest →
      g.stamp = none →
      Completes (.ethTxStart port edges phase) s fun t =>
        (t.u.eth.port port.idx).sending = some (.through g) ∧ (t.u.eth.port port.idx).fifo = g :: rest) ∧
  (∀ (s : State) (port : EthPort) (upset : Bool) (x : EthTx),
      (s.u.eth.port port.idx).sending = some x →
      Completes (.ethTxDone port upset) s fun t =>
        (t.u.eth.port port.idx).sending = none ∧ t.reg (ETH_Pp_TX_FRAMES port.idx) = s.reg (ETH_Pp_TX_FRAMES port.idx) + 1) ∧
  (∀ (s : State) (port : EthPort),
      s.bit (ETH_STATUS_Pp_PAUSING port) = true →
      (s.u.eth.port port.idx).pauseNext = none →
      Completes (.pauseRefresh port) s fun t =>
        (t.u.eth.port port.idx).pauseNext = some (s.fld (ETH_Pp_PAUSE_QUANTA port.idx))) ∧
  (∀ (s : State) (port : EthPort),
      s.mode.sendsUplink = true →
      s.bit (ETH_STATUS_Pp_UP port) = true →
      0 < (s.u.eth.port port.idx).naLeft →
      Completes (.naAnnounce port) s fun t =>
        (t.u.eth.port port.idx).naLeft = (s.u.eth.port port.idx).naLeft - 1 ∧ (t.u.eth.port port.idx).own = (s.u.eth.port port.idx).own ++ [s.advertise port.idx allNodesMac allNodesIp false]) ∧
  (∀ (s : State) (iface : HostIface) (port : EthPort) (value : BitVec 32),
      s.reaches iface = true →
      s.permits (ETH_Pp_CFG port.idx) = true →
      Completes (.ethPortCfgWrite iface port value) s fun t =>
        t.reg (ETH_Pp_CFG port.idx) = storedValue (ETH_Pp_CFG port.idx) value)

/-- The upkeep of the bridge table. The tick of each second deletes what has aged, an accepted flush command is
busy, and its end leaves no non-static entry of the port it names. -/
def Obligations.BridgeUpkeep : Prop :=
  (∀ (s : State),
      s.mode.portsOn = true →
      Completes .bridgeAgeTick s fun t =>
        (t.u.eth.bridge.all fun e => match e.2 with
          | none => false
          | some b => b.static || Nat.blt s.u.tk.s (b.seen + (if s.mode.bridgeDefaults then 300 else s.fld ETH_BRIDGE_AGE_S))) = true) ∧
  (∀ (s : State) (iface : HostIface) (value : BitVec 32),
      s.reaches iface = true →
      s.permits ETH_BR_CMD = true →
      s.bit ETH_BR_STAT_BUSY = false →
      fieldOf value 0 1 = 1 →
      fieldOf value 1 2 < 3 →
      Completes (.ethBrFlush iface value) s fun t =>
        t.bit ETH_BR_STAT_BUSY = true ∧ t.u.eth.flush = some (fieldOf value 1 2)) ∧
  (∀ (s : State) (k : Nat),
      s.u.eth.flush = some k →
      Completes .ethBrFlushDone s fun t =>
        t.bit ETH_BR_STAT_BUSY = false ∧ t.u.eth.flush = none ∧ (t.u.eth.bridge.all fun e => match e.2 with
          | none => false
          | some b => b.static || (!(k == 0) && !(b.port + 1 == k))) = true)

/-- The Buesque Link and the Tether. Block lock brings the link up and its loss takes the Tether with it; a TETHER
goes out with the next sequence number, one received shows the partner's score, a missed one counts and its loss
is counted and cleared; PAIR_ALIVE follows its ball, its watchdog releases the pull; a bad frame is counted,
resent frames are counted. -/
def Obligations.LinkAndTether : Prop :=
  (∀ (s : State),
      s.paired = true →
      s.bit PAIR_STATUS_LINK_UP = false →
      Completes .pairLinkUp s fun t =>
        t.bit PAIR_STATUS_LINK_UP = true ∧ t.u.pair.lseqIn = none ∧ t.u.pair.refused = false) ∧
  (∀ (s : State),
      s.bit PAIR_STATUS_LINK_UP = true →
      Completes .pairLinkDown s fun t =>
        t.bit PAIR_STATUS_LINK_UP = false ∧ t.bit PAIR_STATUS_TETHER_OK = false ∧ t.u.pair.syncing = false ∧ t.u.pair.timeIn = none) ∧
  (∀ (s : State),
      s.paired = true →
      s.bit BT_STATUS_RUNNING = true →
      s.mode ≠ .hold →
      s.bit PAIR_STATUS_LINK_UP = true →
      Completes .tetherSend s fun t =>
        t.u.pair.lseq = (s.u.pair.lseq + 1) % 2 ^ 32 ∧ t.u.pair.out.length = s.u.pair.out.length + 1) ∧
  (∀ (s : State) (lseq : BitVec 32) (x : TetherIn),
      s.paired = true →
      s.bit PAIR_STATUS_LINK_UP = true →
      s.u.pair.lseqIn.getD lseq.toNat = lseq.toNat →
      Completes (.tetherReceived lseq x) s fun t =>
        t.u.pair.lseqIn = some ((lseq.toNat + 1) % 2 ^ 32) ∧ t.u.pair.tether = some x ∧ t.u.pair.quiet = 0 ∧ t.bit PAIR_STATUS_TETHER_OK = true ∧
        t.fld ⟨PAIR_SCORE, 8, 8⟩ = x.score.toNat) ∧
  (∀ (s : State),
      s.paired = true →
      Completes .tetherMiss s fun t =>
        t.reg PAIR_TETHER_MISS = s.reg PAIR_TETHER_MISS + 1) ∧
  (∀ (s : State),
      s.bit PAIR_STATUS_TETHER_OK = true →
      Completes .tetherLost s fun t =>
        t.bit PAIR_STATUS_TETHER_OK = false ∧ t.u.pair.quiet = 0 ∧ t.reg PAIR_LOST = satNext (s.reg PAIR_LOST) ∧
        (s.pstate = 2 → s.bit PAIR_STATUS_ALIVE_LOW = false → t.u.pair.next = some 1)) ∧
  (∀ (s : State) (low : Bool),
      Completes (.pairAliveEdge low) s fun t =>
        t.bit PAIR_STATUS_ALIVE_LOW = low) ∧
  (∀ (s : State),
      Completes .aliveWatchdogExpiry s fun t =>
        t.bit PAIR_STATUS_ALIVE_DRV = false) ∧
  (∀ (s : State) (lseq : BitVec 32) (wanted : BitVec 32),
      s.bit PAIR_STATUS_LINK_UP = true →
      s.u.pair.lseqIn.getD lseq.toNat = lseq.toNat →
      Completes (.resendReceived lseq wanted) s fun t =>
        t.u.pair.lseqIn = some ((lseq.toNat + 1) % 2 ^ 32) ∧
        t.reg PAIR_RESENDS = s.reg PAIR_RESENDS + BitVec.ofNat 32 (s.u.pair.out.filter fun f => Nat.blt ((f.lseq + 2 ^ 32 - wanted.toNat) % 2 ^ 32) (2 ^ 31)).length) ∧
  (∀ (s : State),
      s.bit PAIR_STATUS_LINK_UP = true →
      Completes .linkFrameCrcFail s fun t =>
        t.reg PAIR_LINK_CRC = satNext (s.reg PAIR_LINK_CRC))

/-- What a unit takes from its partner over the link. Frames are taken in sequence; a record of a coming beat is
kept and sealed, a digest waits for its own, diversity receptions are taken or found held, shared LLRs are
decoded anew, items of the bulk copy and table blocks are applied, TIME steps an armed standby, and a record
that never comes takes the unit out of step. -/
def Obligations.PairRecords : Prop :=
  (∀ (s : State) (lseq : BitVec 32) (beat : BitVec 32) (entries : List RecEntry),
      s.bit PAIR_STATUS_LINK_UP = true →
      s.u.pair.lseqIn.getD lseq.toNat = lseq.toNat →
      s.pstate = 5 →
      s.u.pair.execd < (s.nearBeat beat.toNat) →
      Completes (.inputReceived lseq beat entries) s fun t =>
        t.u.pair.lseqIn = some ((lseq.toNat + 1) % 2 ^ 32) ∧ t.u.pair.recs = recordAdd (s.nearBeat beat.toNat) entries s.u.pair.recs) ∧
  (∀ (s : State) (lseq : BitVec 32) (beat : BitVec 32) (count : BitVec 32),
      s.bit PAIR_STATUS_LINK_UP = true →
      s.u.pair.lseqIn.getD lseq.toNat = lseq.toNat →
      s.pstate = 5 →
      s.u.pair.execd < (s.nearBeat beat.toNat) →
      s.workBeat ≠ (s.nearBeat beat.toNat) →
      ((recordAdd (s.nearBeat beat.toNat) [] s.u.pair.recs).any fun r => r.beat == (s.nearBeat beat.toNat) && r.entries.length == count.toNat) = true →
      Completes (.sealReceived lseq beat count true) s fun t =>
        t.u.pair.lseqIn = some ((lseq.toNat + 1) % 2 ^ 32) ∧ t.u.pair.lastRec = (s.nearBeat beat.toNat) ∧ (t.u.pair.recs.any fun r => r.beat == (s.nearBeat beat.toNat) && r.closed) = true) ∧
  (∀ (s : State),
      s.shadows = true →
      s.u.pair.execd < s.workBeat →
      s.pstate = 5 →
      Completes .sealWaitExpiry s fun t =>
        t.u.pair.next = some 4) ∧
  (∀ (s : State) (lseq : BitVec 32) (beat : BitVec 32) (plan : BitVec 64) (uplink : BitVec 64) (log : BitVec 64) (b0 : BitVec 64) (b1 : BitVec 64) (b2 : BitVec 64) (b3 : BitVec 64),
      s.bit PAIR_STATUS_LINK_UP = true →
      s.u.pair.lseqIn.getD lseq.toNat = lseq.toNat →
      (s.u.pair.own.find? fun d => d.beat == (s.nearBeat beat.toNat)) = none →
      Completes (.digestReceived lseq beat plan uplink log b0 b1 b2 b3) s fun t =>
        t.u.pair.lseqIn = some ((lseq.toNat + 1) % 2 ^ 32) ∧ t.u.pair.partner = s.u.pair.partner ++
          [⟨(s.nearBeat beat.toNat), [plan.toNat, uplink.toNat, log.toNat], [b0.toNat, b1.toNat, b2.toNat, b3.toNat]⟩]) ∧
  (∀ (s : State) (lseq : BitVec 32) (x : AirRx),
      s.bit PAIR_STATUS_LINK_UP = true →
      s.u.pair.lseqIn.getD lseq.toNat = lseq.toNat →
      s.mode.serves = true →
      s.live = true →
      s.pstate ≠ 8 →
      Completes (.diversityReceived lseq x) s fun t =>
        t.u.pair.lseqIn = some ((lseq.toNat + 1) % 2 ^ 32) ∧ (s.matchesHeard x = true → t.reg PAIR_DIV_DUP = s.reg PAIR_DIV_DUP + 1) ∧
        (s.matchesHeard x = false → t.reg PAIR_DIV_IN = s.reg PAIR_DIV_IN + 1)) ∧
  (∀ (s : State) (lseq : BitVec 32) (decoder : Fin 80) (codeword : Fin 16) (stopNs : BitVec 64) (llrs : List (BitVec 6)) (f : RxFrame) (c : Codeword),
      s.bit PAIR_STATUS_LINK_UP = true →
      s.u.pair.lseqIn.getD lseq.toNat = lseq.toNat →
      llrs.length = 1152 →
      s.mode = .standby →
      s.u.rx.frames = [f] →
      f.decoder = decoder →
      s.sampleNs f.stop = stopNs.toNat →
      f.cws[codeword.val]? = some c →
      c.result = .fail →
      c.llrs ≠ [] →
      Completes (.llrReceived lseq decoder codeword stopNs llrs) s fun t =>
        t.u.pair.lseqIn = some ((lseq.toNat + 1) % 2 ^ 32) ∧ t.u.rx.reqs.length = s.u.rx.reqs.length + 1) ∧
  (∀ (s : State) (lseq : BitVec 32) (bcast : BitVec 32) (join : BitVec 32),
      s.bit PAIR_STATUS_LINK_UP = true →
      s.u.pair.lseqIn.getD lseq.toNat = lseq.toNat →
      s.pstate = 4 →
      s.u.pair.syncFrom = none →
      Completes (.bulkReceived lseq (.counters bcast join)) s fun t =>
        t.u.pair.lseqIn = some ((lseq.toNat + 1) % 2 ^ 32) ∧ t.reg SEC_TXCTR_BCAST = bcast ∧ t.reg SEC_TXCTR_JOIN = join) ∧
  (∀ (s : State) (lseq : BitVec 32) (sent : BitVec 64) (echo : BitVec 64) (edges : BitVec 40),
      s.bit PAIR_STATUS_LINK_UP = true →
      s.u.pair.lseqIn.getD lseq.toNat = lseq.toNat →
      s.pstate = 4 →
      s.bit TK_STATUS_ARMED = true →
      s.bit TK_STATUS_STEP_BUSY = false →
      Completes (.timeFrameReceived lseq sent echo edges) s fun t =>
        t.u.pair.lseqIn = some ((lseq.toNat + 1) % 2 ^ 32) ∧ t.u.tk.step.isSome = true ∧ t.bit TK_STATUS_STEP_BUSY = true ∧ t.bit TK_STATUS_ARMED = false ∧
        t.u.pair.timeIn = some (if s.bit TK_STATUS_RUNNING then (s.u.tk.tick edges.toNat).ns else s.u.tk.ns)) ∧
  (∀ (s : State) (lseq : BitVec 32) (table : Fin 4) (block : BitVec 8) (entries : List (BitVec 128)),
      s.bit PAIR_STATUS_LINK_UP = true →
      s.u.pair.lseqIn.getD lseq.toNat = lseq.toNat →
      entries.length = 1024 →
      s.shadows = true →
      block.toNat < tableBlocks table →
      Completes (.blockFrameReceived lseq table block entries) s fun t =>
        t.u.pair.lseqIn = some ((lseq.toNat + 1) % 2 ^ 32) ∧ t.u.fwd.resync = s.u.fwd.resync ++ [⟨table, block.toNat, entries⟩] ∧ t.bit FWD_STATUS_RESYNC = true)

/-- Pairing, planned switchovers, arbitration, takeover and sync. A HELLO that agrees starts the copy on the serving
unit and one that differs refuses it; a switchover is named, acknowledged and cancelled on silence; verdicts are
held; a claim, a takeover and a stale takeover stage their states; a sync that takes too long fails and is tried
again; a good hold ends in a switchover. -/
def Obligations.PairingAndSwitchovers : Prop :=
  (∀ (s : State) (lseq : BitVec 32) (h : Hello),
      s.bit PAIR_STATUS_LINK_UP = true →
      s.u.pair.lseqIn.getD lseq.toNat = lseq.toNat →
      s.pstate = 1 →
      Completes (.helloReceived lseq h) s fun t =>
        t.u.pair.lseqIn = some ((lseq.toNat + 1) % 2 ^ 32) ∧ (helloDiffers s.hello h = 0 → t.u.pair.syncing = true ∧ t.u.pair.syncFrom = none) ∧
        (helloDiffers s.hello h ≠ 0 → t.u.pair.refused = true)) ∧
  (∀ (s : State) (lseq : BitVec 32) (beat : BitVec 32),
      s.bit PAIR_STATUS_LINK_UP = true →
      s.u.pair.lseqIn.getD lseq.toNat = lseq.toNat →
      s.pstate = 5 →
      s.u.pair.switch = none →
      Completes (.switchReceived lseq beat) s fun t =>
        t.u.pair.lseqIn = some ((lseq.toNat + 1) % 2 ^ 32) ∧ t.u.pair.switch = some ⟨(s.nearBeat beat.toNat), true, true, s.u.bt.beat, false, 1⟩ ∧ t.u.sec.roll.isSome = true) ∧
  (∀ (s : State) (lseq : BitVec 32) (beat : BitVec 32) (x : Switch),
      s.bit PAIR_STATUS_LINK_UP = true →
      s.u.pair.lseqIn.getD lseq.toNat = lseq.toNat →
      s.u.pair.switch = some x →
      x.acked = false →
      x.h = (s.nearBeat beat.toNat) →
      Completes (.switchAckReceived lseq beat) s fun t =>
        t.u.pair.lseqIn = some ((lseq.toNat + 1) % 2 ^ 32) ∧ t.u.pair.switch = some { x with acked := true }) ∧
  (∀ (s : State) (x : Switch),
      s.u.pair.switch = some x →
      x.acked = false →
      x.sentAt + 2 ≤ s.u.bt.beat →
      Completes .switchAckTimeout s fun t =>
        t.u.pair.switch = none ∧ (x.cmd = true → t.fld PAIR_CMD_STAT_RESULT = 3 ∧ t.bit PAIR_CMD_STAT_BUSY = false)) ∧
  (∀ (s : State),
      s.pstate = 7 →
      s.u.pair.takeover = none →
      s.bit PAIR_STATUS_ALIVE_LOW = false →
      Completes .switchoverAliveClaim s fun t =>
        t.bit PAIR_STATUS_ALIVE_DRV = true) ∧
  (∀ (s : State) (lseq : BitVec 32) (verdict : Verdict) (score : BitVec 8) (a : Arb),
      s.bit PAIR_STATUS_LINK_UP = true →
      s.u.pair.lseqIn.getD lseq.toNat = lseq.toNat →
      s.u.pair.arb = some a →
      Completes (.arbReceived lseq verdict score) s fun t =>
        t.u.pair.lseqIn = some ((lseq.toNat + 1) % 2 ^ 32) ∧ t.u.pair.arb = some { a with partner := some (verdict, score.toNat) }) ∧
  (∀ (s : State) (lseq : BitVec 32),
      s.bit PAIR_STATUS_LINK_UP = true →
      s.u.pair.lseqIn.getD lseq.toNat = lseq.toNat →
      Completes (.yieldReceived lseq) s fun t =>
        t.u.pair.lseqIn = some ((lseq.toNat + 1) % 2 ^ 32) ∧ t.u.pair.own = [] ∧ t.u.pair.partner = []) ∧
  (∀ (s : State) (consistent : Bool) (a : Arb),
      s.u.pair.arb = some a →
      a.start ≤ s.u.bt.beat →
      a.own = none →
      Completes (.reexecutionDone consistent) s fun t =>
        t.u.pair.arb = some { a with own := some (if consistent then .consistent else .inconsistent, s.score) }) ∧
  (∀ (s : State) (a : Arb),
      s.u.pair.arb = some a →
      a.start + 3 ≤ s.u.bt.beat →
      a.own = none →
      Completes .reexecutionDeadline s fun t =>
        t.u.pair.arb = some { a with own := some (.inconclusive, s.score) }) ∧
  (∀ (s : State),
      s.pstate = 3 →
      s.bit PAIR_STATUS_ALIVE_LOW = false →
      s.bit BT_STATUS_RUNNING = true →
      s.bit PAIR_STATUS_TETHER_OK = false →
      s.bit PAIR_STATUS_ROLE_A = true ∨ s.fld PAIR_TIMING_BOOT_WAIT_S ≤ s.u.pair.quiet →
      Completes .startClaim s fun t =>
        t.bit PAIR_STATUS_ALIVE_DRV = true ∧ t.u.pair.next = some 1) ∧
  (∀ (s : State),
      s.pstate = 5 →
      s.bit PAIR_STATUS_TETHER_OK = false →
      s.bit PAIR_STATUS_ALIVE_LOW = false →
      s.u.pair.takeover = none →
      Completes .takeoverDecision s fun t =>
        t.u.pair.takeover = some s.u.pair.lastRec ∧ t.u.pair.switch = none ∧ t.u.pair.next = some 7 ∧ t.u.sec.roll.isSome = true) ∧
  (∀ (s : State),
      s.pstate = 6 →
      s.bit PAIR_CFG_STALE_TAKEOVER = true →
      s.bit PAIR_STATUS_ALIVE_LOW = false →
      s.u.pair.takeover = none →
      Completes .staleTakeoverExpiry s fun t =>
        t.u.pair.takeover = some s.u.pair.lastRec ∧ t.u.pair.next = some 7 ∧ t.u.sec.roll.isSome = true) ∧
  (∀ (s : State) (b : Nat),
      s.pstate = 4 →
      s.u.pair.syncAt = some b →
      b + 120000 ≤ s.u.bt.beat →
      Completes .syncTimeout s fun t =>
        t.u.pair.syncAt = none ∧ t.u.pair.syncFrom = none ∧ t.u.pair.retryAt = some (s.u.bt.beat + 10000)) ∧
  (∀ (s : State) (b : Nat),
      s.u.pair.retryAt = some b →
      b ≤ s.u.bt.beat →
      Completes .syncRetryExpiry s fun t =>
        t.u.pair.retryAt = none ∧ t.u.pair.syncAt = some s.u.bt.beat) ∧
  (∀ (s : State),
      s.bit PAIR_CFG_REVERTIVE = true →
      s.u.pair.holdRuns = true →
      s.u.pair.holdS = 0 →
      Act.holdGood s = true →
      s.u.pair.switch = none →
      Completes .reclaimHoldExpiry s fun t =>
        t.u.pair.holdRuns = false ∧ (t.u.pair.switch.map fun w => (w.incoming, w.acked, w.cause)) = some (true, false, 4))

/-- The pair commands, the role override, the digest request and the self-tests. SWITCH starts a switchover that
keeps the command busy, RESYNC and DETACH stage their states, HOLD_RECLAIM restarts the hold, the guarded
override sets the role, a digest request posts the beat last compared; a self-test that ends is counted, its
failure is counted too and takes what it tested out of service. -/
def Obligations.PairCommandsAndSelfTest : Prop :=
  (∀ (s : State) (iface : HostIface),
      s.reaches iface = true →
      s.permits PAIR_CMD = true →
      s.bit PAIR_CMD_STAT_BUSY = false →
      s.pstate = 2 →
      s.u.pair.switch = none →
      Completes (.pairSwitch iface) s fun t =>
        t.bit PAIR_CMD_STAT_BUSY = true ∧ (t.u.pair.switch.map fun w => (w.incoming, w.acked, w.cmd, w.cause)) = some (false, false, true, 1)) ∧
  (∀ (s : State) (iface : HostIface),
      s.reaches iface = true →
      s.permits PAIR_CMD = true →
      s.bit PAIR_CMD_STAT_BUSY = false →
      s.pstate = 5 →
      Completes (.pairResync iface) s fun t =>
        t.u.pair.next = some 4 ∧ t.u.pair.barred = false ∧ t.fld PAIR_CMD_STAT_RESULT = 0) ∧
  (∀ (s : State) (iface : HostIface),
      s.reaches iface = true →
      s.permits PAIR_CMD = true →
      s.bit PAIR_CMD_STAT_BUSY = false →
      s.paired = true →
      Completes (.pairHoldReclaim iface) s fun t =>
        t.u.pair.holdS = (if s.u.pair.holdRuns then s.fld PAIR_TIMING_RECLAIM_HOLD_S else 0) ∧ t.fld PAIR_CMD_STAT_RESULT = 0) ∧
  (∀ (s : State) (iface : HostIface),
      s.reaches iface = true →
      s.permits PAIR_CMD = true →
      s.bit PAIR_CMD_STAT_BUSY = false →
      s.pstate = 5 →
      Completes (.pairDetach iface) s fun t =>
        t.u.pair.next = some 6 ∧ t.u.pair.barred = true ∧ t.fld PAIR_CMD_STAT_RESULT = 0) ∧
  (∀ (s : State) (iface : HostIface),
      s.reaches iface = true →
      s.permits PAIR_ROLE_OVR = true →
      s.armed PAIR_ROLE_OVR = some 0x5A5A0011 →
      Completes (.pairRoleOvr iface (~~~0x5A5A0011)) s fun t =>
        t.u.pair.roleOvr = some true ∧ t.bit PAIR_STATUS_ROLE_A = true ∧ t.fld (guardResult PAIR_ROLE_OVR) = grdAccepted) ∧
  (∀ (s : State) (iface : HostIface) (value : BitVec 32) (a : DigestSet) (b : DigestSet),
      s.reaches iface = true →
      s.permits PAIR_DIG_REQ = true →
      s.u.pair.compared = some (a, b) →
      Completes (.pairDigReq iface value) s fun t =>
        t.reg PAIR_DIG_BEAT = BitVec.ofNat 32 a.beat ∧ t.reg (PAIR_DIG_OWNx 0) = BitVec.ofNat 32 (a.streams.getD 0 0) ∧
        t.reg (PAIR_DIG_PARTx 0) = BitVec.ofNat 32 (b.streams.getD 0 0) ∧ t.reg PAIR_DIG_REQ = (storedValue PAIR_DIG_REQ value ||| 0x80000000)) ∧
  (∀ (s : State) (pe : Fin 16),
      (s.engine pe).bist = true →
      Completes (.logicBistDone pe true) s fun t =>
        (t.engine pe).bist = false ∧ t.reg PAIR_BIST_RUNS = s.reg PAIR_BIST_RUNS + 1 ∧ t.fld (BT_ENG_STATE_n pe) = engServing) ∧
  (∀ (s : State) (core : Fin 8) (pass : Bool),
      s.mode.runs = true →
      Completes (.ldpcKat core pass) s fun t =>
        t.reg PAIR_BIST_RUNS = s.reg PAIR_BIST_RUNS + 1 ∧ (pass = false → t.reg PAIR_SELFTEST_FAIL = satNext (s.reg PAIR_SELFTEST_FAIL)) ∧
        t.u.pair.ldpcOut.contains core.val = !pass) ∧
  (∀ (s : State) (core : Fin 8) (pass : Bool),
      s.mode.runs = true →
      Completes (.cipherKat core pass) s fun t =>
        t.reg PAIR_BIST_RUNS = s.reg PAIR_BIST_RUNS + 1 ∧ (pass = false → t.reg PAIR_SELFTEST_FAIL = satNext (s.reg PAIR_SELFTEST_FAIL)) ∧
        t.u.pair.aesOut.contains core.val = !pass) ∧
  (∀ (s : State) (pass : Bool),
      s.mode.runs = true →
      Completes (.ecdsaKat pass) s fun t =>
        t.reg PAIR_BIST_RUNS = s.reg PAIR_BIST_RUNS + 1 ∧ (pass = false → t.reg PAIR_SELFTEST_FAIL = satNext (s.reg PAIR_SELFTEST_FAIL)) ∧ t.u.pair.ecdsaBad = !pass) ∧
  (∀ (s : State) (chain : Chain) (pass : Bool),
      s.mode.runs = true →
      Completes (.radioLoopback chain pass) s fun t =>
        t.reg PAIR_BIST_RUNS = s.reg PAIR_BIST_RUNS + 1 ∧ (pass = false → t.reg PAIR_SELFTEST_FAIL = satNext (s.reg PAIR_SELFTEST_FAIL)) ∧
        (pass = false → t.txState chain = stFault)) ∧
  (∀ (s : State) (pass : Bool),
      s.mode.runs = true →
      Completes (.voterCheck pass) s fun t =>
        t.reg PAIR_BIST_RUNS = s.reg PAIR_BIST_RUNS + 1 ∧ (pass = false → t.reg PAIR_SELFTEST_FAIL = satNext (s.reg PAIR_SELFTEST_FAIL)) ∧ (pass = false → t.mode = .hold))

/-- The image library. IMAGE_OPEN of a FREE slot with parameters in range completes and forgets the slot’s marks;
IMAGE_PUT of a block in range with its CRC completes and marks the units it covers; IMAGE_CLOSE of a complete
LOADING slot whose hash agrees completes with OK; IMAGE_DELETE of a slot no campaign uses completes and forgets
its marks. -/
def Obligations.ImageLibrary : Prop :=
  (∀ (s : State) (index : Fin 4096) (c : HostCmd) (slot : BitVec 8) (nodeClass : BitVec 8) (blockSize : BitVec 16) (length : BitVec 32) (version : BitVec 32) (sha : BitVec 256),
      s.cmdAt index (fun o => o == 0x0401) = some c →
      c.mirrored = false →
      slot.toNat < s.libSlots →
      s.lib slot.toNat Lib.STATE = 0 →
      64 ≤ blockSize.toNat →
      blockSize.toNat ≤ 896 →
      blockSize.toNat % 64 = 0 →
      0 < length.toNat →
      length.toNat ≤ 2 ^ 23 - 64 →
      length.toNat ≤ blockSize.toNat * 65534 →
      Completes (.imageOpen index slot nodeClass blockSize length version sha) s fun t =>
        Finished c s t ∧ (s.bit BT_STATUS_RUNNING = true → t.le (s.cplAddr + 10) 2 = 0) ∧ t.u.img.maps.getD slot.toNat [] = []) ∧
  (∀ (s : State) (index : Fin 4096) (c : HostCmd) (slot : BitVec 8) (offset : BitVec 32) (bytes : BitVec 32) (crc : BitVec 32),
      s.cmdAt index (fun o => o == 0x0402) = some c →
      c.mirrored = false →
      slot.toNat < s.libSlots →
      s.lib slot.toNat Lib.STATE = 1 →
      blockInRange (s.lib slot.toNat Lib.LENGTH) offset.toNat bytes.toNat = true →
      crc32 (s.bytes s.stagingBase (min bytes.toNat 65536)) = crc →
      Completes (.imagePut index slot offset bytes crc) s fun t =>
        Finished c s t ∧ (s.bit BT_STATUS_RUNNING = true → t.le (s.cplAddr + 10) 2 = 0) ∧
        (blockUnits offset.toNat bytes.toNat).all ((t.u.img.maps.getD slot.toNat []).contains ·) = true) ∧
  (∀ (s : State) (index : Fin 4096) (c : HostCmd) (slot : BitVec 8),
      s.cmdAt index (fun o => o == 0x0403) = some c →
      c.mirrored = false →
      slot.toNat < s.libSlots →
      s.lib slot.toNat Lib.STATE = 1 →
      (blockUnits 0 (s.lib slot.toNat Lib.LENGTH)).all ((s.u.img.maps.getD slot.toNat []).contains ·) = true →
      Crypto.sha256 (natBytes (s.bytes (s.libSlot slot.toNat + 64) (s.lib slot.toNat Lib.LENGTH))) =
        natBytes (s.bytes (s.libSlot slot.toNat + 12) 32) →
      Completes (.imageClose index slot) s fun t =>
        Finished c s t ∧ (s.bit BT_STATUS_RUNNING = true → t.le (s.cplAddr + 10) 2 = 0)) ∧
  (∀ (s : State) (index : Fin 4096) (c : HostCmd) (slot : BitVec 8),
      s.cmdAt index (fun o => o == 0x0404) = some c →
      c.mirrored = false →
      slot.toNat < s.libSlots →
      s.lib slot.toNat Lib.USERS = 0 →
      Completes (.imageDelete index slot) s fun t =>
        Finished c s t ∧ (s.bit BT_STATUS_RUNNING = true → t.le (s.cplAddr + 10) 2 = 0) ∧ t.u.img.maps.getD slot.toNat [] = [])

/-- Campaigns: their commands. CAMPAIGN_CREATE on a READY slot assigns the next number; TARGET names or removes
nodes of a CREATED campaign, START begins its walk, PAUSE keeps the phase it leaves, RESUME, CANCEL and CLEAR
complete in the states R587 allows, CANCEL giving up what is under way, and QUERY completes. -/
def Obligations.Campaigns : Prop :=
  (∀ (s : State) (index : Fin 4096) (c : HostCmd) (slot : BitVec 8) (flags : BitVec 3) (p : CampParams) (r : Nat),
      s.cmdAt index (fun o => o == 0x0410) = some c →
      c.mirrored = false →
      slot.toNat < s.libSlots →
      s.lib slot.toNat Lib.STATE = 2 →
      campParamsOk p = true →
      ((List.range 16).find? fun q => s.camp q Camp.NUMBER == 0) = some r →
      Completes (.campaignCreate index slot flags p) s fun t =>
        Finished c s t ∧ (s.bit BT_STATUS_RUNNING = true → t.le (s.cplAddr + 10) 2 = 0) ∧ t.u.img.last = s.campNumber ∧ t.run r = Run.idle) ∧
  (∀ (s : State) (index : Fin 4096) (c : HostCmd) (number : BitVec 16) (r : Nat) (add : Bool) (nodes : List (BitVec 24)),
      s.cmdAt index (fun o => o == 0x0411) = some c →
      c.mirrored = false →
      s.libSlots ≠ 0 →
      s.campOf number.toNat = some r →
      s.camp r Camp.STATE = 0 →
      0 < nodes.length →
      nodes.length ≤ 10 →
      Completes (.campaignTarget index number add nodes) s fun t =>
        Finished c s t ∧ (s.bit BT_STATUS_RUNNING = true → t.le (s.cplAddr + 10) 2 = 0) ∧
        ∀ n ∈ nodes, (t.run r).named.contains n.toNat = add ∧ (t.run r).removed.contains n.toNat = !add) ∧
  (∀ (s : State) (index : Fin 4096) (c : HostCmd) (number : BitVec 16) (r : Nat),
      s.cmdAt index (fun o => o == 0x0412) = some c →
      c.mirrored = false →
      s.libSlots ≠ 0 →
      s.campOf number.toNat = some r →
      s.camp r Camp.STATE = 0 →
      Completes (.campaignStart index number) s fun t =>
        Finished c s t ∧ (s.bit BT_STATUS_RUNNING = true → t.le (s.cplAddr + 10) 2 = 0) ∧ (t.run r).walk = some 0 ∧ (t.run r).lastProgress = s.workBeat) ∧
  (∀ (s : State) (index : Fin 4096) (c : HostCmd) (number : BitVec 16) (r : Nat),
      s.cmdAt index (fun o => o == 0x0413) = some c →
      c.mirrored = false →
      s.libSlots ≠ 0 →
      s.campOf number.toNat = some r →
      1 ≤ s.camp r Camp.STATE →
      s.camp r Camp.STATE ≤ 3 →
      Completes (.campaignPause index number) s fun t =>
        Finished c s t ∧ (s.bit BT_STATUS_RUNNING = true → t.le (s.cplAddr + 10) 2 = 0) ∧ (t.run r).paused = s.camp r Camp.STATE) ∧
  (∀ (s : State) (index : Fin 4096) (c : HostCmd) (number : BitVec 16) (r : Nat),
      s.cmdAt index (fun o => o == 0x0413) = some c →
      c.mirrored = false →
      s.libSlots ≠ 0 →
      s.campOf number.toNat = some r →
      s.camp r Camp.STATE = 4 →
      Completes (.campaignResume index number) s fun t =>
        Finished c s t ∧ (s.bit BT_STATUS_RUNNING = true → t.le (s.cplAddr + 10) 2 = 0) ∧ t.u.img = s.u.img) ∧
  (∀ (s : State) (index : Fin 4096) (c : HostCmd) (number : BitVec 16) (r : Nat),
      s.cmdAt index (fun o => o == 0x0414) = some c →
      c.mirrored = false →
      s.libSlots ≠ 0 →
      s.campOf number.toNat = some r →
      s.camp r Camp.STATE ≤ 4 →
      Completes (.campaignCancel index number) s fun t =>
        Finished c s t ∧ (s.bit BT_STATUS_RUNNING = true → t.le (s.cplAddr + 10) 2 = 0) ∧ t.run r = Run.idle ∧ t.u.img.dropping = s.u.img.dropping ++ (s.run r).flights) ∧
  (∀ (s : State) (index : Fin 4096) (c : HostCmd),
      s.cmdAt index (fun o => o == 0x0415) = some c →
      c.mirrored = false →
      s.libSlots ≠ 0 →
      Completes (.campaignQuery index) s fun t =>
        Finished c s t ∧ (s.bit BT_STATUS_RUNNING = true → t.le (s.cplAddr + 10) 2 = 0 ∧ t.le (s.cplAddr + 16) 8 = s.campTable)) ∧
  (∀ (s : State) (index : Fin 4096) (c : HostCmd) (number : BitVec 16) (r : Nat),
      s.cmdAt index (fun o => o == 0x0416) = some c →
      c.mirrored = false →
      s.libSlots ≠ 0 →
      s.campOf number.toNat = some r →
      5 ≤ s.camp r Camp.STATE →
      s.camp r Camp.STATE ≤ 7 →
      Completes (.campaignClear index number) s fun t =>
        Finished c s t ∧ (s.bit BT_STATUS_RUNNING = true → t.le (s.cplAddr + 10) 2 = 0) ∧ t.u.img = s.u.img)

/-- Campaigns: reports, repair passes and times. A node whose failed manifest waited REPORT_WAIT_S gets it again;
the oldest report leaves its queue; a due repair pass sets the time of the next; a campaign that reaches its
deadline gives up what is under way; a progress period that ends begins the next. -/
def Obligations.CampaignTimers : Prop :=
  (∀ (s : State) (record : Fin 16) (node : BitVec 24) (x : Nat × Nat),
      s.campLive record.val = true →
      ((s.run record.val).waiting.find? fun w => w.1 == node.toNat) = some x →
      s.camp record.val Camp.REPORT_WAIT_S ≤ s.secondsSince x.2 →
      Completes (.enrolRetryExpiry record node) s fun t =>
        t = { s with u := t.u } ∧ (t.run record.val).waiting = (s.run record.val).waiting.erase x) ∧
  (∀ (s : State) (x : CampReport) (rest : List CampReport),
      s.u.img.reports = x :: rest →
      Completes .campaignReport s fun t =>
        t.u.img.reports = rest) ∧
  (∀ (s : State) (record : Fin 16),
      s.campLive record.val = true →
      s.camp record.val Camp.STATE = 3 →
      s.camp record.val Camp.REPORT_WAIT_S ≤ s.secondsSince (s.run record.val).lastPass →
      Completes (.repairPass record) s fun t =>
        (t.run record.val).lastPass = s.workBeat ∨ t.run record.val = Run.idle) ∧
  (∀ (s : State) (record : Fin 16),
      s.campLive record.val = true →
      1 ≤ s.camp record.val Camp.STATE →
      1000 * s.camp record.val Camp.DEADLINE_S ≤ (s.workBeat + 2 ^ 32 - s.camp record.val Camp.START_BEAT) % 2 ^ 32 →
      Completes (.campaignDeadline record) s fun t =>
        t.run record.val = Run.idle ∧ t.u.img.dropping = s.u.img.dropping ++ (s.run record.val).flights) ∧
  (∀ (s : State) (record : Fin 16),
      s.campLive record.val = true →
      1 ≤ s.camp record.val Camp.STATE →
      0 < s.camp record.val Camp.PROGRESS_S →
      s.camp record.val Camp.PROGRESS_S ≤ s.secondsSince (s.run record.val).lastProgress →
      Completes (.campaignProgressExpiry record) s fun t =>
        (t.run record.val).lastProgress = s.workBeat ∨ t.run record.val = Run.idle)

/-- Register and window accesses over SPI and PCIe. An SPI read returns the dwords of BAR0, or the bytes of the
window, from its address upward, and zeros from an address that is no multiple of 4; STATUS and ID return what
R599 says and clear ERR; a whole dword written to a plain register stores its writable bits; 1 to 3 bytes left
over and a partial byte enable are logged as BYTE_ENABLE, a misaligned SPI write as MISALIGNED and more than 16
dwords as OVERSIZE; a window write of permitted bytes stores them, a read returns them. -/
def Obligations.HostAccesses : Prop :=
  (∀ (s : State) (addr : BitVec 32) (dwords : Fin 1025) (corrected : Fin 1025) (bad : List (BitVec 32)),
      s.reaches .spi = true →
      addr.toNat % 4 = 0 →
      addr.toNat < 2 ^ 31 →
      Completes (.spiRead addr dwords corrected bad) s fun t =>
        t.u.hif.spiErr = false ∧ t.mem = s.mem ∧
        t.u.hif.spiOut = (List.range dwords.val).flatMap fun k => leBytes 4 (((Act.setB HIF_STATUS_SPI_SEL true).run s).readDword ((addr.toNat + 4 * k) % 2 ^ 24)).toNat) ∧
  (∀ (s : State) (addr : BitVec 32) (dwords : Fin 1025) (corrected : Fin 1025) (bad : List (BitVec 32)),
      s.reaches .spi = true →
      addr.toNat % 4 = 0 →
      2 ^ 31 ≤ addr.toNat →
      Completes (.spiRead addr dwords corrected bad) s fun t =>
        t.u.hif.spiOut = s.barRead (addr.toNat % 2 ^ 28) (4 * dwords.val)) ∧
  (∀ (s : State) (addr : BitVec 32) (dwords : Fin 1025) (corrected : Fin 1025) (bad : List (BitVec 32)),
      s.reaches .spi = true →
      addr.toNat % 4 ≠ 0 →
      Completes (.spiRead addr dwords corrected bad) s fun t =>
        t.u.hif.spiOut = List.replicate (4 * dwords.val) 0 ∧ t.fld HIF_ACCERR_REASON = 5 ∧ t.reg HIF_ACCERR_ADDR = addr ∧ t.reg HIF_ACCERR_CNT = satNext (s.reg HIF_ACCERR_CNT)) ∧
  (∀ (s : State) (addr : BitVec 32) (v : BitVec 32) (m : Moment) (r : Row),
      s.reaches .spi = true →
      addr.toNat % 4 = 0 →
      addr.toNat < 2 ^ 24 →
      rowOf addr.toNat = some r →
      writes addr.toNat r = true →
      inMsixTable addr.toNat = false →
      guardAt addr.toNat = none →
      s.permits addr.toNat = true →
      (Act.special .spi addr.toNat v m s).isNone = true →
      Completes (.spiWrite addr (leBytes 4 v.toNat) m) s fun t =>
        t.reg addr.toNat = (s.reg addr.toNat &&& ~~~(BitVec.ofNat 32 r.writable)) ||| storedValue addr.toNat v ∧ t.u.hif.spiErr = false) ∧
  (∀ (s : State) (addr : BitVec 32) (bytes : List (BitVec 8)) (m : Moment),
      s.reaches .spi = true →
      addr.toNat % 4 = 0 →
      addr.toNat < 2 ^ 24 →
      0 < bytes.length →
      bytes.length < 4 →
      Completes (.spiWrite addr bytes m) s fun t =>
        t.fld HIF_ACCERR_REASON = 1 ∧ t.reg HIF_ACCERR_ADDR = addr ∧ t.reg HIF_ACCERR_CNT = satNext (s.reg HIF_ACCERR_CNT) ∧ t.u.hif.spiErr = true) ∧
  (∀ (s : State) (addr : BitVec 32) (bytes : List (BitVec 8)) (m : Moment),
      s.reaches .spi = true →
      addr.toNat % 4 ≠ 0 →
      Completes (.spiWrite addr bytes m) s fun t =>
        t.fld HIF_ACCERR_REASON = 5 ∧ t.reg HIF_ACCERR_ADDR = addr ∧ t.reg HIF_ACCERR_CNT = satNext (s.reg HIF_ACCERR_CNT) ∧ t.u.hif.spiErr = true) ∧
  (∀ (s : State),
      s.reaches .spi = true →
      Completes .spiStatus s fun t =>
        t.u.hif.spiErr = false ∧ t.u.hif.spiOut = [BitVec.ofNat 8 ((if s.u.hif.spiErr then 1 else 0) + (if 4 ≤ s.fld BOOT_STATUS_STAGE then 2 else 0) +
          (if s.mode = .recovery then 4 else 0) + (if s.fld EVT_STATUS_PENDING = 0 then 0 else 8))]) ∧
  (∀ (s : State),
      s.reaches .spi = true →
      Completes .spiId s fun t =>
        t.u.hif.spiErr = false ∧ t.u.hif.spiOut = leBytes 4 (s.reg GEN_CHIP_ID).toNat) ∧
  (∀ (s : State) (addr : BitVec 24) (v : BitVec 32) (m : Moment) (r : Row),
      s.reaches .pcie = true →
      addr.toNat % 4 = 0 →
      rowOf addr.toNat = some r →
      writes addr.toNat r = true →
      inMsixTable addr.toNat = false →
      guardAt addr.toNat = none →
      s.permits addr.toNat = true →
      (Act.special .pcie addr.toNat v m s).isNone = true →
      Completes (.registerWrite addr [(v, 15)] m) s fun t =>
        t.reg addr.toNat = (s.reg addr.toNat &&& ~~~(BitVec.ofNat 32 r.writable)) ||| storedValue addr.toNat v) ∧
  (∀ (s : State) (addr : BitVec 24) (v : BitVec 32) (en : BitVec 4) (m : Moment),
      s.reaches .pcie = true →
      addr.toNat % 4 = 0 →
      en ≠ 15 →
      Completes (.registerWrite addr [(v, en)] m) s fun t =>
        t.fld HIF_ACCERR_REASON = 1 ∧ t.reg HIF_ACCERR_ADDR = BitVec.ofNat 32 addr.toNat ∧ t.reg HIF_ACCERR_CNT = satNext (s.reg HIF_ACCERR_CNT) ∧ t.fld HIF_ACCERR_BYTE_EN = en.toNat) ∧
  (∀ (s : State) (addr : BitVec 24) (dwords : List (BitVec 32 × BitVec 4)) (m : Moment),
      s.reaches .pcie = true →
      16 < dwords.length →
      Completes (.registerWrite addr dwords m) s fun t =>
        t.fld HIF_ACCERR_REASON = 6 ∧ t.reg HIF_ACCERR_ADDR = BitVec.ofNat 32 (addr.toNat / 4 * 4) ∧ t.reg HIF_ACCERR_CNT = satNext (s.reg HIF_ACCERR_CNT)) ∧
  (∀ (s : State) (offset : BitVec 28) (len : Fin 4097) (corrected : Fin 4097) (bad : List (BitVec 32)),
      s.reaches .pcie = true →
      Completes (.bar2Read offset len corrected bad) s fun t =>
        t.u.hif.barOut = s.barRead offset.toNat len.val) ∧
  (∀ (s : State) (offset : BitVec 28) (bytes : List (Option (BitVec 8))),
      s.reaches .pcie = true →
      bytes.length ≤ 256 →
      (List.range bytes.length).all (fun k => (bytes.getD k none).isNone || (s.barWritable (s.winAddr (offset.toNat + k)) && s.barPermits (s.winAddr (offset.toNat + k)))) = true →
      Completes (.bar2Write offset bytes) s fun t =>
        (List.range bytes.length).all (fun k => (bytes.getD k none).all fun b => t.byte (s.winAddr (offset.toNat + k)) == b) = true ∧ t.regs = s.regs) ∧
  (∀ (s : State) (offset : BitVec 28) (b : BitVec 8),
      s.reaches .pcie = true →
      s.barWritable (s.winAddr offset.toNat) = false →
      Completes (.bar2Write offset [some b]) s fun t =>
        t.fld HIF_ACCERR_REASON = 4 ∧ t.reg HIF_ACCERR_ADDR = BitVec.ofNat 32 (2 ^ 31 + offset.toNat) ∧ t.reg HIF_ACCERR_CNT = satNext (s.reg HIF_ACCERR_CNT))

/-- Guard blocks: arming, the timeout and interruptions. A value written to X is armed and shows as ARMED; 10 µs
without the complement, a write behind X while armed and a complement with nothing armed reject the guard:
nothing stays armed, RESULT says why and HIF_GUARD_REJ counts it. -/
def Obligations.GuardBlocks : Prop :=
  (∀ (s : State) (iface : HostIface) (guard : GuardReg) (value : BitVec 32),
      s.reaches iface = true →
      Completes (.guardArm iface guard value) s fun t =>
        t.armed (guardAddr guard) = some value ∧ t.bit (guardArmed (guardAddr guard)) = true ∧
        (s.armed (guardAddr guard) = none → t.mem = s.mem ∧ t.reg HIF_GUARD_REJ = s.reg HIF_GUARD_REJ)) ∧
  (∀ (s : State) (guard : GuardReg) (x : Word),
      s.armed (guardAddr guard) = some x →
      Completes (.guardTimeout guard) s fun t =>
        t.armed (guardAddr guard) = none ∧ t.bit (guardArmed (guardAddr guard)) = false ∧ t.fld (guardResult (guardAddr guard)) = grdTimeout ∧
        t.reg HIF_GUARD_REJ = satNext (s.reg HIF_GUARD_REJ)) ∧
  (∀ (s : State) (iface : HostIface) (guard : GuardReg) (part : GuardPart) (x : Word),
      s.reaches iface = true →
      part ≠ .complement →
      s.armed (guardAddr guard) = some x →
      Completes (.guardInterrupt iface guard part) s fun t =>
        t.armed (guardAddr guard) = none ∧ t.bit (guardArmed (guardAddr guard)) = false ∧ t.fld (guardResult (guardAddr guard)) = grdInterrupted ∧
        t.reg HIF_GUARD_REJ = satNext (s.reg HIF_GUARD_REJ)) ∧
  (∀ (s : State) (iface : HostIface) (guard : GuardReg),
      s.reaches iface = true →
      s.armed (guardAddr guard) = none →
      Completes (.guardInterrupt iface guard .complement) s fun t =>
        t.fld (guardResult (guardAddr guard)) = grdMismatch ∧ t.reg HIF_GUARD_REJ = satNext (s.reg HIF_GUARD_REJ))

/-- The rings’ indexes and the journal request. A permitted doorbell that leaves no fewer entries untaken moves
TAIL; one that would is logged as RING and moves nothing; consumed completions and events move CONS where PROD
is not passed; the journal request posts the next and the oldest sequence number. -/
def Obligations.RingIndexes : Prop :=
  (∀ (s : State) (iface : HostIface) (value : BitVec 32),
      s.reaches iface = true →
      s.permits HIF_CMD_TAIL = true →
      (s.fld HIF_CMD_TAIL_TAIL + 4096 - s.fld ⟨HIF_CMD_HEAD, 0, 12⟩) % 4096 ≤ (fieldOf value 0 12 + 4096 - s.fld ⟨HIF_CMD_HEAD, 0, 12⟩) % 4096 →
      Completes (.cmdDoorbell iface value) s fun t =>
        t.fld HIF_CMD_TAIL_TAIL = fieldOf value 0 12 ∧ t.u.hif.bell = iface) ∧
  (∀ (s : State) (iface : HostIface) (value : BitVec 32),
      s.reaches iface = true →
      s.permits HIF_CMD_TAIL = true →
      (fieldOf value 0 12 + 4096 - s.fld ⟨HIF_CMD_HEAD, 0, 12⟩) % 4096 < (s.fld HIF_CMD_TAIL_TAIL + 4096 - s.fld ⟨HIF_CMD_HEAD, 0, 12⟩) % 4096 →
      Completes (.cmdDoorbell iface value) s fun t =>
        t.fld HIF_CMD_TAIL_TAIL = s.fld HIF_CMD_TAIL_TAIL ∧ t.fld HIF_ACCERR_REASON = 3 ∧ t.reg HIF_ACCERR_ADDR = BitVec.ofNat 32 HIF_CMD_TAIL ∧ t.reg HIF_ACCERR_CNT = satNext (s.reg HIF_ACCERR_CNT)) ∧
  (∀ (s : State) (iface : HostIface) (value : BitVec 32),
      s.reaches iface = true →
      s.permits HIF_CPL_CONS = true →
      (fieldOf value 0 12 + 4096 - s.fld HIF_CPL_CONS_CONS) % 4096 ≤ s.cplUsed →
      Completes (.cplConsume iface value) s fun t =>
        t.fld HIF_CPL_CONS_CONS = fieldOf value 0 12) ∧
  (∀ (s : State) (iface : HostIface) (ring : Fin 4) (value : BitVec 32),
      s.reaches iface = true →
      s.permits (EVT_RINGr_CONS ring) = true →
      (fieldOf value 0 13 + 8192 - s.fld (EVT_RINGr_CONS_CONS ring)) % 8192 ≤ s.ringUsed ring →
      Completes (.evtRingConsume iface ring value) s fun t =>
        t.fld (EVT_RINGr_CONS_CONS ring) = fieldOf value 0 13 ∧ t.mem = s.mem ∧ t.u = s.u) ∧
  (∀ (s : State) (iface : HostIface),
      s.reaches iface = true →
      s.permits HIF_JRN_REQ = true →
      Completes (.hifJrnReq iface) s fun t =>
        t.reg HIF_JRN_NEXT = BitVec.ofNat 32 s.u.hif.journalNext ∧ t.reg HIF_JRN_OLDEST = BitVec.ofNat 32 s.u.hif.journalOldest ∧
        t.reg HIF_JRN_REQ = 0x80000000 ∧ t.u = s.u)

/-- The node and system commands of the ring, event windows and general timers. NOP completes with OK; NODE_CMD for
a sleepy direct child with room on its list takes a buffer and completes; NODE_FORGET of a known node completes,
waiting where its listen window is open; JOIN_CONTROL sets MAC_JOIN.OPEN and TIME_OF_DAY the latched time;
SELFTEST_RUN completes, keeping what failed; a Bridle window that ends closes its entry, a moderation that ends
leaves the vector, and a general timer is bound to its beat. -/
def Obligations.NodeAndSystemCommands : Prop :=
  (∀ (s : State) (index : Fin 4096) (c : HostCmd),
      s.cmdAt index (fun o => o == 0x0001) = some c →
      c.mirrored = false →
      Completes (.nop index) s fun t =>
        Finished c s t ∧ (s.bit BT_STATUS_RUNNING = true → t.le (s.cplAddr + 10) 2 = 0 ∧ t.le (s.cplAddr + 16) 8 = 0)) ∧
  (∀ (s : State) (index : Fin 4096) (c : HostCmd) (pick : Pick) (nsa : Nat) (cls : Nat) (body : List Byte) (n : Nat) (i : Nat),
      s.cmdAt index (fun o => o == 0x0601) = some c →
      c.mirrored = false →
      nsa = c.arg 0 3 →
      cls = c.arg 6 1 →
      cls ≤ 4 →
      c.arg 3 1 = 1 → c.args.length = 12 →
      body = leBytes 1 (c.arg 3 1) ++ leBytes 2 (c.arg 4 2) ++ c.args.drop 8 ++ (if c.arg 3 1 = 1 then List.replicate 32 0 else []) →
      s.sleepyChild nsa = true →
      s.recValid nsa = true →
      (s.walk nsa fun _ => false).reason = 0 →
      sealedLength (s.downFrame ⟨5, nsa, cls, true, body⟩ (s.walk nsa fun _ => false).nsa (s.walk nsa fun _ => false).route) ≤ 1024 →
      s.downDecoder (s.bandOf (s.walk nsa fun _ => false).nsa pick.band) (s.walk nsa fun _ => false).nsa pick.decoder = some n →
      (s.pendList nsa).length < 8 →
      firstFree s.u.mac.poolUsed s.poolCount = some i →
      Completes (.nodeCmd index pick) s fun t =>
        Finished c s t ∧ t.u.mac.poolUsed = s.u.mac.poolUsed ++ [i]) ∧
  (∀ (s : State) (index : Fin 4096) (c : HostCmd) (pick : Pick),
      s.cmdAt index (fun o => o == 0x0601) = some c →
      c.mirrored = false →
      c.arg 3 1 = 1 →
      c.args.length ≠ 12 →
      8 ≤ c.args.length →
      Completes (.nodeCmd index pick) s fun t =>
        Finished c s t ∧ (s.bit BT_STATUS_RUNNING = true → t.le (s.cplAddr + 10) 2 = stBadArgs)) ∧
  (∀ (s : State) (index : Fin 4096) (c : HostCmd),
      s.cmdAt index (fun o => o == 0x0602) = some c →
      c.mirrored = false →
      s.recValid (c.arg 0 3) = true →
      s.listenOf (c.arg 0 3) = none →
      Completes (.nodeForget index) s fun t =>
        Finished c s t ∧ (s.bit BT_STATUS_RUNNING = true → t.le (s.cplAddr + 10) 2 = 0)) ∧
  (∀ (s : State) (index : Fin 4096) (c : HostCmd) (l : Listen),
      s.cmdAt index (fun o => o == 0x0602) = some c →
      c.mirrored = false →
      s.recValid (c.arg 0 3) = true →
      s.listenOf (c.arg 0 3) = some l →
      Completes (.nodeForget index) s fun t =>
        Finished c s t ∧ (t.listenOf (c.arg 0 3)).isSome = true ∧ (t.listenOf (c.arg 0 3)).all (·.forget) = true) ∧
  (∀ (s : State) (index : Fin 4096) (c : HostCmd),
      s.cmdAt index (fun o => o == 0x0603) = some c →
      c.mirrored = false →
      Completes (.joinControl index) s fun t =>
        Finished c s t ∧ t.fld MAC_JOIN_OPEN = c.arg 0 1 % 2) ∧
  (∀ (s : State) (index : Fin 4096) (c : HostCmd),
      s.cmdAt index (fun o => o == 0x0701) = some c →
      c.mirrored = false →
      Completes (.timeOfDay index) s fun t =>
        Finished c s t ∧ t.u.tk.tod = some (c.arg 0 6)) ∧
  (∀ (s : State) (index : Fin 4096) (c : HostCmd) (failed : List TestFail),
      s.cmdAt index (fun o => o == 0x0801) = some c →
      c.mirrored = false →
      failed.contains .voter = false →
      Completes (.selftestRun index failed) s fun t =>
        Finished c s t ∧ t.u.pair.ecdsaBad = failed.contains .ecdsa) ∧
  (∀ (s : State) (index : Fin 64) (b : BridleEntry),
      s.u.evt.bridle[index.val]? = some b →
      (!s.bit BT_STATUS_RUNNING || b.window == 0) = true →
      s.bit (EVT_BRIDLE_n 124) = false →
      Completes (.eventBridleWindowEnd index) s fun t =>
        t.u.evt.bridle = s.u.evt.bridle.eraseIdx index.val) ∧
  (∀ (s : State) (vector : Fin 128) (x : Nat × Bool),
      (s.u.evt.cooling.find? fun d => d.1 == vector.val) = some x →
      Completes (.msixModerationExpiry vector) s fun t =>
        (t.u.evt.cooling.filter fun d => !(d.1 == vector.val)) = (s.u.evt.cooling.filter fun d => !(d.1 == vector.val)) ∧
        (x.2 = false → t.regs = s.regs ∧ t.u.evt.cooling = s.u.evt.cooling.filter fun d => !(d.1 == vector.val))) ∧
  (∀ (s : State) (gt : Fin 8),
      s.bit BT_STATUS_RUNNING = true →
      s.shadows = false →
      s.u.pwr.driftEntry < 2 →
      Completes (.gtTimerExpiry gt) s fun t =>
        t.u.bt.timers = s.u.bt.timers ++ [(gt.val, s.bindBeat)])

/-- Frames of the commands that raise nothing, first part. Each command named leaves every register outside the
spans listed for it, all of memory, and every unit it does not name as they were. -/
def Obligations.FrameQuietA : Prop :=
  (∀ (s : State), Completes .planWindowClose s fun t =>
      KeepsQuiet [(BT_STATUS, 1)] s t ∧
      t.u = { s.u with sch := t.u.sch }) ∧
  (∀ (s : State), Completes .bindLine s fun t =>
      KeepsQuiet [(BT_STATUS, 1)] s t ∧
      t.u = s.u) ∧
  (∀ (s : State), Completes .dozeEnginesReturn s fun t =>
      KeepsQuiet [(BT_ENG_STATE, 1)] s t ∧
      t.u = { s.u with bt := t.u.bt }) ∧
  (∀ (s : State) (pe : Fin 16) (thread : Fin 4) (frame : BitVec 32) (codeword : Fin 16) (limit : Fin 33) (out : BitVec 18), Completes (.ldpcRedecode pe thread frame codeword limit out) s fun t =>
      KeepsQuiet [(BT_PEn_STAT 0, 16), (BT_PEn_TAGSTALL 0, 16), (RXD_STATUS, 1)] s t ∧
      t.u = { s.u with bt := t.u.bt, accel := t.u.accel, rx := t.u.rx }) ∧
  (∀ (s : State) (pe : Fin 16) (thread : Fin 4) (key : KeyName) (addr : BitVec 18) (len : Fin 1025) (out : BitVec 18), Completes (.ccmSeal pe thread key addr len out) s fun t =>
      KeepsQuiet [(BT_PEn_STAT 0, 16), (BT_PEn_TAGSTALL 0, 16)] s t ∧
      t.u = { s.u with bt := t.u.bt, accel := t.u.accel }) ∧
  (∀ (s : State) (pe : Fin 16) (thread : Fin 4) (key : KeyName) (addr : BitVec 18) (len : Fin 1025) (out : BitVec 18), Completes (.ccmOpen pe thread key addr len out) s fun t =>
      KeepsQuiet [(BT_PEn_STAT 0, 16), (BT_PEn_TAGSTALL 0, 16)] s t ∧
      t.u = { s.u with bt := t.u.bt, accel := t.u.accel }) ∧
  (∀ (s : State) (pe : Fin 16) (thread : Fin 4) (slot : Fin 1024) (label : BitVec 256), Completes (.kdfDerive pe thread slot label) s fun t =>
      KeepsQuiet [(BT_PEn_STAT 0, 16), (BT_PEn_TAGSTALL 0, 16)] s t ∧
      t.u = { s.u with bt := t.u.bt, accel := t.u.accel }) ∧
  (∀ (s : State) (pe : Fin 16) (thread : Fin 4) (slot : Fin 1024) (addr : BitVec 18) (len : BitVec 18) (out : BitVec 18), Completes (.cmacCompute pe thread slot addr len out) s fun t =>
      KeepsQuiet [(BT_PEn_STAT 0, 16), (BT_PEn_TAGSTALL 0, 16)] s t ∧
      t.u = { s.u with bt := t.u.bt, accel := t.u.accel }) ∧
  (∀ (s : State) (pe : Fin 16) (thread : Fin 4) (state block out : BitVec 18), Completes (.sha256Block pe thread state block out) s fun t =>
      KeepsQuiet [(BT_PEn_STAT 0, 16), (BT_PEn_TAGSTALL 0, 16)] s t ∧
      t.u = { s.u with bt := t.u.bt, accel := t.u.accel }) ∧
  (∀ (s : State) (pe : Fin 16) (thread : Fin 4) (key sig hash : BitVec 18), Completes (.ecdsaVerify pe thread key sig hash) s fun t =>
      KeepsQuiet [(BT_PEn_STAT 0, 16), (BT_PEn_TAGSTALL 0, 16)] s t ∧
      t.u = { s.u with bt := t.u.bt, accel := t.u.accel }) ∧
  (∀ (s : State) (pe : Fin 16) (thread : Fin 4) (final : BitVec 24) (out : BitVec 18), Completes (.routeWalk pe thread final out) s fun t =>
      KeepsQuiet [(BT_PEn_STAT 0, 16), (BT_PEn_TAGSTALL 0, 16)] s t ∧
      t.u = { s.u with bt := t.u.bt, accel := t.u.accel }) ∧
  (∀ (s : State) (pe : Fin 16) (thread : Fin 4) (queue : Fin 4096) (start : BitVec 32) (decoder : Fin 80) (cls : Fin 4) (length : Fin 1025), Completes (.placementRequest pe thread queue start decoder cls length) s fun t =>
      KeepsQuiet [(BT_PEn_STAT 0, 16), (BT_PEn_TAGSTALL 0, 16)] s t ∧
      t.u = { s.u with bt := t.u.bt, accel := t.u.accel, env := t.u.env, rx := t.u.rx }) ∧
  (∀ (s : State) (pe : Fin 16) (thread : Fin 4) (out : BitVec 18), Completes (.planQuery pe thread out) s fun t =>
      KeepsQuiet [(BT_PEn_STAT 0, 16), (BT_PEn_TAGSTALL 0, 16)] s t ∧
      t.u = { s.u with bt := t.u.bt, accel := t.u.accel }) ∧
  (∀ (s : State) (pe : Fin 16) (thread : Fin 4) (src dst : CopySide) (len : BitVec 19), Completes (.envelopeCopy pe thread src dst len) s fun t =>
      KeepsQuiet [(BT_PEn_STAT 0, 16), (BT_PEn_TAGSTALL 0, 16)] s t ∧
      t.u = { s.u with bt := t.u.bt, accel := t.u.accel }) ∧
  (∀ (s : State) (pe : Fin 16) (slot : Fin 48), Completes (.completionTake pe slot) s fun t =>
      KeepsQuiet [(BT_PEn_STAT 0, 16)] s t ∧
      t.u = { s.u with bt := t.u.bt }) ∧
  (∀ (s : State), Completes .vddEngSettled s fun t =>
      KeepsQuiet [] s t ∧
      t.u = { s.u with pwr := t.u.pwr }) ∧
  (∀ (s : State) (chain : Chain) (us : BitVec 16), Completes (.txLockConfirmed chain us) s fun t =>
      KeepsQuiet [(RFx_STATUS .s, 1), (RFx_STATUS .w, 1), (RFx_TX_CAL .s, 1), (RFx_TX_CAL .w, 1), (RFx_TXn_STAT .s 0, 2), (RFx_TXn_STAT .w 0, 2)] s t ∧
      t.u = { s.u with rf := t.u.rf }) ∧
  (∀ (s : State) (chain : Chain), Completes (.ccaStart chain) s fun t =>
      KeepsQuiet [(RFx_CCA_RESTART .s, 1), (RFx_CCA_RESTART .w, 1), (RFx_TXn_STAT .s 0, 2), (RFx_TXn_STAT .w 0, 2)] s t ∧
      t.u = { s.u with sch := t.u.sch, rf := t.u.rf, mac := t.u.mac }) ∧
  (∀ (s : State) (chain : Chain), Completes (.backoffExpiry chain) s fun t =>
      KeepsQuiet [(RFx_CCA_RESTART .s, 1), (RFx_CCA_RESTART .w, 1), (RFx_TXn_STAT .s 0, 2), (RFx_TXn_STAT .w 0, 2)] s t ∧
      t.u = { s.u with rf := t.u.rf }) ∧
  (∀ (s : State) (chain : Chain), Completes (.txPaEnable chain) s fun t =>
      KeepsQuiet [] s t ∧
      t.u = { s.u with rf := t.u.rf }) ∧
  (∀ (s : State) (chain : Chain) (off : Fin 1000000), Completes (.txRampUpStart chain off) s fun t =>
      KeepsQuiet [] s t ∧
      t.u = { s.u with rf := t.u.rf }) ∧
  (∀ (s : State) (chain : Chain), Completes (.txPaDisable chain) s fun t =>
      KeepsQuiet [(RFx_STATUS .s, 1), (RFx_STATUS .w, 1), (RFx_TX_CAL .s, 1), (RFx_TX_CAL .w, 1), (RFx_TXn_STAT .s 0, 2), (RFx_TXn_STAT .w 0, 2)] s t ∧
      t.u = { s.u with rf := t.u.rf }) ∧
  (∀ (s : State) (chain : Chain), Completes (.txTrReturn chain) s fun t =>
      KeepsQuiet [(RFx_STATUS .s, 1), (RFx_STATUS .w, 1), (RFx_TX_CAL .s, 1), (RFx_TX_CAL .w, 1), (RFx_TXn_STAT .s 0, 2), (RFx_TXn_STAT .w 0, 2)] s t ∧
      t.u = { s.u with rf := t.u.rf }) ∧
  (∀ (s : State) (chain : Chain) (ack : Bool), Completes (.cxRequestRaise chain ack) s fun t =>
      KeepsQuiet [(RFx_STATUS .s, 1), (RFx_STATUS .w, 1)] s t ∧
      t.u = { s.u with sch := t.u.sch, rf := t.u.rf, mac := t.u.mac }) ∧
  (∀ (s : State) (port : RfPort), Completes (.cxRelease port) s fun t =>
      KeepsQuiet [(RFx_STATUS .s, 1), (RFx_STATUS .w, 1)] s t ∧
      t.u = { s.u with rf := t.u.rf }) ∧
  (∀ (s : State) (port : RfPort), Completes (.gainStepEffective port) s fun t =>
      KeepsQuiet [(RFx_STATUS .s, 1), (RFx_STATUS .w, 1), (RXD_AGCx_STAT .s, 1), (RXD_AGCx_STAT .w, 1)] s t ∧
      t.u = { s.u with rx := t.u.rx }) ∧
  (∀ (s : State) (decoder : Fin 80) (found : Detection), Completes (.preambleDetect decoder found) s fun t =>
      KeepsQuiet [(RXD_CHn_DET 0, 80), (RXD_CHn_STAT 0, 80)] s t ∧
      t.u = { s.u with rx := t.u.rx }) ∧
  (∀ (s : State) (decoder : Fin 80) (soft : List Soft), Completes (.codewordEnd decoder soft) s fun t =>
      KeepsQuiet [(RXD_STATUS, 1)] s t ∧
      t.u = { s.u with rx := t.u.rx }) ∧
  (∀ (s : State), Completes .ldpcDispatch s fun t =>
      KeepsQuiet [(RXD_STATUS, 1)] s t ∧
      t.u = { s.u with rx := t.u.rx }) ∧
  (∀ (s : State), Completes .macFrameReceived s fun t =>
      KeepsQuiet [(MAC_DROPr 0, 16)] s t ∧
      t.u = { s.u with rx := t.u.rx, mac := t.u.mac }) ∧
  (∀ (s : State) (node : BitVec 24) (off : Fin 1000000), Completes (.listenWindowClose node off) s fun t =>
      KeepsQuiet [(MAC_LISTEN_MISS, 1)] s t ∧
      t.u = { s.u with mac := t.u.mac }) ∧
  (∀ (s : State), Completes .fwdOpComplete s fun t =>
      KeepsQuiet [(FWD_CMD_STAT, 1), (FWD_RESx 0, 4)] s t ∧
      t.u = { s.u with fwd := t.u.fwd }) ∧
  (∀ (s : State), Completes .ageingDeletePhase s fun t =>
      KeepsQuiet [(FWD_STATUS, 1), (FWD_TBLn_AGED 0, 4), (FWD_TBLn_CAD_LOST 0, 4), (FWD_TBLn_COUNT 0, 4)] s t ∧
      t.u = { s.u with fwd := t.u.fwd, sch := t.u.sch, pair := t.u.pair }) ∧
  (∀ (s : State), Completes .blockResyncApply s fun t =>
      KeepsQuiet [(FWD_STATUS, 1), (FWD_TBLn_COUNT 0, 4)] s t ∧
      t.u = { s.u with fwd := t.u.fwd }) ∧
  (∀ (s : State), Completes .envQcmdComplete s fun t =>
      KeepsQuiet [(ENV_QCMD_STAT, 1), (ENV_QRESx 0, 8)] s t ∧
      t.u = { s.u with env := t.u.env }) ∧
  (∀ (s : State) (port : EthPort), Completes (.uplinkSelect port) s fun t =>
      KeepsQuiet [(SCH_ULk_SENT 0, 16)] s t ∧
      t.u = { s.u with sch := t.u.sch, eth := t.u.eth, pair := t.u.pair })

/-- Frames of the commands that raise nothing, second part. Each command named leaves every register outside the
spans listed for it, all of memory, and every unit it does not name as they were. -/
def Obligations.FrameQuietB : Prop :=
  (∀ (s : State), Completes .shaperTick s fun t =>
      KeepsQuiet [] s t ∧
      t.u = { s.u with sch := t.u.sch }) ∧
  (∀ (s : State) (pin : Fin 2) (high : Bool), Completes (.tamperPinEdge pin high) s fun t =>
      KeepsQuiet [(SEC_TAMPER_STAT, 1)] s t ∧
      t.u = { s.u with pins := t.u.pins, sec := t.u.sec }) ∧
  (∀ (s : State), Completes .ppsFall s fun t =>
      KeepsQuiet [] s t ∧
      t.u = { s.u with tk := t.u.tk }) ∧
  (∀ (s : State), Completes .beatOutFall s fun t =>
      KeepsQuiet [] s t ∧
      t.u = { s.u with tk := t.u.tk }) ∧
  (∀ (s : State) (port : EthPort), Completes (.ethAutodetectSwitch port) s fun t =>
      KeepsQuiet [] s t ∧
      t.u = { s.u with eth := t.u.eth }) ∧
  (∀ (s : State) (port : EthPort), Completes (.ethPauseExpiry port) s fun t =>
      KeepsQuiet [(ETH_STATUS, 1)] s t ∧
      t.u = s.u) ∧
  (∀ (s : State) (port : EthPort), Completes (.pauseRefresh port) s fun t =>
      KeepsQuiet [] s t ∧
      t.u = { s.u with eth := t.u.eth }) ∧
  (∀ (s : State) (port : EthPort), Completes (.naAnnounce port) s fun t =>
      KeepsQuiet [] s t ∧
      t.u = { s.u with eth := t.u.eth }) ∧
  (∀ (s : State), Completes .tetherSend s fun t =>
      KeepsQuiet [] s t ∧
      t.u = { s.u with pair := t.u.pair }) ∧
  (∀ (s : State) (lseq : BitVec 32) (t : TetherIn), Completes (.tetherReceived lseq t) s fun t =>
      KeepsQuiet [(PAIR_SCORE, 1), (PAIR_STATUS, 1)] s t ∧
      t.u = { s.u with boot := t.u.boot, pair := t.u.pair }) ∧
  (∀ (s : State), Completes .tetherMiss s fun t =>
      KeepsQuiet [(PAIR_TETHER_MISS, 1)] s t ∧
      t.u = s.u) ∧
  (∀ (s : State), Completes .aliveWatchdogExpiry s fun t =>
      KeepsQuiet [(PAIR_STATUS, 1)] s t ∧
      t.u = s.u) ∧
  (∀ (s : State), Completes .startClaim s fun t =>
      KeepsQuiet [(PAIR_STATUS, 1)] s t ∧
      t.u = { s.u with pair := t.u.pair }) ∧
  (∀ (s : State), Completes .sealWaitExpiry s fun t =>
      KeepsQuiet [] s t ∧
      t.u = { s.u with pair := t.u.pair }) ∧
  (∀ (s : State) (lseq wanted : BitVec 32), Completes (.resendReceived lseq wanted) s fun t =>
      KeepsQuiet [(PAIR_RESENDS, 1)] s t ∧
      t.u = { s.u with pair := t.u.pair }) ∧
  (∀ (s : State) (lseq : BitVec 32) (rx : AirRx), Completes (.diversityReceived lseq rx) s fun t =>
      KeepsQuiet [(PAIR_DIV_DUP, 1), (PAIR_DIV_IN, 1)] s t ∧
      t.u = { s.u with rx := t.u.rx, pair := t.u.pair }) ∧
  (∀ (s : State) (lseq : BitVec 32) (decoder : Fin 80) (codeword : Fin 16) (stopNs : BitVec 64) (llrs : List (BitVec 6)), llrsOk llrs = true → Completes (.llrReceived lseq decoder codeword stopNs llrs) s fun t =>
      KeepsQuiet [(RXD_STATUS, 1)] s t ∧
      t.u = { s.u with rx := t.u.rx, pair := t.u.pair }) ∧
  (∀ (s : State) (lseq : BitVec 32) (sent echo : BitVec 64) (edges : BitVec 40), Completes (.timeFrameReceived lseq sent echo edges) s fun t =>
      KeepsQuiet [(TK_STATUS, 1)] s t ∧
      t.u = { s.u with freeCount := t.u.freeCount, tk := t.u.tk, pair := t.u.pair }) ∧
  (∀ (s : State), Completes .switchAckTimeout s fun t =>
      KeepsQuiet [(PAIR_CMD_STAT, 1)] s t ∧
      t.u = { s.u with pair := t.u.pair }) ∧
  (∀ (s : State) (lseq : BitVec 32) (verdict : Verdict) (score : BitVec 8), Completes (.arbReceived lseq verdict score) s fun t =>
      KeepsQuiet [] s t ∧
      t.u = { s.u with pair := t.u.pair }) ∧
  (∀ (s : State) (lseq : BitVec 32), Completes (.yieldReceived lseq) s fun t =>
      KeepsQuiet [] s t ∧
      t.u = { s.u with pair := t.u.pair }) ∧
  (∀ (s : State) (lseq : BitVec 32) (table : Fin 4) (block : BitVec 8) (entries : List (BitVec 128)), blockOk entries = true → Completes (.blockFrameReceived lseq table block entries) s fun t =>
      KeepsQuiet [(FWD_STATUS, 1)] s t ∧
      t.u = { s.u with fwd := t.u.fwd, pair := t.u.pair }) ∧
  (∀ (s : State) (consistent : Bool), Completes (.reexecutionDone consistent) s fun t =>
      KeepsQuiet [] s t ∧
      t.u = { s.u with pair := t.u.pair }) ∧
  (∀ (s : State), Completes .reexecutionDeadline s fun t =>
      KeepsQuiet [] s t ∧
      t.u = { s.u with pair := t.u.pair }) ∧
  (∀ (s : State), Completes .syncRetryExpiry s fun t =>
      KeepsQuiet [] s t ∧
      t.u = { s.u with pair := t.u.pair }) ∧
  (∀ (s : State), Completes .reclaimHoldExpiry s fun t =>
      KeepsQuiet [] s t ∧
      t.u = { s.u with freeCount := t.u.freeCount, pair := t.u.pair }) ∧
  (∀ (s : State) (high : Bool), Completes (.mainsSenseEdge high) s fun t =>
      KeepsQuiet [] s t ∧
      t.u = { s.u with pins := t.u.pins }) ∧
  (∀ (s : State), Completes .sniffCycleStart s fun t =>
      KeepsQuiet [] s t ∧
      t.u = { s.u with pwr := t.u.pwr }) ∧
  (∀ (s : State), Completes .commissionWaitExpiry s fun t =>
      KeepsQuiet [] s t ∧
      t.u = { s.u with pwr := t.u.pwr, boot := t.u.boot }) ∧
  (∀ (s : State) (record : Fin 16) (node : BitVec 24), Completes (.enrolRetryExpiry record node) s fun t =>
      KeepsQuiet [] s t ∧
      t.u = { s.u with img := t.u.img }) ∧
  (∀ (s : State), Completes .spiStatus s fun t =>
      KeepsQuiet [] s t ∧
      t.u = { s.u with hif := t.u.hif }) ∧
  (∀ (s : State), Completes .spiId s fun t =>
      KeepsQuiet [] s t ∧
      t.u = { s.u with hif := t.u.hif }) ∧
  (∀ (s : State) (vector : Fin 128), Completes (.msixModerationExpiry vector) s fun t =>
      KeepsQuiet [(EVT_MSIX_SENT, 1), ((MSIX_PENDING 0).reg, 4)] s t ∧
      t.u = { s.u with evt := t.u.evt }) ∧
  (∀ (s : State) (gt : Fin 8), Completes (.gtTimerExpiry gt) s fun t =>
      KeepsQuiet [] s t ∧
      t.u = { s.u with bt := t.u.bt, pair := t.u.pair }) ∧
  (∀ (s : State), Completes .linkFrameCrcFail s fun t =>
      KeepsQuiet [(PAIR_LINK_CRC, 1)] s t ∧
      t.u = { s.u with pair := t.u.pair }) ∧
  (∀ (s : State), Completes .switchoverAliveClaim s fun t =>
      KeepsQuiet [(PAIR_STATUS, 1)] s t ∧
      t.u = s.u)

/-- Frames of the commands that may raise events, first part. Each command named leaves every register outside the
spans listed for it and those of the events, every byte outside the event rings, and every unit it does not name
as they were. -/
def Obligations.FrameEventsA : Prop :=
  (∀ (s : State) (high : Bool), Completes (.perstNEdge high) s fun t =>
      KeepsEvents [(HIF_STATUS, 1)] s t ∧
      t.u = { s.u with pins := t.u.pins, bt := t.u.bt, hif := t.u.hif, evt := t.u.evt }) ∧
  (∀ (s : State) (link : Option PcieLink), Completes (.pcieLinkChange link) s fun t =>
      KeepsEvents [(HIF_STATUS, 1)] s t ∧
      t.u = { s.u with bt := t.u.bt, hif := t.u.hif, evt := t.u.evt, rx := t.u.rx }) ∧
  (∀ (s : State), Completes .tmrCopyReload s fun t =>
      KeepsEvents [(BT_STATUS, 1), (BT_TMR_FIX, 1), (PAIR_TMR_FIX, 1)] s t ∧
      t.u = { s.u with bt := t.u.bt, evt := t.u.evt, pair := t.u.pair }) ∧
  (∀ (s : State) (pe : Fin 16) (uncorrectable : Bool), Completes (.engineSramError pe uncorrectable) s fun t =>
      KeepsEvents [(BT_ENG_STATE, 1), (BT_LATE_TOTAL, 1), (BT_PEn_LATE 0, 16), (BT_PEn_STAT 0, 16), (BT_SRAM_CORR, 1), (RXD_STATUS, 1)] s t ∧
      t.u = { s.u with bt := t.u.bt, evt := t.u.evt, accel := t.u.accel, rx := t.u.rx, pair := t.u.pair }) ∧
  (∀ (s : State) (pe : Fin 16), Completes (.engineRestored pe) s fun t =>
      KeepsEvents [(BT_ENG_STATE, 1)] s t ∧
      t.u = { s.u with bt := t.u.bt, evt := t.u.evt }) ∧
  (∀ (s : State) (upset : Bool), Completes (.cipherDispatch upset) s fun t =>
      KeepsEvents [(BT_PEn_STAT 0, 16), (SEC_CACHE_HIT, 1), (SEC_CACHE_MISS, 1), (SEC_DERIVE, 1), (SEC_INVALID_KEY, 1), (SEC_ORPHANS, 1), (SEC_STATUS, 1), (SEC_TORN, 1)] s t ∧
      t.u = { s.u with bt := t.u.bt, evt := t.u.evt, accel := t.u.accel, sec := t.u.sec, pair := t.u.pair }) ∧
  (∀ (s : State) (iface : HostIface), Completes (.beatSnapshotReq iface) s fun t =>
      KeepsEvents ([(BT_BEAT_HI, 1), (BT_BEAT_LO, 1), (BT_BEAT_REQ, 1), (BT_SAMPLE_HI, 1), (BT_SAMPLE_LO, 1)] ++ accessRegs) s t ∧
      t.u = { s.u with bt := t.u.bt, hif := t.u.hif, evt := t.u.evt }) ∧
  (∀ (s : State), Completes .vsettleTimeout s fun t =>
      KeepsEvents [(PWR_LEVEL_FAIL, 1)] s t ∧
      t.u = { s.u with bt := t.u.bt, pwr := t.u.pwr, evt := t.u.evt }) ∧
  (∀ (s : State), Completes .levelChangeDone s fun t =>
      KeepsEvents [(BT_PEn_STAT 0, 16), (BT_STATUS, 1), (PWR_LEVEL_CHANGES, 1), (PWR_REQ_STAT, 1), (PWR_STATUS, 1)] s t ∧
      t.u = { s.u with bt := t.u.bt, pwr := t.u.pwr, evt := t.u.evt }) ∧
  (∀ (s : State) (iface : HostIface) (port : RfPort) (value : BitVec 32), Completes (.rxRecalRequest iface port value) s fun t =>
      KeepsEvents ([(RFx_RXCAL_REFUSED .s, 1), (RFx_RXCAL_REFUSED .w, 1), (RFx_STATUS .s, 1), (RFx_STATUS .w, 1), (RXD_CHn_STAT 0, 80), (RXD_STATUS, 1)] ++ accessRegs) s t ∧
      t.u = { s.u with bt := t.u.bt, hif := t.u.hif, evt := t.u.evt, rf := t.u.rf }) ∧
  (∀ (s : State) (port : RfPort) (off : Fin 1000000) (sample : BitVec 64), Completes (.rxRecalStart port off sample) s fun t =>
      KeepsEvents [(MAC_ACK_DROP, 1), (RFx_CCA_RESTART .s, 1), (RFx_CCA_RESTART .w, 1), (RFx_STATUS .s, 1), (RFx_STATUS .w, 1), (RFx_TXn_STAT .s 0, 2), (RFx_TXn_STAT .w 0, 2), (RXD_AGCx_STAT .s, 1), (RXD_AGCx_STAT .w, 1), (RXD_ANN_GAP_x .s, 1), (RXD_ANN_GAP_x .w, 1), (RXD_CHn_ABORT 0, 80), (RXD_CHn_CAPTURED 0, 80), (RXD_CHn_DEC_FAIL 0, 80), (RXD_CHn_FALSE 0, 80), (RXD_CHn_FRAME_OK 0, 80), (RXD_CHn_STAT 0, 80), (RXD_STATUS, 1), (RXD_STEPS_x .s, 1), (RXD_STEPS_x .w, 1)] s t ∧
      t.u = { s.u with bt := t.u.bt, evt := t.u.evt, sch := t.u.sch, rf := t.u.rf, rx := t.u.rx, mac := t.u.mac, pair := t.u.pair }) ∧
  (∀ (s : State) (port : RfPort) (off : Fin 1000000) (sample : BitVec 64) (locked : Bool) (steps : List (BitVec 10)) (us : BitVec 16), Completes (.rxRecalDone port off sample locked steps us) s fun t =>
      KeepsEvents [(RFx_BLANK_US .s, 1), (RFx_BLANK_US .w, 1), (RFx_STATUS .s, 1), (RFx_STATUS .w, 1), (RFx_TXn_STAT .s 0, 2), (RFx_TXn_STAT .w 0, 2), (RXD_AGCx_STAT .s, 1), (RXD_AGCx_STAT .w, 1), (RXD_ANN_GAP_x .s, 1), (RXD_ANN_GAP_x .w, 1), (RXD_CHn_ABORT 0, 80), (RXD_CHn_CAPTURED 0, 80), (RXD_CHn_DEC_FAIL 0, 80), (RXD_CHn_FALSE 0, 80), (RXD_CHn_FRAME_OK 0, 80), (RXD_CHn_STAT 0, 80), (RXD_STATUS, 1), (RXD_STEPS_x .s, 1), (RXD_STEPS_x .w, 1), (RXD_STEPTAB_xi .s 0, 24), (RXD_STEPTAB_xi .w 0, 24)] s t ∧
      t.u = { s.u with bt := t.u.bt, evt := t.u.evt, rf := t.u.rf, rx := t.u.rx, pair := t.u.pair }) ∧
  (∀ (s : State) (port : RfPort) (off : Fin 1000000) (sample : BitVec 64), Completes (.rxSynthUnlock port off sample) s fun t =>
      KeepsEvents [(MAC_ACK_DROP, 1), (RFx_CCA_RESTART .s, 1), (RFx_CCA_RESTART .w, 1), (RFx_STATUS .s, 1), (RFx_STATUS .w, 1), (RFx_TXn_STAT .s 0, 2), (RFx_TXn_STAT .w 0, 2), (RXD_AGCx_STAT .s, 1), (RXD_AGCx_STAT .w, 1), (RXD_ANN_GAP_x .s, 1), (RXD_ANN_GAP_x .w, 1), (RXD_CHn_ABORT 0, 80), (RXD_CHn_CAPTURED 0, 80), (RXD_CHn_DEC_FAIL 0, 80), (RXD_CHn_FALSE 0, 80), (RXD_CHn_FRAME_OK 0, 80), (RXD_CHn_STAT 0, 80), (RXD_STATUS, 1), (RXD_STEPS_x .s, 1), (RXD_STEPS_x .w, 1)] s t ∧
      t.u = { s.u with bt := t.u.bt, evt := t.u.evt, sch := t.u.sch, rf := t.u.rf, rx := t.u.rx, mac := t.u.mac, pair := t.u.pair }) ∧
  (∀ (s : State) (chain : Chain) (off : Fin 1000000), Completes (.txHoldDecision chain off) s fun t =>
      KeepsEvents [(MAC_ACK_DROP, 1), (RFx_LATE_SYNTH .s, 1), (RFx_LATE_SYNTH .w, 1), (RFx_STATUS .s, 1), (RFx_STATUS .w, 1), (RFx_TXn_STAT .s 0, 2), (RFx_TXn_STAT .w 0, 2)] s t ∧
      t.u = { s.u with bt := t.u.bt, evt := t.u.evt, sch := t.u.sch, rf := t.u.rf, mac := t.u.mac, pair := t.u.pair }) ∧
  (∀ (s : State) (chain : Chain) (ack : Bool) (off : Fin 1000000) (sample : BitVec 64), Completes (.txSequenceStart chain ack off sample) s fun t =>
      KeepsEvents [(MAC_ACK_DROP, 1), (RFx_CCA_RESTART .s, 1), (RFx_CCA_RESTART .w, 1), (RFx_DUTY_REFUSED .s, 1), (RFx_DUTY_REFUSED .w, 1), (RFx_STATUS .s, 1), (RFx_STATUS .w, 1), (RFx_TXn_STAT .s 0, 2), (RFx_TXn_STAT .w 0, 2), (RXD_AGCx_STAT .s, 1), (RXD_AGCx_STAT .w, 1), (RXD_ANN_GAP_x .s, 1), (RXD_ANN_GAP_x .w, 1), (RXD_CHn_ABORT 0, 80), (RXD_CHn_CAPTURED 0, 80), (RXD_CHn_DEC_FAIL 0, 80), (RXD_CHn_FALSE 0, 80), (RXD_CHn_FRAME_OK 0, 80), (RXD_CHn_STAT 0, 80), (RXD_STATUS, 1), (RXD_STEPS_x .s, 1), (RXD_STEPS_x .w, 1), (SEC_CACHE_HIT, 1), (SEC_CACHE_MISS, 1), (SEC_DERIVE, 1), (SEC_ORPHANS, 1), (SEC_STATUS, 1), (SEC_TORN, 1), (TK_BCN_INSERT, 1)] s t ∧
      t.u = { s.u with bt := t.u.bt, evt := t.u.evt, sch := t.u.sch, rf := t.u.rf, rx := t.u.rx, mac := t.u.mac, sec := t.u.sec, pair := t.u.pair }) ∧
  (∀ (s : State) (chain : Chain) (off : Fin 1000000), Completes (.txRampDownEnd chain off) s fun t =>
      KeepsEvents [(RFx_DUTYr_USED .s 0, 16), (RFx_DUTYr_USED .w 0, 16), (RFx_STATUS .s, 1), (RFx_STATUS .w, 1)] s t ∧
      t.u = { s.u with bt := t.u.bt, evt := t.u.evt, rf := t.u.rf }) ∧
  (∀ (s : State) (port : RfPort) (off : Fin 1000000) (sample : BitVec 64), Completes (.txBlankEnd port off sample) s fun t =>
      KeepsEvents [(RFx_BLANK_US .s, 1), (RFx_BLANK_US .w, 1), (RFx_STATUS .s, 1), (RFx_STATUS .w, 1), (RFx_TXn_STAT .s 0, 2), (RFx_TXn_STAT .w 0, 2), (RXD_AGCx_STAT .s, 1), (RXD_AGCx_STAT .w, 1), (RXD_ANN_GAP_x .s, 1), (RXD_ANN_GAP_x .w, 1), (RXD_CHn_ABORT 0, 80), (RXD_CHn_CAPTURED 0, 80), (RXD_CHn_DEC_FAIL 0, 80), (RXD_CHn_FALSE 0, 80), (RXD_CHn_FRAME_OK 0, 80), (RXD_CHn_STAT 0, 80), (RXD_STATUS, 1), (RXD_STEPS_x .s, 1), (RXD_STEPS_x .w, 1)] s t ∧
      t.u = { s.u with bt := t.u.bt, evt := t.u.evt, rf := t.u.rf, rx := t.u.rx, pair := t.u.pair }) ∧
  (∀ (s : State) (chain : Chain) (granted : Bool), Completes (.cxGrantSample chain granted) s fun t =>
      KeepsEvents [(MAC_ACK_DROP, 1), (RFx_CX_DENIED .s, 1), (RFx_CX_DENIED .w, 1), (RFx_STATUS .s, 1), (RFx_STATUS .w, 1), (RFx_TXn_STAT .s 0, 2), (RFx_TXn_STAT .w 0, 2)] s t ∧
      t.u = { s.u with bt := t.u.bt, evt := t.u.evt, sch := t.u.sch, rf := t.u.rf, mac := t.u.mac, pair := t.u.pair }) ∧
  (∀ (s : State) (port : RfPort) (region : Fin 16), Completes (.dutyBucketAdvance port region) s fun t =>
      KeepsEvents [(RFx_DUTYr_USED .s 0, 16), (RFx_DUTYr_USED .w 0, 16), (RFx_STATUS .s, 1), (RFx_STATUS .w, 1)] s t ∧
      t.u = { s.u with bt := t.u.bt, evt := t.u.evt, rf := t.u.rf }) ∧
  (∀ (s : State) (iface : HostIface) (port : RfPort) (region : Fin 16) (band : Bool) (value : BitVec 32), Completes (.dutyRegionWrite iface port region band value) s fun t =>
      KeepsEvents ([(RFx_DUTYr_BAND .s 0, 16), (RFx_DUTYr_BAND .w 0, 16), (RFx_DUTYr_LIMIT .s 0, 16), (RFx_DUTYr_LIMIT .w 0, 16), (RFx_DUTYr_USED .s 0, 16), (RFx_DUTYr_USED .w 0, 16), (RFx_STATUS .s, 1), (RFx_STATUS .w, 1)] ++ accessRegs) s t ∧
      t.u = { s.u with bt := t.u.bt, hif := t.u.hif, evt := t.u.evt, rf := t.u.rf }) ∧
  (∀ (s : State) (port : RfPort) (sample clip : BitVec 64) (samples : Fin 65) (peak : Fin 2048), Completes (.agcClipAttack port sample clip samples peak) s fun t =>
      KeepsEvents [(RFx_STATUS .s, 1), (RFx_STATUS .w, 1), (RXD_AGCx_STAT .s, 1), (RXD_AGCx_STAT .w, 1), (RXD_ANN_GAP_x .s, 1), (RXD_ANN_GAP_x .w, 1), (RXD_CHn_ABORT 0, 80), (RXD_CHn_CAPTURED 0, 80), (RXD_CHn_DEC_FAIL 0, 80), (RXD_CHn_FALSE 0, 80), (RXD_CHn_FRAME_OK 0, 80), (RXD_CHn_STAT 0, 80), (RXD_STATUS, 1), (RXD_STEPS_x .s, 1), (RXD_STEPS_x .w, 1)] s t ∧
      t.u = { s.u with bt := t.u.bt, evt := t.u.evt, rx := t.u.rx, pair := t.u.pair }) ∧
  (∀ (s : State) (port : RfPort) (sample : BitVec 64) (long : Bool) (rms : BitVec 16), Completes (.agcLevelDecision port sample long rms) s fun t =>
      KeepsEvents [(RXD_AGCx_STAT .s, 1), (RXD_AGCx_STAT .w, 1), (RXD_ANN_GAP_x .s, 1), (RXD_ANN_GAP_x .w, 1), (RXD_CHn_ABORT 0, 80), (RXD_CHn_CAPTURED 0, 80), (RXD_CHn_DEC_FAIL 0, 80), (RXD_CHn_FALSE 0, 80), (RXD_CHn_FRAME_OK 0, 80), (RXD_CHn_STAT 0, 80), (RXD_STATUS, 1), (RXD_STEPS_x .s, 1), (RXD_STEPS_x .w, 1)] s t ∧
      t.u = { s.u with bt := t.u.bt, evt := t.u.evt, rx := t.u.rx, pair := t.u.pair }) ∧
  (∀ (s : State) (port : RfPort) (sample : BitVec 64) (expired : Bool), Completes (.agcReleaseDeferEnd port sample expired) s fun t =>
      KeepsEvents [(RXD_AGCx_STAT .s, 1), (RXD_AGCx_STAT .w, 1), (RXD_ANN_GAP_x .s, 1), (RXD_ANN_GAP_x .w, 1), (RXD_CHn_ABORT 0, 80), (RXD_CHn_CAPTURED 0, 80), (RXD_CHn_DEC_FAIL 0, 80), (RXD_CHn_FALSE 0, 80), (RXD_CHn_FRAME_OK 0, 80), (RXD_CHn_STAT 0, 80), (RXD_STATUS, 1), (RXD_STEPS_x .s, 1), (RXD_STEPS_x .w, 1)] s t ∧
      t.u = { s.u with bt := t.u.bt, evt := t.u.evt, rx := t.u.rx, pair := t.u.pair }) ∧
  (∀ (s : State) (port : RfPort) (last : BitVec 64), Completes (.clipSpanEnd port last) s fun t =>
      KeepsEvents [(RFx_STATUS .s, 1), (RFx_STATUS .w, 1), (RXD_AGCx_STAT .s, 1), (RXD_AGCx_STAT .w, 1), (RXD_ANN_GAP_x .s, 1), (RXD_ANN_GAP_x .w, 1), (RXD_CHn_ABORT 0, 80), (RXD_CHn_CAPTURED 0, 80), (RXD_CHn_DEC_FAIL 0, 80), (RXD_CHn_FALSE 0, 80), (RXD_CHn_FRAME_OK 0, 80), (RXD_CHn_STAT 0, 80), (RXD_STATUS, 1), (RXD_STEPS_x .s, 1), (RXD_STEPS_x .w, 1)] s t ∧
      t.u = { s.u with bt := t.u.bt, evt := t.u.evt, rx := t.u.rx, pair := t.u.pair }) ∧
  (∀ (s : State) (decoder : Fin 80) (seq : BitVec 8) (processed : BitVec 64) (reports : List (BitVec 16)), Completes (.announceRecordApply decoder seq processed reports) s fun t =>
      KeepsEvents [(RXD_AGCx_STAT .s, 1), (RXD_AGCx_STAT .w, 1), (RXD_ANN_GAP_x .s, 1), (RXD_ANN_GAP_x .w, 1), (RXD_CHn_ABORT 0, 80), (RXD_CHn_CAPTURED 0, 80), (RXD_CHn_DEC_FAIL 0, 80), (RXD_CHn_FALSE 0, 80), (RXD_CHn_FRAME_OK 0, 80), (RXD_CHn_STAT 0, 80), (RXD_EXTx_STEP .s, 1), (RXD_EXTx_STEP .w, 1), (RXD_STATUS, 1)] s t ∧
      t.u = { s.u with bt := t.u.bt, evt := t.u.evt, rx := t.u.rx, pair := t.u.pair }) ∧
  (∀ (s : State) (decoder : Fin 80) (found : Detection), Completes (.watchDetect decoder found) s fun t =>
      KeepsEvents [(RXD_CHn_ABORT 0, 80), (RXD_CHn_CAPTURED 0, 80), (RXD_CHn_DEC_FAIL 0, 80), (RXD_CHn_DET 0, 80), (RXD_CHn_FALSE 0, 80), (RXD_CHn_FRAME_OK 0, 80), (RXD_CHn_STAT 0, 80), (RXD_STATUS, 1), (RXD_WATCH_BUSY, 1)] s t ∧
      t.u = { s.u with bt := t.u.bt, evt := t.u.evt, rx := t.u.rx, pair := t.u.pair }) ∧
  (∀ (s : State) (decoder : Fin 80) (watch : Bool) (word : BitVec 32) (start : BitVec 64), Completes (.sfdMatch decoder watch word start) s fun t =>
      KeepsEvents [(RXD_CHn_ABORT 0, 80), (RXD_CHn_CAPTURED 0, 80), (RXD_CHn_DEC_FAIL 0, 80), (RXD_CHn_FALSE 0, 80), (RXD_CHn_FRAME_OK 0, 80), (RXD_CHn_STAT 0, 80), (RXD_STATUS, 1)] s t ∧
      t.u = { s.u with bt := t.u.bt, evt := t.u.evt, rx := t.u.rx, pair := t.u.pair }) ∧
  (∀ (s : State) (decoder : Fin 80) (watch : Bool), Completes (.sfdTimeout decoder watch) s fun t =>
      KeepsEvents [(RXD_CHn_ABORT 0, 80), (RXD_CHn_CAPTURED 0, 80), (RXD_CHn_DEC_FAIL 0, 80), (RXD_CHn_FALSE 0, 80), (RXD_CHn_FRAME_OK 0, 80), (RXD_CHn_STAT 0, 80), (RXD_STATUS, 1)] s t ∧
      t.u = { s.u with bt := t.u.bt, evt := t.u.evt, rx := t.u.rx, pair := t.u.pair }) ∧
  (∀ (s : State) (decoder : Fin 80) (watch : Bool) (block : BitVec 32), Completes (.headerDecoded decoder watch block) s fun t =>
      KeepsEvents [(RXD_CHn_ABORT 0, 80), (RXD_CHn_CAPTURED 0, 80), (RXD_CHn_DEC_FAIL 0, 80), (RXD_CHn_FALSE 0, 80), (RXD_CHn_FRAME_OK 0, 80), (RXD_CHn_HDR_OK 0, 80), (RXD_CHn_STAT 0, 80), (RXD_STATUS, 1)] s t ∧
      t.u = { s.u with bt := t.u.bt, evt := t.u.evt, rx := t.u.rx, pair := t.u.pair }) ∧
  (∀ (s : State) (decoder : Fin 80), Completes (.rxFrameEnd decoder) s fun t =>
      KeepsEvents [(RXD_CHn_ABORT 0, 80), (RXD_CHn_CAPTURED 0, 80), (RXD_CHn_DEC_FAIL 0, 80), (RXD_CHn_FALSE 0, 80), (RXD_CHn_FRAME_OK 0, 80), (RXD_CHn_STAT 0, 80)] s t ∧
      t.u = { s.u with bt := t.u.bt, evt := t.u.evt, rx := t.u.rx, pair := t.u.pair }) ∧
  (∀ (s : State) (core : Fin 8) (hard : BitVec 1152) (iterations : Fin 33), Completes (.ldpcDecodeDone core hard iterations) s fun t =>
      KeepsEvents [(BT_PEn_STAT 0, 16), (PAIR_LLR_SHARED, 1), (RXD_CHn_ABORT 0, 80), (RXD_CHn_CAPTURED 0, 80), (RXD_CHn_DEC_FAIL 0, 80), (RXD_CHn_FALSE 0, 80), (RXD_CHn_FRAME_OK 0, 80), (RXD_CHn_STAT 0, 80), (RXD_LDPC_DEC, 1), (RXD_LDPC_FAIL, 1), (RXD_LDPC_ITER, 1), (RXD_STATUS, 1)] s t ∧
      t.u = { s.u with bt := t.u.bt, evt := t.u.evt, accel := t.u.accel, rx := t.u.rx, pair := t.u.pair }) ∧
  (∀ (s : State) (iface : HostIface) (decoder : Fin 80) (value : BitVec 32), Completes (.decoderCfgWrite iface decoder value) s fun t =>
      KeepsEvents ([(RXD_CHn_ABORT 0, 80), (RXD_CHn_CAPTURED 0, 80), (RXD_CHn_CFG 0, 80), (RXD_CHn_DEC_FAIL 0, 80), (RXD_CHn_FALSE 0, 80), (RXD_CHn_FRAME_OK 0, 80), (RXD_CHn_STAT 0, 80), (RXD_STATUS, 1)] ++ accessRegs) s t ∧
      t.u = { s.u with bt := t.u.bt, hif := t.u.hif, evt := t.u.evt, rx := t.u.rx, pair := t.u.pair }) ∧
  (∀ (s : State) (iface : HostIface) (value : BitVec 32), Completes (.captureCfgWrite iface value) s fun t =>
      KeepsEvents ([(RXD_CAPTURE, 1), (RXD_CHn_ABORT 0, 80), (RXD_CHn_CAPTURED 0, 80), (RXD_CHn_DEC_FAIL 0, 80), (RXD_CHn_FALSE 0, 80), (RXD_CHn_FRAME_OK 0, 80), (RXD_CHn_STAT 0, 80), (RXD_STATUS, 1)] ++ accessRegs) s t ∧
      t.u = { s.u with bt := t.u.bt, hif := t.u.hif, evt := t.u.evt, rx := t.u.rx, pair := t.u.pair }) ∧
  (∀ (s : State) (index : Fin 256) (bad : Bool), Completes (.macRecordFetched index bad) s fun t =>
      KeepsEvents [(ENV_ECC_UNC, 1), (MAC_DROPr 0, 16)] s t ∧
      t.u = { s.u with bt := t.u.bt, evt := t.u.evt, env := t.u.env, mac := t.u.mac, pair := t.u.pair }) ∧
  (∀ (s : State) (index : Fin 256), Completes (.macLinkKeyReady index) s fun t =>
      KeepsEvents [(MAC_DROPr 0, 16), (SEC_CACHE_HIT, 1), (SEC_CACHE_MISS, 1), (SEC_DERIVE, 1), (SEC_INVALID_KEY, 1), (SEC_ORPHANS, 1), (SEC_STATUS, 1), (SEC_TORN, 1)] s t ∧
      t.u = { s.u with bt := t.u.bt, evt := t.u.evt, mac := t.u.mac, sec := t.u.sec, pair := t.u.pair }) ∧
  (∀ (s : State) (index : Fin 512), Completes (.bridleWindowEnd index) s fun t =>
      KeepsEvents [(MAC_BRIDLE_EVT, 1), (MAC_STATUS, 1)] s t ∧
      t.u = { s.u with bt := t.u.bt, evt := t.u.evt, mac := t.u.mac }) ∧
  (∀ (s : State) (corrected uncorrectable : Bool), Completes (.scrubBurst corrected uncorrectable) s fun t =>
      KeepsEvents [(ENV_ECC_CORR, 1), (ENV_ECC_UNC, 1), (ENV_SCRUB_PASSES, 1), (ENV_STATUS, 1)] s t ∧
      t.u = { s.u with bt := t.u.bt, evt := t.u.evt, env := t.u.env, pair := t.u.pair }) ∧
  (∀ (s : State) (group : Fin 8), Completes (.fcHoldExpiry group) s fun t =>
      KeepsEvents [(ENV_FC_STATE, 1)] s t ∧
      t.u = { s.u with bt := t.u.bt, evt := t.u.evt, env := t.u.env }) ∧
  (∀ (s : State) (domain : Fin 4) (second : Bool), Completes (.residueMismatch domain second) s fun t =>
      KeepsEvents [(SCH_ARITH_FAULT, 1), (SCH_RESIDUE_FIX, 1), (SCH_STATUS, 1)] s t ∧
      t.u = { s.u with bt := t.u.bt, evt := t.u.evt, pair := t.u.pair }) ∧
  (∀ (s : State) (iface : HostIface) (value : BitVec 32), Completes (.schSnapshotReq iface value) s fun t =>
      KeepsEvents ([(SCH_SNAP_C_HI, 1), (SCH_SNAP_C_LO, 1), (SCH_SNAP_F_HI, 1), (SCH_SNAP_F_LO, 1), (SCH_SNAP_REQ, 1), (SCH_SNAP_TC, 1), (SCH_SNAP_TP, 1), (SCH_SNAP_V_HI, 1), (SCH_SNAP_V_LO, 1)] ++ accessRegs) s t ∧
      t.u = { s.u with bt := t.u.bt, hif := t.u.hif, evt := t.u.evt }) ∧
  (∀ (s : State) (source : Fin 1024), Completes (.wrapToPartner source) s fun t =>
      KeepsEvents [(SEC_INVALID_KEY, 1), (SEC_ORPHANS, 1), (SEC_STATUS, 1), (SEC_TORN, 1)] s t ∧
      t.u = { s.u with bt := t.u.bt, evt := t.u.evt, sec := t.u.sec, pair := t.u.pair }) ∧
  (∀ (s : State) (ok : Bool), Completes (.epochWriteConfirmed ok) s fun t =>
      KeepsEvents [] s t ∧
      t.u = { s.u with bt := t.u.bt, boot := t.u.boot, evt := t.u.evt, sec := t.u.sec }) ∧
  (∀ (s : State) (iface : HostIface) (slot : Fin 1024), Completes (.slotReadMeta iface slot) s fun t =>
      KeepsEvents ([(SEC_SLOT_META0, 1), (SEC_SLOT_META1, 1), (SEC_SLOT_META2, 1), (SEC_SLOT_STAT, 1)] ++ accessRegs) s t ∧
      t.u = { s.u with bt := t.u.bt, hif := t.u.hif, evt := t.u.evt }) ∧
  (∀ (s : State) (iface : HostIface) (slot : Fin 1024) (upset : Bool), Completes (.slotVerifyTag iface slot upset) s fun t =>
      KeepsEvents ([(SEC_ORPHANS, 1), (SEC_SLOT_META0, 1), (SEC_SLOT_META1, 1), (SEC_SLOT_META2, 1), (SEC_SLOT_STAT, 1), (SEC_STATUS, 1), (SEC_TORN, 1)] ++ accessRegs) s t ∧
      t.u = { s.u with bt := t.u.bt, hif := t.u.hif, evt := t.u.evt, sec := t.u.sec, pair := t.u.pair }) ∧
  (∀ (s : State) (iface : HostIface) (value : BitVec 32), Completes (.fuseReadReq iface value) s fun t =>
      KeepsEvents ([(FUSE_READ_DATA, 1), (FUSE_READ_REQ, 1)] ++ accessRegs) s t ∧
      t.u = { s.u with bt := t.u.bt, hif := t.u.hif, evt := t.u.evt }) ∧
  (∀ (s : State) (iface : HostIface) (comp : BitVec 32), Completes (.fuseProg iface comp) s fun t =>
      KeepsEvents ([(FUSE_STATUS, 1), (HIF_GUARD_REJ, 1)] ++ guardRegs) s t ∧
      t.u = { s.u with bt := t.u.bt, hif := t.u.hif, evt := t.u.evt, fuse := t.u.fuse }) ∧
  (∀ (s : State) (blown : BitVec 32), Completes (.fuseProgDone blown) s fun t =>
      KeepsEvents [(FUSE_PROG_COUNT, 1), (FUSE_PROG_FAIL, 1), (FUSE_STATUS, 1)] s t ∧
      t.u = { s.u with bt := t.u.bt, evt := t.u.evt, fuse := t.u.fuse }) ∧
  (∀ (s : State) (again : Bool), Completes (.timeResidueFail again) s fun t =>
      KeepsEvents [(TK_ARITH_FAULT, 1), (TK_RESIDUE_FIX, 1), (TK_STATUS, 1)] s t ∧
      t.u = { s.u with bt := t.u.bt, tk := t.u.tk, evt := t.u.evt, pair := t.u.pair }) ∧
  (∀ (s : State) (src : Option HostIface) (value : BitVec 32), Completes (.tkStepGo src value) s fun t =>
      KeepsEvents ([(TK_STATUS, 1), (TK_STEPS, 1), (TK_STEP_CMD_REFUSED, 1), (TK_STEP_REFUSED, 1)] ++ accessRegs) s t ∧
      t.u = { s.u with bt := t.u.bt, tk := t.u.tk, hif := t.u.hif, evt := t.u.evt })

/-- Frames of the commands that may raise events, second part. Each command named leaves every register outside the
spans listed for it and those of the events, every byte outside the event rings, and every unit it does not name
as they were. -/
def Obligations.FrameEventsB : Prop :=
  (∀ (s : State) (iface : HostIface) (comp : BitVec 32), Completes (.tkRearm iface comp) s fun t =>
      KeepsEvents ([(HIF_GUARD_REJ, 1), (TK_STATUS, 1)] ++ guardRegs) s t ∧
      t.u = { s.u with bt := t.u.bt, hif := t.u.hif, evt := t.u.evt }) ∧
  (∀ (s : State) (src : Option HostIface) (value : BitVec 32) (edges : BitVec 40), Completes (.tkIncrWrite src value edges) s fun t =>
      KeepsEvents ([(TK_CLAMPED, 1), (TK_INCR_FRAC, 1), (TK_INCR_INT, 1), (TK_STATUS, 1)] ++ accessRegs) s t ∧
      t.u = { s.u with bt := t.u.bt, tk := t.u.tk, hif := t.u.hif, evt := t.u.evt }) ∧
  (∀ (s : State) (src : Option HostIface) (value : BitVec 32), Completes (.tkServoWrite src value) s fun t =>
      KeepsEvents ([(TK_SERVO, 1), (TK_STATUS, 1)] ++ accessRegs) s t ∧
      t.u = { s.u with bt := t.u.bt, tk := t.u.tk, hif := t.u.hif, evt := t.u.evt, pair := t.u.pair }) ∧
  (∀ (s : State), Completes .servoWatchdogExpiry s fun t =>
      KeepsEvents [(TK_STATUS, 1)] s t ∧
      t.u = { s.u with bt := t.u.bt, tk := t.u.tk, evt := t.u.evt, pair := t.u.pair }) ∧
  (∀ (s : State), Completes .holdoverTraceExpiry s fun t =>
      KeepsEvents [(TK_STATUS, 1)] s t ∧
      t.u = { s.u with bt := t.u.bt, tk := t.u.tk, evt := t.u.evt, pair := t.u.pair }) ∧
  (∀ (s : State) (input : Fin 4) (rising : Bool) (edges : BitVec 40) (phase : Fin 4), Completes (.tsiEdge input rising edges phase) s fun t =>
      KeepsEvents [(TK_CAP_LOST, 1), (TK_CAPn 0, 4), (TK_STATUS, 1)] s t ∧
      t.u = { s.u with bt := t.u.bt, tk := t.u.tk, evt := t.u.evt }) ∧
  (∀ (s : State) (iface : HostIface) (value : BitVec 32), Completes (.tkCapReq iface value) s fun t =>
      KeepsEvents ([(TK_CAP_NS, 1), (TK_CAP_REQ, 1), (TK_CAP_S_HI, 1), (TK_CAP_S_LO, 1), (TK_STATUS, 1)] ++ accessRegs) s t ∧
      t.u = { s.u with bt := t.u.bt, tk := t.u.tk, hif := t.u.hif, evt := t.u.evt }) ∧
  (∀ (s : State) (iface : HostIface) (edges : BitVec 40), Completes (.tkTimeReq iface edges) s fun t =>
      KeepsEvents ([(TK_TIME_FRAC, 1), (TK_TIME_NS, 1), (TK_TIME_REQ, 1), (TK_TIME_S_HI, 1), (TK_TIME_S_LO, 1)] ++ accessRegs) s t ∧
      t.u = { s.u with bt := t.u.bt, tk := t.u.tk, hif := t.u.hif, evt := t.u.evt }) ∧
  (∀ (s : State) (port : EthPort) (ten rxPause : Bool), Completes (.ethLinkUp port ten rxPause) s fun t =>
      KeepsEvents [(ETH_STATUS, 1)] s t ∧
      t.u = { s.u with bt := t.u.bt, evt := t.u.evt, eth := t.u.eth }) ∧
  (∀ (s : State) (iface : HostIface) (value : BitVec 32), Completes (.ethBrFlush iface value) s fun t =>
      KeepsEvents ([(ETH_BR_CMD_REFUSED, 1), (ETH_BR_STAT, 1)] ++ accessRegs) s t ∧
      t.u = { s.u with bt := t.u.bt, hif := t.u.hif, evt := t.u.evt, eth := t.u.eth }) ∧
  (∀ (s : State), Completes .pairLinkUp s fun t =>
      KeepsEvents [(PAIR_STATUS, 1)] s t ∧
      t.u = { s.u with bt := t.u.bt, evt := t.u.evt, pair := t.u.pair }) ∧
  (∀ (s : State), Completes .pairLinkDown s fun t =>
      KeepsEvents [(PAIR_CMD_STAT, 1), (PAIR_LOST, 1), (PAIR_STATUS, 1)] s t ∧
      t.u = { s.u with bt := t.u.bt, evt := t.u.evt, pair := t.u.pair }) ∧
  (∀ (s : State), Completes .tetherLost s fun t =>
      KeepsEvents [(PAIR_CMD_STAT, 1), (PAIR_LOST, 1), (PAIR_STATUS, 1)] s t ∧
      t.u = { s.u with bt := t.u.bt, evt := t.u.evt, pair := t.u.pair }) ∧
  (∀ (s : State) (low : Bool), Completes (.pairAliveEdge low) s fun t =>
      KeepsEvents [(PAIR_STATUS, 1)] s t ∧
      t.u = { s.u with bt := t.u.bt, evt := t.u.evt, pair := t.u.pair }) ∧
  (∀ (s : State) (lseq beat : BitVec 32) (plan uplink log : BitVec 64) (b0 b1 b2 b3 : BitVec 64), Completes (.digestReceived lseq beat plan uplink log b0 b1 b2 b3) s fun t =>
      KeepsEvents [(FWD_TBLn_SHADOW 0, 4), (PAIR_MISMATCH, 1), (PAIR_STATUS, 1), (PAIR_SYNCS, 1)] s t ∧
      t.u = { s.u with bt := t.u.bt, evt := t.u.evt, pair := t.u.pair }) ∧
  (∀ (s : State) (lseq : BitVec 32) (h : Hello), Completes (.helloReceived lseq h) s fun t =>
      KeepsEvents [] s t ∧
      t.u = { s.u with bt := t.u.bt, evt := t.u.evt, pair := t.u.pair }) ∧
  (∀ (s : State) (lseq beat : BitVec 32), Completes (.switchReceived lseq beat) s fun t =>
      KeepsEvents [(SEC_STATUS, 1)] s t ∧
      t.u = { s.u with bt := t.u.bt, evt := t.u.evt, sec := t.u.sec, pair := t.u.pair }) ∧
  (∀ (s : State) (lseq beat : BitVec 32), Completes (.switchAckReceived lseq beat) s fun t =>
      KeepsEvents [(SEC_STATUS, 1)] s t ∧
      t.u = { s.u with bt := t.u.bt, evt := t.u.evt, sec := t.u.sec, pair := t.u.pair }) ∧
  (∀ (s : State), Completes .takeoverDecision s fun t =>
      KeepsEvents [(SEC_STATUS, 1)] s t ∧
      t.u = { s.u with bt := t.u.bt, evt := t.u.evt, sec := t.u.sec, pair := t.u.pair }) ∧
  (∀ (s : State), Completes .staleTakeoverExpiry s fun t =>
      KeepsEvents [(SEC_STATUS, 1)] s t ∧
      t.u = { s.u with bt := t.u.bt, evt := t.u.evt, sec := t.u.sec, pair := t.u.pair }) ∧
  (∀ (s : State), Completes .syncTimeout s fun t =>
      KeepsEvents [] s t ∧
      t.u = { s.u with bt := t.u.bt, evt := t.u.evt, pair := t.u.pair }) ∧
  (∀ (s : State) (iface : HostIface), Completes (.pairSwitch iface) s fun t =>
      KeepsEvents ([(PAIR_CMD_REFUSED, 1), (PAIR_CMD_STAT, 1)] ++ accessRegs) s t ∧
      t.u = { s.u with freeCount := t.u.freeCount, bt := t.u.bt, hif := t.u.hif, evt := t.u.evt, pair := t.u.pair }) ∧
  (∀ (s : State) (iface : HostIface), Completes (.pairResync iface) s fun t =>
      KeepsEvents ([(PAIR_CMD_REFUSED, 1), (PAIR_CMD_STAT, 1)] ++ accessRegs) s t ∧
      t.u = { s.u with bt := t.u.bt, hif := t.u.hif, evt := t.u.evt, pair := t.u.pair }) ∧
  (∀ (s : State) (iface : HostIface), Completes (.pairHoldReclaim iface) s fun t =>
      KeepsEvents ([(PAIR_CMD_REFUSED, 1), (PAIR_CMD_STAT, 1), (PAIR_STATUS, 1)] ++ accessRegs) s t ∧
      t.u = { s.u with bt := t.u.bt, hif := t.u.hif, evt := t.u.evt, pair := t.u.pair }) ∧
  (∀ (s : State) (iface : HostIface), Completes (.pairDetach iface) s fun t =>
      KeepsEvents ([(PAIR_CMD_REFUSED, 1), (PAIR_CMD_STAT, 1)] ++ accessRegs) s t ∧
      t.u = { s.u with bt := t.u.bt, hif := t.u.hif, evt := t.u.evt, pair := t.u.pair }) ∧
  (∀ (s : State) (iface : HostIface) (comp : BitVec 32), Completes (.pairRoleOvr iface comp) s fun t =>
      KeepsEvents ([(HIF_GUARD_REJ, 1), (PAIR_STATUS, 1)] ++ guardRegs) s t ∧
      t.u = { s.u with bt := t.u.bt, hif := t.u.hif, evt := t.u.evt, pair := t.u.pair }) ∧
  (∀ (s : State) (iface : HostIface) (value : BitVec 32), Completes (.pairDigReq iface value) s fun t =>
      KeepsEvents ([(PAIR_DIG_BEAT, 1), (PAIR_DIG_OWNx 0, 6), (PAIR_DIG_PARTx 0, 6), (PAIR_DIG_REQ, 1)] ++ accessRegs) s t ∧
      t.u = { s.u with bt := t.u.bt, hif := t.u.hif, evt := t.u.evt }) ∧
  (∀ (s : State) (pe : Fin 16) (pass : Bool), Completes (.logicBistDone pe pass) s fun t =>
      KeepsEvents [(BT_ENG_STATE, 1), (BT_LATE_TOTAL, 1), (BT_PEn_LATE 0, 16), (BT_PEn_STAT 0, 16), (PAIR_BIST_RUNS, 1), (PAIR_SELFTEST_FAIL, 1), (RXD_STATUS, 1)] s t ∧
      t.u = { s.u with bt := t.u.bt, evt := t.u.evt, accel := t.u.accel, rx := t.u.rx, pair := t.u.pair }) ∧
  (∀ (s : State) (core : Fin 8) (pass : Bool), Completes (.ldpcKat core pass) s fun t =>
      KeepsEvents [(PAIR_BIST_RUNS, 1), (PAIR_SELFTEST_FAIL, 1), (RXD_STATUS, 1)] s t ∧
      t.u = { s.u with bt := t.u.bt, evt := t.u.evt, pair := t.u.pair }) ∧
  (∀ (s : State) (core : Fin 8) (pass : Bool), Completes (.cipherKat core pass) s fun t =>
      KeepsEvents [(PAIR_BIST_RUNS, 1), (PAIR_SELFTEST_FAIL, 1)] s t ∧
      t.u = { s.u with bt := t.u.bt, evt := t.u.evt, pair := t.u.pair }) ∧
  (∀ (s : State) (pass : Bool), Completes (.ecdsaKat pass) s fun t =>
      KeepsEvents [(PAIR_BIST_RUNS, 1), (PAIR_SELFTEST_FAIL, 1)] s t ∧
      t.u = { s.u with bt := t.u.bt, evt := t.u.evt, pair := t.u.pair }) ∧
  (∀ (s : State) (iface : HostIface) (level : Fin 4), Completes (.pwrReqLevel iface level) s fun t =>
      KeepsEvents ([(PWR_LAST_REFUSAL, 1), (PWR_REFr 0, 7), (PWR_REQ_STAT, 1), (PWR_SUPERSEDED, 1)] ++ accessRegs) s t ∧
      t.u = { s.u with bt := t.u.bt, pwr := t.u.pwr, hif := t.u.hif, evt := t.u.evt }) ∧
  (∀ (s : State) (iface : HostIface), Completes (.pwrReqDoze iface) s fun t =>
      KeepsEvents ([(PWR_LAST_REFUSAL, 1), (PWR_REFr 0, 7), (PWR_REQ_STAT, 1), (PWR_SUPERSEDED, 1)] ++ accessRegs) s t ∧
      t.u = { s.u with bt := t.u.bt, pwr := t.u.pwr, hif := t.u.hif, evt := t.u.evt }) ∧
  (∀ (s : State) (iface : HostIface), Completes (.pwrReqServe iface) s fun t =>
      KeepsEvents ([(PWR_LAST_REFUSAL, 1), (PWR_REFr 0, 7), (PWR_REQ_STAT, 1), (PWR_SUPERSEDED, 1)] ++ accessRegs) s t ∧
      t.u = { s.u with bt := t.u.bt, pwr := t.u.pwr, hif := t.u.hif, evt := t.u.evt }) ∧
  (∀ (s : State) (iface : HostIface), Completes (.pwrReqDrift iface) s fun t =>
      KeepsEvents ([(PWR_LAST_REFUSAL, 1), (PWR_REFr 0, 7), (PWR_REQ_STAT, 1), (PWR_SUPERSEDED, 1)] ++ accessRegs) s t ∧
      t.u = { s.u with bt := t.u.bt, pwr := t.u.pwr, hif := t.u.hif, evt := t.u.evt }) ∧
  (∀ (s : State) (quarters : BitVec 16), Completes (.thermalReading quarters) s fun t =>
      KeepsEvents [(PWR_LAST_REFUSAL, 1), (PWR_REFr 0, 7), (PWR_REQ_STAT, 1), (PWR_STATUS, 1), (PWR_SUPERSEDED, 1)] s t ∧
      t.u = { s.u with bt := t.u.bt, pwr := t.u.pwr, evt := t.u.evt, pair := t.u.pair }) ∧
  (∀ (s : State), Completes .lossDriftExpiry s fun t =>
      KeepsEvents [(PWR_LAST_REFUSAL, 1), (PWR_REFr 0, 7), (PWR_REQ_STAT, 1), (PWR_SUPERSEDED, 1)] s t ∧
      t.u = { s.u with bt := t.u.bt, pwr := t.u.pwr, evt := t.u.evt }) ∧
  (∀ (s : State) (blown : BitVec 256), Completes (.confirmTimerExpiry blown) s fun t =>
      KeepsEvents [(BOOT_BSR, 1), (BOOT_STATUS, 1), (FUSE_PROG_COUNT, 1), (FUSE_PROG_FAIL, 1), (FUSE_STATUS, 1)] s t ∧
      t.u = { s.u with bt := t.u.bt, boot := t.u.boot, evt := t.u.evt, fuse := t.u.fuse }) ∧
  (∀ (s : State) (bad : Option (List Byte)) (written : Bool), Completes (.updateApplyComplete bad written) s fun t =>
      KeepsEvents ([(BOOT_BSR, 1), (BOOT_STATUS, 1), (BOOT_UPD_STAT, 1)] ++ accessRegs) s t ∧
      t.u = { s.u with bt := t.u.bt, boot := t.u.boot, hif := t.u.hif, evt := t.u.evt }) ∧
  (∀ (s : State), Completes .pairUpdateTimeout s fun t =>
      KeepsEvents [(BOOT_UPD_STAT, 1)] s t ∧
      t.u = { s.u with bt := t.u.bt, boot := t.u.boot, evt := t.u.evt }) ∧
  (∀ (s : State) (iface : HostIface), Completes (.bootCfgHashReq iface) s fun t =>
      KeepsEvents ([(BOOT_CFG_HASH_REQ, 1), (BOOT_CFG_HASHx 0, 8)] ++ accessRegs) s t ∧
      t.u = { s.u with bt := t.u.bt, hif := t.u.hif, evt := t.u.evt }) ∧
  (∀ (s : State) (addr : BitVec 32) (dwords : Fin 1025) (corrected : Fin 1025) (bad : List (BitVec 32)), Completes (.spiRead addr dwords corrected bad) s fun t =>
      KeepsEvents ([(ENV_ECC_CORR, 1), (ENV_ECC_UNC, 1), (HIF_STATUS, 1)] ++ accessRegs) s t ∧
      t.u = { s.u with bt := t.u.bt, hif := t.u.hif, evt := t.u.evt, env := t.u.env, pair := t.u.pair }) ∧
  (∀ (s : State) (iface : HostIface) (guard : GuardReg) (value : BitVec 32), Completes (.guardArm iface guard value) s fun t =>
      KeepsEvents ([(HIF_GUARD_REJ, 1)] ++ guardRegs) s t ∧
      t.u = { s.u with bt := t.u.bt, hif := t.u.hif, evt := t.u.evt }) ∧
  (∀ (s : State) (guard : GuardReg), Completes (.guardTimeout guard) s fun t =>
      KeepsEvents ([(HIF_GUARD_REJ, 1)] ++ guardRegs) s t ∧
      t.u = { s.u with bt := t.u.bt, hif := t.u.hif, evt := t.u.evt }) ∧
  (∀ (s : State) (iface : HostIface) (guard : GuardReg) (part : GuardPart), Completes (.guardInterrupt iface guard part) s fun t =>
      KeepsEvents ([(HIF_GUARD_REJ, 1)] ++ guardRegs) s t ∧
      t.u = { s.u with bt := t.u.bt, hif := t.u.hif, evt := t.u.evt }) ∧
  (∀ (s : State) (iface : HostIface) (ring : Fin 4) (value : BitVec 32), Completes (.evtRingConsume iface ring value) s fun t =>
      KeepsEvents ([(EVT_RINGr_CONS 0, 4)] ++ accessRegs) s t ∧
      t.u = { s.u with bt := t.u.bt, hif := t.u.hif, evt := t.u.evt }) ∧
  (∀ (s : State) (iface : HostIface), Completes (.hifJrnReq iface) s fun t =>
      KeepsEvents ([(HIF_JRN_NEXT, 1), (HIF_JRN_OLDEST, 1), (HIF_JRN_REQ, 1)] ++ accessRegs) s t ∧
      t.u = { s.u with bt := t.u.bt, hif := t.u.hif, evt := t.u.evt }) ∧
  (∀ (s : State) (index : Fin 64), Completes (.eventBridleWindowEnd index) s fun t =>
      KeepsEvents [] s t ∧
      t.u = { s.u with bt := t.u.bt, evt := t.u.evt }) ∧
  (∀ (s : State) (offset : BitVec 28) (len : Fin 4097) (corrected : Fin 4097) (bad : List (BitVec 32)), Completes (.bar2Read offset len corrected bad) s fun t =>
      KeepsEvents [(ENV_ECC_CORR, 1), (ENV_ECC_UNC, 1)] s t ∧
      t.u = { s.u with bt := t.u.bt, hif := t.u.hif, evt := t.u.evt, env := t.u.env, pair := t.u.pair })

/-- Frames of the commands that complete in the command ring. Each command named leaves every register outside the
spans listed for it and those of events and ring, every byte outside the event rings, the journal, the
completions and their result blocks, and every unit it does not name as they were. -/
def Obligations.FrameRing : Prop :=
  (∀ (s : State) (via : Via) (table : Fin 4) (ecc : Option EccFault), Completes (.fwdLookup via table ecc) s fun t =>
      KeepsRing ([(BT_PEn_STAT 0, 16), (BT_PEn_TAGSTALL 0, 16), (FWD_CMD_REFUSED, 1), (FWD_CMD_STAT, 1), (FWD_STATUS, 1), (FWD_TBLn_COUNT 0, 4), (FWD_TBLn_ECC_CORR 0, 4), (FWD_TBLn_ECC_UNC 0, 4), (FWD_TBLn_EVICT 0, 4), (FWD_TBLn_HIT 0, 4), (FWD_TBLn_LOOKUP 0, 4), (FWD_TBLn_NOSPACE 0, 4)] ++ accessRegs) s t ∧
      t.u = { s.u with freeCount := t.u.freeCount, bt := t.u.bt, hif := t.u.hif, evt := t.u.evt, accel := t.u.accel, fwd := t.u.fwd, sch := t.u.sch, pair := t.u.pair }) ∧
  (∀ (s : State) (via : Via) (table : Fin 4), Completes (.fwdInsert via table) s fun t =>
      KeepsRing ([(BT_PEn_STAT 0, 16), (BT_PEn_TAGSTALL 0, 16), (FWD_CMD_REFUSED, 1), (FWD_CMD_STAT, 1), (FWD_STATUS, 1), (FWD_TBLn_COUNT 0, 4), (FWD_TBLn_ECC_CORR 0, 4), (FWD_TBLn_ECC_UNC 0, 4), (FWD_TBLn_EVICT 0, 4), (FWD_TBLn_HIT 0, 4), (FWD_TBLn_LOOKUP 0, 4), (FWD_TBLn_NOSPACE 0, 4)] ++ accessRegs) s t ∧
      t.u = { s.u with freeCount := t.u.freeCount, bt := t.u.bt, hif := t.u.hif, evt := t.u.evt, accel := t.u.accel, fwd := t.u.fwd, sch := t.u.sch, pair := t.u.pair }) ∧
  (∀ (s : State) (via : Via) (table : Fin 4), Completes (.fwdUpdate via table) s fun t =>
      KeepsRing ([(BT_PEn_STAT 0, 16), (BT_PEn_TAGSTALL 0, 16), (FWD_CMD_REFUSED, 1), (FWD_CMD_STAT, 1), (FWD_STATUS, 1), (FWD_TBLn_COUNT 0, 4), (FWD_TBLn_ECC_CORR 0, 4), (FWD_TBLn_ECC_UNC 0, 4), (FWD_TBLn_EVICT 0, 4), (FWD_TBLn_HIT 0, 4), (FWD_TBLn_LOOKUP 0, 4), (FWD_TBLn_NOSPACE 0, 4)] ++ accessRegs) s t ∧
      t.u = { s.u with freeCount := t.u.freeCount, bt := t.u.bt, hif := t.u.hif, evt := t.u.evt, accel := t.u.accel, fwd := t.u.fwd, sch := t.u.sch, pair := t.u.pair }) ∧
  (∀ (s : State) (via : Via) (table : Fin 4), Completes (.fwdDelete via table) s fun t =>
      KeepsRing ([(BT_PEn_STAT 0, 16), (BT_PEn_TAGSTALL 0, 16), (FWD_CMD_REFUSED, 1), (FWD_CMD_STAT, 1), (FWD_STATUS, 1), (FWD_TBLn_COUNT 0, 4), (FWD_TBLn_ECC_CORR 0, 4), (FWD_TBLn_ECC_UNC 0, 4), (FWD_TBLn_EVICT 0, 4), (FWD_TBLn_HIT 0, 4), (FWD_TBLn_LOOKUP 0, 4), (FWD_TBLn_NOSPACE 0, 4)] ++ accessRegs) s t ∧
      t.u = { s.u with freeCount := t.u.freeCount, bt := t.u.bt, hif := t.u.hif, evt := t.u.evt, accel := t.u.accel, fwd := t.u.fwd, sch := t.u.sch, pair := t.u.pair }) ∧
  (∀ (s : State) (via : Via) (table : Fin 4), Completes (.fwdDeleteIfStamp via table) s fun t =>
      KeepsRing ([(BT_PEn_STAT 0, 16), (BT_PEn_TAGSTALL 0, 16), (FWD_CMD_REFUSED, 1), (FWD_CMD_STAT, 1), (FWD_STATUS, 1), (FWD_TBLn_COUNT 0, 4), (FWD_TBLn_ECC_CORR 0, 4), (FWD_TBLn_ECC_UNC 0, 4), (FWD_TBLn_EVICT 0, 4), (FWD_TBLn_HIT 0, 4), (FWD_TBLn_LOOKUP 0, 4), (FWD_TBLn_NOSPACE 0, 4)] ++ accessRegs) s t ∧
      t.u = { s.u with freeCount := t.u.freeCount, bt := t.u.bt, hif := t.u.hif, evt := t.u.evt, accel := t.u.accel, fwd := t.u.fwd, sch := t.u.sch, pair := t.u.pair }) ∧
  (∀ (s : State) (via : Via) (table : Fin 4), Completes (.fwdReadSlot via table) s fun t =>
      KeepsRing ([(BT_PEn_STAT 0, 16), (BT_PEn_TAGSTALL 0, 16), (FWD_CMD_REFUSED, 1), (FWD_CMD_STAT, 1), (FWD_STATUS, 1), (FWD_TBLn_COUNT 0, 4), (FWD_TBLn_ECC_CORR 0, 4), (FWD_TBLn_ECC_UNC 0, 4), (FWD_TBLn_EVICT 0, 4), (FWD_TBLn_HIT 0, 4), (FWD_TBLn_LOOKUP 0, 4), (FWD_TBLn_NOSPACE 0, 4)] ++ accessRegs) s t ∧
      t.u = { s.u with freeCount := t.u.freeCount, bt := t.u.bt, hif := t.u.hif, evt := t.u.evt, accel := t.u.accel, fwd := t.u.fwd, sch := t.u.sch, pair := t.u.pair }) ∧
  (∀ (s : State) (via : Via) (table : Fin 4), Completes (.fwdFlush via table) s fun t =>
      KeepsRing ([(BT_PEn_STAT 0, 16), (BT_PEn_TAGSTALL 0, 16), (FWD_CMD_REFUSED, 1), (FWD_CMD_STAT, 1), (FWD_STATUS, 1), (FWD_TBLn_COUNT 0, 4), (FWD_TBLn_ECC_CORR 0, 4), (FWD_TBLn_ECC_UNC 0, 4), (FWD_TBLn_EVICT 0, 4), (FWD_TBLn_HIT 0, 4), (FWD_TBLn_LOOKUP 0, 4), (FWD_TBLn_NOSPACE 0, 4)] ++ accessRegs) s t ∧
      t.u = { s.u with freeCount := t.u.freeCount, bt := t.u.bt, hif := t.u.hif, evt := t.u.evt, accel := t.u.accel, fwd := t.u.fwd, sch := t.u.sch, pair := t.u.pair }) ∧
  (∀ (s : State) (via : Via) (table : Fin 4), Completes (.fwdDigest via table) s fun t =>
      KeepsRing ([(BT_PEn_STAT 0, 16), (BT_PEn_TAGSTALL 0, 16), (FWD_CMD_REFUSED, 1), (FWD_CMD_STAT, 1), (FWD_STATUS, 1), (FWD_TBLn_COUNT 0, 4), (FWD_TBLn_ECC_CORR 0, 4), (FWD_TBLn_ECC_UNC 0, 4), (FWD_TBLn_EVICT 0, 4), (FWD_TBLn_HIT 0, 4), (FWD_TBLn_LOOKUP 0, 4), (FWD_TBLn_NOSPACE 0, 4)] ++ accessRegs) s t ∧
      t.u = { s.u with freeCount := t.u.freeCount, bt := t.u.bt, hif := t.u.hif, evt := t.u.evt, accel := t.u.accel, fwd := t.u.fwd, sch := t.u.sch, pair := t.u.pair }) ∧
  (∀ (s : State) (index : Fin 4096), Completes (.unwrapToSlot index) s fun t =>
      KeepsRing [(SEC_INVALID_KEY, 1), (SEC_ORPHANS, 1), (SEC_STATUS, 1), (SEC_TORN, 1), (SEC_UNWRAP_FAILS, 1)] s t ∧
      t.u = { s.u with bt := t.u.bt, hif := t.u.hif, evt := t.u.evt, sec := t.u.sec, pair := t.u.pair }) ∧
  (∀ (s : State) (index : Fin 4096), Completes (.deriveToSlot index) s fun t =>
      KeepsRing [(SEC_DERIVE, 1), (SEC_INVALID_KEY, 1), (SEC_ORPHANS, 1), (SEC_STATUS, 1), (SEC_TORN, 1)] s t ∧
      t.u = { s.u with bt := t.u.bt, hif := t.u.hif, evt := t.u.evt, sec := t.u.sec, pair := t.u.pair }) ∧
  (∀ (s : State) (index : Fin 4096), Completes (.restrict index) s fun t =>
      KeepsRing [(SEC_INVALID_KEY, 1), (SEC_STATUS, 1)] s t ∧
      t.u = { s.u with bt := t.u.bt, hif := t.u.hif, evt := t.u.evt, sec := t.u.sec, pair := t.u.pair }) ∧
  (∀ (s : State) (index : Fin 4096), Completes (.erase index) s fun t =>
      KeepsRing [(SEC_STATUS, 1)] s t ∧
      t.u = { s.u with bt := t.u.bt, hif := t.u.hif, evt := t.u.evt, sec := t.u.sec, pair := t.u.pair }) ∧
  (∀ (s : State) (slot : Fin 1024) (ok : Bool), Completes (.slotPersistConfirmed slot ok) s fun t =>
      KeepsRing [(SEC_STATUS, 1)] s t ∧
      t.u = { s.u with bt := t.u.bt, boot := t.u.boot, hif := t.u.hif, evt := t.u.evt, sec := t.u.sec, pair := t.u.pair }) ∧
  (∀ (s : State) (slot : Fin 1024), Completes (.slotDrainDone slot) s fun t =>
      KeepsRing [(SEC_ORPHANS, 1), (SEC_STATUS, 1)] s t ∧
      t.u = { s.u with bt := t.u.bt, hif := t.u.hif, evt := t.u.evt, sec := t.u.sec, pair := t.u.pair }) ∧
  (∀ (s : State) (index : Fin 4096), Completes (.commissionDone index) s fun t =>
      KeepsRing [(BOOT_UPD_STAT, 1)] s t ∧
      t.u = { s.u with bt := t.u.bt, pwr := t.u.pwr, boot := t.u.boot, hif := t.u.hif, evt := t.u.evt, pair := t.u.pair }) ∧
  (∀ (s : State) (index : Fin 4096) (kind : UpdateKind) (length : BitVec 32) (tries : Fin 3) (sha : BitVec 256), Completes (.updateBegin index kind length tries sha) s fun t =>
      KeepsRing [(BOOT_UPD_STAT, 1)] s t ∧
      t.u = { s.u with bt := t.u.bt, boot := t.u.boot, hif := t.u.hif, evt := t.u.evt, pair := t.u.pair }) ∧
  (∀ (s : State) (index : Fin 4096), Completes (.updateEnd index) s fun t =>
      KeepsRing [(BOOT_STATUS, 1), (BOOT_UPD_STAT, 1)] s t ∧
      t.u = { s.u with bt := t.u.bt, boot := t.u.boot, hif := t.u.hif, evt := t.u.evt, pair := t.u.pair }) ∧
  (∀ (s : State) (index : Fin 4096), Completes (.updateAbort index) s fun t =>
      KeepsRing [(BOOT_BSR, 1), (BOOT_UPD_STAT, 1)] s t ∧
      t.u = { s.u with bt := t.u.bt, boot := t.u.boot, hif := t.u.hif, evt := t.u.evt, pair := t.u.pair }) ∧
  (∀ (s : State) (index : Fin 4096) (beat : BitVec 32), Completes (.updateActivate index beat) s fun t =>
      KeepsRing [(BOOT_UPD_STAT, 1)] s t ∧
      t.u = { s.u with bt := t.u.bt, boot := t.u.boot, hif := t.u.hif, evt := t.u.evt, pair := t.u.pair }) ∧
  (∀ (s : State) (index : Fin 4096) (blown : BitVec 256), Completes (.updateConfirm index blown) s fun t =>
      KeepsRing [(BOOT_BSR, 1), (BOOT_STATUS, 1), (BOOT_UPD_STAT, 1), (FUSE_PROG_COUNT, 1), (FUSE_PROG_FAIL, 1), (FUSE_STATUS, 1)] s t ∧
      t.u = { s.u with bt := t.u.bt, boot := t.u.boot, hif := t.u.hif, evt := t.u.evt, fuse := t.u.fuse, pair := t.u.pair }) ∧
  (∀ (s : State) (via : HostVia), Completes (.rcvCheck via) s fun t =>
      KeepsRing ([(BOOT_RCV_REFUSED, 1), (BOOT_RCV_STAT, 1)] ++ accessRegs) s t ∧
      t.u = { s.u with bt := t.u.bt, boot := t.u.boot, hif := t.u.hif, evt := t.u.evt, pair := t.u.pair }) ∧
  (∀ (s : State) (via : HostVia), Completes (.rcvWrite via) s fun t =>
      KeepsRing ([(BOOT_RCV_REFUSED, 1), (BOOT_RCV_STAT, 1)] ++ accessRegs) s t ∧
      t.u = { s.u with bt := t.u.bt, boot := t.u.boot, hif := t.u.hif, evt := t.u.evt, pair := t.u.pair }) ∧
  (∀ (s : State) (via : HostVia), Completes (.rcvSetActive via) s fun t =>
      KeepsRing ([(BOOT_RCV_REFUSED, 1), (BOOT_RCV_STAT, 1)] ++ accessRegs) s t ∧
      t.u = { s.u with bt := t.u.bt, boot := t.u.boot, hif := t.u.hif, evt := t.u.evt, pair := t.u.pair }) ∧
  (∀ (s : State) (via : HostVia), Completes (.rcvReprovision via) s fun t =>
      KeepsRing ([(BOOT_RCV_REFUSED, 1), (BOOT_RCV_STAT, 1)] ++ accessRegs) s t ∧
      t.u = { s.u with bt := t.u.bt, boot := t.u.boot, hif := t.u.hif, evt := t.u.evt, pair := t.u.pair }) ∧
  (∀ (s : State) (bad : Option (List Byte)), Completes (.rcvOpComplete bad) s fun t =>
      KeepsRing [(BOOT_BSR, 1), (BOOT_RCV_STAT, 1)] s t ∧
      t.u = { s.u with bt := t.u.bt, boot := t.u.boot, hif := t.u.hif, evt := t.u.evt, pair := t.u.pair }) ∧
  (∀ (s : State) (index : Fin 4096) (number : BitVec 16) (add : Bool) (nodes : List (BitVec 24)), Completes (.campaignTarget index number add nodes) s fun t =>
      KeepsRing [] s t ∧
      t.u = { s.u with bt := t.u.bt, hif := t.u.hif, evt := t.u.evt, pair := t.u.pair, img := t.u.img }) ∧
  (∀ (s : State) (index : Fin 4096), Completes (.campaignQuery index) s fun t =>
      KeepsRing [] s t ∧
      t.u = { s.u with bt := t.u.bt, hif := t.u.hif, evt := t.u.evt, pair := t.u.pair }) ∧
  (∀ (s : State) (iface : HostIface) (value : BitVec 32), Completes (.cmdDoorbell iface value) s fun t =>
      KeepsRing ([(HIF_CMD_HEAD, 1), (HIF_CMD_REFUSED, 1), (HIF_CMD_TAIL, 1), (HIF_CMD_TAKEN, 1)] ++ accessRegs) s t ∧
      t.u = { s.u with bt := t.u.bt, hif := t.u.hif, evt := t.u.evt, pair := t.u.pair }) ∧
  (∀ (s : State) (iface : HostIface) (value : BitVec 32), Completes (.cplConsume iface value) s fun t =>
      KeepsRing ([(HIF_CMD_HEAD, 1), (HIF_CMD_REFUSED, 1), (HIF_CMD_TAIL, 1), (HIF_CMD_TAKEN, 1), (HIF_CPL_CONS, 1)] ++ accessRegs) s t ∧
      t.u = { s.u with bt := t.u.bt, hif := t.u.hif, evt := t.u.evt, pair := t.u.pair }) ∧
  (∀ (s : State) (index : Fin 4096), Completes (.nop index) s fun t =>
      KeepsRing [] s t ∧
      t.u = { s.u with bt := t.u.bt, hif := t.u.hif, evt := t.u.evt, pair := t.u.pair }) ∧
  (∀ (s : State) (index : Fin 4096), Completes (.joinControl index) s fun t =>
      KeepsRing [(MAC_JOIN, 1), (MAC_STATUS, 1)] s t ∧
      t.u = { s.u with bt := t.u.bt, hif := t.u.hif, evt := t.u.evt, pair := t.u.pair }) ∧
  (∀ (s : State) (index : Fin 4096), Completes (.timeOfDay index) s fun t =>
      KeepsRing [] s t ∧
      t.u = { s.u with bt := t.u.bt, tk := t.u.tk, hif := t.u.hif, evt := t.u.evt, pair := t.u.pair })

/-- Frames of the commands that store in the Envelope. Each command named leaves every register outside the spans
listed for it and those of the events, and every unit it does not name as they were. -/
def Obligations.FrameOthers : Prop :=
  (∀ (s : State), Completes .resetNAssert s fun t =>
      KeepsRegs [(BT_PEn_STAT 0, 16), (BT_STATUS, 1), (ENV_FC_STATE, 1), (ENV_POOL, 1), (ETH_STATUS, 1), (MAC_ACK_DROP, 1), (PAIR_STATUS, 1), (RFx_STATUS .s, 1), (RFx_STATUS .w, 1), (RFx_TXn_STAT .s 0, 2), (RFx_TXn_STAT .w 0, 2)] s t ∧
      t.u = { s.u with pins := t.u.pins, bt := t.u.bt, tk := t.u.tk, evt := t.u.evt, accel := t.u.accel, env := t.u.env, sch := t.u.sch, eth := t.u.eth, rf := t.u.rf, rx := t.u.rx, mac := t.u.mac, pair := t.u.pair }) ∧
  (∀ (s : State) (part : TmrUnit) (agree : Bool), Completes (.tmrCopyUpset part agree) s fun t =>
      KeepsRegs [(BT_PEn_STAT 0, 16), (BT_STATUS, 1), (BT_TMR_FIX, 1), (ENV_ABORTS, 1), (ENV_DROP, 1), (ENV_FC_STATE, 1), (ENV_FRAMING, 1), (ENV_PARITY, 1), (ENV_POOL, 1), (ETH_BR_MOVES, 1), (ETH_BR_NOSPACE, 1), (ETH_BR_STAT, 1), (ETH_Pp_BR_FILTER 0, 2), (ETH_Pp_LINK_DOWN 0, 2), (ETH_Pp_PT_DROP 0, 2), (ETH_STATUS, 1), (GEN_MODE_CHANGES, 1), (GEN_MODE, 1), (HIF_STATUS, 1), (MAC_ACK_DROP, 1), (PAIR_STATUS, 1), (PAIR_TMR_FIX, 1), (PWR_REQ_STAT, 1), (PWR_STATUS, 1), (RFx_STATUS .s, 1), (RFx_STATUS .w, 1), (RFx_TXn_STAT .s 0, 2), (RFx_TXn_STAT .w 0, 2), (RXD_CHn_ABORT 0, 80), (RXD_CHn_CAPTURED 0, 80), (RXD_CHn_DEC_FAIL 0, 80), (RXD_CHn_FALSE 0, 80), (RXD_CHn_FRAME_OK 0, 80), (RXD_CHn_STAT 0, 80), (RXD_STATUS, 1), (SCH_POLk_GREEN 0, 16), (SCH_POLk_RED 0, 16), (SCH_POLk_YDROP 0, 16), (SCH_POLk_YELLOW 0, 16), (SEC_STATUS, 1), (SEC_TAMPER_CNT, 1), (SEC_TAMPER_STAT, 1), (SEC_ZEROISE_CNT, 1)] s t ∧
      t.u = { s.u with bt := t.u.bt, tk := t.u.tk, pwr := t.u.pwr, boot := t.u.boot, evt := t.u.evt, accel := t.u.accel, env := t.u.env, sch := t.u.sch, eth := t.u.eth, rf := t.u.rf, rx := t.u.rx, mac := t.u.mac, sec := t.u.sec, pair := t.u.pair }) ∧
  (∀ (s : State) (pe : Fin 16) (slot : Fin 48) (bad : List (BitVec 32)), Completes (.opCompletion pe slot bad) s fun t =>
      KeepsRegs [(BT_PEn_STAT 0, 16), (ENV_ECC_UNC, 1), (FWD_RW_FAIL, 1), (FWD_RW_OK, 1), (SEC_CCM_OPS, 1), (SEC_MIC_FAIL, 1), (SEC_STATUS, 1), (SEC_TXCTR_BCAST, 1), (SEC_TXCTR_JOIN, 1)] s t ∧
      t.u = { s.u with freeCount := t.u.freeCount, bt := t.u.bt, evt := t.u.evt, accel := t.u.accel, env := t.u.env, fwd := t.u.fwd, rx := t.u.rx, pair := t.u.pair }) ∧
  (∀ (s : State) (iface : HostIface) (port : RfPort) (value : BitVec 32) (off : Fin 1000000) (sample : BitVec 64), Completes (.sliceWrite iface port value off sample) s fun t =>
      KeepsRegs ([(ENV_FC_STATE, 1), (ENV_POOL, 1), (ETH_STATUS, 1), (MAC_ACK_DROP, 1), (RFx_CCA_RESTART .s, 1), (RFx_CCA_RESTART .w, 1), (RFx_SLICE .s, 1), (RFx_SLICE .w, 1), (RFx_STATUS .s, 1), (RFx_STATUS .w, 1), (RFx_TXn_STAT .s 0, 2), (RFx_TXn_STAT .w 0, 2), (RXD_AGCx_STAT .s, 1), (RXD_AGCx_STAT .w, 1), (RXD_ANN_GAP_x .s, 1), (RXD_ANN_GAP_x .w, 1), (RXD_CHn_ABORT 0, 80), (RXD_CHn_CAPTURED 0, 80), (RXD_CHn_DEC_FAIL 0, 80), (RXD_CHn_FALSE 0, 80), (RXD_CHn_FRAME_OK 0, 80), (RXD_CHn_STAT 0, 80), (RXD_STATUS, 1), (RXD_STEPS_x .s, 1), (RXD_STEPS_x .w, 1)] ++ accessRegs) s t ∧
      t.u = { s.u with bt := t.u.bt, hif := t.u.hif, evt := t.u.evt, env := t.u.env, sch := t.u.sch, eth := t.u.eth, rf := t.u.rf, rx := t.u.rx, mac := t.u.mac, pair := t.u.pair }) ∧
  (∀ (s : State) (chain : Chain), Completes (.txCalTimeout chain) s fun t =>
      KeepsRegs [(ENV_FC_STATE, 1), (ENV_POOL, 1), (ETH_STATUS, 1), (MAC_ACK_DROP, 1), (RFx_STATUS .s, 1), (RFx_STATUS .w, 1), (RFx_TX_CAL .s, 1), (RFx_TX_CAL .w, 1), (RFx_TXn_STAT .s 0, 2), (RFx_TXn_STAT .w 0, 2)] s t ∧
      t.u = { s.u with bt := t.u.bt, evt := t.u.evt, env := t.u.env, sch := t.u.sch, eth := t.u.eth, rf := t.u.rf, mac := t.u.mac, pair := t.u.pair }) ∧
  (∀ (s : State) (chain : Chain), Completes (.txSynthUnlock chain) s fun t =>
      KeepsRegs [(ENV_FC_STATE, 1), (ENV_POOL, 1), (ETH_STATUS, 1), (MAC_ACK_DROP, 1), (RFx_CCA_RESTART .s, 1), (RFx_CCA_RESTART .w, 1), (RFx_STATUS .s, 1), (RFx_STATUS .w, 1), (RFx_TX_CAL .s, 1), (RFx_TX_CAL .w, 1), (RFx_TXn_STAT .s 0, 2), (RFx_TXn_STAT .w 0, 2), (RFx_UNLOCK_ABORT .s, 1), (RFx_UNLOCK_ABORT .w, 1)] s t ∧
      t.u = { s.u with bt := t.u.bt, evt := t.u.evt, env := t.u.env, sch := t.u.sch, eth := t.u.eth, rf := t.u.rf, mac := t.u.mac, pair := t.u.pair }) ∧
  (∀ (s : State) (iface : HostIface) (chain : Chain) (value : BitVec 32), Completes (.txChainEnWrite iface chain value) s fun t =>
      KeepsRegs ([(ENV_FC_STATE, 1), (ENV_POOL, 1), (ETH_STATUS, 1), (MAC_ACK_DROP, 1), (RFx_STATUS .s, 1), (RFx_STATUS .w, 1), (RFx_TX_CAL .s, 1), (RFx_TX_CAL .w, 1), (RFx_TXn_CTL .s 0, 2), (RFx_TXn_CTL .w 0, 2), (RFx_TXn_STAT .s 0, 2), (RFx_TXn_STAT .w 0, 2)] ++ accessRegs) s t ∧
      t.u = { s.u with bt := t.u.bt, hif := t.u.hif, evt := t.u.evt, env := t.u.env, sch := t.u.sch, eth := t.u.eth, rf := t.u.rf, mac := t.u.mac, pair := t.u.pair }) ∧
  (∀ (s : State) (chain : Chain) (off : Fin 1000000) (power : BitVec 16) (draw : Fin 256), Completes (.ccaEnd chain off power draw) s fun t =>
      KeepsRegs [(ENV_FC_STATE, 1), (ENV_POOL, 1), (ETH_STATUS, 1), (MAC_CCA_BUSY, 1), (MAC_CCA_FAIL, 1), (MAC_RETRY_EXH, 1), (RFx_STATUS .s, 1), (RFx_STATUS .w, 1), (RFx_TXn_STAT .s 0, 2), (RFx_TXn_STAT .w 0, 2)] s t ∧
      t.u = { s.u with bt := t.u.bt, evt := t.u.evt, env := t.u.env, fwd := t.u.fwd, sch := t.u.sch, eth := t.u.eth, rf := t.u.rf, mac := t.u.mac, pair := t.u.pair, img := t.u.img }) ∧
  (∀ (s : State) (chain : Chain) (upset : Bool), Completes (.txFrameStart chain upset) s fun t =>
      KeepsRegs [(ENV_FC_STATE, 1), (ENV_PARITY, 1), (ENV_POISON_READ, 1), (ENV_POOL, 1), (ETH_STATUS, 1)] s t ∧
      t.u = { s.u with bt := t.u.bt, evt := t.u.evt, env := t.u.env, sch := t.u.sch, eth := t.u.eth, rf := t.u.rf, mac := t.u.mac, pair := t.u.pair }) ∧
  (∀ (s : State) (chain : Chain) (off : Fin 1000000) (readback : Bool), Completes (.txFrameEnd chain off readback) s fun t =>
      KeepsRegs [(ENV_FC_STATE, 1), (ENV_POOL, 1), (ETH_STATUS, 1), (MAC_ACK_SENT, 1), (MAC_BEACONS, 1), (PAIR_TX_CHECK, 1), (RFx_TX_FRAMES .s, 1), (RFx_TX_FRAMES .w, 1)] s t ∧
      t.u = { s.u with bt := t.u.bt, evt := t.u.evt, env := t.u.env, fwd := t.u.fwd, sch := t.u.sch, eth := t.u.eth, rf := t.u.rf, mac := t.u.mac, pair := t.u.pair }) ∧
  (∀ (s : State) (port : RfPort), Completes (.cxGrantWithdrawn port) s fun t =>
      KeepsRegs [(ENV_FC_STATE, 1), (ENV_POOL, 1), (ETH_STATUS, 1), (RFx_CX_ABORT .s, 1), (RFx_CX_ABORT .w, 1), (RFx_STATUS .s, 1), (RFx_STATUS .w, 1)] s t ∧
      t.u = { s.u with bt := t.u.bt, evt := t.u.evt, env := t.u.env, sch := t.u.sch, eth := t.u.eth, rf := t.u.rf, mac := t.u.mac, pair := t.u.pair }) ∧
  (∀ (s : State) (index : Fin 256) (off : Fin 1000000), Completes (.macLinkMicDone index off) s fun t =>
      KeepsRegs [(MAC_ACK_DROP, 1), (MAC_BRIDLE_EVICT, 1), (MAC_BRIDLE_EVT, 1), (MAC_DROPr 0, 16), (MAC_DUP, 1), (MAC_JOIN_REQ, 1), (MAC_POLLS, 1), (MAC_POLL_OUTSIDE, 1), (MAC_REPORTS, 1), (MAC_RX_OK, 1), (MAC_STATUS, 1), (RFx_STATUS .s, 1), (RFx_STATUS .w, 1), (RFx_TX_CAL .s, 1), (RFx_TX_CAL .w, 1), (RFx_TXn_STAT .s 0, 2), (RFx_TXn_STAT .w 0, 2), (SEC_CCM_OPS, 1), (SEC_MIC_FAIL, 1)] s t ∧
      t.u = { s.u with bt := t.u.bt, evt := t.u.evt, rf := t.u.rf, rx := t.u.rx, mac := t.u.mac, sec := t.u.sec, pair := t.u.pair, img := t.u.img }) ∧
  (∀ (s : State) (index : Fin 256) (bad : Bool), Completes (.macE2eCheckDone index bad) s fun t =>
      KeepsRegs [(ENV_ECC_UNC, 1), (MAC_BRIDLE_EVICT, 1), (MAC_BRIDLE_EVT, 1), (MAC_DROPr 0, 16), (MAC_E2E_DUP, 1), (MAC_E2E_OLD, 1), (MAC_JOIN_REQ, 1), (MAC_POLLS, 1), (MAC_POLL_OUTSIDE, 1), (MAC_REPORTS, 1), (MAC_STATUS, 1), (SEC_CACHE_HIT, 1), (SEC_CACHE_MISS, 1), (SEC_CCM_OPS, 1), (SEC_DERIVE, 1), (SEC_INVALID_KEY, 1), (SEC_MIC_FAIL, 1), (SEC_ORPHANS, 1), (SEC_STATUS, 1), (SEC_TORN, 1)] s t ∧
      t.u = { s.u with bt := t.u.bt, evt := t.u.evt, env := t.u.env, rx := t.u.rx, mac := t.u.mac, sec := t.u.sec, pair := t.u.pair, img := t.u.img }) ∧
  (∀ (s : State) (index : Fin 256) (draw : Fin 256) (off : Fin 1000000), Completes (.ackWaitExpiry index draw off) s fun t =>
      KeepsRegs [(ENV_FC_STATE, 1), (ENV_POOL, 1), (ETH_STATUS, 1), (MAC_ACK_MISSED, 1), (MAC_RETRY_EXH, 1)] s t ∧
      t.u = { s.u with bt := t.u.bt, evt := t.u.evt, env := t.u.env, fwd := t.u.fwd, sch := t.u.sch, eth := t.u.eth, mac := t.u.mac, pair := t.u.pair, img := t.u.img }) ∧
  (∀ (s : State) (index : Fin 256), Completes (.ackReceived index) s fun t =>
      KeepsRegs [(ENV_FC_STATE, 1), (ENV_POOL, 1), (ETH_STATUS, 1), (MAC_ACK_STRAY, 1)] s t ∧
      t.u = { s.u with bt := t.u.bt, evt := t.u.evt, env := t.u.env, fwd := t.u.fwd, sch := t.u.sch, eth := t.u.eth, mac := t.u.mac, pair := t.u.pair, img := t.u.img }) ∧
  (∀ (s : State) (node : BitVec 24) (off : Fin 1000000), Completes (.listenWindowOpen node off) s fun t =>
      KeepsRegs [(SEC_CACHE_HIT, 1), (SEC_CACHE_MISS, 1), (SEC_CCM_OPS, 1), (SEC_DERIVE, 1), (SEC_INVALID_KEY, 1), (SEC_ORPHANS, 1), (SEC_STATUS, 1), (SEC_TORN, 1), (SEC_TXCTR_BCAST, 1), (SEC_TXCTR_JOIN, 1)] s t ∧
      t.u = { s.u with bt := t.u.bt, evt := t.u.evt, rx := t.u.rx, mac := t.u.mac, sec := t.u.sec, pair := t.u.pair }) ∧
  (∀ (s : State) (node : BitVec 24) (off : Fin 1000000), Completes (.pollStage node off) s fun t =>
      KeepsRegs [(SEC_CACHE_HIT, 1), (SEC_CACHE_MISS, 1), (SEC_CCM_OPS, 1), (SEC_DERIVE, 1), (SEC_INVALID_KEY, 1), (SEC_ORPHANS, 1), (SEC_STATUS, 1), (SEC_TORN, 1), (SEC_TXCTR_BCAST, 1), (SEC_TXCTR_JOIN, 1)] s t ∧
      t.u = { s.u with bt := t.u.bt, evt := t.u.evt, rx := t.u.rx, sec := t.u.sec, pair := t.u.pair }) ∧
  (∀ (s : State) (node : BitVec 24) (off : Fin 1000000), Completes (.pollWindowClose node off) s fun t =>
      KeepsRegs [(MAC_POLL_MISSED, 1)] s t ∧
      t.u = { s.u with bt := t.u.bt, evt := t.u.evt, pair := t.u.pair }) ∧
  (∀ (s : State) (decoder : Fin 80) (cls : Fin 4), Completes (.beaconDue decoder cls) s fun t =>
      KeepsRegs [(ENV_ABORTS, 1), (ENV_DROP, 1), (ENV_FC_STATE, 1), (ENV_FRAMING, 1), (ENV_PARITY, 1), (ENV_POOL, 1), (ETH_STATUS, 1), (SEC_CACHE_HIT, 1), (SEC_CACHE_MISS, 1), (SEC_CCM_OPS, 1), (SEC_DERIVE, 1), (SEC_INVALID_KEY, 1), (SEC_ORPHANS, 1), (SEC_STATUS, 1), (SEC_TORN, 1), (SEC_TXCTR_BCAST, 1), (SEC_TXCTR_JOIN, 1)] s t ∧
      t.u = { s.u with bt := t.u.bt, evt := t.u.evt, env := t.u.env, sch := t.u.sch, eth := t.u.eth, rx := t.u.rx, mac := t.u.mac, sec := t.u.sec, pair := t.u.pair }) ∧
  (∀ (s : State) (decoder : Fin 80), Completes (.beaconSkipDeadline decoder) s fun t =>
      KeepsRegs [(ENV_FC_STATE, 1), (ENV_POOL, 1), (ETH_STATUS, 1), (MAC_BEACON_SKIP, 1), (RFx_STATUS .s, 1), (RFx_STATUS .w, 1), (RFx_TXn_STAT .s 0, 2), (RFx_TXn_STAT .w 0, 2)] s t ∧
      t.u = { s.u with bt := t.u.bt, evt := t.u.evt, env := t.u.env, sch := t.u.sch, eth := t.u.eth, rf := t.u.rf, rx := t.u.rx, mac := t.u.mac, pair := t.u.pair }) ∧
  (∀ (s : State) (cls : Fin 4) (answers : List (BitVec 64 × JoinOutcome)), Completes (.joinAdmission cls answers) s fun t =>
      KeepsRegs [(ENV_ABORTS, 1), (ENV_DROP, 1), (ENV_FC_STATE, 1), (ENV_FRAMING, 1), (ENV_PARITY, 1), (ENV_POOL, 1), (ETH_STATUS, 1), (FWD_RW_FAIL, 1), (FWD_RW_OK, 1), (MAC_JOIN_ACCEPT, 1), (MAC_JOIN_OVER, 1), (MAC_JOIN_REFUSE, 1), (MAC_STATUS, 1), (SEC_CACHE_HIT, 1), (SEC_CACHE_MISS, 1), (SEC_CCM_OPS, 1), (SEC_DERIVE, 1), (SEC_INVALID_KEY, 1), (SEC_ORPHANS, 1), (SEC_STATUS, 1), (SEC_TORN, 1), (SEC_TXCTR_BCAST, 1), (SEC_TXCTR_JOIN, 1)] s t ∧
      t.u = { s.u with bt := t.u.bt, evt := t.u.evt, env := t.u.env, fwd := t.u.fwd, sch := t.u.sch, eth := t.u.eth, rx := t.u.rx, mac := t.u.mac, sec := t.u.sec, pair := t.u.pair }) ∧
  (∀ (s : State) (index : Fin 256) (headend : Fin 16) (cls : Fin 8) (pre : Fin 3), Completes (.forwardLearn index headend cls pre) s fun t =>
      KeepsRegs [(ENV_ABORTS, 1), (ENV_DROP, 1), (ENV_FC_STATE, 1), (ENV_FRAMING, 1), (ENV_PARITY, 1), (ENV_POOL, 1), (ETH_STATUS, 1), (FWD_STATUS, 1), (FWD_TBLn_COUNT 0, 4), (FWD_TBLn_EVICT 0, 4), (FWD_TBLn_HIT 0, 4), (FWD_TBLn_LEARN 0, 4), (FWD_TBLn_LOOKUP 0, 4), (FWD_TBLn_NOSPACE 0, 4), (FWD_UL_OUT, 1), (SCH_POLk_GREEN 0, 16), (SCH_POLk_RED 0, 16), (SCH_POLk_YDROP 0, 16), (SCH_POLk_YELLOW 0, 16)] s t ∧
      t.u = { s.u with freeCount := t.u.freeCount, bt := t.u.bt, evt := t.u.evt, env := t.u.env, fwd := t.u.fwd, sch := t.u.sch, eth := t.u.eth, rx := t.u.rx, mac := t.u.mac, pair := t.u.pair }) ∧
  (∀ (s : State) (pe : Fin 16) (thread : Fin 4) (op : RecordOp), recordOpOk op = true → Completes (.recordUpdate pe thread op) s fun t =>
      KeepsRegs [(BT_PEn_STAT 0, 16), (BT_PEn_TAGSTALL 0, 16), (MAC_NBR, 1), (MAC_STATUS, 1)] s t ∧
      t.u = { s.u with bt := t.u.bt, evt := t.u.evt, mac := t.u.mac, pair := t.u.pair }) ∧
  (∀ (s : State) (port : EthPort) (pick : Pick) (cls : Fin 8) (pre : Fin 3), Completes (.pleDownlinkReceived port pick cls pre) s fun t =>
      KeepsRegs [(BT_PEn_STAT 0, 16), (ENV_ABORTS, 1), (ENV_DROP, 1), (ENV_FC_STATE, 1), (ENV_FRAMING, 1), (ENV_PARITY, 1), (ENV_POOL, 1), (ETH_STATUS, 1), (FWD_DL_IN, 1), (FWD_DL_REFUSED, 1), (FWD_RW_FAIL, 1), (FWD_RW_OK, 1), (MAC_PEND_FULL, 1), (SCH_POLk_GREEN 0, 16), (SCH_POLk_RED 0, 16), (SCH_POLk_YDROP 0, 16), (SCH_POLk_YELLOW 0, 16), (SEC_CACHE_HIT, 1), (SEC_CACHE_MISS, 1), (SEC_CCM_OPS, 1), (SEC_DERIVE, 1), (SEC_INVALID_KEY, 1), (SEC_ORPHANS, 1), (SEC_STATUS, 1), (SEC_TORN, 1), (SEC_TXCTR_BCAST, 1), (SEC_TXCTR_JOIN, 1)] s t ∧
      t.u = { s.u with bt := t.u.bt, evt := t.u.evt, accel := t.u.accel, env := t.u.env, fwd := t.u.fwd, sch := t.u.sch, eth := t.u.eth, rx := t.u.rx, mac := t.u.mac, sec := t.u.sec, pair := t.u.pair }) ∧
  (∀ (s : State) (port : QueuePort) (queue : Fin 4096) (next : Bool) (headend : Fin 16) (words : List WordIn), wordsOk words = true → Completes (.enq port queue next headend words) s fun t =>
      KeepsRegs [(BT_PEn_STAT 0, 16), (BT_PEn_TAGSTALL 0, 16), (ENV_ABORTS, 1), (ENV_DROP, 1), (ENV_FC_STATE, 1), (ENV_FRAMING, 1), (ENV_PARITY, 1), (ENV_POOL, 1), (ETH_STATUS, 1)] s t ∧
      t.u = { s.u with bt := t.u.bt, evt := t.u.evt, env := t.u.env, eth := t.u.eth, pair := t.u.pair }) ∧
  (∀ (s : State) (port : QueuePort) (queue : Fin 4096), Completes (.abort port queue) s fun t =>
      KeepsRegs [(BT_PEn_STAT 0, 16), (BT_PEn_TAGSTALL 0, 16), (ENV_ABORTS, 1), (ENV_FC_STATE, 1), (ENV_POOL, 1), (ETH_STATUS, 1)] s t ∧
      t.u = { s.u with bt := t.u.bt, evt := t.u.evt, env := t.u.env, eth := t.u.eth, pair := t.u.pair }) ∧
  (∀ (s : State) (port : QueuePort) (queue : Fin 4096) (n : Fin 16) (stopAtL : Bool) (out : BitVec 18) (upsets : List (Option WordUpset)), Completes (.deq port queue n stopAtL out upsets) s fun t =>
      KeepsRegs [(BT_PEn_STAT 0, 16), (BT_PEn_TAGSTALL 0, 16), (ENV_ECC_UNC, 1), (ENV_EMPTY_READS, 1), (ENV_FC_STATE, 1), (ENV_PARITY, 1), (ENV_POISON_READ, 1), (ENV_POOL, 1), (ETH_STATUS, 1)] s t ∧
      t.u = { s.u with bt := t.u.bt, evt := t.u.evt, accel := t.u.accel, env := t.u.env, eth := t.u.eth, pair := t.u.pair }) ∧
  (∀ (s : State) (port : QueuePort) (queue : Fin 4096), Completes (.mark port queue) s fun t =>
      KeepsRegs [(BT_PEn_STAT 0, 16), (BT_PEn_TAGSTALL 0, 16), (ENV_FC_STATE, 1), (ENV_POOL, 1), (ETH_STATUS, 1)] s t ∧
      t.u = { s.u with bt := t.u.bt, evt := t.u.evt, env := t.u.env, eth := t.u.eth }) ∧
  (∀ (s : State) (port : QueuePort) (queue : Fin 4096), Completes (.rewind port queue) s fun t =>
      KeepsRegs [(BT_PEn_STAT 0, 16), (BT_PEn_TAGSTALL 0, 16), (ENV_FC_STATE, 1), (ENV_POOL, 1), (ETH_STATUS, 1)] s t ∧
      t.u = { s.u with bt := t.u.bt, evt := t.u.evt, env := t.u.env, eth := t.u.eth }) ∧
  (∀ (s : State) (port : QueuePort) (queue : Fin 4096), Completes (.release port queue) s fun t =>
      KeepsRegs [(BT_PEn_STAT 0, 16), (BT_PEn_TAGSTALL 0, 16), (ENV_FC_STATE, 1), (ENV_POOL, 1), (ETH_STATUS, 1)] s t ∧
      t.u = { s.u with bt := t.u.bt, evt := t.u.evt, env := t.u.env, eth := t.u.eth, pair := t.u.pair }) ∧
  (∀ (s : State) (iface : HostIface) (queue : Fin 4096), Completes (.queueReadCfg iface queue) s fun t =>
      KeepsRegs ([(ENV_ABORTS, 1), (ENV_FC_STATE, 1), (ENV_POOL, 1), (ENV_QCMD_REFUSED, 1), (ENV_QCMD_STAT, 1), (ETH_STATUS, 1), (HIF_CMD_LATE, 1), (HIF_CPL_PROD, 1), (HIF_STATUS, 1)] ++ accessRegs) s t ∧
      t.u = { s.u with bt := t.u.bt, hif := t.u.hif, evt := t.u.evt, env := t.u.env, eth := t.u.eth, pair := t.u.pair }) ∧
  (∀ (s : State) (via : HostVia) (queue : Fin 4096), Completes (.queueWriteCfg via queue) s fun t =>
      KeepsRegs ([(ENV_ABORTS, 1), (ENV_FC_STATE, 1), (ENV_POOL, 1), (ENV_QCMD_REFUSED, 1), (ENV_QCMD_STAT, 1), (ETH_STATUS, 1), (HIF_CMD_LATE, 1), (HIF_CPL_PROD, 1), (HIF_STATUS, 1)] ++ accessRegs) s t ∧
      t.u = { s.u with bt := t.u.bt, hif := t.u.hif, evt := t.u.evt, env := t.u.env, eth := t.u.eth, pair := t.u.pair }) ∧
  (∀ (s : State) (iface : HostIface) (queue : Fin 4096), Completes (.queueReadState iface queue) s fun t =>
      KeepsRegs ([(ENV_ABORTS, 1), (ENV_FC_STATE, 1), (ENV_POOL, 1), (ENV_QCMD_REFUSED, 1), (ENV_QCMD_STAT, 1), (ETH_STATUS, 1), (HIF_CMD_LATE, 1), (HIF_CPL_PROD, 1), (HIF_STATUS, 1)] ++ accessRegs) s t ∧
      t.u = { s.u with bt := t.u.bt, hif := t.u.hif, evt := t.u.evt, env := t.u.env, eth := t.u.eth, pair := t.u.pair }) ∧
  (∀ (s : State) (via : HostVia) (queue : Fin 4096), Completes (.queueFlush via queue) s fun t =>
      KeepsRegs ([(ENV_ABORTS, 1), (ENV_FC_STATE, 1), (ENV_POOL, 1), (ENV_QCMD_REFUSED, 1), (ENV_QCMD_STAT, 1), (ETH_STATUS, 1), (HIF_CMD_LATE, 1), (HIF_CPL_PROD, 1), (HIF_STATUS, 1)] ++ accessRegs) s t ∧
      t.u = { s.u with bt := t.u.bt, hif := t.u.hif, evt := t.u.evt, env := t.u.env, eth := t.u.eth, pair := t.u.pair }) ∧
  (∀ (s : State) (offset : BitVec 28) (bytes : List (Option (BitVec 8))), Completes (.bar2Write offset bytes) s fun t =>
      KeepsRegs accessRegs s t ∧
      t.u = { s.u with bt := t.u.bt, hif := t.u.hif, evt := t.u.evt }) ∧
  (∀ (s : State) (pin : Fin 2), Completes (.tamperDebounced pin) s fun t =>
      KeepsRegs [(BT_PEn_STAT 0, 16), (BT_STATUS, 1), (ENV_ABORTS, 1), (ENV_DROP, 1), (ENV_FC_STATE, 1), (ENV_FRAMING, 1), (ENV_PARITY, 1), (ENV_POOL, 1), (ETH_BR_MOVES, 1), (ETH_BR_NOSPACE, 1), (ETH_BR_STAT, 1), (ETH_Pp_BR_FILTER 0, 2), (ETH_Pp_LINK_DOWN 0, 2), (ETH_Pp_PT_DROP 0, 2), (ETH_STATUS, 1), (GEN_MODE_CHANGES, 1), (GEN_MODE, 1), (HIF_STATUS, 1), (MAC_ACK_DROP, 1), (PAIR_STATUS, 1), (PWR_REQ_STAT, 1), (PWR_STATUS, 1), (RFx_STATUS .s, 1), (RFx_STATUS .w, 1), (RFx_TXn_STAT .s 0, 2), (RFx_TXn_STAT .w 0, 2), (RXD_CHn_ABORT 0, 80), (RXD_CHn_CAPTURED 0, 80), (RXD_CHn_DEC_FAIL 0, 80), (RXD_CHn_FALSE 0, 80), (RXD_CHn_FRAME_OK 0, 80), (RXD_CHn_STAT 0, 80), (RXD_STATUS, 1), (SCH_POLk_GREEN 0, 16), (SCH_POLk_RED 0, 16), (SCH_POLk_YDROP 0, 16), (SCH_POLk_YELLOW 0, 16), (SEC_STATUS, 1), (SEC_TAMPER_CNT, 1), (SEC_TAMPER_STAT, 1), (SEC_ZEROISE_CNT, 1)] s t ∧
      t.u = { s.u with bt := t.u.bt, tk := t.u.tk, pwr := t.u.pwr, boot := t.u.boot, evt := t.u.evt, accel := t.u.accel, env := t.u.env, sch := t.u.sch, eth := t.u.eth, rf := t.u.rf, rx := t.u.rx, mac := t.u.mac, sec := t.u.sec, pair := t.u.pair }) ∧
  (∀ (s : State) (monitor : Fin 4) (present : Bool), Completes (.monitorExcursion monitor present) s fun t =>
      KeepsRegs [(BT_PEn_STAT 0, 16), (BT_STATUS, 1), (ENV_ABORTS, 1), (ENV_DROP, 1), (ENV_FC_STATE, 1), (ENV_FRAMING, 1), (ENV_PARITY, 1), (ENV_POOL, 1), (ETH_BR_MOVES, 1), (ETH_BR_NOSPACE, 1), (ETH_BR_STAT, 1), (ETH_Pp_BR_FILTER 0, 2), (ETH_Pp_LINK_DOWN 0, 2), (ETH_Pp_PT_DROP 0, 2), (ETH_STATUS, 1), (GEN_MODE_CHANGES, 1), (GEN_MODE, 1), (HIF_STATUS, 1), (MAC_ACK_DROP, 1), (PAIR_STATUS, 1), (PWR_REQ_STAT, 1), (PWR_STATUS, 1), (RFx_STATUS .s, 1), (RFx_STATUS .w, 1), (RFx_TXn_STAT .s 0, 2), (RFx_TXn_STAT .w 0, 2), (RXD_CHn_ABORT 0, 80), (RXD_CHn_CAPTURED 0, 80), (RXD_CHn_DEC_FAIL 0, 80), (RXD_CHn_FALSE 0, 80), (RXD_CHn_FRAME_OK 0, 80), (RXD_CHn_STAT 0, 80), (RXD_STATUS, 1), (SCH_POLk_GREEN 0, 16), (SCH_POLk_RED 0, 16), (SCH_POLk_YDROP 0, 16), (SCH_POLk_YELLOW 0, 16), (SEC_STATUS, 1), (SEC_TAMPER_CNT, 1), (SEC_TAMPER_STAT, 1), (SEC_ZEROISE_CNT, 1)] s t ∧
      t.u = { s.u with bt := t.u.bt, tk := t.u.tk, pwr := t.u.pwr, boot := t.u.boot, evt := t.u.evt, accel := t.u.accel, env := t.u.env, sch := t.u.sch, eth := t.u.eth, rf := t.u.rf, rx := t.u.rx, mac := t.u.mac, sec := t.u.sec, pair := t.u.pair }) ∧
  (∀ (s : State) (iface : HostIface) (comp : BitVec 32), Completes (.secZeroise iface comp) s fun t =>
      KeepsRegs ([(BT_PEn_STAT 0, 16), (BT_STATUS, 1), (ENV_ABORTS, 1), (ENV_DROP, 1), (ENV_FC_STATE, 1), (ENV_FRAMING, 1), (ENV_PARITY, 1), (ENV_POOL, 1), (ETH_BR_MOVES, 1), (ETH_BR_NOSPACE, 1), (ETH_BR_STAT, 1), (ETH_Pp_BR_FILTER 0, 2), (ETH_Pp_LINK_DOWN 0, 2), (ETH_Pp_PT_DROP 0, 2), (ETH_STATUS, 1), (GEN_MODE_CHANGES, 1), (GEN_MODE, 1), (HIF_GUARD_REJ, 1), (HIF_STATUS, 1), (MAC_ACK_DROP, 1), (PAIR_STATUS, 1), (PWR_REQ_STAT, 1), (PWR_STATUS, 1), (RFx_STATUS .s, 1), (RFx_STATUS .w, 1), (RFx_TXn_STAT .s 0, 2), (RFx_TXn_STAT .w 0, 2), (RXD_CHn_ABORT 0, 80), (RXD_CHn_CAPTURED 0, 80), (RXD_CHn_DEC_FAIL 0, 80), (RXD_CHn_FALSE 0, 80), (RXD_CHn_FRAME_OK 0, 80), (RXD_CHn_STAT 0, 80), (RXD_STATUS, 1), (SCH_POLk_GREEN 0, 16), (SCH_POLk_RED 0, 16), (SCH_POLk_YDROP 0, 16), (SCH_POLk_YELLOW 0, 16), (SEC_STATUS, 1), (SEC_TAMPER_CNT, 1), (SEC_TAMPER_STAT, 1), (SEC_ZEROISE_CNT, 1)] ++ guardRegs) s t ∧
      t.u = { s.u with bt := t.u.bt, tk := t.u.tk, pwr := t.u.pwr, boot := t.u.boot, hif := t.u.hif, evt := t.u.evt, accel := t.u.accel, env := t.u.env, sch := t.u.sch, eth := t.u.eth, rf := t.u.rf, rx := t.u.rx, mac := t.u.mac, sec := t.u.sec, pair := t.u.pair }) ∧
  (∀ (s : State) (iface : HostIface) (comp : BitVec 32), Completes (.fuseAdvance iface comp) s fun t =>
      KeepsRegs ([(BT_PEn_STAT 0, 16), (BT_STATUS, 1), (ENV_ABORTS, 1), (ENV_DROP, 1), (ENV_FC_STATE, 1), (ENV_FRAMING, 1), (ENV_PARITY, 1), (ENV_POOL, 1), (ETH_BR_MOVES, 1), (ETH_BR_NOSPACE, 1), (ETH_BR_STAT, 1), (ETH_Pp_BR_FILTER 0, 2), (ETH_Pp_LINK_DOWN 0, 2), (ETH_Pp_PT_DROP 0, 2), (ETH_STATUS, 1), (FUSE_STATUS, 1), (GEN_MODE_CHANGES, 1), (GEN_MODE, 1), (HIF_GUARD_REJ, 1), (HIF_STATUS, 1), (MAC_ACK_DROP, 1), (PAIR_STATUS, 1), (PWR_REQ_STAT, 1), (PWR_STATUS, 1), (RFx_STATUS .s, 1), (RFx_STATUS .w, 1), (RFx_TXn_STAT .s 0, 2), (RFx_TXn_STAT .w 0, 2), (RXD_CHn_ABORT 0, 80), (RXD_CHn_CAPTURED 0, 80), (RXD_CHn_DEC_FAIL 0, 80), (RXD_CHn_FALSE 0, 80), (RXD_CHn_FRAME_OK 0, 80), (RXD_CHn_STAT 0, 80), (RXD_STATUS, 1), (SCH_POLk_GREEN 0, 16), (SCH_POLk_RED 0, 16), (SCH_POLk_YDROP 0, 16), (SCH_POLk_YELLOW 0, 16), (SEC_STATUS, 1), (SEC_TAMPER_CNT, 1), (SEC_TAMPER_STAT, 1), (SEC_ZEROISE_CNT, 1)] ++ guardRegs) s t ∧
      t.u = { s.u with bt := t.u.bt, tk := t.u.tk, pwr := t.u.pwr, boot := t.u.boot, hif := t.u.hif, evt := t.u.evt, fuse := t.u.fuse, accel := t.u.accel, env := t.u.env, sch := t.u.sch, eth := t.u.eth, rf := t.u.rf, rx := t.u.rx, mac := t.u.mac, sec := t.u.sec, pair := t.u.pair }) ∧
  (∀ (s : State), Completes .debugAccessOpen s fun t =>
      KeepsRegs [(BT_PEn_STAT 0, 16), (BT_STATUS, 1), (ENV_ABORTS, 1), (ENV_DROP, 1), (ENV_FC_STATE, 1), (ENV_FRAMING, 1), (ENV_PARITY, 1), (ENV_POOL, 1), (ETH_BR_MOVES, 1), (ETH_BR_NOSPACE, 1), (ETH_BR_STAT, 1), (ETH_Pp_BR_FILTER 0, 2), (ETH_Pp_LINK_DOWN 0, 2), (ETH_Pp_PT_DROP 0, 2), (ETH_STATUS, 1), (GEN_MODE_CHANGES, 1), (GEN_MODE, 1), (HIF_STATUS, 1), (MAC_ACK_DROP, 1), (PAIR_STATUS, 1), (PWR_REQ_STAT, 1), (PWR_STATUS, 1), (RFx_STATUS .s, 1), (RFx_STATUS .w, 1), (RFx_TXn_STAT .s 0, 2), (RFx_TXn_STAT .w 0, 2), (RXD_CHn_ABORT 0, 80), (RXD_CHn_CAPTURED 0, 80), (RXD_CHn_DEC_FAIL 0, 80), (RXD_CHn_FALSE 0, 80), (RXD_CHn_FRAME_OK 0, 80), (RXD_CHn_STAT 0, 80), (RXD_STATUS, 1), (SCH_POLk_GREEN 0, 16), (SCH_POLk_RED 0, 16), (SCH_POLk_YDROP 0, 16), (SCH_POLk_YELLOW 0, 16), (SEC_STATUS, 1), (SEC_TAMPER_CNT, 1), (SEC_TAMPER_STAT, 1), (SEC_ZEROISE_CNT, 1)] s t ∧
      t.u = { s.u with bt := t.u.bt, tk := t.u.tk, pwr := t.u.pwr, boot := t.u.boot, evt := t.u.evt, accel := t.u.accel, env := t.u.env, sch := t.u.sch, eth := t.u.eth, rf := t.u.rf, rx := t.u.rx, mac := t.u.mac, sec := t.u.sec, pair := t.u.pair }) ∧
  (∀ (s : State) (edges : BitVec 40) (nap : Fin 101), Completes (.timeSecond edges nap) s fun t =>
      KeepsRegs [(PAIR_SCORE, 1), (PAIR_STATUS, 1), (PWR_NAP_PCT, 1)] s t ∧
      t.u = { s.u with freeCount := t.u.freeCount, bt := t.u.bt, tk := t.u.tk, evt := t.u.evt, eth := t.u.eth, pair := t.u.pair }) ∧
  (∀ (s : State) (port : EthPort), Completes (.ethLinkDown port) s fun t =>
      KeepsRegs [(ENV_ABORTS, 1), (ENV_DROP, 1), (ENV_FC_STATE, 1), (ENV_FRAMING, 1), (ENV_PARITY, 1), (ENV_POOL, 1), (ETH_BR_MOVES, 1), (ETH_BR_NOSPACE, 1), (ETH_BR_STAT, 1), (ETH_Pp_BR_FILTER 0, 2), (ETH_Pp_LINK_DOWN 0, 2), (ETH_Pp_PT_DROP 0, 2), (ETH_STATUS, 1), (SCH_POLk_GREEN 0, 16), (SCH_POLk_RED 0, 16), (SCH_POLk_YDROP 0, 16), (SCH_POLk_YELLOW 0, 16)] s t ∧
      t.u = { s.u with bt := t.u.bt, evt := t.u.evt, env := t.u.env, sch := t.u.sch, eth := t.u.eth, pair := t.u.pair }) ∧
  (∀ (s : State) (port : EthPort) (edges : BitVec 40) (phase : Fin 4) (code : Bool) (bytes : List Byte), Completes (.ethFrameReceived port edges phase code bytes) s fun t =>
      KeepsRegs [(ENV_ABORTS, 1), (ENV_DROP, 1), (ENV_FC_STATE, 1), (ENV_FRAMING, 1), (ENV_PARITY, 1), (ENV_POOL, 1), (ETH_BR_MOVES, 1), (ETH_BR_NOSPACE, 1), (ETH_BR_STAT, 1), (ETH_Pp_BR_FILTER 0, 2), (ETH_Pp_LOCAL_DROP 0, 2), (ETH_Pp_PAUSE_RX 0, 2), (ETH_Pp_PT_DROP 0, 2), (ETH_Pp_RX_ERR 0, 2), (ETH_Pp_RX_FRAMES 0, 2), (ETH_Pp_RX_RSVD 0, 2), (ETH_Pp_VLAN_DROP 0, 2), (ETH_STATUS, 1), (FWD_DL_BAD, 1), (FWD_MOVES, 1), (FWD_STATUS, 1), (FWD_TBLn_COUNT 0, 4), (FWD_TBLn_EVICT 0, 4), (FWD_TBLn_HIT 0, 4), (FWD_TBLn_LEARN 0, 4), (FWD_TBLn_LOOKUP 0, 4), (FWD_TBLn_NOSPACE 0, 4), (SCH_POLk_GREEN 0, 16), (SCH_POLk_RED 0, 16), (SCH_POLk_YDROP 0, 16), (SCH_POLk_YELLOW 0, 16)] s t ∧
      t.u = { s.u with freeCount := t.u.freeCount, bt := t.u.bt, tk := t.u.tk, evt := t.u.evt, env := t.u.env, fwd := t.u.fwd, sch := t.u.sch, eth := t.u.eth, pair := t.u.pair }) ∧
  (∀ (s : State) (port : EthPort) (edges : BitVec 40) (phase : Fin 4), Completes (.ethTxStart port edges phase) s fun t =>
      KeepsRegs [(ENV_FC_STATE, 1), (ENV_POISON_READ, 1), (ENV_POOL, 1), (ETH_RTAG_SENT, 1), (ETH_STATUS, 1), (TK_TC_FRAMES, 1), (TK_TC_SAT, 1)] s t ∧
      t.u = { s.u with freeCount := t.u.freeCount, bt := t.u.bt, tk := t.u.tk, evt := t.u.evt, env := t.u.env, sch := t.u.sch, eth := t.u.eth, pair := t.u.pair }) ∧
  (∀ (s : State) (port : EthPort) (upset : Bool), Completes (.ethTxDone port upset) s fun t =>
      KeepsRegs [(ENV_FC_STATE, 1), (ENV_PARITY, 1), (ENV_POISON_READ, 1), (ENV_POOL, 1), (ETH_Pp_BR_FWD 0, 2), (ETH_Pp_PAUSE_TX 0, 2), (ETH_Pp_TX_FRAMES 0, 2), (ETH_STATUS, 1)] s t ∧
      t.u = { s.u with bt := t.u.bt, evt := t.u.evt, env := t.u.env, sch := t.u.sch, eth := t.u.eth, pair := t.u.pair }) ∧
  (∀ (s : State), Completes .bridgeAgeTick s fun t =>
      KeepsRegs [(ENV_ABORTS, 1), (ENV_DROP, 1), (ENV_FC_STATE, 1), (ENV_FRAMING, 1), (ENV_PARITY, 1), (ENV_POOL, 1), (ETH_BR_MOVES, 1), (ETH_BR_NOSPACE, 1), (ETH_BR_STAT, 1), (ETH_Pp_BR_FILTER 0, 2), (ETH_Pp_PT_DROP 0, 2), (ETH_STATUS, 1), (SCH_POLk_GREEN 0, 16), (SCH_POLk_RED 0, 16), (SCH_POLk_YDROP 0, 16), (SCH_POLk_YELLOW 0, 16)] s t ∧
      t.u = { s.u with bt := t.u.bt, evt := t.u.evt, env := t.u.env, sch := t.u.sch, eth := t.u.eth, pair := t.u.pair }) ∧
  (∀ (s : State), Completes .ethBrFlushDone s fun t =>
      KeepsRegs [(ENV_ABORTS, 1), (ENV_DROP, 1), (ENV_FC_STATE, 1), (ENV_FRAMING, 1), (ENV_PARITY, 1), (ENV_POOL, 1), (ETH_BR_MOVES, 1), (ETH_BR_NOSPACE, 1), (ETH_BR_STAT, 1), (ETH_Pp_BR_FILTER 0, 2), (ETH_Pp_PT_DROP 0, 2), (ETH_STATUS, 1), (SCH_POLk_GREEN 0, 16), (SCH_POLk_RED 0, 16), (SCH_POLk_YDROP 0, 16), (SCH_POLk_YELLOW 0, 16)] s t ∧
      t.u = { s.u with bt := t.u.bt, evt := t.u.evt, env := t.u.env, sch := t.u.sch, eth := t.u.eth, pair := t.u.pair }) ∧
  (∀ (s : State) (iface : HostIface) (port : EthPort) (value : BitVec 32), Completes (.ethPortCfgWrite iface port value) s fun t =>
      KeepsRegs ([(ENV_ABORTS, 1), (ENV_DROP, 1), (ENV_FC_STATE, 1), (ENV_FRAMING, 1), (ENV_PARITY, 1), (ENV_POOL, 1), (ETH_BR_MOVES, 1), (ETH_BR_NOSPACE, 1), (ETH_BR_STAT, 1), (ETH_Pp_BR_FILTER 0, 2), (ETH_Pp_CFG 0, 2), (ETH_Pp_LINK_DOWN 0, 2), (ETH_Pp_PT_DROP 0, 2), (ETH_STATUS, 1), (SCH_POLk_GREEN 0, 16), (SCH_POLk_RED 0, 16), (SCH_POLk_YDROP 0, 16), (SCH_POLk_YELLOW 0, 16)] ++ accessRegs) s t ∧
      t.u = { s.u with bt := t.u.bt, hif := t.u.hif, evt := t.u.evt, env := t.u.env, sch := t.u.sch, eth := t.u.eth, pair := t.u.pair }) ∧
  (∀ (s : State) (lseq beat : BitVec 32) (entries : List RecEntry), Completes (.inputReceived lseq beat entries) s fun t =>
      KeepsRegs [(ENV_ABORTS, 1), (ENV_DROP, 1), (ENV_FC_STATE, 1), (ENV_FRAMING, 1), (ENV_PARITY, 1), (ENV_POOL, 1), (ETH_STATUS, 1), (FWD_MOVES, 1), (FWD_STATUS, 1), (FWD_TBLn_COUNT 0, 4), (FWD_TBLn_EVICT 0, 4), (FWD_TBLn_HIT 0, 4), (FWD_TBLn_LEARN 0, 4), (FWD_TBLn_LOOKUP 0, 4), (FWD_TBLn_NOSPACE 0, 4)] s t ∧
      t.u = { s.u with freeCount := t.u.freeCount, bt := t.u.bt, evt := t.u.evt, env := t.u.env, fwd := t.u.fwd, sch := t.u.sch, eth := t.u.eth, pair := t.u.pair }) ∧
  (∀ (s : State) (lseq beat : BitVec 32) (count : BitVec 32) (crcOk : Bool), Completes (.sealReceived lseq beat count crcOk) s fun t =>
      KeepsRegs [(ENV_ABORTS, 1), (ENV_DROP, 1), (ENV_FC_STATE, 1), (ENV_FRAMING, 1), (ENV_PARITY, 1), (ENV_POOL, 1), (ETH_STATUS, 1), (FWD_MOVES, 1), (FWD_STATUS, 1), (FWD_TBLn_COUNT 0, 4), (FWD_TBLn_EVICT 0, 4), (FWD_TBLn_HIT 0, 4), (FWD_TBLn_LEARN 0, 4), (FWD_TBLn_LOOKUP 0, 4), (FWD_TBLn_NOSPACE 0, 4), (MAC_BEACONS, 1), (MAC_POLL_MISSED, 1), (MAC_RETRY_EXH, 1), (RFx_DUTYr_USED .s 0, 16), (RFx_DUTYr_USED .w 0, 16), (RFx_STATUS .s, 1), (RFx_STATUS .w, 1), (SEC_EPOCH, 1), (SEC_ROLLS, 1), (SEC_STATUS, 1), (TK_STATUS, 1)] s t ∧
      t.u = { s.u with freeCount := t.u.freeCount, bt := t.u.bt, boot := t.u.boot, hif := t.u.hif, evt := t.u.evt, env := t.u.env, fwd := t.u.fwd, sch := t.u.sch, eth := t.u.eth, rf := t.u.rf, rx := t.u.rx, mac := t.u.mac, sec := t.u.sec, pair := t.u.pair, img := t.u.img }) ∧
  (∀ (s : State) (lseq : BitVec 32) (item : BulkItem), Completes (.bulkReceived lseq item) s fun t =>
      KeepsRegs [(ENV_FC_STATE, 1), (ENV_POOL, 1), (ETH_STATUS, 1), (FWD_STATUS, 1), (FWD_TBLn_COUNT 0, 4), (MAC_STATUS, 1), (RFx_DUTYr_USED .s 0, 16), (RFx_DUTYr_USED .w 0, 16), (RFx_STATUS .s, 1), (RFx_STATUS .w, 1), (SEC_EPOCH, 1), (SEC_INVALID_KEY, 1), (SEC_ORPHANS, 1), (SEC_STATUS, 1), (SEC_TORN, 1), (SEC_TXCTR_BCAST, 1), (SEC_TXCTR_JOIN, 1), (SEC_UNWRAP_FAILS, 1)] s t ∧
      t.u = { s.u with bt := t.u.bt, boot := t.u.boot, hif := t.u.hif, evt := t.u.evt, env := t.u.env, fwd := t.u.fwd, sch := t.u.sch, eth := t.u.eth, rf := t.u.rf, rx := t.u.rx, mac := t.u.mac, sec := t.u.sec, pair := t.u.pair }) ∧
  (∀ (s : State) (chain : Chain) (pass : Bool), Completes (.radioLoopback chain pass) s fun t =>
      KeepsRegs [(ENV_FC_STATE, 1), (ENV_POOL, 1), (ETH_STATUS, 1), (MAC_ACK_DROP, 1), (PAIR_BIST_RUNS, 1), (PAIR_SELFTEST_FAIL, 1), (RFx_STATUS .s, 1), (RFx_STATUS .w, 1), (RFx_TXn_STAT .s 0, 2), (RFx_TXn_STAT .w 0, 2)] s t ∧
      t.u = { s.u with bt := t.u.bt, evt := t.u.evt, env := t.u.env, sch := t.u.sch, eth := t.u.eth, rf := t.u.rf, mac := t.u.mac, pair := t.u.pair }) ∧
  (∀ (s : State) (pass : Bool), Completes (.voterCheck pass) s fun t =>
      KeepsRegs [(BT_PEn_STAT 0, 16), (BT_STATUS, 1), (ENV_ABORTS, 1), (ENV_DROP, 1), (ENV_FC_STATE, 1), (ENV_FRAMING, 1), (ENV_PARITY, 1), (ENV_POOL, 1), (ETH_BR_MOVES, 1), (ETH_BR_NOSPACE, 1), (ETH_BR_STAT, 1), (ETH_Pp_BR_FILTER 0, 2), (ETH_Pp_LINK_DOWN 0, 2), (ETH_Pp_PT_DROP 0, 2), (ETH_STATUS, 1), (GEN_MODE_CHANGES, 1), (GEN_MODE, 1), (HIF_STATUS, 1), (MAC_ACK_DROP, 1), (PAIR_BIST_RUNS, 1), (PAIR_SELFTEST_FAIL, 1), (PAIR_STATUS, 1), (PWR_REQ_STAT, 1), (PWR_STATUS, 1), (RFx_STATUS .s, 1), (RFx_STATUS .w, 1), (RFx_TXn_STAT .s 0, 2), (RFx_TXn_STAT .w 0, 2), (RXD_CHn_ABORT 0, 80), (RXD_CHn_CAPTURED 0, 80), (RXD_CHn_DEC_FAIL 0, 80), (RXD_CHn_FALSE 0, 80), (RXD_CHn_FRAME_OK 0, 80), (RXD_CHn_STAT 0, 80), (RXD_STATUS, 1), (SCH_POLk_GREEN 0, 16), (SCH_POLk_RED 0, 16), (SCH_POLk_YDROP 0, 16), (SCH_POLk_YELLOW 0, 16), (SEC_STATUS, 1), (SEC_TAMPER_CNT, 1), (SEC_TAMPER_STAT, 1), (SEC_ZEROISE_CNT, 1)] s t ∧
      t.u = { s.u with bt := t.u.bt, tk := t.u.tk, pwr := t.u.pwr, boot := t.u.boot, evt := t.u.evt, accel := t.u.accel, env := t.u.env, sch := t.u.sch, eth := t.u.eth, rf := t.u.rf, rx := t.u.rx, mac := t.u.mac, sec := t.u.sec, pair := t.u.pair }) ∧
  (∀ (s : State) (iface : HostIface) (comp : BitVec 32), Completes (.forceHold iface comp) s fun t =>
      KeepsRegs ([(BT_PEn_STAT 0, 16), (BT_STATUS, 1), (ENV_ABORTS, 1), (ENV_DROP, 1), (ENV_FC_STATE, 1), (ENV_FRAMING, 1), (ENV_PARITY, 1), (ENV_POOL, 1), (ETH_BR_MOVES, 1), (ETH_BR_NOSPACE, 1), (ETH_BR_STAT, 1), (ETH_Pp_BR_FILTER 0, 2), (ETH_Pp_LINK_DOWN 0, 2), (ETH_Pp_PT_DROP 0, 2), (ETH_STATUS, 1), (GEN_MODE_CHANGES, 1), (GEN_MODE, 1), (HIF_GUARD_REJ, 1), (HIF_STATUS, 1), (MAC_ACK_DROP, 1), (PAIR_STATUS, 1), (PWR_REQ_STAT, 1), (PWR_STATUS, 1), (RFx_STATUS .s, 1), (RFx_STATUS .w, 1), (RFx_TXn_STAT .s 0, 2), (RFx_TXn_STAT .w 0, 2), (RXD_CHn_ABORT 0, 80), (RXD_CHn_CAPTURED 0, 80), (RXD_CHn_DEC_FAIL 0, 80), (RXD_CHn_FALSE 0, 80), (RXD_CHn_FRAME_OK 0, 80), (RXD_CHn_STAT 0, 80), (RXD_STATUS, 1), (SCH_POLk_GREEN 0, 16), (SCH_POLk_RED 0, 16), (SCH_POLk_YDROP 0, 16), (SCH_POLk_YELLOW 0, 16), (SEC_STATUS, 1), (SEC_TAMPER_CNT, 1), (SEC_TAMPER_STAT, 1), (SEC_ZEROISE_CNT, 1)] ++ guardRegs) s t ∧
      t.u = { s.u with bt := t.u.bt, tk := t.u.tk, pwr := t.u.pwr, boot := t.u.boot, hif := t.u.hif, evt := t.u.evt, accel := t.u.accel, env := t.u.env, sch := t.u.sch, eth := t.u.eth, rf := t.u.rf, rx := t.u.rx, mac := t.u.mac, sec := t.u.sec, pair := t.u.pair }) ∧
  (∀ (s : State) (iface : HostIface) (comp : BitVec 32), Completes (.forceDozeExit iface comp) s fun t =>
      KeepsRegs ([(BT_PEn_STAT 0, 16), (BT_STATUS, 1), (ENV_ABORTS, 1), (ENV_DROP, 1), (ENV_FC_STATE, 1), (ENV_FRAMING, 1), (ENV_PARITY, 1), (ENV_POOL, 1), (ETH_BR_MOVES, 1), (ETH_BR_NOSPACE, 1), (ETH_BR_STAT, 1), (ETH_Pp_BR_FILTER 0, 2), (ETH_Pp_LINK_DOWN 0, 2), (ETH_Pp_PT_DROP 0, 2), (ETH_STATUS, 1), (GEN_MODE_CHANGES, 1), (GEN_MODE, 1), (HIF_GUARD_REJ, 1), (HIF_STATUS, 1), (MAC_ACK_DROP, 1), (PAIR_STATUS, 1), (PWR_REQ_STAT, 1), (PWR_STATUS, 1), (RFx_STATUS .s, 1), (RFx_STATUS .w, 1), (RFx_TXn_STAT .s 0, 2), (RFx_TXn_STAT .w 0, 2), (RXD_CHn_ABORT 0, 80), (RXD_CHn_CAPTURED 0, 80), (RXD_CHn_DEC_FAIL 0, 80), (RXD_CHn_FALSE 0, 80), (RXD_CHn_FRAME_OK 0, 80), (RXD_CHn_STAT 0, 80), (RXD_STATUS, 1), (SCH_POLk_GREEN 0, 16), (SCH_POLk_RED 0, 16), (SCH_POLk_YDROP 0, 16), (SCH_POLk_YELLOW 0, 16), (SEC_STATUS, 1), (SEC_TAMPER_CNT, 1), (SEC_TAMPER_STAT, 1), (SEC_ZEROISE_CNT, 1)] ++ guardRegs) s t ∧
      t.u = { s.u with bt := t.u.bt, tk := t.u.tk, pwr := t.u.pwr, boot := t.u.boot, hif := t.u.hif, evt := t.u.evt, accel := t.u.accel, env := t.u.env, sch := t.u.sch, eth := t.u.eth, rf := t.u.rf, rx := t.u.rx, mac := t.u.mac, sec := t.u.sec, pair := t.u.pair }) ∧
  (∀ (s : State) (bad : List (BitVec 20)) (written : Bool), Completes (.migrationDone bad written) s fun t =>
      KeepsRegs ([(BOOT_BSR, 1), (BOOT_ERR_DETAIL, 1), (BOOT_ERR_OTHER, 1), (BOOT_STATUS, 1), (BT_PEn_STAT 0, 16), (BT_STATUS, 1), (ENV_ABORTS, 1), (ENV_DROP, 1), (ENV_FC_STATE, 1), (ENV_FRAMING, 1), (ENV_PARITY, 1), (ENV_POOL, 1), (ENV_QSTATS_BASE, 1), (ENV_REGr_BASE 0, 8), (ENV_REGr_SIZE 0, 8), (ETH_BR_MOVES, 1), (ETH_BR_NOSPACE, 1), (ETH_BR_STAT, 1), (ETH_Pp_BR_FILTER 0, 2), (ETH_Pp_LINK_DOWN 0, 2), (ETH_Pp_PT_DROP 0, 2), (ETH_STATUS, 1), (EVT_RINGr_BASE 0, 4), (FWD_DIR_BASE, 1), (GEN_MODE_CHANGES, 1), (GEN_MODE, 1), (HIF_CMD_BASE, 1), (HIF_CPL_BASE, 1), (HIF_JRN_BASE, 1), (HIF_STATUS, 1), (MAC_ACK_DROP, 1), (MAC_NBR, 1), (MAC_STATUS, 1), (PAIR_HEALTH_ADDR, 1), (PAIR_STATUS, 1), (PWR_STATUS, 1), (RFx_STATUS .s, 1), (RFx_STATUS .w, 1), (RFx_TXn_STAT .s 0, 2), (RFx_TXn_STAT .w 0, 2), (RXD_CHn_ABORT 0, 80), (RXD_CHn_CAPTURED 0, 80), (RXD_CHn_DEC_FAIL 0, 80), (RXD_CHn_FALSE 0, 80), (RXD_CHn_FRAME_OK 0, 80), (RXD_CHn_STAT 0, 80), (RXD_STATUS, 1), (SCH_POLk_GREEN 0, 16), (SCH_POLk_RED 0, 16), (SCH_POLk_YDROP 0, 16), (SCH_POLk_YELLOW 0, 16)] ++ accessRegs) s t ∧
      t.u = { s.u with bt := t.u.bt, tk := t.u.tk, pwr := t.u.pwr, boot := t.u.boot, hif := t.u.hif, evt := t.u.evt, accel := t.u.accel, env := t.u.env, sch := t.u.sch, eth := t.u.eth, rf := t.u.rf, rx := t.u.rx, mac := t.u.mac, pair := t.u.pair }) ∧
  (∀ (s : State) (written : Bool), Completes (.migrationTimeout written) s fun t =>
      KeepsRegs ([(BOOT_BSR, 1), (BOOT_ERR_DETAIL, 1), (BOOT_ERR_OTHER, 1), (BOOT_STATUS, 1), (BT_PEn_STAT 0, 16), (BT_STATUS, 1), (ENV_ABORTS, 1), (ENV_DROP, 1), (ENV_FC_STATE, 1), (ENV_FRAMING, 1), (ENV_PARITY, 1), (ENV_POOL, 1), (ENV_QSTATS_BASE, 1), (ENV_REGr_BASE 0, 8), (ENV_REGr_SIZE 0, 8), (ETH_BR_MOVES, 1), (ETH_BR_NOSPACE, 1), (ETH_BR_STAT, 1), (ETH_Pp_BR_FILTER 0, 2), (ETH_Pp_LINK_DOWN 0, 2), (ETH_Pp_PT_DROP 0, 2), (ETH_STATUS, 1), (EVT_RINGr_BASE 0, 4), (FWD_DIR_BASE, 1), (GEN_MODE_CHANGES, 1), (GEN_MODE, 1), (HIF_CMD_BASE, 1), (HIF_CPL_BASE, 1), (HIF_JRN_BASE, 1), (HIF_STATUS, 1), (MAC_ACK_DROP, 1), (PAIR_HEALTH_ADDR, 1), (PAIR_STATUS, 1), (PWR_STATUS, 1), (RFx_STATUS .s, 1), (RFx_STATUS .w, 1), (RFx_TXn_STAT .s 0, 2), (RFx_TXn_STAT .w 0, 2), (RXD_CHn_ABORT 0, 80), (RXD_CHn_CAPTURED 0, 80), (RXD_CHn_DEC_FAIL 0, 80), (RXD_CHn_FALSE 0, 80), (RXD_CHn_FRAME_OK 0, 80), (RXD_CHn_STAT 0, 80), (RXD_STATUS, 1), (SCH_POLk_GREEN 0, 16), (SCH_POLk_RED 0, 16), (SCH_POLk_YDROP 0, 16), (SCH_POLk_YELLOW 0, 16)] ++ accessRegs) s t ∧
      t.u = { s.u with bt := t.u.bt, tk := t.u.tk, pwr := t.u.pwr, boot := t.u.boot, hif := t.u.hif, evt := t.u.evt, accel := t.u.accel, env := t.u.env, sch := t.u.sch, eth := t.u.eth, rf := t.u.rf, rx := t.u.rx, mac := t.u.mac, pair := t.u.pair }) ∧
  (∀ (s : State) (index : Fin 4096) (offset bytes crc : BitVec 32), Completes (.updateBlock index offset bytes crc) s fun t =>
      KeepsRegs [(BOOT_UPD_BLOCKS, 1), (BOOT_UPD_REPEATS, 1), (BOOT_UPD_STAT, 1), (HIF_CMD_LATE, 1), (HIF_CPL_PROD, 1), (HIF_STATUS, 1)] s t ∧
      t.u = { s.u with bt := t.u.bt, boot := t.u.boot, hif := t.u.hif, evt := t.u.evt, pair := t.u.pair }) ∧
  (∀ (s : State) (index : Fin 4096) (slot nodeClass : BitVec 8) (blockSize : BitVec 16) (length version : BitVec 32) (sha : BitVec 256), Completes (.imageOpen index slot nodeClass blockSize length version sha) s fun t =>
      KeepsRegs [(HIF_CMD_LATE, 1), (HIF_CPL_PROD, 1), (HIF_STATUS, 1)] s t ∧
      t.u = { s.u with bt := t.u.bt, hif := t.u.hif, evt := t.u.evt, pair := t.u.pair, img := t.u.img }) ∧
  (∀ (s : State) (index : Fin 4096) (slot : BitVec 8) (offset bytes crc : BitVec 32), Completes (.imagePut index slot offset bytes crc) s fun t =>
      KeepsRegs [(HIF_CMD_LATE, 1), (HIF_CPL_PROD, 1), (HIF_STATUS, 1)] s t ∧
      t.u = { s.u with bt := t.u.bt, hif := t.u.hif, evt := t.u.evt, pair := t.u.pair, img := t.u.img }) ∧
  (∀ (s : State) (index : Fin 4096) (slot : BitVec 8), Completes (.imageClose index slot) s fun t =>
      KeepsRegs [(HIF_CMD_LATE, 1), (HIF_CPL_PROD, 1), (HIF_STATUS, 1)] s t ∧
      t.u = { s.u with bt := t.u.bt, hif := t.u.hif, evt := t.u.evt, pair := t.u.pair }) ∧
  (∀ (s : State) (index : Fin 4096) (slot : BitVec 8), Completes (.imageDelete index slot) s fun t =>
      KeepsRegs [(HIF_CMD_LATE, 1), (HIF_CPL_PROD, 1), (HIF_STATUS, 1)] s t ∧
      t.u = { s.u with bt := t.u.bt, hif := t.u.hif, evt := t.u.evt, pair := t.u.pair, img := t.u.img }) ∧
  (∀ (s : State) (index : Fin 4096) (slot : BitVec 8) (flags : BitVec 3) (p : CampParams), Completes (.campaignCreate index slot flags p) s fun t =>
      KeepsRegs [(HIF_CMD_LATE, 1), (HIF_CPL_PROD, 1), (HIF_STATUS, 1)] s t ∧
      t.u = { s.u with bt := t.u.bt, hif := t.u.hif, evt := t.u.evt, pair := t.u.pair, img := t.u.img }) ∧
  (∀ (s : State) (index : Fin 4096) (number : BitVec 16), Completes (.campaignStart index number) s fun t =>
      KeepsRegs [(HIF_CMD_LATE, 1), (HIF_CPL_PROD, 1), (HIF_STATUS, 1)] s t ∧
      t.u = { s.u with bt := t.u.bt, hif := t.u.hif, evt := t.u.evt, pair := t.u.pair, img := t.u.img }) ∧
  (∀ (s : State) (index : Fin 4096) (number : BitVec 16), Completes (.campaignPause index number) s fun t =>
      KeepsRegs [(HIF_CMD_LATE, 1), (HIF_CPL_PROD, 1), (HIF_STATUS, 1)] s t ∧
      t.u = { s.u with bt := t.u.bt, hif := t.u.hif, evt := t.u.evt, pair := t.u.pair, img := t.u.img }) ∧
  (∀ (s : State) (index : Fin 4096) (number : BitVec 16), Completes (.campaignResume index number) s fun t =>
      KeepsRegs [(HIF_CMD_LATE, 1), (HIF_CPL_PROD, 1), (HIF_STATUS, 1)] s t ∧
      t.u = { s.u with bt := t.u.bt, hif := t.u.hif, evt := t.u.evt, pair := t.u.pair }) ∧
  (∀ (s : State) (index : Fin 4096) (number : BitVec 16), Completes (.campaignCancel index number) s fun t =>
      KeepsRegs [(HIF_CMD_LATE, 1), (HIF_CPL_PROD, 1), (HIF_STATUS, 1)] s t ∧
      t.u = { s.u with bt := t.u.bt, hif := t.u.hif, evt := t.u.evt, pair := t.u.pair, img := t.u.img }) ∧
  (∀ (s : State) (index : Fin 4096) (number : BitVec 16), Completes (.campaignClear index number) s fun t =>
      KeepsRegs [(HIF_CMD_LATE, 1), (HIF_CPL_PROD, 1), (HIF_STATUS, 1)] s t ∧
      t.u = { s.u with bt := t.u.bt, hif := t.u.hif, evt := t.u.evt, pair := t.u.pair }) ∧
  (∀ (s : State), Completes .campaignReport s fun t =>
      KeepsRegs [] s t ∧
      t.u = { s.u with bt := t.u.bt, evt := t.u.evt, pair := t.u.pair, img := t.u.img }) ∧
  (∀ (s : State) (record : Fin 16), Completes (.repairPass record) s fun t =>
      KeepsRegs [] s t ∧
      t.u = { s.u with bt := t.u.bt, evt := t.u.evt, pair := t.u.pair, img := t.u.img }) ∧
  (∀ (s : State) (record : Fin 16), Completes (.campaignDeadline record) s fun t =>
      KeepsRegs [] s t ∧
      t.u = { s.u with bt := t.u.bt, evt := t.u.evt, pair := t.u.pair, img := t.u.img }) ∧
  (∀ (s : State) (record : Fin 16), Completes (.campaignProgressExpiry record) s fun t =>
      KeepsRegs [] s t ∧
      t.u = { s.u with bt := t.u.bt, evt := t.u.evt, pair := t.u.pair, img := t.u.img }) ∧
  (∀ (s : State) (index : Fin 4096) (pick : Pick), Completes (.nodeCmd index pick) s fun t =>
      KeepsRegs [(ENV_ABORTS, 1), (ENV_DROP, 1), (ENV_FC_STATE, 1), (ENV_FRAMING, 1), (ENV_PARITY, 1), (ENV_POOL, 1), (ETH_STATUS, 1), (FWD_RW_FAIL, 1), (FWD_RW_OK, 1), (HIF_CMD_LATE, 1), (HIF_CPL_PROD, 1), (HIF_STATUS, 1), (MAC_PEND_FULL, 1), (SEC_CACHE_HIT, 1), (SEC_CACHE_MISS, 1), (SEC_CCM_OPS, 1), (SEC_DERIVE, 1), (SEC_INVALID_KEY, 1), (SEC_ORPHANS, 1), (SEC_STATUS, 1), (SEC_TORN, 1), (SEC_TXCTR_BCAST, 1), (SEC_TXCTR_JOIN, 1)] s t ∧
      t.u = { s.u with bt := t.u.bt, hif := t.u.hif, evt := t.u.evt, env := t.u.env, fwd := t.u.fwd, sch := t.u.sch, eth := t.u.eth, rx := t.u.rx, mac := t.u.mac, sec := t.u.sec, pair := t.u.pair }) ∧
  (∀ (s : State) (index : Fin 4096), Completes (.nodeForget index) s fun t =>
      KeepsRegs [(FWD_STATUS, 1), (FWD_TBLn_COUNT 0, 4), (HIF_CMD_LATE, 1), (HIF_CPL_PROD, 1), (HIF_STATUS, 1), (MAC_NBR, 1), (MAC_STATUS, 1)] s t ∧
      t.u = { s.u with bt := t.u.bt, hif := t.u.hif, evt := t.u.evt, fwd := t.u.fwd, sch := t.u.sch, mac := t.u.mac, pair := t.u.pair }) ∧
  (∀ (s : State) (index : Fin 4096) (failed : List TestFail), Completes (.selftestRun index failed) s fun t =>
      KeepsRegs [(BT_ENG_STATE, 1), (BT_LATE_TOTAL, 1), (BT_PEn_LATE 0, 16), (BT_PEn_STAT 0, 16), (BT_STATUS, 1), (ENV_ABORTS, 1), (ENV_DROP, 1), (ENV_FC_STATE, 1), (ENV_FRAMING, 1), (ENV_PARITY, 1), (ENV_POOL, 1), (ETH_BR_MOVES, 1), (ETH_BR_NOSPACE, 1), (ETH_BR_STAT, 1), (ETH_Pp_BR_FILTER 0, 2), (ETH_Pp_LINK_DOWN 0, 2), (ETH_Pp_PT_DROP 0, 2), (ETH_STATUS, 1), (GEN_MODE_CHANGES, 1), (GEN_MODE, 1), (HIF_CMD_LATE, 1), (HIF_CPL_PROD, 1), (HIF_STATUS, 1), (MAC_ACK_DROP, 1), (PAIR_BIST_RUNS, 1), (PAIR_SELFTEST_FAIL, 1), (PAIR_STATUS, 1), (PWR_REQ_STAT, 1), (PWR_STATUS, 1), (RFx_STATUS .s, 1), (RFx_STATUS .w, 1), (RFx_TXn_STAT .s 0, 2), (RFx_TXn_STAT .w 0, 2), (RXD_CHn_ABORT 0, 80), (RXD_CHn_CAPTURED 0, 80), (RXD_CHn_DEC_FAIL 0, 80), (RXD_CHn_FALSE 0, 80), (RXD_CHn_FRAME_OK 0, 80), (RXD_CHn_STAT 0, 80), (RXD_STATUS, 1), (SCH_POLk_GREEN 0, 16), (SCH_POLk_RED 0, 16), (SCH_POLk_YDROP 0, 16), (SCH_POLk_YELLOW 0, 16), (SEC_STATUS, 1), (SEC_TAMPER_CNT, 1), (SEC_TAMPER_STAT, 1), (SEC_ZEROISE_CNT, 1)] s t ∧
      t.u = { s.u with bt := t.u.bt, tk := t.u.tk, pwr := t.u.pwr, boot := t.u.boot, hif := t.u.hif, evt := t.u.evt, accel := t.u.accel, env := t.u.env, sch := t.u.sch, eth := t.u.eth, rf := t.u.rf, rx := t.u.rx, mac := t.u.mac, sec := t.u.sec, pair := t.u.pair })

/-- A step runs the command at the front of the queue. With command c at the front of the queue and cs behind it,
one step is exec of c on the state whose queue is cs. -/
def Obligations.StepRunsTheFrontCommand : Prop :=
  ∀ (s : State) (c : Instr) (cs : List Instr), s.pending = c :: cs →
    step s = exec c { s with pending := cs }

/-- A step on an empty queue idles. A step of a state whose queue is empty leaves it as it is (the model’s choice,
log 2). -/
def Obligations.EmptyQueueIdles : Prop :=
  ∀ (s : State), s.pending = [] → step s = .next s

/-- Every well-formed command answers a next state, in every state. exec of a well-formed command answers a next
state whatever the state is, and its queue is untouched; exec of one that is not well-formed is refused by name.
No command faults. -/
def Obligations.EveryCommandAnswers : Prop :=
  ∀ (c : Instr) (s : State),
    (c.wf = true → Completes c s fun t => t.pending = s.pending) ∧
    (c.wf = false → exec c s = .refused .illFormed)

/-- The reset state has the form every step keeps. Memory and registers are in canonical form at reset. -/
def Obligations.ResetHasTheForm : Prop :=
  State.reset.Inv

/-- Every step keeps memory and registers in canonical form. From every state whose memory and registers are in
canonical form, a step that answers a next state gives one whose memory and registers are. -/
def Obligations.StepsKeepTheForm : Prop :=
  ∀ (s t : State), s.Inv → step s = .next t → t.Inv

/-- The machine at reset. At reset the mode is COLD and nothing runs, the counters read 0, SEC_TAMPER_CFG,
SEC_TAMPER_DEB and the nominal time increment hold their reset values, and no command waits; the values of
memory and of the registers the spec gives no reset value are the model’s choice (logs 1 and 3). -/
def Obligations.ResetState : Prop :=
  State.reset.mode = .cold ∧ State.reset.bit BT_STATUS_RUNNING = false ∧ State.reset.reg GEN_MODE_CHANGES = 0 ∧
    State.reset.reg SEC_TAMPER_CFG = 0x26F ∧ State.reset.reg SEC_TAMPER_DEB = 0x32 ∧ State.reset.reg TK_INCR_INT = 4 ∧
    State.reset.mem = [] ∧ State.reset.pending = []

/-- GEN_CAPS reads its counts and ignores writes. In every state GEN_CAPS reads 16 engines, 80 receive channels, 4
transmit chains, 4 pipelines and 4 GiB, its reserved bits 0, and a write to it over PCIe or SPI leaves it so. -/
def Obligations.IdentityRegisters : Prop :=
  (∀ s : State, s.fld GEN_CAPS_ENGINES = 0x10 ∧ s.fld GEN_CAPS_RX_CHANNELS = 0x50 ∧ s.fld GEN_CAPS_TX_CHAINS = 4 ∧
    s.fld GEN_CAPS_PIPELINES = 4 ∧ s.fld GEN_CAPS_ENVELOPE_GIB = 4 ∧ fieldOf (s.reg GEN_CAPS) 28 4 = 0) ∧
  (∀ (s : State) (v : BitVec 32) (m : Moment),
    Completes (.registerWrite (BitVec.ofNat 24 GEN_CAPS) [(v, 15)] m) s fun t => t = s) ∧
  ∀ (s : State) (v : BitVec 32) (m : Moment),
    Completes (.spiWrite (BitVec.ofNat 32 GEN_CAPS) (leBytes 4 v.toNat) m) s fun t => t.reg GEN_CAPS = s.reg GEN_CAPS

/-- A write of any value to BT_BEAT_REQ takes the snapshot. Where the access reaches the block and the map permits
it, a write of any value to BT_BEAT_REQ, as the command of its own and as a register write over PCIe or SPI,
posts the number of the current beat and the sample index stamped at its start, and sets VALID. -/
def Obligations.BeatSnapshot : Prop :=
  (∀ (s : State) (iface : HostIface), s.reaches iface = true → s.permits BT_BEAT_REQ = true →
    Completes (.beatSnapshotReq iface) s fun t => t.reg BT_BEAT_LO = BitVec.ofNat 32 s.u.bt.beat ∧ t.reg BT_BEAT_HI = BitVec.ofNat 32 (s.u.bt.beat / 2 ^ 32 % 2 ^ 26) ∧
      t.reg BT_SAMPLE_LO = BitVec.ofNat 32 s.u.bt.sample ∧ t.reg BT_SAMPLE_HI = BitVec.ofNat 32 (s.u.bt.sample / 2 ^ 32) ∧
      t.bit BT_BEAT_REQ_VALID = true) ∧
  (∀ (s : State) (v : BitVec 32) (m : Moment), s.reaches .pcie = true → s.permits BT_BEAT_REQ = true →
    Completes (.registerWrite (BitVec.ofNat 24 BT_BEAT_REQ) [(v, 15)] m) s fun t => t.reg BT_BEAT_LO = BitVec.ofNat 32 s.u.bt.beat ∧ t.reg BT_BEAT_HI = BitVec.ofNat 32 (s.u.bt.beat / 2 ^ 32 % 2 ^ 26) ∧
      t.reg BT_SAMPLE_LO = BitVec.ofNat 32 s.u.bt.sample ∧ t.reg BT_SAMPLE_HI = BitVec.ofNat 32 (s.u.bt.sample / 2 ^ 32) ∧
      t.bit BT_BEAT_REQ_VALID = true) ∧
  ∀ (s : State) (v : BitVec 32) (m : Moment), s.reaches .spi = true → s.permits BT_BEAT_REQ = true →
    Completes (.spiWrite (BitVec.ofNat 32 BT_BEAT_REQ) (leBytes 4 v.toNat) m) s fun t => t.reg BT_BEAT_LO = BitVec.ofNat 32 s.u.bt.beat ∧ t.reg BT_BEAT_HI = BitVec.ofNat 32 (s.u.bt.beat / 2 ^ 32 % 2 ^ 26) ∧
      t.reg BT_SAMPLE_LO = BitVec.ofNat 32 s.u.bt.sample ∧ t.reg BT_SAMPLE_HI = BitVec.ofNat 32 (s.u.bt.sample / 2 ^ 32) ∧
      t.bit BT_BEAT_REQ_VALID = true

/-- BT_ENG_STATE holds two bits for each engine and ignores writes. Engine n’s state stands in bits [2n + 1:2n], 0
off, 1 serving, 2 in BIST and 3 faulted; it reads 0 for every engine at reset, and a write over PCIe or SPI
leaves it as it is. -/
def Obligations.EngineStateRegister : Prop :=
  (∀ n : Fin 16, BT_ENG_STATE_n n = ⟨BT_ENG_STATE, 2 * n.val, 2⟩ ∧ State.reset.fld (BT_ENG_STATE_n n) = engOff) ∧
  (engOff = 0 ∧ engServing = 1 ∧ engBist = 2 ∧ engFaulted = 3) ∧
  (∀ (s : State) (v : BitVec 32) (m : Moment),
    Completes (.registerWrite (BitVec.ofNat 24 BT_ENG_STATE) [(v, 15)] m) s fun t => t = s) ∧
  ∀ (s : State) (v : BitVec 32) (m : Moment),
    Completes (.spiWrite (BitVec.ofNat 32 BT_ENG_STATE) (leBytes 4 v.toNat) m) s fun t =>
      t.reg BT_ENG_STATE = s.reg BT_ENG_STATE

/-- An ACK that matches no waiting frame is ignored and counted. A frame of the pipeline at the ACK stage that
matches none of the frames awaiting an ACK leaves the pipeline and counts in MAC_ACK_STRAY; no other register,
no byte of memory, no frame that waits and no other unit changes. -/
def Obligations.StrayAcks : Prop :=
  ∀ (s : State) (index : Fin 256) (f : MacFrame), s.macFrame index = some f → f.stage = .ack →
    s.u.mac.waits.find? (s.ackMatches f) = none →
    Completes (.ackReceived index) s fun t => t.reg MAC_ACK_STRAY = s.reg MAC_ACK_STRAY + 1 ∧
      (∀ a, a ≠ MAC_ACK_STRAY → t.reg a = s.reg a) ∧ t.mem = s.mem ∧
      t.u = { s.u with mac := { s.u.mac with frames := s.u.mac.frames.filter fun g => !(g.id == f.id) } }
end

