-- ==== Sys2Proof/Laws/Store.lean ====
section
/-!
SUPPORT. Laws/Store.lean: read after write for the sparse store, and that every operation keeps the canonical form.
-/

namespace Sys2Proof.Store

variable {α : Type}

@[simp] theorem get?_nil (a : Nat) : get? ([] : Store α) a = none := rfl

@[simp] theorem get?_cons (k : Nat) (v : α) (m : Store α) (a : Nat) :
    get? ((k, v) :: m) a = if k = a then some v else get? m a := rfl

theorem get?_put (m : Store α) (a : Nat) (x : α) (b : Nat) :
    get? (put m a x) b = if a = b then some x else get? m b := by
  induction m with
  | nil => rfl
  | cons e m ih =>
    obtain ⟨k, v⟩ := e
    simp only [put]
    split
    · subst k; simp only [get?_cons]; split <;> rfl
    · split
      · rfl
      · simp only [get?_cons, ih]
        split
        · subst b; rw [if_neg (by omega)]
        · rfl

theorem get?_del (m : Store α) (a b : Nat) :
    get? (del m a) b = if a = b then none else get? m b := by
  induction m with
  | nil => simp [del]
  | cons e m ih =>
    obtain ⟨k, v⟩ := e
    simp only [del]
    split
    · subst k; simp only [ih, get?_cons]; split <;> rfl
    · simp only [get?_cons, ih]
      split
      · subst b; rw [if_neg (by omega)]
      · rfl

theorem getD_setD [DecidableEq α] (m : Store α) (a : Nat) (d x : α) (b : Nat) :
    getD (setD m a d x) b d = if a = b then x else getD m b d := by
  unfold getD setD
  by_cases hx : x = d
  · subst hx
    simp only [if_true, get?_del]
    split <;> simp_all
  · simp only [hx, if_false, get?_put]
    split <;> simp_all

theorem mem_put {m : Store α} {a : Nat} {x : α} {e : Nat × α} (h : e ∈ put m a x) :
    e = (a, x) ∨ e ∈ m := by
  induction m with
  | nil => exact .inl (by simpa [put] using h)
  | cons f m ih =>
    obtain ⟨k, v⟩ := f
    simp only [put] at h
    split at h
    · rcases List.mem_cons.1 h with h | h
      · exact .inl h
      · exact .inr (List.mem_cons_of_mem _ h)
    · split at h
      · rcases List.mem_cons.1 h with h | h
        · exact .inl h
        · exact .inr h
      · rcases List.mem_cons.1 h with h | h
        · exact .inr (h ▸ List.mem_cons_self)
        · exact (ih h).imp id (List.mem_cons_of_mem _)

theorem mem_del {m : Store α} {a : Nat} {e : Nat × α} (h : e ∈ del m a) : e ∈ m := by
  induction m with
  | nil => simp [del] at h
  | cons f m ih =>
    obtain ⟨k, v⟩ := f
    simp only [del] at h
    split at h
    · exact List.mem_cons_of_mem _ (ih h)
    · rcases List.mem_cons.1 h with h | h
      · exact h ▸ List.mem_cons_self
      · exact List.mem_cons_of_mem _ (ih h)

theorem rising_cons {k : Nat} {v : α} {m : Store α} :
    Rising ((k, v) :: m) ↔ (∀ e ∈ m, k < e.1) ∧ Rising m := by
  simp [Rising]

theorem rising_put {m : Store α} (h : Rising m) (a : Nat) (x : α) : Rising (put m a x) := by
  induction m with
  | nil => simp [put, Rising]
  | cons f m ih =>
    obtain ⟨k, v⟩ := f
    have hc := rising_cons.1 h
    simp only [put]
    split
    · subst k; exact rising_cons.2 hc
    · split
      · rename_i hl
        refine rising_cons.2 ⟨fun e he => ?_, h⟩
        rcases List.mem_cons.1 he with he | he
        · exact he ▸ hl
        · exact hl.trans (hc.1 e he)
      · refine rising_cons.2 ⟨fun e he => ?_, ih hc.2⟩
        rcases mem_put he with he | he
        · subst he; simp only; omega
        · exact hc.1 e he

theorem rising_del {m : Store α} (h : Rising m) (a : Nat) : Rising (del m a) := by
  induction m with
  | nil => simp [del, Rising]
  | cons f m ih =>
    obtain ⟨k, v⟩ := f
    have hc := rising_cons.1 h
    simp only [del]
    split
    · exact ih hc.2
    · exact rising_cons.2 ⟨fun e he => hc.1 e (mem_del he), ih hc.2⟩

theorem canonical_setD [DecidableEq α] {m : Store α} {d : α} (h : Canonical d m) (a : Nat) (x : α) :
    Canonical d (setD m a d x) := by
  unfold setD
  split
  · exact ⟨rising_del h.1 a, fun e he => h.2 e (mem_del he)⟩
  · rename_i hx
    refine ⟨rising_put h.1 a x, fun e he => ?_⟩
    rcases mem_put he with he | he
    · subst he; exact hx
    · exact h.2 e he

theorem canonical_filter [DecidableEq α] {m : Store α} {d : α} (h : Canonical d m) (p : Nat × α → Bool) :
    Canonical d (m.filter p) :=
  ⟨h.1.sublist ((List.filter_sublist (p := p)).map Prod.fst), fun e he => h.2 e (List.mem_of_mem_filter he)⟩

end Sys2Proof.Store
end

