-- ==== Sys2Proof/Laws/State.lean ====
section
/-!
SUPPORT. Laws/State.lean: what each update of the state leaves of each field, and reading back what was written.
-/

namespace Sys2Proof.Machine

open Sys2Proof Sys2Proof.Reg

/-! ### One lemma per field per update -/

@[simp] theorem State.setReg_mem (s : State) (a : Nat) (w : Word) : (s.setReg a w).mem = s.mem := by
  unfold State.setReg; split <;> rfl
@[simp] theorem State.setReg_u (s : State) (a : Nat) (w : Word) : (s.setReg a w).u = s.u := by
  unfold State.setReg; split <;> rfl
@[simp] theorem State.setReg_pending (s : State) (a : Nat) (w : Word) : (s.setReg a w).pending = s.pending := by
  unfold State.setReg; split <;> rfl
@[simp] theorem State.setByte_regs (s : State) (a : Nat) (b : Byte) : (s.setByte a b).regs = s.regs := rfl
@[simp] theorem State.setByte_u (s : State) (a : Nat) (b : Byte) : (s.setByte a b).u = s.u := rfl
@[simp] theorem State.setByte_pending (s : State) (a : Nat) (b : Byte) : (s.setByte a b).pending = s.pending := rfl
@[simp] theorem State.setByte_reg (s : State) (a : Nat) (b : Byte) (x : Nat) : (s.setByte a b).reg x = s.reg x := rfl
@[simp] theorem State.setReg_byte (s : State) (a : Nat) (w : Word) (x : Nat) : (s.setReg a w).byte x = s.byte x := by
  simp [State.byte]

/-! ### Read after write -/

theorem State.reg_setReg (s : State) (a : Nat) (w : Word) (b : Nat) :
    (s.setReg a w).reg b = if a = b ∧ fixedReg a = none then w else s.reg b := by
  unfold State.setReg
  cases hf : fixedReg a with
  | some v => simp
  | none =>
    simp only [State.reg, Store.getD_setD, and_true]
    by_cases hab : a = b
    · subst hab; simp [hf]
    · simp [hab]

theorem State.reg_setReg_same (s : State) (a : Nat) (w : Word) (h : fixedReg a = none) :
    (s.setReg a w).reg a = w := by simp [State.reg_setReg, h]

theorem State.reg_setReg_ne (s : State) {a b : Nat} (w : Word) (h : a ≠ b) :
    (s.setReg a w).reg b = s.reg b := by simp [State.reg_setReg, h]

theorem State.byte_setByte (s : State) (a : Nat) (b : Byte) (x : Nat) :
    (s.setByte a b).byte x = if a % 2 ^ 32 = x % 2 ^ 32 then b else s.byte x := by
  simp only [State.byte, State.setByte, Store.getD_setD]

/-! ### Running a program -/

namespace Act

@[simp] theorem run_nop (s : State) : Act.nop.run s = s := rfl
@[simp] theorem run_seq (a b : Act) (s : State) : (Act.seq a b).run s = b.run (a.run s) := rfl
@[simp] theorem run_read (k : State → Act) (s : State) : (Act.read k).run s = (k s).run s := rfl
@[simp] theorem run_reg (a : Nat) (w : Word) (s : State) : (Act.reg a w).run s = s.setReg a w := rfl
@[simp] theorem run_mem (a : Nat) (b : Byte) (s : State) : (Act.mem a b).run s = s.setByte a b := rfl
@[simp] theorem run_units (f : Units → Units) (s : State) : (Act.units f).run s = { s with u := f s.u } := rfl
@[simp] theorem run_all_nil (s : State) : (Act.all []).run s = s := rfl
@[simp] theorem run_all_cons (a : Act) (as : List Act) (s : State) :
    (Act.all (a :: as)).run s = (Act.all as).run (a.run s) := rfl
@[simp] theorem run_when (c : Bool) (a : Act) (s : State) : (Act.when c a).run s = if c then a.run s else s := by
  cases c <;> rfl

/-- No program touches the queue of waiting commands. -/
@[simp] theorem run_pending (a : Act) (s : State) : (a.run s).pending = s.pending := by
  induction a generalizing s with
  | nop => rfl
  | seq a b iha ihb => simp [iha, ihb]
  | read k ih => simp [ih]
  | reg a w => simp
  | clear keep => rfl
  | mem a b => rfl
  | zero base len => rfl
  | units f => rfl

end Act

@[simp] theorem State.act_eq (s : State) (a : Act) : s.act a = .next (a.run s) := rfl

end Sys2Proof.Machine
end

