-- ==== Sys2Proof/Laws/Fields.lean ====
section
/-!
SUPPORT. Laws/Fields.lean: reading a field after a field, a counter or bytes are stored.
-/

namespace Sys2Proof.Machine

open Sys2Proof Sys2Proof.Reg

@[simp] theorem leBytes_length (n v : Nat) : (leBytes n v).length = n := by
  induction n generalizing v with
  | zero => rfl
  | succ n ih => simp [leBytes, ih]

/-! ### Fields of a dword -/

theorem fieldOf_lt (w : Word) (lo width : Nat) : fieldOf w lo width < 2 ^ width := Nat.mod_lt _ (Nat.two_pow_pos _)

theorem insertField_toNat (w : Word) (lo width v : Nat) (h : lo + width ≤ 32) : (insertField w lo width v).toNat =
    w.toNat % 2 ^ lo + v % 2 ^ width * 2 ^ lo + w.toNat / 2 ^ (lo + width) * 2 ^ (lo + width) := by
  have hw : w.toNat < 2 ^ 32 := w.isLt
  have h1 : w.toNat % 2 ^ lo < 2 ^ lo := Nat.mod_lt _ (Nat.two_pow_pos _)
  have h2 : v % 2 ^ width < 2 ^ width := Nat.mod_lt _ (Nat.two_pow_pos _)
  have h3 : w.toNat / 2 ^ (lo + width) < 2 ^ (32 - (lo + width)) := by
    rw [Nat.div_lt_iff_lt_mul (Nat.two_pow_pos _), ← Nat.pow_add]; simpa [Nat.sub_add_cancel h] using hw
  have h4 : w.toNat % 2 ^ lo + v % 2 ^ width * 2 ^ lo < 2 ^ (lo + width) := by
    rw [Nat.pow_add]
    calc _ < 2 ^ lo + v % 2 ^ width * 2 ^ lo := by omega
      _ = (v % 2 ^ width + 1) * 2 ^ lo := by rw [Nat.add_mul, Nat.one_mul, Nat.add_comm]
      _ ≤ 2 ^ width * 2 ^ lo := Nat.mul_le_mul_right _ h2
      _ = 2 ^ lo * 2 ^ width := Nat.mul_comm ..
  unfold insertField
  rw [BitVec.toNat_ofNat, Nat.mod_eq_of_lt]
  calc _ < 2 ^ (lo + width) + w.toNat / 2 ^ (lo + width) * 2 ^ (lo + width) := by omega
    _ = (w.toNat / 2 ^ (lo + width) + 1) * 2 ^ (lo + width) := by rw [Nat.add_mul, Nat.one_mul, Nat.add_comm]
    _ ≤ 2 ^ (32 - (lo + width)) * 2 ^ (lo + width) := Nat.mul_le_mul_right _ h3
    _ = 2 ^ 32 := by rw [← Nat.pow_add, Nat.sub_add_cancel h]

/-- A field reads what was stored in it, cut to its width. -/
theorem fieldOf_insertField_same (w : Word) (lo width v : Nat) (h : lo + width ≤ 32) :
    fieldOf (insertField w lo width v) lo width = v % 2 ^ width := by
  unfold fieldOf
  rw [insertField_toNat w lo width v h, Nat.pow_add]
  have h1 : w.toNat % 2 ^ lo < 2 ^ lo := Nat.mod_lt _ (Nat.two_pow_pos _)
  have : w.toNat % 2 ^ lo + v % 2 ^ width * 2 ^ lo + w.toNat / (2 ^ lo * 2 ^ width) * (2 ^ lo * 2 ^ width) =
      w.toNat % 2 ^ lo + 2 ^ lo * (v % 2 ^ width + 2 ^ width * (w.toNat / (2 ^ lo * 2 ^ width))) := by ring
  rw [this, Nat.add_mul_div_left _ _ (Nat.two_pow_pos _), Nat.div_eq_of_lt h1, Nat.zero_add, Nat.add_mul_mod_self_left,
    Nat.mod_mod]

/-- A field above another one reads as before. -/
theorem fieldOf_insertField_above (w : Word) (lo width v l k : Nat) (h : lo + width ≤ l) (hl : l ≤ 32) :
    fieldOf (insertField w lo width v) l k = fieldOf w l k := by
  unfold fieldOf
  rw [insertField_toNat w lo width v (by omega)]
  obtain ⟨d, rfl⟩ := Nat.exists_eq_add_of_le h
  have h4 : w.toNat % 2 ^ lo + v % 2 ^ width * 2 ^ lo < 2 ^ (lo + width) := by
    have h1 : w.toNat % 2 ^ lo < 2 ^ lo := Nat.mod_lt _ (Nat.two_pow_pos _)
    have h2 : v % 2 ^ width < 2 ^ width := Nat.mod_lt _ (Nat.two_pow_pos _)
    rw [Nat.pow_add]
    calc _ < 2 ^ lo + v % 2 ^ width * 2 ^ lo := by omega
      _ = (v % 2 ^ width + 1) * 2 ^ lo := by rw [Nat.add_mul, Nat.one_mul, Nat.add_comm]
      _ ≤ 2 ^ width * 2 ^ lo := Nat.mul_le_mul_right _ h2
      _ = 2 ^ lo * 2 ^ width := Nat.mul_comm ..
  rw [Nat.pow_add 2 (lo + width) d, ← Nat.div_div_eq_div_mul, Nat.add_mul_div_right _ _ (Nat.two_pow_pos _),
    Nat.div_eq_of_lt h4, Nat.zero_add, Nat.div_div_eq_div_mul]

/-- A field below another one reads as before. -/
theorem fieldOf_insertField_below (w : Word) (lo width v l k : Nat) (h : l + k ≤ lo) (hw : lo + width ≤ 32) :
    fieldOf (insertField w lo width v) l k = fieldOf w l k := by
  have cut (x : Nat) : x / 2 ^ l % 2 ^ k = x % 2 ^ (l + k) / 2 ^ l := by
    rw [Nat.pow_add, Nat.mod_mul_right_div_self]
  have hd : 2 ^ (l + k) ∣ 2 ^ lo := Nat.pow_dvd_pow 2 h
  unfold fieldOf
  rw [cut, cut, insertField_toNat w lo width v hw, Nat.pow_add 2 lo]
  congr 1
  have e : w.toNat % 2 ^ lo + v % 2 ^ width * 2 ^ lo + w.toNat / (2 ^ lo * 2 ^ width) * (2 ^ lo * 2 ^ width) =
      w.toNat % 2 ^ lo + 2 ^ lo * (v % 2 ^ width + w.toNat / (2 ^ lo * 2 ^ width) * 2 ^ width) := by ring
  obtain ⟨q, hq⟩ := hd
  rw [e, hq, Nat.mul_assoc, Nat.add_mul_mod_self_left, ← hq]
  exact Nat.mod_mod_of_dvd _ ⟨q, hq⟩

/-! ### Fields and counters of the machine -/

/-- Whether no bit of two fields is the same. -/
def Field.apart (f g : Field) : Bool :=
  !(f.reg == g.reg) || Nat.ble (f.lo + f.width) g.lo || Nat.ble (g.lo + g.width) f.lo

namespace Act

theorem reg_setF (f : Field) (v : Nat) (s : State) (a : Nat) (hf : fixedReg f.reg = none) :
    ((setF f v).run s).reg a = if f.reg = a then insertField (s.reg f.reg) f.lo f.width v else s.reg a := by
  simp [setF, State.reg_setReg, hf]

/-- A register other than the field's reads as before. -/
theorem reg_setF_ne (f : Field) (v : Nat) (s : State) {a : Nat} (h : f.reg ≠ a) : ((setF f v).run s).reg a = s.reg a := by
  simp [setF, State.reg_setReg, h]

theorem fld_setF_same (f : Field) (v : Nat) (s : State) (hf : fixedReg f.reg = none) (h : f.lo + f.width ≤ 32) :
    ((setF f v).run s).fld f = v % 2 ^ f.width := by
  simp [State.fld, reg_setF f v s f.reg hf, fieldOf_insertField_same _ _ _ _ h]

/-- A field apart from the one stored reads as before. -/
theorem fld_setF_apart (f g : Field) (v : Nat) (s : State) (h : Field.apart f g = true) (hf : f.lo + f.width ≤ 32)
    (hg : g.lo ≤ 32) : ((setF f v).run s).fld g = s.fld g := by
  by_cases hr : f.reg = g.reg
  · simp only [Field.apart, hr, Bool.or_eq_true, Nat.ble_eq, beq_self_eq_true, Bool.not_true, Bool.false_eq_true,
      false_or] at h
    unfold State.fld
    by_cases hx : fixedReg f.reg = none
    · rw [reg_setF f v s g.reg hx, if_pos hr, hr]
      rcases h with h | h
      · exact fieldOf_insertField_above _ _ _ _ _ _ h hg
      · exact fieldOf_insertField_below _ _ _ _ _ _ h hf
    · simp [setF, State.reg_setReg, hx]
  · simp [State.fld, reg_setF_ne f v s hr]

@[simp] theorem setF_mem (f : Field) (v : Nat) (s : State) : ((setF f v).run s).mem = s.mem := by simp [setF]
@[simp] theorem setF_u (f : Field) (v : Nat) (s : State) : ((setF f v).run s).u = s.u := by simp [setF]
@[simp] theorem satBy_mem (a n : Nat) (s : State) : ((satBy a n).run s).mem = s.mem := by simp [satBy]
@[simp] theorem satBy_u (a n : Nat) (s : State) : ((satBy a n).run s).u = s.u := by simp [satBy]
@[simp] theorem wrapBy_mem (a n : Nat) (s : State) : ((wrapBy a n).run s).mem = s.mem := by simp [wrapBy]
@[simp] theorem wrapBy_u (a n : Nat) (s : State) : ((wrapBy a n).run s).u = s.u := by simp [wrapBy]

theorem reg_wrapBy (a n : Nat) (s : State) (h : fixedReg a = none) :
    ((wrapBy a n).run s).reg a = s.reg a + BitVec.ofNat 32 n := by simp [wrapBy, State.reg_setReg, h]

theorem reg_satBy (a n : Nat) (s : State) (h : fixedReg a = none) :
    ((satBy a n).run s).reg a = BitVec.ofNat 32 (min ((s.reg a).toNat + n) 0xFFFFFFFF) := by
  simp [satBy, State.reg_setReg, h]

@[simp] theorem memBytes_regs (a : Nat) (bs : List Byte) (s : State) : ((memBytes a bs).run s).regs = s.regs := by
  induction bs generalizing a s with
  | nil => rfl
  | cons b bs ih => simp [memBytes, ih]

@[simp] theorem memBytes_reg (a : Nat) (bs : List Byte) (s : State) (x : Nat) : ((memBytes a bs).run s).reg x = s.reg x := by
  simp [State.reg]

@[simp] theorem memBytes_u (a : Nat) (bs : List Byte) (s : State) : ((memBytes a bs).run s).u = s.u := by
  induction bs generalizing a s with
  | nil => rfl
  | cons b bs ih => simp [memBytes, ih]

/-- A byte outside the bytes stored reads as before. -/
theorem memBytes_byte_ne (a : Nat) (bs : List Byte) (s : State) (x : Nat)
    (h : ∀ i < bs.length, (a + i) % 2 ^ 32 ≠ x % 2 ^ 32) : ((memBytes a bs).run s).byte x = s.byte x := by
  induction bs generalizing a s with
  | nil => rfl
  | cons b bs ih =>
    have h0 := h 0 (by simp)
    simp only [memBytes, run_seq, run_mem]
    rw [ih (a + 1) _ fun i hi => by
      have := h (i + 1) (by simpa using hi)
      rwa [show a + 1 + i = a + (i + 1) by omega]]
    rw [State.byte_setByte, if_neg (by simpa using h0)]

end Act

end Sys2Proof.Machine
end

