-- ==== Sys2Proof/Laws/Fits.lean ====
section
/-!
SUPPORT. Laws/Fits.lean: what a program may touch, once for every way programs are put together, and for raising an
event and completing a command. A frame follows from `Fits` of the meaning's program in a `Foot` of its own.
-/

namespace Sys2Proof.Machine

open Sys2Proof Sys2Proof.Reg

/-- What a program may touch: registers, bytes of the Envelope, which may stand where registers it does not touch say,
and units. -/
structure Foot where
  regs : Nat → Bool
  mem : State → Nat → Bool
  units : Units → Units → Prop
  refl : ∀ u, units u u
  trans : ∀ {u v w}, units u v → units v w → units u w
  stable : ∀ {s t : State}, (∀ a, regs a = false → t.reg a = s.reg a) → mem t = mem s

/-- Everything outside the footprint is as before. -/
structure Foot.Touches (F : Foot) (s t : State) : Prop where
  reg : ∀ a, F.regs a = false → t.reg a = s.reg a
  byte : ∀ a, F.mem s a = false → t.byte a = s.byte a
  units : F.units s.u t.u

theorem Foot.Touches.refl (F : Foot) (s : State) : F.Touches s s := ⟨fun _ _ => rfl, fun _ _ => rfl, F.refl _⟩

theorem Foot.Touches.trans {F : Foot} {s t r : State} (h : F.Touches s t) (k : F.Touches t r) : F.Touches s r :=
  ⟨fun a ha => (k.reg a ha).trans (h.reg a ha),
   fun a ha => (k.byte a (by rw [F.stable h.reg]; exact ha)).trans (h.byte a ha),
   F.trans h.units k.units⟩

/-- A program stays within a footprint, wherever it is run. -/
def Act.Fits (F : Foot) (a : Act) : Prop := ∀ s, F.Touches s (a.run s)

namespace Act.Fits

variable {F : Foot}

theorem nop : Fits F .nop := fun s => .refl F s
theorem seq {a b : Act} (ha : Fits F a) (hb : Fits F b) : Fits F (.seq a b) := fun s => (ha s).trans (hb _)
theorem read {k : State → Act} (h : ∀ s, Fits F (k s)) : Fits F (.read k) := fun s => h s s
theorem ite {c : Prop} [Decidable c] {a b : Act} (ha : Fits F a) (hb : Fits F b) : Fits F (if c then a else b) := by
  split <;> assumption
theorem when {c : Bool} {a : Act} (h : Fits F a) : Fits F (Act.when c a) := ite h nop

theorem all {l : List Act} (h : ∀ a ∈ l, Fits F a) : Fits F (Act.all l) := by
  induction l with
  | nil => exact nop
  | cons a l ih => exact seq (h a (by simp)) (ih fun b hb => h b (by simp [hb]))

theorem each {α : Type} {l : List α} {f : α → Act} (h : ∀ x ∈ l, Fits F (f x)) : Fits F (Act.each l f) :=
  all fun a ha => by obtain ⟨x, hx, rfl⟩ := List.mem_map.1 ha; exact h x hx

theorem reg {a : Nat} {w : Word} (h : F.regs a = true) : Fits F (.reg a w) := fun s => by
  refine ⟨fun x hx => ?_, fun x _ => by simp, by simpa using F.refl _⟩
  have : a ≠ x := fun e => by subst e; rw [h] at hx; contradiction
  simp [State.reg_setReg_ne s w this]

theorem setF {f : Field} {v : Nat} (h : F.regs f.reg = true) : Fits F (Act.setF f v) := read fun _ => reg h
theorem setB {f : Field} {b : Bool} (h : F.regs f.reg = true) : Fits F (Act.setB f b) := setF h
theorem wrapBy {a n : Nat} (h : F.regs a = true) : Fits F (Act.wrapBy a n) := read fun _ => reg h
theorem wrap {a : Nat} (h : F.regs a = true) : Fits F (Act.wrap a) := wrapBy h
theorem satBy {a n : Nat} (h : F.regs a = true) : Fits F (Act.satBy a n) := read fun _ => reg h
theorem sat {a : Nat} (h : F.regs a = true) : Fits F (Act.sat a) := satBy h

theorem units {f : Units → Units} (h : ∀ u, F.units u (f u)) : Fits F (.units f) := fun s =>
  ⟨fun _ _ => rfl, fun _ _ => rfl, h s.u⟩

theorem free {k : BitVec 32 → Act} (hu : ∀ u : Units, F.units u { u with freeCount := u.freeCount + 1 })
    (hk : ∀ w, Fits F (k w)) : Fits F (Act.free k) := read fun _ => seq (units hu) (hk _)

/-- Bytes stored at a place the state names; `read` with this lemma covers stores at computed addresses. -/
theorem memAt {k : State → Act} {addr : State → Nat} {bs : State → List Byte}
    (h : ∀ s, ∀ x, F.mem s x = false → ∀ i < (bs s).length, (addr s + i) % 2 ^ 32 ≠ x % 2 ^ 32)
    (hk : ∀ s, k s = Act.memBytes (addr s) (bs s)) : Fits F (.read k) := fun s => by
  rw [run_read, hk s]
  exact ⟨fun _ _ => by simp, fun x hx => memBytes_byte_ne _ _ s x (h s x hx), by simpa using F.refl _⟩

/-- Bytes stored first, at a place the state names, and then the rest. -/
theorem memThen {addr : State → Nat} {bs : State → List Byte} {rest : State → Act}
    (h : ∀ s, ∀ x, F.mem s x = false → ∀ i < (bs s).length, (addr s + i) % 2 ^ 32 ≠ x % 2 ^ 32)
    (hr : ∀ s, Fits F (rest s)) : Fits F (.read fun s => .seq (Act.memBytes (addr s) (bs s)) (rest s)) := fun s =>
  (memAt (F := F) (k := fun s => Act.memBytes (addr s) (bs s)) h (fun _ => rfl) s).trans (hr s _)

end Act.Fits

/-! ### Areas of the Envelope -/

theorem inArea_of_offset {base len k x : Nat} (hk : k < len) (hl : len ≤ 2 ^ 32)
    (h : (base + k) % 2 ^ 32 = x % 2 ^ 32) : inArea base len x = true := by
  have : (x + 2 ^ 32 - base % 2 ^ 32) % 2 ^ 32 = k := by
    have hb : base % 2 ^ 32 < 2 ^ 32 := Nat.mod_lt _ (by decide)
    omega
  simp only [inArea, Nat.blt_eq, this]
  exact hk

@[simp] theorem padTo_length (n : Nat) (l : List Byte) : (padTo n l).length = n := by
  simp [padTo, List.length_take]

/-! ### Events -/

/-- A footprint that has room for what raising an event touches. -/
structure Foot.Events (F : Foot) : Prop where
  regs : ∀ a, inSpans eventRegs a = true → F.regs a = true
  mem : ∀ s a, s.inEventRings a = true → F.mem s a = true
  evt : ∀ (u : Units) (f : Evt → Evt), F.units u { u with evt := f u.evt }
  bt : ∀ (u : Units) (f : Bt → Bt), F.units u { u with bt := f u.bt }

namespace Foot.Events

variable {F : Foot} (h : F.Events)
include h

theorem evtA (f : Evt → Evt) : Act.Fits F (Act.evt f) := .units fun u => h.evt u f
theorem btA (f : Bt → Bt) : Act.Fits F (Act.bt f) := .units fun u => h.bt u f

theorem evtStatus : Act.Fits F Act.evtStatus := .read fun _ => .all fun a ha => by
  simp only [List.mem_cons, List.not_mem_nil, or_false] at ha
  rcases ha with rfl | rfl | rfl
  · exact .setF (h.regs _ (by decide))
  · exact .setB (h.regs _ (by decide))
  · exact .setF (h.regs _ (by decide))

theorem msixSend (v : Nat) : Act.Fits F (Act.msixSend v) := .read fun _ => .all fun a ha => by
  simp only [List.mem_cons, List.not_mem_nil, or_false] at ha
  rcases ha with rfl | rfl
  · exact .wrap (h.regs _ (by decide))
  · exact .when (h.evtA _)

theorem pendingReg (v : Nat) : F.regs (MSIX_PENDING v).reg = true := h.regs _ (by
  have : v / 32 % 4 < 4 := Nat.mod_lt _ (by decide)
  simp only [MSIX_PENDING]
  generalize v / 32 % 4 = k at this
  revert this; revert k; decide)

theorem msixRequest (v : Nat) : Act.Fits F (Act.msixRequest v) := .read fun _ => .ite .nop <| .ite (h.evtA _) <|
  .ite (.setF (h.pendingReg v)) (h.msixSend v)

theorem ringReg (r : Nat) : F.regs (EVT_RINGr_PROD r) = true := h.regs _ (by
  have : r % 4 < 4 := Nat.mod_lt _ (by decide)
  simp only [EVT_RINGr_PROD]
  generalize r % 4 = k at this
  revert this; revert k; decide)

theorem lostReg (r : Nat) : F.regs (EVT_LOSTr r) = true := h.regs _ (by
  have : r % 4 < 4 := Nat.mod_lt _ (by decide)
  simp only [EVT_LOSTr]
  generalize r % 4 = k at this
  revert this; revert k; decide)

theorem baseIn (s : State) (r k x : Nat) (hk : k < 0x40000)
    (e : ((s.reg (EVT_RINGr_BASE r)).toNat + k) % 2 ^ 32 = x % 2 ^ 32) : F.mem s x = true := by
  apply h.mem
  simp only [State.inEventRings, List.any_eq_true, List.mem_range]
  refine ⟨r % 4, Nat.mod_lt _ (by decide), ?_⟩
  have : EVT_RINGr_BASE (r % 4) = EVT_RINGr_BASE r := by simp [EVT_RINGr_BASE]
  rw [this]
  exact inArea_of_offset hk (by decide) e

theorem ringEntry (r src flags count beat ts tn : Nat) (detail : List Byte) :
    Act.Fits F (Act.ringEntry r src flags count beat ts tn detail) := by
  refine .memThen (fun s x hx i hi e => ?_) fun s => .all fun a ha => ?_
  · have hp : s.fld ⟨EVT_RINGr_PROD r, 0, 13⟩ < 2 ^ 13 := fieldOf_lt _ _ _
    have hl : i < 32 := by
      refine Nat.lt_of_lt_of_le hi ?_
      simp only [List.length_append, leBytes_length]
      split <;> simp [padTo_length, leBytes_length]
    have := h.baseIn s r (32 * s.fld ⟨EVT_RINGr_PROD r, 0, 13⟩ + i) x (by omega) (by rw [← e]; congr 1; omega)
    rw [hx] at this; contradiction
  · simp only [List.mem_cons, List.not_mem_nil, or_false] at ha
    rcases ha with rfl | rfl | rfl | rfl
    · exact .setF (h.ringReg r)
    · exact .setF (h.ringReg r)
    · exact h.evtA _
    · exact .wrap (h.regs _ (by decide))

theorem ringWrite {overflow : Nat → Act} (ho : ∀ r, Act.Fits F (overflow r)) (src flags count beat ts tn : Nat)
    (record : List Byte) : Act.Fits F (Act.ringWrite overflow src flags count beat ts tn record) := by
  refine .read fun s => .ite (.all fun a ha => ?_) (.all fun a ha => ?_)
  · simp only [List.mem_cons, List.not_mem_nil, or_false] at ha
    rcases ha with rfl | rfl | rfl | rfl
    · exact h.evtA _
    · exact h.ringEntry _ _ _ _ _ _ _ _
    · exact .when (h.ringEntry _ _ _ _ _ _ _ _)
    · exact h.msixRequest _
  · simp only [List.mem_cons, List.not_mem_nil, or_false] at ha
    rcases ha with rfl | rfl | rfl
    · exact .satBy (h.lostReg _)
    · exact h.evtA _
    · exact ho _

theorem bridleClose {overflow : Nat → Act} (ho : ∀ r, Act.Fits F (overflow r)) (i : Nat) (early : Bool) :
    Act.Fits F (Act.bridleClose overflow i early) := by
  refine .read fun s => ?_
  split
  · exact .nop
  · refine .all fun a ha => ?_
    simp only [List.mem_cons, List.not_mem_nil, or_false] at ha
    rcases ha with rfl | rfl | rfl
    · exact h.evtA _
    · exact .when (.sat (h.regs _ (by decide)))
    · exact .when (h.ringWrite ho _ _ _ _ _ _ _)

theorem occurrence {overflow : Nat → Act} (ho : ∀ r, Act.Fits F (overflow r)) (src : Nat) (record : List Byte) :
    Act.Fits F (Act.occurrence overflow src record) := by
  refine .read fun s => .ite .nop <| .ite (.ite (.all fun a ha => ?_) (.all fun a ha => ?_)) (h.ringWrite ho _ _ _ _ _ _ _)
  · simp only [List.mem_cons, List.not_mem_nil, or_false] at ha
    rcases ha with rfl | rfl
    · exact h.evtA _
    · exact .wrap (h.regs _ (by decide))
  · simp only [List.mem_cons, List.not_mem_nil, or_false] at ha
    rcases ha with rfl | rfl | rfl
    · exact .when (h.bridleClose ho _ _)
    · exact h.evtA _
    · exact h.ringWrite ho _ _ _ _ _ _ _

theorem raiseFuel (k src : Nat) (record : List Byte) : Act.Fits F (Act.raiseFuel k src record) := by
  induction k generalizing src record with
  | zero => exact .nop
  | succ k ih =>
    refine h.occurrence (fun r => .read fun s => .when (.all fun a ha => ?_)) _ _
    simp only [List.mem_cons, List.not_mem_nil, or_false] at ha
    rcases ha with rfl | rfl
    · exact h.btA _
    · exact .read fun t => ih _ _

/-- Raising an event touches what the events touch, and nothing else. -/
theorem raise (src : Nat) (record : List Byte) : Act.Fits F (Act.raise src record) :=
  .seq (h.raiseFuel _ _ _) h.evtStatus

theorem raiseOnce (src key : Nat) (record : List Byte) : Act.Fits F (Act.raiseOnce src key record) := by
  refine .read fun s => .when (.all fun a ha => ?_)
  simp only [List.mem_cons, List.not_mem_nil, or_false] at ha
  rcases ha with rfl | rfl
  · exact h.btA _
  · exact h.raise _ _

end Foot.Events

end Sys2Proof.Machine
end

