-- ==== Sys2Proof/Laws/Form.lean ====
section
/-!
SUPPORT. Laws/Form.lean: every operation on memory and on registers keeps their canonical form.
-/

namespace Sys2Proof.Machine

open Sys2Proof

theorem State.setByte_wf {s : State} (h : Memory.wf s.mem) (a : Nat) (b : Byte) : Memory.wf (s.setByte a b).mem :=
  Store.canonical_setD h _ _

theorem State.setReg_wf {s : State} (h : Registers.wf s.regs) (a : Nat) (w : Word) :
    Registers.wf (s.setReg a w).regs := by
  unfold State.setReg
  split
  · exact h
  · exact Store.canonical_setD h _ _

/-- Bytes stored in a row keep the form. -/
theorem Act.memBytes_wf {s : State} (h : Memory.wf s.mem) (a : Nat) (bs : List Byte) :
    Memory.wf ((Act.memBytes a bs).run s).mem := by
  induction bs generalizing a s with
  | nil => exact h
  | cons b bs ih => exact ih (State.setByte_wf h a b) (a + 1)

/-- An area set to zero, and registers cleared, keep the form. -/
theorem Act.zero_wf {s : State} (h : Memory.wf s.mem) (base len : Nat) :
    Memory.wf ((Act.zero base len).run s).mem := Store.canonical_filter h _

theorem Act.clear_wf {s : State} (h : Registers.wf s.regs) (keep : Nat → Bool) :
    Registers.wf ((Act.clear keep).run s).regs := Store.canonical_filter h _

end Sys2Proof.Machine
end

