-- ==== Sys2Proof/Laws/Shared.lean ====
section
/-!
SUPPORT. Laws/Shared.lean: what the shared operations of the host interface and of the pair touch, and the footprints
whose `Fits` gives the frames the statements use.
-/

namespace Sys2Proof.Machine

open Sys2Proof Sys2Proof.Reg

/-! ### Operations of the pair's record (R482, R489, R501) -/

section

variable {F : Foot} (hp : ∀ (u : Units) (f : Pair → Pair), F.units u { u with pair := f u.pair })
include hp

theorem Act.Fits.pair (f : Pair → Pair) : Act.Fits F (Act.pair f) := .units fun u => hp u f
theorem Act.Fits.linkSend (b : LinkBody) : Act.Fits F (Act.linkSend b) := .read fun _ => .when (.pair hp _)
theorem Act.Fits.recordInput (k : Nat) : Act.Fits F (Act.recordInput k) := .read fun _ => .when
  (.seq (.linkSend hp _) (.pair hp _))
theorem Act.Fits.logUpdate (bs : List Byte) : Act.Fits F (Act.logUpdate bs) := .read fun _ => .when (.pair hp _)
theorem Act.Fits.healthFault (row cls : Nat) : Act.Fits F (Act.healthFault row cls) := .read fun _ => .pair hp _

end

/-! ### Host accesses (R604, R605, R609, R610) -/

/-- A footprint with room for events and for the log of refused accesses. -/
structure Foot.Access (F : Foot) : Prop extends F.Events where
  acc : ∀ a, inSpans accessRegs a = true → F.regs a = true
  hif : ∀ (u : Units) (f : Hif → Hif), F.units u { u with hif := f u.hif }

namespace Foot.Access

variable {F : Foot} (h : F.Access)
include h

theorem hifA (f : Hif → Hif) : Act.Fits F (Act.hif f) := .units fun u => h.hif u f

/-- A refused access touches its log and the events. -/
theorem accessError (reason : Nat) (i : HostIface) (byteEn addr : Nat) :
    Act.Fits F (Act.accessError reason i byteEn addr) := .all fun a ha => by
  simp only [List.mem_cons, List.not_mem_nil, or_false] at ha
  rcases ha with rfl | rfl | rfl | rfl | rfl | rfl | rfl
  · exact .setF (h.acc _ (by decide))
  · exact .setF (h.acc _ (by decide))
  · exact .setF (h.acc _ (by decide))
  · exact .reg (h.acc _ (by decide))
  · exact .sat (h.acc _ (by decide))
  · exact .when (h.hifA _)
  · exact .read fun _ => h.raiseOnce _ _ _

/-- A write that needs permission touches what it does, the log and the events. -/
theorem permitted (i : HostIface) (x : Nat) {a : Act} (ha : Act.Fits F a) : Act.Fits F (Act.permitted i x a) :=
  .read fun _ => .ite .nop (.ite ha (h.accessError _ _ _ _))

end Foot.Access

theorem Act.Fits.reached {F : Foot} (i : HostIface) {a : Act} (ha : Act.Fits F a) : Act.Fits F (Act.reached i a) :=
  .read fun _ => .when ha

/-! ### Guards (R609, R610) -/

/-- A footprint with room for events and for a guard block. -/
structure Foot.Guard (F : Foot) (x : Nat) : Prop extends F.Events where
  res : F.regs (x + 8) = true
  rej : F.regs HIF_GUARD_REJ = true
  hif : ∀ (u : Units) (f : Hif → Hif), F.units u { u with hif := f u.hif }

namespace Foot.Guard

variable {F : Foot} {x : Nat} (h : F.Guard x)
include h

theorem hifA (f : Hif → Hif) : Act.Fits F (Act.hif f) := .units fun u => h.hif u f

theorem disarm : Act.Fits F (Act.disarm x) := .seq (h.hifA _) (.setB h.res)

theorem guardReject (res : Nat) : Act.Fits F (Act.guardReject x res) := .all fun a ha => by
  simp only [List.mem_cons, List.not_mem_nil, or_false] at ha
  rcases ha with rfl | rfl | rfl
  · exact .setF h.res
  · exact .sat h.rej
  · exact h.raise _ _

theorem guardArm (v : Word) : Act.Fits F (Act.guardArm x v) := .read fun _ => .all fun a ha => by
  simp only [List.mem_cons, List.not_mem_nil, or_false] at ha
  rcases ha with rfl | rfl | rfl
  · exact .when (h.guardReject _)
  · exact h.hifA _
  · exact .setB h.res

/-- A complement touches the guard block, the events, and what the register does with an accepted value. -/
theorem guardComplement (comp : Word) (check : Word → State → Nat) {apply : Word → Act}
    (ha : ∀ v, Act.Fits F (apply v)) : Act.Fits F (Act.guardComplement x comp check apply) := .read fun s => by
  split
  · exact h.guardReject _
  · exact .seq h.disarm (.ite (.seq (.setF h.res) (ha _)) (h.guardReject _))

end Foot.Guard

/-! ### The command ring (R613, R623) -/

/-- A footprint with room for events, the journal, and the completion ring with its result blocks. -/
structure Foot.Ring (F : Foot) : Prop extends F.Events where
  ring : ∀ a, inSpans ringRegs a = true → F.regs a = true
  area : ∀ s a, s.inHostRings a = true → F.mem s a = true
  hif : ∀ (u : Units) (f : Hif → Hif), F.units u { u with hif := f u.hif }
  pair : ∀ (u : Units) (f : Pair → Pair), F.units u { u with pair := f u.pair }

namespace Foot.Ring

variable {F : Foot} (h : F.Ring)
include h

theorem ringStatus : Act.Fits F Act.ringStatus := .read fun _ => .all fun a ha => by
  simp only [List.mem_cons, List.not_mem_nil, or_false] at ha
  rcases ha with rfl | rfl
  · exact .setB (h.ring _ (by decide))
  · exact .setB (h.ring _ (by decide))

theorem journal (c : HostCmd) (status : Nat) (final : Bool) : Act.Fits F (Act.journal c status final) := by
  have step (s : State) : Act.Fits F (.read fun t => Act.memBytes ((t.reg HIF_JRN_BASE).toNat + 64 * (c.seq % 65536))
      (journalBytes c.seq c.opcode status (c.beat % 2 ^ 32) c.args c.id c.iface final c.index)) := by
    refine .memAt (fun s x hx i hi e => ?_) fun _ => rfl
    have hl : i < 64 := by simpa [journalBytes] using hi
    have := h.area s x (by
      have : c.seq % 65536 < 65536 := Nat.mod_lt _ (by decide)
      simp only [State.inHostRings, Bool.or_eq_true]
      exact .inl (.inl (inArea_of_offset (k := 64 * (c.seq % 65536) + i) (by omega) (by decide)
        (by rw [← e]; congr 1; omega))))
    rw [hx] at this; contradiction
  intro s
  have hb (bs : List Byte) : ((Act.logUpdate bs).run s).reg HIF_JRN_BASE = s.reg HIF_JRN_BASE := by
    simp only [Act.logUpdate, Act.run_read, Act.run_when]; split <;> rfl
  have := (Act.Fits.logUpdate h.pair ([0x14] ++ leBytes 4 c.seq ++ leBytes 2 c.opcode ++ leBytes 2 status) s).trans
    (step s _)
  simpa only [Act.journal, Act.run_read, Act.run_seq, hb] using this

end Foot.Ring

/-! ### Footprints of the frames -/

theorem inEventRings_stable {s t : State} {l : List (Nat × Nat)}
    (hl : ∀ r < 4, inSpans l (EVT_RINGr_BASE r) = false)
    (h : ∀ a, inSpans l a = false → t.reg a = s.reg a) : t.inEventRings = s.inEventRings := by
  funext a
  simp only [State.inEventRings]
  rw [Bool.eq_iff_iff, List.any_eq_true, List.any_eq_true]
  constructor <;> rintro ⟨r, hr, e⟩ <;> refine ⟨r, hr, ?_⟩
  · rwa [h _ (hl r (List.mem_range.1 hr))] at e
  · rwa [h _ (hl r (List.mem_range.1 hr))]

/-- The footprint of a command that may raise events. -/
def Foot.events (l : List (Nat × Nat)) (U : Units → Units → Prop) (hr : ∀ u, U u u)
    (ht : ∀ {u v w}, U u v → U v w → U u w)
    (hl : ∀ r < 4, inSpans (l ++ eventRegs) (EVT_RINGr_BASE r) = false) : Foot :=
  ⟨inSpans (l ++ eventRegs), State.inEventRings, U, hr, ht, fun h => inEventRings_stable hl h⟩

/-- The footprint of a command that raises nothing. -/
def Foot.quiet (l : List (Nat × Nat)) (U : Units → Units → Prop) (hr : ∀ u, U u u)
    (ht : ∀ {u v w}, U u v → U v w → U u w) : Foot :=
  ⟨inSpans l, fun _ _ => false, U, hr, ht, fun _ => rfl⟩

theorem Act.Fits.keepsEvents {l U hr ht hl} {a : Act} (h : Act.Fits (Foot.events l U hr ht hl) a) (s : State) :
    KeepsEvents l s (a.run s) ∧ U s.u (a.run s).u := ⟨⟨(h s).reg, (h s).byte⟩, (h s).units⟩

end Sys2Proof.Machine
end

