-- ==== Sys2Proof/Tests/Slice0.lean ====
section
/-!
SUPPORT. Tests/Slice0.lean: the well-formedness smoke test, a few of the spec's own check values, and one witness for
the premises of each statement's clauses.
-/

namespace Sys2Proof.Tests

open Sys2Proof Sys2Proof.Machine Sys2Proof.Reg

set_option Elab.async false

/-! ### Well-formedness: one command for each check, which the check refuses -/

theorem test_wf_enq_no_words : (Instr.enq (.spool 0 0) 0 false 0 []).wf = false := by decide
theorem test_wf_enq_too_many : wordsOk (List.replicate 17 ⟨0, 0, false, false⟩) = false := by decide
theorem test_wf_record_past_check : (Instr.recordUpdate 0 0 (.change 5 247 [1, 2])).wf = false := by decide
theorem test_wf_record_short : (Instr.recordUpdate 0 0 (.create 5 [1])).wf = false := by decide
theorem test_wf_llrs : (Instr.llrReceived 0 0 0 0 [1]).wf = false := by decide
theorem test_wf_block : (Instr.blockFrameReceived 0 0 0 []).wf = false := by decide
theorem test_wf_ok : (Instr.enq (.spool 0 0) 0 false 0 [⟨0, 0, false, false⟩]).wf = true := by decide

/-! ### Check values of the spec -/

/-- R99: the CRC-32 of the ASCII string 123456789. -/
theorem test_crc32_check : crc32 [0x31, 0x32, 0x33, 0x34, 0x35, 0x36, 0x37, 0x38, 0x39] = 0xCBF43926 := by decide +kernel

/-- R619 with R570: IMAGE_REJECTED, row 11, of an opcode of group 0x03. -/
theorem test_group_status : groupStatus 0x0303 11 = 0x030B := by decide

/-- R2, R33: the identity registers. -/
theorem test_identity : State.reset.reg GEN_CHIP_ID = 0x168000A1 ∧ State.reset.fld GEN_CAPS_RX_CHANNELS = 80 := by decide

/-- R50: tags carry the engine in [9:6] and the slot in [5:0]. -/
theorem test_tag : tagOf 15 47 = 15 * 64 + 47 := by decide

/-- A queue of one command is empty after one step. -/
theorem test_step_takes : (match step { State.reset with pending := [.ppsFall] } with
    | .next t => t.pending.length | _ => 1) = 0 := by decide

/-- The reset state with registers, fields and units of one's own. -/
abbrev w (fs : List (Field × Nat)) (rs : List (Nat × Word)) (f : Units → Units) : State :=
  let regs := rs.foldl (fun m e => m.setD e.1 0 e.2) State.reset.regs
  let regs := fs.foldl (fun m e => m.setD e.1.reg 0 (insertField (m.getD e.1.reg 0) e.1.lo e.1.width e.2)) regs
  { State.reset with regs := regs, u := f State.reset.u }


/-- TAG does not cover itself. -/
theorem tagOfSlot_tag (i : List Nat) (n t : Nat) (k : KeySlot) : tagOfSlot i n { k with tag := t } = tagOfSlot i n k := rfl

/-- A slot that holds the TAG of its contents verifies. -/
theorem tagOk_of {s : State} {n : Nat} (i : List Nat) (k : KeySlot) (h : s.u.sec.integrity = some i)
    (hs : s.slot n = { k with tag := tagOfSlot i n k }) : s.tagOk n = true := by
  unfold State.tagOk
  rw [h, hs]
  exact decide_eq_true rfl

/-- A valid slot of the all-zero key with these attributes, its TAG under the all-zero INTEGRITY key. -/
abbrev tagged (attr : Nat) : KeySlot :=
  let k : KeySlot := ⟨0, attr, 0xFFFF, 0, 0, .valid⟩
  { k with tag := tagOfSlot [0, 0, 0, 0, 0, 0, 0, 0, 0, 0, 0, 0, 0, 0, 0, 0] 2 k }
/-- SuppliesAndResets, the premises for suppliesApplied. -/
theorem witness_SuppliesAndResets_1 : ∃ (s : State) (_vbatNew : Bool),
    (s.u.pins.supplies = false) :=
  ⟨w [] [] fun u => { u with pins := { u.pins with supplies := false } }, true, by decide⟩

/-- SuppliesAndResets, the premises for powerOnResetRelease. -/
theorem witness_SuppliesAndResets_3 : ∃ (s : State) (_straps : Straps) (_ticks : BitVec 40),
    (s.mode = .cold) ∧ (s.u.pins.supplies = true) ∧ (s.u.pins.vbat = true) ∧ (s.u.pins.porHeld = true) ∧ (s.u.pins.resetN = true) :=
  ⟨w [] [] id, ⟨false, false⟩, 0, by decide⟩

/-- SuppliesAndResets, the premises for resetNAssert. -/
theorem witness_SuppliesAndResets_4 : ∃ (s : State),
    (s.u.pins.resetN = true) ∧ (s.mode ≠ .cold) ∧ (s.mode ≠ .drift) :=
  ⟨w [(GEN_MODE_MODE, 4), (BT_STATUS_RUNNING, 1)] [] id, by decide⟩

/-- SuppliesAndResets, the premises for resetNRelease. -/
theorem witness_SuppliesAndResets_5 : ∃ (s : State) (_straps : Straps) (_ticks : BitVec 40),
    (s.u.pins.resetN = false) ∧ (s.mode ≠ .cold) :=
  ⟨w [(GEN_MODE_MODE, 4)] [] fun u => { u with pins := { u.pins with resetN := false } }, ⟨false, false⟩, 0, by decide⟩

/-- SuppliesAndResets, the premises for pcieLinkChange. -/
theorem witness_SuppliesAndResets_7 : ∃ (s : State) (_l : PcieLink),
    (s.u.pins.perstN = true) ∧ (s.u.pins.resetN = true) ∧ (s.mode = .solo) ∧ (4 ≤ s.fld BOOT_STATUS_STAGE) :=
  ⟨w [(GEN_MODE_MODE, 4), (BOOT_STATUS_STAGE, 15)] [] fun u => { u with pins := { u.pins with perstN := true } }, ⟨2, true, true, false⟩, by decide⟩

/-- TriplicatedLogicAndEngines, the premises for tmrCopyUpset. -/
theorem witness_TriplicatedLogicAndEngines_1 : ∃ (s : State) (_part : TmrUnit),
    (s.mode ≠ .cold) :=
  ⟨w [(GEN_MODE_MODE, 4)] [] id, .sequencer, by decide⟩

/-- TriplicatedLogicAndEngines, the premises for tmrCopyReload. -/
theorem witness_TriplicatedLogicAndEngines_2 : ∃ (s : State) (part : TmrUnit),
    (s.u.bt.split = some part) :=
  ⟨w [(GEN_MODE_MODE, 4)] [] fun u => { u with bt := { u.bt with split := some .tether } }, .tether, by decide⟩

/-- TriplicatedLogicAndEngines, the premises for engineSramError. -/
theorem witness_TriplicatedLogicAndEngines_3 : ∃ (s : State) (pe : Fin 16),
    ((s.modeLevel s.mode).isSome = true) ∧ ((s.engine pe).gated = false) :=
  ⟨w [(GEN_MODE_MODE, 4)] [] id, 3, by decide⟩

/-- TriplicatedLogicAndEngines, the premises for engineRestored. -/
theorem witness_TriplicatedLogicAndEngines_4 : ∃ (s : State) (pe : Fin 16),
    ((s.engine pe).restoreIn = some 0) :=
  ⟨w [(GEN_MODE_MODE, 4)] [] fun u => { u with bt := { u.bt with engines := [(3, { Engine.idle with restoreIn := some 0 })] } }, 3, by decide⟩

/-- TriplicatedLogicAndEngines, the premises for dozeEnginesReturn. -/
theorem witness_TriplicatedLogicAndEngines_5 : ∃ (s : State),
    (s.u.bt.dozeReturn = some 0) :=
  ⟨w [(GEN_MODE_MODE, 4)] [] fun u => { u with bt := { u.bt with dozeReturn := some 0, engines := [(3, { Engine.idle with gated := true })] } }, by decide⟩

/-- BeatBoundaries, the premises for sequencerStart. -/
theorem witness_BeatBoundaries_1 : ∃ (s : State) (_sample : BitVec 64),
    (s.bit BT_STATUS_RUNNING = true) ∧ (s.fld BT_STATUS_WINDOW = 0) ∧ (s.bit BT_STATUS_GAP = false) ∧ (s.u.boot.activateAt = none) :=
  ⟨w [(GEN_MODE_MODE, 3), (BT_STATUS_RUNNING, 1)] [] id, 7, by decide⟩

/-- BeatBoundaries, the premises for beatBoundary. -/
theorem witness_BeatBoundaries_2 : ∃ (s : State) (_sample : BitVec 64) (_used : List (BitVec 21)) (_unfinished : List (Fin 16)) (_ticks : BitVec 40),
    (s.bit BT_STATUS_RUNNING = true) ∧ (s.fld BT_STATUS_WINDOW = 3) ∧ (s.bit BT_STATUS_GAP = false) ∧ (s.u.pwr.driftEntry ≠ 2) ∧ (s.u.tk.step = none) ∧ (s.u.boot.activateAt = none) :=
  ⟨w [(GEN_MODE_MODE, 3), (BT_STATUS_RUNNING, 1), (BT_STATUS_WINDOW, 3)] [] id, 7, [], [], 0, by decide⟩

/-- BeatBoundaries, the premises for planWindowClose. -/
theorem witness_BeatBoundaries_3 : ∃ (s : State),
    (s.bit BT_STATUS_RUNNING = true) ∧ (s.fld BT_STATUS_WINDOW = 1) :=
  ⟨w [(GEN_MODE_MODE, 4), (BT_STATUS_RUNNING, 1), (BT_STATUS_WINDOW, 1)] [] id, by decide⟩

/-- BeatBoundaries, the premises for bindLine. -/
theorem witness_BeatBoundaries_4 : ∃ (s : State),
    (s.bit BT_STATUS_RUNNING = true) ∧ (s.fld BT_STATUS_WINDOW = 2) :=
  ⟨w [(GEN_MODE_MODE, 4), (BT_STATUS_RUNNING, 1), (BT_STATUS_WINDOW, 2)] [] id, by decide⟩

/-- BeatBoundaries, the premises for commitWindowOpen. -/
theorem witness_BeatBoundaries_5 : ∃ (s : State) (_unfinished : List (Fin 16)) (_cls : Fin 4) (_upsets : List (BitVec 24)) (_torn : List (Fin 1024)) (_entries : List (Fin 4 × BitVec 18 × EccFault)),
    (s.bit BT_STATUS_RUNNING = true) ∧ (s.fld BT_STATUS_WINDOW = 2) :=
  ⟨w [(GEN_MODE_MODE, 4), (BT_STATUS_RUNNING, 1), (BT_STATUS_WINDOW, 2)] [] id, [], 0, [], [], [], by decide⟩

/-- PowerRequests, the premises for pwrReqLevel. -/
theorem witness_PowerRequests_1 : ∃ (s : State) (iface : HostIface) (_level : Fin 4),
    (s.reaches iface = true) ∧ (s.permits PWR_REQ = true) ∧ (s.bit BT_STATUS_RUNNING = true) :=
  ⟨w ([(GEN_MODE_MODE, 4), (BT_STATUS_RUNNING, 1), (HIF_CFG_SPI_EN, 1)]) [] fun u => { u with fuse := { u.fuse with rows := [(0, 0x0F)] } }, .spi, 2, by decide⟩

/-- PowerRequests, the premises for pwrReqDoze. -/
theorem witness_PowerRequests_2 : ∃ (s : State) (iface : HostIface),
    (s.reaches iface = true) ∧ (s.permits PWR_REQ = true) ∧ (s.bit BT_STATUS_RUNNING = true) :=
  ⟨w ([(GEN_MODE_MODE, 4), (BT_STATUS_RUNNING, 1), (HIF_CFG_SPI_EN, 1)]) [] fun u => { u with fuse := { u.fuse with rows := [(0, 0x0F)] } }, .spi, by decide⟩

/-- PowerRequests, the premises for pwrReqServe. -/
theorem witness_PowerRequests_3 : ∃ (s : State) (iface : HostIface),
    (s.reaches iface = true) ∧ (s.permits PWR_REQ = true) ∧ (s.bit BT_STATUS_RUNNING = true) :=
  ⟨w ([(GEN_MODE_MODE, 4), (BT_STATUS_RUNNING, 1), (HIF_CFG_SPI_EN, 1)]) [] fun u => { u with fuse := { u.fuse with rows := [(0, 0x0F)] } }, .spi, by decide⟩

/-- PowerRequests, the premises for pwrReqDrift. -/
theorem witness_PowerRequests_4 : ∃ (s : State) (iface : HostIface),
    (s.reaches iface = true) ∧ (s.permits PWR_REQ = true) ∧ (s.bit BT_STATUS_RUNNING = true) :=
  ⟨w ([(GEN_MODE_MODE, 4), (BT_STATUS_RUNNING, 1), (HIF_CFG_SPI_EN, 1)]) [] fun u => { u with fuse := { u.fuse with rows := [(0, 0x0F)] } }, .spi, by decide⟩

/-- PowerTransitions, the premises for thermalReading. -/
theorem witness_PowerTransitions_1 : ∃ (s : State) (quarters : BitVec 16),
    (s.u.pwr.capped = false) ∧ ((s.fld PWR_THERM_CAP_C : Int) * 4 ≤ quarters.toInt) :=
  ⟨w [(GEN_MODE_MODE, 4), (BT_STATUS_RUNNING, 1), (PWR_THERM_CAP_C, 90)] [] id, 400, by decide⟩

/-- PowerTransitions, the premises for mainsFiltered. -/
theorem witness_PowerTransitions_3 : ∃ (s : State) (_ticks : BitVec 40),
    (s.u.pins.mainsRaw ≠ s.bit PWR_STATUS_MAINS) ∧ (s.mode ≠ .cold) ∧ (s.mode ≠ .drift) :=
  ⟨w [(GEN_MODE_MODE, 4), (BT_STATUS_RUNNING, 1)] [] fun u => { u with pins := { u.pins with mainsRaw := true } }, 0, by decide⟩

/-- PowerTransitions, the premises for lossDriftExpiry. -/
theorem witness_PowerTransitions_4 : ∃ (s : State),
    (s.u.pwr.lossWait = true) ∧ (s.bit PWR_STATUS_MAINS = false) ∧ (s.fld PWR_MAINS_ON_LOSS = 3) ∧ (s.bit BT_STATUS_RUNNING = true) :=
  ⟨w [(GEN_MODE_MODE, 9), (BT_STATUS_RUNNING, 1), (PWR_MAINS_ON_LOSS, 3)] [] fun u => { u with pwr := { u.pwr with lossWait := true } }, by decide⟩

/-- PowerTransitions, the premises for vddEngSettled. -/
theorem witness_PowerTransitions_5 : ∃ (s : State) (c : LevelChange),
    (s.u.pwr.change = some c) ∧ (c.failed = false) :=
  ⟨w [(GEN_MODE_MODE, 4)] [] fun u => { u with pwr := { u.pwr with change := some ⟨0, 2, 1, false, false⟩ } }, ⟨0, 2, 1, false, false⟩, by decide⟩

/-- PowerTransitions, the premises for vsettleTimeout. -/
theorem witness_PowerTransitions_6 : ∃ (s : State) (c : LevelChange),
    (s.u.pwr.change = some c) ∧ (c.failed = false) ∧ (c.settled = false) ∧ (s.bit PWR_VID_VID_EN = true) :=
  ⟨w [(GEN_MODE_MODE, 4), (PWR_VID_VID_EN, 1)] [] fun u => { u with pwr := { u.pwr with change := some ⟨0, 2, 1, false, false⟩ } }, ⟨0, 2, 1, false, false⟩, by decide⟩

/-- PowerTransitions, the premises for levelChangeDone. -/
theorem witness_PowerTransitions_7 : ∃ (s : State) (c : LevelChange),
    (s.u.pwr.change = some c) ∧ (c.failed = false) ∧ (c.settled = true) ∧ (c.new < 4) :=
  ⟨w [(GEN_MODE_MODE, 4)] [] fun u => { u with pwr := { u.pwr with change := some ⟨0, 2, 1, false, true⟩ } }, ⟨0, 2, 1, false, true⟩, by decide⟩

/-- PowerTransitions, the premises for forceHold. -/
theorem witness_PowerTransitions_8 : ∃ (s : State) (iface : HostIface),
    (s.reaches iface = true) ∧ (s.permits PWR_MODE_FORCE = true) ∧ (s.armed PWR_MODE_FORCE = some 0x5A5A000B) ∧ (s.mode = .solo) :=
  ⟨w [(GEN_MODE_MODE, 4), (BT_STATUS_RUNNING, 1), (HIF_CFG_SPI_EN, 1)] [] fun u => { u with fuse := { u.fuse with rows := [(0, 0x0F)] }, hif := { u.hif with armed := [(PWR_MODE_FORCE, 0x5A5A000B)] } }, .spi, by decide⟩

/-- PowerTransitions, the premises for forceDozeExit. -/
theorem witness_PowerTransitions_9 : ∃ (s : State) (iface : HostIface),
    (s.reaches iface = true) ∧ (s.permits PWR_MODE_FORCE = true) ∧ (s.armed PWR_MODE_FORCE = some 0x5A5A0004) ∧ (s.mode = .doze) :=
  ⟨w [(GEN_MODE_MODE, 9), (BT_STATUS_RUNNING, 1), (HIF_CFG_SPI_EN, 1)] [] fun u => { u with fuse := { u.fuse with rows := [(0, 0x0F)] }, hif := { u.hif with armed := [(PWR_MODE_FORCE, 0x5A5A0004)] } }, .spi, by decide⟩

/-- PowerTransitions, the premises for pwrReset. -/
theorem witness_PowerTransitions_10 : ∃ (s : State) (iface : HostIface) (_ticks : BitVec 40),
    (s.reaches iface = true) ∧ (s.permits PWR_RESET = true) ∧ (s.armed PWR_RESET = some 0x5A5A0020) ∧ (s.mode ≠ .rom) :=
  ⟨w [(GEN_MODE_MODE, 4), (BT_STATUS_RUNNING, 1), (HIF_CFG_SPI_EN, 1)] [] fun u => { u with fuse := { u.fuse with rows := [(0, 0x0F)] }, hif := { u.hif with armed := [(PWR_RESET, 0x5A5A0020)] } }, .spi, 0, by decide⟩

/-- DriftSampling, the premises for driftEntryComplete. -/
theorem witness_DriftSampling_1 : ∃ (s : State) (_ticks : BitVec 40),
    (s.u.pwr.driftEntry = 3) ∧ (s.u.pwr.latch = none) ∧ (s.mode = .solo) :=
  ⟨w [(GEN_MODE_MODE, 4), (PWR_DRIFT_CFG_RETAIN, 1)] [] fun u => { u with pwr := { u.pwr with driftEntry := 3 } }, 0, by decide⟩

/-- DriftSampling, the premises for sniffCycleStart. -/
theorem witness_DriftSampling_2 : ∃ (s : State),
    (s.mode = .drift) ∧ (s.u.pwr.cycle = false) ∧ ((Act.wakeOn s 3 || Act.wakeOn s 5) = true) ∧ (s.gtOwned (s.fld PWR_DRIFT_CFG_SNIFF_GT) 3 = true) :=
  ⟨w [(GEN_MODE_MODE, 10), (PWR_DRIFT_CFG_WAKE_EN, 4)] [] fun u => { u with boot := { u.boot with gtOwner := [3] } }, by decide⟩

/-- DriftSampling, the premises for samplingIslandOn. -/
theorem witness_DriftSampling_3 : ∃ (s : State) (quarters : BitVec 16) (_ticks : BitVec 40),
    (s.u.pwr.cycle = true) ∧ (s.mode = .drift) ∧ (Act.wakeOn s 5 = true) ∧ ((s.fld PWR_DRIFT_LIMIT_THI : Int) < quarters.toInt / 4 + 64) :=
  ⟨w [(GEN_MODE_MODE, 10), (PWR_DRIFT_CFG_WAKE_EN, 16), (PWR_DRIFT_LIMIT_THI, 100)] [] fun u => { u with pwr := { u.pwr with cycle := true } }, 400, 0, by decide⟩

/-- DriftSampling, the premises for sniffCycleEnd. -/
theorem witness_DriftSampling_4 : ∃ (s : State) (_peak : BitVec 16) (_ticks : BitVec 40),
    (s.u.pwr.cycle = true) ∧ (s.bit PWR_DRIFT_SNIFF_ENERGY = false) :=
  ⟨w [(GEN_MODE_MODE, 10)] [] fun u => { u with pwr := { u.pwr with cycle := true } }, 0, 0, by decide⟩

/-- DriftSampling, the premises for driftTimerExpiry. -/
theorem witness_DriftSampling_5 : ∃ (s : State) (_ticks : BitVec 40),
    (s.mode = .drift) ∧ (0 < s.fld PWR_DRIFT_LIMIT_MAX_DRIFT_S) ∧ (s.gtOwned (s.fld PWR_DRIFT_CFG_LIMIT_GT) 4 = true) ∧ (Act.wakeOn s 4 = true) :=
  ⟨w [(GEN_MODE_MODE, 10), (PWR_DRIFT_CFG_WAKE_EN, 8), (PWR_DRIFT_LIMIT_MAX_DRIFT_S, 9)] [] fun u => { u with boot := { u.boot with gtOwner := [4] } }, 0, by decide⟩

/-- DriftSampling, the premises for driftWakeCondition. -/
theorem witness_DriftSampling_6 : ∃ (s : State) (source : Fin 7) (_gpio : BitVec 16) (_ticks : BitVec 40),
    (s.mode = .drift) ∧ (source ≠ 2) ∧ (Act.wakeOn s source = true) :=
  ⟨w [(GEN_MODE_MODE, 10), (PWR_DRIFT_CFG_WAKE_EN, 1)] [] id, 1, 0, 0, by decide⟩

/-- StartUp, the premises for bootDone. -/
theorem witness_StartUp_1 : ∃ (s : State) (_flashOk : Bool) (_epochOk : Bool) (_ms : BitVec 32),
    (s.mode = .rom) ∧ (s.u.boot.running = true) ∧ (s.bit SEC_TAMPER_STAT_LATCHED = false) ∧ (s.lifecycle = 1 ∨ s.lifecycle = 2) ∧ (s.u.pins.rcvrLow = true) :=
  ⟨w [(GEN_MODE_MODE, 1)] [] fun u => { u with pins := { u.pins with rcvrLow := true }, fuse := { u.fuse with rows := [(0, 0x0F)] }, boot := { u.boot with running := true } }, true, true, 0, by decide⟩

/-- StartUp, the premises for migrationDone. -/
theorem witness_StartUp_2 : ∃ (s : State) (_bad : List (BitVec 20)),
    (s.mode = .commission) ∧ (s.u.boot.migrating = true) ∧ (s.bit BOOT_CONFIRM_COMMISSION_WAIT = false) ∧ (s.bit GEN_MODE_PAIR_CFG = false) ∧ (s.bit BOOT_STATUS_MIGRATING = false) :=
  ⟨w [(GEN_MODE_MODE, 3)] [] fun u => { u with boot := { u.boot with migrating := true } }, [], by decide⟩

/-- StartUp, the premises for migrationTimeout. -/
theorem witness_StartUp_3 : ∃ (s : State) (_written : Bool),
    (s.mode = .commission) ∧ (s.u.boot.migrating = true) :=
  ⟨w [(GEN_MODE_MODE, 3), (BT_STATUS_RUNNING, 1)] [] fun u => { u with boot := { u.boot with migrating := true } }, true, by decide⟩

/-- StartUp, the premises for commissionWaitExpiry. -/
theorem witness_StartUp_4 : ∃ (s : State),
    (s.u.boot.commissionWait = true) ∧ (s.bit GEN_MODE_PAIR_CFG = false) :=
  ⟨w [(GEN_MODE_MODE, 3)] [] fun u => { u with boot := { u.boot with commissionWait := true } }, by decide⟩

/-- StartUp, the premises for commissionDone. -/
theorem witness_StartUp_5 : ∃ (s : State) (index : Fin 4096) (c : HostCmd),
    (s.cmdAt index (fun o => o == 0x0308) = some c) ∧ (c.mirrored = false) ∧ (s.u.boot.commissionWait = true) ∧ (s.bit GEN_MODE_PAIR_CFG = false) :=
  ⟨w [(GEN_MODE_MODE, 4), (BT_STATUS_RUNNING, 1)] [] fun u => { u with hif := { u.hif with cmds := [⟨1, 0x0308, 7, 5, 3, [], .spi, false⟩] }, boot := { u.boot with commissionWait := true } }, 5, ⟨1, 0x0308, 7, 5, 3, [], .spi, false⟩, by decide⟩

/-- StartUp, the premises for confirmTimerExpiry. -/
theorem witness_StartUp_6 : ∃ (s : State) (_blown : BitVec 256),
    (s.onTrial = true) ∧ (s.mode = .solo) ∧ (s.fld BOOT_CONFIRM_CONFIRM_S ≠ 0) ∧ (s.fld PAIR_HEALTH_CFG_OK_MIN ≤ s.score) :=
  ⟨w [(GEN_MODE_MODE, 4), (BT_STATUS_RUNNING, 1), (BOOT_CONFIRM_CONFIRM_S, 9)] [] fun u => { u with boot := { u.boot with trial := (true, false) } }, 0, by decide⟩

/-- StartUp, the premises for bootRecovery. -/
theorem witness_StartUp_7 : ∃ (s : State) (iface : HostIface) (_ticks : BitVec 40),
    (s.reaches iface = true) ∧ (s.permits BOOT_RECOVERY = true) ∧ (s.armed BOOT_RECOVERY = some 0x5A5A0030) ∧ (s.mode ≠ .rom) :=
  ⟨w [(GEN_MODE_MODE, 4), (BT_STATUS_RUNNING, 1), (HIF_CFG_SPI_EN, 1)] [] fun u => { u with fuse := { u.fuse with rows := [(0, 0x0F)] }, hif := { u.hif with armed := [(BOOT_RECOVERY, 0x5A5A0030)] } }, .spi, 0, by decide⟩

/-- StartUp, the premises for bootCfgHashReq. -/
theorem witness_StartUp_8 : ∃ (s : State) (iface : HostIface),
    (s.reaches iface = true) ∧ (s.permits BOOT_CFG_HASH_REQ = true) :=
  ⟨w ([(GEN_MODE_MODE, 4), (BT_STATUS_RUNNING, 1), (HIF_CFG_SPI_EN, 1)]) [] fun u => { u with fuse := { u.fuse with rows := [(0, 0x0F)] } }, .spi, by decide⟩

/-- UpdateSessions, the premises for updateBegin. -/
theorem witness_UpdateSessions_1 : ∃ (s : State) (index : Fin 4096) (c : HostCmd) (_kind : UpdateKind) (length : BitVec 32) (_tries : Fin 3) (_sha : BitVec 256),
    (s.cmdAt index (fun o => o == 0x0301) = some c) ∧ (c.mirrored = false) ∧ (s.u.boot.session = none) ∧ (s.bsr.fwTrial = none) ∧ (s.bsr.cfgTrial = none) ∧ (length.toNat ≤ s.transfer) ∧ (s.mode = .solo) :=
  ⟨w [(GEN_MODE_MODE, 4), (BT_STATUS_RUNNING, 1)] [] fun u => { u with hif := { u.hif with cmds := [⟨1, 0x0301, 7, 5, 3, [], .spi, false⟩] } }, 5, ⟨1, 0x0301, 7, 5, 3, [], .spi, false⟩, .firmware, 0, 1, 0, by decide⟩

/-- UpdateSessions, the premises for updateBlock. -/
theorem witness_UpdateSessions_2 : ∃ (s : State) (index : Fin 4096) (c : HostCmd) (offset : BitVec 32) (bytes : BitVec 32) (crc : BitVec 32) (x : Session),
    (s.cmdAt index (fun o => o == 0x0302) = some c) ∧ (c.mirrored = false) ∧ (s.u.boot.session = some x) ∧ (x.state = 1) ∧ (blockInRange x.length offset.toNat bytes.toNat = true) ∧ (crc32 (s.bytes s.stagingBase (min bytes.toNat 65536)) = crc) :=
  ⟨w [(GEN_MODE_MODE, 4), (BT_STATUS_RUNNING, 1)] [] fun u => { u with hif := { u.hif with cmds := [⟨1, 0x0302, 7, 5, 3, [], .spi, false⟩] }, boot := { u.boot with session := some ⟨1, 4, 1, 0, [], 1⟩ } }, 5, ⟨1, 0x0302, 7, 5, 3, [], .spi, false⟩, 0, 4, 0x2144DF1C, ⟨1, 4, 1, 0, [], 1⟩, by decide +kernel⟩

/-- UpdateSessions, the premises for updateEnd. -/
theorem witness_UpdateSessions_3 : ∃ (s : State) (index : Fin 4096) (c : HostCmd) (x : Session),
    (s.cmdAt index (fun o => o == 0x0303) = some c) ∧ (c.mirrored = false) ∧ (s.u.boot.session = some x) ∧ (x.state = 1) :=
  ⟨w [(GEN_MODE_MODE, 4), (BT_STATUS_RUNNING, 1)] [] fun u => { u with hif := { u.hif with cmds := [⟨1, 0x0303, 7, 5, 3, [], .spi, false⟩] }, boot := { u.boot with session := some ⟨1, 4096, 1, 0, [], 1⟩ } }, 5, ⟨1, 0x0303, 7, 5, 3, [], .spi, false⟩, ⟨1, 4096, 1, 0, [], 1⟩, by decide⟩

/-- UpdateSessions, the premises for updateApplyComplete. -/
theorem witness_UpdateSessions_4 : ∃ (s : State) (_bad : Option (List Byte)) (_written : Bool) (x : Session),
    (s.u.boot.session = some x) ∧ (x.state = 2) :=
  ⟨w [(GEN_MODE_MODE, 4), (BOOT_STATUS_UPDATE_BUSY, 1)] [] fun u => { u with boot := { u.boot with session := some ⟨1, 4096, 1, 0, [], 2⟩ } }, none, true, ⟨1, 4096, 1, 0, [], 2⟩, by decide⟩

/-- UpdateSessions, the premises for updateAbort. -/
theorem witness_UpdateSessions_5 : ∃ (s : State) (index : Fin 4096) (c : HostCmd) (x : Session),
    (s.cmdAt index (fun o => o == 0x0304) = some c) ∧ (c.mirrored = false) ∧ (s.u.boot.session = some x) ∧ (x.state ≠ 2) :=
  ⟨w [(GEN_MODE_MODE, 4), (BT_STATUS_RUNNING, 1)] [] fun u => { u with hif := { u.hif with cmds := [⟨1, 0x0304, 7, 5, 3, [], .spi, false⟩] }, boot := { u.boot with session := some ⟨1, 4096, 1, 0, [], 1⟩ } }, 5, ⟨1, 0x0304, 7, 5, 3, [], .spi, false⟩, ⟨1, 4096, 1, 0, [], 1⟩, by decide⟩

/-- UpdateSessions, the premises for updateActivate. -/
theorem witness_UpdateSessions_6 : ∃ (s : State) (index : Fin 4096) (c : HostCmd) (_beat : BitVec 32),
    (s.cmdAt index (fun o => o == 0x0305) = some c) ∧ (c.mirrored = false) :=
  ⟨w [(GEN_MODE_MODE, 4), (BT_STATUS_RUNNING, 1)] [] fun u => { u with hif := { u.hif with cmds := [⟨1, 0x0305, 7, 5, 3, [], .spi, false⟩] } }, 5, ⟨1, 0x0305, 7, 5, 3, [], .spi, false⟩, 9, by decide⟩

/-- UpdateSessions, the premises for updateConfirm. -/
theorem witness_UpdateSessions_7 : ∃ (s : State) (index : Fin 4096) (c : HostCmd) (_blown : BitVec 256),
    (s.cmdAt index (fun o => o == 0x0306) = some c) ∧ (c.mirrored = false) ∧ (s.onTrial = true) :=
  ⟨w [(GEN_MODE_MODE, 4), (BT_STATUS_RUNNING, 1)] [] fun u => { u with hif := { u.hif with cmds := [⟨1, 0x0306, 7, 5, 3, [], .spi, false⟩] }, boot := { u.boot with trial := (true, false) } }, 5, ⟨1, 0x0306, 7, 5, 3, [], .spi, false⟩, 0, by decide⟩

/-- UpdateSessions, the premises for updateRevert. -/
theorem witness_UpdateSessions_8 : ∃ (s : State) (index : Fin 4096) (c : HostCmd) (_ticks : BitVec 40),
    (s.cmdAt index (fun o => o == 0x0307) = some c) ∧ (c.mirrored = false) ∧ (s.onTrial = true) ∧ (s.mode ≠ .rom) :=
  ⟨w [(GEN_MODE_MODE, 4), (BT_STATUS_RUNNING, 1)] [] fun u => { u with hif := { u.hif with cmds := [⟨1, 0x0307, 7, 5, 3, [], .spi, false⟩] }, boot := { u.boot with trial := (true, false) } }, 5, ⟨1, 0x0307, 7, 5, 3, [], .spi, false⟩, 0, by decide⟩

/-- UpdateSessions, the premises for pairUpdateTimeout. -/
theorem witness_UpdateSessions_9 : ∃ (s : State),
    (s.u.boot.activateWait = true) ∧ (s.u.boot.activateAt = none) :=
  ⟨w [(GEN_MODE_MODE, 4)] [] fun u => { u with boot := { u.boot with activateWait := true } }, by decide⟩

/-- RecoveryOperations, the premises for rcvCheck. -/
theorem witness_RecoveryOperations_1 : ∃ (s : State) (iface : HostIface),
    (s.reaches iface = true) ∧ (s.permits BOOT_RCV_CMD = true) ∧ (s.bit BOOT_RCV_STAT_BUSY = false) ∧ (s.mode = .recovery) :=
  ⟨w [(GEN_MODE_MODE, 2), (HIF_CFG_SPI_EN, 1)] [(BOOT_RCV_ARG, 3)] fun u => { u with fuse := { u.fuse with rows := [(0, 0x0F)] } }, .spi, by decide⟩

/-- RecoveryOperations, the premises for rcvWrite. -/
theorem witness_RecoveryOperations_2 : ∃ (s : State) (iface : HostIface),
    (s.reaches iface = true) ∧ (s.permits BOOT_RCV_CMD = true) ∧ (s.bit BOOT_RCV_STAT_BUSY = false) ∧ (s.mode = .recovery) :=
  ⟨w [(GEN_MODE_MODE, 2), (HIF_CFG_SPI_EN, 1)] [(BOOT_RCV_ARG, 3)] fun u => { u with fuse := { u.fuse with rows := [(0, 0x0F)] } }, .spi, by decide⟩

/-- RecoveryOperations, the premises for rcvSetActive. -/
theorem witness_RecoveryOperations_3 : ∃ (s : State) (iface : HostIface),
    (s.reaches iface = true) ∧ (s.permits BOOT_RCV_CMD = true) ∧ (s.bit BOOT_RCV_STAT_BUSY = false) ∧ (s.mode = .recovery) :=
  ⟨w [(GEN_MODE_MODE, 2), (HIF_CFG_SPI_EN, 1)] [(BOOT_RCV_ARG, 3)] fun u => { u with fuse := { u.fuse with rows := [(0, 0x0F)] } }, .spi, by decide⟩

/-- RecoveryOperations, the premises for rcvReprovision. -/
theorem witness_RecoveryOperations_4 : ∃ (s : State) (iface : HostIface),
    (s.reaches iface = true) ∧ (s.permits BOOT_RCV_CMD = true) ∧ (s.bit BOOT_RCV_STAT_BUSY = false) ∧ (s.mode = .recovery) :=
  ⟨w [(GEN_MODE_MODE, 2), (HIF_CFG_SPI_EN, 1)] [(BOOT_RCV_ARG, 3)] fun u => { u with fuse := { u.fuse with rows := [(0, 0x0F)] } }, .spi, by decide⟩

/-- RecoveryOperations, the premises for rcvExit. -/
theorem witness_RecoveryOperations_5 : ∃ (s : State) (iface : HostIface) (_ticks : BitVec 40),
    (s.reaches iface = true) ∧ (s.permits BOOT_RCV_CMD = true) ∧ (s.bit BOOT_RCV_STAT_BUSY = false) ∧ (s.mode = .recovery) :=
  ⟨w [(GEN_MODE_MODE, 2), (HIF_CFG_SPI_EN, 1)] [(BOOT_RCV_ARG, 3)] fun u => { u with fuse := { u.fuse with rows := [(0, 0x0F)] } }, .spi, 0, by decide⟩

/-- RecoveryOperations, the premises for rcvOpComplete. -/
theorem witness_RecoveryOperations_6 : ∃ (s : State) (_bad : Option (List Byte)) (op : Nat) (arg : Nat),
    (s.u.boot.rcvOp = some (op, arg, none)) ∧ (s.mode = .recovery) :=
  ⟨w [(GEN_MODE_MODE, 2), (BOOT_RCV_STAT_BUSY, 1)] [] fun u => { u with boot := { u.boot with rcvOp := some (3, 1, none) } }, none, 3, 1, by decide⟩

/-- RecoveryOperations, the premises for recoveryIdleTimeout. -/
theorem witness_RecoveryOperations_7 : ∃ (s : State) (_ticks : BitVec 40),
    (s.mode = .recovery) ∧ (s.u.boot.rcvError = true) ∧ (s.u.boot.rcvSeen = false) :=
  ⟨w [(GEN_MODE_MODE, 2)] [] fun u => { u with boot := { u.boot with rcvError := true } }, 0, by decide⟩

/-- TransmitSequence, the premises for txSequenceStart. -/
theorem witness_TransmitSequence_1 : ∃ (s : State) (chain : Chain) (_off : Fin 1000000) (_sample : BitVec 64) (d : TxCmd) (a : AckTx),
    ((s.tx chain).cmd = some d) ∧ (d.what = .ack a) ∧ (d.phase = .ready) ∧ (s.mode = .solo) ∧ (s.mayTransmit = true) ∧ (s.bit (RFx_CX_CTL_EN chain.port) = false) ∧ (a.bytes.isEmpty = false) ∧ (s.dutyOk chain.port a.chan a.rate (s.dutyNs chain.port a.rate a.bytes.length) (fun _ => 0) = true) :=
  ⟨w [(GEN_MODE_MODE, 4), (BT_STATUS_RUNNING, 1)] [] fun u => { u with rf := { u.rf with s := { u.rf.s with tx0 := { TxChain.idle with cmd := some ⟨(.ack ⟨5, 104, 1, [1, 0, 0x34, 0x12], 9000000, 0, .ts0⟩), .ready, true, false, 0, 3, [1, 0, 0x34, 0x12], none, some 8000000, false, false, false⟩ } } } }, .ts0, 500, 60, ⟨(.ack ⟨5, 104, 1, [1, 0, 0x34, 0x12], 9000000, 0, .ts0⟩), .ready, true, false, 0, 3, [1, 0, 0x34, 0x12], none, some 8000000, false, false, false⟩, ⟨5, 104, 1, [1, 0, 0x34, 0x12], 9000000, 0, .ts0⟩, by decide⟩

/-- TransmitSequence, the premises for txPaEnable. -/
theorem witness_TransmitSequence_2 : ∃ (s : State) (chain : Chain) (d : TxCmd),
    ((s.tx chain).cmd = some d) ∧ (d.phase = .tr) :=
  ⟨w [(GEN_MODE_MODE, 4), (BT_STATUS_RUNNING, 1)] [] fun u => { u with rf := { u.rf with s := { u.rf.s with tx0 := { TxChain.idle with cmd := some ⟨(.ack ⟨5, 104, 1, [1, 0, 0x34, 0x12], 9000000, 0, .ts0⟩), .tr, true, false, 0, 3, [1, 0, 0x34, 0x12], none, some 8000000, false, false, false⟩ } } } }, .ts0, ⟨(.ack ⟨5, 104, 1, [1, 0, 0x34, 0x12], 9000000, 0, .ts0⟩), .tr, true, false, 0, 3, [1, 0, 0x34, 0x12], none, some 8000000, false, false, false⟩, by decide⟩

/-- TransmitSequence, the premises for txRampUpStart. -/
theorem witness_TransmitSequence_3 : ∃ (s : State) (chain : Chain) (_off : Fin 1000000) (d : TxCmd),
    ((s.tx chain).cmd = some d) ∧ (d.phase = .pa) :=
  ⟨w [(GEN_MODE_MODE, 4), (BT_STATUS_RUNNING, 1)] [] fun u => { u with rf := { u.rf with s := { u.rf.s with tx0 := { TxChain.idle with cmd := some ⟨(.ack ⟨5, 104, 1, [1, 0, 0x34, 0x12], 9000000, 0, .ts0⟩), .pa, true, false, 0, 3, [1, 0, 0x34, 0x12], none, some 8000000, false, false, false⟩ } } } }, .ts0, 9, ⟨(.ack ⟨5, 104, 1, [1, 0, 0x34, 0x12], 9000000, 0, .ts0⟩), .pa, true, false, 0, 3, [1, 0, 0x34, 0x12], none, some 8000000, false, false, false⟩, by decide⟩

/-- TransmitSequence, the premises for txFrameStart. -/
theorem witness_TransmitSequence_4 : ∃ (s : State) (chain : Chain) (d : TxCmd),
    ((s.tx chain).cmd = some d) ∧ (d.phase = .ramp) :=
  ⟨w [(GEN_MODE_MODE, 4), (BT_STATUS_RUNNING, 1)] [] fun u => { u with rf := { u.rf with s := { u.rf.s with tx0 := { TxChain.idle with cmd := some ⟨(.ack ⟨5, 104, 1, [1, 0, 0x34, 0x12], 9000000, 0, .ts0⟩), .ramp, true, false, 0, 3, [1, 0, 0x34, 0x12], none, some 8000000, false, false, false⟩ } } } }, .ts0, ⟨(.ack ⟨5, 104, 1, [1, 0, 0x34, 0x12], 9000000, 0, .ts0⟩), .ramp, true, false, 0, 3, [1, 0, 0x34, 0x12], none, some 8000000, false, false, false⟩, by decide⟩

/-- TransmitSequence, the premises for txFrameEnd. -/
theorem witness_TransmitSequence_5 : ∃ (s : State) (chain : Chain) (_off : Fin 1000000) (d : TxCmd),
    ((s.tx chain).cmd = some d) ∧ (d.phase = .frame) :=
  ⟨w [(GEN_MODE_MODE, 4), (BT_STATUS_RUNNING, 1)] [] fun u => { u with rf := { u.rf with s := { u.rf.s with tx0 := { TxChain.idle with cmd := some ⟨(.ack ⟨5, 104, 1, [1, 0, 0x34, 0x12], 9000000, 0, .ts0⟩), .frame, true, false, 0, 3, [1, 0, 0x34, 0x12], none, some 8000000, false, false, false⟩ } } } }, .ts0, 9, ⟨(.ack ⟨5, 104, 1, [1, 0, 0x34, 0x12], 9000000, 0, .ts0⟩), .frame, true, false, 0, 3, [1, 0, 0x34, 0x12], none, some 8000000, false, false, false⟩, by decide⟩

/-- TransmitSequence, the premises for txRampDownEnd. -/
theorem witness_TransmitSequence_6 : ∃ (s : State) (chain : Chain) (_off : Fin 1000000) (d : TxCmd),
    ((s.tx chain).cmd = some d) ∧ (d.phase = .down) :=
  ⟨w [(GEN_MODE_MODE, 4), (BT_STATUS_RUNNING, 1)] [] fun u => { u with rf := { u.rf with s := { u.rf.s with tx0 := { TxChain.idle with cmd := some ⟨(.ack ⟨5, 104, 1, [1, 0, 0x34, 0x12], 9000000, 0, .ts0⟩), .down, true, false, 0, 3, [1, 0, 0x34, 0x12], none, some 8000000, false, false, false⟩ } } } }, .ts0, 9, ⟨(.ack ⟨5, 104, 1, [1, 0, 0x34, 0x12], 9000000, 0, .ts0⟩), .down, true, false, 0, 3, [1, 0, 0x34, 0x12], none, some 8000000, false, false, false⟩, by decide⟩

/-- TransmitSequence, the premises for txPaDisable. -/
theorem witness_TransmitSequence_7 : ∃ (s : State) (chain : Chain) (d : TxCmd),
    ((s.tx chain).cmd = some d) ∧ (d.phase = .drained) :=
  ⟨w [(GEN_MODE_MODE, 4), (BT_STATUS_RUNNING, 1)] [] fun u => { u with rf := { u.rf with s := { u.rf.s with tx0 := { TxChain.idle with cmd := some ⟨(.ack ⟨5, 104, 1, [1, 0, 0x34, 0x12], 9000000, 0, .ts0⟩), .drained, true, false, 0, 3, [1, 0, 0x34, 0x12], none, some 8000000, false, false, false⟩, paEn := true } } } }, .ts0, ⟨(.ack ⟨5, 104, 1, [1, 0, 0x34, 0x12], 9000000, 0, .ts0⟩), .drained, true, false, 0, 3, [1, 0, 0x34, 0x12], none, some 8000000, false, false, false⟩, by decide⟩

/-- TransmitSequence, the premises for txTrReturn. -/
theorem witness_TransmitSequence_8 : ∃ (s : State) (chain : Chain) (d : TxCmd),
    ((s.tx chain).cmd = some d) ∧ (d.phase = .back) :=
  ⟨w [(GEN_MODE_MODE, 4), (BT_STATUS_RUNNING, 1), (RFx_STATUS_TRS_TX .s, 1)] [] fun u => { u with rf := { u.rf with s := { u.rf.s with tx0 := { TxChain.idle with cmd := some ⟨(.ack ⟨5, 104, 1, [1, 0, 0x34, 0x12], 9000000, 0, .ts0⟩), .back, true, false, 0, 3, [1, 0, 0x34, 0x12], none, some 8000000, false, false, false⟩ } } } }, .ts0, ⟨(.ack ⟨5, 104, 1, [1, 0, 0x34, 0x12], 9000000, 0, .ts0⟩), .back, true, false, 0, 3, [1, 0, 0x34, 0x12], none, some 8000000, false, false, false⟩, by decide⟩

/-- TransmitSequence, the premises for txBlankEnd. -/
theorem witness_TransmitSequence_9 : ∃ (s : State) (port : RfPort) (_off : Fin 1000000) (_sample : BitVec 64),
    (s.portSeq port = false) ∧ ((s.u.rf.port port).recal = none) ∧ (s.bit (RFx_SLICE_EN port) = true) ∧ (s.bit (RFx_STATUS_RX_LOCKED port) = true) :=
  ⟨w [(GEN_MODE_MODE, 4), (BT_STATUS_RUNNING, 1), (RFx_SLICE_EN .s, 1), (RFx_STATUS_RX_LOCKED .s, 1), (RFx_STATUS_BLANK .s, 1)] [] fun u => { u with rf := { u.rf with s := { u.rf.s with tx0 := { TxChain.idle with fails := 0 } } } }, .s, 9, 70, by decide⟩

/-- TransmitSynthesisers, the premises for txLockConfirmed. -/
theorem witness_TransmitSynthesisers_1 : ∃ (s : State) (chain : Chain) (us : BitVec 16),
    ((s.tx chain).calibrating = true) ∧ (us.toNat < 200) :=
  ⟨w [(GEN_MODE_MODE, 4), (BT_STATUS_RUNNING, 1)] [] fun u => { u with rf := { u.rf with s := { u.rf.s with tx0 := { TxChain.idle with fails := 0, calibrating := true } } } }, .ts0, 90, by decide⟩

/-- TransmitSynthesisers, the premises for txCalTimeout. -/
theorem witness_TransmitSynthesisers_2 : ∃ (s : State) (chain : Chain),
    ((s.tx chain).calibrating = true) ∧ (s.txState chain ≠ 5) ∧ ((s.tx chain).fails = 0) :=
  ⟨w [(GEN_MODE_MODE, 4), (BT_STATUS_RUNNING, 1)] [] fun u => { u with rf := { u.rf with s := { u.rf.s with tx0 := { TxChain.idle with fails := 0, calibrating := true } } } }, .ts0, by decide⟩

/-- TransmitSynthesisers, the premises for txSynthUnlock. -/
theorem witness_TransmitSynthesisers_3 : ∃ (s : State) (chain : Chain) (d : TxCmd),
    ((s.tx chain).cmd = some d) ∧ (d.phase.sending = true) :=
  ⟨w [(GEN_MODE_MODE, 4), (BT_STATUS_RUNNING, 1)] [] fun u => { u with rf := { u.rf with s := { u.rf.s with tx0 := { TxChain.idle with cmd := some ⟨(.ack ⟨5, 104, 1, [1, 0, 0x34, 0x12], 9000000, 0, .ts0⟩), .frame, true, false, 0, 3, [1, 0, 0x34, 0x12], none, some 8000000, false, false, false⟩ } } } }, .ts0, ⟨(.ack ⟨5, 104, 1, [1, 0, 0x34, 0x12], 9000000, 0, .ts0⟩), .frame, true, false, 0, 3, [1, 0, 0x34, 0x12], none, some 8000000, false, false, false⟩, by decide⟩

/-- TransmitSynthesisers, the premises for txChainEnWrite. -/
theorem witness_TransmitSynthesisers_4 : ∃ (s : State) (iface : HostIface) (chain : Chain) (_value : BitVec 32),
    (s.reaches iface = true) ∧ (s.permits (RFx_TXn_CTL chain.port chain.n) = true) :=
  ⟨w [(GEN_MODE_MODE, 4), (HIF_CFG_SPI_EN, 1)] [] fun u => { u with fuse := { u.fuse with rows := [(0, 0x0F)] } }, .spi, .ts0, 3, by decide⟩

/-- TransmitSynthesisers, the premises for txHoldDecision. -/
theorem witness_TransmitSynthesisers_5 : ∃ (s : State) (chain : Chain) (off : Fin 1000000) (d : TxCmd),
    ((s.tx chain).cmd = some d) ∧ (d.due = true) ∧ (d.phase = .held) ∧ (s.holdNs chain.port d.cca d.what ≤ s.atNs off) :=
  ⟨w [(GEN_MODE_MODE, 4), (BT_STATUS_RUNNING, 1)] [] fun u => { u with rf := { u.rf with s := { u.rf.s with tx0 := { TxChain.idle with cmd := some ⟨(.ack ⟨5, 104, 1, [1, 0, 0x34, 0x12], 9000000, 0, .ts0⟩), .held, true, false, 0, 3, [1, 0, 0x34, 0x12], none, some 8000000, false, false, false⟩ } } }, bt := { u.bt with beat := 12 } }, .ts0, 9, ⟨(.ack ⟨5, 104, 1, [1, 0, 0x34, 0x12], 9000000, 0, .ts0⟩), .held, true, false, 0, 3, [1, 0, 0x34, 0x12], none, some 8000000, false, false, false⟩, by decide⟩

/-- ChannelAssessment, the premises for ccaStart. -/
theorem witness_ChannelAssessment_1 : ∃ (s : State) (chain : Chain) (d : TxCmd),
    ((s.tx chain).cmd = some d) ∧ (d.cca = true) ∧ (d.phase = .held) ∧ (d.due = false) :=
  ⟨w [(GEN_MODE_MODE, 4), (BT_STATUS_RUNNING, 1)] [] fun u => { u with rf := { u.rf with s := { u.rf.s with tx0 := { TxChain.idle with cmd := some ⟨(.entry ⟨.s, 0, some 0x100, 0, 0, 0, 0, 20, 9000000, 9100000, 9200000⟩), .held, false, true, 0, 3, [1, 0, 0x34, 0x12], none, some 8000000, false, false, false⟩ } } } }, .ts0, ⟨(.entry ⟨.s, 0, some 0x100, 0, 0, 0, 0, 20, 9000000, 9100000, 9200000⟩), .held, false, true, 0, 3, [1, 0, 0x34, 0x12], none, some 8000000, false, false, false⟩, by decide⟩

/-- ChannelAssessment, the premises for ccaEnd. -/
theorem witness_ChannelAssessment_2 : ∃ (s : State) (chain : Chain) (_off : Fin 1000000) (power : BitVec 16) (_draw : Fin 256) (d : TxCmd) (e : PlanEntry),
    ((s.tx chain).cmd = some d) ∧ (d.what = .entry e) ∧ (d.phase = .cca) ∧ (s.ccaBusy chain d power = false) :=
  ⟨w [(GEN_MODE_MODE, 4), (BT_STATUS_RUNNING, 1)] [] fun u => { u with rf := { u.rf with s := { u.rf.s with tx0 := { TxChain.idle with cmd := some ⟨(.entry ⟨.s, 0, some 0x100, 0, 0, 0, 0, 20, 9000000, 9100000, 9200000⟩), .cca, true, false, 0, 3, [1, 0, 0x34, 0x12], none, some 8000000, false, false, false⟩ } } } }, .ts0, 9, 0, 3, ⟨(.entry ⟨.s, 0, some 0x100, 0, 0, 0, 0, 20, 9000000, 9100000, 9200000⟩), .cca, true, false, 0, 3, [1, 0, 0x34, 0x12], none, some 8000000, false, false, false⟩, ⟨.s, 0, some 0x100, 0, 0, 0, 0, 20, 9000000, 9100000, 9200000⟩, by decide⟩

/-- ChannelAssessment, the premises for backoffExpiry. -/
theorem witness_ChannelAssessment_3 : ∃ (s : State) (chain : Chain) (d : TxCmd),
    ((s.tx chain).cmd = some d) ∧ (d.phase = .backoff) :=
  ⟨w [(GEN_MODE_MODE, 4), (BT_STATUS_RUNNING, 1)] [] fun u => { u with rf := { u.rf with s := { u.rf.s with tx0 := { TxChain.idle with cmd := some ⟨(.entry ⟨.s, 0, some 0x100, 0, 0, 0, 0, 20, 9000000, 9100000, 9200000⟩), .backoff, false, true, 0, 3, [1, 0, 0x34, 0x12], none, some 8000000, false, false, false⟩ } } } }, .ts0, ⟨(.entry ⟨.s, 0, some 0x100, 0, 0, 0, 0, 20, 9000000, 9100000, 9200000⟩), .backoff, false, true, 0, 3, [1, 0, 0x34, 0x12], none, some 8000000, false, false, false⟩, by decide⟩

/-- ChannelAssessment, the premises for cxRequestRaise. -/
theorem witness_ChannelAssessment_4 : ∃ (s : State) (chain : Chain) (_ack : Bool) (d : TxCmd),
    (s.bit (RFx_CX_CTL_EN chain.port) = true) ∧ ((s.tx chain).cmd = some d) ∧ (d.phase.inSeq = false) :=
  ⟨w [(GEN_MODE_MODE, 4), (BT_STATUS_RUNNING, 1), (RFx_CX_CTL_EN .s, 1)] [] fun u => { u with rf := { u.rf with s := { u.rf.s with tx0 := { TxChain.idle with cmd := some ⟨(.ack ⟨5, 104, 1, [1, 0, 0x34, 0x12], 9000000, 0, .ts0⟩), .held, true, false, 0, 3, [1, 0, 0x34, 0x12], none, some 8000000, false, false, false⟩ } } } }, .ts0, true, ⟨(.ack ⟨5, 104, 1, [1, 0, 0x34, 0x12], 9000000, 0, .ts0⟩), .held, true, false, 0, 3, [1, 0, 0x34, 0x12], none, some 8000000, false, false, false⟩, by decide⟩

/-- ChannelAssessment, the premises for cxGrantSample. -/
theorem witness_ChannelAssessment_5 : ∃ (s : State) (chain : Chain) (d : TxCmd),
    (s.bit (RFx_CX_CTL_EN chain.port) = true) ∧ ((s.tx chain).cmd = some d) ∧ (d.req = true) ∧ (d.phase.inSeq = false) ∧ (s.gtOwned (s.fld (RFx_CX_CTL_GT chain.port)) (1 + chain.port.idx) = true) :=
  ⟨w [(GEN_MODE_MODE, 4), (BT_STATUS_RUNNING, 1), (RFx_CX_CTL_EN .s, 1)] [] fun u => { u with rf := { u.rf with s := { u.rf.s with tx0 := { TxChain.idle with cmd := some ⟨(.ack ⟨5, 104, 1, [1, 0, 0x34, 0x12], 9000000, 0, .ts0⟩), .held, true, false, 0, 3, [1, 0, 0x34, 0x12], none, some 8000000, false, true, false⟩ } } }, boot := { u.boot with gtOwner := [1] } }, .ts0, ⟨(.ack ⟨5, 104, 1, [1, 0, 0x34, 0x12], 9000000, 0, .ts0⟩), .held, true, false, 0, 3, [1, 0, 0x34, 0x12], none, some 8000000, false, true, false⟩, by decide⟩

/-- ChannelAssessment, the premises for cxGrantWithdrawn. -/
theorem witness_ChannelAssessment_6 : ∃ (s : State) (port : RfPort),
    (s.bit (RFx_CX_CTL_EN port) = true) :=
  ⟨w [(GEN_MODE_MODE, 4), (BT_STATUS_RUNNING, 1), (RFx_CX_CTL_EN .s, 1), (RFx_STATUS_CX_GNT .s, 1)] [] fun u => { u with rf := { u.rf with s := { u.rf.s with tx0 := { TxChain.idle with cmd := some ⟨(.ack ⟨5, 104, 1, [1, 0, 0x34, 0x12], 9000000, 0, .ts0⟩), .frame, true, false, 0, 3, [1, 0, 0x34, 0x12], none, some 8000000, false, false, false⟩ } } } }, .s, by decide⟩

/-- ChannelAssessment, the premises for cxRelease. -/
theorem witness_ChannelAssessment_7 : ∃ (s : State) (port : RfPort),
    ((s.u.rf.port port).cxHold = true) :=
  ⟨w [] [] fun u => { u with rf := { u.rf with s := { u.rf.s with cxHold := true } } }, .s, by decide⟩

/-- RfPorts, the premises for rxRecalRequest. -/
theorem witness_RfPorts_1 : ∃ (s : State) (iface : HostIface) (port : RfPort) (value : BitVec 32),
    (s.reaches iface = true) ∧ (s.permits (RFx_RXCAL port) = true) ∧ (value.getLsbD 0 = true) ∧ (s.bit (RFx_STATUS_RX_CAL port) = false) :=
  ⟨w [(GEN_MODE_MODE, 4), (HIF_CFG_SPI_EN, 1)] [] fun u => { u with fuse := { u.fuse with rows := [(0, 0x0F)] } }, .spi, .s, 1, by decide⟩

/-- RfPorts, the premises for sliceWrite. -/
theorem witness_RfPorts_2 : ∃ (s : State) (iface : HostIface) (port : RfPort) (_value : BitVec 32) (_off : Fin 1000000) (_sample : BitVec 64),
    (s.reaches iface = true) ∧ (s.permits (RFx_SLICE port) = true) :=
  ⟨w [(GEN_MODE_MODE, 4), (HIF_CFG_SPI_EN, 1)] [] fun u => { u with fuse := { u.fuse with rows := [(0, 0x0F)] } }, .spi, .s, 0x4190, 0, 0, by decide⟩

/-- RfPorts, the premises for rxRecalStart. -/
theorem witness_RfPorts_3 : ∃ (s : State) (port : RfPort) (_off : Fin 1000000) (_sample : BitVec 64) (r : Recal),
    ((s.u.rf.port port).recal = some r) ∧ (r.running = false) ∧ (s.portSeq port = false) :=
  ⟨w [(GEN_MODE_MODE, 4), (HIF_CFG_SPI_EN, 1)] [] fun u => { u with fuse := { u.fuse with rows := [(0, 0x0F)] }, rf := { u.rf with s := { u.rf.s with recal := some ⟨1, false⟩ } } }, .s, 0, 0, ⟨1, false⟩, by decide⟩

/-- RfPorts, the premises for rxRecalDone. -/
theorem witness_RfPorts_4 : ∃ (s : State) (port : RfPort) (_off : Fin 1000000) (_sample : BitVec 64) (_steps : List (BitVec 10)) (_us : BitVec 16) (r : Recal),
    ((s.u.rf.port port).recal = some r) ∧ (r.running = true) :=
  ⟨w [(GEN_MODE_MODE, 4), (HIF_CFG_SPI_EN, 1)] [] fun u => { u with fuse := { u.fuse with rows := [(0, 0x0F)] }, rf := { u.rf with s := { u.rf.s with recal := some ⟨1, true⟩ } } }, .s, 0, 0, [5, 6], 250, ⟨1, true⟩, by decide⟩

/-- RfPorts, the premises for rxSynthUnlock. -/
theorem witness_RfPorts_5 : ∃ (s : State) (port : RfPort) (_off : Fin 1000000) (_sample : BitVec 64),
    (s.bit (RFx_STATUS_RX_LOCKED port) = true) :=
  ⟨w [(GEN_MODE_MODE, 4), (HIF_CFG_SPI_EN, 1), (RFx_STATUS_RX_LOCKED .s, 1)] [] fun u => { u with fuse := { u.fuse with rows := [(0, 0x0F)] } }, .s, 0, 0, by decide⟩

/-- RfPorts, the premises for dutyBucketAdvance. -/
theorem witness_RfPorts_6 : ∃ (s : State) (port : RfPort) (region : Fin 16),
    (s.dutyBeats port region ≤ (s.dutyRegion port region).beats) :=
  ⟨w [] [] fun u => { u with rf := { u.rf with s := { u.rf.s with duty := [(2, ⟨[7, 8], 3, false⟩)] } } }, .s, 2, by decide⟩

/-- RfPorts, the premises for dutyRegionWrite. -/
theorem witness_RfPorts_7 : ∃ (s : State) (iface : HostIface) (port : RfPort) (region : Fin 16) (value : BitVec 32),
    (s.reaches iface = true) ∧ (s.permits (RFx_DUTYr_BAND port region) = true) ∧ (s.reg (RFx_DUTYr_BAND port region) ≠ storedValue (RFx_DUTYr_BAND port region) value) :=
  ⟨w [(GEN_MODE_MODE, 4), (HIF_CFG_SPI_EN, 1)] [] fun u => { u with fuse := { u.fuse with rows := [(0, 0x0F)] } }, .spi, .s, 2, 5, by decide⟩

/-- AgcAndAnnouncements, the premises for agcClipAttack. -/
theorem witness_AgcAndAnnouncements_1 : ∃ (s : State) (port : RfPort) (_sample : BitVec 64) (_clip : BitVec 64) (samples : Fin 65) (peak : Fin 2048),
    (s.agcOn port = true) ∧ (s.fld (RXD_AGCx_CTL_CLIP_COUNT port) ≤ samples.val) ∧ (s.fld (RXD_AGCx_CTL_CLIP_LEVEL port) ≤ peak.val) :=
  ⟨w [(GEN_MODE_MODE, 4), (BT_STATUS_RUNNING, 1), (RFx_SLICE_EN .s, 1), (RFx_STATUS_RX_LOCKED .s, 1), (RXD_STATUS_S_RUN, 1), (RXD_CHn_CFG_EN 0, 1), (RXD_CHn_CFG_CHANNEL 0, 104), (RXD_CHn_CFG_RATE 0, 1), (RFx_SLICE_CENTRE .s, 400)] [] fun u => { u with rx := { u.rx with decoders := [(0, { Decoder.idle with falses := 0 })] } }, .s, 9, 8, 3, 2000, by decide⟩

/-- AgcAndAnnouncements, the premises for agcLevelDecision. -/
theorem witness_AgcAndAnnouncements_2 : ∃ (s : State) (port : RfPort) (_sample : BitVec 64) (rms : BitVec 16),
    (s.agcOn port = true) ∧ (s.bit (RXD_AGCx_CTL_FREEZE port) = false) ∧ (s.bit (RXD_AGCx_STAT_CLIPPING port) = false) ∧ (0 < s.gain port) ∧ (s.agcTarget port + s.agcHyst port < rms.toInt) :=
  ⟨w [(GEN_MODE_MODE, 4), (BT_STATUS_RUNNING, 1), (RFx_SLICE_EN .s, 1), (RFx_STATUS_RX_LOCKED .s, 1), (RXD_STATUS_S_RUN, 1), (RXD_CHn_CFG_EN 0, 1), (RXD_CHn_CFG_CHANNEL 0, 104), (RXD_CHn_CFG_RATE 0, 1), (RFx_SLICE_CENTRE .s, 400), (RXD_AGCx_STAT_G .s, 12)] [] fun u => { u with rx := { u.rx with decoders := [(0, { Decoder.idle with falses := 0 })] } }, .s, 9, 5, by decide⟩

/-- AgcAndAnnouncements, the premises for agcReleaseDeferEnd. -/
theorem witness_AgcAndAnnouncements_3 : ∃ (s : State) (port : RfPort) (_sample : BitVec 64),
    (s.bit (RXD_AGCx_STAT_DEFERRED port) = true) ∧ (s.bit (RXD_AGCx_CTL_FREEZE port) = false) ∧ (s.gain port < 23) :=
  ⟨w [(GEN_MODE_MODE, 4), (BT_STATUS_RUNNING, 1), (RFx_SLICE_EN .s, 1), (RFx_STATUS_RX_LOCKED .s, 1), (RXD_STATUS_S_RUN, 1), (RXD_CHn_CFG_EN 0, 1), (RXD_CHn_CFG_CHANNEL 0, 104), (RXD_CHn_CFG_RATE 0, 1), (RFx_SLICE_CENTRE .s, 400), (RXD_AGCx_STAT_G .s, 12), (RXD_AGCx_STAT_DEFERRED .s, 1)] [] fun u => { u with rx := { u.rx with decoders := [(0, { Decoder.idle with falses := 0 })] } }, .s, 9, by decide⟩

/-- AgcAndAnnouncements, the premises for gainStepEffective. -/
theorem witness_AgcAndAnnouncements_4 : ∃ (s : State) (port : RfPort) (g : Nat × Nat),
    ((s.u.rx.agc port).next = some g) ∧ (g.1 < 32) :=
  ⟨w [(GEN_MODE_MODE, 4), (BT_STATUS_RUNNING, 1), (RFx_SLICE_EN .s, 1), (RFx_STATUS_RX_LOCKED .s, 1), (RXD_STATUS_S_RUN, 1), (RXD_CHn_CFG_EN 0, 1), (RXD_CHn_CFG_CHANNEL 0, 104), (RXD_CHn_CFG_RATE 0, 1), (RFx_SLICE_CENTRE .s, 400)] [] fun u => { u with rx := { u.rx with decoders := [(0, { Decoder.idle with falses := 0 })], agcS := { Agc.idle with next := some (13, 700) } } }, .s, (13, 700), by decide⟩

/-- AgcAndAnnouncements, the premises for announceRecordApply. -/
theorem witness_AgcAndAnnouncements_6 : ∃ (s : State) (decoder : Fin 80) (_seq : BitVec 8) (processed : BitVec 64) (_reports : List (BitVec 16)) (r : AnnRecord) (rest : List AnnRecord),
    ((s.decoder decoder).held = r :: rest) ∧ (r.kind = 1) ∧ ((s.decoder decoder).last = none) ∧ (processed.toNat ≤ r.sEff) :=
  ⟨w [(GEN_MODE_MODE, 4), (BT_STATUS_RUNNING, 1), (RFx_SLICE_EN .s, 1), (RFx_STATUS_RX_LOCKED .s, 1), (RXD_STATUS_S_RUN, 1), (RXD_CHn_CFG_EN 0, 1), (RXD_CHn_CFG_CHANNEL 0, 104), (RXD_CHn_CFG_RATE 0, 1), (RFx_SLICE_CENTRE .s, 400)] [] fun u => { u with rx := { u.rx with decoders := [(0, { Decoder.idle with held := [⟨4, 1, 800, 800, 0, 9, false⟩] })] } }, 0, 4, 7, [], ⟨4, 1, 800, 800, 0, 9, false⟩, [], by decide⟩

/-- Reception, the premises for preambleDetect. -/
theorem witness_Reception_1 : ∃ (s : State) (decoder : Fin 80) (found : Detection),
    ((s.decoder decoder).p = none) ∧ (s.detects decoder found = true) :=
  ⟨w [(GEN_MODE_MODE, 4), (BT_STATUS_RUNNING, 1), (RFx_SLICE_EN .s, 1), (RFx_STATUS_RX_LOCKED .s, 1), (RXD_STATUS_S_RUN, 1), (RXD_CHn_CFG_EN 0, 1), (RXD_CHn_CFG_CHANNEL 0, 104), (RXD_CHn_CFG_RATE 0, 1), (RFx_SLICE_CENTRE .s, 400)] [] fun u => { u with rx := { u.rx with decoders := [(0, { Decoder.idle with falses := 0 })] } }, 0, ⟨900, 900, 255, 0xFEE8, 0xFE70, 0⟩, by decide⟩

/-- Reception, the premises for watchDetect. -/
theorem witness_Reception_2 : ∃ (s : State) (decoder : Fin 80) (found : Detection) (p : RxCtx),
    ((s.decoder decoder).p = some p) ∧ ((s.decoder decoder).w = none) ∧ (p.phase = 3) ∧ (s.detects decoder found = true) ∧ (above p (ctxOf (s.decoder decoder) (s.chDfe decoder) true found) (s.fld RXD_CAPTURE_CAPTURE_DB) = false) :=
  ⟨w [(GEN_MODE_MODE, 4), (BT_STATUS_RUNNING, 1), (RFx_SLICE_EN .s, 1), (RFx_STATUS_RX_LOCKED .s, 1), (RXD_STATUS_S_RUN, 1), (RXD_CHn_CFG_EN 0, 1), (RXD_CHn_CFG_CHANNEL 0, 104), (RXD_CHn_CFG_RATE 0, 1), (RFx_SLICE_CENTRE .s, 400), (RXD_CAPTURE_CAPTURE_DB, 20)] [] fun u => { u with rx := { u.rx with decoders := [(0, { Decoder.idle with p := some ⟨3, 900, -280, -400, 0, 0, false, false, false, [], 0⟩ })] } }, 0, ⟨900, 900, 255, 0xFEE8, 0xFE70, 0⟩, ⟨3, 900, -280, -400, 0, 0, false, false, false, [], 0⟩, by decide⟩

/-- Reception, the premises for sfdMatch. -/
theorem witness_Reception_3 : ∃ (s : State) (decoder : Fin 80) (_start : BitVec 64) (c : RxCtx),
    ((s.decoder decoder).p = some c) ∧ ((s.decoder decoder).w = none) ∧ (c.phase = 2) :=
  ⟨w [(GEN_MODE_MODE, 4), (BT_STATUS_RUNNING, 1), (RFx_SLICE_EN .s, 1), (RFx_STATUS_RX_LOCKED .s, 1), (RXD_STATUS_S_RUN, 1), (RXD_CHn_CFG_EN 0, 1), (RXD_CHn_CFG_CHANNEL 0, 104), (RXD_CHn_CFG_RATE 0, 1), (RFx_SLICE_CENTRE .s, 400)] [] fun u => { u with rx := { u.rx with decoders := [(0, { Decoder.idle with p := some ⟨2, 900, -280, -400, 0, 0, false, false, false, [], 0⟩ })] } }, 0, 950, ⟨2, 900, -280, -400, 0, 0, false, false, false, [], 0⟩, by decide⟩

/-- Reception, the premises for sfdTimeout. -/
theorem witness_Reception_4 : ∃ (s : State) (decoder : Fin 80) (c : RxCtx),
    ((s.decoder decoder).p = some c) ∧ (c.phase = 2) :=
  ⟨w [(GEN_MODE_MODE, 4), (BT_STATUS_RUNNING, 1), (RFx_SLICE_EN .s, 1), (RFx_STATUS_RX_LOCKED .s, 1), (RXD_STATUS_S_RUN, 1), (RXD_CHn_CFG_EN 0, 1), (RXD_CHn_CFG_CHANNEL 0, 104), (RXD_CHn_CFG_RATE 0, 1), (RFx_SLICE_CENTRE .s, 400)] [] fun u => { u with rx := { u.rx with decoders := [(0, { Decoder.idle with p := some ⟨2, 900, -280, -400, 0, 0, false, false, false, [], 0⟩ })] } }, 0, ⟨2, 900, -280, -400, 0, 0, false, false, false, [], 0⟩, by decide⟩

/-- Reception, the premises for headerDecoded. -/
theorem witness_Reception_5 : ∃ (s : State) (decoder : Fin 80) (block : BitVec 32) (c : RxCtx),
    ((s.decoder decoder).p = some c) ∧ ((s.decoder decoder).w = none) ∧ (c.phase = 3) ∧ (headerStatus block.toNat (s.chRate decoder) = rxOk) :=
  ⟨w [(GEN_MODE_MODE, 4), (BT_STATUS_RUNNING, 1), (RFx_SLICE_EN .s, 1), (RFx_STATUS_RX_LOCKED .s, 1), (RXD_STATUS_S_RUN, 1), (RXD_CHn_CFG_EN 0, 1), (RXD_CHn_CFG_CHANNEL 0, 104), (RXD_CHn_CFG_RATE 0, 1), (RFx_SLICE_CENTRE .s, 400)] [] fun u => { u with rx := { u.rx with decoders := [(0, { Decoder.idle with p := some ⟨3, 900, -280, -400, 0, 0, false, false, false, [], 0⟩ })] } }, 0, BitVec.ofNat 32 (Air.headerBlock (Air.headerWord 1 20 false)), ⟨3, 900, -280, -400, 0, 0, false, false, false, [], 0⟩, by decide⟩

/-- Reception, the premises for codewordEnd. -/
theorem witness_Reception_6 : ∃ (s : State) (decoder : Fin 80) (_soft : List Soft) (c : RxCtx) (f : RxFrame),
    ((s.decoder decoder).p = some c) ∧ (c.phase = 4) ∧ (s.rxFrame c.frame = some f) ∧ (f.cws.length < Air.codewords f.rate f.length) :=
  ⟨w [(GEN_MODE_MODE, 4), (BT_STATUS_RUNNING, 1), (RFx_SLICE_EN .s, 1), (RFx_STATUS_RX_LOCKED .s, 1), (RXD_STATUS_S_RUN, 1), (RXD_CHn_CFG_EN 0, 1), (RXD_CHn_CFG_CHANNEL 0, 104), (RXD_CHn_CFG_RATE 0, 1), (RFx_SLICE_CENTRE .s, 400)] [] fun u => { u with rx := { u.rx with decoders := [(0, { Decoder.idle with p := some ⟨4, 900, -280, -400, 0, 0, false, false, false, [], 0⟩ })], frames := [⟨0, 0, 1, 20, false, 900, 5000, -280, -400, 0, 0, 0, false, false, []⟩] } }, 0, [], ⟨4, 900, -280, -400, 0, 0, false, false, false, [], 0⟩, ⟨0, 0, 1, 20, false, 900, 5000, -280, -400, 0, 0, 0, false, false, []⟩, by decide⟩

/-- Reception, the premises for rxFrameEnd. -/
theorem witness_Reception_7 : ∃ (s : State) (decoder : Fin 80) (c : RxCtx) (f : RxFrame),
    ((s.decoder decoder).p = some c) ∧ (c.phase = 4) ∧ (s.rxFrame c.frame = some f) ∧ (f.cws.length = Air.codewords f.rate f.length) :=
  ⟨w [(GEN_MODE_MODE, 4), (BT_STATUS_RUNNING, 1), (RFx_SLICE_EN .s, 1), (RFx_STATUS_RX_LOCKED .s, 1), (RXD_STATUS_S_RUN, 1), (RXD_CHn_CFG_EN 0, 1), (RXD_CHn_CFG_CHANNEL 0, 104), (RXD_CHn_CFG_RATE 0, 1), (RFx_SLICE_CENTRE .s, 400)] [] fun u => { u with rx := { u.rx with decoders := [(0, { Decoder.idle with p := some ⟨4, 900, -280, -400, 0, 0, false, false, false, [], 0⟩ })], frames := [⟨0, 0, 1, 20, false, 900, 5000, -280, -400, 0, 0, 0, false, false, [⟨3, [], .waiting⟩]⟩] } }, 0, ⟨4, 900, -280, -400, 0, 0, false, false, false, [], 0⟩, ⟨0, 0, 1, 20, false, 900, 5000, -280, -400, 0, 0, 0, false, false, [⟨3, [], .waiting⟩]⟩, by decide⟩

/-- Reception, the premises for ldpcDispatch. -/
theorem witness_Reception_8 : ∃ (s : State) (r : LdpcReq) (k : Nat),
    (nextReq (s.u.rx.reqs.filter fun r => r.core.isNone) = some r) ∧ (s.freeLdpc = some k) :=
  ⟨w [(GEN_MODE_MODE, 4), (BT_STATUS_RUNNING, 1), (RFx_SLICE_EN .s, 1), (RFx_STATUS_RX_LOCKED .s, 1), (RXD_STATUS_S_RUN, 1), (RXD_CHn_CFG_EN 0, 1), (RXD_CHn_CFG_CHANNEL 0, 104), (RXD_CHn_CFG_RATE 0, 1), (RFx_SLICE_CENTRE .s, 400)] [] fun u => { u with rx := { u.rx with decoders := [(0, { Decoder.idle with falses := 0 })], reqs := [⟨0, 0, 3, none, 20, [], none⟩] } }, ⟨0, 0, 3, none, 20, [], none⟩, 0, by decide⟩

/-- Reception, the premises for ldpcDecodeDone. -/
theorem witness_Reception_9 : ∃ (s : State) (core : Fin 8) (_hard : BitVec 1152) (_iterations : Fin 33) (r : LdpcReq) (f : RxFrame),
    ((s.u.rx.reqs.find? fun r => r.core == some core.val) = some r) ∧ (s.rxFrame r.frame = some f) :=
  ⟨w [(GEN_MODE_MODE, 4), (BT_STATUS_RUNNING, 1), (RFx_SLICE_EN .s, 1), (RFx_STATUS_RX_LOCKED .s, 1), (RXD_STATUS_S_RUN, 1), (RXD_CHn_CFG_EN 0, 1), (RXD_CHn_CFG_CHANNEL 0, 104), (RXD_CHn_CFG_RATE 0, 1), (RFx_SLICE_CENTRE .s, 400)] [] fun u => { u with rx := { u.rx with decoders := [(0, { Decoder.idle with falses := 0 })], frames := [⟨0, 0, 1, 20, false, 900, 5000, -280, -400, 0, 0, 0, false, false, [⟨3, [], .waiting⟩]⟩], reqs := [⟨0, 0, 3, none, 20, [], some 0⟩] } }, 0, 0, 3, ⟨0, 0, 3, none, 20, [], some 0⟩, ⟨0, 0, 1, 20, false, 900, 5000, -280, -400, 0, 0, 0, false, false, [⟨3, [], .waiting⟩]⟩, by decide⟩

/-- Reception, the premises for decoderCfgWrite. -/
theorem witness_Reception_10 : ∃ (s : State) (iface : HostIface) (decoder : Fin 80) (value : BitVec 32),
    (s.reaches iface = true) ∧ (s.permits (RXD_CHn_CFG decoder) = true) ∧ (s.reg (RXD_CHn_CFG decoder) ≠ storedValue (RXD_CHn_CFG decoder) value) :=
  ⟨w [(GEN_MODE_MODE, 4), (BT_STATUS_RUNNING, 1), (RFx_SLICE_EN .s, 1), (RFx_STATUS_RX_LOCKED .s, 1), (RXD_STATUS_S_RUN, 1), (RXD_CHn_CFG_EN 0, 1), (RXD_CHn_CFG_CHANNEL 0, 104), (RXD_CHn_CFG_RATE 0, 1), (RFx_SLICE_CENTRE .s, 400), (HIF_CFG_SPI_EN, 1)] [] fun u => { u with rx := { u.rx with decoders := [(0, { Decoder.idle with p := some ⟨2, 900, -280, -400, 0, 0, false, false, false, [], 0⟩ })] }, fuse := { u.fuse with rows := [(0, 0x0F)] } }, .spi, 0, 0, by decide⟩

/-- Reception, the premises for captureCfgWrite. -/
theorem witness_Reception_11 : ∃ (s : State) (iface : HostIface) (_value : BitVec 32),
    (s.reaches iface = true) ∧ (s.permits RXD_CAPTURE = true) :=
  ⟨w [(GEN_MODE_MODE, 4), (BT_STATUS_RUNNING, 1), (RFx_SLICE_EN .s, 1), (RFx_STATUS_RX_LOCKED .s, 1), (RXD_STATUS_S_RUN, 1), (RXD_CHn_CFG_EN 0, 1), (RXD_CHn_CFG_CHANNEL 0, 104), (RXD_CHn_CFG_RATE 0, 1), (RFx_SLICE_CENTRE .s, 400), (HIF_CFG_SPI_EN, 1)] [] fun u => { u with rx := { u.rx with decoders := [(0, { Decoder.idle with falses := 0 })] }, fuse := { u.fuse with rows := [(0, 0x0F)] } }, .spi, 5, by decide⟩

/-- FrameChecks, the premises for macFrameReceived. -/
theorem witness_FrameChecks_1 : ∃ (s : State) (d : RxDesc) (rest : List RxDesc),
    (s.u.rx.handoff = d :: rest) :=
  ⟨w [(GEN_MODE_MODE, 4), (BT_STATUS_RUNNING, 1)] [] fun u => { u with mac := { u.mac with rejects := 0 }, bt := { u.bt with beat := 12 }, rx := { u.rx with handoff := [⟨⟨0, 0, 1, 33, false, 900, 5000, -280, -400, 0, 0, 0, true, true, []⟩, 0, 12, []⟩] } }, ⟨⟨0, 0, 1, 33, false, 900, 5000, -280, -400, 0, 0, 0, true, true, []⟩, 0, 12, []⟩, [], by decide⟩

/-- FrameChecks, the premises for macRecordFetched. -/
theorem witness_FrameChecks_2 : ∃ (s : State) (index : Fin 256) (f : MacFrame),
    (s.macFrame index = some f) ∧ (f.stage = .record) ∧ (s.macBlocked index = false) ∧ ((parseMac f.bytes).typ ≠ 4) ∧ (s.recValid (parseMac f.bytes).src = false) :=
  ⟨w [(GEN_MODE_MODE, 4), (BT_STATUS_RUNNING, 1)] [] fun u => { u with mac := { u.mac with frames := [⟨0, ⟨0, 0, 1, 33, false, 900, 5000, -280, -400, 0, 0, 0, true, true, []⟩, 12, [0x28, 0x05, 0x34, 0x12, 0, 0, 0, 1, 1, 0, 6, 16, 0, 5, 0, 0, 0, 7, 1, 2, 3, 0, 0, 0, 0, 0, 0, 0, 0, 0, 0, 0, 0], .record, [], [], [], false⟩] }, bt := { u.bt with beat := 12 } }, 0, ⟨0, ⟨0, 0, 1, 33, false, 900, 5000, -280, -400, 0, 0, 0, true, true, []⟩, 12, [0x28, 0x05, 0x34, 0x12, 0, 0, 0, 1, 1, 0, 6, 16, 0, 5, 0, 0, 0, 7, 1, 2, 3, 0, 0, 0, 0, 0, 0, 0, 0, 0, 0, 0, 0], .record, [], [], [], false⟩, by decide⟩

/-- FrameChecks, the premises for macLinkKeyReady. -/
theorem witness_FrameChecks_3 : ∃ (s : State) (index : Fin 256) (f : MacFrame),
    (s.macFrame index = some f) ∧ (f.stage = .key) ∧ (s.macBlocked index = false) ∧ ((s.slot (s.frameLabel (parseMac f.bytes).key false (parseMac f.bytes).epoch).1).state = .empty) :=
  ⟨w [(GEN_MODE_MODE, 4), (BT_STATUS_RUNNING, 1)] [] fun u => { u with mac := { u.mac with frames := [⟨0, ⟨0, 0, 1, 33, false, 900, 5000, -280, -400, 0, 0, 0, true, true, []⟩, 12, [0x28, 0x05, 0x34, 0x12, 0, 0, 0, 1, 1, 0, 6, 16, 0, 5, 0, 0, 0, 7, 1, 2, 3, 0, 0, 0, 0, 0, 0, 0, 0, 0, 0, 0, 0], .key, [], [], [], false⟩] }, bt := { u.bt with beat := 12 } }, 0, ⟨0, ⟨0, 0, 1, 33, false, 900, 5000, -280, -400, 0, 0, 0, true, true, []⟩, 12, [0x28, 0x05, 0x34, 0x12, 0, 0, 0, 1, 1, 0, 6, 16, 0, 5, 0, 0, 0, 7, 1, 2, 3, 0, 0, 0, 0, 0, 0, 0, 0, 0, 0, 0, 0], .key, [], [], [], false⟩, by decide⟩

/-- FrameChecks, the premises for macLinkMicDone. -/
theorem witness_FrameChecks_4 : ∃ (s : State) (index : Fin 256) (_off : Fin 1000000) (f : MacFrame),
    (s.macFrame index = some f) ∧ (f.stage = .mic) ∧ (s.macBlocked index = false) ∧ (s.lateHere f false = false) ∧ (linkOpen f.key f.bytes (parseMac f.bytes) = none) :=
  ⟨w [(GEN_MODE_MODE, 4), (BT_STATUS_RUNNING, 1)] [] fun u => { u with mac := { u.mac with frames := [⟨0, ⟨0, 0, 1, 33, false, 900, 5000, -280, -400, 0, 0, 0, true, true, []⟩, 12, [0x28, 0x05, 0x34, 0x12, 0, 0, 0, 1, 1, 0, 6, 16, 0, 5, 0, 0, 0, 7, 1, 2, 3, 0, 0, 0, 0, 0, 0, 0, 0, 0, 0, 0, 0], .mic, [0,0,0,0,0,0,0,0,0,0,0,0,0,0,0,0], [], [], false⟩] }, bt := { u.bt with beat := 12 } }, 0, 0, ⟨0, ⟨0, 0, 1, 33, false, 900, 5000, -280, -400, 0, 0, 0, true, true, []⟩, 12, [0x28, 0x05, 0x34, 0x12, 0, 0, 0, 1, 1, 0, 6, 16, 0, 5, 0, 0, 0, 7, 1, 2, 3, 0, 0, 0, 0, 0, 0, 0, 0, 0, 0, 0, 0], .mic, [0,0,0,0,0,0,0,0,0,0,0,0,0,0,0,0], [], [], false⟩, by decide +kernel⟩

/-- FrameChecks, the premises for macE2eCheckDone. -/
theorem witness_FrameChecks_5 : ∃ (s : State) (index : Fin 256) (f : MacFrame),
    (s.macFrame index = some f) ∧ (f.stage = .e2e) ∧ (s.macBlocked index = false) ∧ (s.lateHere f true = false) ∧ (s.recValid (parseMac f.bytes).origin = false) :=
  ⟨w [(GEN_MODE_MODE, 4), (BT_STATUS_RUNNING, 1)] [] fun u => { u with mac := { u.mac with frames := [⟨0, ⟨0, 0, 1, 33, false, 900, 5000, -280, -400, 0, 0, 0, true, true, []⟩, 12, [0x28, 0x05, 0x34, 0x12, 0, 0, 0, 1, 1, 0, 6, 16, 0, 5, 0, 0, 0, 7, 1, 2, 3, 0, 0, 0, 0, 0, 0, 0, 0, 0, 0, 0, 0], .e2e, [], [], [], false⟩] }, bt := { u.bt with beat := 12 } }, 0, ⟨0, ⟨0, 0, 1, 33, false, 900, 5000, -280, -400, 0, 0, 0, true, true, []⟩, 12, [0x28, 0x05, 0x34, 0x12, 0, 0, 0, 1, 1, 0, 6, 16, 0, 5, 0, 0, 0, 7, 1, 2, 3, 0, 0, 0, 0, 0, 0, 0, 0, 0, 0, 0, 0], .e2e, [], [], [], false⟩, by decide⟩

/-- FrameChecks, the premises for macRecordFetched. -/
theorem witness_FrameChecks_6 : ∃ (s : State) (index : Fin 256) (f : MacFrame),
    (s.macFrame index = some f) ∧ (f.stage = .record) ∧ (s.macBlocked index = false) ∧ ((parseMac f.bytes).typ ≠ 4) :=
  ⟨w [(GEN_MODE_MODE, 4), (BT_STATUS_RUNNING, 1)] [] fun u => { u with mac := { u.mac with frames := [⟨0, ⟨0, 0, 1, 33, false, 900, 5000, -280, -400, 0, 0, 0, true, true, []⟩, 12, [0x28, 0x05, 0x34, 0x12, 0, 0, 0, 1, 1, 0, 6, 16, 0, 5, 0, 0, 0, 7, 1, 2, 3, 0, 0, 0, 0, 0, 0, 0, 0, 0, 0, 0, 0], .record, [], [], [], false⟩] }, bt := { u.bt with beat := 12 } }, 0, ⟨0, ⟨0, 0, 1, 33, false, 900, 5000, -280, -400, 0, 0, 0, true, true, []⟩, 12, [0x28, 0x05, 0x34, 0x12, 0, 0, 0, 1, 1, 0, 6, 16, 0, 5, 0, 0, 0, 7, 1, 2, 3, 0, 0, 0, 0, 0, 0, 0, 0, 0, 0, 0, 0], .record, [], [], [], false⟩, by decide⟩

/-- FrameChecks, the premises for macRecordFetched. -/
theorem witness_FrameChecks_7 : ∃ (s : State) (index : Fin 256) (f : MacFrame),
    (s.macFrame index = some f) ∧ (f.stage = .record) ∧ (s.macBlocked index = false) ∧ (s.recValid (parseMac f.bytes).src = true) ∧ (s.linkOutcome f.bytes (parseMac f.bytes) ≠ 3) :=
  ⟨{ (w [(GEN_MODE_MODE, 4), (BT_STATUS_RUNNING, 1)] [] fun u => { u with mac := { u.mac with frames := [⟨0, ⟨0, 0, 1, 33, false, 900, 5000, -280, -400, 0, 0, 0, true, true, []⟩, 12, [40, 5, 52, 18, 0, 0, 0, 1, 1, 0, 6, 16, 0, 5, 0, 0, 0, 212, 41, 177, 25, 192, 38, 58, 148, 35, 64, 4, 35, 72, 130, 156, 153], .record, [], [], [], false⟩] }, bt := { u.bt with beat := 12 } }) with mem := [(65792, 1), (65793, 1), (65795, 2)] }, 0, ⟨0, ⟨0, 0, 1, 33, false, 900, 5000, -280, -400, 0, 0, 0, true, true, []⟩, 12, [40, 5, 52, 18, 0, 0, 0, 1, 1, 0, 6, 16, 0, 5, 0, 0, 0, 212, 41, 177, 25, 192, 38, 58, 148, 35, 64, 4, 35, 72, 130, 156, 153], .record, [], [], [], false⟩, by decide⟩

/-- FrameChecks, the premises for macLinkKeyReady. -/
theorem witness_FrameChecks_8 : ∃ (s : State) (index : Fin 256) (f : MacFrame) (key : List Nat),
    (s.macFrame index = some f) ∧ (f.stage = .key) ∧ (s.macBlocked index = false) ∧ ((s.slot (s.frameLabel (parseMac f.bytes).key false (parseMac f.bytes).epoch).1).state = .valid) ∧ (s.cached (s.frameLabel (parseMac f.bytes).key false (parseMac f.bytes).epoch).1 (s.frameLabel (parseMac f.bytes).key false (parseMac f.bytes).epoch).2 = some key) :=
  ⟨w [(GEN_MODE_MODE, 4), (BT_STATUS_RUNNING, 1), (SEC_CACHE_CFG_EN, 1)] [] fun u => { u with mac := { u.mac with frames := [⟨0, ⟨0, 0, 1, 33, false, 900, 5000, -280, -400, 0, 0, 0, true, true, []⟩, 12, [40, 5, 52, 18, 0, 0, 0, 1, 1, 0, 6, 16, 0, 5, 0, 0, 0, 212, 41, 177, 25, 192, 38, 58, 148, 35, 64, 4, 35, 72, 130, 156, 153], .key, [], [], [], false⟩] }, bt := { u.bt with beat := 12 }, sec := { u.sec with slots := [(0, { KeySlot.zeroed with state := .valid })], cache := [⟨0, 0, [2, 1, 0, 1, 0, 0, 1, 1, 0, 0, 0, 0, 0, 0, 0, 0, 0, 0, 16, 0, 0, 0, 0, 0, 80, 76, 73, 85, 82, 65, 75, 68], [0, 0, 0, 0, 0, 0, 0, 0, 0, 0, 0, 0, 0, 0, 0, 0], 99⟩] } }, 0, ⟨0, ⟨0, 0, 1, 33, false, 900, 5000, -280, -400, 0, 0, 0, true, true, []⟩, 12, [40, 5, 52, 18, 0, 0, 0, 1, 1, 0, 6, 16, 0, 5, 0, 0, 0, 212, 41, 177, 25, 192, 38, 58, 148, 35, 64, 4, 35, 72, 130, 156, 153], .key, [], [], [], false⟩, [0, 0, 0, 0, 0, 0, 0, 0, 0, 0, 0, 0, 0, 0, 0, 0], by decide⟩

/-- FrameChecks, the premises for macLinkMicDone. -/
theorem witness_FrameChecks_9 : ∃ (s : State) (index : Fin 256) (_off : Fin 1000000) (f : MacFrame) (body : List Byte),
    (s.macFrame index = some f) ∧ (f.stage = .mic) ∧ (s.macBlocked index = false) ∧ (s.lateHere f false = false) ∧ (linkOpen f.key f.bytes (parseMac f.bytes) = some body) ∧ (s.recValid (parseMac f.bytes).src = true) ∧ ((parseMac f.bytes).directJoin = false) :=
  ⟨{ (w [(GEN_MODE_MODE, 4), (BT_STATUS_RUNNING, 1)] [] fun u => { u with mac := { u.mac with frames := [⟨0, ⟨0, 0, 1, 33, false, 900, 5000, -280, -400, 0, 0, 0, true, true, []⟩, 12, [40, 5, 52, 18, 0, 0, 0, 1, 1, 0, 6, 16, 0, 5, 0, 0, 0, 212, 41, 177, 25, 192, 38, 58, 148, 35, 64, 4, 35, 72, 130, 156, 153], .mic, [0, 0, 0, 0, 0, 0, 0, 0, 0, 0, 0, 0, 0, 0, 0, 0], [], [], false⟩] }, bt := { u.bt with beat := 12 } }) with mem := [(65792, 1), (65793, 1), (65795, 2)] }, 0, 0, ⟨0, ⟨0, 0, 1, 33, false, 900, 5000, -280, -400, 0, 0, 0, true, true, []⟩, 12, [40, 5, 52, 18, 0, 0, 0, 1, 1, 0, 6, 16, 0, 5, 0, 0, 0, 212, 41, 177, 25, 192, 38, 58, 148, 35, 64, 4, 35, 72, 130, 156, 153], .mic, [0, 0, 0, 0, 0, 0, 0, 0, 0, 0, 0, 0, 0, 0, 0, 0], [], [], false⟩, [7, 1, 2, 3], by decide +kernel⟩

/-- FrameChecks, the premises for macE2eCheckDone. -/
theorem witness_FrameChecks_10 : ∃ (s : State) (index : Fin 256) (f : MacFrame) (key : List Nat) (plain : List Byte),
    (s.macFrame index = some f) ∧ (f.stage = .e2e) ∧ (s.macBlocked index = false) ∧ (s.lateHere f true = false) ∧ (s.recValid (parseMac f.bytes).origin = true) ∧ ((s.slot (s.frameLabel (.e2e (parseMac f.bytes).origin) false (parseMac f.bytes).e2eEpoch).1).state = .valid) ∧ (s.cached (s.frameLabel (.e2e (parseMac f.bytes).origin) false (parseMac f.bytes).e2eEpoch).1 (s.frameLabel (.e2e (parseMac f.bytes).origin) false (parseMac f.bytes).e2eEpoch).2 = some key) ∧ (e2eOpen key f.bytes (parseMac f.bytes) f.body = some plain) ∧ (s.recFlag (parseMac f.bytes).origin 6 = false) :=
  ⟨{ (w [(GEN_MODE_MODE, 4), (BT_STATUS_RUNNING, 1), (SEC_CACHE_CFG_EN, 1)] [] fun u => { u with mac := { u.mac with frames := [⟨0, ⟨0, 0, 1, 33, false, 900, 5000, -280, -400, 0, 0, 0, true, true, []⟩, 12, [168, 5, 52, 18, 0, 0, 0, 1, 1, 0, 6, 16, 0, 5, 0, 0, 0, 6, 2, 0, 9, 0, 0, 0], .e2e, [], [79, 244, 230, 202, 150, 103, 153, 28, 106, 72, 126, 89], [], false⟩] }, bt := { u.bt with beat := 12 }, sec := { u.sec with slots := [(0, { KeySlot.zeroed with state := .valid })], cache := [⟨0, 0, [3, 1, 0, 1, 0, 0, 1, 1, 0, 0, 0, 0, 0, 0, 0, 0, 0, 0, 2, 0, 0, 0, 0, 0, 80, 76, 73, 85, 82, 65, 75, 68], [0, 0, 0, 0, 0, 0, 0, 0, 0, 0, 0, 0, 0, 0, 0, 0], 99⟩] } }) with mem := [(65792, 1), (65793, 1), (65795, 2)] }, 0, ⟨0, ⟨0, 0, 1, 33, false, 900, 5000, -280, -400, 0, 0, 0, true, true, []⟩, 12, [168, 5, 52, 18, 0, 0, 0, 1, 1, 0, 6, 16, 0, 5, 0, 0, 0, 6, 2, 0, 9, 0, 0, 0], .e2e, [], [79, 244, 230, 202, 150, 103, 153, 28, 106, 72, 126, 89], [], false⟩, [0, 0, 0, 0, 0, 0, 0, 0, 0, 0, 0, 0, 0, 0, 0, 0], [7, 1, 2, 3], by decide +kernel⟩

/-- FrameChecks, the premises for ackReceived. -/
theorem witness_FrameChecks_11 : ∃ (s : State) (index : Fin 256) (f : MacFrame),
    (s.macFrame index = some f) ∧ (f.stage = .ack) :=
  ⟨w [(GEN_MODE_MODE, 4), (BT_STATUS_RUNNING, 1)] [] fun u => { u with mac := { u.mac with frames := [⟨0, ⟨0, 0, 1, 33, false, 900, 5000, -280, -400, 0, 0, 0, true, true, []⟩, 12, [0x28, 0x05, 0x34, 0x12, 0, 0, 0, 1, 1, 0, 6, 16, 0, 5, 0, 0, 0, 7, 1, 2, 3, 0, 0, 0, 0, 0, 0, 0, 0, 0, 0, 0, 0], .ack, [], [], [], false⟩] }, bt := { u.bt with beat := 12 } }, 0, ⟨0, ⟨0, 0, 1, 33, false, 900, 5000, -280, -400, 0, 0, 0, true, true, []⟩, 12, [0x28, 0x05, 0x34, 0x12, 0, 0, 0, 1, 1, 0, 6, 16, 0, 5, 0, 0, 0, 7, 1, 2, 3, 0, 0, 0, 0, 0, 0, 0, 0, 0, 0, 0, 0], .ack, [], [], [], false⟩, by decide⟩

/-- WindowsAndBeacons, the premises for ackWaitExpiry. -/
theorem witness_WindowsAndBeacons_1 : ∃ (s : State) (index : Fin 256) (_draw : Fin 256) (off : Fin 1000000) (x : AckWait),
    (s.u.mac.waits[index.val]? = some x) ∧ (x.stopNs + turnaroundNs x.rate + 1000 * s.fld MAC_ACK_WIN_US + 160 * symbolNs x.rate ≤ s.atNs off) :=
  ⟨w [(GEN_MODE_MODE, 4), (BT_STATUS_RUNNING, 1)] [] fun u => { u with mac := { u.mac with rejects := 0, waits := [⟨⟨.s, 0, some 0x100, 0, 0, 0, 0, 20, 9000000, 9100000, 9200000⟩, 104, 1, 1, [0, 0], 9500000⟩] }, bt := { u.bt with beat := 30 } }, 0, 3, 0, ⟨⟨.s, 0, some 0x100, 0, 0, 0, 0, 20, 9000000, 9100000, 9200000⟩, 104, 1, 1, [0, 0], 9500000⟩, by decide⟩

/-- WindowsAndBeacons, the premises for listenWindowOpen. -/
theorem witness_WindowsAndBeacons_2 : ∃ (s : State) (node : BitVec 24) (off : Fin 1000000) (l : Listen),
    (s.listenOf node.toNat = some l) ∧ (l.opened = false) ∧ (l.openNs ≤ s.atNs off) ∧ (s.pendList node.toNat = []) :=
  ⟨w [(GEN_MODE_MODE, 4), (BT_STATUS_RUNNING, 1)] [] fun u => { u with mac := { u.mac with rejects := 0, listens := [⟨5, 1000000, 2000000, false, 3, 0, [], false, [], false⟩] }, bt := { u.bt with beat := 12 } }, 5, 0, ⟨5, 1000000, 2000000, false, 3, 0, [], false, [], false⟩, by decide⟩

/-- WindowsAndBeacons, the premises for listenWindowClose. -/
theorem witness_WindowsAndBeacons_3 : ∃ (s : State) (node : BitVec 24) (off : Fin 1000000) (l : Listen),
    (s.listenOf node.toNat = some l) ∧ (l.opened = true) ∧ (l.closeNs ≤ s.atNs off) ∧ ((s.u.mac.listens.filter fun x => x.nsa == node.toNat) = [l]) :=
  ⟨w [(GEN_MODE_MODE, 4), (BT_STATUS_RUNNING, 1)] [] fun u => { u with mac := { u.mac with rejects := 0, listens := [⟨5, 1000000, 2000000, true, 3, 0, [], false, [], false⟩] }, bt := { u.bt with beat := 12 } }, 5, 0, ⟨5, 1000000, 2000000, true, 3, 0, [], false, [], false⟩, by decide⟩

/-- WindowsAndBeacons, the premises for pollWindowClose. -/
theorem witness_WindowsAndBeacons_4 : ∃ (s : State) (node : BitVec 24) (off : Fin 1000000) (a : Nat) (p : Nat),
    (s.pollPlan node.toNat = some (a, p)) ∧ (s.shadows = false) ∧ (a + p * 1000000000 + s.pollGuard p 1 ≤ s.atNs off) :=
  ⟨{ (w [(GEN_MODE_MODE, 4), (BT_STATUS_RUNNING, 1)] [] fun u => { u with mac := { u.mac with rejects := 0 }, bt := { u.bt with beat := 3000 } }) with mem := [(1280, 5), (1283, 10), (1302, 1), (1336, 1)] }, 5, 0, 1000000000, 1, by decide⟩

/-- WindowsAndBeacons, the premises for beaconSkipDeadline. -/
theorem witness_WindowsAndBeacons_5 : ∃ (s : State) (decoder : Fin 80) (b : BeaconQ),
    (s.u.mac.beacons = [b]) ∧ (b.decoder = decoder) ∧ (b.nominal + s.fld MAC_BEACON_PERIOD_MS / 2 ≤ s.workBeat) ∧ (s.started b.queue b.start = false) :=
  ⟨w [(GEN_MODE_MODE, 4), (BT_STATUS_RUNNING, 1)] [] fun u => { u with mac := { u.mac with rejects := 0, beacons := [⟨0, 5, 3, 0⟩] }, bt := { u.bt with beat := 12 } }, 0, ⟨0, 5, 3, 0⟩, by decide⟩

/-- WindowsAndBeacons, the premises for beaconDue. -/
theorem witness_WindowsAndBeacons_6 : ∃ (s : State) (decoder : Fin 80) (_cls : Fin 4) (key : List Nat),
    (s.meshRuns = true) ∧ (s.beaconOn decoder = true) ∧ (s.beaconDue decoder s.workBeat = true) ∧ (s.storedCtr .bcast < ctrWarn - 1) ∧ ((s.slot (s.frameLabel .bcast true s.epoch).1).state = .valid) ∧ (s.cached (s.frameLabel .bcast true s.epoch).1 (s.frameLabel .bcast true s.epoch).2 = some key) :=
  ⟨w [(GEN_MODE_MODE, 4), (BT_STATUS_RUNNING, 1), (MAC_BEACON_EN, 1), (MAC_BEACON_PERIOD_MS, 20), (RXD_CHn_CFG_EN 0, 1), (SEC_CACHE_CFG_EN, 1)] [(MAC_BEACON_EN0, 1)] fun u => { u with mac := { u.mac with rejects := 0 }, bt := { u.bt with beat := 40 }, sec := { u.sec with slots := [(0, { KeySlot.zeroed with state := .valid })], cache := [⟨0, 0, labelOf 5 0 0 0 0 0 0, [1], 99⟩] } }, 0, 0, [1], by decide⟩

/-- WindowsAndBeacons, the premises for pollStage. -/
theorem witness_WindowsAndBeacons_7 : ∃ (s : State) (node : BitVec 24) (off : Fin 1000000) (a : Nat) (p : Nat) (x : Nat) (key : List Nat),
    (s.pollPlan node.toNat = some (a, p)) ∧ (a + p * 1000000000 ≤ s.atNs off + s.pollGuard p 1 + 1000000 * s.fld MAC_POLL_STAGE_MS) ∧ (s.atNs off ≤ a + p * 1000000000 + s.pollGuard p 1) ∧ (s.pendList node.toNat = [x]) ∧ (s.pendSealed x = false) ∧ ((parseMac (s.pendFrame x)).typ = 0) ∧ ((parseMac (s.pendFrame x)).pend = false) ∧ ((parseMac (s.pendFrame x)).e2e = false) ∧ (s.storedCtr (.link node.toNat) < ctrWarn - 1) ∧ ((s.slot (s.frameLabel (.link node.toNat) true s.epoch).1).state = .valid) ∧ (s.cached (s.frameLabel (.link node.toNat) true s.epoch).1 (s.frameLabel (.link node.toNat) true s.epoch).2 = some key) :=
  ⟨{ (w [(GEN_MODE_MODE, 4), (BT_STATUS_RUNNING, 1), (SEC_CACHE_CFG_EN, 1)] [] fun u => { u with bt := { u.bt with beat := 2000 }, sec := { u.sec with slots := [(0, { KeySlot.zeroed with state := .valid })], cache := [⟨0, 0, labelOf 2 2 0 5 0 0 0, [0,0,0,0,0,0,0,0,0,0,0,0,0,0,0,0], 9999⟩] } }) with mem := [(1280, 5), (1283, 10), (1302, 1), (1336, 1), (1344, 1), (1350, 1), (65548, 19), (65600, 40), (65601, 5)] }, 5, 0, 1000000000, 1, 65536, [0,0,0,0,0,0,0,0,0,0,0,0,0,0,0,0], by decide +kernel⟩

/-- WindowsAndBeacons, the premises for joinAdmission. -/
theorem witness_WindowsAndBeacons_8 : ∃ (s : State) (_cls : Fin 4) (_answers : List (BitVec 64 × JoinOutcome)),
    (s.meshRuns = true) :=
  ⟨w [(GEN_MODE_MODE, 4), (BT_STATUS_RUNNING, 1)] [] fun u => { u with mac := { u.mac with rejects := 0 }, bt := { u.bt with beat := 12 } }, 0, [], by decide⟩

/-- WindowsAndBeacons, the premises for bridleWindowEnd. -/
theorem witness_WindowsAndBeacons_9 : ∃ (s : State) (index : Fin 512) (b : MacBridle),
    (s.u.mac.bridle[index.val]? = some b) ∧ (b.firstBeat + b.window ≤ s.workBeat + 1) :=
  ⟨w [(GEN_MODE_MODE, 4), (BT_STATUS_RUNNING, 1)] [] fun u => { u with mac := { u.mac with rejects := 0, bridle := [⟨1, 5, 2, 5, 3, 4, [], 4⟩] }, bt := { u.bt with beat := 12 } }, 0, ⟨1, 5, 2, 5, 3, 4, [], 4⟩, by decide⟩

/-- UpAndDown, the premises for forwardLearn. -/
theorem witness_UpAndDown_1 : ∃ (s : State) (index : Fin 256) (_headend : Fin 16) (_cls : Fin 8) (_pre : Fin 3) (f : MacFrame),
    (s.macFrame index = some f) ∧ (f.stage = .deliver) ∧ (s.settledBefore index f = true) ∧ ((parseMac f.bytes).srcMode = 1) ∧ ((parseMac f.bytes).mesh = false) :=
  ⟨w [(GEN_MODE_MODE, 4), (BT_STATUS_RUNNING, 1)] [] fun u => { u with mac := { u.mac with frames := [⟨0, ⟨0, 0, 1, 33, false, 900, 5000, -280, -400, 0, 0, 0, true, true, []⟩, 12, [0x28, 0x05, 0x34, 0x12, 0, 0, 0, 1, 1, 0, 6, 16, 0, 5, 0, 0, 0, 7, 1, 2, 3, 0, 0, 0, 0, 0, 0, 0, 0, 0, 0, 0, 0], .deliver, [], [], [7], true⟩] } }, 0, 0, 0, 0, ⟨0, ⟨0, 0, 1, 33, false, 900, 5000, -280, -400, 0, 0, 0, true, true, []⟩, 12, [0x28, 0x05, 0x34, 0x12, 0, 0, 0, 1, 1, 0, 6, 16, 0, 5, 0, 0, 0, 7, 1, 2, 3, 0, 0, 0, 0, 0, 0, 0, 0, 0, 0, 0, 0], .deliver, [], [], [7], true⟩, by decide +kernel⟩

/-- UpAndDown, the premises for pleDownlinkReceived. -/
theorem witness_UpAndDown_2 : ∃ (s : State) (port : EthPort) (pick : Pick) (_cls : Fin 8) (_pre : Fin 3) (q : Nat) (k : PacketInfo) (m : List Byte) (nsa : Nat) (e2e : Bool) (n : Nat) (i : Nat),
    (s.ingressQueue port.idx = some q) ∧ (((s.queue q).visible).head? = some k) ∧ (m = wordBytes ((s.queue q).packetWords k)) ∧ (s.downOk m = true) ∧ (nsa = beValue ((m.drop 4).take 3)) ∧ (e2e = (leAt m 7 1 % 8 == 5 || Nat.testBit (leAt m 7 1) 3)) ∧ (s.sleepyChild nsa = true) ∧ ((s.walk nsa fun _ => false).reason = 0) ∧ (sealedLength (s.downFrame ⟨leAt m 7 1 % 8, nsa, leAt m 7 1 / 32, e2e, m.drop 28⟩ (s.walk nsa fun _ => false).nsa (s.walk nsa fun _ => false).route) ≤ 1024) ∧ (s.downDecoder (s.bandOf (s.walk nsa fun _ => false).nsa pick.band) (s.walk nsa fun _ => false).nsa pick.decoder = some n) ∧ ((s.pendList nsa).length < 8) ∧ (firstFree s.u.mac.poolUsed s.poolCount = some i) :=
  ⟨{ (w [(GEN_MODE_MODE, 4), (BT_STATUS_RUNNING, 1), (RXD_CHn_CFG_EN 0, 1), (RXD_CHn_CFG_RATE 0, 1), (⟨ENV_REGr_SIZE 5, 0, 13⟩, 300)] [] fun u => { u with env := { u.env with queues := [(9, { Queue.unused with producer := 3, consumer := 1, limit := 64, cptr := 4, wptr := 4, tail := 4, words := packetWords [1, 2, 0, 0, 0, 0, 5, 0, 0, 0, 0, 9, 0, 0, 0, 0, 255, 0, 0, 0, 0, 0, 0, 0, 0, 2, 0, 0, 7, 1], packets := [⟨0, 4, 1, 30, 0, none, 0, 0, 0, some 0, none⟩] })] }, bt := { u.bt with beat := 40 } }) with mem := [(1280, 5), (1283, 10)] }, .p0, ⟨.s, 0, 0, 0⟩, 0, 0, 9, ⟨0, 4, 1, 30, 0, none, 0, 0, 0, some 0, none⟩, [1, 2, 0, 0, 0, 0, 5, 0, 0, 0, 0, 9, 0, 0, 0, 0, 255, 0, 0, 0, 0, 0, 0, 0, 0, 2, 0, 0, 7, 1], 5, false, 0, 0, by decide +kernel⟩

/-- TableCommands, the premises for fwdLookup. -/
theorem witness_TableCommands_1 : ∃ (s : State) (iface : HostIface) (table : Fin 4) (w : Nat),
    (s.reaches iface = true) ∧ (s.permits FWD_CMD = true) ∧ (s.bit FWD_CMD_STAT_BUSY = false) ∧ (s.mode.inService = true) ∧ (badStaged 1 table (Act.stagedData s) = false) ∧ (s.wayOf table (entryKey table (Act.stagedData s)) = some w) :=
  ⟨w [(GEN_MODE_MODE, 4), (BT_STATUS_RUNNING, 1), (HIF_CFG_SPI_EN, 1)] [(FWD_DATAx 0, 0x01000005)] fun u => { u with fuse := { u.fuse with rows := [(0, 0x0F)] }, fwd := { u.fwd with tables := [(4 * ((crc32From 0 [5, 0, 0]).toNat % 65536), BitVec.ofNat 128 (5 + 2^24))] } }, .spi, 0, 0, by decide +kernel⟩

/-- TableCommands, the premises for fwdInsert. -/
theorem witness_TableCommands_2 : ∃ (s : State) (iface : HostIface) (table : Fin 4) (w : Nat),
    (s.reaches iface = true) ∧ (s.permits FWD_CMD = true) ∧ (s.bit FWD_CMD_STAT_BUSY = false) ∧ (s.mode.inService = true) ∧ (s.mode.paired = false) ∧ (badStaged 2 table (Act.stagedData s) = false) ∧ (s.wayOf table (entryKey table (Act.stagedData s)) = some w) :=
  ⟨w [(GEN_MODE_MODE, 4), (BT_STATUS_RUNNING, 1), (HIF_CFG_SPI_EN, 1)] [(FWD_DATAx 0, 0x01000005)] fun u => { u with fuse := { u.fuse with rows := [(0, 0x0F)] }, fwd := { u.fwd with tables := [(4 * ((crc32From 0 [5, 0, 0]).toNat % 65536), BitVec.ofNat 128 (5 + 2^24))] } }, .spi, 0, 0, by decide +kernel⟩

/-- TableCommands, the premises for fwdUpdate. -/
theorem witness_TableCommands_3 : ∃ (s : State) (iface : HostIface) (table : Fin 4) (w : Nat),
    (s.reaches iface = true) ∧ (s.permits FWD_CMD = true) ∧ (s.bit FWD_CMD_STAT_BUSY = false) ∧ (s.mode.inService = true) ∧ (s.mode.paired = false) ∧ (badStaged 3 table (Act.stagedData s) = false) ∧ (s.wayOf table (entryKey table (Act.stagedData s)) = some w) :=
  ⟨w [(GEN_MODE_MODE, 4), (BT_STATUS_RUNNING, 1), (HIF_CFG_SPI_EN, 1)] [(FWD_DATAx 0, 0x01000005)] fun u => { u with fuse := { u.fuse with rows := [(0, 0x0F)] }, fwd := { u.fwd with tables := [(4 * ((crc32From 0 [5, 0, 0]).toNat % 65536), BitVec.ofNat 128 (5 + 2^24))] } }, .spi, 0, 0, by decide +kernel⟩

/-- TableCommands, the premises for fwdDelete. -/
theorem witness_TableCommands_4 : ∃ (s : State) (iface : HostIface) (table : Fin 4) (w : Nat),
    (s.reaches iface = true) ∧ (s.permits FWD_CMD = true) ∧ (s.bit FWD_CMD_STAT_BUSY = false) ∧ (s.mode.inService = true) ∧ (s.mode.paired = false) ∧ (badStaged 4 table (Act.stagedData s) = false) ∧ (s.wayOf table (entryKey table (Act.stagedData s)) = some w) :=
  ⟨w [(GEN_MODE_MODE, 4), (BT_STATUS_RUNNING, 1), (HIF_CFG_SPI_EN, 1)] [(FWD_DATAx 0, 0x01000005)] fun u => { u with fuse := { u.fuse with rows := [(0, 0x0F)] }, fwd := { u.fwd with tables := [(4 * ((crc32From 0 [5, 0, 0]).toNat % 65536), BitVec.ofNat 128 (5 + 2^24))] } }, .spi, 0, 0, by decide +kernel⟩

/-- TableCommands, the premises for fwdDeleteIfStamp. -/
theorem witness_TableCommands_5 : ∃ (s : State) (iface : HostIface) (table : Fin 4) (w : Nat),
    (s.reaches iface = true) ∧ (s.permits FWD_CMD = true) ∧ (s.bit FWD_CMD_STAT_BUSY = false) ∧ (s.mode.inService = true) ∧ (s.mode.paired = false) ∧ (badStaged 5 table (Act.stagedData s) = false) ∧ (s.wayOf table (entryKey table (Act.stagedData s)) = some w) ∧ (entryStamp (s.entry table (4 * s.bucket table (entryKey table (Act.stagedData s)) + w)) = entryStamp (Act.stagedData s)) :=
  ⟨w [(GEN_MODE_MODE, 4), (BT_STATUS_RUNNING, 1), (HIF_CFG_SPI_EN, 1)] [(FWD_DATAx 0, 0x01000005)] fun u => { u with fuse := { u.fuse with rows := [(0, 0x0F)] }, fwd := { u.fwd with tables := [(4 * ((crc32From 0 [5, 0, 0]).toNat % 65536), BitVec.ofNat 128 (5 + 2^24))] } }, .spi, 0, 0, by decide +kernel⟩

/-- TableCommands, the premises for fwdReadSlot. -/
theorem witness_TableCommands_6 : ∃ (s : State) (iface : HostIface) (table : Fin 4),
    (s.reaches iface = true) ∧ (s.permits FWD_CMD = true) ∧ (s.bit FWD_CMD_STAT_BUSY = false) ∧ (s.mode.inService = true) ∧ ((Act.stagedData s).fld 0 18 < 4 * tableBuckets table) :=
  ⟨w [(GEN_MODE_MODE, 4), (BT_STATUS_RUNNING, 1), (HIF_CFG_SPI_EN, 1)] [(FWD_DATAx 0, 0x01000005)] fun u => { u with fuse := { u.fuse with rows := [(0, 0x0F)] }, fwd := { u.fwd with tables := [(4 * ((crc32From 0 [5, 0, 0]).toNat % 65536), BitVec.ofNat 128 (5 + 2^24))] } }, .spi, 0, by decide⟩

/-- TableCommands, the premises for fwdFlush. -/
theorem witness_TableCommands_7 : ∃ (s : State) (iface : HostIface) (_table : Fin 4),
    (s.reaches iface = true) ∧ (s.permits FWD_CMD = true) ∧ (s.bit FWD_CMD_STAT_BUSY = false) ∧ (s.mode.inService = true) ∧ (s.mode.paired = false) :=
  ⟨w [(GEN_MODE_MODE, 4), (BT_STATUS_RUNNING, 1), (HIF_CFG_SPI_EN, 1)] [(FWD_DATAx 0, 0x01000005)] fun u => { u with fuse := { u.fuse with rows := [(0, 0x0F)] }, fwd := { u.fwd with tables := [(4 * ((crc32From 0 [5, 0, 0]).toNat % 65536), BitVec.ofNat 128 (5 + 2^24))] } }, .spi, 0, by decide⟩

/-- TableCommands, the premises for fwdDigest. -/
theorem witness_TableCommands_8 : ∃ (s : State) (iface : HostIface) (table : Fin 4),
    (s.reaches iface = true) ∧ (s.permits FWD_CMD = true) ∧ (s.bit FWD_CMD_STAT_BUSY = false) ∧ (s.mode.inService = true) ∧ ((Act.stagedData s).fld 0 8 < tableBlocks table) :=
  ⟨w [(GEN_MODE_MODE, 4), (BT_STATUS_RUNNING, 1), (HIF_CFG_SPI_EN, 1)] [] fun u => { u with fuse := { u.fuse with rows := [(0, 0x0F)] }, fwd := { u.fwd with tables := [(4 * ((crc32From 0 [5, 0, 0]).toNat % 65536), BitVec.ofNat 128 (5 + 2^24))] } }, .spi, 0, by decide⟩

/-- TableCommands, the premises for fwdOpComplete. -/
theorem witness_TableCommands_9 : ∃ (s : State) (x : FwdCmd),
    (s.u.fwd.cmd = some x) :=
  ⟨w [(GEN_MODE_MODE, 4), (BT_STATUS_RUNNING, 1), (FWD_CMD_STAT_BUSY, 1)] [] fun u => { u with fwd := { u.fwd with cmd := some ⟨0, 1, 7, 0x500000003, none⟩ } }, ⟨0, 1, 7, 0x500000003, none⟩, by decide⟩

/-- TableCommandsOfTheRing, the premises for fwdLookup. -/
theorem witness_TableCommandsOfTheRing_1 : ∃ (s : State) (index : Fin 4096) (c : HostCmd) (table : Fin 4),
    (s.cmdAt index (fun o => o == 0x0101) = some c) ∧ (c.mirrored = false) ∧ (c.arg 0 1 = table) :=
  ⟨w [(GEN_MODE_MODE, 4), (BT_STATUS_RUNNING, 1)] [] fun u => { u with hif := { u.hif with cmds := [⟨1, 0x0101, 7, 5, 3, [], .spi, false⟩] } }, 5, ⟨1, 0x0101, 7, 5, 3, [], .spi, false⟩, 0, by decide⟩

/-- TableCommandsOfTheRing, the premises for fwdInsert. -/
theorem witness_TableCommandsOfTheRing_2 : ∃ (s : State) (index : Fin 4096) (c : HostCmd) (table : Fin 4),
    (s.cmdAt index (fun o => o == 0x0102) = some c) ∧ (c.mirrored = false) ∧ (c.arg 0 1 = table) :=
  ⟨w [(GEN_MODE_MODE, 4), (BT_STATUS_RUNNING, 1)] [] fun u => { u with hif := { u.hif with cmds := [⟨1, 0x0102, 7, 5, 3, [], .spi, false⟩] } }, 5, ⟨1, 0x0102, 7, 5, 3, [], .spi, false⟩, 0, by decide⟩

/-- TableCommandsOfTheRing, the premises for fwdUpdate. -/
theorem witness_TableCommandsOfTheRing_3 : ∃ (s : State) (index : Fin 4096) (c : HostCmd) (table : Fin 4),
    (s.cmdAt index (fun o => o == 0x0103) = some c) ∧ (c.mirrored = false) ∧ (c.arg 0 1 = table) :=
  ⟨w [(GEN_MODE_MODE, 4), (BT_STATUS_RUNNING, 1)] [] fun u => { u with hif := { u.hif with cmds := [⟨1, 0x0103, 7, 5, 3, [], .spi, false⟩] } }, 5, ⟨1, 0x0103, 7, 5, 3, [], .spi, false⟩, 0, by decide⟩

/-- TableCommandsOfTheRing, the premises for fwdDelete. -/
theorem witness_TableCommandsOfTheRing_4 : ∃ (s : State) (index : Fin 4096) (c : HostCmd) (table : Fin 4),
    (s.cmdAt index (fun o => o == 0x0104) = some c) ∧ (c.mirrored = false) ∧ (c.arg 0 1 = table) :=
  ⟨w [(GEN_MODE_MODE, 4), (BT_STATUS_RUNNING, 1)] [] fun u => { u with hif := { u.hif with cmds := [⟨1, 0x0104, 7, 5, 3, [], .spi, false⟩] } }, 5, ⟨1, 0x0104, 7, 5, 3, [], .spi, false⟩, 0, by decide⟩

/-- TableCommandsOfTheRing, the premises for fwdDeleteIfStamp. -/
theorem witness_TableCommandsOfTheRing_5 : ∃ (s : State) (index : Fin 4096) (c : HostCmd) (table : Fin 4),
    (s.cmdAt index (fun o => o == 0x0105) = some c) ∧ (c.mirrored = false) ∧ (c.arg 0 1 = table) :=
  ⟨w [(GEN_MODE_MODE, 4), (BT_STATUS_RUNNING, 1)] [] fun u => { u with hif := { u.hif with cmds := [⟨1, 0x0105, 7, 5, 3, [], .spi, false⟩] } }, 5, ⟨1, 0x0105, 7, 5, 3, [], .spi, false⟩, 0, by decide⟩

/-- TableCommandsOfTheRing, the premises for fwdReadSlot. -/
theorem witness_TableCommandsOfTheRing_6 : ∃ (s : State) (index : Fin 4096) (c : HostCmd) (table : Fin 4),
    (s.cmdAt index (fun o => o == 0x0106) = some c) ∧ (c.mirrored = false) ∧ (c.arg 0 1 = table) :=
  ⟨w [(GEN_MODE_MODE, 4), (BT_STATUS_RUNNING, 1)] [] fun u => { u with hif := { u.hif with cmds := [⟨1, 0x0106, 7, 5, 3, [], .spi, false⟩] } }, 5, ⟨1, 0x0106, 7, 5, 3, [], .spi, false⟩, 0, by decide⟩

/-- TableCommandsOfTheRing, the premises for fwdFlush. -/
theorem witness_TableCommandsOfTheRing_7 : ∃ (s : State) (index : Fin 4096) (c : HostCmd) (table : Fin 4),
    (s.cmdAt index (fun o => o == 0x0107) = some c) ∧ (c.mirrored = false) ∧ (c.arg 0 1 = table) :=
  ⟨w [(GEN_MODE_MODE, 4), (BT_STATUS_RUNNING, 1)] [] fun u => { u with hif := { u.hif with cmds := [⟨1, 0x0107, 7, 5, 3, [], .spi, false⟩] } }, 5, ⟨1, 0x0107, 7, 5, 3, [], .spi, false⟩, 0, by decide⟩

/-- TableCommandsOfTheRing, the premises for fwdDigest. -/
theorem witness_TableCommandsOfTheRing_8 : ∃ (s : State) (index : Fin 4096) (c : HostCmd) (table : Fin 4),
    (s.cmdAt index (fun o => o == 0x0108) = some c) ∧ (c.mirrored = false) ∧ (c.arg 0 1 = table) :=
  ⟨w [(GEN_MODE_MODE, 4), (BT_STATUS_RUNNING, 1)] [] fun u => { u with hif := { u.hif with cmds := [⟨1, 0x0108, 7, 5, 3, [], .spi, false⟩] } }, 5, ⟨1, 0x0108, 7, 5, 3, [], .spi, false⟩, 0, by decide⟩

/-- TableOperationsOfAnEngine, the premises for fwdLookup. -/
theorem witness_TableOperationsOfAnEngine_1 : ∃ (s : State) (pe : Fin 16) (_thread : Fin 4) (k : Nat) (table : Fin 4) (data : BitVec 128) (_out : BitVec 18) (w : Nat),
    (s.canIssue pe = true) ∧ ((s.engine pe).freeSlot = some k) ∧ (s.mode.inService = true) ∧ (badStaged 1 table data = false) ∧ (s.wayOf table (entryKey table data) = some w) :=
  ⟨w [(GEN_MODE_MODE, 4), (BT_STATUS_RUNNING, 1), (BT_ROLE_n 3, 1)] [] fun u => { u with fwd := { u.fwd with tables := [(4 * ((crc32From 0 [5, 0, 0]).toNat % 65536), BitVec.ofNat 128 (5 + 2^24))] } }, 3, 1, 0, 0, 5 + 2^24, 64, 0, by decide +kernel⟩

/-- TableOperationsOfAnEngine, the premises for fwdInsert. -/
theorem witness_TableOperationsOfAnEngine_2 : ∃ (s : State) (pe : Fin 16) (_thread : Fin 4) (k : Nat) (table : Fin 4) (data : BitVec 128) (_out : BitVec 18) (w : Nat),
    (s.canIssue pe = true) ∧ ((s.engine pe).freeSlot = some k) ∧ (s.mode.inService = true) ∧ (badStaged 2 table data = false) ∧ (s.wayOf table (entryKey table data) = some w) :=
  ⟨w [(GEN_MODE_MODE, 4), (BT_STATUS_RUNNING, 1), (BT_ROLE_n 3, 1)] [] fun u => { u with fwd := { u.fwd with tables := [(4 * ((crc32From 0 [5, 0, 0]).toNat % 65536), BitVec.ofNat 128 (5 + 2^24))] } }, 3, 1, 0, 0, 5 + 2^24, 64, 0, by decide +kernel⟩

/-- TableOperationsOfAnEngine, the premises for fwdUpdate. -/
theorem witness_TableOperationsOfAnEngine_3 : ∃ (s : State) (pe : Fin 16) (_thread : Fin 4) (k : Nat) (table : Fin 4) (data : BitVec 128) (_out : BitVec 18) (w : Nat),
    (s.canIssue pe = true) ∧ ((s.engine pe).freeSlot = some k) ∧ (s.mode.inService = true) ∧ (badStaged 3 table data = false) ∧ (s.wayOf table (entryKey table data) = some w) :=
  ⟨w [(GEN_MODE_MODE, 4), (BT_STATUS_RUNNING, 1), (BT_ROLE_n 3, 1)] [] fun u => { u with fwd := { u.fwd with tables := [(4 * ((crc32From 0 [5, 0, 0]).toNat % 65536), BitVec.ofNat 128 (5 + 2^24))] } }, 3, 1, 0, 0, 5 + 2^24, 64, 0, by decide +kernel⟩

/-- TableOperationsOfAnEngine, the premises for fwdDelete. -/
theorem witness_TableOperationsOfAnEngine_4 : ∃ (s : State) (pe : Fin 16) (_thread : Fin 4) (k : Nat) (table : Fin 4) (data : BitVec 128) (_out : BitVec 18) (w : Nat),
    (s.canIssue pe = true) ∧ ((s.engine pe).freeSlot = some k) ∧ (s.mode.inService = true) ∧ (badStaged 4 table data = false) ∧ (s.wayOf table (entryKey table data) = some w) :=
  ⟨w [(GEN_MODE_MODE, 4), (BT_STATUS_RUNNING, 1), (BT_ROLE_n 3, 1)] [] fun u => { u with fwd := { u.fwd with tables := [(4 * ((crc32From 0 [5, 0, 0]).toNat % 65536), BitVec.ofNat 128 (5 + 2^24))] } }, 3, 1, 0, 0, 5 + 2^24, 64, 0, by decide +kernel⟩

/-- TableOperationsOfAnEngine, the premises for fwdDeleteIfStamp. -/
theorem witness_TableOperationsOfAnEngine_5 : ∃ (s : State) (pe : Fin 16) (_thread : Fin 4) (k : Nat) (table : Fin 4) (data : BitVec 128) (_out : BitVec 18) (w : Nat),
    (s.canIssue pe = true) ∧ ((s.engine pe).freeSlot = some k) ∧ (s.mode.inService = true) ∧ (badStaged 5 table data = false) ∧ (s.wayOf table (entryKey table data) = some w) ∧ (entryStamp (s.entry table (4 * s.bucket table (entryKey table data) + w)) = entryStamp data) :=
  ⟨w [(GEN_MODE_MODE, 4), (BT_STATUS_RUNNING, 1), (BT_ROLE_n 3, 1)] [] fun u => { u with fwd := { u.fwd with tables := [(4 * ((crc32From 0 [5, 0, 0]).toNat % 65536), BitVec.ofNat 128 (5 + 2^24))] } }, 3, 1, 0, 0, 5 + 2^24, 64, 0, by decide +kernel⟩

/-- TableOperationsOfAnEngine, the premises for fwdReadSlot. -/
theorem witness_TableOperationsOfAnEngine_6 : ∃ (s : State) (pe : Fin 16) (_thread : Fin 4) (k : Nat) (table : Fin 4) (data : BitVec 128) (_out : BitVec 18),
    (s.canIssue pe = true) ∧ ((s.engine pe).freeSlot = some k) ∧ (s.mode.inService = true) ∧ (data.toNat % 2 ^ 18 < 4 * tableBuckets table) :=
  ⟨w [(GEN_MODE_MODE, 4), (BT_STATUS_RUNNING, 1), (BT_ROLE_n 3, 1)] [] fun u => { u with fwd := { u.fwd with tables := [(4 * ((crc32From 0 [5, 0, 0]).toNat % 65536), BitVec.ofNat 128 (5 + 2^24))] } }, 3, 1, 0, 0, 5, 64, by decide⟩

/-- TableOperationsOfAnEngine, the premises for fwdFlush. -/
theorem witness_TableOperationsOfAnEngine_7 : ∃ (s : State) (pe : Fin 16) (_thread : Fin 4) (k : Nat) (_table : Fin 4) (_data : BitVec 128) (_out : BitVec 18),
    (s.canIssue pe = true) ∧ ((s.engine pe).freeSlot = some k) ∧ (s.mode.inService = true) :=
  ⟨w [(GEN_MODE_MODE, 4), (BT_STATUS_RUNNING, 1), (BT_ROLE_n 3, 1)] [] fun u => { u with fwd := { u.fwd with tables := [(4 * ((crc32From 0 [5, 0, 0]).toNat % 65536), BitVec.ofNat 128 (5 + 2^24))] } }, 3, 1, 0, 0, 5, 64, by decide⟩

/-- TableOperationsOfAnEngine, the premises for recordUpdate. -/
theorem witness_TableOperationsOfAnEngine_8 : ∃ (s : State) (pe : Fin 16) (_thread : Fin 4) (k : Nat) (nsa : BitVec 24) (off : Fin 248) (bytes : List Byte),
    (s.canIssue pe = true) ∧ ((s.engine pe).freeSlot = some k) ∧ (off + bytes.length ≤ 248) ∧ (s.recValid nsa.toNat = true) ∧ ((s.reg MAC_NBR).toNat < 65535) :=
  ⟨{ (w [(GEN_MODE_MODE, 4), (BT_STATUS_RUNNING, 1), (BT_ROLE_n 3, 1)] [] id) with mem := [(1280, 5), (1283, 2)] }, 3, 1, 0, 5, 100, [1, 2], by decide⟩

/-- SweepAndResync, the premises for ageingDeletePhase. -/
theorem witness_SweepAndResync_1 : ∃ (s : State) (n : Nat) (e : Entry) (w : Nat),
    (s.u.fwd.expired = [(n, e)]) ∧ (s.wayOf n (entryKey n e) = some w) ∧ (entryStamp (s.entry n (4 * s.bucket n (entryKey n e) + w)) = entryStamp e) :=
  ⟨w [(GEN_MODE_MODE, 4), (BT_STATUS_RUNNING, 1), (FWD_STATUS_SWEEP, 1)] [] fun u => { u with fwd := { u.fwd with tables := [(4 * ((crc32From 0 [5, 0, 0]).toNat % 65536), BitVec.ofNat 128 (5 + 2^24))], expired := [(0, BitVec.ofNat 128 (5 + 2^24))] } }, 0, BitVec.ofNat 128 (5 + 2^24), 0, by decide +kernel⟩

/-- SweepAndResync, the premises for blockResyncApply. -/
theorem witness_SweepAndResync_2 : ∃ (s : State) (b : BlockResync),
    (s.u.fwd.resync = [b]) :=
  ⟨w [(GEN_MODE_MODE, 4), (BT_STATUS_RUNNING, 1), (FWD_STATUS_RESYNC, 1)] [] fun u => { u with fwd := { u.fwd with resync := [⟨1, 2, [7, 9]⟩] } }, ⟨1, 2, [7, 9]⟩, by decide⟩

/-- IssuedOperations, the premises for ccmSeal. -/
theorem witness_IssuedOperations_1 : ∃ (s : State) (pe : Fin 16) (_thread : Fin 4) (k : Nat) (_key : KeyName) (_addr : BitVec 18) (_len : Fin 1025) (_out : BitVec 18),
    (s.canIssue pe = true) ∧ ((s.engine pe).freeSlot = some k) :=
  ⟨w [(GEN_MODE_MODE, 4), (BT_STATUS_RUNNING, 1), (BT_ROLE_n 3, 1)] [] id, 3, 1, 0, .bcast, 64, 20, 128, by decide⟩

/-- IssuedOperations, the premises for ccmOpen. -/
theorem witness_IssuedOperations_2 : ∃ (s : State) (pe : Fin 16) (_thread : Fin 4) (k : Nat) (_key : KeyName) (_addr : BitVec 18) (_len : Fin 1025) (_out : BitVec 18),
    (s.canIssue pe = true) ∧ ((s.engine pe).freeSlot = some k) :=
  ⟨w [(GEN_MODE_MODE, 4), (BT_STATUS_RUNNING, 1), (BT_ROLE_n 3, 1)] [] id, 3, 1, 0, .bcast, 64, 20, 128, by decide⟩

/-- IssuedOperations, the premises for kdfDerive. -/
theorem witness_IssuedOperations_3 : ∃ (s : State) (pe : Fin 16) (_thread : Fin 4) (k : Nat) (_slot : Fin 1024) (_label : BitVec 256),
    (s.canIssue pe = true) ∧ ((s.engine pe).freeSlot = some k) :=
  ⟨w [(GEN_MODE_MODE, 4), (BT_STATUS_RUNNING, 1), (BT_ROLE_n 3, 1)] [] id, 3, 1, 0, 5, 7, by decide⟩

/-- IssuedOperations, the premises for cmacCompute. -/
theorem witness_IssuedOperations_4 : ∃ (s : State) (pe : Fin 16) (_thread : Fin 4) (k : Nat) (_slot : Fin 1024) (_addr : BitVec 18) (_len : BitVec 18) (_out : BitVec 18),
    (s.canIssue pe = true) ∧ ((s.engine pe).freeSlot = some k) :=
  ⟨w [(GEN_MODE_MODE, 4), (BT_STATUS_RUNNING, 1), (BT_ROLE_n 3, 1)] [] id, 3, 1, 0, 5, 64, 16, 128, by decide⟩

/-- IssuedOperations, the premises for sha256Block. -/
theorem witness_IssuedOperations_5 : ∃ (s : State) (pe : Fin 16) (_thread : Fin 4) (k : Nat) (_state : BitVec 18) (_block : BitVec 18) (_out : BitVec 18),
    (s.canIssue pe = true) ∧ ((s.engine pe).freeSlot = some k) :=
  ⟨w [(GEN_MODE_MODE, 4), (BT_STATUS_RUNNING, 1), (BT_ROLE_n 3, 1)] [] id, 3, 1, 0, 0, 64, 128, by decide⟩

/-- IssuedOperations, the premises for ecdsaVerify. -/
theorem witness_IssuedOperations_6 : ∃ (s : State) (pe : Fin 16) (_thread : Fin 4) (k : Nat) (_key : BitVec 18) (_sig : BitVec 18) (_hash : BitVec 18),
    (s.canIssue pe = true) ∧ ((s.engine pe).freeSlot = some k) :=
  ⟨w [(GEN_MODE_MODE, 4), (BT_STATUS_RUNNING, 1), (BT_ROLE_n 3, 1)] [] id, 3, 1, 0, 0, 64, 128, by decide⟩

/-- IssuedOperations, the premises for routeWalk. -/
theorem witness_IssuedOperations_7 : ∃ (s : State) (pe : Fin 16) (_thread : Fin 4) (k : Nat) (_final : BitVec 24) (_out : BitVec 18),
    (s.canIssue pe = true) ∧ ((s.engine pe).freeSlot = some k) :=
  ⟨w [(GEN_MODE_MODE, 4), (BT_STATUS_RUNNING, 1), (BT_ROLE_n 3, 1)] [] id, 3, 1, 0, 5, 64, by decide⟩

/-- IssuedOperations, the premises for placementRequest. -/
theorem witness_IssuedOperations_8 : ∃ (s : State) (pe : Fin 16) (_thread : Fin 4) (k : Nat) (_queue : Fin 4096) (_start : BitVec 32) (_decoder : Fin 80) (_cls : Fin 4) (_length : Fin 1025),
    (s.canIssue pe = true) ∧ ((s.engine pe).freeSlot = some k) :=
  ⟨w [(GEN_MODE_MODE, 4), (BT_STATUS_RUNNING, 1), (BT_ROLE_n 3, 1)] [] id, 3, 1, 0, 9, 0, 3, 1, 40, by decide⟩

/-- IssuedOperations, the premises for planQuery. -/
theorem witness_IssuedOperations_9 : ∃ (s : State) (pe : Fin 16) (_thread : Fin 4) (k : Nat) (_out : BitVec 18),
    (s.canIssue pe = true) ∧ ((s.engine pe).freeSlot = some k) :=
  ⟨w [(GEN_MODE_MODE, 4), (BT_STATUS_RUNNING, 1), (BT_ROLE_n 3, 1)] [] id, 3, 1, 0, 64, by decide⟩

/-- IssuedOperations, the premises for envelopeCopy. -/
theorem witness_IssuedOperations_10 : ∃ (s : State) (pe : Fin 16) (_thread : Fin 4) (k : Nat) (_src : CopySide) (_dst : CopySide) (_len : BitVec 19),
    (s.canIssue pe = true) ∧ ((s.engine pe).freeSlot = some k) :=
  ⟨w [(GEN_MODE_MODE, 4), (BT_STATUS_RUNNING, 1), (BT_ROLE_n 3, 1)] [] id, 3, 1, 0, .sram 64, .envelope 4096, 32, by decide⟩

/-- IssuedOperations, the premises for ldpcRedecode. -/
theorem witness_IssuedOperations_11 : ∃ (s : State) (pe : Fin 16) (_thread : Fin 4) (k : Nat) (frame : BitVec 32) (codeword : Fin 16) (_limit : Fin 33) (_out : BitVec 18) (x : Codeword),
    (s.canIssue pe = true) ∧ ((s.engine pe).freeSlot = some k) ∧ (((s.rxFrame frame.toNat).bind fun f => f.cws[codeword.val]?) = some x) ∧ (x.llrs ≠ []) :=
  ⟨w [(GEN_MODE_MODE, 4), (BT_STATUS_RUNNING, 1), (BT_ROLE_n 3, 1)] [] fun u => { u with rx := { u.rx with frames := [⟨0, 0, 1, 20, false, 900, 5000, -280, -400, 0, 0, 0, false, false, [⟨0, [7], .waiting⟩]⟩] } }, 3, 1, 0, 0, 0, 5, 64, ⟨0, [7], .waiting⟩, by decide⟩

/-- OperationsEnd, the premises for cipherDispatch. -/
theorem witness_OperationsEnd_1 : ∃ (s : State) (o : Op) (core : Nat) (slot : Nat) (label : List Byte) (key : List Nat),
    (s.nextCipher = some o) ∧ (s.freeAes = some core) ∧ (o.work = .derive slot label) ∧ ((s.slot slot).state = .valid) ∧ (s.cached slot label = some key) :=
  ⟨w [(GEN_MODE_MODE, 4), (BT_STATUS_RUNNING, 1), (SEC_CACHE_CFG_EN, 1)] [] fun u => { u with accel := { u.accel with ops := [⟨4, 3, 1, 0, 2, 12, .derive 5 [1], none⟩] }, sec := { u.sec with slots := [(5, { KeySlot.zeroed with state := .valid })], cache := [⟨5, 0, [1], [3], 99⟩] } }, ⟨4, 3, 1, 0, 2, 12, .derive 5 [1], none⟩, 0, 5, [1], [3], by decide⟩

/-- OperationsEnd, the premises for opCompletion. -/
theorem witness_OperationsEnd_2 : ∃ (s : State) (pe : Fin 16) (slot : Fin 48) (o : Op) (q : Nat) (start : Nat) (d : Nat) (c : Nat) (l : Nat),
    (s.opAt pe slot = some o) ∧ (s.shadows = false) ∧ (s.bit PWR_STATUS_CHANGING = false) ∧ (o.work = .place q start d c l) :=
  ⟨w [(GEN_MODE_MODE, 4), (BT_STATUS_RUNNING, 1), (BT_ROLE_n 3, 1)] [] fun u => { u with bt := { u.bt with engines := [(3, { Engine.idle with slots := [0] })] }, accel := { u.accel with ops := [⟨4, 3, 1, 0, 6, 12, .place 9 0 3 1 40, none⟩] } }, 3, 0, ⟨4, 3, 1, 0, 6, 12, .place 9 0 3 1 40, none⟩, 9, 0, 3, 1, 40, by decide⟩

/-- OperationsEnd, the premises for opCompletion. -/
theorem witness_OperationsEnd_3 : ∃ (s : State) (pe : Fin 16) (slot : Fin 48) (o : Op) (a : Nat) (b : Nat) (len : Nat),
    (s.opAt pe slot = some o) ∧ (s.shadows = false) ∧ (s.bit PWR_STATUS_CHANGING = false) ∧ (o.work = .copy (.envelope a) (.envelope b) len) ∧ (len < 2 ^ 19) :=
  ⟨{ (w [(GEN_MODE_MODE, 4), (BT_STATUS_RUNNING, 1), (BT_ROLE_n 3, 1)] [] fun u => { u with bt := { u.bt with engines := [(3, { Engine.idle with slots := [0] })] }, accel := { u.accel with ops := [⟨4, 3, 1, 0, 7, 12, .copy (.envelope 4096) (.envelope 8192) 8, none⟩] } }) with mem := [(4097, 7)] }, 3, 0, ⟨4, 3, 1, 0, 7, 12, .copy (.envelope 4096) (.envelope 8192) 8, none⟩, 4096, 8192, 8, by decide⟩

/-- OperationsEnd, the premises for opCompletion. -/
theorem witness_OperationsEnd_4 : ∃ (s : State) (pe : Fin 16) (slot : Fin 48) (o : Op) (f : Fetch) (k : Nat) (a : Nat) (len : Nat) (out : Nat),
    (s.opAt pe slot = some o) ∧ (s.shadows = false) ∧ (s.bit PWR_STATUS_CHANGING = false) ∧ (o.work = .cmac k a len out) ∧ (o.fetch = some f) :=
  ⟨w [(GEN_MODE_MODE, 4), (BT_STATUS_RUNNING, 1), (BT_ROLE_n 3, 1)] [] fun u => { u with bt := { u.bt with engines := [(3, { Engine.idle with slots := [0] })] }, accel := { u.accel with ops := [⟨4, 3, 1, 0, 2, 12, .cmac 5 64 0 128, (some ⟨0, 5, [0, 0, 0, 0, 0, 0, 0, 0, 0, 0, 0, 0, 0, 0, 0, 0], 0⟩)⟩] } }, 3, 0, ⟨4, 3, 1, 0, 2, 12, .cmac 5 64 0 128, (some ⟨0, 5, [0, 0, 0, 0, 0, 0, 0, 0, 0, 0, 0, 0, 0, 0, 0, 0], 0⟩)⟩, ⟨0, 5, [0, 0, 0, 0, 0, 0, 0, 0, 0, 0, 0, 0, 0, 0, 0, 0], 0⟩, 5, 64, 0, 128, by decide⟩

/-- OperationsEnd, the premises for opCompletion. -/
theorem witness_OperationsEnd_5 : ∃ (s : State) (pe : Fin 16) (slot : Fin 48) (o : Op) (final : Nat) (out : Nat),
    (s.opAt pe slot = some o) ∧ (s.shadows = false) ∧ (s.bit PWR_STATUS_CHANGING = false) ∧ (o.work = .routeWalk final out) ∧ ((s.walk final fun _ => false).reason = 0) :=
  ⟨{ (w [(GEN_MODE_MODE, 4), (BT_STATUS_RUNNING, 1), (BT_ROLE_n 3, 1)] [] fun u => { u with bt := { u.bt with engines := [(3, { Engine.idle with slots := [0] })] }, accel := { u.accel with ops := [⟨4, 3, 1, 0, 5, 12, .routeWalk 5 64, none⟩] } }) with mem := [(1280, 5), (1283, 2)] }, 3, 0, ⟨4, 3, 1, 0, 5, 12, .routeWalk 5 64, none⟩, 5, 64, by decide⟩

/-- OperationsEnd, the premises for opCompletion. -/
theorem witness_OperationsEnd_6 : ∃ (s : State) (pe : Fin 16) (slot : Fin 48) (o : Op) (st : Nat) (blk : Nat) (out : Nat),
    (s.opAt pe slot = some o) ∧ (s.shadows = false) ∧ (s.bit PWR_STATUS_CHANGING = false) ∧ (o.work = .sha st blk out) ∧ (s.u.accel.ops = [o]) :=
  ⟨w [(GEN_MODE_MODE, 4), (BT_STATUS_RUNNING, 1), (BT_ROLE_n 3, 1)] [] fun u => { u with bt := { u.bt with engines := [(3, { Engine.idle with slots := [0] })] }, accel := { u.accel with ops := [⟨4, 3, 1, 0, 2, 12, .sha 0 64 128, none⟩] } }, 3, 0, ⟨4, 3, 1, 0, 2, 12, .sha 0 64 128, none⟩, 0, 64, 128, by decide⟩

/-- OperationsEnd, the premises for completionTake. -/
theorem witness_OperationsEnd_7 : ∃ (s : State) (pe : Fin 16) (slot : Fin 48),
    (((s.engine pe).ring.any fun c => c.tag == tagOf pe slot) = true) :=
  ⟨w [(GEN_MODE_MODE, 4), (BT_STATUS_RUNNING, 1)] [] fun u => { u with bt := { u.bt with engines := [(3, { Engine.idle with slots := [0, 2], ring := [⟨192, 0, 2, 0, 0, 0, 0⟩] })] } }, 3, 0, by decide⟩

/-- QueueOperationsOfPorts, the premises for enq. -/
theorem witness_QueueOperationsOfPorts_1 : ∃ (s : State) (code : Fin 10) (queue : Fin 4096) (_next : Bool) (_headend : Fin 16) (x : WordIn) (v : QWord),
    (s.mode.inService = true) ∧ (s.portIs ((s.queue queue).producer) (.hard code) = true) ∧ (QWord.of x.data x.tag.toNat x.par = v) ∧ (v.valid = true) ∧ (v.first = true) ∧ (v.last = true) ∧ (v.parOk = true) ∧ ((s.queue queue).discarding = false) ∧ ((s.queue queue).wptr = (s.queue queue).cptr) ∧ (((s.queue queue).wptr - (s.queue queue).headB).toNat < (s.queue queue).limit) :=
  ⟨w [(GEN_MODE_MODE, 4), (BT_STATUS_RUNNING, 1)] [] fun u => { u with env := { u.env with queues := [(9, { Queue.unused with producer := 1, consumer := 1, limit := 64 })] } }, 1, 9, false, 0, ⟨7, 0xB1, true, false⟩, QWord.of 7 0xB1 true, by decide +kernel⟩

/-- QueueOperationsOfPorts, the premises for abort. -/
theorem witness_QueueOperationsOfPorts_2 : ∃ (s : State) (code : Fin 10) (queue : Fin 4096),
    (s.mode.inService = true) ∧ (s.portIs ((s.queue queue).producer) (.hard code) = true) ∧ ((s.queue queue).wptr ≠ (s.queue queue).cptr) :=
  ⟨w [(GEN_MODE_MODE, 4), (BT_STATUS_RUNNING, 1)] [] fun u => { u with env := { u.env with queues := [(9, { Queue.unused with producer := 1, consumer := 1, limit := 64, wptr := 2, words := [QWord.notValid, QWord.notValid], openBy := some (true, 3) })] } }, 1, 9, by decide⟩

/-- QueueOperationsOfPorts, the premises for deq. -/
theorem witness_QueueOperationsOfPorts_3 : ∃ (s : State) (code : Fin 10) (queue : Fin 4096) (_n : Fin 16) (_stop : Bool) (_out : BitVec 18),
    (s.mode.inService = true) ∧ (s.portIs ((s.queue queue).consumer) (.hard code) = true) :=
  ⟨w [(GEN_MODE_MODE, 4), (BT_STATUS_RUNNING, 1)] [] fun u => { u with env := { u.env with queues := [(9, { Queue.unused with producer := 1, consumer := 1, limit := 64, cptr := 4, wptr := 4, tail := 4, words := packetWords [1, 2, 3, 4, 5, 6, 7, 8, 9, 10, 11, 12, 13, 14, 15, 16, 17, 18, 19, 20, 21, 22, 23, 24, 25, 26, 27, 28, 29, 30], packets := [⟨0, 4, 1, 30, 0, none, 0, 0, 0, none, none⟩] })] } }, 1, 9, 2, true, 0, by decide +kernel⟩

/-- QueueOperationsOfPorts, the premises for mark. -/
theorem witness_QueueOperationsOfPorts_4 : ∃ (s : State) (code : Fin 10) (queue : Fin 4096),
    (s.mode.inService = true) ∧ (s.portIs ((s.queue queue).consumer) (.hard code) = true) :=
  ⟨w [(GEN_MODE_MODE, 4), (BT_STATUS_RUNNING, 1)] [] fun u => { u with env := { u.env with queues := [(9, { Queue.unused with producer := 1, consumer := 1, limit := 64, cptr := 4, wptr := 4, tail := 4, rptr := 2, mark := 1, words := packetWords [1, 2, 3, 4, 5, 6, 7, 8, 9, 10, 11, 12, 13, 14, 15, 16, 17, 18, 19, 20, 21, 22, 23, 24, 25, 26, 27, 28, 29, 30], packets := [⟨0, 4, 1, 30, 0, none, 0, 0, 0, none, none⟩] })] } }, 1, 9, by decide⟩

/-- QueueOperationsOfPorts, the premises for rewind. -/
theorem witness_QueueOperationsOfPorts_5 : ∃ (s : State) (code : Fin 10) (queue : Fin 4096),
    (s.mode.inService = true) ∧ (s.portIs ((s.queue queue).consumer) (.hard code) = true) :=
  ⟨w [(GEN_MODE_MODE, 4), (BT_STATUS_RUNNING, 1)] [] fun u => { u with env := { u.env with queues := [(9, { Queue.unused with producer := 1, consumer := 1, limit := 64, cptr := 4, wptr := 4, tail := 4, rptr := 2, mark := 1, words := packetWords [1, 2, 3, 4, 5, 6, 7, 8, 9, 10, 11, 12, 13, 14, 15, 16, 17, 18, 19, 20, 21, 22, 23, 24, 25, 26, 27, 28, 29, 30], packets := [⟨0, 4, 1, 30, 0, none, 0, 0, 0, none, none⟩] })] } }, 1, 9, by decide⟩

/-- QueueOperationsOfPorts, the premises for release. -/
theorem witness_QueueOperationsOfPorts_6 : ∃ (s : State) (code : Fin 10) (queue : Fin 4096),
    (s.mode.inService = true) ∧ (s.portIs ((s.queue queue).consumer) (.hard code) = true) :=
  ⟨w [(GEN_MODE_MODE, 4), (BT_STATUS_RUNNING, 1)] [] fun u => { u with env := { u.env with queues := [(9, { Queue.unused with producer := 1, consumer := 1, limit := 64, cptr := 4, wptr := 4, tail := 4, rptr := 2, mark := 1, words := packetWords [1, 2, 3, 4, 5, 6, 7, 8, 9, 10, 11, 12, 13, 14, 15, 16, 17, 18, 19, 20, 21, 22, 23, 24, 25, 26, 27, 28, 29, 30], packets := [⟨0, 4, 1, 30, 0, none, 0, 0, 0, none, none⟩] })] } }, 1, 9, by decide⟩

/-- QueueOperationsOfEngines, the premises for enq. -/
theorem witness_QueueOperationsOfEngines_1 : ∃ (s : State) (pe : Fin 16) (thread : Fin 4) (k : Nat) (queue : Fin 4096) (_next : Bool) (_headend : Fin 16) (x : WordIn) (v : QWord),
    (s.canIssue pe = true) ∧ ((s.engine pe).freeSlot = some k) ∧ (s.portIs ((s.queue queue).producer) (.spool pe thread) = true) ∧ (QWord.of x.data x.tag.toNat x.par = v) ∧ (v.valid = true) ∧ (v.first = true) ∧ (v.last = true) ∧ (v.parOk = true) ∧ ((s.queue queue).discarding = false) ∧ ((s.queue queue).wptr = (s.queue queue).cptr) ∧ (((s.queue queue).wptr - (s.queue queue).headB).toNat < (s.queue queue).limit) :=
  ⟨w [(GEN_MODE_MODE, 4), (BT_STATUS_RUNNING, 1), (BT_ROLE_n 3, 1)] [] fun u => { u with env := { u.env with queues := [(9, { Queue.unused with producer := 19, consumer := 19, limit := 64 })] } }, 3, 1, 0, 9, false, 0, ⟨7, 0xB1, true, false⟩, QWord.of 7 0xB1 true, by decide +kernel⟩

/-- QueueOperationsOfEngines, the premises for abort. -/
theorem witness_QueueOperationsOfEngines_2 : ∃ (s : State) (pe : Fin 16) (thread : Fin 4) (k : Nat) (queue : Fin 4096),
    (s.canIssue pe = true) ∧ ((s.engine pe).freeSlot = some k) ∧ (s.portIs ((s.queue queue).producer) (.spool pe thread) = true) ∧ ((s.queue queue).wptr ≠ (s.queue queue).cptr) :=
  ⟨w [(GEN_MODE_MODE, 4), (BT_STATUS_RUNNING, 1), (BT_ROLE_n 3, 1)] [] fun u => { u with env := { u.env with queues := [(9, { Queue.unused with producer := 19, consumer := 19, limit := 64, wptr := 2, words := [QWord.notValid, QWord.notValid], openBy := some (true, 3) })] } }, 3, 1, 0, 9, by decide⟩

/-- QueueOperationsOfEngines, the premises for deq. -/
theorem witness_QueueOperationsOfEngines_3 : ∃ (s : State) (pe : Fin 16) (thread : Fin 4) (k : Nat) (queue : Fin 4096) (n : Fin 16) (stop : Bool) (_out : BitVec 18),
    (s.canIssue pe = true) ∧ ((s.engine pe).freeSlot = some k) ∧ (s.portIs ((s.queue queue).consumer) (.spool pe thread) = true) ∧ (((s.queue queue).readable (n.val + 1) stop).all (fun x => !x.poison) = true) ∧ ((s.queue queue).skipping = false) :=
  ⟨w [(GEN_MODE_MODE, 4), (BT_STATUS_RUNNING, 1), (BT_ROLE_n 3, 1)] [] fun u => { u with env := { u.env with queues := [(9, { Queue.unused with producer := 19, consumer := 19, limit := 64, cptr := 4, wptr := 4, tail := 4, words := packetWords [1, 2, 3, 4, 5, 6, 7, 8, 9, 10, 11, 12, 13, 14, 15, 16, 17, 18, 19, 20, 21, 22, 23, 24, 25, 26, 27, 28, 29, 30], packets := [⟨0, 4, 1, 30, 0, none, 0, 0, 0, none, none⟩] })] } }, 3, 1, 0, 9, 2, true, 0, by decide +kernel⟩

/-- QueueOperationsOfEngines, the premises for mark. -/
theorem witness_QueueOperationsOfEngines_4 : ∃ (s : State) (pe : Fin 16) (thread : Fin 4) (k : Nat) (queue : Fin 4096),
    (s.canIssue pe = true) ∧ ((s.engine pe).freeSlot = some k) ∧ (s.portIs ((s.queue queue).consumer) (.spool pe thread) = true) :=
  ⟨w [(GEN_MODE_MODE, 4), (BT_STATUS_RUNNING, 1), (BT_ROLE_n 3, 1)] [] fun u => { u with env := { u.env with queues := [(9, { Queue.unused with producer := 19, consumer := 19, limit := 64, cptr := 4, wptr := 4, tail := 4, rptr := 2, mark := 1, words := packetWords [1, 2, 3, 4, 5, 6, 7, 8, 9, 10, 11, 12, 13, 14, 15, 16, 17, 18, 19, 20, 21, 22, 23, 24, 25, 26, 27, 28, 29, 30], packets := [⟨0, 4, 1, 30, 0, none, 0, 0, 0, none, none⟩] })] } }, 3, 1, 0, 9, by decide⟩

/-- QueueOperationsOfEngines, the premises for rewind. -/
theorem witness_QueueOperationsOfEngines_5 : ∃ (s : State) (pe : Fin 16) (thread : Fin 4) (k : Nat) (queue : Fin 4096),
    (s.canIssue pe = true) ∧ ((s.engine pe).freeSlot = some k) ∧ (s.portIs ((s.queue queue).consumer) (.spool pe thread) = true) :=
  ⟨w [(GEN_MODE_MODE, 4), (BT_STATUS_RUNNING, 1), (BT_ROLE_n 3, 1)] [] fun u => { u with env := { u.env with queues := [(9, { Queue.unused with producer := 19, consumer := 19, limit := 64, cptr := 4, wptr := 4, tail := 4, rptr := 2, mark := 1, words := packetWords [1, 2, 3, 4, 5, 6, 7, 8, 9, 10, 11, 12, 13, 14, 15, 16, 17, 18, 19, 20, 21, 22, 23, 24, 25, 26, 27, 28, 29, 30], packets := [⟨0, 4, 1, 30, 0, none, 0, 0, 0, none, none⟩] })] } }, 3, 1, 0, 9, by decide⟩

/-- QueueOperationsOfEngines, the premises for release. -/
theorem witness_QueueOperationsOfEngines_6 : ∃ (s : State) (pe : Fin 16) (thread : Fin 4) (k : Nat) (queue : Fin 4096),
    (s.canIssue pe = true) ∧ ((s.engine pe).freeSlot = some k) ∧ (s.portIs ((s.queue queue).consumer) (.spool pe thread) = true) :=
  ⟨w [(GEN_MODE_MODE, 4), (BT_STATUS_RUNNING, 1), (BT_ROLE_n 3, 1)] [] fun u => { u with env := { u.env with queues := [(9, { Queue.unused with producer := 19, consumer := 19, limit := 64, cptr := 4, wptr := 4, tail := 4, rptr := 2, mark := 1, words := packetWords [1, 2, 3, 4, 5, 6, 7, 8, 9, 10, 11, 12, 13, 14, 15, 16, 17, 18, 19, 20, 21, 22, 23, 24, 25, 26, 27, 28, 29, 30], packets := [⟨0, 4, 1, 30, 0, none, 0, 0, 0, none, none⟩] })] } }, 3, 1, 0, 9, by decide⟩

/-- QueueCommandsAndScrubbing, the premises for queueReadCfg. -/
theorem witness_QueueCommandsAndScrubbing_1 : ∃ (s : State) (iface : HostIface) (queue : Fin 4096),
    (s.reaches iface = true) ∧ (s.permits ENV_QCMD = true) ∧ (s.bit ENV_QCMD_STAT_BUSY = false) ∧ (s.mode.inService = true) ∧ ((s.queue queue).producer ≠ 0) :=
  ⟨w [(GEN_MODE_MODE, 4), (BT_STATUS_RUNNING, 1), (HIF_CFG_SPI_EN, 1), (⟨ENV_REGr_SIZE 1, 0, 13⟩, 8)] [(ENV_QDATAx 0, 40)] fun u => { u with fuse := { u.fuse with rows := [(0, 0x0F)] }, env := { u.env with queues := [(9, { Queue.unused with producer := 1, consumer := 5, limit := 64, cptr := 4, wptr := 4, tail := 4, rptr := 2, mark := 1, words := packetWords [1, 2, 3, 4, 5, 6, 7, 8, 9, 10, 11, 12, 13, 14, 15, 16, 17, 18, 19, 20, 21, 22, 23, 24, 25, 26, 27, 28, 29, 30], packets := [⟨0, 4, 1, 30, 0, none, 0, 0, 0, none, none⟩] })] } }, .spi, 9, by decide +kernel⟩

/-- QueueCommandsAndScrubbing, the premises for queueReadState. -/
theorem witness_QueueCommandsAndScrubbing_2 : ∃ (s : State) (iface : HostIface) (queue : Fin 4096),
    (s.reaches iface = true) ∧ (s.permits ENV_QCMD = true) ∧ (s.bit ENV_QCMD_STAT_BUSY = false) ∧ (s.mode.inService = true) ∧ ((s.queue queue).producer ≠ 0) :=
  ⟨w [(GEN_MODE_MODE, 4), (BT_STATUS_RUNNING, 1), (HIF_CFG_SPI_EN, 1), (⟨ENV_REGr_SIZE 1, 0, 13⟩, 8)] [(ENV_QDATAx 0, 40)] fun u => { u with fuse := { u.fuse with rows := [(0, 0x0F)] }, env := { u.env with queues := [(9, { Queue.unused with producer := 1, consumer := 5, limit := 64, cptr := 4, wptr := 4, tail := 4, rptr := 2, mark := 1, words := packetWords [1, 2, 3, 4, 5, 6, 7, 8, 9, 10, 11, 12, 13, 14, 15, 16, 17, 18, 19, 20, 21, 22, 23, 24, 25, 26, 27, 28, 29, 30], packets := [⟨0, 4, 1, 30, 0, none, 0, 0, 0, none, none⟩] })] } }, .spi, 9, by decide +kernel⟩

/-- QueueCommandsAndScrubbing, the premises for queueWriteCfg. -/
theorem witness_QueueCommandsAndScrubbing_3 : ∃ (s : State) (iface : HostIface) (queue : Fin 4096),
    (s.reaches iface = true) ∧ (s.permits ENV_QCMD = true) ∧ (s.bit ENV_QCMD_STAT_BUSY = false) ∧ (s.mode.inService = true) ∧ ((s.queue queue).producer ≠ 0) ∧ (s.mode.paired = false) ∧ (s.badQueueCfg queue (s.reg (ENV_QDATAx 0)).toNat (s.reg (ENV_QDATAx 1)).toNat (s.reg (ENV_QDATAx 2)).toNat (s.reg (ENV_QDATAx 3)).toNat = false) :=
  ⟨w [(GEN_MODE_MODE, 4), (BT_STATUS_RUNNING, 1), (HIF_CFG_SPI_EN, 1), (⟨ENV_REGr_SIZE 1, 0, 13⟩, 8)] [(ENV_QDATAx 0, 40)] fun u => { u with fuse := { u.fuse with rows := [(0, 0x0F)] }, env := { u.env with queues := [(9, { Queue.unused with producer := 1, consumer := 5, limit := 64, cptr := 4, wptr := 4, tail := 4, rptr := 2, mark := 1, words := packetWords [1, 2, 3, 4, 5, 6, 7, 8, 9, 10, 11, 12, 13, 14, 15, 16, 17, 18, 19, 20, 21, 22, 23, 24, 25, 26, 27, 28, 29, 30], packets := [⟨0, 4, 1, 30, 0, none, 0, 0, 0, none, none⟩] })] } }, .spi, 9, by decide +kernel⟩

/-- QueueCommandsAndScrubbing, the premises for queueFlush. -/
theorem witness_QueueCommandsAndScrubbing_4 : ∃ (s : State) (iface : HostIface) (queue : Fin 4096),
    (s.reaches iface = true) ∧ (s.permits ENV_QCMD = true) ∧ (s.bit ENV_QCMD_STAT_BUSY = false) ∧ (s.mode.inService = true) ∧ ((s.queue queue).producer ≠ 0) ∧ (s.mode.paired = false) :=
  ⟨w [(GEN_MODE_MODE, 4), (BT_STATUS_RUNNING, 1), (HIF_CFG_SPI_EN, 1), (⟨ENV_REGr_SIZE 1, 0, 13⟩, 8)] [(ENV_QDATAx 0, 40)] fun u => { u with fuse := { u.fuse with rows := [(0, 0x0F)] }, env := { u.env with queues := [(9, { Queue.unused with producer := 1, consumer := 5, limit := 64, cptr := 4, wptr := 4, tail := 4, rptr := 2, mark := 1, words := packetWords [1, 2, 3, 4, 5, 6, 7, 8, 9, 10, 11, 12, 13, 14, 15, 16, 17, 18, 19, 20, 21, 22, 23, 24, 25, 26, 27, 28, 29, 30], packets := [⟨0, 4, 1, 30, 0, none, 0, 0, 0, none, none⟩] })] } }, .spi, 9, by decide +kernel⟩

/-- QueueCommandsAndScrubbing, the premises for queueWriteCfg. -/
theorem witness_QueueCommandsAndScrubbing_5 : ∃ (s : State) (index : Fin 4096) (c : HostCmd) (queue : Fin 4096),
    (s.cmdAt index (fun o => o == 0x0202) = some c) ∧ (c.mirrored = false) ∧ (c.arg 0 2 = queue) ∧ (s.mode.inService = true) ∧ ((s.queue queue).producer ≠ 0) ∧ (s.badQueueCfg queue (c.arg 4 4) (c.arg 8 4) (c.arg 12 4) (c.arg 16 4) = false) :=
  ⟨w [(GEN_MODE_MODE, 4), (BT_STATUS_RUNNING, 1), (⟨ENV_REGr_SIZE 1, 0, 13⟩, 8)] [] fun u => { u with hif := { u.hif with cmds := [⟨1, 0x0202, 7, 5, 3, [9, 0, 0, 0, 40], .spi, false⟩] }, env := { u.env with queues := [(9, { Queue.unused with producer := 1, consumer := 5, limit := 64, cptr := 4, wptr := 4, tail := 4, rptr := 2, mark := 1, words := packetWords [1, 2, 3, 4, 5, 6, 7, 8, 9, 10, 11, 12, 13, 14, 15, 16, 17, 18, 19, 20, 21, 22, 23, 24, 25, 26, 27, 28, 29, 30], packets := [⟨0, 4, 1, 30, 0, none, 0, 0, 0, none, none⟩] })] } }, 5, ⟨1, 0x0202, 7, 5, 3, [9, 0, 0, 0, 40], .spi, false⟩, 9, by decide +kernel⟩

/-- QueueCommandsAndScrubbing, the premises for queueFlush. -/
theorem witness_QueueCommandsAndScrubbing_6 : ∃ (s : State) (index : Fin 4096) (c : HostCmd) (queue : Fin 4096),
    (s.cmdAt index (fun o => o == 0x0204) = some c) ∧ (c.mirrored = false) ∧ (c.arg 0 2 = queue) ∧ (s.mode.inService = true) ∧ ((s.queue queue).producer ≠ 0) :=
  ⟨w [(GEN_MODE_MODE, 4), (BT_STATUS_RUNNING, 1)] [] fun u => { u with hif := { u.hif with cmds := [⟨1, 0x0204, 7, 5, 3, [9, 0], .spi, false⟩] }, env := { u.env with queues := [(9, { Queue.unused with producer := 1, consumer := 5, limit := 64, cptr := 4, wptr := 4, tail := 4, rptr := 2, mark := 1, words := packetWords [1, 2, 3, 4, 5, 6, 7, 8, 9, 10, 11, 12, 13, 14, 15, 16, 17, 18, 19, 20, 21, 22, 23, 24, 25, 26, 27, 28, 29, 30], packets := [⟨0, 4, 1, 30, 0, none, 0, 0, 0, none, none⟩] })] } }, 5, ⟨1, 0x0204, 7, 5, 3, [9, 0], .spi, false⟩, 9, by decide +kernel⟩

/-- QueueCommandsAndScrubbing, the premises for envQcmdComplete. -/
theorem witness_QueueCommandsAndScrubbing_7 : ∃ (s : State) (c : QCmd),
    (s.u.env.cmd = some c) :=
  ⟨w [(GEN_MODE_MODE, 4), (BT_STATUS_RUNNING, 1), (ENV_QCMD_STAT_BUSY, 1)] [] fun u => { u with env := { u.env with cmd := some ⟨2, []⟩ } }, ⟨2, []⟩, by decide⟩

/-- QueueCommandsAndScrubbing, the premises for scrubBurst. -/
theorem witness_QueueCommandsAndScrubbing_8 : ∃ (s : State) (_corrected : Bool) (_uncorrectable : Bool),
    (s.bit ENV_ECC_CFG_SCRUB_EN = true) ∧ (s.mode.inService = true) ∧ (s.u.env.scrubAt + 1 ≠ bursts) :=
  ⟨w [(GEN_MODE_MODE, 4), (BT_STATUS_RUNNING, 1), (ENV_ECC_CFG_SCRUB_EN, 1)] [] id, true, true, by decide⟩

/-- QueueCommandsAndScrubbing, the premises for fcHoldExpiry. -/
theorem witness_QueueCommandsAndScrubbing_9 : ∃ (s : State) (group : Fin 8) (b : Bool),
    (s.u.env.fcHold = [(group.val, b)]) ∧ (s.mode.runs = true) ∧ (group.val < 4) ∧ (Nat.testBit (s.fld ENV_FC_CTL_EN) group = true) ∧ (s.groupState group = true) :=
  ⟨w [(GEN_MODE_MODE, 4), (BT_STATUS_RUNNING, 1), (ENV_FC_CTL_EN, 255)] [] fun u => { u with env := { u.env with fcHold := [(2, false)], queues := [(9, { Queue.unused with producer := 1, consumer := 5, limit := 64, group := 2, fcEn := true, fc := true })] } }, 2, false, by decide⟩

/-- TimeKeeper, the premises for timeSecond. -/
theorem witness_TimeKeeper_1 : ∃ (s : State) (_edges : BitVec 40) (_nap : Fin 101),
    (s.bit TK_STATUS_RUNNING = true) :=
  ⟨w [(GEN_MODE_MODE, 4), (BT_STATUS_RUNNING, 1), (TK_STATUS_RUNNING, 1)] [] id, 9, 3, by decide⟩

/-- TimeKeeper, the premises for timeResidueFail. -/
theorem witness_TimeKeeper_4 : ∃ (s : State) (_again : Bool),
    (s.bit TK_STATUS_RUNNING = true) :=
  ⟨w [(GEN_MODE_MODE, 4), (BT_STATUS_RUNNING, 1), (TK_STATUS_RUNNING, 1)] [] id, true, by decide⟩

/-- TimeKeeper, the premises for tkStepGo. -/
theorem witness_TimeKeeper_5 : ∃ (s : State) (src : Option HostIface) (value : BitVec 32),
    ((match src with | none => true | some i => s.reaches i && s.permits TK_STEP_CMD) = true) ∧ (Nat.testBit value.toNat 0 = true) ∧ (s.bit TK_STATUS_STEP_BUSY = false) ∧ (s.fld TK_STEP_NS_NS < 1000000000) ∧ (s.bit TK_STATUS_ARMED = true) ∧ (s.bit BT_STATUS_RUNNING = true) :=
  ⟨w [(GEN_MODE_MODE, 4), (BT_STATUS_RUNNING, 1), (HIF_CFG_SPI_EN, 1), (TK_STATUS_ARMED, 1)] [] fun u => { u with fuse := { u.fuse with rows := [(0, 0x0F)] } }, some .spi, 1, by decide⟩

/-- TimeKeeper, the premises for tkRearm. -/
theorem witness_TimeKeeper_6 : ∃ (s : State) (iface : HostIface),
    (s.reaches iface = true) ∧ (s.permits TK_REARM = true) ∧ (s.armed TK_REARM = some 0x5A5A0003) ∧ (s.bit TK_STATUS_STEP_BUSY = false) :=
  ⟨w [(GEN_MODE_MODE, 4), (BT_STATUS_RUNNING, 1), (HIF_CFG_SPI_EN, 1)] [] fun u => { u with fuse := { u.fuse with rows := [(0, 0x0F)] }, hif := { u.hif with armed := [(TK_REARM, 0x5A5A0003)] } }, .spi, by decide⟩

/-- TimeKeeper, the premises for tkIncrWrite. -/
theorem witness_TimeKeeper_7 : ∃ (s : State) (src : Option HostIface) (_value : BitVec 32) (_edges : BitVec 40),
    ((match src with | none => true | some i => s.reaches i && s.permits TK_INCR_INT) = true) :=
  ⟨w [(GEN_MODE_MODE, 4), (BT_STATUS_RUNNING, 1), (HIF_CFG_SPI_EN, 1), (TK_STATUS_RUNNING, 1)] [] fun u => { u with fuse := { u.fuse with rows := [(0, 0x0F)] } }, none, 4, 7, by decide⟩

/-- TimeKeeper, the premises for tkServoWrite. -/
theorem witness_TimeKeeper_8 : ∃ (s : State) (src : Option HostIface) (value : BitVec 32),
    ((match src with | none => true | some i => s.reaches i && s.permits TK_SERVO) = true) ∧ (fieldOf value 0 2 ≠ 3) :=
  ⟨w [(GEN_MODE_MODE, 4), (BT_STATUS_RUNNING, 1), (HIF_CFG_SPI_EN, 1), (TK_STATUS_RUNNING, 1)] [] fun u => { u with fuse := { u.fuse with rows := [(0, 0x0F)] } }, none, 1, by decide⟩

/-- TimeKeeper, the premises for servoWatchdogExpiry. -/
theorem witness_TimeKeeper_9 : ∃ (s : State),
    (s.fld TK_STATUS_STATE = tkLocked) :=
  ⟨w [(GEN_MODE_MODE, 4), (BT_STATUS_RUNNING, 1), (TK_STATUS_RUNNING, 1), (TK_STATUS_STATE, 1)] [] id, by decide⟩

/-- TimeKeeper, the premises for holdoverTraceExpiry. -/
theorem witness_TimeKeeper_10 : ∃ (s : State),
    (s.fld TK_STATUS_STATE = tkHoldover) ∧ (s.u.tk.holdTrace = true) :=
  ⟨w [(GEN_MODE_MODE, 4), (BT_STATUS_RUNNING, 1), (TK_STATUS_RUNNING, 1), (TK_STATUS_STATE, 2), (TK_STATUS_TRACE, 1)] [] fun u => { u with tk := { u.tk with holdTrace := true } }, by decide⟩

/-- TimeKeeper, the premises for tsiEdge. -/
theorem witness_TimeKeeper_11 : ∃ (s : State) (input : Fin 4) (_rising : Bool) (_edges : BitVec 40) (_phase : Fin 4),
    (s.bit TK_STATUS_RUNNING = true) ∧ (s.fld (TK_TSI_CFG_EDGE input) = 3) ∧ (s.u.tk.tsiLast.get? input = none) ∧ ((s.u.tk.fifos.getD input []).length < 16) :=
  ⟨w [(GEN_MODE_MODE, 4), (BT_STATUS_RUNNING, 1), (TK_STATUS_RUNNING, 1), (TK_TSI_CFG_EDGE 2, 3)] [] id, 2, true, 9, 1, by decide⟩

/-- TimeKeeper, the premises for tkCapReq. -/
theorem witness_TimeKeeper_12 : ∃ (s : State) (iface : HostIface) (value : BitVec 32) (c : Capture) (rest : List Capture),
    (s.reaches iface = true) ∧ (s.permits TK_CAP_REQ = true) ∧ (s.bit (TK_TSI_CFG_SERVO (fieldOf value 0 2)) = false) ∧ (s.u.tk.fifos.getD (fieldOf value 0 2) [] = c :: rest) :=
  ⟨w [(GEN_MODE_MODE, 4), (BT_STATUS_RUNNING, 1), (HIF_CFG_SPI_EN, 1), (TK_STATUS_RUNNING, 1)] [] fun u => { u with fuse := { u.fuse with rows := [(0, 0x0F)] }, tk := { u.tk with fifos := [(1, [⟨5, 7, true, false, 3⟩])] } }, .spi, 1, ⟨5, 7, true, false, 3⟩, [], by decide⟩

/-- TimeKeeper, the premises for tkTimeReq. -/
theorem witness_TimeKeeper_13 : ∃ (s : State) (iface : HostIface) (_edges : BitVec 40),
    (s.reaches iface = true) ∧ (s.permits TK_TIME_REQ = true) ∧ (s.bit TK_STATUS_RUNNING = true) :=
  ⟨w [(GEN_MODE_MODE, 4), (BT_STATUS_RUNNING, 1), (HIF_CFG_SPI_EN, 1), (TK_STATUS_RUNNING, 1)] [] fun u => { u with fuse := { u.fuse with rows := [(0, 0x0F)] } }, .spi, 9, by decide⟩

/-- Scheduling, the premises for uplinkSelect. -/
theorem witness_Scheduling_1 : ∃ (s : State) (port : EthPort) (c : Nat) (fin : Nat) (h : PacketInfo) (q : Nat),
    (s.portFree port = true) ∧ ((s.u.eth.port port.idx).chosen = none) ∧ (s.uplinkChoice port.idx = some (c, fin)) ∧ (s.flowHead port.idx c = some h) ∧ (s.classQueue port.idx c = some q) :=
  ⟨w [(GEN_MODE_MODE, 4), (BT_STATUS_RUNNING, 1), (ETH_STATUS_Pp_UP .p0, 1)] [] fun u => { u with env := { u.env with queues := [(9, { Queue.unused with producer := 3, consumer := 5, limit := 64, cptr := 1, wptr := 1, tail := 1, words := packetWords [1, 2, 3], packets := [⟨0, 1, 3, 40, 0, none, 0, 0, 0, none, none⟩] })] } }, .p0, 0, 0, ⟨0, 1, 3, 40, 0, none, 0, 0, 0, none, none⟩, 9, by decide +kernel⟩

/-- Scheduling, the premises for shaperTick. -/
theorem witness_Scheduling_2 : ∃ (s : State) (k : Fin 16),
    (s.bit TK_STATUS_RUNNING = true) ∧ (s.mode.inService = true) ∧ (s.bit (SCH_ULk_CFG_SHAPE_EN k) = true) :=
  ⟨w [(GEN_MODE_MODE, 4), (BT_STATUS_RUNNING, 1), (TK_STATUS_RUNNING, 1), (SCH_ULk_CFG_SHAPE_EN 3, 1)] [] id, 3, by decide⟩

/-- Scheduling, the premises for schSnapshotReq. -/
theorem witness_Scheduling_4 : ∃ (s : State) (iface : HostIface) (_value : BitVec 32),
    (s.reaches iface = true) ∧ (s.permits SCH_SNAP_REQ = true) :=
  ⟨w [(GEN_MODE_MODE, 4), (BT_STATUS_RUNNING, 1), (HIF_CFG_SPI_EN, 1)] [] fun u => { u with fuse := { u.fuse with rows := [(0, 0x0F)] }, sch := { u.sch with v := [(2, 77)] } }, .spi, 2, by decide⟩

/-- Scheduling, the premises for beatSnapshotReq. -/
theorem witness_Scheduling_5 : ∃ (s : State) (iface : HostIface),
    (s.reaches iface = true) ∧ (s.permits BT_BEAT_REQ = true) :=
  ⟨w [(GEN_MODE_MODE, 4), (BT_STATUS_RUNNING, 1), (HIF_CFG_SPI_EN, 1)] [] fun u => { u with fuse := { u.fuse with rows := [(0, 0x0F)] } }, .spi, by decide⟩

/-- KeyCommands, the premises for unwrapToSlot. -/
theorem witness_KeyCommands_1 : ∃ (s : State) (index : Fin 4096) (c : HostCmd),
    (s.cmdAt index (fun o => o == 0x0501) = some c) ∧ (c.mirrored = false) ∧ ((c.arg 0 2) < 1024) ∧ (s.slotBusy (c.arg 0 2) = false) ∧ (s.mode.runs = true) ∧ (s.usable (c.arg 2 2) 5 = true) ∧ ((s.slot (c.arg 2 2)).depth < 3) ∧ ((s.slot (c.arg 0 2)).has 8 = false) ∧ (permsWithin (permsOf (c.arg 4 4)) (permsOf (s.slot (c.arg 2 2)).attr) = true) ∧ (s.tagOk (c.arg 2 2) = true) ∧ (Nat.testBit (c.arg 4 4) 6 = false) ∧ (Nat.testBit (c.arg 4 4) 7 = false) :=
  ⟨w [(GEN_MODE_MODE, 4), (BT_STATUS_RUNNING, 1)] [] fun u => { u with hif := { u.hif with cmds := [⟨1, 0x0501, 7, 5, 3, [5, 0, 2, 0, 1, 0, 0, 0] ++ [191, 59, 119, 181, 233, 12, 170, 159, 80, 9, 254, 150, 38, 228, 239, 226, 13, 237, 117, 238, 59, 26, 192, 213], .spi, false⟩] }, sec := { u.sec with slots := [(2, tagged 33)], integrity := some [0, 0, 0, 0, 0, 0, 0, 0, 0, 0, 0, 0, 0, 0, 0, 0] } }, 5, ⟨1, 0x0501, 7, 5, 3, [5, 0, 2, 0, 1, 0, 0, 0] ++ [191, 59, 119, 181, 233, 12, 170, 159, 80, 9, 254, 150, 38, 228, 239, 226, 13, 237, 117, 238, 59, 26, 192, 213], .spi, false⟩, by decide, by decide, by decide, by decide, by decide, by decide, by decide, by decide, by decide, tagOk_of [0, 0, 0, 0, 0, 0, 0, 0, 0, 0, 0, 0, 0, 0, 0, 0] ⟨0, 33, 0xFFFF, 0, 0, .valid⟩ rfl rfl, by decide, by decide⟩

/-- KeyCommands, the premises for deriveToSlot. -/
theorem witness_KeyCommands_2 : ∃ (s : State) (index : Fin 4096) (c : HostCmd),
    (s.cmdAt index (fun o => o == 0x0502) = some c) ∧ (c.mirrored = false) ∧ ((c.arg 0 2) < 1024) ∧ (s.slotBusy (c.arg 0 2) = false) ∧ (s.mode.runs = true) ∧ (s.usable (c.arg 2 2) 3 = true) ∧ ((s.slot (c.arg 2 2)).depth < 3) ∧ ((s.slot (c.arg 0 2)).has 8 = false) ∧ (permsWithin (permsOf (c.arg 4 4)) (permsOf (s.slot (c.arg 2 2)).attr) = true) ∧ (s.tagOk (c.arg 2 2) = true) ∧ (Nat.testBit (c.arg 4 4) 7 = false) :=
  ⟨w [(GEN_MODE_MODE, 4), (BT_STATUS_RUNNING, 1)] [] fun u => { u with hif := { u.hif with cmds := [⟨1, 0x0502, 7, 5, 3, [5, 0, 2, 0, 1, 0, 0, 0, 9, 9, 9], .spi, false⟩] }, sec := { u.sec with slots := [(2, tagged 9)], integrity := some [0, 0, 0, 0, 0, 0, 0, 0, 0, 0, 0, 0, 0, 0, 0, 0] } }, 5, ⟨1, 0x0502, 7, 5, 3, [5, 0, 2, 0, 1, 0, 0, 0, 9, 9, 9], .spi, false⟩, by decide, by decide, by decide, by decide, by decide, by decide, by decide, by decide, by decide, tagOk_of [0, 0, 0, 0, 0, 0, 0, 0, 0, 0, 0, 0, 0, 0, 0, 0] ⟨0, 9, 0xFFFF, 0, 0, .valid⟩ rfl rfl, by decide⟩

/-- KeyCommands, the premises for restrict. -/
theorem witness_KeyCommands_3 : ∃ (s : State) (index : Fin 4096) (c : HostCmd),
    (s.cmdAt index (fun o => o == 0x0503) = some c) ∧ (c.mirrored = false) ∧ ((c.arg 0 2) < 1024) ∧ (s.slotBusy (c.arg 0 2) = false) ∧ (s.mode.runs = true) ∧ ((s.slot (c.arg 0 2)).state = .valid) ∧ ((s.slot (c.arg 0 2)).has 8 = false) ∧ ((s.slot (c.arg 0 2)).has 7 = false) :=
  ⟨w [(GEN_MODE_MODE, 4), (BT_STATUS_RUNNING, 1)] [] fun u => { u with hif := { u.hif with cmds := [⟨1, 0x0503, 7, 5, 3, [5, 0, 1, 0, 0, 0], .spi, false⟩] }, sec := { u.sec with slots := [(5, ⟨0, 3, 65535, 0, 0, .valid⟩)], integrity := none } }, 5, ⟨1, 0x0503, 7, 5, 3, [5, 0, 1, 0, 0, 0], .spi, false⟩, by decide⟩

/-- KeyCommands, the premises for erase. -/
theorem witness_KeyCommands_4 : ∃ (s : State) (index : Fin 4096) (c : HostCmd),
    (s.cmdAt index (fun o => o == 0x0504) = some c) ∧ (c.mirrored = false) ∧ ((c.arg 0 2) < 1024) ∧ (s.slotBusy (c.arg 0 2) = false) ∧ (s.mode.runs = true) ∧ ((s.slot (c.arg 0 2)).has 8 = false) :=
  ⟨w [(GEN_MODE_MODE, 4), (BT_STATUS_RUNNING, 1)] [] fun u => { u with hif := { u.hif with cmds := [⟨1, 0x0504, 7, 5, 3, [5, 0], .spi, false⟩] }, sec := { u.sec with slots := [(5, ⟨0, 3, 65535, 0, 0, .valid⟩)], integrity := none } }, 5, ⟨1, 0x0504, 7, 5, 3, [5, 0], .spi, false⟩, by decide⟩

/-- KeyCommands, the premises for wrapToPartner. -/
theorem witness_KeyCommands_5 : ∃ (s : State) (source : Fin 1024),
    (s.mode.runs = true) ∧ ((s.slot source).parent ≠ 0xFFFF) ∧ (s.bit SEC_ROOTMAP_PAIR_WRAP_EN = true) ∧ ((s.slot source).state = .valid) ∧ (s.usable (s.fld SEC_ROOTMAP_PAIR_WRAP) 4 = true) ∧ (s.tagOk (s.fld SEC_ROOTMAP_PAIR_WRAP) = true) ∧ (s.bit PAIR_STATUS_LINK_UP = true) :=
  ⟨w [(GEN_MODE_MODE, 4), (BT_STATUS_RUNNING, 1), (SEC_ROOTMAP_PAIR_WRAP_EN, 1), (SEC_ROOTMAP_PAIR_WRAP, 2), (PAIR_STATUS_LINK_UP, 1)] [] fun u => { u with sec := { u.sec with integrity := some [0, 0, 0, 0, 0, 0, 0, 0, 0, 0, 0, 0, 0, 0, 0, 0], slots := [(2, tagged 16), (5, ⟨0, 3, 2, 0, 0, .valid⟩)] } }, 5, by decide, by decide, by decide, by decide, by decide, tagOk_of [0, 0, 0, 0, 0, 0, 0, 0, 0, 0, 0, 0, 0, 0, 0, 0] ⟨0, 16, 0xFFFF, 0, 0, .valid⟩ rfl rfl, by decide⟩

/-- KeyCommands, the premises for slotPersistConfirmed. -/
theorem witness_KeyCommands_6 : ∃ (s : State) (slot : Fin 1024) (x : SlotWrite) (k : KeySlot),
    (s.u.sec.writes = [x]) ∧ (x.slot = slot) ∧ (x.draining = false) ∧ (x.shadow = some k) :=
  ⟨w [(GEN_MODE_MODE, 4), (BT_STATUS_RUNNING, 1)] [] fun u => { u with sec := { u.sec with writes := [⟨5, some ⟨7, 1, 2, 1, 0, .valid⟩, false, none⟩] } }, 5, ⟨5, some ⟨7, 1, 2, 1, 0, .valid⟩, false, none⟩, ⟨7, 1, 2, 1, 0, .valid⟩, by decide⟩

/-- KeyCommands, the premises for slotDrainDone. -/
theorem witness_KeyCommands_7 : ∃ (s : State) (slot : Fin 1024) (x : SlotWrite) (k : KeySlot),
    ((s.u.sec.writes.find? fun w => w.slot == slot.val && w.draining) = some x) ∧ (x.shadow = some k) ∧ (s.slotHolders slot = 0) :=
  ⟨w [(GEN_MODE_MODE, 4), (BT_STATUS_RUNNING, 1)] [] fun u => { u with sec := { u.sec with writes := [⟨5, some ⟨7, 1, 2, 1, 0, .valid⟩, true, none⟩] } }, 5, ⟨5, some ⟨7, 1, 2, 1, 0, .valid⟩, true, none⟩, ⟨7, 1, 2, 1, 0, .valid⟩, by decide⟩

/-- KeyCommands, the premises for epochWriteConfirmed. -/
theorem witness_KeyCommands_8 : ∃ (s : State),
    (s.u.sec.roll = some false) ∧ (max s.epoch s.u.sec.rollFrom < 0xFFFF) :=
  ⟨w [(GEN_MODE_MODE, 4), (BT_STATUS_RUNNING, 1)] [] fun u => { u with sec := { u.sec with roll := some false } }, by decide⟩

/-- TamperAndFuses, the premises for tamperDebounced. -/
theorem witness_TamperAndFuses_2 : ∃ (s : State) (pin : Fin 2),
    ((if pin.val = 0 then s.u.sec.deb0 && s.bit SEC_TAMPER_CFG_T0_EN else s.u.sec.deb1 && s.bit SEC_TAMPER_CFG_T1_EN) = true) ∧ (s.mode = .solo) :=
  ⟨w [(GEN_MODE_MODE, 4), (BT_STATUS_RUNNING, 1), (SEC_TAMPER_CFG_T1_EN, 1)] [] fun u => { u with sec := { u.sec with deb1 := true } }, 1, by decide⟩

/-- TamperAndFuses, the premises for monitorExcursion. -/
theorem witness_TamperAndFuses_3 : ∃ (s : State) (_monitor : Fin 4),
    (s.u.pins.resetN = true) :=
  ⟨w [(GEN_MODE_MODE, 4), (BT_STATUS_RUNNING, 1)] [] id, 1, by decide⟩

/-- TamperAndFuses, the premises for secZeroise. -/
theorem witness_TamperAndFuses_4 : ∃ (s : State) (iface : HostIface),
    (s.reaches iface = true) ∧ (s.permits SEC_ZEROISE = true) ∧ (s.armed SEC_ZEROISE = some 0x5A5A0001) ∧ (s.mode = .solo) :=
  ⟨w [(GEN_MODE_MODE, 4), (BT_STATUS_RUNNING, 1), (HIF_CFG_SPI_EN, 1)] [] fun u => { u with fuse := { u.fuse with rows := [(0, 0x0F)] }, hif := { u.hif with armed := [(SEC_ZEROISE, 0x5A5A0001)] } }, .spi, by decide⟩

/-- TamperAndFuses, the premises for secTamperClr. -/
theorem witness_TamperAndFuses_5 : ∃ (s : State) (iface : HostIface) (_ticks : BitVec 40),
    (s.reaches iface = true) ∧ (s.permits SEC_TAMPER_CLR = true) ∧ (s.armed SEC_TAMPER_CLR = some 0x5A5A0002) ∧ (s.bit SEC_TAMPER_STAT_T0_NOW = false) ∧ (s.bit SEC_TAMPER_STAT_T1_NOW = false) ∧ (s.bit SEC_TAMPER_STAT_MON_NOW = false) ∧ (s.mode = .hold) :=
  ⟨w [(GEN_MODE_MODE, 11), (BT_STATUS_RUNNING, 1), (HIF_CFG_SPI_EN, 1), (SEC_TAMPER_STAT_LATCHED, 1)] [] fun u => { u with fuse := { u.fuse with rows := [(0, 0x0F)] }, hif := { u.hif with armed := [(SEC_TAMPER_CLR, 0x5A5A0002)] } }, .spi, 0, by decide⟩

/-- TamperAndFuses, the premises for slotReadMeta. -/
theorem witness_TamperAndFuses_6 : ∃ (s : State) (iface : HostIface) (_slot : Fin 1024),
    (s.reaches iface = true) ∧ (s.permits SEC_SLOT_CMD = true) ∧ (s.mode.runs = true) :=
  ⟨w [(GEN_MODE_MODE, 4), (BT_STATUS_RUNNING, 1), (HIF_CFG_SPI_EN, 1)] [] fun u => { u with fuse := { u.fuse with rows := [(0, 0x0F)] } }, .spi, 5, by decide⟩

/-- TamperAndFuses, the premises for slotVerifyTag. -/
theorem witness_TamperAndFuses_7 : ∃ (s : State) (iface : HostIface) (_slot : Fin 1024) (_upset : Bool),
    (s.reaches iface = true) ∧ (s.permits SEC_SLOT_CMD = true) ∧ (s.mode.runs = true) :=
  ⟨w [(GEN_MODE_MODE, 4), (BT_STATUS_RUNNING, 1), (HIF_CFG_SPI_EN, 1)] [] fun u => { u with fuse := { u.fuse with rows := [(0, 0x0F)] }, sec := { u.sec with slots := [(5, ⟨0, 3, 65535, 0, 0, .valid⟩)] } }, .spi, 5, true, by decide⟩

/-- TamperAndFuses, the premises for fuseReadReq. -/
theorem witness_TamperAndFuses_8 : ∃ (s : State) (iface : HostIface) (_value : BitVec 32),
    (s.reaches iface = true) ∧ (s.permits FUSE_READ_REQ = true) :=
  ⟨w [(GEN_MODE_MODE, 4), (BT_STATUS_RUNNING, 1), (HIF_CFG_SPI_EN, 1)] [] fun u => { u with fuse := { u.fuse with rows := [(0, 0x0F)] } }, .spi, 18, by decide⟩

/-- TamperAndFuses, the premises for fuseProg. -/
theorem witness_TamperAndFuses_9 : ∃ (s : State) (iface : HostIface) (v : BitVec 32),
    (s.reaches iface = true) ∧ (s.permits FUSE_PROG = true) ∧ (s.armed FUSE_PROG = some v) ∧ (v.toNat < 128) ∧ (s.bit FUSE_STATUS_PROG_BUSY = false) ∧ (fuseAllowed s.lifecycle v.toNat (s.reg FUSE_PROG_DATA) = true) :=
  ⟨w [(GEN_MODE_MODE, 4), (BT_STATUS_RUNNING, 1), (HIF_CFG_SPI_EN, 1)] [(FUSE_PROG_DATA, 6)] fun u => { u with fuse := { u.fuse with rows := [(0, 0x0F)] }, hif := { u.hif with armed := [(FUSE_PROG, 29)] } }, .spi, 29, by decide⟩

/-- TamperAndFuses, the premises for fuseAdvance. -/
theorem witness_TamperAndFuses_10 : ∃ (s : State) (iface : HostIface) (v : BitVec 32),
    (s.reaches iface = true) ∧ (s.permits FUSE_ADVANCE = true) ∧ (s.armed FUSE_ADVANCE = some v) ∧ (v.toNat = s.lifecycle + 1) ∧ (s.lifecycle = 1) ∧ (s.bit FUSE_STATUS_PROG_BUSY = false) :=
  ⟨w [(GEN_MODE_MODE, 4), (BT_STATUS_RUNNING, 1), (HIF_CFG_SPI_EN, 1)] [] fun u => { u with fuse := { u.fuse with rows := [(0, 0x0F)] }, hif := { u.hif with armed := [(FUSE_ADVANCE, 2)] } }, .spi, 2, by decide⟩

/-- TamperAndFuses, the premises for fuseProgDone. -/
theorem witness_TamperAndFuses_11 : ∃ (s : State) (_blown : BitVec 32) (j : FuseJob),
    (s.u.fuse.job = some j) ∧ (j.advance = false) ∧ (j.row ≠ 0) :=
  ⟨w [(GEN_MODE_MODE, 4), (BT_STATUS_RUNNING, 1)] [] fun u => { u with fuse := { u.fuse with job := some ⟨29, 6, false⟩ } }, 6, ⟨29, 6, false⟩, by decide⟩

/-- TamperAndFuses, the premises for debugAccessOpen. -/
theorem witness_TamperAndFuses_12 : ∃ (s : State),
    (s.lifecycle = 1) ∧ (Nat.testBit (s.fuseRow 0).toNat 16 = false) ∧ (s.mode = .solo) :=
  ⟨w [(GEN_MODE_MODE, 4), (BT_STATUS_RUNNING, 1)] [] fun u => { u with fuse := { u.fuse with rows := [(0, 0x0F)] } }, by decide⟩

/-- BackhaulPorts, the premises for ethAutodetectSwitch. -/
theorem witness_BackhaulPorts_1 : ∃ (s : State) (port : EthPort),
    (s.mode.portsOn = true) ∧ (s.lineMode port.idx = 3) ∧ (s.bit (ETH_STATUS_Pp_UP port) = false) :=
  ⟨w [(GEN_MODE_MODE, 4), (BT_STATUS_RUNNING, 1), (ETH_Pp_CFG_MODE 0, 3)] [] id, .p0, by decide⟩

/-- BackhaulPorts, the premises for ethLinkUp. -/
theorem witness_BackhaulPorts_2 : ∃ (s : State) (port : EthPort) (ten : Bool) (_rxPause : Bool),
    (s.mode.portsOn = true) ∧ (s.bit (ETH_STATUS_Pp_UP port) = false) ∧ (s.lineMode port.idx = 3 ∨ s.lineMode port.idx = (if ten then 2 else 1)) :=
  ⟨w [(GEN_MODE_MODE, 4), (BT_STATUS_RUNNING, 1), (ETH_Pp_CFG_MODE 0, 3)] [] id, .p0, true, true, by decide⟩

/-- BackhaulPorts, the premises for ethLinkDown. -/
theorem witness_BackhaulPorts_3 : ∃ (s : State) (port : EthPort),
    (s.bit (ETH_STATUS_Pp_UP port) = true) :=
  ⟨w [(GEN_MODE_MODE, 4), (BT_STATUS_RUNNING, 1), (ETH_STATUS_Pp_UP .p0, 1)] [] id, .p0, by decide⟩

/-- BackhaulPorts, the premises for ethFrameReceived. -/
theorem witness_BackhaulPorts_4 : ∃ (s : State) (port : EthPort) (_edges : BitVec 40) (_phase : Fin 4) (bytes : List Byte),
    (s.mode.portsOn = true) ∧ (s.u.pwr.driftEntry < 2) ∧ (s.bit (ETH_STATUS_Pp_UP port) = true) ∧ (64 ≤ bytes.length) ∧ (bytes.length ≤ (if s.mode.bridgeDefaults then 1536 else s.fld (ETH_Pp_CFG_MAX_LEN port.idx))) ∧ (bytes.drop (bytes.length - 4) = fcsOf (bytes.take (bytes.length - 4))) :=
  ⟨w [(GEN_MODE_MODE, 4), (BT_STATUS_RUNNING, 1), (ETH_STATUS_Pp_UP .p0, 1), (ETH_Pp_CFG_MAX_LEN 0, 1536)] [] id, .p0, 4, 0, [0, 0, 0, 0, 0, 0, 0, 0, 0, 0, 0, 0, 0, 0, 0, 0, 0, 0, 0, 0, 0, 0, 0, 0, 0, 0, 0, 0, 0, 0, 0, 0, 0, 0, 0, 0, 0, 0, 0, 0, 0, 0, 0, 0, 0, 0, 0, 0, 0, 0, 0, 0, 0, 0, 0, 0, 0, 0, 0, 0, 0x08, 0x89, 0x12, 0x04], by decide +kernel⟩

/-- BackhaulPorts, the premises for ethFrameReceived. -/
theorem witness_BackhaulPorts_5 : ∃ (s : State) (port : EthPort) (_edges : BitVec 40) (_phase : Fin 4) (_bytes : List Byte),
    (s.mode.portsOn = true) ∧ (s.u.pwr.driftEntry < 2) ∧ (s.bit (ETH_STATUS_Pp_UP port) = true) :=
  ⟨w [(GEN_MODE_MODE, 4), (BT_STATUS_RUNNING, 1), (ETH_STATUS_Pp_UP .p0, 1)] [] id, .p0, 4, 0, [1], by decide⟩

/-- BackhaulPorts, the premises for ethTxStart. -/
theorem witness_BackhaulPorts_7 : ∃ (s : State) (port : EthPort) (_edges : BitVec 40) (_phase : Fin 4) (q : Nat),
    (s.mode.portsOn = true) ∧ (s.bit (ETH_STATUS_Pp_UP port) = true) ∧ ((s.u.eth.port port.idx).sending = none) ∧ (s.bit (ETH_STATUS_Pp_PAUSED port) = false) ∧ ((s.u.eth.port port.idx).pauseNext = some q) :=
  ⟨w [(GEN_MODE_MODE, 4), (BT_STATUS_RUNNING, 1), (ETH_STATUS_Pp_UP .p0, 1)] [] fun u => { u with eth := { u.eth with p0 := { EthUnit.idle with pauseNext := some 77 } } }, .p0, 4, 0, 77, by decide⟩

/-- BackhaulPorts, the premises for ethTxStart. -/
theorem witness_BackhaulPorts_8 : ∃ (s : State) (port : EthPort) (_edges : BitVec 40) (_phase : Fin 4) (g : PtFrame) (rest : List PtFrame),
    (s.mode.portsOn = true) ∧ (s.bit (ETH_STATUS_Pp_UP port) = true) ∧ ((s.u.eth.port port.idx).sending = none) ∧ (s.bit (ETH_STATUS_Pp_PAUSED port) = false) ∧ ((s.u.eth.port port.idx).pauseNext = none) ∧ ((s.u.eth.port port.idx).own = []) ∧ ((s.u.eth.port port.idx).chosen = none) ∧ ((s.u.eth.port port.idx).fifo = g :: rest) ∧ (g.stamp = none) :=
  ⟨w [(GEN_MODE_MODE, 4), (BT_STATUS_RUNNING, 1), (ETH_STATUS_Pp_UP .p0, 1)] [] fun u => { u with eth := { u.eth with p0 := { EthUnit.idle with fifo := [⟨[1, 2, 3], none⟩] } } }, .p0, 4, 0, ⟨[1, 2, 3], none⟩, [], by decide⟩

/-- BackhaulPorts, the premises for ethTxDone. -/
theorem witness_BackhaulPorts_9 : ∃ (s : State) (port : EthPort) (_upset : Bool) (x : EthTx),
    ((s.u.eth.port port.idx).sending = some x) :=
  ⟨w [(GEN_MODE_MODE, 4), (BT_STATUS_RUNNING, 1), (ETH_STATUS_Pp_UP .p0, 1)] [] fun u => { u with eth := { u.eth with p0 := { EthUnit.idle with sending := some (.pause 7) } } }, .p0, false, .pause 7, by decide⟩

/-- BackhaulPorts, the premises for pauseRefresh. -/
theorem witness_BackhaulPorts_10 : ∃ (s : State) (port : EthPort),
    (s.bit (ETH_STATUS_Pp_PAUSING port) = true) ∧ ((s.u.eth.port port.idx).pauseNext = none) :=
  ⟨w [(GEN_MODE_MODE, 4), (BT_STATUS_RUNNING, 1), (ETH_STATUS_Pp_PAUSING .p0, 1)] [] id, .p0, by decide⟩

/-- BackhaulPorts, the premises for naAnnounce. -/
theorem witness_BackhaulPorts_11 : ∃ (s : State) (port : EthPort),
    (s.mode.sendsUplink = true) ∧ (s.bit (ETH_STATUS_Pp_UP port) = true) ∧ (0 < (s.u.eth.port port.idx).naLeft) :=
  ⟨w [(GEN_MODE_MODE, 4), (BT_STATUS_RUNNING, 1), (ETH_STATUS_Pp_UP .p0, 1)] [] fun u => { u with eth := { u.eth with p0 := { EthUnit.idle with naLeft := 3 } } }, .p0, by decide⟩

/-- BackhaulPorts, the premises for ethPortCfgWrite. -/
theorem witness_BackhaulPorts_12 : ∃ (s : State) (iface : HostIface) (port : EthPort) (_value : BitVec 32),
    (s.reaches iface = true) ∧ (s.permits (ETH_Pp_CFG port.idx) = true) :=
  ⟨w [(GEN_MODE_MODE, 4), (BT_STATUS_RUNNING, 1), (HIF_CFG_SPI_EN, 1)] [] fun u => { u with fuse := { u.fuse with rows := [(0, 0x0F)] } }, .spi, .p0, 3, by decide⟩

/-- BridgeUpkeep, the premises for bridgeAgeTick. -/
theorem witness_BridgeUpkeep_1 : ∃ (s : State),
    (s.mode.portsOn = true) :=
  ⟨w [(GEN_MODE_MODE, 4), (BT_STATUS_RUNNING, 1)] [] fun u => { u with eth := { u.eth with bridge := [(5, some ⟨5, 1, 0, false, false, 0, 0⟩)] }, tk := { u.tk with s := 900 } }, by decide⟩

/-- BridgeUpkeep, the premises for ethBrFlush. -/
theorem witness_BridgeUpkeep_2 : ∃ (s : State) (iface : HostIface) (value : BitVec 32),
    (s.reaches iface = true) ∧ (s.permits ETH_BR_CMD = true) ∧ (s.bit ETH_BR_STAT_BUSY = false) ∧ (fieldOf value 0 1 = 1) ∧ (fieldOf value 1 2 < 3) :=
  ⟨w [(GEN_MODE_MODE, 4), (BT_STATUS_RUNNING, 1), (HIF_CFG_SPI_EN, 1)] [] fun u => { u with fuse := { u.fuse with rows := [(0, 0x0F)] } }, .spi, 1, by decide⟩

/-- BridgeUpkeep, the premises for ethBrFlushDone. -/
theorem witness_BridgeUpkeep_3 : ∃ (s : State) (k : Nat),
    (s.u.eth.flush = some k) :=
  ⟨w [(GEN_MODE_MODE, 4), (BT_STATUS_RUNNING, 1), (ETH_BR_STAT_BUSY, 1)] [] fun u => { u with eth := { u.eth with bridge := [(5, some ⟨5, 1, 0, false, false, 0, 0⟩)], flush := some 0 } }, 0, by decide⟩

/-- LinkAndTether, the premises for pairLinkUp. -/
theorem witness_LinkAndTether_1 : ∃ (s : State),
    (s.paired = true) ∧ (s.bit PAIR_STATUS_LINK_UP = false) :=
  ⟨w [(GEN_MODE_MODE, 7), (BT_STATUS_RUNNING, 1), (GEN_MODE_PAIR_CFG, 1), (PAIR_STATUS_PSTATE, 3), (PAIR_STATUS_LINK_UP, 1), (PAIR_STATUS_LINK_UP, 0)] [] fun u => { u with bt := { u.bt with beat := 50 } }, by decide⟩

/-- LinkAndTether, the premises for pairLinkDown. -/
theorem witness_LinkAndTether_2 : ∃ (s : State),
    (s.bit PAIR_STATUS_LINK_UP = true) :=
  ⟨w [(GEN_MODE_MODE, 7), (BT_STATUS_RUNNING, 1), (GEN_MODE_PAIR_CFG, 1), (PAIR_STATUS_PSTATE, 2), (PAIR_STATUS_LINK_UP, 1), (PAIR_STATUS_TETHER_OK, 1)] [] fun u => { u with bt := { u.bt with beat := 50 } }, by decide⟩

/-- LinkAndTether, the premises for tetherSend. -/
theorem witness_LinkAndTether_3 : ∃ (s : State),
    (s.paired = true) ∧ (s.bit BT_STATUS_RUNNING = true) ∧ (s.mode ≠ .hold) ∧ (s.bit PAIR_STATUS_LINK_UP = true) :=
  ⟨w [(GEN_MODE_MODE, 7), (BT_STATUS_RUNNING, 1), (GEN_MODE_PAIR_CFG, 1), (PAIR_STATUS_PSTATE, 2), (PAIR_STATUS_LINK_UP, 1)] [] fun u => { u with bt := { u.bt with beat := 50 } }, by decide⟩

/-- LinkAndTether, the premises for tetherReceived. -/
theorem witness_LinkAndTether_4 : ∃ (s : State) (lseq : BitVec 32) (_x : TetherIn),
    (s.paired = true) ∧ (s.bit PAIR_STATUS_LINK_UP = true) ∧ (s.u.pair.lseqIn.getD lseq.toNat = lseq.toNat) :=
  ⟨w [(GEN_MODE_MODE, 7), (BT_STATUS_RUNNING, 1), (GEN_MODE_PAIR_CFG, 1), (PAIR_STATUS_PSTATE, 2), (PAIR_STATUS_LINK_UP, 1)] [] fun u => { u with bt := { u.bt with beat := 50 } }, 7, ⟨50, 2, 6, 200, 1, 49, 48⟩, by decide⟩

/-- LinkAndTether, the premises for tetherMiss. -/
theorem witness_LinkAndTether_5 : ∃ (s : State),
    (s.paired = true) :=
  ⟨w [(GEN_MODE_MODE, 7), (BT_STATUS_RUNNING, 1), (GEN_MODE_PAIR_CFG, 1), (PAIR_STATUS_PSTATE, 2), (PAIR_STATUS_LINK_UP, 1)] [] fun u => { u with bt := { u.bt with beat := 50 } }, by decide⟩

/-- LinkAndTether, the premises for tetherLost. -/
theorem witness_LinkAndTether_6 : ∃ (s : State),
    (s.bit PAIR_STATUS_TETHER_OK = true) :=
  ⟨w [(GEN_MODE_MODE, 7), (BT_STATUS_RUNNING, 1), (GEN_MODE_PAIR_CFG, 1), (PAIR_STATUS_PSTATE, 2), (PAIR_STATUS_LINK_UP, 1), (PAIR_STATUS_TETHER_OK, 1)] [] fun u => { u with bt := { u.bt with beat := 50 } }, by decide⟩

/-- LinkAndTether, the premises for resendReceived. -/
theorem witness_LinkAndTether_9 : ∃ (s : State) (lseq : BitVec 32) (_wanted : BitVec 32),
    (s.bit PAIR_STATUS_LINK_UP = true) ∧ (s.u.pair.lseqIn.getD lseq.toNat = lseq.toNat) :=
  ⟨w [(GEN_MODE_MODE, 7), (BT_STATUS_RUNNING, 1), (GEN_MODE_PAIR_CFG, 1), (PAIR_STATUS_PSTATE, 2), (PAIR_STATUS_LINK_UP, 1)] [] fun u => { u with bt := { u.bt with beat := 50 }, pair := { u.pair with out := [⟨6, 50, .time⟩] } }, 7, 5, by decide⟩

/-- LinkAndTether, the premises for linkFrameCrcFail. -/
theorem witness_LinkAndTether_10 : ∃ (s : State),
    (s.bit PAIR_STATUS_LINK_UP = true) :=
  ⟨w [(GEN_MODE_MODE, 7), (BT_STATUS_RUNNING, 1), (GEN_MODE_PAIR_CFG, 1), (PAIR_STATUS_PSTATE, 2), (PAIR_STATUS_LINK_UP, 1)] [] fun u => { u with bt := { u.bt with beat := 50 } }, by decide⟩

/-- PairRecords, the premises for inputReceived. -/
theorem witness_PairRecords_1 : ∃ (s : State) (lseq : BitVec 32) (beat : BitVec 32) (_entries : List RecEntry),
    (s.bit PAIR_STATUS_LINK_UP = true) ∧ (s.u.pair.lseqIn.getD lseq.toNat = lseq.toNat) ∧ (s.pstate = 5) ∧ (s.u.pair.execd < (s.nearBeat beat.toNat)) :=
  ⟨w [(GEN_MODE_MODE, 7), (BT_STATUS_RUNNING, 1), (GEN_MODE_PAIR_CFG, 1), (PAIR_STATUS_PSTATE, 5), (PAIR_STATUS_LINK_UP, 1)] [] fun u => { u with bt := { u.bt with beat := 50 } }, 7, 52, [], by decide⟩

/-- PairRecords, the premises for sealReceived. -/
theorem witness_PairRecords_2 : ∃ (s : State) (lseq : BitVec 32) (beat : BitVec 32) (count : BitVec 32),
    (s.bit PAIR_STATUS_LINK_UP = true) ∧ (s.u.pair.lseqIn.getD lseq.toNat = lseq.toNat) ∧ (s.pstate = 5) ∧ (s.u.pair.execd < (s.nearBeat beat.toNat)) ∧ (s.workBeat ≠ (s.nearBeat beat.toNat)) ∧ (((recordAdd (s.nearBeat beat.toNat) [] s.u.pair.recs).any fun r => r.beat == (s.nearBeat beat.toNat) && r.entries.length == count.toNat) = true) :=
  ⟨w [(GEN_MODE_MODE, 7), (BT_STATUS_RUNNING, 1), (GEN_MODE_PAIR_CFG, 1), (PAIR_STATUS_PSTATE, 5), (PAIR_STATUS_LINK_UP, 1)] [] fun u => { u with bt := { u.bt with beat := 50 } }, 7, 52, 0, by decide⟩

/-- PairRecords, the premises for sealWaitExpiry. -/
theorem witness_PairRecords_3 : ∃ (s : State),
    (s.shadows = true) ∧ (s.u.pair.execd < s.workBeat) ∧ (s.pstate = 5) :=
  ⟨w [(GEN_MODE_MODE, 7), (BT_STATUS_RUNNING, 1), (GEN_MODE_PAIR_CFG, 1), (PAIR_STATUS_PSTATE, 5), (PAIR_STATUS_LINK_UP, 1)] [] fun u => { u with bt := { u.bt with beat := 50 } }, by decide⟩

/-- PairRecords, the premises for digestReceived. -/
theorem witness_PairRecords_4 : ∃ (s : State) (lseq : BitVec 32) (beat : BitVec 32) (_plan : BitVec 64) (_uplink : BitVec 64) (_log : BitVec 64) (_b0 : BitVec 64) (_b1 : BitVec 64) (_b2 : BitVec 64) (_b3 : BitVec 64),
    (s.bit PAIR_STATUS_LINK_UP = true) ∧ (s.u.pair.lseqIn.getD lseq.toNat = lseq.toNat) ∧ ((s.u.pair.own.find? fun d => d.beat == (s.nearBeat beat.toNat)) = none) :=
  ⟨w [(GEN_MODE_MODE, 7), (BT_STATUS_RUNNING, 1), (GEN_MODE_PAIR_CFG, 1), (PAIR_STATUS_PSTATE, 2), (PAIR_STATUS_LINK_UP, 1)] [] fun u => { u with bt := { u.bt with beat := 50 } }, 7, 50, 1, 2, 3, 4, 5, 6, 7, by decide⟩

/-- PairRecords, the premises for diversityReceived. -/
theorem witness_PairRecords_5 : ∃ (s : State) (lseq : BitVec 32) (_x : AirRx),
    (s.bit PAIR_STATUS_LINK_UP = true) ∧ (s.u.pair.lseqIn.getD lseq.toNat = lseq.toNat) ∧ (s.mode.serves = true) ∧ (s.live = true) ∧ (s.pstate ≠ 8) :=
  ⟨w [(GEN_MODE_MODE, 5), (BT_STATUS_RUNNING, 1), (GEN_MODE_PAIR_CFG, 1), (PAIR_STATUS_PSTATE, 2), (PAIR_STATUS_LINK_UP, 1)] [] fun u => { u with bt := { u.bt with beat := 50 } }, 7, ⟨0, 20, false, 50000000, 0xFEE8, 0xFE70, 0, 0, 0, [1, 2]⟩, by decide⟩

/-- PairRecords, the premises for llrReceived. -/
theorem witness_PairRecords_6 : ∃ (s : State) (lseq : BitVec 32) (decoder : Fin 80) (codeword : Fin 16) (stopNs : BitVec 64) (llrs : List (BitVec 6)) (f : RxFrame) (c : Codeword),
    (s.bit PAIR_STATUS_LINK_UP = true) ∧ (s.u.pair.lseqIn.getD lseq.toNat = lseq.toNat) ∧ (llrs.length = 1152) ∧ (s.mode = .standby) ∧ (s.u.rx.frames = [f]) ∧ (f.decoder = decoder) ∧ (s.sampleNs f.stop = stopNs.toNat) ∧ (f.cws[codeword.val]? = some c) ∧ (c.result = .fail) ∧ (c.llrs ≠ []) :=
  ⟨w [(GEN_MODE_MODE, 6), (BT_STATUS_RUNNING, 1), (GEN_MODE_PAIR_CFG, 1), (PAIR_STATUS_PSTATE, 5), (PAIR_STATUS_LINK_UP, 1)] [] fun u => { u with bt := { u.bt with beat := 50 }, rx := { u.rx with frames := [⟨0, 0, 1, 20, false, 900, 5000, -280, -400, 0, 0, 0, true, true, [⟨3, [7], .fail⟩]⟩] } }, 7, 0, 0, BitVec.ofNat 64 50040690, List.replicate 1152 0, ⟨0, 0, 1, 20, false, 900, 5000, -280, -400, 0, 0, 0, true, true, [⟨3, [7], .fail⟩]⟩, ⟨3, [7], .fail⟩, by decide +kernel⟩

/-- PairRecords, the premises for bulkReceived. -/
theorem witness_PairRecords_7 : ∃ (s : State) (lseq : BitVec 32) (_bcast : BitVec 32) (_join : BitVec 32),
    (s.bit PAIR_STATUS_LINK_UP = true) ∧ (s.u.pair.lseqIn.getD lseq.toNat = lseq.toNat) ∧ (s.pstate = 4) ∧ (s.u.pair.syncFrom = none) :=
  ⟨w [(GEN_MODE_MODE, 7), (BT_STATUS_RUNNING, 1), (GEN_MODE_PAIR_CFG, 1), (PAIR_STATUS_PSTATE, 4), (PAIR_STATUS_LINK_UP, 1)] [] fun u => { u with bt := { u.bt with beat := 50 } }, 7, 5, 6, by decide⟩

/-- PairRecords, the premises for timeFrameReceived. -/
theorem witness_PairRecords_8 : ∃ (s : State) (lseq : BitVec 32) (_sent : BitVec 64) (_echo : BitVec 64) (_edges : BitVec 40),
    (s.bit PAIR_STATUS_LINK_UP = true) ∧ (s.u.pair.lseqIn.getD lseq.toNat = lseq.toNat) ∧ (s.pstate = 4) ∧ (s.bit TK_STATUS_ARMED = true) ∧ (s.bit TK_STATUS_STEP_BUSY = false) :=
  ⟨w [(GEN_MODE_MODE, 7), (BT_STATUS_RUNNING, 1), (GEN_MODE_PAIR_CFG, 1), (PAIR_STATUS_PSTATE, 4), (PAIR_STATUS_LINK_UP, 1), (TK_STATUS_ARMED, 1), (TK_STATUS_RUNNING, 1)] [] fun u => { u with bt := { u.bt with beat := 50 } }, 7, 9, 4, 3, by decide⟩

/-- PairRecords, the premises for blockFrameReceived. -/
theorem witness_PairRecords_9 : ∃ (s : State) (lseq : BitVec 32) (table : Fin 4) (block : BitVec 8) (entries : List (BitVec 128)),
    (s.bit PAIR_STATUS_LINK_UP = true) ∧ (s.u.pair.lseqIn.getD lseq.toNat = lseq.toNat) ∧ (entries.length = 1024) ∧ (s.shadows = true) ∧ (block.toNat < tableBlocks table) :=
  ⟨w [(GEN_MODE_MODE, 7), (BT_STATUS_RUNNING, 1), (GEN_MODE_PAIR_CFG, 1), (PAIR_STATUS_PSTATE, 5), (PAIR_STATUS_LINK_UP, 1)] [] fun u => { u with bt := { u.bt with beat := 50 } }, 7, 1, 2, List.replicate 1024 0, by decide +kernel⟩

/-- PairingAndSwitchovers, the premises for helloReceived. -/
theorem witness_PairingAndSwitchovers_1 : ∃ (s : State) (lseq : BitVec 32) (_h : Hello),
    (s.bit PAIR_STATUS_LINK_UP = true) ∧ (s.u.pair.lseqIn.getD lseq.toNat = lseq.toNat) ∧ (s.pstate = 1) :=
  ⟨w [(GEN_MODE_MODE, 7), (BT_STATUS_RUNNING, 1), (GEN_MODE_PAIR_CFG, 1), (PAIR_STATUS_PSTATE, 1), (PAIR_STATUS_LINK_UP, 1)] [] fun u => { u with bt := { u.bt with beat := 50 } }, 7, ⟨0, 0, 0, [], true⟩, by decide⟩

/-- PairingAndSwitchovers, the premises for switchReceived. -/
theorem witness_PairingAndSwitchovers_2 : ∃ (s : State) (lseq : BitVec 32) (_beat : BitVec 32),
    (s.bit PAIR_STATUS_LINK_UP = true) ∧ (s.u.pair.lseqIn.getD lseq.toNat = lseq.toNat) ∧ (s.pstate = 5) ∧ (s.u.pair.switch = none) :=
  ⟨w [(GEN_MODE_MODE, 7), (BT_STATUS_RUNNING, 1), (GEN_MODE_PAIR_CFG, 1), (PAIR_STATUS_PSTATE, 5), (PAIR_STATUS_LINK_UP, 1)] [] fun u => { u with bt := { u.bt with beat := 50 } }, 7, 54, by decide⟩

/-- PairingAndSwitchovers, the premises for switchAckReceived. -/
theorem witness_PairingAndSwitchovers_3 : ∃ (s : State) (lseq : BitVec 32) (beat : BitVec 32) (x : Switch),
    (s.bit PAIR_STATUS_LINK_UP = true) ∧ (s.u.pair.lseqIn.getD lseq.toNat = lseq.toNat) ∧ (s.u.pair.switch = some x) ∧ (x.acked = false) ∧ (x.h = (s.nearBeat beat.toNat)) :=
  ⟨w [(GEN_MODE_MODE, 7), (BT_STATUS_RUNNING, 1), (GEN_MODE_PAIR_CFG, 1), (PAIR_STATUS_PSTATE, 2), (PAIR_STATUS_LINK_UP, 1)] [] fun u => { u with bt := { u.bt with beat := 50 }, pair := { u.pair with switch := some ⟨54, true, false, 50, true, 1⟩ } }, 7, 54, ⟨54, true, false, 50, true, 1⟩, by decide⟩

/-- PairingAndSwitchovers, the premises for switchAckTimeout. -/
theorem witness_PairingAndSwitchovers_4 : ∃ (s : State) (x : Switch),
    (s.u.pair.switch = some x) ∧ (x.acked = false) ∧ (x.sentAt + 2 ≤ s.u.bt.beat) :=
  ⟨w [(GEN_MODE_MODE, 7), (BT_STATUS_RUNNING, 1), (GEN_MODE_PAIR_CFG, 1), (PAIR_STATUS_PSTATE, 2), (PAIR_STATUS_LINK_UP, 1)] [] fun u => { u with bt := { u.bt with beat := 52 }, pair := { u.pair with switch := some ⟨54, true, false, 50, true, 1⟩ } }, ⟨54, true, false, 50, true, 1⟩, by decide⟩

/-- PairingAndSwitchovers, the premises for switchoverAliveClaim. -/
theorem witness_PairingAndSwitchovers_5 : ∃ (s : State),
    (s.pstate = 7) ∧ (s.u.pair.takeover = none) ∧ (s.bit PAIR_STATUS_ALIVE_LOW = false) :=
  ⟨w [(GEN_MODE_MODE, 7), (BT_STATUS_RUNNING, 1), (GEN_MODE_PAIR_CFG, 1), (PAIR_STATUS_PSTATE, 7), (PAIR_STATUS_LINK_UP, 1)] [] fun u => { u with bt := { u.bt with beat := 50 } }, by decide⟩

/-- PairingAndSwitchovers, the premises for arbReceived. -/
theorem witness_PairingAndSwitchovers_6 : ∃ (s : State) (lseq : BitVec 32) (_verdict : Verdict) (_score : BitVec 8) (a : Arb),
    (s.bit PAIR_STATUS_LINK_UP = true) ∧ (s.u.pair.lseqIn.getD lseq.toNat = lseq.toNat) ∧ (s.u.pair.arb = some a) :=
  ⟨w [(GEN_MODE_MODE, 7), (BT_STATUS_RUNNING, 1), (GEN_MODE_PAIR_CFG, 1), (PAIR_STATUS_PSTATE, 2), (PAIR_STATUS_LINK_UP, 1)] [] fun u => { u with bt := { u.bt with beat := 50 }, pair := { u.pair with arb := some ⟨48, none, none, 49⟩ } }, 7, .consistent, 9, ⟨48, none, none, 49⟩, by decide⟩

/-- PairingAndSwitchovers, the premises for yieldReceived. -/
theorem witness_PairingAndSwitchovers_7 : ∃ (s : State) (lseq : BitVec 32),
    (s.bit PAIR_STATUS_LINK_UP = true) ∧ (s.u.pair.lseqIn.getD lseq.toNat = lseq.toNat) :=
  ⟨w [(GEN_MODE_MODE, 7), (BT_STATUS_RUNNING, 1), (GEN_MODE_PAIR_CFG, 1), (PAIR_STATUS_PSTATE, 2), (PAIR_STATUS_LINK_UP, 1)] [] fun u => { u with bt := { u.bt with beat := 50 } }, 7, by decide⟩

/-- PairingAndSwitchovers, the premises for reexecutionDone. -/
theorem witness_PairingAndSwitchovers_8 : ∃ (s : State) (_consistent : Bool) (a : Arb),
    (s.u.pair.arb = some a) ∧ (a.start ≤ s.u.bt.beat) ∧ (a.own = none) :=
  ⟨w [(GEN_MODE_MODE, 7), (BT_STATUS_RUNNING, 1), (GEN_MODE_PAIR_CFG, 1), (PAIR_STATUS_PSTATE, 2), (PAIR_STATUS_LINK_UP, 1)] [] fun u => { u with bt := { u.bt with beat := 50 }, pair := { u.pair with arb := some ⟨48, none, none, 49⟩ } }, true, ⟨48, none, none, 49⟩, by decide⟩

/-- PairingAndSwitchovers, the premises for reexecutionDeadline. -/
theorem witness_PairingAndSwitchovers_9 : ∃ (s : State) (a : Arb),
    (s.u.pair.arb = some a) ∧ (a.start + 3 ≤ s.u.bt.beat) ∧ (a.own = none) :=
  ⟨w [(GEN_MODE_MODE, 7), (BT_STATUS_RUNNING, 1), (GEN_MODE_PAIR_CFG, 1), (PAIR_STATUS_PSTATE, 2), (PAIR_STATUS_LINK_UP, 1)] [] fun u => { u with bt := { u.bt with beat := 55 }, pair := { u.pair with arb := some ⟨48, none, none, 49⟩ } }, ⟨48, none, none, 49⟩, by decide⟩

/-- PairingAndSwitchovers, the premises for startClaim. -/
theorem witness_PairingAndSwitchovers_10 : ∃ (s : State),
    (s.pstate = 3) ∧ (s.bit PAIR_STATUS_ALIVE_LOW = false) ∧ (s.bit BT_STATUS_RUNNING = true) ∧ (s.bit PAIR_STATUS_TETHER_OK = false) ∧ (s.bit PAIR_STATUS_ROLE_A = true ∨ s.fld PAIR_TIMING_BOOT_WAIT_S ≤ s.u.pair.quiet) :=
  ⟨w [(GEN_MODE_MODE, 7), (BT_STATUS_RUNNING, 1), (GEN_MODE_PAIR_CFG, 1), (PAIR_STATUS_PSTATE, 3), (PAIR_STATUS_LINK_UP, 1), (PAIR_STATUS_ROLE_A, 1)] [] fun u => { u with bt := { u.bt with beat := 50 } }, by decide⟩

/-- PairingAndSwitchovers, the premises for takeoverDecision. -/
theorem witness_PairingAndSwitchovers_11 : ∃ (s : State),
    (s.pstate = 5) ∧ (s.bit PAIR_STATUS_TETHER_OK = false) ∧ (s.bit PAIR_STATUS_ALIVE_LOW = false) ∧ (s.u.pair.takeover = none) :=
  ⟨w [(GEN_MODE_MODE, 7), (BT_STATUS_RUNNING, 1), (GEN_MODE_PAIR_CFG, 1), (PAIR_STATUS_PSTATE, 5), (PAIR_STATUS_LINK_UP, 1)] [] fun u => { u with bt := { u.bt with beat := 50 } }, by decide⟩

/-- PairingAndSwitchovers, the premises for staleTakeoverExpiry. -/
theorem witness_PairingAndSwitchovers_12 : ∃ (s : State),
    (s.pstate = 6) ∧ (s.bit PAIR_CFG_STALE_TAKEOVER = true) ∧ (s.bit PAIR_STATUS_ALIVE_LOW = false) ∧ (s.u.pair.takeover = none) :=
  ⟨w [(GEN_MODE_MODE, 7), (BT_STATUS_RUNNING, 1), (GEN_MODE_PAIR_CFG, 1), (PAIR_STATUS_PSTATE, 6), (PAIR_STATUS_LINK_UP, 1), (PAIR_CFG_STALE_TAKEOVER, 1)] [] fun u => { u with bt := { u.bt with beat := 50 } }, by decide⟩

/-- PairingAndSwitchovers, the premises for syncTimeout. -/
theorem witness_PairingAndSwitchovers_13 : ∃ (s : State) (b : Nat),
    (s.pstate = 4) ∧ (s.u.pair.syncAt = some b) ∧ (b + 120000 ≤ s.u.bt.beat) :=
  ⟨w [(GEN_MODE_MODE, 7), (BT_STATUS_RUNNING, 1), (GEN_MODE_PAIR_CFG, 1), (PAIR_STATUS_PSTATE, 4), (PAIR_STATUS_LINK_UP, 1)] [] fun u => { u with bt := { u.bt with beat := 120050 }, pair := { u.pair with syncAt := some 50 } }, 50, by decide⟩

/-- PairingAndSwitchovers, the premises for syncRetryExpiry. -/
theorem witness_PairingAndSwitchovers_14 : ∃ (s : State) (b : Nat),
    (s.u.pair.retryAt = some b) ∧ (b ≤ s.u.bt.beat) :=
  ⟨w [(GEN_MODE_MODE, 7), (BT_STATUS_RUNNING, 1), (GEN_MODE_PAIR_CFG, 1), (PAIR_STATUS_PSTATE, 4), (PAIR_STATUS_LINK_UP, 1)] [] fun u => { u with bt := { u.bt with beat := 50 }, pair := { u.pair with retryAt := some 50 } }, 50, by decide⟩

/-- PairingAndSwitchovers, the premises for reclaimHoldExpiry. -/
theorem witness_PairingAndSwitchovers_15 : ∃ (s : State),
    (s.bit PAIR_CFG_REVERTIVE = true) ∧ (s.u.pair.holdRuns = true) ∧ (s.u.pair.holdS = 0) ∧ (Act.holdGood s = true) ∧ (s.u.pair.switch = none) :=
  ⟨w [(GEN_MODE_MODE, 7), (BT_STATUS_RUNNING, 1), (GEN_MODE_PAIR_CFG, 1), (PAIR_STATUS_PSTATE, 5), (PAIR_STATUS_LINK_UP, 1), (PAIR_CFG_REVERTIVE, 1), (PAIR_STATUS_ROLE_A, 1)] [] fun u => { u with bt := { u.bt with beat := 50 }, pair := { u.pair with holdRuns := true } }, by decide⟩

/-- PairCommandsAndSelfTest, the premises for pairSwitch. -/
theorem witness_PairCommandsAndSelfTest_1 : ∃ (s : State) (iface : HostIface),
    (s.reaches iface = true) ∧ (s.permits PAIR_CMD = true) ∧ (s.bit PAIR_CMD_STAT_BUSY = false) ∧ (s.pstate = 2) ∧ (s.u.pair.switch = none) :=
  ⟨w [(GEN_MODE_MODE, 7), (BT_STATUS_RUNNING, 1), (HIF_CFG_SPI_EN, 1), (GEN_MODE_PAIR_CFG, 1), (PAIR_STATUS_PSTATE, 2)] [] fun u => { u with fuse := { u.fuse with rows := [(0, 0x0F)] } }, .spi, by decide⟩

/-- PairCommandsAndSelfTest, the premises for pairResync. -/
theorem witness_PairCommandsAndSelfTest_2 : ∃ (s : State) (iface : HostIface),
    (s.reaches iface = true) ∧ (s.permits PAIR_CMD = true) ∧ (s.bit PAIR_CMD_STAT_BUSY = false) ∧ (s.pstate = 5) :=
  ⟨w [(GEN_MODE_MODE, 7), (BT_STATUS_RUNNING, 1), (HIF_CFG_SPI_EN, 1), (GEN_MODE_PAIR_CFG, 1), (PAIR_STATUS_PSTATE, 5)] [] fun u => { u with fuse := { u.fuse with rows := [(0, 0x0F)] }, pair := { u.pair with barred := true } }, .spi, by decide⟩

/-- PairCommandsAndSelfTest, the premises for pairHoldReclaim. -/
theorem witness_PairCommandsAndSelfTest_3 : ∃ (s : State) (iface : HostIface),
    (s.reaches iface = true) ∧ (s.permits PAIR_CMD = true) ∧ (s.bit PAIR_CMD_STAT_BUSY = false) ∧ (s.paired = true) :=
  ⟨w [(GEN_MODE_MODE, 7), (BT_STATUS_RUNNING, 1), (HIF_CFG_SPI_EN, 1), (GEN_MODE_PAIR_CFG, 1), (PAIR_STATUS_PSTATE, 5)] [] fun u => { u with fuse := { u.fuse with rows := [(0, 0x0F)] }, pair := { u.pair with holdRuns := true } }, .spi, by decide⟩

/-- PairCommandsAndSelfTest, the premises for pairDetach. -/
theorem witness_PairCommandsAndSelfTest_4 : ∃ (s : State) (iface : HostIface),
    (s.reaches iface = true) ∧ (s.permits PAIR_CMD = true) ∧ (s.bit PAIR_CMD_STAT_BUSY = false) ∧ (s.pstate = 5) :=
  ⟨w [(GEN_MODE_MODE, 7), (BT_STATUS_RUNNING, 1), (HIF_CFG_SPI_EN, 1), (GEN_MODE_PAIR_CFG, 1), (PAIR_STATUS_PSTATE, 5)] [] fun u => { u with fuse := { u.fuse with rows := [(0, 0x0F)] } }, .spi, by decide⟩

/-- PairCommandsAndSelfTest, the premises for pairRoleOvr. -/
theorem witness_PairCommandsAndSelfTest_5 : ∃ (s : State) (iface : HostIface),
    (s.reaches iface = true) ∧ (s.permits PAIR_ROLE_OVR = true) ∧ (s.armed PAIR_ROLE_OVR = some 0x5A5A0011) :=
  ⟨w [(GEN_MODE_MODE, 4), (BT_STATUS_RUNNING, 1), (HIF_CFG_SPI_EN, 1)] [] fun u => { u with fuse := { u.fuse with rows := [(0, 0x0F)] }, hif := { u.hif with armed := [(PAIR_ROLE_OVR, 0x5A5A0011)] } }, .spi, by decide⟩

/-- PairCommandsAndSelfTest, the premises for pairDigReq. -/
theorem witness_PairCommandsAndSelfTest_6 : ∃ (s : State) (iface : HostIface) (_value : BitVec 32) (a : DigestSet) (b : DigestSet),
    (s.reaches iface = true) ∧ (s.permits PAIR_DIG_REQ = true) ∧ (s.u.pair.compared = some (a, b)) :=
  ⟨w [(GEN_MODE_MODE, 7), (BT_STATUS_RUNNING, 1), (HIF_CFG_SPI_EN, 1), (GEN_MODE_PAIR_CFG, 1), (PAIR_STATUS_PSTATE, 2)] [] fun u => { u with fuse := { u.fuse with rows := [(0, 0x0F)] }, pair := { u.pair with compared := some (⟨48, [1, 2, 3], [0, 0, 0, 0]⟩, ⟨48, [1, 2, 3], [0, 0, 0, 0]⟩) } }, .spi, 0, ⟨48, [1, 2, 3], [0, 0, 0, 0]⟩, ⟨48, [1, 2, 3], [0, 0, 0, 0]⟩, by decide⟩

/-- PairCommandsAndSelfTest, the premises for logicBistDone. -/
theorem witness_PairCommandsAndSelfTest_7 : ∃ (s : State) (pe : Fin 16),
    ((s.engine pe).bist = true) :=
  ⟨w [(GEN_MODE_MODE, 4), (BT_STATUS_RUNNING, 1)] [] fun u => { u with bt := { u.bt with engines := [(3, { Engine.idle with bist := true })] } }, 3, by decide⟩

/-- PairCommandsAndSelfTest, the premises for ldpcKat. -/
theorem witness_PairCommandsAndSelfTest_8 : ∃ (s : State) (_core : Fin 8) (_pass : Bool),
    (s.mode.runs = true) :=
  ⟨w [(GEN_MODE_MODE, 4), (BT_STATUS_RUNNING, 1)] [] id, 3, false, by decide⟩

/-- PairCommandsAndSelfTest, the premises for cipherKat. -/
theorem witness_PairCommandsAndSelfTest_9 : ∃ (s : State) (_core : Fin 8) (_pass : Bool),
    (s.mode.runs = true) :=
  ⟨w [(GEN_MODE_MODE, 4), (BT_STATUS_RUNNING, 1)] [] id, 3, false, by decide⟩

/-- PairCommandsAndSelfTest, the premises for ecdsaKat. -/
theorem witness_PairCommandsAndSelfTest_10 : ∃ (s : State) (_pass : Bool),
    (s.mode.runs = true) :=
  ⟨w [(GEN_MODE_MODE, 4), (BT_STATUS_RUNNING, 1)] [] id, false, by decide⟩

/-- PairCommandsAndSelfTest, the premises for radioLoopback. -/
theorem witness_PairCommandsAndSelfTest_11 : ∃ (s : State) (_chain : Chain) (_pass : Bool),
    (s.mode.runs = true) :=
  ⟨w [(GEN_MODE_MODE, 4), (BT_STATUS_RUNNING, 1)] [] id, .ts0, false, by decide⟩

/-- PairCommandsAndSelfTest, the premises for voterCheck. -/
theorem witness_PairCommandsAndSelfTest_12 : ∃ (s : State) (_pass : Bool),
    (s.mode.runs = true) :=
  ⟨w [(GEN_MODE_MODE, 4), (BT_STATUS_RUNNING, 1)] [] id, false, by decide⟩

/-- ImageLibrary, the premises for imageOpen. -/
theorem witness_ImageLibrary_1 : ∃ (s : State) (index : Fin 4096) (c : HostCmd) (slot : BitVec 8) (_nodeClass : BitVec 8) (blockSize : BitVec 16) (length : BitVec 32) (_version : BitVec 32) (_sha : BitVec 256),
    (s.cmdAt index (fun o => o == 0x0401) = some c) ∧ (c.mirrored = false) ∧ (slot.toNat < s.libSlots) ∧ (s.lib slot.toNat Lib.STATE = 0) ∧ (64 ≤ blockSize.toNat) ∧ (blockSize.toNat ≤ 896) ∧ (blockSize.toNat % 64 = 0) ∧ (0 < length.toNat) ∧ (length.toNat ≤ 2 ^ 23 - 64) ∧ (length.toNat ≤ blockSize.toNat * 65534) :=
  ⟨{ (w [(GEN_MODE_MODE, 4), (BT_STATUS_RUNNING, 1), (⟨ENV_REGr_SIZE 2, 0, 13⟩, 8), (⟨ENV_REGr_BASE 2, 0, 12⟩, 0x10), (⟨ENV_REGr_BASE 5, 0, 12⟩, 0x20)] [] fun u => { u with hif := { u.hif with cmds := [⟨1, 0x0401, 7, 5, 3, [], .spi, false⟩] } }) with mem := [] }, 5, ⟨1, 0x0401, 7, 5, 3, [], .spi, false⟩, 0, 0, 64, 64, 9, 0, by decide +kernel⟩

/-- ImageLibrary, the premises for imagePut. -/
theorem witness_ImageLibrary_2 : ∃ (s : State) (index : Fin 4096) (c : HostCmd) (slot : BitVec 8) (offset : BitVec 32) (bytes : BitVec 32) (crc : BitVec 32),
    (s.cmdAt index (fun o => o == 0x0402) = some c) ∧ (c.mirrored = false) ∧ (slot.toNat < s.libSlots) ∧ (s.lib slot.toNat Lib.STATE = 1) ∧ (blockInRange (s.lib slot.toNat Lib.LENGTH) offset.toNat bytes.toNat = true) ∧ (crc32 (s.bytes s.stagingBase (min bytes.toNat 65536)) = crc) :=
  ⟨{ (w [(GEN_MODE_MODE, 4), (BT_STATUS_RUNNING, 1), (⟨ENV_REGr_SIZE 2, 0, 13⟩, 8), (⟨ENV_REGr_BASE 2, 0, 12⟩, 0x10), (⟨ENV_REGr_BASE 5, 0, 12⟩, 0x20)] [] fun u => { u with hif := { u.hif with cmds := [⟨1, 0x0402, 7, 5, 3, [], .spi, false⟩] } }) with mem := [(16777216, 1), (16777218, 64), (16777220, 64), (16777224, 9)] }, 5, ⟨1, 0x0402, 7, 5, 3, [], .spi, false⟩, 0, 0, 64, 0x758d6336, by decide +kernel⟩

/-- ImageLibrary, the premises for imageClose. -/
theorem witness_ImageLibrary_3 : ∃ (s : State) (index : Fin 4096) (c : HostCmd) (slot : BitVec 8),
    (s.cmdAt index (fun o => o == 0x0403) = some c) ∧ (c.mirrored = false) ∧ (slot.toNat < s.libSlots) ∧ (s.lib slot.toNat Lib.STATE = 1) ∧ ((blockUnits 0 (s.lib slot.toNat Lib.LENGTH)).all ((s.u.img.maps.getD slot.toNat []).contains ·) = true) ∧ (Crypto.sha256 (natBytes (s.bytes (s.libSlot slot.toNat + 64) (s.lib slot.toNat Lib.LENGTH))) =
        natBytes (s.bytes (s.libSlot slot.toNat + 12) 32)) :=
  ⟨{ (w [(GEN_MODE_MODE, 4), (BT_STATUS_RUNNING, 1), (⟨ENV_REGr_SIZE 2, 0, 13⟩, 8), (⟨ENV_REGr_BASE 2, 0, 12⟩, 0x10), (⟨ENV_REGr_BASE 5, 0, 12⟩, 0x20)] [] fun u => { u with hif := { u.hif with cmds := [⟨1, 0x0403, 7, 5, 3, [], .spi, false⟩] }, img := { u.img with maps := [(0, [0])] } }) with mem := [(16777216, 1), (16777218, 64), (16777220, 64), (16777224, 9), (16777228, 245), (16777229, 165), (16777230, 253), (16777231, 66), (16777232, 209), (16777233, 106), (16777234, 32), (16777235, 48), (16777236, 39), (16777237, 152), (16777238, 239), (16777239, 110), (16777240, 211), (16777241, 9), (16777242, 151), (16777243, 155), (16777244, 67), (16777246, 61), (16777247, 35), (16777248, 32), (16777249, 217), (16777250, 240), (16777251, 232), (16777252, 234), (16777253, 152), (16777254, 49), (16777255, 169), (16777256, 39), (16777257, 89), (16777258, 251), (16777259, 75)] }, 5, ⟨1, 0x0403, 7, 5, 3, [], .spi, false⟩, 0, by decide +kernel⟩

/-- ImageLibrary, the premises for imageDelete. -/
theorem witness_ImageLibrary_4 : ∃ (s : State) (index : Fin 4096) (c : HostCmd) (slot : BitVec 8),
    (s.cmdAt index (fun o => o == 0x0404) = some c) ∧ (c.mirrored = false) ∧ (slot.toNat < s.libSlots) ∧ (s.lib slot.toNat Lib.USERS = 0) :=
  ⟨{ (w [(GEN_MODE_MODE, 4), (BT_STATUS_RUNNING, 1), (⟨ENV_REGr_SIZE 2, 0, 13⟩, 8), (⟨ENV_REGr_BASE 2, 0, 12⟩, 0x10), (⟨ENV_REGr_BASE 5, 0, 12⟩, 0x20)] [] fun u => { u with hif := { u.hif with cmds := [⟨1, 0x0404, 7, 5, 3, [], .spi, false⟩] }, img := { u.img with maps := [(0, [0])] } }) with mem := [(16777216, 2), (16777218, 64), (16777220, 64), (16777224, 9)] }, 5, ⟨1, 0x0404, 7, 5, 3, [], .spi, false⟩, 0, by decide +kernel⟩

/-- Campaigns, the premises for campaignCreate. -/
theorem witness_Campaigns_1 : ∃ (s : State) (index : Fin 4096) (c : HostCmd) (slot : BitVec 8) (_flags : BitVec 3) (p : CampParams) (r : Nat),
    (s.cmdAt index (fun o => o == 0x0410) = some c) ∧ (c.mirrored = false) ∧ (slot.toNat < s.libSlots) ∧ (s.lib slot.toNat Lib.STATE = 2) ∧ (campParamsOk p = true) ∧ (((List.range 16).find? fun q => s.camp q Camp.NUMBER == 0) = some r) :=
  ⟨{ (w [(GEN_MODE_MODE, 4), (BT_STATUS_RUNNING, 1), (⟨ENV_REGr_SIZE 2, 0, 13⟩, 8), (⟨ENV_REGr_BASE 2, 0, 12⟩, 0x10), (⟨ENV_REGr_BASE 5, 0, 12⟩, 0x20)] [] fun u => { u with hif := { u.hif with cmds := [⟨1, 0x0410, 7, 5, 3, [], .spi, false⟩] } }) with mem := [(16777216, 2), (16777218, 64), (16777220, 64), (16777224, 9)] }, 5, ⟨1, 0x0410, 7, 5, 3, [], .spi, false⟩, 0, 1, ⟨1, 1, 1, 1, 1, 10, 0, 60⟩, 0, by decide +kernel⟩

/-- Campaigns, the premises for campaignTarget. -/
theorem witness_Campaigns_2 : ∃ (s : State) (index : Fin 4096) (c : HostCmd) (number : BitVec 16) (r : Nat) (_add : Bool) (nodes : List (BitVec 24)),
    (s.cmdAt index (fun o => o == 0x0411) = some c) ∧ (c.mirrored = false) ∧ (s.libSlots ≠ 0) ∧ (s.campOf number.toNat = some r) ∧ (s.camp r Camp.STATE = 0) ∧ (0 < nodes.length) ∧ (nodes.length ≤ 10) :=
  ⟨{ (w [(GEN_MODE_MODE, 4), (BT_STATUS_RUNNING, 1), (⟨ENV_REGr_SIZE 2, 0, 13⟩, 8), (⟨ENV_REGr_BASE 2, 0, 12⟩, 0x10), (⟨ENV_REGr_BASE 5, 0, 12⟩, 0x20)] [] fun u => { u with hif := { u.hif with cmds := [⟨1, 0x0411, 7, 5, 3, [], .spi, false⟩] } }) with mem := [(16777216, 2), (16777218, 64), (16777220, 64), (16777224, 9), (16777260, 1), (34738176, 5), (34738182, 2), (34738192, 60), (34738240, 1), (34738241, 1), (34738242, 1), (34738244, 1), (34738245, 1), (34738248, 10)] }, 5, ⟨1, 0x0411, 7, 5, 3, [], .spi, false⟩, 5, 0, true, [7], by decide +kernel⟩

/-- Campaigns, the premises for campaignStart. -/
theorem witness_Campaigns_3 : ∃ (s : State) (index : Fin 4096) (c : HostCmd) (number : BitVec 16) (r : Nat),
    (s.cmdAt index (fun o => o == 0x0412) = some c) ∧ (c.mirrored = false) ∧ (s.libSlots ≠ 0) ∧ (s.campOf number.toNat = some r) ∧ (s.camp r Camp.STATE = 0) :=
  ⟨{ (w [(GEN_MODE_MODE, 4), (BT_STATUS_RUNNING, 1), (⟨ENV_REGr_SIZE 2, 0, 13⟩, 8), (⟨ENV_REGr_BASE 2, 0, 12⟩, 0x10), (⟨ENV_REGr_BASE 5, 0, 12⟩, 0x20)] [] fun u => { u with hif := { u.hif with cmds := [⟨1, 0x0412, 7, 5, 3, [], .spi, false⟩] } }) with mem := [(16777216, 2), (16777218, 64), (16777220, 64), (16777224, 9), (16777260, 1), (34738176, 5), (34738182, 2), (34738192, 60), (34738240, 1), (34738241, 1), (34738242, 1), (34738244, 1), (34738245, 1), (34738248, 10)] }, 5, ⟨1, 0x0412, 7, 5, 3, [], .spi, false⟩, 5, 0, by decide +kernel⟩

/-- Campaigns, the premises for campaignPause. -/
theorem witness_Campaigns_4 : ∃ (s : State) (index : Fin 4096) (c : HostCmd) (number : BitVec 16) (r : Nat),
    (s.cmdAt index (fun o => o == 0x0413) = some c) ∧ (c.mirrored = false) ∧ (s.libSlots ≠ 0) ∧ (s.campOf number.toNat = some r) ∧ (1 ≤ s.camp r Camp.STATE) ∧ (s.camp r Camp.STATE ≤ 3) :=
  ⟨{ (w [(GEN_MODE_MODE, 4), (BT_STATUS_RUNNING, 1), (⟨ENV_REGr_SIZE 2, 0, 13⟩, 8), (⟨ENV_REGr_BASE 2, 0, 12⟩, 0x10), (⟨ENV_REGr_BASE 5, 0, 12⟩, 0x20)] [] fun u => { u with hif := { u.hif with cmds := [⟨1, 0x0413, 7, 5, 3, [], .spi, false⟩] } }) with mem := [(16777216, 2), (16777218, 64), (16777220, 64), (16777224, 9), (16777260, 1), (34738176, 5), (34738178, 2), (34738182, 2), (34738192, 60), (34738240, 1), (34738241, 1), (34738242, 1), (34738244, 1), (34738245, 1), (34738248, 10)] }, 5, ⟨1, 0x0413, 7, 5, 3, [], .spi, false⟩, 5, 0, by decide +kernel⟩

/-- Campaigns, the premises for campaignResume. -/
theorem witness_Campaigns_5 : ∃ (s : State) (index : Fin 4096) (c : HostCmd) (number : BitVec 16) (r : Nat),
    (s.cmdAt index (fun o => o == 0x0413) = some c) ∧ (c.mirrored = false) ∧ (s.libSlots ≠ 0) ∧ (s.campOf number.toNat = some r) ∧ (s.camp r Camp.STATE = 4) :=
  ⟨{ (w [(GEN_MODE_MODE, 4), (BT_STATUS_RUNNING, 1), (⟨ENV_REGr_SIZE 2, 0, 13⟩, 8), (⟨ENV_REGr_BASE 2, 0, 12⟩, 0x10), (⟨ENV_REGr_BASE 5, 0, 12⟩, 0x20)] [] fun u => { u with hif := { u.hif with cmds := [⟨1, 0x0413, 7, 5, 3, [], .spi, false⟩] } }) with mem := [(16777216, 2), (16777218, 64), (16777220, 64), (16777224, 9), (16777260, 1), (34738176, 5), (34738178, 4), (34738182, 2), (34738192, 60), (34738240, 1), (34738241, 1), (34738242, 1), (34738244, 1), (34738245, 1), (34738248, 10)] }, 5, ⟨1, 0x0413, 7, 5, 3, [], .spi, false⟩, 5, 0, by decide +kernel⟩

/-- Campaigns, the premises for campaignCancel. -/
theorem witness_Campaigns_6 : ∃ (s : State) (index : Fin 4096) (c : HostCmd) (number : BitVec 16) (r : Nat),
    (s.cmdAt index (fun o => o == 0x0414) = some c) ∧ (c.mirrored = false) ∧ (s.libSlots ≠ 0) ∧ (s.campOf number.toNat = some r) ∧ (s.camp r Camp.STATE ≤ 4) :=
  ⟨{ (w [(GEN_MODE_MODE, 4), (BT_STATUS_RUNNING, 1), (⟨ENV_REGr_SIZE 2, 0, 13⟩, 8), (⟨ENV_REGr_BASE 2, 0, 12⟩, 0x10), (⟨ENV_REGr_BASE 5, 0, 12⟩, 0x20)] [] fun u => { u with hif := { u.hif with cmds := [⟨1, 0x0414, 7, 5, 3, [], .spi, false⟩] } }) with mem := [(16777216, 2), (16777218, 64), (16777220, 64), (16777224, 9), (16777260, 1), (34738176, 5), (34738178, 2), (34738182, 2), (34738192, 60), (34738240, 1), (34738241, 1), (34738242, 1), (34738244, 1), (34738245, 1), (34738248, 10)] }, 5, ⟨1, 0x0414, 7, 5, 3, [], .spi, false⟩, 5, 0, by decide +kernel⟩

/-- Campaigns, the premises for campaignQuery. -/
theorem witness_Campaigns_7 : ∃ (s : State) (index : Fin 4096) (c : HostCmd),
    (s.cmdAt index (fun o => o == 0x0415) = some c) ∧ (c.mirrored = false) ∧ (s.libSlots ≠ 0) :=
  ⟨{ (w [(GEN_MODE_MODE, 4), (BT_STATUS_RUNNING, 1), (⟨ENV_REGr_SIZE 2, 0, 13⟩, 8), (⟨ENV_REGr_BASE 2, 0, 12⟩, 0x10), (⟨ENV_REGr_BASE 5, 0, 12⟩, 0x20)] [] fun u => { u with hif := { u.hif with cmds := [⟨1, 0x0415, 7, 5, 3, [], .spi, false⟩] } }) with mem := [] }, 5, ⟨1, 0x0415, 7, 5, 3, [], .spi, false⟩, by decide +kernel⟩

/-- Campaigns, the premises for campaignClear. -/
theorem witness_Campaigns_8 : ∃ (s : State) (index : Fin 4096) (c : HostCmd) (number : BitVec 16) (r : Nat),
    (s.cmdAt index (fun o => o == 0x0416) = some c) ∧ (c.mirrored = false) ∧ (s.libSlots ≠ 0) ∧ (s.campOf number.toNat = some r) ∧ (5 ≤ s.camp r Camp.STATE) ∧ (s.camp r Camp.STATE ≤ 7) :=
  ⟨{ (w [(GEN_MODE_MODE, 4), (BT_STATUS_RUNNING, 1), (⟨ENV_REGr_SIZE 2, 0, 13⟩, 8), (⟨ENV_REGr_BASE 2, 0, 12⟩, 0x10), (⟨ENV_REGr_BASE 5, 0, 12⟩, 0x20)] [] fun u => { u with hif := { u.hif with cmds := [⟨1, 0x0416, 7, 5, 3, [], .spi, false⟩] } }) with mem := [(16777216, 2), (16777218, 64), (16777220, 64), (16777224, 9), (34738176, 5), (34738178, 5), (34738182, 2), (34738192, 60), (34738240, 1), (34738241, 1), (34738242, 1), (34738244, 1), (34738245, 1), (34738248, 10)] }, 5, ⟨1, 0x0416, 7, 5, 3, [], .spi, false⟩, 5, 0, by decide +kernel⟩

/-- CampaignTimers, the premises for enrolRetryExpiry. -/
theorem witness_CampaignTimers_1 : ∃ (s : State) (record : Fin 16) (node : BitVec 24) (x : Nat × Nat),
    (s.campLive record.val = true) ∧ (((s.run record.val).waiting.find? fun w => w.1 == node.toNat) = some x) ∧ (s.camp record.val Camp.REPORT_WAIT_S ≤ s.secondsSince x.2) :=
  ⟨{ (w [(GEN_MODE_MODE, 7), (BT_STATUS_RUNNING, 1), (⟨ENV_REGr_SIZE 2, 0, 13⟩, 8), (⟨ENV_REGr_BASE 2, 0, 12⟩, 0x10), (⟨ENV_REGr_BASE 5, 0, 12⟩, 0x20)] [] fun u => { u with img := { u.img with runs := [(0, { Run.idle with waiting := [(7, 80000)] })] }, bt := { u.bt with beat := 100000 } }) with mem := [(16777216, 2), (16777218, 64), (16777220, 64), (16777224, 9), (16777260, 1), (34738176, 5), (34738178, 2), (34738182, 2), (34738192, 60), (34738240, 1), (34738241, 1), (34738242, 1), (34738244, 1), (34738245, 1), (34738248, 10)] }, 0, 7, (7, 80000), by decide +kernel⟩

/-- CampaignTimers, the premises for campaignReport. -/
theorem witness_CampaignTimers_2 : ∃ (s : State) (x : CampReport) (rest : List CampReport),
    (s.u.img.reports = x :: rest) :=
  ⟨{ (w [(GEN_MODE_MODE, 7), (BT_STATUS_RUNNING, 1), (⟨ENV_REGr_SIZE 2, 0, 13⟩, 8), (⟨ENV_REGr_BASE 2, 0, 12⟩, 0x10), (⟨ENV_REGr_BASE 5, 0, 12⟩, 0x20)] [] fun u => { u with img := { u.img with reports := [⟨7, 7, 40, [0, 0, 0]⟩] }, bt := { u.bt with beat := 100000 } }) with mem := [] }, ⟨7, 7, 40, [0, 0, 0]⟩, [], by decide⟩

/-- CampaignTimers, the premises for repairPass. -/
theorem witness_CampaignTimers_3 : ∃ (s : State) (record : Fin 16),
    (s.campLive record.val = true) ∧ (s.camp record.val Camp.STATE = 3) ∧ (s.camp record.val Camp.REPORT_WAIT_S ≤ s.secondsSince (s.run record.val).lastPass) :=
  ⟨{ (w [(GEN_MODE_MODE, 7), (BT_STATUS_RUNNING, 1), (⟨ENV_REGr_SIZE 2, 0, 13⟩, 8), (⟨ENV_REGr_BASE 2, 0, 12⟩, 0x10), (⟨ENV_REGr_BASE 5, 0, 12⟩, 0x20)] [] fun u => { u with bt := { u.bt with beat := 100000 } }) with mem := [(16777216, 2), (16777218, 64), (16777220, 64), (16777224, 9), (16777260, 1), (34738176, 5), (34738178, 3), (34738182, 2), (34738192, 60), (34738240, 1), (34738241, 1), (34738242, 1), (34738244, 1), (34738245, 1), (34738248, 10)] }, 0, by decide +kernel⟩

/-- CampaignTimers, the premises for campaignDeadline. -/
theorem witness_CampaignTimers_4 : ∃ (s : State) (record : Fin 16),
    (s.campLive record.val = true) ∧ (1 ≤ s.camp record.val Camp.STATE) ∧ (1000 * s.camp record.val Camp.DEADLINE_S ≤ (s.workBeat + 2 ^ 32 - s.camp record.val Camp.START_BEAT) % 2 ^ 32) :=
  ⟨{ (w [(GEN_MODE_MODE, 7), (BT_STATUS_RUNNING, 1), (⟨ENV_REGr_SIZE 2, 0, 13⟩, 8), (⟨ENV_REGr_BASE 2, 0, 12⟩, 0x10), (⟨ENV_REGr_BASE 5, 0, 12⟩, 0x20)] [] fun u => { u with bt := { u.bt with beat := 100000 } }) with mem := [(16777216, 2), (16777218, 64), (16777220, 64), (16777224, 9), (16777260, 1), (34738176, 5), (34738178, 2), (34738182, 2), (34738192, 60), (34738240, 1), (34738241, 1), (34738242, 1), (34738244, 1), (34738245, 1), (34738248, 10)] }, 0, by decide +kernel⟩

/-- CampaignTimers, the premises for campaignProgressExpiry. -/
theorem witness_CampaignTimers_5 : ∃ (s : State) (record : Fin 16),
    (s.campLive record.val = true) ∧ (1 ≤ s.camp record.val Camp.STATE) ∧ (0 < s.camp record.val Camp.PROGRESS_S) ∧ (s.camp record.val Camp.PROGRESS_S ≤ s.secondsSince (s.run record.val).lastProgress) :=
  ⟨{ (w [(GEN_MODE_MODE, 7), (BT_STATUS_RUNNING, 1), (⟨ENV_REGr_SIZE 2, 0, 13⟩, 8), (⟨ENV_REGr_BASE 2, 0, 12⟩, 0x10), (⟨ENV_REGr_BASE 5, 0, 12⟩, 0x20)] [] fun u => { u with bt := { u.bt with beat := 100000 } }) with mem := [(16777216, 2), (16777218, 64), (16777220, 64), (16777224, 9), (16777260, 1), (34738176, 5), (34738178, 2), (34738182, 2), (34738192, 60), (34738240, 1), (34738241, 1), (34738242, 1), (34738244, 1), (34738245, 1), (34738248, 10), (34738252, 10)] }, 0, by decide +kernel⟩

/-- HostAccesses, the premises for spiRead. -/
theorem witness_HostAccesses_1 : ∃ (s : State) (addr : BitVec 32) (_dwords : Fin 1025) (_corrected : Fin 1025) (_bad : List (BitVec 32)),
    (s.reaches .spi = true) ∧ (addr.toNat % 4 = 0) ∧ (addr.toNat < 2 ^ 31) :=
  ⟨w [(GEN_MODE_MODE, 4), (BT_STATUS_RUNNING, 1), (HIF_CFG_SPI_EN, 1)] [] fun u => { u with fuse := { u.fuse with rows := [(0, 0x0F)] } }, 0, 2, 0, [], by decide⟩

/-- HostAccesses, the premises for spiRead. -/
theorem witness_HostAccesses_2 : ∃ (s : State) (addr : BitVec 32) (_dwords : Fin 1025) (_corrected : Fin 1025) (_bad : List (BitVec 32)),
    (s.reaches .spi = true) ∧ (addr.toNat % 4 = 0) ∧ (2 ^ 31 ≤ addr.toNat) :=
  ⟨w [(GEN_MODE_MODE, 4), (BT_STATUS_RUNNING, 1), (HIF_CFG_SPI_EN, 1)] [] fun u => { u with fuse := { u.fuse with rows := [(0, 0x0F)] } }, 0x80000000, 2, 0, [], by decide⟩

/-- HostAccesses, the premises for spiRead. -/
theorem witness_HostAccesses_3 : ∃ (s : State) (addr : BitVec 32) (_dwords : Fin 1025) (_corrected : Fin 1025) (_bad : List (BitVec 32)),
    (s.reaches .spi = true) ∧ (addr.toNat % 4 ≠ 0) :=
  ⟨w [(GEN_MODE_MODE, 4), (BT_STATUS_RUNNING, 1), (HIF_CFG_SPI_EN, 1)] [] fun u => { u with fuse := { u.fuse with rows := [(0, 0x0F)] } }, 2, 2, 0, [], by decide⟩

/-- HostAccesses, the premises for spiWrite. -/
theorem witness_HostAccesses_4 : ∃ (s : State) (addr : BitVec 32) (v : BitVec 32) (m : Moment) (r : Row),
    (s.reaches .spi = true) ∧ (addr.toNat % 4 = 0) ∧ (addr.toNat < 2 ^ 24) ∧ (rowOf addr.toNat = some r) ∧ (writes addr.toNat r = true) ∧ (inMsixTable addr.toNat = false) ∧ (guardAt addr.toNat = none) ∧ (s.permits addr.toNat = true) ∧ ((Act.special .spi addr.toNat v m s).isNone = true) :=
  ⟨w [(GEN_MODE_MODE, 4), (BT_STATUS_RUNNING, 1), (HIF_CFG_SPI_EN, 1)] [] fun u => { u with fuse := { u.fuse with rows := [(0, 0x0F)] } }, BitVec.ofNat 32 EVT_CFG, 5, ⟨0, 0, 0, 0, false, none⟩, (rowOf EVT_CFG).getD ⟨0, 0, .ro, 0⟩, by decide +kernel⟩

/-- HostAccesses, the premises for spiWrite. -/
theorem witness_HostAccesses_5 : ∃ (s : State) (addr : BitVec 32) (bytes : List (BitVec 8)) (_m : Moment),
    (s.reaches .spi = true) ∧ (addr.toNat % 4 = 0) ∧ (addr.toNat < 2 ^ 24) ∧ (0 < bytes.length) ∧ (bytes.length < 4) :=
  ⟨w [(GEN_MODE_MODE, 4), (BT_STATUS_RUNNING, 1), (HIF_CFG_SPI_EN, 1)] [] fun u => { u with fuse := { u.fuse with rows := [(0, 0x0F)] } }, 0, [1, 2, 3], ⟨0, 0, 0, 0, false, none⟩, by decide⟩

/-- HostAccesses, the premises for spiWrite. -/
theorem witness_HostAccesses_6 : ∃ (s : State) (addr : BitVec 32) (_bytes : List (BitVec 8)) (_m : Moment),
    (s.reaches .spi = true) ∧ (addr.toNat % 4 ≠ 0) :=
  ⟨w [(GEN_MODE_MODE, 4), (BT_STATUS_RUNNING, 1), (HIF_CFG_SPI_EN, 1)] [] fun u => { u with fuse := { u.fuse with rows := [(0, 0x0F)] } }, 1, [1, 2, 3, 4], ⟨0, 0, 0, 0, false, none⟩, by decide⟩

/-- HostAccesses, the premises for spiStatus. -/
theorem witness_HostAccesses_7 : ∃ (s : State),
    (s.reaches .spi = true) :=
  ⟨w [(GEN_MODE_MODE, 4), (BT_STATUS_RUNNING, 1), (HIF_CFG_SPI_EN, 1)] [] fun u => { u with fuse := { u.fuse with rows := [(0, 0x0F)] }, hif := { u.hif with spiErr := true } }, by decide⟩

/-- HostAccesses, the premises for spiId. -/
theorem witness_HostAccesses_8 : ∃ (s : State),
    (s.reaches .spi = true) :=
  ⟨w [(GEN_MODE_MODE, 4), (BT_STATUS_RUNNING, 1), (HIF_CFG_SPI_EN, 1)] [] fun u => { u with fuse := { u.fuse with rows := [(0, 0x0F)] } }, by decide⟩

/-- HostAccesses, the premises for registerWrite. -/
theorem witness_HostAccesses_9 : ∃ (s : State) (addr : BitVec 24) (v : BitVec 32) (m : Moment) (r : Row),
    (s.reaches .pcie = true) ∧ (addr.toNat % 4 = 0) ∧ (rowOf addr.toNat = some r) ∧ (writes addr.toNat r = true) ∧ (inMsixTable addr.toNat = false) ∧ (guardAt addr.toNat = none) ∧ (s.permits addr.toNat = true) ∧ ((Act.special .pcie addr.toNat v m s).isNone = true) :=
  ⟨w [(GEN_MODE_MODE, 4), (BT_STATUS_RUNNING, 1), (HIF_CFG_SPI_EN, 1), (HIF_STATUS_PCIE_UP, 1)] [] fun u => { u with fuse := { u.fuse with rows := [(0, 0x0F)] } }, BitVec.ofNat 24 EVT_CFG, 5, ⟨0, 0, 0, 0, false, none⟩, (rowOf EVT_CFG).getD ⟨0, 0, .ro, 0⟩, by decide +kernel⟩

/-- HostAccesses, the premises for registerWrite. -/
theorem witness_HostAccesses_10 : ∃ (s : State) (addr : BitVec 24) (_v : BitVec 32) (en : BitVec 4) (_m : Moment),
    (s.reaches .pcie = true) ∧ (addr.toNat % 4 = 0) ∧ (en ≠ 15) :=
  ⟨w [(GEN_MODE_MODE, 4), (BT_STATUS_RUNNING, 1), (HIF_CFG_SPI_EN, 1), (HIF_STATUS_PCIE_UP, 1)] [] fun u => { u with fuse := { u.fuse with rows := [(0, 0x0F)] } }, 0, 5, 3, ⟨0, 0, 0, 0, false, none⟩, by decide⟩

/-- HostAccesses, the premises for registerWrite. -/
theorem witness_HostAccesses_11 : ∃ (s : State) (_addr : BitVec 24) (dwords : List (BitVec 32 × BitVec 4)) (_m : Moment),
    (s.reaches .pcie = true) ∧ (16 < dwords.length) :=
  ⟨w [(GEN_MODE_MODE, 4), (BT_STATUS_RUNNING, 1), (HIF_CFG_SPI_EN, 1), (HIF_STATUS_PCIE_UP, 1)] [] fun u => { u with fuse := { u.fuse with rows := [(0, 0x0F)] } }, 0, List.replicate 17 (5, 15), ⟨0, 0, 0, 0, false, none⟩, by decide⟩

/-- HostAccesses, the premises for bar2Read. -/
theorem witness_HostAccesses_12 : ∃ (s : State) (_offset : BitVec 28) (_len : Fin 4097) (_corrected : Fin 4097) (_bad : List (BitVec 32)),
    (s.reaches .pcie = true) :=
  ⟨w [(GEN_MODE_MODE, 4), (BT_STATUS_RUNNING, 1), (HIF_CFG_SPI_EN, 1), (HIF_STATUS_PCIE_UP, 1)] [] fun u => { u with fuse := { u.fuse with rows := [(0, 0x0F)] } }, 0, 8, 0, [], by decide⟩

/-- HostAccesses, the premises for bar2Write. -/
theorem witness_HostAccesses_13 : ∃ (s : State) (offset : BitVec 28) (bytes : List (Option (BitVec 8))),
    (s.reaches .pcie = true) ∧ (bytes.length ≤ 256) ∧ ((List.range bytes.length).all (fun k => (bytes.getD k none).isNone || (s.barWritable (s.winAddr (offset.toNat + k)) && s.barPermits (s.winAddr (offset.toNat + k)))) = true) :=
  ⟨w [(GEN_MODE_MODE, 4), (BT_STATUS_RUNNING, 1), (HIF_CFG_SPI_EN, 1), (HIF_STATUS_PCIE_UP, 1), (HIF_WIN_BASE_BASE, 0x10)] [(HIF_CMD_BASE, 0x1000000)] fun u => { u with fuse := { u.fuse with rows := [(0, 0x0F)] }, evt := { u.evt with placed := true } }, 0, [some 1, none, some 2], by decide +kernel⟩

/-- HostAccesses, the premises for bar2Write. -/
theorem witness_HostAccesses_14 : ∃ (s : State) (offset : BitVec 28) (_b : BitVec 8),
    (s.reaches .pcie = true) ∧ (s.barWritable (s.winAddr offset.toNat) = false) :=
  ⟨w [(GEN_MODE_MODE, 4), (BT_STATUS_RUNNING, 1), (HIF_CFG_SPI_EN, 1), (HIF_STATUS_PCIE_UP, 1)] [] fun u => { u with fuse := { u.fuse with rows := [(0, 0x0F)] } }, 0, 1, by decide⟩

/-- GuardBlocks, the premises for guardArm. -/
theorem witness_GuardBlocks_1 : ∃ (s : State) (iface : HostIface) (_guard : GuardReg) (_value : BitVec 32),
    (s.reaches iface = true) :=
  ⟨w [(GEN_MODE_MODE, 4), (BT_STATUS_RUNNING, 1), (HIF_CFG_SPI_EN, 1)] [] fun u => { u with fuse := { u.fuse with rows := [(0, 0x0F)] } }, .spi, .tkRearm, 5, by decide⟩

/-- GuardBlocks, the premises for guardTimeout. -/
theorem witness_GuardBlocks_2 : ∃ (s : State) (guard : GuardReg) (x : Word),
    (s.armed (guardAddr guard) = some x) :=
  ⟨w [(GEN_MODE_MODE, 4), (BT_STATUS_RUNNING, 1), (HIF_CFG_SPI_EN, 1)] [] fun u => { u with fuse := { u.fuse with rows := [(0, 0x0F)] }, hif := { u.hif with armed := [(FUSE_PROG, 5)] } }, .fuseProg, 5, by decide⟩

/-- GuardBlocks, the premises for guardInterrupt. -/
theorem witness_GuardBlocks_3 : ∃ (s : State) (iface : HostIface) (guard : GuardReg) (part : GuardPart) (x : Word),
    (s.reaches iface = true) ∧ (part ≠ .complement) ∧ (s.armed (guardAddr guard) = some x) :=
  ⟨w [(GEN_MODE_MODE, 4), (BT_STATUS_RUNNING, 1), (HIF_CFG_SPI_EN, 1)] [] fun u => { u with fuse := { u.fuse with rows := [(0, 0x0F)] }, hif := { u.hif with armed := [(SEC_ZEROISE, 5)] } }, .spi, .zeroise, .reserved, 5, by decide⟩

/-- GuardBlocks, the premises for guardInterrupt. -/
theorem witness_GuardBlocks_4 : ∃ (s : State) (iface : HostIface) (guard : GuardReg),
    (s.reaches iface = true) ∧ (s.armed (guardAddr guard) = none) :=
  ⟨w [(GEN_MODE_MODE, 4), (BT_STATUS_RUNNING, 1), (HIF_CFG_SPI_EN, 1)] [] fun u => { u with fuse := { u.fuse with rows := [(0, 0x0F)] } }, .spi, .recovery, by decide⟩

/-- RingIndexes, the premises for cmdDoorbell. -/
theorem witness_RingIndexes_1 : ∃ (s : State) (iface : HostIface) (value : BitVec 32),
    (s.reaches iface = true) ∧ (s.permits HIF_CMD_TAIL = true) ∧ ((s.fld HIF_CMD_TAIL_TAIL + 4096 - s.fld ⟨HIF_CMD_HEAD, 0, 12⟩) % 4096 ≤ (fieldOf value 0 12 + 4096 - s.fld ⟨HIF_CMD_HEAD, 0, 12⟩) % 4096) :=
  ⟨w [(GEN_MODE_MODE, 4), (BT_STATUS_RUNNING, 1), (HIF_CFG_SPI_EN, 1)] [] fun u => { u with fuse := { u.fuse with rows := [(0, 0x0F)] } }, .spi, 3, by decide⟩

/-- RingIndexes, the premises for cmdDoorbell. -/
theorem witness_RingIndexes_2 : ∃ (s : State) (iface : HostIface) (value : BitVec 32),
    (s.reaches iface = true) ∧ (s.permits HIF_CMD_TAIL = true) ∧ ((fieldOf value 0 12 + 4096 - s.fld ⟨HIF_CMD_HEAD, 0, 12⟩) % 4096 < (s.fld HIF_CMD_TAIL_TAIL + 4096 - s.fld ⟨HIF_CMD_HEAD, 0, 12⟩) % 4096) :=
  ⟨w [(GEN_MODE_MODE, 4), (BT_STATUS_RUNNING, 1), (HIF_CFG_SPI_EN, 1), (HIF_CMD_TAIL_TAIL, 5)] [] fun u => { u with fuse := { u.fuse with rows := [(0, 0x0F)] } }, .spi, 3, by decide⟩

/-- RingIndexes, the premises for cplConsume. -/
theorem witness_RingIndexes_3 : ∃ (s : State) (iface : HostIface) (value : BitVec 32),
    (s.reaches iface = true) ∧ (s.permits HIF_CPL_CONS = true) ∧ ((fieldOf value 0 12 + 4096 - s.fld HIF_CPL_CONS_CONS) % 4096 ≤ s.cplUsed) :=
  ⟨w [(GEN_MODE_MODE, 4), (BT_STATUS_RUNNING, 1), (HIF_CFG_SPI_EN, 1), (⟨HIF_CPL_PROD, 0, 12⟩, 2)] [] fun u => { u with fuse := { u.fuse with rows := [(0, 0x0F)] } }, .spi, 1, by decide⟩

/-- RingIndexes, the premises for evtRingConsume. -/
theorem witness_RingIndexes_4 : ∃ (s : State) (iface : HostIface) (ring : Fin 4) (value : BitVec 32),
    (s.reaches iface = true) ∧ (s.permits (EVT_RINGr_CONS ring) = true) ∧ ((fieldOf value 0 13 + 8192 - s.fld (EVT_RINGr_CONS_CONS ring)) % 8192 ≤ s.ringUsed ring) :=
  ⟨w [(GEN_MODE_MODE, 4), (BT_STATUS_RUNNING, 1), (HIF_CFG_SPI_EN, 1), (⟨EVT_RINGr_PROD 2, 0, 13⟩, 2)] [] fun u => { u with fuse := { u.fuse with rows := [(0, 0x0F)] } }, .spi, 2, 1, by decide⟩

/-- RingIndexes, the premises for hifJrnReq. -/
theorem witness_RingIndexes_5 : ∃ (s : State) (iface : HostIface),
    (s.reaches iface = true) ∧ (s.permits HIF_JRN_REQ = true) :=
  ⟨w [(GEN_MODE_MODE, 4), (BT_STATUS_RUNNING, 1), (HIF_CFG_SPI_EN, 1)] [] fun u => { u with fuse := { u.fuse with rows := [(0, 0x0F)] } }, .spi, by decide⟩

/-- NodeAndSystemCommands, the premises for nop. -/
theorem witness_NodeAndSystemCommands_1 : ∃ (s : State) (index : Fin 4096) (c : HostCmd),
    (s.cmdAt index (fun o => o == 0x0001) = some c) ∧ (c.mirrored = false) :=
  ⟨w [(GEN_MODE_MODE, 4), (BT_STATUS_RUNNING, 1)] [] fun u => { u with hif := { u.hif with cmds := [⟨1, 0x0001, 7, 5, 3, [], .spi, false⟩] } }, 5, ⟨1, 0x0001, 7, 5, 3, [], .spi, false⟩, by decide⟩

/-- NodeAndSystemCommands, the premises for nodeCmd. -/
theorem witness_NodeAndSystemCommands_2 : ∃ (s : State) (index : Fin 4096) (c : HostCmd) (pick : Pick) (nsa : Nat) (cls : Nat) (body : List Byte) (n : Nat) (i : Nat),
    (s.cmdAt index (fun o => o == 0x0601) = some c) ∧ (c.mirrored = false) ∧ (nsa = c.arg 0 3) ∧ (cls = c.arg 6 1) ∧ (cls ≤ 4) ∧ (c.arg 3 1 = 1 → c.args.length = 12) ∧ (body = leBytes 1 (c.arg 3 1) ++ leBytes 2 (c.arg 4 2) ++ c.args.drop 8 ++ (if c.arg 3 1 = 1 then List.replicate 32 0 else [])) ∧ (s.sleepyChild nsa = true) ∧ (s.recValid nsa = true) ∧ ((s.walk nsa fun _ => false).reason = 0) ∧ (sealedLength (s.downFrame ⟨5, nsa, cls, true, body⟩ (s.walk nsa fun _ => false).nsa (s.walk nsa fun _ => false).route) ≤ 1024) ∧ (s.downDecoder (s.bandOf (s.walk nsa fun _ => false).nsa pick.band) (s.walk nsa fun _ => false).nsa pick.decoder = some n) ∧ ((s.pendList nsa).length < 8) ∧ (firstFree s.u.mac.poolUsed s.poolCount = some i) :=
  ⟨{ (w [(GEN_MODE_MODE, 4), (BT_STATUS_RUNNING, 1), (RXD_CHn_CFG_EN 0, 1), (RXD_CHn_CFG_RATE 0, 1), (⟨ENV_REGr_SIZE 5, 0, 13⟩, 300)] [] fun u => { u with hif := { u.hif with cmds := [⟨1, 0x0601, 7, 5, 3, [5, 0, 0, 2, 0, 0, 0, 0, 9], .spi, false⟩] }, bt := { u.bt with beat := 40 } }) with mem := [(1280, 5), (1283, 10)] }, 5, ⟨1, 0x0601, 7, 5, 3, [5, 0, 0, 2, 0, 0, 0, 0, 9], .spi, false⟩, ⟨.s, 0, 0, 0⟩, 5, 0, [2, 0, 0, 9], 0, 0, by decide +kernel⟩

/-- NodeAndSystemCommands, the premises for nodeCmd. -/
theorem witness_NodeAndSystemCommands_3 : ∃ (s : State) (index : Fin 4096) (c : HostCmd) (_pick : Pick),
    (s.cmdAt index (fun o => o == 0x0601) = some c) ∧ (c.mirrored = false) ∧ (c.arg 3 1 = 1) ∧ (c.args.length ≠ 12) ∧ (8 ≤ c.args.length) :=
  ⟨w [(GEN_MODE_MODE, 4), (BT_STATUS_RUNNING, 1)] [] fun u => { u with hif := { u.hif with cmds := [⟨1, 0x0601, 7, 5, 3, [5, 0, 0, 1, 0, 0, 0, 0, 9], .spi, false⟩] } }, 5, ⟨1, 0x0601, 7, 5, 3, [5, 0, 0, 1, 0, 0, 0, 0, 9], .spi, false⟩, ⟨.s, 0, 0, 0⟩, by decide +kernel⟩

/-- NodeAndSystemCommands, the premises for nodeForget. -/
theorem witness_NodeAndSystemCommands_4 : ∃ (s : State) (index : Fin 4096) (c : HostCmd),
    (s.cmdAt index (fun o => o == 0x0602) = some c) ∧ (c.mirrored = false) ∧ (s.recValid (c.arg 0 3) = true) ∧ (s.listenOf (c.arg 0 3) = none) :=
  ⟨{ (w [(GEN_MODE_MODE, 4), (BT_STATUS_RUNNING, 1), (⟨ENV_REGr_SIZE 5, 0, 13⟩, 300)] [] fun u => { u with hif := { u.hif with cmds := [⟨1, 0x0602, 7, 5, 3, [5, 0, 0], .spi, false⟩] } }) with mem := [(1280, 5), (1283, 2)] }, 5, ⟨1, 0x0602, 7, 5, 3, [5, 0, 0], .spi, false⟩, by decide +kernel⟩

/-- NodeAndSystemCommands, the premises for nodeForget. -/
theorem witness_NodeAndSystemCommands_5 : ∃ (s : State) (index : Fin 4096) (c : HostCmd) (l : Listen),
    (s.cmdAt index (fun o => o == 0x0602) = some c) ∧ (c.mirrored = false) ∧ (s.recValid (c.arg 0 3) = true) ∧ (s.listenOf (c.arg 0 3) = some l) :=
  ⟨{ (w [(GEN_MODE_MODE, 4), (BT_STATUS_RUNNING, 1), (⟨ENV_REGr_SIZE 5, 0, 13⟩, 300)] [] fun u => { u with hif := { u.hif with cmds := [⟨1, 0x0602, 7, 5, 3, [5, 0, 0], .spi, false⟩] }, mac := { u.mac with listens := [⟨5, 0, 0, true, 10, 0, [], false, [], false⟩] } }) with mem := [(1280, 5), (1283, 2)] }, 5, ⟨1, 0x0602, 7, 5, 3, [5, 0, 0], .spi, false⟩, ⟨5, 0, 0, true, 10, 0, [], false, [], false⟩, by decide +kernel⟩

/-- NodeAndSystemCommands, the premises for joinControl. -/
theorem witness_NodeAndSystemCommands_6 : ∃ (s : State) (index : Fin 4096) (c : HostCmd),
    (s.cmdAt index (fun o => o == 0x0603) = some c) ∧ (c.mirrored = false) :=
  ⟨w [(GEN_MODE_MODE, 4), (BT_STATUS_RUNNING, 1)] [] fun u => { u with hif := { u.hif with cmds := [⟨1, 0x0603, 7, 5, 3, [1], .spi, false⟩] } }, 5, ⟨1, 0x0603, 7, 5, 3, [1], .spi, false⟩, by decide⟩

/-- NodeAndSystemCommands, the premises for timeOfDay. -/
theorem witness_NodeAndSystemCommands_7 : ∃ (s : State) (index : Fin 4096) (c : HostCmd),
    (s.cmdAt index (fun o => o == 0x0701) = some c) ∧ (c.mirrored = false) :=
  ⟨w [(GEN_MODE_MODE, 4), (BT_STATUS_RUNNING, 1)] [] fun u => { u with hif := { u.hif with cmds := [⟨1, 0x0701, 7, 5, 3, [1, 2, 3, 4, 5, 6], .spi, false⟩] } }, 5, ⟨1, 0x0701, 7, 5, 3, [1, 2, 3, 4, 5, 6], .spi, false⟩, by decide⟩

/-- NodeAndSystemCommands, the premises for selftestRun. -/
theorem witness_NodeAndSystemCommands_8 : ∃ (s : State) (index : Fin 4096) (c : HostCmd) (failed : List TestFail),
    (s.cmdAt index (fun o => o == 0x0801) = some c) ∧ (c.mirrored = false) ∧ (failed.contains .voter = false) :=
  ⟨w [(GEN_MODE_MODE, 4), (BT_STATUS_RUNNING, 1)] [] fun u => { u with hif := { u.hif with cmds := [⟨1, 0x0801, 7, 5, 3, [], .spi, false⟩] } }, 5, ⟨1, 0x0801, 7, 5, 3, [], .spi, false⟩, [.ecdsa, .logicBist 3], by decide⟩

/-- NodeAndSystemCommands, the premises for eventBridleWindowEnd. -/
theorem witness_NodeAndSystemCommands_9 : ∃ (s : State) (index : Fin 64) (b : BridleEntry),
    (s.u.evt.bridle[index.val]? = some b) ∧ ((!s.bit BT_STATUS_RUNNING || b.window == 0) = true) ∧ (s.bit (EVT_BRIDLE_n 124) = false) :=
  ⟨w [(GEN_MODE_MODE, 4), (BT_STATUS_RUNNING, 1)] [] fun u => { u with evt := { u.evt with bridle := [⟨99, [0, 0, 0, 0], 0, 2, [1], 40, (0, 0)⟩] } }, 0, ⟨99, [0, 0, 0, 0], 0, 2, [1], 40, (0, 0)⟩, by decide⟩

/-- NodeAndSystemCommands, the premises for msixModerationExpiry. -/
theorem witness_NodeAndSystemCommands_10 : ∃ (s : State) (vector : Fin 128) (x : Nat × Bool),
    ((s.u.evt.cooling.find? fun d => d.1 == vector.val) = some x) :=
  ⟨w [(GEN_MODE_MODE, 4), (BT_STATUS_RUNNING, 1)] [] fun u => { u with evt := { u.evt with cooling := [(3, false), (4, true)] } }, 3, (3, false), by decide⟩

/-- NodeAndSystemCommands, the premises for gtTimerExpiry. -/
theorem witness_NodeAndSystemCommands_11 : ∃ (s : State) (_gt : Fin 8),
    (s.bit BT_STATUS_RUNNING = true) ∧ (s.shadows = false) ∧ (s.u.pwr.driftEntry < 2) :=
  ⟨w [(GEN_MODE_MODE, 4), (BT_STATUS_RUNNING, 1)] [] id, 3, by decide⟩

/-- FrameQuietB, the premise for llrReceived. -/
theorem witness_FrameQuietB_llrReceived : ∃ (llrs : List (BitVec 6)), llrsOk llrs = true := ⟨List.replicate 1152 0, by decide +kernel⟩

/-- FrameQuietB, the premise for blockFrameReceived. -/
theorem witness_FrameQuietB_blockFrameReceived : ∃ (entries : List (BitVec 128)), blockOk entries = true := ⟨List.replicate 1024 0, by decide +kernel⟩

/-- FrameOthers, the premise for recordUpdate. -/
theorem witness_FrameOthers_recordUpdate : ∃ (op : RecordOp), recordOpOk op = true := ⟨.free 5, by decide⟩

/-- FrameOthers, the premise for enq. -/
theorem witness_FrameOthers_enq : ∃ (words : List WordIn), wordsOk words = true := ⟨[⟨0, 0, false, false⟩], by decide⟩

/-- StepRunsTheFrontCommand, its premise. -/
theorem witness_StepRunsTheFrontCommand : ∃ (s : State) (c : Instr) (cs : List Instr), s.pending = c :: cs :=
  ⟨{ State.reset with pending := [.bindLine] }, .bindLine, [], rfl⟩

/-- EmptyQueueIdles, its premise. -/
theorem witness_EmptyQueueIdles : ∃ s : State, s.pending = [] := ⟨State.reset, rfl⟩

/-- EveryCommandAnswers, its premises. -/
theorem witness_EveryCommandAnswers : (∃ c : Instr, c.wf = true) ∧ ∃ c : Instr, c.wf = false :=
  ⟨⟨.bindLine, by decide⟩, .recordUpdate 0 0 (.create 5 []), by decide⟩

/-- StepsKeepTheForm, its premises. -/
theorem witness_StepsKeepTheForm : ∃ s t : State, s.Inv ∧ step s = .next t :=
  ⟨State.reset, State.reset, ⟨by decide, by decide⟩, rfl⟩

/-- BeatSnapshot, its premises over either interface. -/
theorem witness_BeatSnapshot : ∃ s : State, s.reaches .spi = true ∧ s.reaches .pcie = true ∧ s.permits BT_BEAT_REQ = true :=
  ⟨w [(GEN_MODE_MODE, 4), (BT_STATUS_RUNNING, 1), (HIF_CFG_SPI_EN, 1), (HIF_STATUS_PCIE_UP, 1)] [] fun u => { u with fuse := { u.fuse with rows := [(0, 0x0F)] } }, by decide, by decide, by decide⟩

/-- StrayAcks, its premises. -/
theorem witness_StrayAcks : ∃ (s : State) (index : Fin 256) (f : MacFrame), s.macFrame index = some f ∧ f.stage = .ack ∧
    s.u.mac.waits.find? (s.ackMatches f) = none :=
  ⟨w [(GEN_MODE_MODE, 4), (BT_STATUS_RUNNING, 1)] [] fun u => { u with mac := { u.mac with frames := [⟨0, ⟨0, 0, 1, 33, false, 900, 5000, -280, -400, 0, 0, 0, true, true, []⟩, 12, [0x28, 0x05, 0x34, 0x12, 0, 0, 0, 1, 1, 0, 6, 16, 0, 5, 0, 0, 0, 7, 1, 2, 3, 0, 0, 0, 0, 0, 0, 0, 0, 0, 0, 0, 0], .ack, [], [], [], false⟩] } }, 0, ⟨0, ⟨0, 0, 1, 33, false, 900, 5000, -280, -400, 0, 0, 0, true, true, []⟩, 12, [0x28, 0x05, 0x34, 0x12, 0, 0, 0, 1, 1, 0, 6, 16, 0, 5, 0, 0, 0, 7, 1, 2, 3, 0, 0, 0, 0, 0, 0, 0, 0, 0, 0, 0, 0], .ack, [], [], [], false⟩, by decide, by decide, by decide⟩

end Sys2Proof.Tests
end

namespace Sys2Proof.Machine

set_option Elab.async false

open Sys2Proof Sys2Proof.Reg

/-! ## Frames

What a command leaves alone follows from what its program may reach: spans of registers, units, and the event rings.
`Act.Within` says that a program stays within a reach; it has one rule per constructor and named operation of `Act`, and
one lemma per shared program of the model. `Runs` says it of a command's meaning, and `Runs.quiet` and `Runs.events` turn
that into the frames that the obligations state. -/

/-! ### Which units changed -/

/-- The units of the machine, and the counter of free values, by name. -/
inductive UnitName where
  | pins | bt | tk | pwr | boot | hif | evt | fuse | accel | sec | env | fwd | sch | eth | rf | rx | mac | pair | img
  | drift | freeCount
  deriving DecidableEq

/-- The units of `v` that a list names, the others of `u`. -/
def Units.only (l : List UnitName) (u v : Units) : Units where
  pins := if .pins ∈ l then v.pins else u.pins
  bt := if .bt ∈ l then v.bt else u.bt
  tk := if .tk ∈ l then v.tk else u.tk
  pwr := if .pwr ∈ l then v.pwr else u.pwr
  boot := if .boot ∈ l then v.boot else u.boot
  hif := if .hif ∈ l then v.hif else u.hif
  evt := if .evt ∈ l then v.evt else u.evt
  fuse := if .fuse ∈ l then v.fuse else u.fuse
  accel := if .accel ∈ l then v.accel else u.accel
  sec := if .sec ∈ l then v.sec else u.sec
  env := if .env ∈ l then v.env else u.env
  fwd := if .fwd ∈ l then v.fwd else u.fwd
  sch := if .sch ∈ l then v.sch else u.sch
  eth := if .eth ∈ l then v.eth else u.eth
  rf := if .rf ∈ l then v.rf else u.rf
  rx := if .rx ∈ l then v.rx else u.rx
  mac := if .mac ∈ l then v.mac else u.mac
  pair := if .pair ∈ l then v.pair else u.pair
  img := if .img ∈ l then v.img else u.img
  drift := if .drift ∈ l then v.drift else u.drift
  freeCount := if .freeCount ∈ l then v.freeCount else u.freeCount

/-- A unit is the same in two machines. -/
def UnitName.Same (u v : Units) : UnitName → Prop
  | .pins => u.pins = v.pins
  | .bt => u.bt = v.bt
  | .tk => u.tk = v.tk
  | .pwr => u.pwr = v.pwr
  | .boot => u.boot = v.boot
  | .hif => u.hif = v.hif
  | .evt => u.evt = v.evt
  | .fuse => u.fuse = v.fuse
  | .accel => u.accel = v.accel
  | .sec => u.sec = v.sec
  | .env => u.env = v.env
  | .fwd => u.fwd = v.fwd
  | .sch => u.sch = v.sch
  | .eth => u.eth = v.eth
  | .rf => u.rf = v.rf
  | .rx => u.rx = v.rx
  | .mac => u.mac = v.mac
  | .pair => u.pair = v.pair
  | .img => u.img = v.img
  | .drift => u.drift = v.drift
  | .freeCount => u.freeCount = v.freeCount

theorem UnitName.Same.refl (u : Units) (n : UnitName) : n.Same u u := by cases n <;> rfl

theorem UnitName.Same.trans {u v w : Units} {n : UnitName} (h : n.Same u v) (k : n.Same v w) : n.Same u w := by
  cases n <;> exact Eq.trans h k

/-- Only the units a list names differ. -/
def Units.Keeps (l : List UnitName) (u v : Units) : Prop := ∀ n ∉ l, n.Same u v

theorem Units.Keeps.refl (l : List UnitName) (u : Units) : Units.Keeps l u u := fun n _ => .refl u n

theorem Units.Keeps.trans {l : List UnitName} {u v w : Units} (h : Units.Keeps l u v) (k : Units.Keeps l v w) :
    Units.Keeps l u w := fun n hn => (h n hn).trans (k n hn)

theorem Units.Keeps.mono {l m : List UnitName} {u v : Units} (h : Units.Keeps l u v) (hs : l ⊆ m) :
    Units.Keeps m u v := fun n hn => h n fun hl => hn (hs hl)

theorem Units.keeps_iff {l : List UnitName} {u v : Units} : Units.Keeps l u v ↔ v = Units.only l u v := by
  have taken {α : Type} {p : Prop} [Decidable p] {a b : α} (h : ¬p → a = b) : b = if p then b else a := by
    split
    · rfl
    · exact (h ‹_›).symm
  constructor
  · intro h
    exact Units.mk.injEq .. ▸ ⟨
      taken (h .pins), taken (h .bt), taken (h .tk), taken (h .pwr), taken (h .boot), taken (h .hif),
      taken (h .evt), taken (h .fuse), taken (h .accel), taken (h .sec), taken (h .env), taken (h .fwd),
      taken (h .sch), taken (h .eth), taken (h .rf), taken (h .rx), taken (h .mac), taken (h .pair),
      taken (h .img), taken (h .drift),
      taken (h .freeCount)⟩
  · intro h n hn
    rw [h]
    cases n <;> exact (if_neg hn).symm

/-! ### Reaches -/

/-- What a program may reach: registers of a list of spans, units, and whether it may raise events, which stand in their
rings in the Envelope. -/
structure Reach where
  spans : List (Nat × Nat)
  units : List UnitName
  raises : Bool

namespace Reach

/-- The reach of a program that raises nothing and leaves memory alone. -/
abbrev quiet (l : List (Nat × Nat)) (us : List UnitName) : Reach := ⟨l, us, false⟩

/-- The reach of a program that may raise events. -/
abbrev events (l : List (Nat × Nat)) (us : List UnitName) : Reach := ⟨l ++ eventRegs, .bt :: .evt :: us, true⟩

/-- The registers that say where the event rings stand belong to no reach. -/
def has (R : Reach) (a : Nat) : Bool := inSpans R.spans a && !inSpans [(EVT_RINGr_BASE 0, 4)] a

/-- The reach as a footprint. -/
def foot (R : Reach) : Foot where
  regs := R.has
  mem := fun s a => R.raises && s.inEventRings a
  units := Units.Keeps R.units
  refl := .refl R.units
  trans := .trans
  stable := fun {s t} h => by
    have base (r : Nat) : t.reg (EVT_RINGr_BASE r) = s.reg (EVT_RINGr_BASE r) := h _ (by
      have : r % 4 < 4 := Nat.mod_lt _ (by decide)
      simp [has, inSpans, EVT_RINGr_BASE]; omega)
    funext a
    simp only [State.inEventRings, base]

/-- Every span of a list lies within one of another. -/
def covers (l k : List (Nat × Nat)) : Bool :=
  k.all fun p => l.any fun q => Nat.ble q.1 p.1 && Nat.ble (p.1 + 4 * p.2) (q.1 + 4 * q.2)

theorem inSpans_of_covers {l k : List (Nat × Nat)} (h : covers l k = true) {a : Nat} (ha : inSpans k a = true) :
    inSpans l a = true := by
  simp only [covers, inSpans, List.all_eq_true, List.any_eq_true, Bool.and_eq_true, Nat.ble_eq, Nat.blt_eq] at *
  obtain ⟨p, hp, h1, h2⟩ := ha
  obtain ⟨q, hq, h3, h4⟩ := h p hp
  exact ⟨q, hq, by omega, by omega⟩

/-- No register lies in spans of both lists. -/
def apart (l k : List (Nat × Nat)) : Bool :=
  k.all fun p => l.all fun q => Nat.ble (p.1 + 4 * p.2) q.1 || Nat.ble (q.1 + 4 * q.2) p.1

theorem inSpans_of_apart {l k : List (Nat × Nat)} (h : apart l k = true) {a : Nat} (ha : inSpans k a = true) :
    inSpans l a = false := by
  rw [← Bool.not_eq_true]
  intro hl
  simp only [apart, inSpans, List.all_eq_true, List.any_eq_true, Bool.and_eq_true, Bool.or_eq_true, Nat.ble_eq,
    Nat.blt_eq] at *
  obtain ⟨p, hp, h1, h2⟩ := ha
  obtain ⟨q, hq, h3, h4⟩ := hl
  have := h p hp q hq
  omega

/-- A reach within another. -/
def sub (R R' : Reach) : Bool :=
  covers R'.spans R.spans && (R.units.all fun n => decide (n ∈ R'.units)) && (!R.raises || R'.raises)

variable {R R' : Reach}

theorem sub_iff : R.sub R' = true ↔
    covers R'.spans R.spans = true ∧ R.units ⊆ R'.units ∧ (R.raises = true → R'.raises = true) := by
  simp only [sub, Bool.and_eq_true, List.all_eq_true, decide_eq_true_eq, Bool.or_eq_true, Bool.not_eq_true',
    and_assoc, List.subset_def]
  cases R.raises <;> simp

theorem has_mono (h : R.sub R' = true) {a : Nat} (ha : R.has a = true) : R'.has a = true := by
  simp only [has, Bool.and_eq_true] at *
  exact ⟨inSpans_of_covers (sub_iff.1 h).1 ha.1, ha.2⟩

theorem touches_mono (h : R.sub R' = true) {s t : State} (k : R.foot.Touches s t) : R'.foot.Touches s t where
  reg a ha := k.reg a (by
    by_contra hc
    have : R'.has a = true := has_mono h (by simpa [foot] using hc)
    exact absurd this (by simpa [foot] using ha))
  byte a ha := k.byte a (by
    simp only [foot, Bool.and_eq_false_iff] at *
    exact ha.imp_left fun hr => by simpa [hr] using (sub_iff.1 h).2.2)
  units := k.units.mono (sub_iff.1 h).2.1

/-- Registers of spans that the reach covers. -/
theorem has_of_covers {l : List (Nat × Nat)} {a : Nat} (ha : inSpans l a = true) (h : covers R.spans l = true)
    (hb : apart [(EVT_RINGr_BASE 0, 4)] l = true) : R.has a = true := by
  simp only [has, inSpans_of_covers h ha, inSpans_of_apart hb ha, Bool.not_false, Bool.and_true]

/-- A register of an array, where the reach covers the array. -/
theorem has_array {b k n : Nat} (hk : Nat.blt 0 k = true := by rfl) (h : covers R.spans [(b, k)] = true := by rfl)
    (hb : apart [(EVT_RINGr_BASE 0, 4)] [(b, k)] = true := by rfl) : R.has (b + 4 * (n % k)) = true :=
  has_of_covers (by
    have hn : n % k < k := Nat.mod_lt _ (by simpa using hk)
    simp [inSpans]; omega) h hb

/-- A register that every RF port has. -/
theorem has_port (g : RfPort → Nat) {p : RfPort} (hs : R.has (g .s) = true := by rfl)
    (hw : R.has (g .w) = true := by rfl) : R.has (g p) = true := by
  cases p
  · exact hs
  · exact hw

/-- A register of an array that every RF port has. -/
theorem has_port_array (g : RfPort → Nat → Nat) {p : RfPort} {n : Nat}
    (hs : ∀ n, R.has (g .s n) = true := by exact fun _ => Reach.has_array)
    (hw : ∀ n, R.has (g .w n) = true := by exact fun _ => Reach.has_array) : R.has (g p n) = true := by
  cases p
  · exact hs n
  · exact hw n

theorem sub_trans {R'' : Reach} (k : R'.sub R'' = true) (h : R.sub R' = true := by decide +kernel) :
    R.sub R'' = true := by
  obtain ⟨h1, h2, h3⟩ := sub_iff.1 h
  obtain ⟨k1, k2, k3⟩ := sub_iff.1 k
  refine sub_iff.2 ⟨?_, List.Subset.trans h2 k2, fun hr => k3 (h3 hr)⟩
  simp only [covers, List.all_eq_true, List.any_eq_true, Bool.and_eq_true, Nat.ble_eq] at *
  intro p hp
  obtain ⟨q, hq, a1, a2⟩ := h1 p hp
  obtain ⟨r, hr, b1, b2⟩ := k1 q hq
  exact ⟨r, hr, by omega, by omega⟩

end Reach

/-! ### Programs within a reach -/

/-- A program stays within a reach wherever it is run; one that raises nothing leaves memory alone. -/
structure Act.Within (R : Reach) (a : Act) : Prop where
  fits : Act.Fits R.foot a
  mem : R.raises = false → ∀ s, (a.run s).mem = s.mem

namespace Act.Within

variable {R R' : Reach}

theorem sub {a : Act} (h : Within R a) (hs : R.sub R' = true := by decide +kernel) : Within R' a where
  fits s := Reach.touches_mono hs (h.fits s)
  mem hr := h.mem (by
    have := (Reach.sub_iff.1 hs).2.2
    rw [hr] at this
    simpa using this)

theorem nop : Within R .nop := ⟨.nop, fun _ _ => rfl⟩

theorem seq {a b : Act} (ha : Within R a) (hb : Within R b) : Within R (.seq a b) :=
  ⟨.seq ha.fits hb.fits, fun hr s => (hb.mem hr _).trans (ha.mem hr s)⟩

theorem read {k : State → Act} (h : ∀ s, Within R (k s)) : Within R (.read k) :=
  ⟨.read fun s => (h s).fits, fun hr s => (h s).mem hr s⟩

theorem ite {c : Prop} [Decidable c] {a b : Act} (ha : Within R a) (hb : Within R b) :
    Within R (if c then a else b) := by
  split <;> assumption

theorem when {c : Bool} {a : Act} (h : Within R a) : Within R (Act.when c a) := ite h nop

theorem all {l : List Act} (h : l.Forall (Within R)) : Within R (Act.all l) := by
  induction l with
  | nil => exact nop
  | cons a l ih =>
    obtain ⟨ha, hl⟩ := (List.forall_cons _ _ _).1 h
    exact seq ha (ih hl)

theorem each {α : Type} {l : List α} {f : α → Act} (h : ∀ x, Within R (f x)) : Within R (Act.each l f) :=
  all (List.forall_iff_forall_mem.2 fun a ha => by
    obtain ⟨x, -, rfl⟩ := List.mem_map.1 ha
    exact h x)

theorem reg {a : Nat} {w : Word} (h : R.has a = true := by rfl) : Within R (.reg a w) :=
  ⟨.reg h, fun _ _ => by simp⟩

theorem setF {f : Field} {v : Nat} (h : R.has f.reg = true := by rfl) : Within R (Act.setF f v) := read fun _ => reg h
theorem setB {f : Field} {b : Bool} (h : R.has f.reg = true := by rfl) : Within R (Act.setB f b) := setF h
theorem wrapBy {a n : Nat} (h : R.has a = true := by rfl) : Within R (Act.wrapBy a n) := read fun _ => reg h
theorem wrap {a : Nat} (h : R.has a = true := by rfl) : Within R (Act.wrap a) := wrapBy h
theorem satBy {a n : Nat} (h : R.has a = true := by rfl) : Within R (Act.satBy a n) := read fun _ => reg h
theorem sat {a : Nat} (h : R.has a = true := by rfl) : Within R (Act.sat a) := satBy h

theorem units {f : Units → Units} (h : ∀ u, f u = Units.only R.units u (f u) := by exact fun _ => rfl) :
    Within R (.units f) :=
  ⟨.units fun u => Units.keeps_iff.2 (h u), fun _ _ => rfl⟩

theorem free {k : Word → Act} (hk : ∀ w, Within R (k w))
    (h : ∀ u : Units, { u with freeCount := u.freeCount + 1 } =
      Units.only R.units u { u with freeCount := u.freeCount + 1 } := by exact fun _ => rfl) :
    Within R (Act.free k) := read fun _ => seq (units h) (hk _)

/-- What the laws say of a program that may raise events. -/
theorem of_fits {a : Act} (h : Act.Fits R.foot a) (hr : R.raises = true := by rfl) : Within R a :=
  ⟨h, fun h' => by rw [hr] at h'; contradiction⟩

end Act.Within

namespace Reach

variable {R : Reach}

theorem keeps_sub {us : List UnitName} {u v : Units} (h : us ⊆ R.units) (k : v = Units.only us u v) :
    Units.Keeps R.units u v := (Units.keeps_iff.2 k).mono h

/-- A reach of events has room for what raising one touches. -/
theorem foot_events (h : (Reach.events [] []).sub R = true) : R.foot.Events where
  regs a ha := has_mono h (has_of_covers ha (by decide +kernel) (by decide +kernel))
  mem s a ha := by
    have := (sub_iff.1 h).2.2 rfl
    simp [foot, this, ha]
  evt u f := keeps_sub (us := [.evt]) (fun n hn => (sub_iff.1 h).2.1 (by simp at hn ⊢; exact .inr hn)) rfl
  bt u f := keeps_sub (us := [.bt]) (fun n hn => (sub_iff.1 h).2.1 (by simp at hn ⊢; exact .inl hn)) rfl

theorem raises_of_sub {l : List (Nat × Nat)} {us : List UnitName} (h : (Reach.events l us).sub R = true) :
    R.raises = true := (sub_iff.1 h).2.2 rfl

/-- A reach with the log of refused accesses has room for a host access. -/
theorem foot_access (h : (Reach.events accessRegs [.hif]).sub R = true) : R.foot.Access where
  toEvents := foot_events (sub_trans h)
  acc a ha := has_mono h (has_of_covers ha (by decide +kernel) (by decide +kernel))
  hif u f := keeps_sub (us := [.hif]) (fun n hn => (sub_iff.1 h).2.1 (by simp at hn ⊢; exact .inr (.inr hn))) rfl

/-- A reach with a guard's result word has room for the guard. -/
theorem foot_guard {x : Nat} (hx : R.has (x + 8) = true)
    (h : (Reach.events [(HIF_GUARD_REJ, 1)] [.hif]).sub R = true) : R.foot.Guard x where
  toEvents := foot_events (sub_trans h)
  res := hx
  rej := has_mono h rfl
  hif u f := keeps_sub (us := [.hif]) (fun n hn => (sub_iff.1 h).2.1 (by simp at hn ⊢; exact .inr (.inr hn))) rfl

end Reach

namespace Act.Within

variable {R : Reach}

theorem raise {src : Nat} {record : List Byte} (h : (Reach.events [] []).sub R = true := by decide +kernel) :
    Within R (Act.raise src record) := .of_fits ((Reach.foot_events h).raise src record) (Reach.raises_of_sub h)

theorem raiseOnce {src key : Nat} {record : List Byte} (h : (Reach.events [] []).sub R = true := by decide +kernel) :
    Within R (Act.raiseOnce src key record) :=
  .of_fits ((Reach.foot_events h).raiseOnce src key record) (Reach.raises_of_sub h)

theorem evtStatus (h : (Reach.events [] []).sub R = true := by decide +kernel) : Within R Act.evtStatus :=
  .of_fits (Reach.foot_events h).evtStatus (Reach.raises_of_sub h)

theorem bridleClose {overflow : Nat → Act} {i : Nat} {early : Bool} (ho : ∀ r, Within R (overflow r))
    (h : (Reach.events [] []).sub R = true := by decide +kernel) : Within R (Act.bridleClose overflow i early) :=
  .of_fits ((Reach.foot_events h).bridleClose (fun r => (ho r).fits) i early) (Reach.raises_of_sub h)

theorem accessError {reason : Nat} {i : HostIface} {byteEn addr : Nat}
    (h : (Reach.events accessRegs [.hif]).sub R = true := by decide +kernel) :
    Within R (Act.accessError reason i byteEn addr) :=
  .of_fits ((Reach.foot_access h).accessError reason i byteEn addr) (Reach.raises_of_sub h)

theorem permitted {i : HostIface} {x : Nat} {a : Act} (ha : Within R a)
    (h : (Reach.events accessRegs [.hif]).sub R = true := by decide +kernel) : Within R (Act.permitted i x a) :=
  .of_fits ((Reach.foot_access h).permitted i x ha.fits) (Reach.raises_of_sub h)

theorem reached {i : HostIface} {a : Act} (ha : Within R a) : Within R (Act.reached i a) := .read fun _ => .when ha

section

variable {x : Nat}

theorem guardReject {res : Nat} (hx : R.has (x + 8) = true := by rfl)
    (h : (Reach.events [(HIF_GUARD_REJ, 1)] [.hif]).sub R = true := by decide +kernel) :
    Within R (Act.guardReject x res) := .of_fits ((Reach.foot_guard hx h).guardReject res) (Reach.raises_of_sub h)

theorem disarm (hx : R.has (x + 8) = true := by rfl)
    (h : (Reach.events [(HIF_GUARD_REJ, 1)] [.hif]).sub R = true := by decide +kernel) :
    Within R (Act.disarm x) := .of_fits (Reach.foot_guard hx h).disarm (Reach.raises_of_sub h)

theorem guardArm {v : Word} (hx : R.has (x + 8) = true := by rfl)
    (h : (Reach.events [(HIF_GUARD_REJ, 1)] [.hif]).sub R = true := by decide +kernel) :
    Within R (Act.guardArm x v) := .of_fits ((Reach.foot_guard hx h).guardArm v) (Reach.raises_of_sub h)

theorem guardComplement {comp : Word} {check : Word → State → Nat} {apply : Word → Act}
    (ha : ∀ v, Within R (apply v)) (hx : R.has (x + 8) = true := by rfl)
    (h : (Reach.events [(HIF_GUARD_REJ, 1)] [.hif]).sub R = true := by decide +kernel) :
    Within R (Act.guardComplement x comp check apply) :=
  .of_fits ((Reach.foot_guard hx h).guardComplement comp check fun v => (ha v).fits) (Reach.raises_of_sub h)

end

end Act.Within

/-! ### Registers that stand together -/

/-- A register of both RF ports. -/
def ports (g : RfPort → Nat) : List (Nat × Nat) := [(g .s, 1), (g .w, 1)]

/-- An array of registers of both RF ports. -/
def portArrays (g : RfPort → Nat → Nat) (k : Nat) : List (Nat × Nat) := [(g .s 0, k), (g .w 0, k)]

/-- What a chain shows of itself. -/
def chainRegs : List (Nat × Nat) := ports RFx_STATUS ++ portArrays RFx_TXn_STAT 2

/-- Where the end of a reception counts. -/
def decoderRegs : List (Nat × Nat) :=
  [(RXD_CHn_ABORT 0, 80), (RXD_CHn_CAPTURED 0, 80), (RXD_CHn_DEC_FAIL 0, 80), (RXD_CHn_FALSE 0, 80),
   (RXD_CHn_FRAME_OK 0, 80), (RXD_CHn_STAT 0, 80)]

/-- Where the end of a context shows: its reception and the LDPC pool. -/
def receiveRegs : List (Nat × Nat) := (RXD_STATUS, 1) :: decoderRegs

/-- Where a record on an announcement bus shows, with the receptions that a gap ends. -/
def announceRegs : List (Nat × Nat) :=
  receiveRegs ++ ports RXD_AGCx_STAT ++ ports RXD_ANN_GAP_x ++ ports RXD_STEPS_x

/-- Where fetching a key slot shows. -/
def fetchRegs : List (Nat × Nat) := [(SEC_ORPHANS, 1), (SEC_STATUS, 1), (SEC_TORN, 1)]

/-- Where obtaining a derived key shows. -/
def deriveRegs : List (Nat × Nat) := fetchRegs ++ [(SEC_CACHE_HIT, 1), (SEC_CACHE_MISS, 1), (SEC_DERIVE, 1)]

/-- Where the issue of an operation to an accelerator shows. -/
def issueRegs : List (Nat × Nat) := [(BT_PEn_STAT 0, 16), (BT_PEn_TAGSTALL 0, 16)]

/-- Where silencing a port's receivers shows. -/
def blankRegs : List (Nat × Nat) := announceRegs ++ chainRegs ++ ports RFx_CCA_RESTART

/-- Where a duty region shows. -/
def dutyRegs : List (Nat × Nat) := portArrays RFx_DUTYr_USED 16 ++ ports RFx_STATUS

/-- Where a power request shows. -/
def requestRegs : List (Nat × Nat) := [(PWR_LAST_REFUSAL, 1), (PWR_REFr 0, 7), (PWR_REQ_STAT, 1), (PWR_SUPERSEDED, 1)]

/-- Where a command to the pair shows. -/
def pairCmdRegs : List (Nat × Nat) := [(PAIR_CMD_REFUSED, 1), (PAIR_CMD_STAT, 1)]

/-- Where a self-test counts. -/
def selfTestRegs : List (Nat × Nat) := [(PAIR_BIST_RUNS, 1), (PAIR_SELFTEST_FAIL, 1)]

/-- The scheduler snapshot. -/
def schSnapRegs : List (Nat × Nat) :=
  [(SCH_SNAP_C_HI, 1), (SCH_SNAP_C_LO, 1), (SCH_SNAP_F_HI, 1), (SCH_SNAP_F_LO, 1), (SCH_SNAP_REQ, 1),
   (SCH_SNAP_TC, 1), (SCH_SNAP_TP, 1), (SCH_SNAP_V_HI, 1), (SCH_SNAP_V_LO, 1)]

/-- Where reading a key slot shows. -/
def slotReadRegs : List (Nat × Nat) :=
  [(SEC_SLOT_META0, 1), (SEC_SLOT_META1, 1), (SEC_SLOT_META2, 1), (SEC_SLOT_STAT, 1)]

/-- Where taking a time capture shows. -/
def captureRegs : List (Nat × Nat) :=
  [(TK_CAP_NS, 1), (TK_CAP_REQ, 1), (TK_CAP_S_HI, 1), (TK_CAP_S_LO, 1), (TK_STATUS, 1)]

/-- The snapshot of the time. -/
def timeRegs : List (Nat × Nat) :=
  [(TK_TIME_FRAC, 1), (TK_TIME_NS, 1), (TK_TIME_REQ, 1), (TK_TIME_S_HI, 1), (TK_TIME_S_LO, 1)]

/-- Where a step of the time shows. -/
def stepRegs : List (Nat × Nat) := [(TK_STATUS, 1), (TK_STEPS, 1), (TK_STEP_CMD_REFUSED, 1), (TK_STEP_REFUSED, 1)]

/-- Where a new time increment shows. -/
def incrementRegs : List (Nat × Nat) := [(TK_CLAMPED, 1), (TK_INCR_FRAC, 1), (TK_INCR_INT, 1), (TK_STATUS, 1)]

/-- The beat snapshot. -/
def beatRegs : List (Nat × Nat) :=
  [(BT_BEAT_HI, 1), (BT_BEAT_LO, 1), (BT_BEAT_REQ, 1), (BT_SAMPLE_HI, 1), (BT_SAMPLE_LO, 1)]

/-- Where reading a digest shows. -/
def digestReadRegs : List (Nat × Nat) :=
  [(PAIR_DIG_BEAT, 1), (PAIR_DIG_OWNx 0, 6), (PAIR_DIG_PARTx 0, 6), (PAIR_DIG_REQ, 1)]

/-- Where comparing digests shows. -/
def digestRegs : List (Nat × Nat) := [(FWD_TBLn_SHADOW 0, 4), (PAIR_MISMATCH, 1), (PAIR_STATUS, 1), (PAIR_SYNCS, 1)]

/-- Where programming a fuse row shows. -/
def fuseBlowRegs : List (Nat × Nat) := [(FUSE_PROG_COUNT, 1), (FUSE_PROG_FAIL, 1), (FUSE_STATUS, 1)]

/-- Where operations ending late show. -/
def lateRegs : List (Nat × Nat) := [(BT_LATE_TOTAL, 1), (BT_PEn_LATE 0, 16), (BT_PEn_STAT 0, 16), (RXD_STATUS, 1)]

/-- Where the loss of the partner shows. -/
def partnerLostRegs : List (Nat × Nat) := [(PAIR_CMD_STAT, 1), (PAIR_LOST, 1), (PAIR_STATUS, 1)]

namespace Act.Within

open Reach (has_array has_port has_port_array)

variable {R : Reach}

/-! ### The pair's record -/

theorem linkSend {b} : Within (.quiet [] [.pair]) (Act.linkSend b) := .read fun _ => .when .units

theorem recordInput {kind} : Within (.quiet [] [.pair]) (Act.recordInput kind) :=
  .read fun _ => .when <| .seq (.sub .linkSend) .units

theorem logUpdate {bs} : Within (.quiet [] [.pair]) (Act.logUpdate bs) := .read fun _ => .when .units

theorem faultClass {n} : Within (.quiet [] [.pair]) (Act.faultClass n) := .units

theorem healthFault {row cls} : Within (.quiet [] [.pair]) (Act.healthFault row cls) := .read fun _ => .units

/-! ### Programs of Machine/Events -/

theorem msixSend {v} : Within (.quiet [(EVT_MSIX_SENT, 1)] [.evt]) (Act.msixSend v) :=
  .read fun _ => .all ⟨.wrap, .when .units⟩

theorem msixRequest {v} :
    Within (.quiet [((MSIX_PENDING 0).reg, 4), (EVT_MSIX_SENT, 1)] [.evt]) (Act.msixRequest v) :=
  .read fun _ => .ite .nop <| .ite .units <| .ite (.setF has_array) <| .sub .msixSend

/-! ### Programs of Machine/Directory -/

theorem demandFail {a} : Within (.events [(ENV_ECC_UNC, 1)] [.env, .pair]) (Act.demandFail a) :=
  .read fun _ => .all ⟨.sat, .raise, .sub .healthFault, .sub .recordInput, .when .units⟩

/-! ### Programs of Machine/Campaign -/

theorem runSet {r f} : Within (.quiet [] [.img]) (Act.runSet r f) := .units

/-! ### Programs of Machine/Modes -/

theorem engine {n f} : Within (.quiet [] [.bt]) (Act.engine n f) := .units

/-! ### Programs of Machine/Accel -/

theorem sram {pe a bs} : Within (.quiet [] [.accel]) (Act.sram pe a bs) := .units

theorem engineStat {pe} : Within (.quiet [(BT_PEn_STAT 0, 16)] []) (Act.engineStat pe) :=
  .read fun _ => .all ⟨.setF has_array, .setF has_array, .setF has_array⟩

theorem completion {pe c} : Within (.quiet [(BT_PEn_STAT 0, 16)] [.bt]) (Act.completion pe c) :=
  .read fun _ => .seq (.sub .engine) <| .sub .engineStat

theorem releaseHeld : Within (.quiet [(BT_PEn_STAT 0, 16)] [.bt]) Act.releaseHeld :=
  .each fun _ => .seq (.sub .engine) <| .sub .engineStat

theorem issueWith {pe thread k} (hk : ∀ w, Within R (k w))
    (hs : (Reach.quiet issueRegs [.bt]).sub R = true := by decide +kernel) : Within R (Act.issueWith pe thread k) :=
  .read fun _ => .when <| by
    split
    · exact .sub (.all ⟨.sub .engine, .when <| .wrap has_array, .sub .engineStat⟩) hs
    · exact .all ⟨.sub (.sub .engine) hs, hk _, .sub (.sub .engineStat) hs⟩

theorem issue {pe thread cls w} : Within (.quiet issueRegs [.bt, .accel]) (Act.issue pe thread cls w) :=
  .issueWith fun _ => .read fun _ => .units

theorem issueNow {pe thread cls k}
    (hk : ∀ f, (∀ status flags result, Within R (f status flags result)) → Within R (k f))
    (hs : (Reach.quiet issueRegs [.bt]).sub R = true := by decide +kernel) :
    Within R (Act.issueNow pe thread cls k) :=
  .issueWith (fun _ => hk _ fun _ _ _ => .read fun _ => .sub .completion (Reach.sub_trans hs)) hs

theorem finish {o status flags result} :
    Within (.quiet [(BT_PEn_STAT 0, 16)] [.bt, .accel]) (Act.finish o status flags result) :=
  .seq .units <| .sub .completion

/-! ### Programs of Machine/Keystore -/

theorem putSlot {n k} : Within (.quiet [] [.sec, .pair]) (Act.putSlot n k) := .seq .units <| .sub .logUpdate

theorem slotsValid : Within (.quiet [(SEC_STATUS, 1)] []) Act.slotsValid := .read fun _ => .setF

theorem dropCached {n} : Within (.quiet [] [.sec]) (Act.dropCached n) := .units

theorem orphanWalk {n} : Within (.events [(SEC_ORPHANS, 1), (SEC_STATUS, 1)] [.sec, .pair]) (Act.orphanWalk n) :=
  .read fun _ => .all ⟨.each fun _ => .read fun _ => .all ⟨.sub .putSlot, .sub .dropCached, .sat⟩, .when .raise,
    .sub .slotsValid⟩

theorem tear {n} : Within (.events fetchRegs [.sec, .pair]) (Act.tear n) :=
  .read fun _ => .all ⟨.sub .putSlot, .sub .dropCached, .sub .orphanWalk, .sat, .units, .raise, .sub .slotsValid⟩

theorem fetchSlot {n i upset bad k} (hbad : Within R bad) (hk : ∀ w, Within R (k w))
    (hs : (Reach.events fetchRegs [.sec, .pair]).sub R = true := by decide +kernel) :
    Within R (Act.fetchSlot n i upset bad k) :=
  .read fun _ => .ite hbad <| .ite (.seq (.sub (.sub .tear) hs) hbad) <| hk _

theorem cachePut {n l key} : Within (.quiet [] [.sec]) (Act.cachePut n l key) := .read fun _ => .when .units

theorem deriveFromSlot {n l bad k} (hbad : Within R bad) (hk : ∀ w, Within R (k w))
    (hs : (Reach.events ([(SEC_DERIVE, 1)] ++ fetchRegs) [.sec, .pair]).sub R = true := by decide +kernel) :
    Within R (Act.deriveFromSlot n l bad k) :=
  .read fun _ => .ite hbad <| .ite hbad <| .fetchSlot hbad (fun _ => .all ⟨.sub .wrap hs, .sub (.sub .cachePut) hs,
    hk _⟩) (Reach.sub_trans hs)

theorem derived {n l bad k} (hbad : Within R bad) (hk : ∀ w, Within R (k w))
    (hs : (Reach.events deriveRegs [.sec, .pair]).sub R = true := by decide +kernel) :
    Within R (Act.derived n l bad k) :=
  .read fun _ => .ite hbad <| by
    split
    · exact .seq (.sub .wrap hs) <| hk _
    · exact .seq (.sub .wrap hs) <| .ite (.read fun _ => by
      split
      · exact .seq (.sub .wrap hs) <| .all ⟨.sub .wrap hs, .sub (.sub .cachePut) hs, hk _⟩
      · exact .seq (.sub .wrap hs) <| .deriveFromSlot hbad (fun _ => .all ⟨.sub .wrap hs, .sub (.sub .cachePut) hs,
        hk _⟩) (Reach.sub_trans hs)) <| .deriveFromSlot hbad (fun _ => hk _) (Reach.sub_trans hs)

theorem wrapToPartner {source} :
    Within (.events ([(SEC_INVALID_KEY, 1)] ++ fetchRegs) [.sec, .pair]) (Act.wrapToPartner source) :=
  .read fun _ => .ite .nop <| .ite .sat <| .fetchSlot .sat fun _ => .sub .linkSend

theorem requestRoll : Within (.events [(SEC_STATUS, 1)] [.sec]) Act.requestRoll :=
  .read fun _ => .when <| .all ⟨.units, .setB, .when .raise⟩

theorem takeCtr {key refuse k} (hrefuse : Within R refuse) (hk : ∀ w, Within R (k w))
    (hs : (Reach.events [(SEC_STATUS, 1)] [.sec]).sub R = true := by decide +kernel) :
    Within R (Act.takeCtr key refuse k) :=
  .read fun _ => by
    split
    · exact .seq (.sub .raiseOnce hs) hrefuse
    · exact .seq (.sub (.when <| .seq .raise <| .sub .requestRoll) hs) <| hk _

theorem opZero {o} : Within (.quiet [] [.accel]) (Act.opZero o) :=
  .read fun _ => by
    split
    · exact .sub .sram
    · exact .sub .sram
    · exact .sub .sram
    · exact .sub .sram
    · exact .nop

/-! ### Programs of Machine/QueueOps -/

theorem ethUnit {p f} : Within (.quiet [] [.eth]) (Act.ethUnit p f) := .units

theorem pauseEval {p} : Within (.events [(ETH_STATUS, 1)] [.eth]) (Act.pauseEval p) :=
  .read fun _ => .all ⟨.when <| .sub .ethUnit, .when <| .all ⟨.setB, .sub .ethUnit, .when .raiseOnce⟩⟩

theorem fcPins : Within (.events [(ENV_FC_STATE, 1)] [.env]) Act.fcPins :=
  .read fun _ => .each fun _ => .read fun _ => .ite (.seq (.when .setF) .units) <| .when <| .all ⟨.setF, .when .units,
    .when .raiseOnce⟩

/-! ### Programs of Machine/SchedOps -/

theorem flow {d f g} : Within (.quiet [] [.sch]) (Act.flow d f g) := .units

theorem stamp {backlogged d f} : Within (.quiet [] [.sch]) (Act.stamp backlogged d f) :=
  .read fun _ => by split; exacts [.nop, .when <| .sub .flow]

theorem selectHead {d f start fin} : Within (.quiet [] [.sch]) (Act.selectHead d f start fin) :=
  .all ⟨.units, .sub .flow, .sub .stamp⟩

theorem returnPacket {d f start} : Within (.quiet [] [.sch]) (Act.returnPacket d f start) := .sub .flow

theorem rebuildBit {d b} : Within (.quiet [(SCH_STATUS, 1)] []) (Act.rebuildBit d b) := .setF

theorem creditTicks : Within (.quiet [] [.sch]) Act.creditTicks := .read fun _ => .each fun _ => .when .units

/-! ### Programs of Machine/Tables -/

theorem entry {n slot e} : Within (.quiet [] [.fwd]) (Act.entry n slot e) := .units

theorem tableCount {n} : Within (.quiet [(FWD_STATUS, 1), (FWD_TBLn_COUNT 0, 4)] []) (Act.tableCount n) :=
  .read fun _ => .all ⟨.setF has_array, .setF has_array, .setF⟩

theorem tableDelete {n key stamp k} (hk : ∀ w x y z, Within R (k w x y z))
    (hs : (Reach.quiet [(FWD_STATUS, 1), (FWD_TBLn_COUNT 0, 4)] [.fwd]).sub R = true := by decide +kernel) :
    Within R (Act.tableDelete n key stamp k) :=
  .read fun _ => by
    split
    · exact hk _ _ _ _
    · exact .ite (hk _ _ _ _) <| .all ⟨.sub (.sub .entry) hs, .sub (.sub .tableCount) hs, hk _ _ _ _⟩

/-! ### Programs of Machine/RxOps -/

theorem decoder {n f} : Within (.quiet [] [.rx]) (Act.decoder n f) := .units

theorem agc {p f} : Within (.quiet [] [.rx]) (Act.agc p f) := .units

theorem chStat {n} : Within (.quiet [(RXD_CHn_STAT 0, 80)] []) (Act.chStat n) :=
  .read fun _ => .all ⟨.setF has_array, .setF has_array, .setB has_array⟩

theorem poolStat : Within (.quiet [(RXD_STATUS, 1)] []) Act.poolStat := .read fun _ => .all ⟨.setF, .setF⟩

theorem countStatus {n st} : Within (.events decoderRegs [.rx]) (Act.countStatus n st) :=
  .seq (.setF has_array) <| .ite (.wrap has_array) <| .ite (.sat has_array) <| .ite (.sat has_array) <|
    .ite (.sat has_array) <| .all ⟨.wrap has_array, .sub .decoder, .read fun _ => .when .raiseOnce⟩

theorem deliverFrame {f st beat} : Within (.events decoderRegs [.rx, .pair]) (Act.deliverFrame f st beat) :=
  .read fun _ => .all ⟨.ite .nop <| .ite (.when <| .seq .units <| .when <| .sub .linkSend) <| .all ⟨.units,
    .when .units, .sub .recordInput⟩, .sub .countStatus⟩

theorem rxFrame {id g} : Within (.quiet [] [.rx]) (Act.rxFrame id g) := .units

theorem endCtx {n c st} : Within (.events receiveRegs [.rx, .pair]) (Act.endCtx n c st) :=
  .read fun _ => .ite (by split; exacts [.nop, .all ⟨.units, .sub .poolStat, .sub .deliverFrame⟩]) <|
    .sub .countStatus

theorem endP {n st} : Within (.events receiveRegs [.rx, .pair]) (Act.endP n st) :=
  .read fun _ => by
    dsimp only
    split
    · exact .nop
    · exact .all ⟨.sub .endCtx, .sub .decoder, .sub .chStat⟩

theorem endW {n st} : Within (.events receiveRegs [.rx, .pair]) (Act.endW n st) :=
  .read fun _ => by split; exacts [.nop, .all ⟨.sub .endCtx, .sub .decoder, .sub .chStat⟩]

theorem endBoth {n st} : Within (.events receiveRegs [.rx, .pair]) (Act.endBoth n st) :=
  .seq (.sub .endW) <| .sub .endP

theorem endPort {p st} : Within (.events receiveRegs [.rx, .pair]) (Act.endPort p st) := .each fun _ => .sub .endBoth

theorem announceGap {p} : Within (.events (receiveRegs ++ ports RXD_ANN_GAP_x) [.rx, .pair]) (Act.announceGap p) :=
  .all ⟨.sub .endPort, .sat (has_port RXD_ANN_GAP_x), .raise⟩

theorem announce {p kind sEff sClip step gain} :
    Within (.events announceRegs [.rx, .pair]) (Act.announce p kind sEff sClip step gain) :=
  .read fun _ => .all ⟨.setF (has_port RXD_AGCx_STAT), .when <| .wrap (has_port RXD_STEPS_x), .when <|
    .sub .announceGap, .each fun _ => .sub .decoder⟩

theorem eraseSpan {n span} : Within (.quiet [] [.rx]) (Act.eraseSpan n span) := .read fun _ => .sub .decoder

theorem blankCheck {n span} : Within (.events receiveRegs [.rx, .pair]) (Act.blankCheck n span) :=
  .read fun _ => .seq (by split; exacts [.when <| .sub .endW, .nop]) <| by split; exacts [.when <| .sub .endP, .nop]

theorem applyRecord {n r} : Within (.events receiveRegs [.rx, .pair]) (Act.applyRecord n r) :=
  .read fun _ => .ite (.seq (.sub .eraseSpan) <| .sub .decoder) <| .ite (.sub .decoder) <| .ite (by
    split
    · exact .nop
    · exact .all ⟨.sub .decoder, .sub .eraseSpan, .sub .blankCheck⟩) <| .sub .eraseSpan

theorem agcStat {p} : Within (.quiet (ports RXD_AGCx_STAT) []) (Act.agcStat p) :=
  .read fun _ => .all ⟨.setB (has_port RXD_AGCx_STAT), .setF (has_port RXD_AGCx_STAT)⟩

theorem gainDecision {p g at_ clip} : Within (.events announceRegs [.rx, .pair]) (Act.gainDecision p g at_ clip) :=
  .read fun _ => .all ⟨.sub .announce, .sub .agc, .when .raiseOnce⟩

theorem trimExt {p seqNo reports} :
    Within (.events (ports RXD_AGCx_STAT ++ ports RXD_EXTx_STEP) [.rx]) (Act.trimExt p seqNo reports) :=
  .read fun _ => .when <| .all ⟨.sub .agc, .setF (has_port RXD_EXTx_STEP), .sub .agcStat, .when .raise⟩

theorem settleFrame {id} : Within (.events decoderRegs [.rx, .pair]) (Act.settleFrame id) :=
  .read fun _ => by split; exacts [.nop, .when <| .all ⟨.sub .rxFrame, .sub .deliverFrame⟩]

theorem cwDone {id i r} : Within (.events decoderRegs [.rx, .pair]) (Act.cwDone id i r) :=
  .seq (.sub .rxFrame) <| .sub .settleFrame

theorem rxRunning {p} : Within (.quiet [(RXD_CHn_STAT 0, 80), (RXD_STATUS, 1)] []) (Act.rxRunning p) :=
  .read fun _ => .seq (.setB (has_port fun p => (rxRun p).reg)) <| .each fun _ => .sub .chStat

theorem decoderCfg {n w} :
    Within (.events ([(RXD_CHn_CFG 0, 80)] ++ receiveRegs) [.rx, .pair]) (Act.decoderCfg n w) :=
  .read fun _ => .when <| .all ⟨.sub .endBoth, .reg has_array, .sub .decoder, .sub .chStat⟩

theorem captureCfg {w} : Within (.events ([(RXD_CAPTURE, 1)] ++ receiveRegs) [.rx, .pair]) (Act.captureCfg w) :=
  .read fun _ => .seq .reg <| .when <| .each fun _ => .read fun _ => by
    split
    · exact .when <| .seq (.sub .endW) <| .sub .chStat
    · exact .nop

/-! ### Programs of Machine/RfOps -/

theorem rfUnit {p f} : Within (.quiet [] [.rf]) (Act.rfUnit p f) := .units

theorem txUnit {c f} : Within (.quiet [] [.rf]) (Act.txUnit c f) := .sub .rfUnit

theorem txCmd {c f} : Within (.quiet [] [.rf]) (Act.txCmd c f) := .sub .txUnit

theorem txHolding {c} : Within (.quiet (portArrays RFx_TXn_STAT 2) []) (Act.txHolding c) :=
  .read fun _ => .setB (has_port_array RFx_TXn_STAT)

theorem txOn {p} : Within (.quiet (ports RFx_STATUS) []) (Act.txOn p) := .read fun _ => .setF (has_port RFx_STATUS)

theorem txSetState {c st} : Within (.quiet chainRegs []) (Act.txSetState c st) :=
  .seq (.setF (has_port_array RFx_TXn_STAT)) <| .sub .txOn

theorem rfEvent {src c} : Within (.events [] []) (Act.rfEvent src c) := .raise

theorem entryBack {e} : Within (.quiet [] [.sch]) (Act.entryBack e) :=
  .read fun _ => by
    split
    · exact .nop
    · split
      · exact .nop
      · exact .sub .returnPacket

theorem ackDigest {a reason} : Within (.quiet [] [.pair]) (Act.ackDigest a reason) := .read fun _ => .when .units

theorem ackDropped {a reason} : Within (.events [(MAC_ACK_DROP, 1)] [.mac, .pair]) (Act.ackDropped a reason) :=
  .all ⟨.sat, .sub .recordInput, .sub .ackDigest, .units, .read fun _ => .raiseOnce⟩

theorem acksLost {c} : Within (.events [(MAC_ACK_DROP, 1)] [.rf, .mac, .pair]) (Act.acksLost c) :=
  .read fun _ => .all ⟨.units, .sub .txUnit, .each fun _ => .sub .ackDropped⟩

theorem cxFollow {p} : Within (.quiet (ports RFx_STATUS) [.rf]) (Act.cxFollow p) :=
  .read fun _ => .seq (.setB (has_port RFx_STATUS)) <| .sub .rfUnit

theorem txDrop {c} : Within (.quiet chainRegs [.rf]) (Act.txDrop c) :=
  .all ⟨.sub .txUnit, .sub .txHolding, .sub .cxFollow⟩

theorem ccaRestart {c} :
    Within (.quiet (ports RFx_CCA_RESTART ++ portArrays RFx_TXn_STAT 2) [.rf]) (Act.ccaRestart c) :=
  .read fun _ => by
    split
    · exact .nop
    · exact .when <| .all ⟨.sub .txCmd, .wrap (has_port RFx_CCA_RESTART), .sub .txHolding⟩

theorem blankOn {p t sample} : Within (.events blankRegs [.rf, .rx, .pair]) (Act.blankOn p t sample) :=
  .read fun _ => .when <| .all ⟨.setB (has_port RFx_STATUS), .sub .rfUnit, .sub .announce, .sub .ccaRestart,
    .sub .ccaRestart⟩

theorem txProceed {c} : Within (.quiet (portArrays RFx_TXn_STAT 2) [.rf]) (Act.txProceed c) :=
  .read fun _ => by split; exacts [.nop, .when <| .seq (.sub .txCmd) <| .sub .txHolding]

theorem blankOff {p t sample} :
    Within (.events (announceRegs ++ chainRegs ++ ports RFx_BLANK_US) [.rf, .rx, .pair]) (Act.blankOff p t sample) :=
  .read fun _ => .when <| .all ⟨.setB (has_port RFx_STATUS), by split; exacts [.nop, .wrapBy (has_port RFx_BLANK_US)],
    .sub .rfUnit, .sub .announce, .sub .txProceed, .sub .txProceed⟩

theorem txCalStart {c k} : Within (.quiet (chainRegs ++ ports RFx_TX_CAL) [.rf]) (Act.txCalStart c k) :=
  .all ⟨.sub .txUnit, .setF (has_port_array RFx_TXn_STAT), .sub .txSetState, .wrap (has_port RFx_TX_CAL)⟩

theorem txRetune {c} : Within (.quiet (chainRegs ++ ports RFx_TX_CAL) [.rf]) (Act.txRetune c) :=
  .read fun _ => by split; exacts [.nop, .when <| .sub .txCalStart]

theorem txTake {c ack} : Within (.quiet [] [.sch, .rf, .mac]) (Act.txTake c ack) :=
  .read fun _ => .when <| .ite (by split; exacts [.nop, .seq .units <| .sub .txUnit]) <| by
    split
    · exact .nop
    · exact .seq .units <| .sub .txUnit

theorem txGiveUp {c reason} :
    Within (.events ([(MAC_ACK_DROP, 1)] ++ chainRegs) [.sch, .rf, .mac, .pair]) (Act.txGiveUp c reason) :=
  .read fun _ => by
    split
    · exact .nop
    · exact .seq (.sub .txDrop) <| by split; exacts [.sub .ackDropped, .sub .entryBack]

theorem txSuspend {c} :
    Within (.events ([(MAC_ACK_DROP, 1)] ++ chainRegs ++ ports RFx_CCA_RESTART) [.sch, .rf, .mac, .pair])
      (Act.txSuspend c) :=
  .all ⟨.sub .ccaRestart, .read fun _ => by
    split
    · exact .nop
    · exact .when <| by split; exacts [.sub .txGiveUp, .when <| .sub .txCmd], .sub .txHolding, .sub .acksLost⟩

theorem dutyStat {p r} : Within (.quiet dutyRegs []) (Act.dutyStat p r) :=
  .read fun _ => .all ⟨.reg (has_port_array RFx_DUTYr_USED), .setF (has_port RFx_STATUS)⟩

theorem dutySet {p r d} : Within (.events dutyRegs [.rf]) (Act.dutySet p r d) :=
  .read fun _ => .all ⟨.sub .rfUnit, .sub .dutyStat, .when .raise⟩

theorem dutyAdd {p k rate t} : Within (.events dutyRegs [.rf]) (Act.dutyAdd p k rate t) :=
  .read fun _ => .each fun _ => .when <| .sub .dutySet

theorem dutyClear {p r} : Within (.events dutyRegs [.rf]) (Act.dutyClear p r) :=
  .all ⟨.sub .rfUnit, .sub .dutyStat, .raise⟩

theorem dutyWrite {p r band w} :
    Within (.events (portArrays RFx_DUTYr_BAND 16 ++ portArrays RFx_DUTYr_LIMIT 16 ++ dutyRegs) [.rf])
      (Act.dutyWrite p r band w) :=
  .read fun _ => .seq (.reg (by split; exacts [(has_port_array RFx_DUTYr_BAND), (has_port_array RFx_DUTYr_LIMIT)])) <|
    .ite (.sub .dutyClear) <| .sub .dutyStat

theorem recalRequest {p cause} :
    Within (.quiet ([(RXD_CHn_STAT 0, 80), (RXD_STATUS, 1)] ++ ports RFx_STATUS) [.rf]) (Act.recalRequest p cause) :=
  .all ⟨.setB (has_port RFx_STATUS), .sub .rfUnit, .sub .rxRunning⟩

theorem recalStart {p cause t sample} :
    Within (.events ((MAC_ACK_DROP, 1) :: blankRegs) [.sch, .rf, .rx, .mac, .pair])
      (Act.recalStart p cause t sample) :=
  .all ⟨.setB (has_port RFx_STATUS), .setB (has_port RFx_STATUS), .sub .rfUnit, .sub .endPort, .sub .rxRunning,
    .sub .blankOn, .sub .txSuspend, .sub .txSuspend⟩

theorem rxcalWrite {p w} :
    Within (.quiet ([(RXD_CHn_STAT 0, 80), (RXD_STATUS, 1)] ++ ports RFx_RXCAL_REFUSED ++ ports RFx_STATUS) [.rf])
      (Act.rxcalWrite p w) :=
  .read fun _ => .when <| .ite (.sat (has_port RFx_RXCAL_REFUSED)) <| .sub .recalRequest

/-! ### Programs of Machine/MacOps -/

theorem macGone {id} : Within (.quiet [] [.mac]) (Act.macGone id) := .units

theorem macDrop {id r} : Within (.quiet [(MAC_DROPr 0, 16)] [.mac]) (Act.macDrop id r) :=
  .seq (.sat has_array) <| .sub .macGone

theorem macSet {id g} : Within (.quiet [] [.mac]) (Act.macSet id g) := .units

theorem beaconFill {e f x k} (hk : ∀ w, Within R (k w))
    (hs : (Reach.events ([(TK_BCN_INSERT, 1)] ++ deriveRegs) [.sec, .pair]).sub R = true := by decide +kernel) :
    Within R (Act.beaconFill e f x k) :=
  .read fun _ => .derived (hk _) (fun _ => .all ⟨.sub .wrap hs, hk _⟩) (Reach.sub_trans hs)

theorem reportEvent {b early} : Within (.events [(MAC_BRIDLE_EVT, 1)] []) (Act.reportEvent b early) :=
  .seq .wrap .raise

theorem bridleFollow : Within (.quiet [(MAC_STATUS, 1)] []) Act.bridleFollow := .read fun _ => .setB

theorem bridleEnd {b early} :
    Within (.events [(MAC_BRIDLE_EVT, 1), (MAC_STATUS, 1)] [.mac]) (Act.bridleEnd b early) :=
  .all ⟨.units, .sub .reportEvent, .sub .bridleFollow⟩

/-! ### Programs of Machine/Planner -/

theorem planGather : Within (.quiet [] [.sch]) Act.planGather := .read fun _ => .units

/-! ### Programs of Machine/Sched -/

theorem uplinkPick {p c fin h k} (hk : ∀ w, Within R (k w))
    (hs : (Reach.quiet [] [.sch, .eth]).sub R = true := by decide +kernel) : Within R (Act.uplinkPick p c fin h k) :=
  .read fun _ => .all ⟨.sub (.sub .selectHead) hs, .sub (.when .units) hs, .sub .units hs, .sub (by
    split
    · exact .nop
    · exact .units) hs, hk _⟩

theorem uplinkTake {p c fin h q} :
    Within (.quiet [(SCH_ULk_SENT 0, 16)] [.sch, .eth, .pair]) (Act.uplinkTake p c fin h q) :=
  .uplinkPick fun _ => .all ⟨.sub .recordInput, .wrap has_array, .sub .ethUnit⟩

theorem schSnapReq {iface value} : Within (.events (schSnapRegs ++ accessRegs) [.hif]) (Act.schSnapReq iface value) :=
  .permitted <| .read fun _ => .all ⟨.reg, .reg, .reg, .reg, .reg, .reg, .reg, .reg, .reg⟩

/-! ### Programs of Machine/Guard -/

theorem written {src a act} (hact : Within R act)
    (hs : (Reach.events accessRegs [.hif]).sub R = true := by decide +kernel) : Within R (Act.written src a act) := by
  cases src with
  | none => exact hact
  | some i => exact .permitted hact (Reach.sub_trans hs)

/-! ### Programs of Machine/TimeOps -/

theorem timePasses {edges} : Within (.quiet [] [.tk]) (Act.timePasses edges) := .read fun _ => .when .units

theorem stepApply {off} : Within (.events [(TK_STATUS, 1), (TK_STEPS, 1)] [.tk]) (Act.stepApply off) :=
  .read fun _ => .all ⟨.units, .setB, .setF, .sat, .raise⟩

theorem stepGo : Within (.events stepRegs [.tk]) Act.stepGo :=
  .read fun _ => .ite (.seq .setF .sat) <| .ite .setF <| .ite (.all ⟨.setF, .sat, .raise⟩) <| .all ⟨.setB, .setB,
    .ite .units <| .sub .stepApply⟩

theorem incApply {int} : Within (.events incrementRegs [.tk]) (Act.incApply int) :=
  .read fun _ => .all ⟨.reg, .reg, .when <| .seq .sat .raise, .setB, .units⟩

theorem traceSet {on} : Within (.events [(TK_STATUS, 1)] [.pair]) (Act.traceSet on) :=
  .read fun _ => .all ⟨.setB, .when .raise, .when <| .sub .recordInput⟩

theorem tkState {st watchdog} : Within (.events [(TK_STATUS, 1)] [.tk, .pair]) (Act.tkState st watchdog) :=
  .read fun _ => .all ⟨.setF, .units, .when .raise, .when .raise, .when <| .sub .traceSet⟩

theorem servoWrite {w} : Within (.events [(TK_SERVO, 1), (TK_STATUS, 1)] [.tk, .pair]) (Act.servoWrite w) :=
  .seq .reg <| .sub .tkState

theorem tsiFollow : Within (.quiet [(TK_STATUS, 1)] []) Act.tsiFollow := .read fun _ => .seq .setF .setF

/-! ### Programs of Machine/EthOps -/

theorem brCmdWrite {w} : Within (.quiet [(ETH_BR_CMD_REFUSED, 1), (ETH_BR_STAT, 1)] [.eth]) (Act.brCmdWrite w) :=
  .read fun _ => .ite .sat <| .when <| .seq .setB .units

/-! ### Programs of Machine/Shift -/

theorem aliveRelease : Within (.quiet [(PAIR_STATUS, 1)] []) Act.aliveRelease := .setB

/-! ### Programs of Machine/Engine -/

theorem coresBusy : Within (.quiet [(SEC_STATUS, 1)] []) Act.coresBusy := .read fun _ => .setF

theorem opInvalid {o} : Within (.quiet [(BT_PEn_STAT 0, 16), (SEC_INVALID_KEY, 1)] [.bt, .accel]) (Act.opInvalid o) :=
  .seq .sat <| .sub .finish

theorem coreTake {o core slot ctr key} :
    Within (.quiet [(SEC_STATUS, 1)] [.accel]) (Act.coreTake o core slot ctr key) :=
  .seq .units <| .sub .coresBusy

theorem fetchUpset {upset slot label} : Within (.events fetchRegs [.sec, .pair]) (Act.fetchUpset upset slot label) :=
  .read fun _ => .when <| .sub .tear

theorem frameFetch {o core upset k down epoch ctr} :
    Within (.events ([(BT_PEn_STAT 0, 16), (SEC_INVALID_KEY, 1)] ++ deriveRegs) [.accel, .sec, .pair])
      (Act.frameFetch o core upset k down epoch ctr) :=
  .read fun _ => by split; exacts [.seq (.sub .fetchUpset) <| .derived (.sub .opInvalid) fun _ => .sub .coreTake]

theorem coreStart {o core upset} :
    Within (.events ([(BT_PEn_STAT 0, 16), (SEC_INVALID_KEY, 1)] ++ deriveRegs) [.accel, .sec, .pair])
      (Act.coreStart o core upset) :=
  .read fun _ => by
    split
    · exact .ite (.sub .finish) <| .takeCtr (.sub .finish) fun _ => .sub .frameFetch
    · exact .sub .frameFetch
    · exact .seq (.sub .fetchUpset) <| .derived (.sub .opInvalid) fun _ => .sub .coreTake
    · exact .fetchSlot (.sub .opInvalid) fun _ => .sub .coreTake
    · exact .nop

/-! ### Programs of Machine/EngineOps -/

theorem opLate {o} : Within (.quiet lateRegs [.bt, .accel, .rx, .pair]) (Act.opLate o) :=
  .all ⟨.units, .sub .poolStat, .sub .opZero, .sub .finish, .wrap has_array, .wrap, .sub .recordInput⟩

theorem rolesFollow : Within (.quiet [] [.bt]) Act.rolesFollow :=
  .seq (.each fun _ => .read fun _ => .when <| .sub .engine) <| .each fun _ => .read fun _ => .when <| by
    split
    · exact .nop
    · exact .sub .engine

theorem engineFault {n cls} :
    Within (.events ((BT_ENG_STATE, 1) :: lateRegs) [.accel, .rx, .pair]) (Act.engineFault n cls) :=
  .read fun _ => .all ⟨.each fun _ => .sub .opLate, .sub .engine, .sub .engineStat, .setF, .sub .rolesFollow, .units,
    .raise⟩

theorem engineBack {n} : Within (.events [(BT_ENG_STATE, 1)] []) (Act.engineBack n) :=
  .read fun _ => .all ⟨.sub .engine, .setF, .sub .rolesFollow, .raise⟩

theorem selfTestRun {row pass bad} (hbad : Within R bad)
    (hs : (Reach.events selfTestRegs [.pair]).sub R = true := by decide +kernel) :
    Within R (Act.selfTestRun row pass bad) :=
  .seq (.sub .wrap hs) <| .when <| .all ⟨.sub .sat hs, .sub .units hs, .sub .raise hs, hbad⟩

/-! ### Programs of Machine/FuseOps -/

theorem fuseStatus : Within (.quiet [(FUSE_STATUS, 1)] []) Act.fuseStatus :=
  .read fun _ => .all ⟨.setF, .setB, .setB, .setB, .setB, .setB, .setF⟩

theorem fuseRefuse {why} : Within (.quiet [(FUSE_STATUS, 1)] []) (Act.fuseRefuse why) := .setF

theorem fuseStart {row bits advance} : Within (.quiet [(FUSE_STATUS, 1)] [.fuse]) (Act.fuseStart row bits advance) :=
  .seq .units .setB

theorem fuseGuard {x comp check apply} (happly : ∀ w, Within R (apply w)) (hx : R.has (x + 8) = true := by rfl)
    (hs : (Reach.events [(FUSE_STATUS, 1), (HIF_GUARD_REJ, 1)] [.hif]).sub R = true := by decide +kernel) :
    Within R (Act.fuseGuard x comp check apply) :=
  .read fun _ => .seq (.guardComplement happly hx (Reach.sub_trans hs)) <| .read fun _ => .when <|
    .sub .fuseRefuse (Reach.sub_trans hs)

/-! ### Programs of Machine/Rf -/

theorem ccaBegin {c} : Within (.quiet (ports RFx_CCA_RESTART ++ portArrays RFx_TXn_STAT 2) [.rf]) (Act.ccaBegin c) :=
  .read fun _ => .seq (.sub .txCmd) <| .seq (.when <| .wrap (has_port RFx_CCA_RESTART)) <| .seq (.sub .txProceed) <|
    .sub .txHolding

theorem sequenceStart {c t sample} :
    Within
      (.events ([(MAC_ACK_DROP, 1), (TK_BCN_INSERT, 1)] ++ blankRegs ++ deriveRegs ++ ports RFx_DUTY_REFUSED)
        [.sec, .sch, .rf, .rx, .mac, .pair])
      (Act.sequenceStart c t sample) :=
  .read fun _ => by
    split
    · exact .nop
    · extract_lets _ _ _ _ edges
      have sends (f : List Byte) : Within (.events blankRegs [.rf, .rx, .pair]) (edges f) :=
        .all ⟨.sub .txCmd, .sub .txUnit, .sub .txSetState, .setB (has_port RFx_STATUS),
          .when <| .setB (has_port RFx_STATUS), .sub .blankOn⟩
      refine .when <| .ite (.sub .txDrop) <| .ite (.seq (.sat (has_port RFx_DUTY_REFUSED)) <| .sub .txGiveUp) ?_
      split
      · exact .sub (sends _)
      · exact .ite (.beaconFill fun _ => .sub (sends _)) <| .sub (sends _)

/-! ### Programs of Machine/PairOps -/

theorem linkAsk : Within (.quiet [] [.pair]) Act.linkAsk :=
  .read fun _ => by split; exacts [.nop, .seq .units <| .sub .linkSend]

theorem linkTake {lseq k} (hk : Within R k) (hs : (Reach.quiet [] [.pair]).sub R = true := by decide +kernel) :
    Within R (Act.linkTake lseq k) :=
  .read fun _ => .when <| by
    split
    · exact .seq (.sub .units hs) hk
    · exact .ite (.seq (.sub .units hs) hk) <| .sub (.when <| .sub .linkAsk) hs

theorem pairNext {n} : Within (.quiet [] [.pair]) (Act.pairNext n) := .units

theorem aliveHeld : Within (.events [] [.pair]) Act.aliveHeld :=
  .read fun _ => .when <| .ite (.seq (.sub .pairNext) .raise) <| .when <| .sub .pairNext

theorem pairResult {n} : Within (.quiet [(PAIR_CMD_STAT, 1)] []) (Act.pairResult n) := .seq .setF .setB

theorem switchCancel {result} : Within (.quiet [(PAIR_CMD_STAT, 1)] [.pair]) (Act.switchCancel result) :=
  .read fun _ => by split; exacts [.nop, .seq .units <| .when <| .sub .pairResult]

theorem partnerLost : Within (.events partnerLostRegs [.pair]) Act.partnerLost :=
  .read fun _ => .when <| .all ⟨.setB, .sat, .sub .faultClass, .raise, .units, .when <| .seq (.sub .pairNext) <|
    .sub .switchCancel, .sub .aliveHeld⟩

theorem helloSend : Within (.quiet [] [.pair]) Act.helloSend := .read fun _ => .when <| .seq .units <| .sub .linkSend

theorem helloStart : Within (.quiet [] [.pair]) Act.helloStart := .read fun _ => .when <| .sub .helloSend

theorem syncFail : Within (.events [] [.pair]) Act.syncFail := .read fun _ => .seq .units .raise

theorem startSwitch {cause cmd} : Within (.quiet [] [.freeCount, .pair]) (Act.startSwitch cause cmd) :=
  .read fun _ => .when <| .free fun _ => .seq (.sub .linkSend) .units

/-! ### Programs of Machine/Shadow -/

theorem diverge {beat mask} :
    Within (.events [(PAIR_MISMATCH, 1), (PAIR_STATUS, 1)] [.pair]) (Act.diverge beat mask) :=
  .read fun _ => .all ⟨.sat, .raise, .units, .when .setB⟩

theorem digestsAgree : Within (.events [(PAIR_SYNCS, 1)] [.pair]) Act.digestsAgree :=
  .read fun _ => .ite (.seq (.seq (.sub .pairNext) .units) <| .seq .sat .raise) <| .when <| .all ⟨.units, .when <|
    .sub .pairNext, .seq .sat .raise⟩

theorem blockDiffers {t blk} : Within (.events [(FWD_TBLn_SHADOW 0, 4)] [.pair]) (Act.blockDiffers t blk) :=
  .read fun _ => .ite (.sub .linkSend) <| .seq (.sat has_array) .raise

theorem digestCompare {beat} : Within (.events digestRegs [.pair]) (Act.digestCompare beat) :=
  .read fun _ => by
    split
    · exact .all ⟨.units, .each fun _ => .sub .blockDiffers, .ite (.sub .digestsAgree) <| .sub .diverge⟩
    · exact .nop

theorem arbHeld : Within (.quiet [] [.pair]) Act.arbHeld :=
  .read fun _ => by split; exacts [.units, .nop]

theorem arbSend {v} : Within (.quiet [] [.pair]) (Act.arbSend v) :=
  .read fun _ => by split; exacts [.when <| .all ⟨.units, .sub .linkSend, .sub .arbHeld⟩, .nop]

theorem rxIn {x beat} : Within (.quiet [] [.rx, .pair]) (Act.rxIn x beat) := .read fun _ => .seq .units .units

/-! ### Programs of Machine/PairBeat -/

theorem holdRestart : Within (.quiet [(PAIR_STATUS, 1)] [.pair]) Act.holdRestart :=
  .read fun _ => .seq .units <| .read fun _ => .setF

/-! ### Programs of Machine/BootOps -/

theorem bsrShow : Within (.quiet [(BOOT_BSR, 1)] []) Act.bsrShow :=
  .read fun _ => .all ⟨.setF, .setF, .setF, .setF, .setF, .setF, .setB, .setF⟩

theorem bsrWrite {g} : Within (.quiet [(BOOT_BSR, 1)] [.boot]) (Act.bsrWrite g) :=
  .read fun _ => .seq .units <| .sub .bsrShow

theorem flash {g} : Within (.quiet [] [.boot]) (Act.flash g) := .units

/-! ### Programs of Machine/UpdateOps -/

theorem commissionLeave : Within (.quiet [] [.pwr, .boot]) Act.commissionLeave := .read fun _ => .seq .units .units

theorem fuseBlow {row bits blown} : Within (.events fuseBlowRegs [.fuse]) (Act.fuseBlow row bits blown) :=
  .read fun _ => .all ⟨.units, .setF, .sat (by split; exacts [rfl, rfl]), .raise⟩

theorem rollbackTo {target blown} : Within (.events fuseBlowRegs [.fuse]) (Act.rollbackTo target blown) :=
  .read fun _ => .each fun _ => .when <| .sub .fuseBlow

theorem confirmTrial {blown} :
    Within (.events ([(BOOT_BSR, 1), (BOOT_STATUS, 1)] ++ fuseBlowRegs) [.boot, .fuse]) (Act.confirmTrial blown) :=
  .read fun _ => .all ⟨.sub .bsrWrite, .units, .setB, .when <| .sub .rollbackTo, .read fun _ => .raise⟩

theorem updShow {last} : Within (.quiet [(BOOT_UPD_STAT, 1)] []) (Act.updShow last) :=
  .read fun _ => by split; exacts [.all ⟨.setF, .setF, .setF, .setF⟩]

theorem session {x} : Within (.quiet [] [.boot]) (Act.session x) := .units

/-! ### Programs of Machine/Boot -/

theorem cfgHashReq {iface} :
    Within (.events ([(BOOT_CFG_HASH_REQ, 1), (BOOT_CFG_HASHx 0, 8)] ++ accessRegs) [.hif]) (Act.cfgHashReq iface) :=
  .permitted <| .read fun _ => .seq (.each fun _ => .reg has_array) .reg

/-! ### Programs of Machine/Keys -/

theorem slotMeta {n tagOk} :
    Within (.quiet [(SEC_SLOT_META0, 1), (SEC_SLOT_META1, 1), (SEC_SLOT_META2, 1)] []) (Act.slotMeta n tagOk) :=
  .read fun _ => .all ⟨.reg, .reg, .reg⟩

theorem slotQuery {k} (hk : Within R k)
    (hs : (Reach.quiet [(SEC_SLOT_STAT, 1)] []).sub R = true := by decide +kernel) : Within R (Act.slotQuery k) :=
  .read fun _ => .ite (.all ⟨hk, .sub .setF hs, .sub .setB hs⟩) <| .sub (.all ⟨.setB, .setF⟩) hs

theorem slotReadMeta {iface slot} :
    Within (.events (slotReadRegs ++ accessRegs) [.hif]) (Act.slotReadMeta iface slot) :=
  .permitted <| .slotQuery <| .sub .slotMeta

theorem slotVerifyTag {iface slot upset} :
    Within (.events (slotReadRegs ++ fetchRegs ++ accessRegs) [.hif, .sec, .pair])
      (Act.slotVerifyTag iface slot upset) :=
  .permitted <| .slotQuery <| .read fun _ => .seq (.when <| .sub .tear) <| .sub .slotMeta

theorem fuseReadReq {iface value} :
    Within (.events ([(FUSE_READ_DATA, 1), (FUSE_READ_REQ, 1)] ++ accessRegs) [.hif]) (Act.fuseReadReq iface value) :=
  .permitted <| .read fun _ => .seq .reg .reg

theorem fuseProgGuard {iface comp} :
    Within (.events ([(FUSE_STATUS, 1), (HIF_GUARD_REJ, 1)] ++ guardRegs) [.hif, .fuse])
      (Act.fuseProgGuard iface comp) :=
  .reached <| .fuseGuard fun _ => .read fun _ => .ite (.sub .fuseStart) <| .sub .fuseRefuse

/-! ### Programs of Machine/Pair -/

theorem updateFollow : Within (.quiet [] [.boot]) Act.updateFollow :=
  .read fun _ => by split; exacts [.when .units, .nop]

theorem pairCmd {iface allowed go} (hgo : Within R go)
    (hs : (Reach.events (pairCmdRegs ++ accessRegs) [.hif]).sub R = true := by decide +kernel) :
    Within R (Act.pairCmd iface allowed go) :=
  .permitted (.read fun _ => .ite (.sub .sat hs) <| .ite (.seq (.sub .setF hs) hgo) <|
    .sub .setF hs) (Reach.sub_trans hs)

theorem pairSwitch {iface} :
    Within (.events (pairCmdRegs ++ accessRegs) [.freeCount, .hif, .pair]) (Act.pairSwitch iface) :=
  .pairCmd <| .read fun _ => .ite .setF <| .seq .setB <| .sub .startSwitch

theorem pairResync {iface} : Within (.events (pairCmdRegs ++ accessRegs) [.hif, .pair]) (Act.pairResync iface) :=
  .pairCmd <| .read fun _ => .seq .units <| .ite (.sub .pairNext) <| .sub .helloStart

theorem pairHoldReclaim {iface} :
    Within (.events ([(PAIR_CMD_REFUSED, 1), (PAIR_CMD_STAT, 1), (PAIR_STATUS, 1)] ++ accessRegs) [.hif, .pair])
      (Act.pairHoldReclaim iface) :=
  .pairCmd <| .sub .holdRestart

theorem pairDetach {iface} : Within (.events (pairCmdRegs ++ accessRegs) [.hif, .pair]) (Act.pairDetach iface) :=
  .pairCmd <| .read fun _ => .ite (.seq .units <| .sub .pairNext) <| .ite (.seq .units <| .sub .pairNext) .units

theorem pairRoleOvr {iface comp} :
    Within (.events ([(HIF_GUARD_REJ, 1), (PAIR_STATUS, 1)] ++ guardRegs) [.hif, .pair])
      (Act.pairRoleOvr iface comp) :=
  .reached <| .guardComplement fun _ => .read fun _ => .seq .units .setB

theorem pairDigReq {iface value} :
    Within (.events (digestReadRegs ++ accessRegs) [.hif]) (Act.pairDigReq iface value) :=
  .permitted <| .read fun _ => by
    split
    · exact .reg
    · exact .all ⟨.reg, .each fun _ => .seq (.reg has_array) <| .reg has_array, .reg⟩

/-! ### Programs of Machine/PowerOps -/

theorem slotStat : Within (.quiet [(PWR_REQ_STAT, 1)] []) Act.slotStat :=
  .read fun _ => by split; exacts [.all ⟨.setB, .setF, .setF⟩, .all ⟨.setB, .setF, .setF⟩]

theorem pwrRefuse {r why} :
    Within (.events [(PWR_LAST_REFUSAL, 1), (PWR_REFr 0, 7), (PWR_REQ_STAT, 1)] []) (Act.pwrRefuse r why) :=
  .read fun _ => .all ⟨.setF, .setF, .sat has_array, .setF, .setF, .setF, .setF, .raise⟩

theorem pwrStage {r} : Within (.quiet [(PWR_REQ_STAT, 1)] [.pwr]) (Act.pwrStage r) :=
  .all ⟨.units, .setB, by
    split
    · exact .units
    · exact .units
    · exact .units
    · exact .units
    · exact .nop⟩

theorem powerSlotTake :
    Within (.events [(PWR_LAST_REFUSAL, 1), (PWR_REFr 0, 7), (PWR_REQ_STAT, 1)] [.pwr]) Act.powerSlotTake :=
  .read fun _ => by
    split
    · exact .nop
    · exact .when <| .all ⟨.units, .sub .slotStat, by split; exacts [.sub .pwrRefuse, .ite .setF <| .sub .pwrStage]⟩

theorem pwrRequest {r} : Within (.events requestRegs [.pwr]) (Act.pwrRequest r) :=
  .read fun _ => .all ⟨by split; exacts [.nop, .all ⟨.sat, .raise, .setF⟩], .units, .sub .slotStat, .when <|
    .sub .powerSlotTake⟩

theorem pwrEnd {result} : Within (.quiet [(PWR_REQ_STAT, 1)] [.pwr]) (Act.pwrEnd result) :=
  .all ⟨.units, .setB, .setF⟩

theorem mainsRequest {op} : Within (.events requestRegs [.pwr]) (Act.mainsRequest op) :=
  .read fun _ => .when <| .sub .pwrRequest

/-! ### Programs of Machine/Receive -/

theorem captureDecide {n} : Within (.events receiveRegs [.rx, .pair]) (Act.captureDecide n) :=
  .read fun _ => by split; exacts [.when <| .seq (.sub .endP) <| .sub .decoder, .nop]

theorem ctx {n watch f} : Within (.quiet [] [.rx]) (Act.ctx n watch f) := .sub .decoder

theorem endOne {n watch st} : Within (.events receiveRegs [.rx, .pair]) (Act.endOne n watch st) :=
  .ite (.sub .endW) <| .sub .endP

theorem openFrame {n blk} :
    Within (.quiet [(RXD_CHn_HDR_OK 0, 80), (RXD_CHn_STAT 0, 80)] [.rx]) (Act.openFrame n blk) :=
  .read fun _ => by split; exacts [.nop, .all ⟨.units, .sub .decoder, .wrap has_array, .setF has_array, .sub .chStat⟩]

/-! ### Programs of Machine/Time -/

theorem tkStepGo {src value} : Within (.events (stepRegs ++ accessRegs) [.tk, .hif]) (Act.tkStepGo src value) :=
  .written <| .when <| .sub .stepGo

theorem tkRearm {iface comp} :
    Within (.events ([(HIF_GUARD_REJ, 1), (TK_STATUS, 1)] ++ guardRegs) [.hif]) (Act.tkRearm iface comp) :=
  .reached <| .guardComplement fun _ => .setB

theorem tkIncrWrite {src value edges} :
    Within (.events (incrementRegs ++ accessRegs) [.tk, .hif]) (Act.tkIncrWrite src value edges) :=
  .written <| .seq (.sub .timePasses) <| .sub .incApply

theorem tkCapReq {iface value} :
    Within (.events (captureRegs ++ accessRegs) [.tk, .hif]) (Act.tkCapReq iface value) :=
  .permitted <| .read fun _ => .seq (by
    split
    · exact .all ⟨.reg, .reg, .reg⟩
    · exact .all ⟨.reg, .reg, .reg⟩
    · exact .all ⟨.all ⟨.reg, .reg, .reg⟩, .units, .sub .tsiFollow⟩) .reg

theorem tkTimeReq {iface edges} : Within (.events (timeRegs ++ accessRegs) [.tk, .hif]) (Act.tkTimeReq iface edges) :=
  .permitted <| .seq (.sub .timePasses) <| .read fun _ => .all ⟨.reg, .reg, .reg, .reg, .reg⟩

/-! ### Programs of Machine/HostOps -/

theorem guardBreak {x} (hx : R.has (x + 8) = true := by rfl)
    (hs : (Reach.events [(HIF_GUARD_REJ, 1)] [.hif]).sub R = true := by decide +kernel) :
    Within R (Act.guardBreak x) :=
  .read fun _ => .when <| .seq (.disarm hx hs) <| .guardReject hx hs

theorem msixUnmask {v} : Within (.quiet [((MSIX_PENDING 0).reg, 4), (EVT_MSIX_SENT, 1)] [.evt]) (Act.msixUnmask v) :=
  .read fun _ => .when <| .seq (.setF has_array) <| .sub .msixSend

theorem evtConsume {i r w} : Within (.events ([(EVT_RINGr_CONS 0, 4)] ++ accessRegs) [.hif]) (Act.evtConsume i r w) :=
  .read fun _ => .ite .accessError <| .seq (.setF has_array) .evtStatus

theorem journalReq : Within (.quiet [(HIF_JRN_NEXT, 1), (HIF_JRN_OLDEST, 1), (HIF_JRN_REQ, 1)] []) Act.journalReq :=
  .read fun _ => .all ⟨.reg, .reg, .reg⟩

theorem beatReq : Within (.quiet beatRegs []) Act.beatReq :=
  .read fun _ => .all ⟨.reg, .reg, .reg, .reg, .reg⟩

theorem barErrors {corrected bad} :
    Within (.events [(ENV_ECC_CORR, 1), (ENV_ECC_UNC, 1)] [.env, .pair]) (Act.barErrors corrected bad) :=
  .read fun _ => .seq (.seq .satBy <| .when <| .sub .faultClass) <| .each fun _ => .all ⟨.sat, .raise,
    .sub .healthFault, .when .units⟩

/-! ### Programs of Machine/System -/

theorem linkShow {up speed width} : Within (.events [(HIF_STATUS, 1)] []) (Act.linkShow up speed width) :=
  .read fun _ => .when <| .all ⟨.setF, .setF, .setF, .raise⟩

theorem tmrReload : Within (.events [(BT_STATUS, 1), (BT_TMR_FIX, 1), (PAIR_TMR_FIX, 1)] [.pair]) Act.tmrReload :=
  .read fun _ => by
    split
    · exact .nop
    · exact .seq .units <| .ite (.all ⟨.setB, .sat, .units, .raise⟩) <| .all ⟨.sat, .units, .raise⟩

/-! ### Programs of Machine/Mac -/

theorem listenSet {nsa g} : Within (.quiet [] [.mac]) (Act.listenSet nsa g) := .units

/-! ### Programs of Machine/Host -/

theorem spi {a} (ha : Within R a) (hs : (Reach.quiet [(HIF_STATUS, 1)] [.hif]).sub R = true := by decide +kernel) :
    Within R (Act.spi a) :=
  .reached <| .all ⟨.sub (R := .quiet [(HIF_STATUS, 1)] [.hif]) .units hs, .sub .setB hs, ha, .sub .setB hs⟩

end Act.Within

/-! ### Frames of commands -/

/-- A command's meaning is a program within a reach, in every state. -/
def Runs (R : Reach) (c : Instr) : Prop := ∀ s, ∃ a, exec c s = .next (a.run s) ∧ Act.Within R a

/-- The result word of a guarded register. -/
theorem has_guard {R : Reach} {g : GuardReg} (h : Reach.covers R.spans guardRegs = true := by decide +kernel) :
    R.has (guardAddr g + 8) = true :=
  Reach.has_of_covers (by cases g <;> rfl) h (by decide +kernel)

namespace Runs

theorem mono {R R' : Reach} {c : Instr} (h : Runs R c) (hs : R.sub R' = true := by decide +kernel) : Runs R' c :=
  fun s => by
    obtain ⟨a, he, ha⟩ := h s
    exact ⟨a, he, ha.sub hs⟩

/-- The frame of a command that raises nothing. -/
theorem quiet {R : Reach} {c : Instr} (h : Runs R c) {l : List (Nat × Nat)} (s : State)
    (hr : R.raises = false := by rfl) (hl : Reach.covers l R.spans = true := by decide +kernel) :
    Completes c s fun t => KeepsQuiet l s t ∧ t.u = Units.only R.units s.u t.u := by
  obtain ⟨a, he, ha⟩ := h s
  refine ⟨_, he, ⟨fun x hx => (ha.fits s).reg x ?_, ha.mem hr s⟩, Units.keeps_iff.1 (ha.fits s).units⟩
  exact Bool.eq_false_iff.2 fun hb => by
    rw [Reach.inSpans_of_covers hl (Bool.and_eq_true_iff.1 hb).1] at hx
    contradiction

/-- The frame of a command that may raise events. -/
theorem events {R : Reach} {c : Instr} (h : Runs R c) {l : List (Nat × Nat)} (s : State)
    (hl : Reach.covers (l ++ eventRegs) R.spans = true := by decide +kernel) :
    Completes c s fun t => KeepsEvents l s t ∧ t.u = Units.only R.units s.u t.u := by
  obtain ⟨a, he, ha⟩ := h s
  refine ⟨_, he, ⟨fun x hx => (ha.fits s).reg x ?_, fun x hx => (ha.fits s).byte x ?_⟩,
    Units.keeps_iff.1 (ha.fits s).units⟩
  · exact Bool.eq_false_iff.2 fun hb => by
      rw [Reach.inSpans_of_covers hl (Bool.and_eq_true_iff.1 hb).1] at hx
      contradiction
  · simp [Reach.foot, hx]

open Reach (has_array has_port has_port_array)

/-! #### The commands of FrameQuietA -/

theorem planWindowClose : Runs (.quiet [(BT_STATUS, 1)] [.sch]) .planWindowClose :=
  fun _ => ⟨_, rfl, .when <| .seq .setF <| .sub .planGather⟩

theorem bindLine : Runs (.quiet [(BT_STATUS, 1)] []) .bindLine := fun _ => ⟨_, rfl, .when .setB⟩

theorem dozeEnginesReturn : Runs (.quiet [(BT_ENG_STATE, 1)] [.bt]) .dozeEnginesReturn :=
  fun _ => ⟨_, rfl, .when <| .all ⟨.units, .each fun _ => .read fun _ => .when <| .seq (.sub .engine) <| .when .setF,
    .sub .rolesFollow⟩⟩

theorem ldpcRedecode {pe thread frame codeword limit out} :
    Runs (.quiet [(BT_PEn_STAT 0, 16), (BT_PEn_TAGSTALL 0, 16), (RXD_STATUS, 1)] [.bt, .accel, .rx])
      (.ldpcRedecode pe thread frame codeword limit out) :=
  fun _ => ⟨_, rfl, .read fun _ => by
    split
    · exact .issueNow fun _ h => h _ _ _
    · exact .ite (.issueNow fun _ h => h _ _ _) <| .issueWith fun _ => .read fun _ => .all ⟨.units, .units,
      .sub .poolStat⟩⟩

theorem ccmSeal {pe thread key addr len out} :
    Runs (.quiet issueRegs [.bt, .accel]) (.ccmSeal pe thread key addr len out) :=
  fun _ => ⟨_, rfl, .sub .issue⟩

theorem ccmOpen {pe thread key addr len out} :
    Runs (.quiet issueRegs [.bt, .accel]) (.ccmOpen pe thread key addr len out) :=
  fun _ => ⟨_, rfl, .sub .issue⟩

theorem kdfDerive {pe thread slot label} : Runs (.quiet issueRegs [.bt, .accel]) (.kdfDerive pe thread slot label) :=
  fun _ => ⟨_, rfl, .sub .issue⟩

theorem cmacCompute {pe thread slot addr len out} :
    Runs (.quiet issueRegs [.bt, .accel]) (.cmacCompute pe thread slot addr len out) :=
  fun _ => ⟨_, rfl, .sub .issue⟩

theorem sha256Block {pe thread state block out} :
    Runs (.quiet issueRegs [.bt, .accel]) (.sha256Block pe thread state block out) :=
  fun _ => ⟨_, rfl, .sub .issue⟩

theorem ecdsaVerify {pe thread key sig hash} :
    Runs (.quiet issueRegs [.bt, .accel]) (.ecdsaVerify pe thread key sig hash) :=
  fun _ => ⟨_, rfl, .sub .issue⟩

theorem routeWalk {pe thread final out} : Runs (.quiet issueRegs [.bt, .accel]) (.routeWalk pe thread final out) :=
  fun _ => ⟨_, rfl, .sub .issue⟩

theorem placementRequest {pe thread queue start decoder cls length} :
    Runs (.quiet issueRegs [.bt, .accel]) (.placementRequest pe thread queue start decoder cls length) :=
  fun _ => ⟨_, rfl, .sub .issue⟩

theorem planQuery {pe thread out} : Runs (.quiet issueRegs [.bt, .accel]) (.planQuery pe thread out) :=
  fun _ => ⟨_, rfl, .sub .issue⟩

theorem envelopeCopy {pe thread src dst len} :
    Runs (.quiet issueRegs [.bt, .accel]) (.envelopeCopy pe thread src dst len) :=
  fun _ => ⟨_, rfl, .sub .issue⟩

theorem completionTake {pe slot} : Runs (.quiet [(BT_PEn_STAT 0, 16)] [.bt]) (.completionTake pe slot) :=
  fun _ => ⟨_, rfl, .read fun _ => .when <| .seq (.sub .engine) <| .sub .engineStat⟩

theorem vddEngSettled : Runs (.quiet [] [.pwr]) .vddEngSettled := fun _ => ⟨_, rfl, .units⟩

theorem txLockConfirmed {chain us} :
    Runs (.quiet (chainRegs ++ ports RFx_TX_CAL) [.rf]) (.txLockConfirmed chain us) :=
  fun _ => ⟨_, rfl, .when <| .all ⟨.sub .txUnit, .setF (has_port_array RFx_TXn_STAT), .sub .txSetState,
    .sub .txProceed, .sub .txRetune⟩⟩

theorem ccaStart {chain} :
    Runs (.quiet (ports RFx_CCA_RESTART ++ portArrays RFx_TXn_STAT 2) [.sch, .rf, .mac]) (.ccaStart chain) :=
  fun _ => ⟨_, rfl, .seq (.sub .txTake) <| .read fun _ => by split; exacts [.nop, .when <| .sub .ccaBegin]⟩

theorem backoffExpiry {chain} :
    Runs (.quiet (ports RFx_CCA_RESTART ++ portArrays RFx_TXn_STAT 2) [.rf]) (.backoffExpiry chain) :=
  fun _ => ⟨_, rfl, by split; exacts [.nop, .when <| .sub .ccaBegin]⟩

theorem txPaEnable {chain} : Runs (.quiet [] [.rf]) (.txPaEnable chain) :=
  fun _ => ⟨_, rfl, by split; exacts [.nop, .when <| .seq (.sub .txCmd) <| .sub .txUnit]⟩

theorem txRampUpStart {chain off} : Runs (.quiet [] [.rf]) (.txRampUpStart chain off) :=
  fun _ => ⟨_, rfl, by split; exacts [.nop, .when <| .sub .txCmd]⟩

theorem txPaDisable {chain} : Runs (.quiet (chainRegs ++ ports RFx_TX_CAL) [.rf]) (.txPaDisable chain) :=
  fun _ => ⟨_, rfl, by
    split
    · exact .nop
    · exact .when <| .all ⟨.sub .txCmd, .sub .txUnit, .ite (.sub .txSetState) <| .ite (.sub .txCalStart) <|
      .sub .txSetState, .when <| by split; exacts [.nop, .when <| .sub .txCalStart]⟩⟩

theorem txTrReturn {chain} : Runs (.quiet (chainRegs ++ ports RFx_TX_CAL) [.rf]) (.txTrReturn chain) :=
  fun _ => ⟨_, rfl, by
    split
    · exact .nop
    · exact .when <| .all ⟨.when <| .seq (.setB (has_port RFx_STATUS)) <| .setB (has_port RFx_STATUS), .when <|
      .sub .rfUnit, .sub .txDrop, .sub .txRetune⟩⟩

theorem cxRequestRaise {chain ack} : Runs (.quiet (ports RFx_STATUS) [.sch, .rf, .mac]) (.cxRequestRaise chain ack) :=
  fun _ => ⟨_, rfl, .when <| .ite (.seq (.sub .txUnit) <| .sub .cxFollow) <| .all ⟨.sub .txTake, .sub .txCmd,
    .sub .cxFollow⟩⟩

theorem cxRelease {port} : Runs (.quiet (ports RFx_STATUS) [.rf]) (.cxRelease port) :=
  fun _ => ⟨_, rfl, .when <| .seq (.sub .rfUnit) <| .sub .cxFollow⟩

theorem gainStepEffective {port} :
    Runs (.quiet (ports RFx_STATUS ++ ports RXD_AGCx_STAT) [.rx]) (.gainStepEffective port) :=
  fun _ => ⟨_, rfl, by
    split
    · exact .nop
    · exact .all ⟨.setF (has_port RXD_AGCx_STAT), .sub .agc, .sub .agcStat, .when <| .setB (has_port RFx_STATUS)⟩⟩

theorem preambleDetect {decoder found} :
    Runs (.quiet [(RXD_CHn_DET 0, 80), (RXD_CHn_STAT 0, 80)] [.rx]) (.preambleDetect decoder found) :=
  fun _ => ⟨_, rfl, .when <| .all ⟨.sub .decoder, .wrap has_array, .sub .chStat⟩⟩

theorem codewordEnd {decoder soft} : Runs (.quiet [(RXD_STATUS, 1)] [.rx]) (.codewordEnd decoder soft) :=
  fun _ => ⟨_, rfl, by
    dsimp only
    split
    · exact .nop
    · split
      · exact .nop
      · exact .when <| .all ⟨.sub .rxFrame, .units, .sub .poolStat⟩⟩

theorem ldpcDispatch : Runs (.quiet [(RXD_STATUS, 1)] [.rx]) .ldpcDispatch :=
  fun _ => ⟨_, rfl, by split; exacts [.seq .units <| .sub .poolStat, .nop]⟩

theorem macFrameReceived : Runs (.quiet [(MAC_DROPr 0, 1), (MAC_DROPr 0, 16)] [.rx, .mac]) .macFrameReceived :=
  fun _ => ⟨_, rfl, by
    split
    · exact .nop
    · exact .seq .units <| .when <| .ite .sat <| by split; exacts [.sat has_array, .units]⟩

theorem listenWindowClose {node off} : Runs (.quiet [(MAC_LISTEN_MISS, 1)] [.mac]) (.listenWindowClose node off) :=
  fun _ => ⟨_, rfl, by split; exacts [.nop, .when <| .seq .satBy <| .sub .listenSet]⟩

theorem fwdOpComplete : Runs (.quiet [(FWD_CMD_STAT, 1), (FWD_RESx 0, 4)] [.fwd]) .fwdOpComplete :=
  fun _ => ⟨_, rfl, by
    split
    · exact .nop
    · exact .all ⟨.each fun _ => .reg has_array, .setF, .setF, .setF, .setB, .setB, .units⟩⟩

theorem ageingDeletePhase :
    Runs
      (.quiet [(FWD_STATUS, 1), (FWD_TBLn_AGED 0, 4), (FWD_TBLn_CAD_LOST 0, 4), (FWD_TBLn_COUNT 0, 4)] [.fwd, .pair])
      .ageingDeletePhase :=
  fun _ => ⟨_, rfl, .all ⟨.each fun _ => .tableDelete fun _ _ _ _ => .ite (.seq (.wrap has_array) <|
    .seq (.sub .recordInput) .units) <| .wrap has_array, .units, .setB⟩⟩

theorem blockResyncApply : Runs (.quiet [(FWD_STATUS, 1), (FWD_TBLn_COUNT 0, 4)] [.fwd]) .blockResyncApply :=
  fun _ => ⟨_, rfl, .all ⟨.each fun _ => .seq (.each fun _ => .sub .entry) <| .sub .tableCount, .units, .setB⟩⟩

theorem envQcmdComplete : Runs (.quiet [(ENV_QCMD_STAT, 1), (ENV_QRESx 0, 8)] [.env]) .envQcmdComplete :=
  fun _ => ⟨_, rfl, by split; exacts [.nop, .all ⟨.each fun _ => .reg has_array, .setF, .setB, .setB, .units⟩]⟩

theorem uplinkSelect {port} : Runs (.quiet [(SCH_ULk_SENT 0, 16)] [.sch, .eth, .pair]) (.uplinkSelect port) :=
  fun _ => ⟨_, rfl, .when <| by
    split
    · exact .nop
    · split
      · exact .sub .uplinkTake
      · exact .nop⟩

/-! #### The commands of FrameQuietB -/

theorem shaperTick : Runs (.quiet [] [.sch]) .shaperTick := fun _ => ⟨_, rfl, .when <| .sub .creditTicks⟩

theorem tamperPinEdge {pin high} : Runs (.quiet [(SEC_TAMPER_STAT, 1)] [.pins, .sec]) (.tamperPinEdge pin high) :=
  fun _ => ⟨_, rfl, .read fun _ => .ite (.all ⟨.units, .setB, .units⟩) <| .all ⟨.units, .setB, .units⟩⟩

theorem ppsFall : Runs (.quiet [] [.tk]) .ppsFall := fun _ => ⟨_, rfl, .units⟩

theorem beatOutFall : Runs (.quiet [] [.tk]) .beatOutFall := fun _ => ⟨_, rfl, .units⟩

theorem ethAutodetectSwitch {port} : Runs (.quiet [] [.eth]) (.ethAutodetectSwitch port) :=
  fun _ => ⟨_, rfl, .when <| .sub .ethUnit⟩

theorem ethPauseExpiry {port} : Runs (.quiet [(ETH_STATUS, 1)] []) (.ethPauseExpiry port) := fun _ => ⟨_, rfl, .setB⟩

theorem pauseRefresh {port} : Runs (.quiet [] [.eth]) (.pauseRefresh port) :=
  fun _ => ⟨_, rfl, .when <| .sub .ethUnit⟩

theorem naAnnounce {port} : Runs (.quiet [] [.eth]) (.naAnnounce port) := fun _ => ⟨_, rfl, .when <| .sub .ethUnit⟩

theorem tetherSend : Runs (.quiet [] [.pair]) .tetherSend := fun _ => ⟨_, rfl, .when <| .sub .linkSend⟩

theorem tetherReceived {lseq t} :
    Runs (.quiet [(PAIR_SCORE, 1), (PAIR_STATUS, 1)] [.boot, .pair]) (.tetherReceived lseq t) :=
  fun _ => ⟨_, rfl, .when <| .all ⟨.linkTake .nop, .units, .setB, .setF, .sub .helloStart, .sub .updateFollow⟩⟩

theorem tetherMiss : Runs (.quiet [(PAIR_TETHER_MISS, 1)] []) .tetherMiss := fun _ => ⟨_, rfl, .when .wrap⟩

theorem aliveWatchdogExpiry : Runs (.quiet [(PAIR_STATUS, 1)] []) .aliveWatchdogExpiry :=
  fun _ => ⟨_, rfl, .sub .aliveRelease⟩

theorem startClaim : Runs (.quiet [(PAIR_STATUS, 1)] [.pair]) .startClaim :=
  fun _ => ⟨_, rfl, .when <| .seq .setB <| .sub .pairNext⟩

theorem sealWaitExpiry : Runs (.quiet [] [.pair]) .sealWaitExpiry := fun _ => ⟨_, rfl, .when <| .sub .pairNext⟩

theorem resendReceived {lseq wanted} : Runs (.quiet [(PAIR_RESENDS, 1)] [.pair]) (.resendReceived lseq wanted) :=
  fun _ => ⟨_, rfl, .linkTake <| .read fun _ => .wrapBy⟩

theorem diversityReceived {lseq x} :
    Runs (.quiet [(PAIR_DIV_DUP, 1), (PAIR_DIV_IN, 1)] [.rx, .pair]) (.diversityReceived lseq x) :=
  fun _ => ⟨_, rfl, .linkTake <| .read fun _ => .when <| .ite .wrap <| .all ⟨.sub .recordInput, .wrap, .sub .rxIn⟩⟩

theorem llrReceived {lseq decoder codeword stopNs llrs} (h : llrsOk llrs = true) :
    Runs (.quiet [(RXD_STATUS, 1)] [.rx, .pair]) (.llrReceived lseq decoder codeword stopNs llrs) :=
  fun _ => ⟨_, if_pos h, .linkTake <| .read fun _ => by
    dsimp only
    split
    · exact .nop
    · split
      · exact .nop
      · exact .when <| .seq (.sub .rxFrame) <| .seq .units <| .sub .poolStat⟩

theorem timeFrameReceived {lseq sent echo edges} :
    Runs (.quiet [(TK_STATUS, 1)] [.freeCount, .tk, .pair]) (.timeFrameReceived lseq sent echo edges) :=
  fun _ => ⟨_, rfl, .linkTake <| .read fun _ => .seq (.when <| .sub .timePasses) <| .read fun _ => .all ⟨.units,
    .ite (.all ⟨.setB, .setB, .units⟩) <| .when <| .free fun _ => .units⟩⟩

theorem switchAckTimeout : Runs (.quiet [(PAIR_CMD_STAT, 1)] [.pair]) .switchAckTimeout :=
  fun _ => ⟨_, rfl, by split; exacts [.nop, .when <| .sub .switchCancel]⟩

theorem arbReceived {lseq verdict score} : Runs (.quiet [] [.pair]) (.arbReceived lseq verdict score) :=
  fun _ => ⟨_, rfl, .linkTake <| .read fun _ => by split; exacts [.nop, .seq .units <| .sub .arbHeld]⟩

theorem yieldReceived {lseq} : Runs (.quiet [] [.pair]) (.yieldReceived lseq) := fun _ => ⟨_, rfl, .linkTake .units⟩

theorem blockFrameReceived {lseq table block entries} (h : blockOk entries = true) :
    Runs (.quiet [(FWD_STATUS, 1)] [.fwd, .pair]) (.blockFrameReceived lseq table block entries) :=
  fun _ => ⟨_, if_pos h, .linkTake <| .read fun _ => .when <| .seq .units .setB⟩

theorem reexecutionDone {consistent} : Runs (.quiet [] [.pair]) (.reexecutionDone consistent) :=
  fun _ => ⟨_, rfl, by split; exacts [.nop, .when <| .sub .arbSend]⟩

theorem reexecutionDeadline : Runs (.quiet [] [.pair]) .reexecutionDeadline :=
  fun _ => ⟨_, rfl, by split; exacts [.nop, .when <| .sub .arbSend]⟩

theorem syncRetryExpiry : Runs (.quiet [] [.pair]) .syncRetryExpiry :=
  fun _ => ⟨_, rfl, .when <| .seq .units <| .when <| .sub .helloSend⟩

theorem reclaimHoldExpiry : Runs (.quiet [] [.freeCount, .pair]) .reclaimHoldExpiry :=
  fun _ => ⟨_, rfl, .when <| .seq .units <| .sub .startSwitch⟩

theorem mainsSenseEdge {high} : Runs (.quiet [] [.pins]) (.mainsSenseEdge high) := fun _ => ⟨_, rfl, .units⟩

theorem sniffCycleStart : Runs (.quiet [] [.pwr]) .sniffCycleStart := fun _ => ⟨_, rfl, .read fun _ => .when .units⟩

theorem commissionWaitExpiry : Runs (.quiet [] [.pwr, .boot]) .commissionWaitExpiry :=
  fun _ => ⟨_, rfl, .read fun _ => .when <| .sub .commissionLeave⟩

theorem enrolRetryExpiry {record node} : Runs (.quiet [] [.img]) (.enrolRetryExpiry record node) :=
  fun _ => ⟨_, rfl, by
    dsimp only
    split
    · exact .nop
    · exact .when <| .sub .runSet⟩

theorem spiStatus : Runs (.quiet [] [.hif]) .spiStatus := fun _ => ⟨_, rfl, .reached <| .read fun _ => .units⟩

theorem spiId : Runs (.quiet [] [.hif]) .spiId := fun _ => ⟨_, rfl, .reached <| .read fun _ => .units⟩

theorem msixModerationExpiry {vector} :
    Runs (.quiet [((MSIX_PENDING 0).reg, 4), (EVT_MSIX_SENT, 1)] [.evt]) (.msixModerationExpiry vector) :=
  fun _ => ⟨_, rfl, .read fun _ => by split; exacts [.nop, .seq .units <| .when <| .sub .msixRequest]⟩

theorem gtTimerExpiry {gt} : Runs (.quiet [] [.bt, .pair]) (.gtTimerExpiry gt) :=
  fun _ => ⟨_, rfl, .when <| .seq .units <| .sub .recordInput⟩

theorem linkFrameCrcFail : Runs (.quiet [(PAIR_LINK_CRC, 1)] [.pair]) .linkFrameCrcFail :=
  fun _ => ⟨_, rfl, .when <| .all ⟨.sat, .sub .faultClass, .sub .linkAsk⟩⟩

theorem switchoverAliveClaim : Runs (.quiet [(PAIR_STATUS, 1)] []) .switchoverAliveClaim :=
  fun _ => ⟨_, rfl, .when .setB⟩

/-! #### The commands of FrameEventsA -/

theorem perstNEdge {high} : Runs (.events [(HIF_STATUS, 1)] [.pins, .hif]) (.perstNEdge high) :=
  fun _ => ⟨_, rfl, .seq .units <| .when <| .all ⟨.sub .linkShow, .setB, .units⟩⟩

theorem pcieLinkChange {link} :
    Runs (.events [((MSIX_PENDING 0).reg, 4), (EVT_MSIX_SENT, 1), (HIF_STATUS, 1)] [.hif]) (.pcieLinkChange link) :=
  fun _ => ⟨_, rfl, by
    split
    · exact .sub .linkShow
    · exact .when <| .all ⟨.sub .linkShow, .setB, .units, .each fun _ => .sub .msixUnmask⟩⟩

theorem tmrCopyReload : Runs (.events [(BT_STATUS, 1), (BT_TMR_FIX, 1), (PAIR_TMR_FIX, 1)] [.pair]) .tmrCopyReload :=
  fun _ => ⟨_, rfl, .sub .tmrReload⟩

theorem engineSramError {pe uncorrectable} :
    Runs (.events ([(BT_ENG_STATE, 1), (BT_SRAM_CORR, 1)] ++ lateRegs) [.accel, .rx, .pair])
      (.engineSramError pe uncorrectable) :=
  fun _ => ⟨_, rfl, .when <| .ite (.when <| .sub .engineFault) <| .seq .sat .units⟩

theorem engineRestored {pe} : Runs (.events [(BT_ENG_STATE, 1)] []) (.engineRestored pe) :=
  fun _ => ⟨_, rfl, .when <| .sub .engineBack⟩

theorem cipherDispatch {upset} :
    Runs (.events ([(BT_PEn_STAT 0, 16), (SEC_INVALID_KEY, 1)] ++ deriveRegs) [.accel, .sec, .pair])
      (.cipherDispatch upset) :=
  fun _ => ⟨_, rfl, .read fun _ => by split; exacts [.sub .coreStart, .nop]⟩

theorem beatSnapshotReq {iface} : Runs (.events (beatRegs ++ accessRegs) [.hif]) (.beatSnapshotReq iface) :=
  fun _ => ⟨_, rfl, .permitted <| .sub .beatReq⟩

theorem vsettleTimeout : Runs (.events [(PWR_LEVEL_FAIL, 1)] [.pwr]) .vsettleTimeout :=
  fun _ => ⟨_, rfl, .read fun _ => by split; exacts [.nop, .when <| .all ⟨.units, .sat, .raise⟩]⟩

theorem levelChangeDone :
    Runs
      (.events [(BT_PEn_STAT 0, 16), (BT_STATUS, 1), (PWR_LEVEL_CHANGES, 1), (PWR_REQ_STAT, 1), (PWR_STATUS, 1)] [.pwr])
      .levelChangeDone :=
  fun _ => ⟨_, rfl, .read fun _ => by
    split
    · exact .nop
    · exact .when <| .all ⟨.units, .setB, .setF, .setF, .when <| .all ⟨.units, .wrap, .raise⟩, .when <| .sub .pwrEnd,
      .sub .releaseHeld⟩⟩

theorem rxRecalRequest {iface port value} :
    Runs
      (.events ([(RXD_CHn_STAT 0, 80), (RXD_STATUS, 1)] ++ accessRegs ++ ports RFx_RXCAL_REFUSED ++ ports RFx_STATUS)
        [.hif, .rf])
      (.rxRecalRequest iface port value) :=
  fun _ => ⟨_, rfl, .permitted <| .sub .rxcalWrite⟩

theorem rxRecalStart {port off sample} :
    Runs (.events ((MAC_ACK_DROP, 1) :: blankRegs) [.sch, .rf, .rx, .mac, .pair]) (.rxRecalStart port off sample) :=
  fun _ => ⟨_, rfl, by split; exacts [.nop, .when <| .sub .recalStart]⟩

theorem rxRecalDone {port off sample locked steps us} :
    Runs (.events (announceRegs ++ chainRegs ++ ports RFx_BLANK_US ++ portArrays RXD_STEPTAB_xi 16) [.rf, .rx, .pair])
      (.rxRecalDone port off sample locked steps us) :=
  fun _ => ⟨_, rfl, by
    dsimp only
    split
    · exact .nop
    · exact .when <| .ite (.all ⟨.each fun _ => .reg (has_port_array RXD_STEPTAB_xi), .sub .agcStat,
      .setB (has_port RFx_STATUS), .setB (has_port RFx_STATUS), .sub .rfUnit, .sub .rxRunning, .raise, .when <|
      .sub .blankOff⟩) <| .all ⟨.sub .rfUnit, .when <| .setB (has_port RFx_STATUS)⟩⟩

theorem rxSynthUnlock {port off sample} :
    Runs (.events ((MAC_ACK_DROP, 1) :: blankRegs) [.sch, .rf, .rx, .mac, .pair]) (.rxSynthUnlock port off sample) :=
  fun _ => ⟨_, rfl, .when <| .all ⟨.raise, .sub .faultClass, .sub .rfUnit, .sub .recalStart⟩⟩

theorem txHoldDecision {chain off} :
    Runs (.events ([(MAC_ACK_DROP, 1)] ++ chainRegs ++ ports RFx_LATE_SYNTH) [.sch, .rf, .mac, .pair])
      (.txHoldDecision chain off) :=
  fun _ => ⟨_, rfl, by
    split
    · exact .nop
    · exact .when <| .all ⟨.sat (has_port RFx_LATE_SYNTH), .sub .rfEvent, .sub .txGiveUp⟩⟩

theorem txSequenceStart {chain ack off sample} :
    Runs
      (.events ([(MAC_ACK_DROP, 1), (TK_BCN_INSERT, 1)] ++ blankRegs ++ deriveRegs ++ ports RFx_DUTY_REFUSED)
        [.sec, .sch, .rf, .rx, .mac, .pair])
      (.txSequenceStart chain ack off sample) :=
  fun _ => ⟨_, rfl, .all ⟨.sub .txTake, .read fun _ => by
    split
    · exact .nop
    · exact .when <| .all ⟨.sub .txCmd, .sub .txProceed, .sub .txHolding⟩, .sub .sequenceStart⟩⟩

theorem txRampDownEnd {chain off} : Runs (.events dutyRegs [.rf]) (.txRampDownEnd chain off) :=
  fun _ => ⟨_, rfl, by
    split
    · exact .nop
    · exact .when <| .seq (.sub .txCmd) <| by split; exacts [.nop, .sub .dutyAdd]⟩

theorem txBlankEnd {port off sample} :
    Runs (.events (announceRegs ++ chainRegs ++ ports RFx_BLANK_US) [.rf, .rx, .pair])
      (.txBlankEnd port off sample) :=
  fun _ => ⟨_, rfl, .when <| .sub .blankOff⟩

theorem cxGrantSample {chain granted} :
    Runs (.events ([(MAC_ACK_DROP, 1)] ++ chainRegs ++ ports RFx_CX_DENIED) [.sch, .rf, .mac, .pair])
      (.cxGrantSample chain granted) :=
  fun _ => ⟨_, rfl, by
    split
    · exact .nop
    · exact .when <| .seq (.setB (has_port RFx_STATUS)) <| .ite (.sub .txCmd) <| .all ⟨.sat (has_port RFx_CX_DENIED),
      .sub .rfEvent, .sub .txGiveUp⟩⟩

theorem dutyBucketAdvance {port region} : Runs (.events dutyRegs [.rf]) (.dutyBucketAdvance port region) :=
  fun _ => ⟨_, rfl, .when <| .sub .dutySet⟩

theorem dutyRegionWrite {iface port region band value} :
    Runs
      (.events (accessRegs ++ portArrays RFx_DUTYr_BAND 16 ++ portArrays RFx_DUTYr_LIMIT 16 ++ dutyRegs) [.hif, .rf])
      (.dutyRegionWrite iface port region band value) :=
  fun _ => ⟨_, rfl, .permitted <| .sub .dutyWrite⟩

theorem agcClipAttack {port sample clip samples peak} :
    Runs (.events (announceRegs ++ ports RFx_STATUS) [.rx, .pair]) (.agcClipAttack port sample clip samples peak) :=
  fun _ => ⟨_, rfl, .when <| .seq (.setB (has_port RXD_AGCx_STAT)) <| .ite (.all ⟨.sub .agc, .when <|
    .seq (.setB (has_port RFx_STATUS)) .raise⟩) <| .sub .gainDecision⟩

theorem agcLevelDecision {port sample long rms} :
    Runs (.events announceRegs [.rx, .pair]) (.agcLevelDecision port sample long rms) :=
  fun _ => ⟨_, rfl, .when <| .ite (.when <| .ite (.setB (has_port RXD_AGCx_STAT)) <| .sub .gainDecision) <| .when <|
    .sub .gainDecision⟩

theorem agcReleaseDeferEnd {port sample expired} :
    Runs (.events announceRegs [.rx, .pair]) (.agcReleaseDeferEnd port sample expired) :=
  fun _ => ⟨_, rfl, .when <| .seq (.setB (has_port RXD_AGCx_STAT)) <| .when <| .sub .gainDecision⟩

theorem clipSpanEnd {port last} :
    Runs (.events (announceRegs ++ ports RFx_STATUS) [.rx, .pair]) (.clipSpanEnd port last) :=
  fun _ => ⟨_, rfl, .all ⟨.setB (has_port RXD_AGCx_STAT), .setB (has_port RFx_STATUS), by
    split
    · exact .nop
    · exact .seq (.sub .agc) <| .sub .announce⟩⟩

theorem announceRecordApply {decoder seq processed reports} :
    Runs (.events (receiveRegs ++ ports RXD_AGCx_STAT ++ ports RXD_ANN_GAP_x ++ ports RXD_EXTx_STEP) [.rx, .pair])
      (.announceRecordApply decoder seq processed reports) :=
  fun _ => ⟨_, rfl, by
    dsimp only
    split
    · exact .nop
    · exact .all ⟨.when <| .sub .announceGap, .sub .decoder, .sub .applyRecord, .when <| .sub .trimExt, .sub .chStat⟩⟩

theorem watchDetect {decoder found} :
    Runs (.events ([(RXD_CHn_DET 0, 80), (RXD_WATCH_BUSY, 1)] ++ receiveRegs) [.rx, .pair])
      (.watchDetect decoder found) :=
  fun _ => ⟨_, rfl, by
    dsimp only
    split
    · exact .nop
    · exact .when <| .ite .wrap <| .when <| .all ⟨.sub .decoder, .wrap has_array, .sub .captureDecide, .sub .chStat⟩⟩

theorem sfdMatch {decoder watch word start} :
    Runs (.events receiveRegs [.rx, .pair]) (.sfdMatch decoder watch word start) :=
  fun _ => ⟨_, rfl, by split; exacts [.nop, .when <| .all ⟨.sub .ctx, .sub .captureDecide, .sub .chStat⟩]⟩

theorem sfdTimeout {decoder watch} : Runs (.events receiveRegs [.rx, .pair]) (.sfdTimeout decoder watch) :=
  fun _ => ⟨_, rfl, by split; exacts [.nop, .when <| .sub .endOne]⟩

theorem headerDecoded {decoder watch block} :
    Runs (.events ([(RXD_CHn_HDR_OK 0, 80)] ++ receiveRegs) [.rx, .pair]) (.headerDecoded decoder watch block) :=
  fun _ => ⟨_, rfl, by
    dsimp only
    split
    · exact .nop
    · exact .when <| .ite (.sub .endOne) <| .ite (.all ⟨.sub .endP, .when <| .sub .decoder, .sub .openFrame⟩) <|
      .seq (.sub .endW) <| .sub .openFrame⟩

theorem rxFrameEnd {decoder} : Runs (.events decoderRegs [.rx, .pair]) (.rxFrameEnd decoder) :=
  fun _ => ⟨_, rfl, by
    dsimp only
    split
    · exact .nop
    · split
      · exact .nop
      · exact .when <| .all ⟨.sub .rxFrame, .sub .decoder, .sub .chStat, .sub .settleFrame⟩⟩

theorem ldpcDecodeDone {core hard iterations} :
    Runs
      (.events ([(BT_PEn_STAT 0, 16), (PAIR_LLR_SHARED, 1), (RXD_LDPC_DEC, 1), (RXD_LDPC_FAIL, 1), (RXD_LDPC_ITER, 1)] ++
        receiveRegs) [.accel, .rx, .pair])
      (.ldpcDecodeDone core hard iterations) :=
  fun _ => ⟨_, rfl, by
    split
    · exact .nop
    · split
      · exact .seq .units <| .sub .poolStat
      · split
        · exact .all ⟨.units, .sub .poolStat, .wrap, .wrapBy, .when .sat, .when <| .seq (.sub .linkSend) .wrap, by
          split
          · exact .sub .cwDone
          · split
            · exact .nop
            · split
              · exact .seq (.sub .sram) <| .sub .finish
              · exact .sub .finish⟩⟩

theorem decoderCfgWrite {iface decoder value} :
    Runs (.events ([(RXD_CHn_CFG 0, 80)] ++ receiveRegs ++ accessRegs) [.hif, .rx, .pair])
      (.decoderCfgWrite iface decoder value) :=
  fun _ => ⟨_, rfl, .permitted <| .sub .decoderCfg⟩

theorem captureCfgWrite {iface value} :
    Runs (.events ([(RXD_CAPTURE, 1)] ++ receiveRegs ++ accessRegs) [.hif, .rx, .pair])
      (.captureCfgWrite iface value) :=
  fun _ => ⟨_, rfl, .permitted <| .sub .captureCfg⟩

theorem macRecordFetched {index bad} :
    Runs (.events [(ENV_ECC_UNC, 1), (MAC_DROPr 0, 16)] [.env, .mac, .pair]) (.macRecordFetched index bad) :=
  fun _ => ⟨_, rfl, by
    split
    · exact .nop
    · exact .when <| .seq (.when <| .sub .demandFail) <| .ite (.sub .macDrop) <| .ite (.sub .macDrop) <| .sub .macSet⟩

theorem macLinkKeyReady {index} :
    Runs (.events ([(MAC_DROPr 0, 16), (SEC_INVALID_KEY, 1)] ++ deriveRegs) [.sec, .mac, .pair])
      (.macLinkKeyReady index) :=
  fun _ => ⟨_, rfl, by
    split
    · exact .nop
    · exact .when <| .derived (.seq .sat <| .sub .macDrop) fun _ => .sub .macSet⟩

theorem bridleWindowEnd {index} :
    Runs (.events [(MAC_BRIDLE_EVT, 1), (MAC_STATUS, 1)] [.mac]) (.bridleWindowEnd index) :=
  fun _ => ⟨_, rfl, by split; exacts [.nop, .when <| .sub .bridleEnd]⟩

theorem scrubBurst {corrected uncorrectable} :
    Runs (.events [(ENV_ECC_CORR, 1), (ENV_ECC_UNC, 1), (ENV_SCRUB_PASSES, 1), (ENV_STATUS, 1)] [.env, .pair])
      (.scrubBurst corrected uncorrectable) :=
  fun _ => ⟨_, rfl, .when <| .all ⟨.setB, .when <| .all ⟨.sat, .units, .sub .faultClass⟩, .when <| .all ⟨.sat, .units,
    .raise, .sub .healthFault⟩, .units, .when <| .read fun _ => .all ⟨.wrap, .raise, .units⟩⟩⟩

theorem fcHoldExpiry {group} : Runs (.events [(ENV_FC_STATE, 1)] [.env]) (.fcHoldExpiry group) :=
  fun _ => ⟨_, rfl, .seq .units <| .sub .fcPins⟩

theorem residueMismatch {domain second} :
    Runs (.events [(SCH_ARITH_FAULT, 1), (SCH_RESIDUE_FIX, 1), (SCH_STATUS, 1)] [.pair])
      (.residueMismatch domain second) :=
  fun _ => ⟨_, rfl, .ite (.all ⟨.sat, .raise, .sub .rebuildBit, .sub .healthFault, .raise⟩) .sat⟩

theorem schSnapshotReq {iface value} :
    Runs (.events (schSnapRegs ++ accessRegs) [.hif]) (.schSnapshotReq iface value) :=
  fun _ => ⟨_, rfl, .sub .schSnapReq⟩

theorem wrapToPartner {source} :
    Runs (.events ([(SEC_INVALID_KEY, 1)] ++ fetchRegs) [.sec, .pair]) (.wrapToPartner source) :=
  fun _ => ⟨_, rfl, .read fun _ => .when <| .sub .wrapToPartner⟩

theorem epochWriteConfirmed {ok} : Runs (.events [] [.boot, .sec]) (.epochWriteConfirmed ok) :=
  fun _ => ⟨_, rfl, .read fun _ => .when <| .ite (.all ⟨.units, .units⟩) .raise⟩

theorem slotReadMeta {iface slot} : Runs (.events (slotReadRegs ++ accessRegs) [.hif]) (.slotReadMeta iface slot) :=
  fun _ => ⟨_, rfl, .sub .slotReadMeta⟩

theorem slotVerifyTag {iface slot upset} :
    Runs (.events (slotReadRegs ++ fetchRegs ++ accessRegs) [.hif, .sec, .pair]) (.slotVerifyTag iface slot upset) :=
  fun _ => ⟨_, rfl, .sub .slotVerifyTag⟩

theorem fuseReadReq {iface value} :
    Runs (.events ([(FUSE_READ_DATA, 1), (FUSE_READ_REQ, 1)] ++ accessRegs) [.hif]) (.fuseReadReq iface value) :=
  fun _ => ⟨_, rfl, .sub .fuseReadReq⟩

theorem fuseProg {iface comp} :
    Runs (.events ([(FUSE_STATUS, 1), (HIF_GUARD_REJ, 1)] ++ guardRegs) [.hif, .fuse]) (.fuseProg iface comp) :=
  fun _ => ⟨_, rfl, .sub .fuseProgGuard⟩

theorem fuseProgDone {blown} : Runs (.events fuseBlowRegs [.fuse]) (.fuseProgDone blown) :=
  fun _ => ⟨_, rfl, .read fun _ => by
    split
    · exact .nop
    · exact .all ⟨.units, .setB, .setF, .sub .fuseStatus, .ite (.seq (.when .sat) .nop) .sat, .ite (.when <|
      .read fun _ => .raise) .raise⟩⟩

theorem timeResidueFail {again} :
    Runs (.events [(TK_ARITH_FAULT, 1), (TK_RESIDUE_FIX, 1), (TK_STATUS, 1)] [.tk, .pair]) (.timeResidueFail again) :=
  fun _ => ⟨_, rfl, .when <| .ite (.all ⟨.sat, .raise, .sub .tkState, .sub .healthFault, .raise⟩) .sat⟩

theorem tkStepGo {src value} : Runs (.events (stepRegs ++ accessRegs) [.tk, .hif]) (.tkStepGo src value) :=
  fun _ => ⟨_, rfl, .sub .tkStepGo⟩

/-! #### The commands of FrameEventsB -/

theorem tkRearm {iface comp} :
    Runs (.events ([(HIF_GUARD_REJ, 1), (TK_STATUS, 1)] ++ guardRegs) [.hif]) (.tkRearm iface comp) :=
  fun _ => ⟨_, rfl, .sub .tkRearm⟩

theorem tkIncrWrite {src value edges} :
    Runs (.events (incrementRegs ++ accessRegs) [.tk, .hif]) (.tkIncrWrite src value edges) :=
  fun _ => ⟨_, rfl, .sub .tkIncrWrite⟩

theorem tkServoWrite {src value} :
    Runs (.events ([(TK_SERVO, 1), (TK_STATUS, 1)] ++ accessRegs) [.tk, .hif, .pair]) (.tkServoWrite src value) :=
  fun _ => ⟨_, rfl, .written <| .sub .servoWrite⟩

theorem servoWatchdogExpiry : Runs (.events [(TK_STATUS, 1)] [.tk, .pair]) .servoWatchdogExpiry :=
  fun _ => ⟨_, rfl, .when <| .sub .tkState⟩

theorem holdoverTraceExpiry : Runs (.events [(TK_STATUS, 1)] [.tk, .pair]) .holdoverTraceExpiry :=
  fun _ => ⟨_, rfl, .when <| .seq .units <| .when <| .sub .traceSet⟩

theorem tsiEdge {input rising edges phase} :
    Runs (.events [(TK_CAP_LOST, 1), (TK_CAPn 0, 4), (TK_STATUS, 1)] [.tk]) (.tsiEdge input rising edges phase) :=
  fun _ => ⟨_, rfl, .when <| .seq (.sub .timePasses) <| .read fun _ => .when <| .all ⟨.units, .ite (.all ⟨.sat,
    .raiseOnce, .units⟩) <| .all ⟨.wrap has_array, .units⟩, .sub .tsiFollow⟩⟩

theorem tkCapReq {iface value} : Runs (.events (captureRegs ++ accessRegs) [.tk, .hif]) (.tkCapReq iface value) :=
  fun _ => ⟨_, rfl, .sub .tkCapReq⟩

theorem tkTimeReq {iface edges} : Runs (.events (timeRegs ++ accessRegs) [.tk, .hif]) (.tkTimeReq iface edges) :=
  fun _ => ⟨_, rfl, .sub .tkTimeReq⟩

theorem ethLinkUp {port ten rxPause} : Runs (.events [(ETH_STATUS, 1)] [.eth]) (.ethLinkUp port ten rxPause) :=
  fun _ => ⟨_, rfl, .when <| .all ⟨.setB, .setF, .sub .ethUnit, .raise, .sub .pauseEval⟩⟩

theorem ethBrFlush {iface value} :
    Runs (.events ([(ETH_BR_CMD_REFUSED, 1), (ETH_BR_STAT, 1)] ++ accessRegs) [.hif, .eth])
      (.ethBrFlush iface value) :=
  fun _ => ⟨_, rfl, .permitted <| .sub .brCmdWrite⟩

theorem pairLinkUp : Runs (.events [(PAIR_STATUS, 1)] [.pair]) .pairLinkUp :=
  fun _ => ⟨_, rfl, .when <| .all ⟨.setB, .units, .raise⟩⟩

theorem pairLinkDown : Runs (.events partnerLostRegs [.pair]) .pairLinkDown :=
  fun _ => ⟨_, rfl, .when <| .all ⟨.setB, .raise, .units, .when .units, .when <| .sub .syncFail, .sub .partnerLost⟩⟩

theorem tetherLost : Runs (.events partnerLostRegs [.pair]) .tetherLost :=
  fun _ => ⟨_, rfl, .sub .partnerLost⟩

theorem pairAliveEdge {low} : Runs (.events [(PAIR_STATUS, 1)] [.pair]) (.pairAliveEdge low) :=
  fun _ => ⟨_, rfl, .seq .setB <| .sub .aliveHeld⟩

theorem digestReceived {lseq beat plan uplink log b0 b1 b2 b3} :
    Runs (.events digestRegs [.pair]) (.digestReceived lseq beat plan uplink log b0 b1 b2 b3) :=
  fun _ => ⟨_, rfl, .linkTake <| .read fun _ => .seq .units <| .sub .digestCompare⟩

theorem helloReceived {lseq h} : Runs (.events [] [.pair]) (.helloReceived lseq h) :=
  fun _ => ⟨_, rfl, .linkTake <| .read fun _ => .seq (.when <| .sub .linkSend) <| .ite (.seq (.when <|
    .sub .pairNext) <| .when .units) <| .all ⟨.raise, .units, .when <| .sub .pairNext⟩⟩

theorem switchReceived {lseq beat} : Runs (.events [(SEC_STATUS, 1)] [.sec, .pair]) (.switchReceived lseq beat) :=
  fun _ => ⟨_, rfl, .linkTake <| .read fun _ => .when <| .all ⟨.units, .sub .linkSend, .when <| .sub .requestRoll⟩⟩

theorem switchAckReceived {lseq beat} :
    Runs (.events [(SEC_STATUS, 1)] [.sec, .pair]) (.switchAckReceived lseq beat) :=
  fun _ => ⟨_, rfl, .linkTake <| .read fun _ => by
    split
    · exact .nop
    · exact .when <| .seq .units <| .when <| .sub .requestRoll⟩

theorem takeoverDecision : Runs (.events [(SEC_STATUS, 1)] [.sec, .pair]) .takeoverDecision :=
  fun _ => ⟨_, rfl, .when <| .all ⟨.units, .sub .faultClass, .sub .requestRoll, .sub .pairNext⟩⟩

theorem staleTakeoverExpiry : Runs (.events [(SEC_STATUS, 1)] [.sec, .pair]) .staleTakeoverExpiry :=
  fun _ => ⟨_, rfl, .when <| .all ⟨.units, .sub .requestRoll, .sub .pairNext⟩⟩

theorem syncTimeout : Runs (.events [] [.pair]) .syncTimeout := fun _ => ⟨_, rfl, .when <| .sub .syncFail⟩

theorem pairSwitch {iface} :
    Runs (.events (pairCmdRegs ++ accessRegs) [.freeCount, .hif, .pair]) (.pairSwitch iface) :=
  fun _ => ⟨_, rfl, .sub .pairSwitch⟩

theorem pairResync {iface} : Runs (.events (pairCmdRegs ++ accessRegs) [.hif, .pair]) (.pairResync iface) :=
  fun _ => ⟨_, rfl, .sub .pairResync⟩

theorem pairHoldReclaim {iface} :
    Runs (.events ([(PAIR_CMD_REFUSED, 1), (PAIR_CMD_STAT, 1), (PAIR_STATUS, 1)] ++ accessRegs) [.hif, .pair])
      (.pairHoldReclaim iface) :=
  fun _ => ⟨_, rfl, .sub .pairHoldReclaim⟩

theorem pairDetach {iface} : Runs (.events (pairCmdRegs ++ accessRegs) [.hif, .pair]) (.pairDetach iface) :=
  fun _ => ⟨_, rfl, .sub .pairDetach⟩

theorem pairRoleOvr {iface comp} :
    Runs (.events ([(HIF_GUARD_REJ, 1), (PAIR_STATUS, 1)] ++ guardRegs) [.hif, .pair]) (.pairRoleOvr iface comp) :=
  fun _ => ⟨_, rfl, .sub .pairRoleOvr⟩

theorem pairDigReq {iface value} : Runs (.events (digestReadRegs ++ accessRegs) [.hif]) (.pairDigReq iface value) :=
  fun _ => ⟨_, rfl, .sub .pairDigReq⟩

theorem logicBistDone {pe pass} :
    Runs (.events ([(BT_ENG_STATE, 1)] ++ lateRegs ++ selfTestRegs) [.accel, .rx, .pair]) (.logicBistDone pe pass) :=
  fun _ => ⟨_, rfl, .when <| .seq (.selfTestRun <| .sub .engineFault) <| .when <| .all ⟨.sub .engine, .setF,
    .sub .rolesFollow⟩⟩

theorem ldpcKat {core pass} :
    Runs (.events [(PAIR_BIST_RUNS, 1), (PAIR_SELFTEST_FAIL, 1), (RXD_STATUS, 1)] [.pair]) (.ldpcKat core pass) :=
  fun _ => ⟨_, rfl, .when <| .seq (.selfTestRun .nop) <| .seq .units <| .sub .poolStat⟩

theorem cipherKat {core pass} : Runs (.events selfTestRegs [.pair]) (.cipherKat core pass) :=
  fun _ => ⟨_, rfl, .when <| .seq (.selfTestRun .nop) .units⟩

theorem ecdsaKat {pass} : Runs (.events selfTestRegs [.pair]) (.ecdsaKat pass) :=
  fun _ => ⟨_, rfl, .when <| .seq (.selfTestRun .nop) .units⟩

theorem pwrReqLevel {iface level} :
    Runs (.events (requestRegs ++ accessRegs) [.pwr, .hif]) (.pwrReqLevel iface level) :=
  fun _ => ⟨_, rfl, .permitted <| .sub .pwrRequest⟩

theorem pwrReqDoze {iface} : Runs (.events (requestRegs ++ accessRegs) [.pwr, .hif]) (.pwrReqDoze iface) :=
  fun _ => ⟨_, rfl, .permitted <| .sub .pwrRequest⟩

theorem pwrReqServe {iface} : Runs (.events (requestRegs ++ accessRegs) [.pwr, .hif]) (.pwrReqServe iface) :=
  fun _ => ⟨_, rfl, .permitted <| .sub .pwrRequest⟩

theorem pwrReqDrift {iface} : Runs (.events (requestRegs ++ accessRegs) [.pwr, .hif]) (.pwrReqDrift iface) :=
  fun _ => ⟨_, rfl, .permitted <| .sub .pwrRequest⟩

theorem thermalReading {quarters} :
    Runs (.events ((PWR_STATUS, 1) :: requestRegs) [.pwr, .pair]) (.thermalReading quarters) :=
  fun _ => ⟨_, rfl, .read fun _ => .all ⟨.units, .setF, .ite (.all ⟨.units, .setB, .when <| .sub .pwrRequest⟩) <|
    .when <| .all ⟨.units, .setB, .when <| .sub .pwrRequest⟩⟩⟩

theorem lossDriftExpiry : Runs (.events requestRegs [.pwr]) .lossDriftExpiry :=
  fun _ => ⟨_, rfl, .read fun _ => .when <| .seq .units <| .sub .mainsRequest⟩

theorem confirmTimerExpiry {blown} :
    Runs (.events ([(BOOT_BSR, 1), (BOOT_STATUS, 1)] ++ fuseBlowRegs) [.boot, .fuse]) (.confirmTimerExpiry blown) :=
  fun _ => ⟨_, rfl, .read fun _ => .when <| .sub .confirmTrial⟩

theorem updateApplyComplete {bad written} :
    Runs (.events [(BOOT_BSR, 1), (BOOT_STATUS, 1), (BOOT_UPD_STAT, 1)] [.boot]) (.updateApplyComplete bad written) :=
  fun _ => ⟨_, rfl, .read fun _ => by
    split
    · exact .nop
    · extract_lets _ _ fail
      have fails (st code : Nat) : Act.Within (.events [(BOOT_UPD_STAT, 1)] [.boot]) (fail st code) :=
        .all ⟨.sub .session, .sub .updShow, .raise⟩
      refine .when <| .seq .setB ?_
      split
      · exact .sub (fails _ _)
      · exact .seq (.sub .flash) <| .sub (fails _ _)
      · exact .seq (.sub .flash) <| .ite (.sub (fails _ _)) <|
          .all ⟨.sub .bsrWrite, .sub .session, .sub .updShow, .raise⟩⟩

theorem pairUpdateTimeout : Runs (.events [(BOOT_UPD_STAT, 1)] [.boot]) .pairUpdateTimeout :=
  fun _ => ⟨_, rfl, .read fun _ => .when <| .all ⟨.units, .sub .updShow, .raise⟩⟩

theorem bootCfgHashReq {iface} :
    Runs (.events ([(BOOT_CFG_HASH_REQ, 1), (BOOT_CFG_HASHx 0, 8)] ++ accessRegs) [.hif]) (.bootCfgHashReq iface) :=
  fun _ => ⟨_, rfl, .sub .cfgHashReq⟩

theorem spiRead {addr dwords corrected bad} :
    Runs (.events ([(ENV_ECC_CORR, 1), (ENV_ECC_UNC, 1), (HIF_STATUS, 1)] ++ accessRegs) [.hif, .env, .pair])
      (.spiRead addr dwords corrected bad) :=
  fun _ => ⟨_, rfl, .spi <| .read fun _ => .ite (.seq .units .accessError) <| .ite (.seq .units <|
    .sub .barErrors) .units⟩

theorem guardArm {iface guard value} :
    Runs (.events ([(HIF_GUARD_REJ, 1)] ++ guardRegs) [.hif]) (.guardArm iface guard value) :=
  fun _ => ⟨_, rfl, .reached <| .guardArm has_guard⟩

theorem guardTimeout {guard} : Runs (.events ([(HIF_GUARD_REJ, 1)] ++ guardRegs) [.hif]) (.guardTimeout guard) :=
  fun _ => ⟨_, rfl, .when <| .seq (.disarm has_guard) <| .guardReject has_guard⟩

theorem guardInterrupt {iface guard part} :
    Runs (.events ([(HIF_GUARD_REJ, 1)] ++ guardRegs) [.hif]) (.guardInterrupt iface guard part) :=
  fun _ => ⟨_, rfl, .reached <| .read fun _ => by
    split
    · exact .when <| .guardReject has_guard
    · exact .guardBreak has_guard
    · exact .guardBreak has_guard⟩

theorem evtRingConsume {iface ring value} :
    Runs (.events ([(EVT_RINGr_CONS 0, 4)] ++ accessRegs) [.hif]) (.evtRingConsume iface ring value) :=
  fun _ => ⟨_, rfl, .permitted <| .sub .evtConsume⟩

theorem hifJrnReq {iface} :
    Runs (.events ([(HIF_JRN_NEXT, 1), (HIF_JRN_OLDEST, 1), (HIF_JRN_REQ, 1)] ++ accessRegs) [.hif])
      (.hifJrnReq iface) :=
  fun _ => ⟨_, rfl, .permitted <| .sub .journalReq⟩

theorem eventBridleWindowEnd {index} : Runs (.events [] []) (.eventBridleWindowEnd index) :=
  fun _ => ⟨_, rfl, .read fun _ => by
    split
    · exact .nop
    · exact .when <| .seq (.bridleClose fun _ => .raiseOnce) .evtStatus⟩

theorem bar2Read {offset len corrected bad} :
    Runs (.events [(ENV_ECC_CORR, 1), (ENV_ECC_UNC, 1)] [.hif, .env, .pair]) (.bar2Read offset len corrected bad) :=
  fun _ => ⟨_, rfl, .reached <| .read fun _ => .seq .units <| .sub .barErrors⟩

end Runs
/-- Settles O45: each command is a program within its reach, and a quiet reach leaves memory alone. -/
theorem frameQuietA : Obligations.FrameQuietA := by
  unfold Obligations.FrameQuietA
  exact ⟨
    fun s => Runs.planWindowClose.quiet s,
    fun s => Runs.bindLine.quiet s,
    fun s => Runs.dozeEnginesReturn.quiet s,
    fun s _ _ _ _ _ _ => Runs.ldpcRedecode.quiet s,
    fun s _ _ _ _ _ _ => Runs.ccmSeal.quiet s,
    fun s _ _ _ _ _ _ => Runs.ccmOpen.quiet s,
    fun s _ _ _ _ => Runs.kdfDerive.quiet s,
    fun s _ _ _ _ _ _ => Runs.cmacCompute.quiet s,
    fun s _ _ _ _ _ => Runs.sha256Block.quiet s,
    fun s _ _ _ _ _ => Runs.ecdsaVerify.quiet s,
    fun s _ _ _ _ => Runs.routeWalk.quiet s,
    fun s _ _ _ _ _ _ _ => (Runs.placementRequest.mono (R' := .quiet issueRegs [.bt, .accel, .env, .rx])).quiet s,
    fun s _ _ _ => Runs.planQuery.quiet s,
    fun s _ _ _ _ _ => Runs.envelopeCopy.quiet s,
    fun s _ _ => Runs.completionTake.quiet s,
    fun s => Runs.vddEngSettled.quiet s,
    fun s _ _ => Runs.txLockConfirmed.quiet s,
    fun s _ => Runs.ccaStart.quiet s,
    fun s _ => Runs.backoffExpiry.quiet s,
    fun s _ => Runs.txPaEnable.quiet s,
    fun s _ _ => Runs.txRampUpStart.quiet s,
    fun s _ => Runs.txPaDisable.quiet s,
    fun s _ => Runs.txTrReturn.quiet s,
    fun s _ _ => Runs.cxRequestRaise.quiet s,
    fun s _ => Runs.cxRelease.quiet s,
    fun s _ => Runs.gainStepEffective.quiet s,
    fun s _ _ => Runs.preambleDetect.quiet s,
    fun s _ _ => Runs.codewordEnd.quiet s,
    fun s => Runs.ldpcDispatch.quiet s,
    fun s => Runs.macFrameReceived.quiet s,
    fun s _ _ => Runs.listenWindowClose.quiet s,
    fun s => Runs.fwdOpComplete.quiet s,
    fun s => (Runs.ageingDeletePhase.mono
      (R' := .quiet [(FWD_STATUS, 1), (FWD_TBLn_AGED 0, 4), (FWD_TBLn_CAD_LOST 0, 4), (FWD_TBLn_COUNT 0, 4)]
        [.fwd, .sch, .pair])).quiet s,
    fun s => Runs.blockResyncApply.quiet s,
    fun s => Runs.envQcmdComplete.quiet s,
    fun s _ => Runs.uplinkSelect.quiet s⟩

/-- Settles O46: like its first part; a record of the pair link completes in its well-formed form. -/
theorem frameQuietB : Obligations.FrameQuietB := by
  unfold Obligations.FrameQuietB
  exact ⟨
    fun s => Runs.shaperTick.quiet s,
    fun s _ _ => Runs.tamperPinEdge.quiet s,
    fun s => Runs.ppsFall.quiet s,
    fun s => Runs.beatOutFall.quiet s,
    fun s _ => Runs.ethAutodetectSwitch.quiet s,
    fun s _ => Runs.ethPauseExpiry.quiet s,
    fun s _ => Runs.pauseRefresh.quiet s,
    fun s _ => Runs.naAnnounce.quiet s,
    fun s => Runs.tetherSend.quiet s,
    fun s _ _ => Runs.tetherReceived.quiet s,
    fun s => Runs.tetherMiss.quiet s,
    fun s => Runs.aliveWatchdogExpiry.quiet s,
    fun s => Runs.startClaim.quiet s,
    fun s => Runs.sealWaitExpiry.quiet s,
    fun s _ _ => Runs.resendReceived.quiet s,
    fun s _ _ => Runs.diversityReceived.quiet s,
    fun s _ _ _ _ _ h => (Runs.llrReceived h).quiet s,
    fun s _ _ _ _ => Runs.timeFrameReceived.quiet s,
    fun s => Runs.switchAckTimeout.quiet s,
    fun s _ _ _ => Runs.arbReceived.quiet s,
    fun s _ => Runs.yieldReceived.quiet s,
    fun s _ _ _ _ h => (Runs.blockFrameReceived h).quiet s,
    fun s _ => Runs.reexecutionDone.quiet s,
    fun s => Runs.reexecutionDeadline.quiet s,
    fun s => Runs.syncRetryExpiry.quiet s,
    fun s => Runs.reclaimHoldExpiry.quiet s,
    fun s _ => Runs.mainsSenseEdge.quiet s,
    fun s => Runs.sniffCycleStart.quiet s,
    fun s => Runs.commissionWaitExpiry.quiet s,
    fun s _ _ => Runs.enrolRetryExpiry.quiet s,
    fun s => Runs.spiStatus.quiet s,
    fun s => Runs.spiId.quiet s,
    fun s _ => Runs.msixModerationExpiry.quiet s,
    fun s _ => Runs.gtTimerExpiry.quiet s,
    fun s => Runs.linkFrameCrcFail.quiet s,
    fun s => Runs.switchoverAliveClaim.quiet s⟩

/-- Settles O47: each command is a program within its reach, and raising an event stores in the event rings only. -/
theorem frameEventsA : Obligations.FrameEventsA := by
  unfold Obligations.FrameEventsA
  exact ⟨
    fun s _ => Runs.perstNEdge.events s,
    fun s _ => (Runs.pcieLinkChange.mono
      (R' := .events [((MSIX_PENDING 0).reg, 4), (EVT_MSIX_SENT, 1), (HIF_STATUS, 1)] [.hif, .rx])).events s,
    fun s => Runs.tmrCopyReload.events s,
    fun s _ _ => Runs.engineSramError.events s,
    fun s _ => Runs.engineRestored.events s,
    fun s _ => Runs.cipherDispatch.events s,
    fun s _ => Runs.beatSnapshotReq.events s,
    fun s => Runs.vsettleTimeout.events s,
    fun s => Runs.levelChangeDone.events s,
    fun s _ _ _ => Runs.rxRecalRequest.events s,
    fun s _ _ _ => Runs.rxRecalStart.events s,
    fun s _ _ _ _ _ _ => Runs.rxRecalDone.events s,
    fun s _ _ _ => Runs.rxSynthUnlock.events s,
    fun s _ _ => Runs.txHoldDecision.events s,
    fun s _ _ _ _ => Runs.txSequenceStart.events s,
    fun s _ _ => Runs.txRampDownEnd.events s,
    fun s _ _ _ => Runs.txBlankEnd.events s,
    fun s _ _ => Runs.cxGrantSample.events s,
    fun s _ _ => Runs.dutyBucketAdvance.events s,
    fun s _ _ _ _ _ => Runs.dutyRegionWrite.events s,
    fun s _ _ _ _ _ => Runs.agcClipAttack.events s,
    fun s _ _ _ _ => Runs.agcLevelDecision.events s,
    fun s _ _ _ => Runs.agcReleaseDeferEnd.events s,
    fun s _ _ => Runs.clipSpanEnd.events s,
    fun s _ _ _ _ => Runs.announceRecordApply.events s,
    fun s _ _ => Runs.watchDetect.events s,
    fun s _ _ _ _ => Runs.sfdMatch.events s,
    fun s _ _ => Runs.sfdTimeout.events s,
    fun s _ _ _ => Runs.headerDecoded.events s,
    fun s _ => Runs.rxFrameEnd.events s,
    fun s _ _ _ => Runs.ldpcDecodeDone.events s,
    fun s _ _ _ => Runs.decoderCfgWrite.events s,
    fun s _ _ => Runs.captureCfgWrite.events s,
    fun s _ _ => Runs.macRecordFetched.events s,
    fun s _ => Runs.macLinkKeyReady.events s,
    fun s _ => Runs.bridleWindowEnd.events s,
    fun s _ _ => Runs.scrubBurst.events s,
    fun s _ => Runs.fcHoldExpiry.events s,
    fun s _ _ => Runs.residueMismatch.events s,
    fun s _ _ => Runs.schSnapshotReq.events s,
    fun s _ => Runs.wrapToPartner.events s,
    fun s _ => Runs.epochWriteConfirmed.events s,
    fun s _ _ => Runs.slotReadMeta.events s,
    fun s _ _ _ => Runs.slotVerifyTag.events s,
    fun s _ _ => Runs.fuseReadReq.events s,
    fun s _ _ => Runs.fuseProg.events s,
    fun s _ => Runs.fuseProgDone.events s,
    fun s _ => Runs.timeResidueFail.events s,
    fun s _ _ => Runs.tkStepGo.events s⟩

/-- Settles O48: like its first part. -/
theorem frameEventsB : Obligations.FrameEventsB := by
  unfold Obligations.FrameEventsB
  exact ⟨
    fun s _ _ => Runs.tkRearm.events s,
    fun s _ _ _ => Runs.tkIncrWrite.events s,
    fun s _ _ => Runs.tkServoWrite.events s,
    fun s => Runs.servoWatchdogExpiry.events s,
    fun s => Runs.holdoverTraceExpiry.events s,
    fun s _ _ _ _ => Runs.tsiEdge.events s,
    fun s _ _ => Runs.tkCapReq.events s,
    fun s _ _ => Runs.tkTimeReq.events s,
    fun s _ _ _ => Runs.ethLinkUp.events s,
    fun s _ _ => Runs.ethBrFlush.events s,
    fun s => Runs.pairLinkUp.events s,
    fun s => Runs.pairLinkDown.events s,
    fun s => Runs.tetherLost.events s,
    fun s _ => Runs.pairAliveEdge.events s,
    fun s _ _ _ _ _ _ _ _ _ => Runs.digestReceived.events s,
    fun s _ _ => Runs.helloReceived.events s,
    fun s _ _ => Runs.switchReceived.events s,
    fun s _ _ => Runs.switchAckReceived.events s,
    fun s => Runs.takeoverDecision.events s,
    fun s => Runs.staleTakeoverExpiry.events s,
    fun s => Runs.syncTimeout.events s,
    fun s _ => Runs.pairSwitch.events s,
    fun s _ => Runs.pairResync.events s,
    fun s _ => Runs.pairHoldReclaim.events s,
    fun s _ => Runs.pairDetach.events s,
    fun s _ _ => Runs.pairRoleOvr.events s,
    fun s _ _ => Runs.pairDigReq.events s,
    fun s _ _ => Runs.logicBistDone.events s,
    fun s _ _ => Runs.ldpcKat.events s,
    fun s _ _ => Runs.cipherKat.events s,
    fun s _ => Runs.ecdsaKat.events s,
    fun s _ _ => Runs.pwrReqLevel.events s,
    fun s _ => Runs.pwrReqDoze.events s,
    fun s _ => Runs.pwrReqServe.events s,
    fun s _ => Runs.pwrReqDrift.events s,
    fun s _ => Runs.thermalReading.events s,
    fun s => Runs.lossDriftExpiry.events s,
    fun s _ => Runs.confirmTimerExpiry.events s,
    fun s _ _ => (Runs.updateApplyComplete.mono
      (R' := .events [(BOOT_BSR, 1), (BOOT_STATUS, 1), (BOOT_UPD_STAT, 1)] [.boot, .hif])).events s,
    fun s => Runs.pairUpdateTimeout.events s,
    fun s _ => Runs.bootCfgHashReq.events s,
    fun s _ _ _ _ => Runs.spiRead.events s,
    fun s _ _ _ => Runs.guardArm.events s,
    fun s _ => Runs.guardTimeout.events s,
    fun s _ _ _ => Runs.guardInterrupt.events s,
    fun s _ _ _ => Runs.evtRingConsume.events s,
    fun s _ => Runs.hifJrnReq.events s,
    fun s _ => Runs.eventBridleWindowEnd.events s,
    fun s _ _ _ _ => Runs.bar2Read.events s⟩

/-! ### The machine at reset, and the supplies -/

/-- Settles O54: no byte is listed at reset, and the listed registers stand in order, none of them 0. -/
theorem resetHasTheForm : Obligations.ResetHasTheForm where
  mem := by decide
  regs := by decide

/-- Settles O56: each clause is a value that the reset state lists, or the 0 of what it does not list. -/
theorem resetState : Obligations.ResetState := by
  unfold Obligations.ResetState
  exact ⟨rfl, rfl, rfl, rfl, rfl, rfl, rfl, rfl⟩

@[simp] theorem aonPass_mem (n : Nat) (s : State) : ((Act.aonPass n).run s).mem = s.mem := by
  by_cases h : s.mode = .drift <;> simp [Act.aonPass, Act.tk, Act.pwr, h]

@[simp] theorem resetDevice_mem (s : State) : (Act.resetDevice.run s).mem = s.mem := rfl

theorem zero_mem (base len : Nat) (s : State) :
    ((Act.zero base len).run s).mem = s.mem.filter fun e => !(base ≤ e.1 && e.1 < base + len) := rfl

/-- A rail's loss does to memory what zeroing the Envelope's 2³² addresses does. -/
theorem supplyLoss_mem (s : State) (vbat : VbatLevel) (ticks : BitVec 40) :
    Completes (.supplyLoss false vbat ticks) s fun t => t.mem = ((Act.zero 0 (2 ^ 32)).run s).mem := by
  refine ⟨_, rfl, ?_⟩
  by_cases h : s.u.pins.vbat <;> simp [Act.pins, Act.drift, zero_mem, h]

/-- The reset state with one byte listed just past the Envelope's addresses. A store lists no such byte, for its address
is taken modulo 2³² (R598), but the statement speaks of every state. -/
def cellPastEnvelope : State := { State.reset with mem := [(2 ^ 32, 1)] }

/-- Refutes O1: memory need not be empty once a rail is lost, for the Envelope is cleared by address and a state may
list a cell past its last one. -/
theorem not_suppliesAndResets : ¬ Obligations.SuppliesAndResets := by
  unfold Obligations.SuppliesAndResets
  intro ⟨_, loss, _⟩
  obtain ⟨t, ht, _, _, _, hempty⟩ := loss cellPastEnvelope .lost 0
  obtain ⟨t', ht', hkept⟩ := supplyLoss_mem cellPastEnvelope .lost 0
  obtain rfl : t = t' := by simpa using ht.symm.trans ht'
  rw [hempty] at hkept
  exact absurd hkept (by decide)

end Sys2Proof.Machine

namespace Sys2Proof.Machine

open Sys2Proof Sys2Proof.Reg

/-! ### The identity registers, and writes that no register takes -/

/-- R2, R33: an identity register reads the value fixed in the part, whatever the store holds. -/
theorem State.reg_of_fixedReg {a : Nat} {w : Word} (h : fixedReg a = some w) (s : State) : s.reg a = w := by
  simp [State.reg, h]

@[simp] theorem State.reg_genCaps (s : State) : s.reg GEN_CAPS = 0x04445010 := s.reg_of_fixedReg rfl

/-- R604: a dword written to a register that takes no write leaves the machine as it is. -/
theorem Act.run_regWrite_of_not_writes {a : Nat} {r : Row} (hguard : guardAt a = none) (hmsix : inMsixTable a = false)
    (hrow : rowOf a = some r) (hw : writes a r = false) (i : HostIface) (w : Word) (m : Moment) (s : State) :
    (Act.regWrite i a w m).run s = s := by
  simp [Act.regWrite, hguard, hmsix, hrow, hw]

/-- R598, R602: a PCIe request of one whole dword is one register write, where PCIe is in service. -/
theorem exec_registerWrite_dword {a : Nat} (ha : a < 2 ^ 24) (halign : a % 4 = 0) (v : Word) (m : Moment) (s : State) :
    exec (.registerWrite (BitVec.ofNat 24 a) [(v, 15)] m) s =
      .next ((Act.reached .pcie (Act.regWrite .pcie a v m)).run s) := by
  have hdword : a / 4 * 4 = a := by omega
  have hmod : a % 16777216 = a := Nat.mod_eq_of_lt ha
  change execRegisterWrite _ _ m s = _
  simp [execRegisterWrite, Act.reached, Act.each, Act.dwordWrite, hmod, hdword]

/-- R604: a PCIe write of one dword to a register that takes no write leaves the machine as it is. -/
theorem completes_registerWrite_of_not_writes {a : Nat} {r : Row} (ha : a < 2 ^ 24) (halign : a % 4 = 0)
    (hguard : guardAt a = none) (hmsix : inMsixTable a = false) (hrow : rowOf a = some r) (hw : writes a r = false)
    (v : Word) (m : Moment) (s : State) :
    Completes (.registerWrite (BitVec.ofNat 24 a) [(v, 15)] m) s fun t => t = s :=
  ⟨_, exec_registerWrite_dword ha halign v m s, by
    simp [Act.reached, Act.run_regWrite_of_not_writes hguard hmsix hrow hw]⟩

/-- Settles O57: GEN_CAPS reads one and the same dword in every state, so in the state an SPI write leaves as well; its
row is RO, so a PCIe write leaves the whole machine. -/
theorem identityRegisters : Obligations.IdentityRegisters := by
  unfold Obligations.IdentityRegisters
  refine ⟨fun s => ?_, fun s v m => ?_, fun s v m => ⟨_, rfl, ?_⟩⟩
  · simp [State.fld, fieldOf, GEN_CAPS_ENGINES, GEN_CAPS_RX_CHANNELS, GEN_CAPS_TX_CHAINS, GEN_CAPS_PIPELINES,
      GEN_CAPS_ENVELOPE_GIB]
  · exact completes_registerWrite_of_not_writes (by decide) rfl rfl rfl rfl rfl v m s
  · exact (State.reg_genCaps _).trans (State.reg_genCaps s).symm

end Sys2Proof.Machine

namespace Sys2Proof.Machine

open Sys2Proof Sys2Proof.Reg

/-! ### Host writes of one dword -/

/-- Bytes taken little-endian give back the value, cut to their number. -/
theorem leValue_leBytes (n v : Nat) : leValue (leBytes n v) = v % 256 ^ n := by
  induction n generalizing v with
  | zero => simp [leBytes, leValue, Nat.mod_one]
  | succ n ih => rw [leBytes, leValue, ih, Nat.pow_succ', Nat.mod_mul]; simp

/-- R599, R600: an SPI transaction of one whole dword is one register write, where SPI is in service. -/
theorem exec_spiWrite_dword {a : Nat} (ha : a < 2 ^ 24) (halign : a % 4 = 0) (v : Word) (m : Moment) (s : State) :
    exec (.spiWrite (BitVec.ofNat 32 a) (leBytes 4 v.toNat) m) s =
      .next ((Act.spi (Act.regWrite .spi a v m)).run s) := by
  have haddr : a % 2 ^ 32 = a := Nat.mod_eq_of_lt (by omega)
  have hdword : a % 2 ^ 24 = a := Nat.mod_eq_of_lt ha
  have hvalue : BitVec.ofNat 32 (leValue (leBytes 4 v.toNat)) = v := by
    rw [leValue_leBytes, Nat.mod_eq_of_lt (by simpa using v.isLt), BitVec.ofNat_toNat, BitVec.setWidth_eq]
  have hdwords : dwordsOf (leBytes 4 v.toNat) = [leBytes 4 v.toNat] := rfl
  have hbar0 : ¬2 ^ 31 ≤ a := by omega
  change execSpiWrite _ _ m s = _
  simp only [execSpiWrite, State.act_eq, BitVec.toNat_ofNat, haddr, halign, leBytes_length, hdwords, hbar0]
  simp [Act.spi, Act.reached, Act.each, hvalue, show a % 16777216 = a from hdword]

/-- The machine while an SPI transaction lasts (R599): no error seen yet, nothing shifted out, SPI_SEL reads 1. -/
def State.spiOpen (s : State) : State :=
  (Act.setB HIF_STATUS_SPI_SEL true).run ((Act.hif fun h => { h with spiErr := false, spiOut := [] }).run s)

theorem State.reg_spiOpen (s : State) {x : Nat} (hx : HIF_STATUS ≠ x) : s.spiOpen.reg x = s.reg x :=
  Act.reg_setF_ne _ _ _ hx

/-- An SPI transaction in service: its access, between the rise and the fall of SPI_SEL. -/
theorem Act.run_spi {s : State} (h : s.reaches .spi = true) (a : Act) :
    (Act.spi a).run s = (Act.setB HIF_STATUS_SPI_SEL false).run (a.run s.spiOpen) := by
  simp [Act.spi, Act.reached, h, State.spiOpen]

/-- An SPI transaction leaves a register other than HIF_STATUS that its access leaves. -/
theorem Act.reg_spi_of_keeps {x : Nat} (hx : HIF_STATUS ≠ x) {a : Act} (ha : ∀ t, (a.run t).reg x = t.reg x)
    (s : State) : ((Act.spi a).run s).reg x = s.reg x := by
  by_cases h : s.reaches .spi = true
  · rw [run_spi h, setB, reg_setF_ne _ _ _ hx, ha, s.reg_spiOpen hx]
  · simp [Act.spi, Act.reached, h]

/-! ### The engine state register -/

/-- Settles O59: the fields and the codes are the spec's, each field is 0 at reset, and the row of BT_ENG_STATE is RO,
so no write over either interface stores in it. -/
theorem engineStateRegister : Obligations.EngineStateRegister := by
  unfold Obligations.EngineStateRegister
  refine ⟨fun n => ⟨rfl, ?_⟩, ⟨rfl, rfl, rfl, rfl⟩, fun s v m => ?_, fun s v m => ?_⟩
  · have hreset : State.reset.reg BT_ENG_STATE = 0 := rfl
    simp [State.fld, BT_ENG_STATE_n, hreset, fieldOf, engOff]
  · exact completes_registerWrite_of_not_writes (by decide) rfl rfl rfl rfl rfl v m s
  · exact ⟨_, exec_spiWrite_dword (by decide) rfl v m s,
      Act.reg_spi_of_keeps (by decide) (fun t => by rw [Act.run_regWrite_of_not_writes rfl rfl rfl rfl]) s⟩

/-! ### The beat snapshot -/

/-- The mode stands in GEN_MODE (R31). -/
theorem State.mode_congr {s t : State} (h : t.reg GEN_MODE = s.reg GEN_MODE) : t.mode = s.mode := by
  simp [State.mode, State.fld, GEN_MODE_MODE, h]

/-- Whether a write is permitted depends on the fuses and the mode alone (R604, R607). -/
theorem State.permits_congr {s t : State} (hfuse : t.u.fuse = s.u.fuse) (hmode : t.reg GEN_MODE = s.reg GEN_MODE)
    (a : Nat) : t.permits a = s.permits a := by
  simp [State.permits, State.mode_congr hmode, State.allows, State.lifecycle, State.fuseMap, State.fuseRow, hfuse]

/-- Whether an SPI access reaches the block depends on two units, the mode and HIF_CFG (R599). -/
theorem State.reaches_congr {s t : State} (hpins : t.u.pins = s.u.pins) (hpwr : t.u.pwr = s.u.pwr)
    (hmode : t.reg GEN_MODE = s.reg GEN_MODE) (hcfg : t.reg HIF_CFG = s.reg HIF_CFG) :
    t.reaches .spi = s.reaches .spi := by
  simp [State.reaches, State.mode_congr hmode, State.bit, State.fld, HIF_CFG_SPI_EN, hpins, hpwr, hcfg]

/-- What a snapshot posts (R67): the beat of a machine `s` and the sample index at its start, with VALID. -/
def BeatPosted (s t : State) : Prop :=
  t.reg BT_BEAT_LO = BitVec.ofNat 32 s.u.bt.beat ∧ t.reg BT_BEAT_HI = BitVec.ofNat 32 (s.u.bt.beat / 2 ^ 32 % 2 ^ 26) ∧
  t.reg BT_SAMPLE_LO = BitVec.ofNat 32 s.u.bt.sample ∧ t.reg BT_SAMPLE_HI = BitVec.ofNat 32 (s.u.bt.sample / 2 ^ 32) ∧
  t.bit BT_BEAT_REQ_VALID = true

/-- A snapshot request posts the snapshot. -/
theorem beatPosted_beatReq (s : State) : BeatPosted s (Act.beatReq.run s) := by
  simp [BeatPosted, Act.beatReq, State.bit, State.fld, fieldOf, BT_BEAT_REQ_VALID, State.reg_setReg, fixedReg,
    GEN_CHIP_ID, GEN_CAPS, BT_BEAT_LO, BT_BEAT_HI, BT_SAMPLE_LO, BT_SAMPLE_HI, BT_BEAT_REQ]

/-- A snapshot taken within an SPI transaction stands after it. -/
theorem BeatPosted.spi {s : State} (h : BeatPosted s.spiOpen (Act.beatReq.run s.spiOpen)) :
    BeatPosted s ((Act.setB HIF_STATUS_SPI_SEL false).run (Act.beatReq.run s.spiOpen)) := by
  have hbt : s.spiOpen.u.bt = s.u.bt := by simp [State.spiOpen, Act.setB, Act.hif]
  have hreg {x : Nat} (hx : HIF_STATUS ≠ x) (t : State) : ((Act.setB HIF_STATUS_SPI_SEL false).run t).reg x = t.reg x :=
    Act.reg_setF_ne _ _ _ hx
  have hreq (t : State) : ((Act.setB HIF_STATUS_SPI_SEL false).run t).bit BT_BEAT_REQ_VALID = t.bit BT_BEAT_REQ_VALID := by
    simp [State.bit, State.fld, BT_BEAT_REQ_VALID, hreg (x := BT_BEAT_REQ) (by decide)]
  unfold BeatPosted
  rwa [hreg (by decide), hreg (by decide), hreg (by decide), hreg (by decide), hreq, ← hbt]

/-- An access that reaches the block does what it is for. -/
theorem Act.run_reached {i : HostIface} {s : State} (hr : s.reaches i = true) (a : Act) :
    (Act.reached i a).run s = a.run s := by
  simp [Act.reached, hr]

/-- A permitted access does what it is for. -/
theorem Act.run_permitted {i : HostIface} {a : Nat} {s : State} (hr : s.reaches i = true) (hp : s.permits a = true)
    (act : Act) : (Act.permitted i a act).run s = act.run s := by
  simp [Act.permitted, hr, hp]

/-- A dword written to BT_BEAT_REQ is a snapshot request, whatever it holds. -/
theorem Act.run_regWrite_beatReq {i : HostIface} {s : State} (hr : s.reaches i = true)
    (hp : s.permits BT_BEAT_REQ = true) (v : Word) (m : Moment) :
    (Act.regWrite i BT_BEAT_REQ v m).run s = Act.beatReq.run s := by
  have hguard : guardAt BT_BEAT_REQ = none := rfl
  have hmsix : inMsixTable BT_BEAT_REQ = false := rfl
  have hrow : ∃ r, rowOf BT_BEAT_REQ = some r ∧ writes BT_BEAT_REQ r = true := ⟨_, rfl, rfl⟩
  obtain ⟨r, hrow, hwrites⟩ := hrow
  have hspecial : special i BT_BEAT_REQ v m s = some beatReq := rfl
  simp [Act.regWrite, hguard, hmsix, hrow, hwrites, run_permitted hr hp, hspecial]

/-- Settles O58: over either interface the write is a snapshot request, for an SPI transaction leaves what decides on
access and what a snapshot takes. -/
theorem beatSnapshot : Obligations.BeatSnapshot := by
  unfold Obligations.BeatSnapshot
  refine ⟨fun s i hr hp => ⟨_, rfl, ?_⟩, fun s v m hr hp => ⟨_, exec_registerWrite_dword (by decide) rfl v m s, ?_⟩,
    fun s v m hr hp => ⟨_, exec_spiWrite_dword (by decide) rfl v m s, ?_⟩⟩
  · rw [Act.run_permitted hr hp]
    exact beatPosted_beatReq s
  · rw [Act.run_reached hr, Act.run_regWrite_beatReq hr hp]
    exact beatPosted_beatReq s
  · have hpins : s.spiOpen.u.pins = s.u.pins := by simp [State.spiOpen, Act.setB, Act.hif]
    have hpwr : s.spiOpen.u.pwr = s.u.pwr := by simp [State.spiOpen, Act.setB, Act.hif]
    have hfuse : s.spiOpen.u.fuse = s.u.fuse := by simp [State.spiOpen, Act.setB, Act.hif]
    have hmode := s.reg_spiOpen (x := GEN_MODE) (by decide)
    have hr' := (State.reaches_congr hpins hpwr hmode (s.reg_spiOpen (by decide))).trans hr
    have hp' := (State.permits_congr hfuse hmode BT_BEAT_REQ).trans hp
    rw [Act.run_spi hr, Act.run_regWrite_beatReq hr' hp']
    exact (beatPosted_beatReq s.spiOpen).spi

end Sys2Proof.Machine

namespace Sys2Proof.Machine

open Sys2Proof Sys2Proof.Reg

/-! ### What a program may change

`Act.Only R U` reads off a program's text that it stores in registers of `R` alone, and that each of its updates of the
units is one `U` allows. Unlike a reach it may allow a part of a unit; it says nothing of memory. -/

/-- Every register a program may store in is in `R`, and `U` relates the units before and after each of its updates. -/
def Act.Only (R : Nat → Prop) (U : Units → Units → Prop) : Act → Prop
  | .nop => True
  | .seq a b => a.Only R U ∧ b.Only R U
  | .read k => ∀ s, (k s).Only R U
  | .reg a _ => R a
  | .clear _ => ∀ a, R a
  | .mem _ _ => True
  | .zero _ _ => True
  | .units f => ∀ u, U u (f u)

namespace Act.Only

variable {R : Nat → Prop} {U : Units → Units → Prop}

/-- What a program's text allows is all that a run of it changes. -/
theorem run {a : Act} (h : a.Only R U) (hrefl : ∀ u, U u u) (htrans : ∀ {u v w}, U u v → U v w → U u w) (s : State) :
    (∀ x, ¬R x → (a.run s).reg x = s.reg x) ∧ U s.u (a.run s).u := by
  induction a generalizing s with
  | nop => exact ⟨fun _ _ => rfl, hrefl _⟩
  | seq a b iha ihb =>
    obtain ⟨har, hau⟩ := iha h.1 s
    obtain ⟨hbr, hbu⟩ := ihb h.2 (a.run s)
    exact ⟨fun x hx => (hbr x hx).trans (har x hx), htrans hau hbu⟩
  | read k ih => exact ih s (h s) s
  | reg a w => exact ⟨fun x hx => State.reg_setReg_ne s w fun e => hx (e ▸ h), by simpa using hrefl _⟩
  | clear keep => exact ⟨fun x hx => absurd (h x) hx, hrefl _⟩
  | mem a b => exact ⟨fun _ _ => rfl, hrefl _⟩
  | zero base len => exact ⟨fun _ _ => rfl, hrefl _⟩
  | units f => exact ⟨fun _ _ => rfl, h s.u⟩

@[simp] theorem nop : Act.nop.Only R U := trivial
@[simp] theorem seq_iff {a b : Act} : (Act.seq a b).Only R U ↔ a.Only R U ∧ b.Only R U := .rfl
@[simp] theorem read_iff {k : State → Act} : (Act.read k).Only R U ↔ ∀ s, (k s).Only R U := .rfl
@[simp] theorem reg_iff {a : Nat} {w : Word} : (Act.reg a w).Only R U ↔ R a := .rfl
@[simp] theorem mem {a : Nat} {b : Byte} : (Act.mem a b).Only R U := trivial
@[simp] theorem units_iff {f : Units → Units} : (Act.units f).Only R U ↔ ∀ u, U u (f u) := .rfl

@[simp] theorem all_iff {l : List Act} : (Act.all l).Only R U ↔ ∀ a ∈ l, a.Only R U := by
  induction l with
  | nil => simp [Act.all]
  | cons a l ih => simp [Act.all, ih]

@[simp] theorem each_iff {α : Type} {l : List α} {f : α → Act} : (Act.each l f).Only R U ↔ ∀ x ∈ l, (f x).Only R U := by
  simp [Act.each]

@[simp] theorem when_iff {c : Bool} {a : Act} : (Act.when c a).Only R U ↔ (c = true → a.Only R U) := by
  cases c <;> simp [Act.when]

@[simp] theorem ite_iff {c : Prop} [Decidable c] {a b : Act} :
    (if c then a else b).Only R U ↔ (c → a.Only R U) ∧ (¬c → b.Only R U) := by
  by_cases h : c <;> simp [h]

@[simp] theorem setF_iff {f : Field} {v : Nat} : (Act.setF f v).Only R U ↔ R f.reg :=
  ⟨fun h => h State.reset, fun h _ => h⟩
@[simp] theorem setB_iff {f : Field} {b : Bool} : (Act.setB f b).Only R U ↔ R f.reg := by simp [Act.setB]
@[simp] theorem wrapBy_iff {a n : Nat} : (Act.wrapBy a n).Only R U ↔ R a :=
  ⟨fun h => h State.reset, fun h _ => h⟩
@[simp] theorem wrap_iff {a : Nat} : (Act.wrap a).Only R U ↔ R a := by simp [Act.wrap]
@[simp] theorem satBy_iff {a n : Nat} : (Act.satBy a n).Only R U ↔ R a :=
  ⟨fun h => h State.reset, fun h _ => h⟩
@[simp] theorem sat_iff {a : Nat} : (Act.sat a).Only R U ↔ R a := by simp [Act.sat]

@[simp] theorem memBytes {a : Nat} {bs : List Byte} : (Act.memBytes a bs).Only R U := by
  induction bs generalizing a with
  | nil => simp [Act.memBytes]
  | cons b bs ih => simp [Act.memBytes, ih]

end Act.Only

/-- What raising an event may change (R626–R630): the registers that show events, the unit of the events, and the list
of events raised once in the beat. -/
structure RaisesIn (R : Nat → Prop) (U : Units → Units → Prop) : Prop where
  status : R EVT_STATUS
  raised : R EVT_RAISED
  coalesced : R EVT_COALESCED
  early : R EVT_BRIDLE_EARLY
  sent : R EVT_MSIX_SENT
  prod : ∀ r, R (EVT_RINGr_PROD r)
  lost : ∀ r, R (EVT_LOSTr r)
  pending : ∀ v, R (MSIX_PENDING v).reg
  evt : ∀ (u : Units) (e : Evt), U u { u with evt := e }
  once : ∀ (u : Units) (l : List (Nat × Nat)), U u { u with bt := { u.bt with once := l } }

namespace Act.Only

variable {R : Nat → Prop} {U : Units → Units → Prop} (h : RaisesIn R U)
include h

theorem evtStatus : Act.evtStatus.Only R U := by
  simp [Act.evtStatus, EVT_STATUS_PENDING, EVT_STATUS_BRIDLE_FULL, EVT_STATUS_BRIDLE_OPEN, h.status]

theorem msixSend (v : Nat) : (Act.msixSend v).Only R U := by
  simp [Act.msixSend, Act.evt, h.sent, h.evt]

theorem msixRequest (v : Nat) : (Act.msixRequest v).Only R U := by
  simp [Act.msixRequest, Act.evt, msixSend h, h.pending, h.evt]

theorem ringEntry (r src flags count beat ts tn : Nat) (detail : List Byte) :
    (Act.ringEntry r src flags count beat ts tn detail).Only R U := by
  simp [Act.ringEntry, Act.evt, h.prod, h.evt, h.raised]

theorem ringWrite {overflow : Nat → Act} (ho : ∀ r, (overflow r).Only R U) (src flags count beat ts tn : Nat)
    (record : List Byte) : (Act.ringWrite overflow src flags count beat ts tn record).Only R U := by
  simp [Act.ringWrite, Act.evt, ho, ringEntry h, msixRequest h, h.lost, h.evt]

theorem bridleClose {overflow : Nat → Act} (ho : ∀ r, (overflow r).Only R U) (i : Nat) (early : Bool) :
    (Act.bridleClose overflow i early).Only R U := by
  refine read_iff.2 fun s => ?_
  cases s.u.evt.bridle[i]? with
  | none => trivial
  | some b => simp [Act.evt, ringWrite h ho, h.early, h.evt]

theorem occurrence {overflow : Nat → Act} (ho : ∀ r, (overflow r).Only R U) (src : Nat) (record : List Byte) :
    (Act.occurrence overflow src record).Only R U := by
  simp [Act.occurrence, Act.evt, ringWrite h ho, bridleClose h ho, h.coalesced, h.evt]

theorem raiseFuel (k src : Nat) (record : List Byte) : (Act.raiseFuel k src record).Only R U := by
  induction k generalizing src record with
  | zero => trivial
  | succ k ih => exact occurrence h (fun r => by simp [Act.bt, ih, h.once]) _ _

/-- Raising an event changes what shows events, and nothing else. -/
theorem raise (src : Nat) (record : List Byte) : (Act.raise src record).Only R U :=
  ⟨raiseFuel h _ _ _, evtStatus h⟩

theorem raiseOnce (src key : Nat) (record : List Byte) : (Act.raiseOnce src key record).Only R U := by
  simp [Act.raiseOnce, Act.bt, raise h, h.once]

end Act.Only

/-- Raising an event leaves the sequencer and the engines but for the list of events raised once in the beat. -/
theorem Act.bt_raise (src : Nat) (record : List Byte) (s : State) :
    ∃ l, ((Act.raise src record).run s).u.bt = { s.u.bt with once := l } := by
  have h : (Act.raise src record).Only (fun _ => True) fun u v => ∃ l, v.bt = { u.bt with once := l } :=
    Act.Only.raise ⟨trivial, trivial, trivial, trivial, trivial, fun _ => trivial, fun _ => trivial, fun _ => trivial,
      fun u _ => ⟨_, rfl⟩, fun _ l => ⟨l, rfl⟩⟩ src record
  refine (h.run (fun u => ⟨_, rfl⟩) ?_ s).2
  rintro u v w ⟨l, hl⟩ ⟨k, hk⟩
  exact ⟨k, by rw [hk, hl]⟩

/-! ### Triplicated logic, and engines that fault and return -/

/-- Raising an event leaves every register but those that show events. -/
theorem Act.reg_raise {x : Nat} (hx : inSpans eventRegs x = false) (src : Nat) (record : List Byte) (s : State) :
    ((Act.raise src record).run s).reg x = s.reg x :=
  ((Act.Within.raise (R := .events [] [])).fits s).reg x (by simp [Reach.foot, Reach.has, Reach.events, hx])

theorem Act.fld_raise {f : Field} (hx : inSpans eventRegs f.reg = false) (src : Nat) (record : List Byte) (s : State) :
    ((Act.raise src record).run s).fld f = s.fld f := by
  simp [State.fld, reg_raise hx]

theorem Act.split_raise (src : Nat) (record : List Byte) (s : State) :
    ((Act.raise src record).run s).u.bt.split = s.u.bt.split := by
  obtain ⟨l, hl⟩ := Act.bt_raise src record s
  simp [hl]

theorem Act.engine_raise (src : Nat) (record : List Byte) (s : State) (n : Nat) :
    ((Act.raise src record).run s).engine n = s.engine n := by
  obtain ⟨l, hl⟩ := Act.bt_raise src record s
  simp [State.engine, hl]

/-- R44: an update of one engine. -/
theorem Act.engine_engine (n : Nat) (f : Engine → Engine) (s : State) (k : Nat) :
    ((Act.engine n f).run s).engine k = if n = k then f (s.engine n) else s.engine k := by
  simp only [State.engine, Act.engine, Act.bt, Act.run_units, Store.getD_setD]

theorem Act.engine_setF (f : Field) (v : Nat) (s : State) (n : Nat) : ((Act.setF f v).run s).engine n = s.engine n := by
  simp [State.engine]

/-- Only second roles of engines differ (R47). -/
def SecondRoles (u v : Units) : Prop :=
  ∃ es : Store Engine, v = { u with bt := { u.bt with engines := es } } ∧
    ∀ n, ∃ x, es.getD n Engine.idle = { u.bt.engines.getD n Engine.idle with second := x }

theorem SecondRoles.refl (u : Units) : SecondRoles u u := ⟨_, rfl, fun _ => ⟨_, rfl⟩⟩

theorem SecondRoles.trans {u v w : Units} (h : SecondRoles u v) (k : SecondRoles v w) : SecondRoles u w := by
  obtain ⟨es, rfl, hes⟩ := h
  obtain ⟨fs, rfl, hfs⟩ := k
  refine ⟨fs, rfl, fun n => ?_⟩
  obtain ⟨x, hx⟩ := hes n
  obtain ⟨y, hy⟩ := hfs n
  exact ⟨y, by rw [hy]; simp only [hx]⟩

theorem SecondRoles.engine (u : Units) (n : Nat) (f : Engine → Option Nat) :
    SecondRoles u { u with bt := { u.bt with
      engines := u.bt.engines.setD n Engine.idle
        { u.bt.engines.getD n Engine.idle with second := f (u.bt.engines.getD n Engine.idle) } } } := by
  refine ⟨_, rfl, fun k => ?_⟩
  rw [Store.getD_setD]
  split
  · next h =>
    subst h
    exact ⟨_, rfl⟩
  · exact ⟨_, rfl⟩

/-- R47: passing roles on changes the second roles of engines. -/
theorem Act.secondRoles_rolesFollow (s : State) : SecondRoles s.u (Act.rolesFollow.run s).u := by
  refine (Act.Only.run (R := fun _ => False) (a := Act.rolesFollow) ?_ .refl .trans s).2
  have hengine (n : Nat) (x : Option Nat) :
      (Act.engine n fun e => { e with second := x }).Only (fun _ => False) SecondRoles :=
    fun u => SecondRoles.engine u n fun _ => x
  refine ⟨Act.Only.each_iff.2 fun n _ s => Act.Only.when_iff.2 fun _ => hengine n none,
    Act.Only.each_iff.2 fun n _ s => Act.Only.when_iff.2 fun _ => ?_⟩
  cases s.standIn n with
  | none => trivial
  | some k => exact hengine k _

theorem Act.engine_rolesFollow (s : State) (n : Nat) :
    ∃ x, (Act.rolesFollow.run s).engine n = { s.engine n with second := x } := by
  obtain ⟨es, hu, hes⟩ := Act.secondRoles_rolesFollow s
  simpa [State.engine, hu] using hes n

theorem Act.restoreIn_rolesFollow (s : State) (n : Nat) :
    ((Act.rolesFollow.run s).engine n).restoreIn = (s.engine n).restoreIn := by
  obtain ⟨x, hx⟩ := Act.engine_rolesFollow s n
  simp [hx]

theorem Act.gated_rolesFollow (s : State) (n : Nat) :
    ((Act.rolesFollow.run s).engine n).gated = (s.engine n).gated := by
  obtain ⟨x, hx⟩ := Act.engine_rolesFollow s n
  simp [hx]

theorem Act.dozeReturn_rolesFollow (s : State) : (Act.rolesFollow.run s).u.bt.dozeReturn = s.u.bt.dozeReturn := by
  obtain ⟨es, hu, -⟩ := Act.secondRoles_rolesFollow s
  simp [hu]

/-- R48: an engine that returns waits for no boundary. -/
theorem Act.restoreIn_engineBack (n : Nat) (s : State) : (((Act.engineBack n).run s).engine n).restoreIn = none := by
  simp only [Act.engineBack, Act.run_read, Act.run_all_cons, Act.run_all_nil, Act.engine_raise, Act.restoreIn_rolesFollow,
    Act.engine_setF, Act.engine_engine, if_true]

/-- R522: an engine the Doze profile gated returns. -/
def Act.ungate (n : Nat) : Act := .read fun t => when (t.engine n).gated
  (.seq (engine n fun e => { e with gated := false })
    (when (t.engine n).restoreIn.isNone (setF (BT_ENG_STATE_n n) engServing)))

theorem Act.gated_ungate (n k : Nat) (s : State) :
    (((Act.ungate n).run s).engine k).gated = if n = k then false else (s.engine k).gated := by
  have hset (b : Bool) (t : State) :
      ((Act.when b (Act.setF (BT_ENG_STATE_n n) engServing)).run t).engine k = t.engine k := by
    cases b
    · rfl
    · exact Act.engine_setF _ _ t k
  simp only [Act.ungate, Act.run_read, Act.run_when]
  split
  · rw [Act.run_seq, hset, Act.engine_engine]
    split <;> rfl
  · split
    · next h he => simpa [← he] using h
    · rfl

theorem Act.gated_each_ungate (l : List Nat) (s : State) (k : Nat) :
    (((Act.each l Act.ungate).run s).engine k).gated = if k ∈ l then false else (s.engine k).gated := by
  induction l generalizing s with
  | nil => simp [Act.each]
  | cons n l ih =>
    change (((Act.each l Act.ungate).run ((Act.ungate n).run s)).engine k).gated = _
    rw [ih, Act.gated_ungate]
    by_cases hk : k ∈ l
    · simp [hk]
    · simp [hk, eq_comm]

theorem Act.dozeReturn_each_ungate (l : List Nat) (s : State) :
    ((Act.each l Act.ungate).run s).u.bt.dozeReturn = s.u.bt.dozeReturn := by
  have h : (Act.each l Act.ungate).Only (fun _ => True) fun u v => v.bt.dozeReturn = u.bt.dozeReturn := by
    simp [Act.ungate, Act.engine, Act.bt]
  exact (h.run (fun _ => rfl) (fun h k => k.trans h) s).2

/-- A counter that saturates moves one on. -/
theorem Act.reg_sat {a : Nat} (h : fixedReg a = none) (s : State) : ((Act.sat a).run s).reg a = satNext (s.reg a) :=
  Act.reg_satBy a 1 s h

/-- R42, R468: once a copy is reloaded, none waits. -/
theorem Act.split_tmrReload (s : State) : (Act.tmrReload.run s).u.bt.split = none := by
  simp only [Act.tmrReload, Act.run_read]
  split
  · assumption
  · split <;> simp [Act.split_raise, Act.bt, Act.pair, Act.sat, Act.setB]

/-- R42: the sequencer's reload counts in BT_TMR_FIX. -/
theorem Act.reg_tmrReload_sequencer {s : State} (h : s.u.bt.split = some .sequencer) :
    (Act.tmrReload.run s).reg BT_TMR_FIX = satNext (s.reg BT_TMR_FIX) := by
  simp only [Act.tmrReload, Act.run_read, h, Act.run_seq, if_pos, Act.run_all_cons, Act.run_all_nil]
  rw [Act.reg_raise (by decide)]
  refine (Act.reg_sat (a := BT_TMR_FIX) rfl _).trans (congrArg satNext ?_)
  exact Act.reg_setF_ne _ _ _ (by decide)

/-- R468: any other unit's reload counts in PAIR_TMR_FIX. -/
theorem Act.reg_tmrReload_other {s : State} {part : TmrUnit} (h : s.u.bt.split = some part) (hp : part ≠ .sequencer) :
    (Act.tmrReload.run s).reg PAIR_TMR_FIX = satNext (s.reg PAIR_TMR_FIX) := by
  simp only [Act.tmrReload, Act.run_read, h, Act.run_seq, if_neg hp, Act.run_all_cons, Act.run_all_nil]
  rw [Act.reg_raise (by decide)]
  exact Act.reg_sat (a := PAIR_TMR_FIX) rfl _

/-- R42: a copy of the sequencer that disagrees shows in TMR_SPLIT; every copy that disagrees waits for its reload. -/
theorem completes_tmrCopyUpset {s : State} (h : s.mode ≠ .cold) (part : TmrUnit) :
    Completes (.tmrCopyUpset part true) s fun t =>
      t.u.bt.split = some part ∧ (part = .sequencer → t.bit BT_STATUS_TMR_SPLIT = true) := by
  refine ⟨_, rfl, ?_, fun hp => ?_⟩
  · simp [h, Act.bt, Act.setB, apply_ite]
  · subst hp
    have hset (t : State) : ((Act.setF BT_STATUS_TMR_SPLIT 1).run t).fld BT_STATUS_TMR_SPLIT = 1 :=
      Act.fld_setF_same _ _ _ rfl (by decide)
    simp [h, State.bit, Act.setB, hset]

/-- R522: engines gated in DOZE are back at the third boundary after it. -/
theorem completes_dozeEnginesReturn {s : State} (h : s.u.bt.dozeReturn = some 0) :
    Completes .dozeEnginesReturn s fun t =>
      t.u.bt.dozeReturn = none ∧ ∀ n ∈ List.range 16, (t.engine n).gated = false := by
  have hrun : (exec .dozeEnginesReturn s) = .next (Act.rolesFollow.run ((Act.each (List.range 16) Act.ungate).run
      ((Act.bt fun b => { b with dozeReturn := none }).run s))) := by
    change Host.Outcome.next _ = _
    simp [h]
    rfl
  refine ⟨_, hrun, ?_, fun n hn => ?_⟩
  · rw [Act.dozeReturn_rolesFollow, Act.dozeReturn_each_ungate]
    rfl
  · rw [Act.gated_rolesFollow, Act.gated_each_ungate, if_pos hn]

/-- Settles O2: reload and return are programs whose later parts, raising the event and passing the roles on, leave what
the earlier ones set. -/
theorem triplicatedLogicAndEngines : Obligations.TriplicatedLogicAndEngines := by
  unfold Obligations.TriplicatedLogicAndEngines
  refine ⟨fun s part h => completes_tmrCopyUpset h part, fun s part h => ⟨_, rfl, ?_⟩, fun s pe hl hg => ⟨_, rfl, ?_⟩,
    fun s pe h => ⟨_, rfl, ?_⟩, fun s h => completes_dozeEnginesReturn h⟩
  · exact ⟨Act.split_tmrReload s, fun hp => Act.reg_tmrReload_sequencer (hp ▸ h), Act.reg_tmrReload_other h⟩
  · simp only [hl, hg, Bool.not_false, Bool.and_self, Act.run_when, if_true]
    exact Act.reg_sat (a := BT_SRAM_CORR) rfl s
  · simpa [h] using Act.restoreIn_engineBack pe s

end Sys2Proof.Machine

namespace Sys2Proof.Machine

open Sys2Proof Sys2Proof.Reg

/-! ### Operations an engine issues -/

/-- BT_PEn_STAT shows an engine and changes no unit (R72). -/
@[simp] theorem Act.engineStat_u (pe : Nat) (s : State) : ((Act.engineStat pe).run s).u = s.u := by
  simp [Act.engineStat]

theorem Act.engine_engineStat (pe : Nat) (s : State) (n : Nat) : ((Act.engineStat pe).run s).engine n = s.engine n := by
  simp [State.engine]

/-- The beat of new work does not depend on the engines (R481). -/
theorem State.workBeat_engine (n : Nat) (f : Engine → Engine) (s : State) :
    ((Act.engine n f).run s).workBeat = s.workBeat := rfl

/-- An operation's slot is taken (R51): it leaves no thread of its own waiting. -/
def Engine.take (e : Engine) (slot thread : Nat) : Engine :=
  { e with slots := e.slots ++ [slot], stalled := e.stalled.filter fun t => !(t == thread) }

theorem Act.slots_take (pe thread k : Nat) (s : State) :
    (((Act.engine pe (Engine.take · k thread)).run s).engine pe).slots = (s.engine pe).slots ++ [k] :=
  congrArg Engine.slots ((Act.engine_engine pe (Engine.take · k thread) s pe).trans (if_pos rfl))

/-- R51: an engine that can issue and has a free slot takes it, and the operation goes on. -/
theorem Act.run_issueWith {pe k : Nat} {s : State} (hc : s.canIssue pe = true) (hf : (s.engine pe).freeSlot = some k)
    (thread : Nat) (act : Nat → Act) : (Act.issueWith pe thread act).run s =
      (Act.engineStat pe).run ((act k).run ((Act.engine pe (Engine.take · k thread)).run s)) := by
  simp only [Act.issueWith, Act.run_read, Act.run_when, hc, hf, if_true]
  rfl

/-- R50, R51: the operation takes the slot and stands behind those outstanding, bound to the beat. -/
theorem Act.run_issue {pe k : Nat} {s : State} (hc : s.canIssue pe = true) (hf : (s.engine pe).freeSlot = some k)
    (thread cls : Nat) (w : OpWork) :
    ((Act.issue pe thread cls w).run s).u.accel.ops =
      s.u.accel.ops ++ [⟨s.u.accel.next, pe, thread, k, cls, s.workBeat, w, none⟩] ∧
    (((Act.issue pe thread cls w).run s).engine pe).slots = (s.engine pe).slots ++ [k] := by
  rw [Act.issue, Act.run_issueWith hc hf]
  constructor
  · rw [Act.engineStat_u]
    rfl
  · rw [Act.engine_engineStat]
    exact Act.slots_take pe thread k s

/-- RXD_STATUS shows the pool and changes no unit (R192). -/
@[simp] theorem Act.poolStat_u (s : State) : (Act.poolStat.run s).u = s.u := by
  simp [Act.poolStat]

theorem Act.engine_poolStat (s : State) (n : Nat) : (Act.poolStat.run s).engine n = s.engine n := by
  simp [State.engine]

/-- R182: a redecode of a codeword whose LLRs still stand joins the decode requests beside the operations. -/
theorem completes_ldpcRedecode {s : State} {pe : Fin 16} {k : Nat} (hc : s.canIssue pe = true)
    (hf : (s.engine pe).freeSlot = some k) (thread : Fin 4) {frame : BitVec 32} {codeword : Fin 16} (limit : Fin 33)
    (out : BitVec 18) {x : Codeword}
    (hx : ((s.rxFrame frame.toNat).bind fun f => f.cws[codeword.val]?) = some x) (hl : x.llrs ≠ []) :
    Completes (.ldpcRedecode pe thread frame codeword limit out) s fun t =>
      t.u.accel.ops = s.u.accel.ops ++ [⟨s.u.accel.next, pe, thread, k, 1, s.workBeat,
        .redecode frame.toNat codeword out.toNat, none⟩] ∧
      (t.engine pe).slots = (s.engine pe).slots ++ [k] ∧
      t.u.rx.reqs = s.u.rx.reqs ++ [⟨frame.toNat, codeword, s.workBeat, some s.u.accel.next, limit, x.llrs, none⟩] := by
  refine ⟨_, rfl, ?_⟩
  simp only [Act.run_read, hx, List.isEmpty_iff, hl, if_false, Act.run_issueWith hc hf, Act.engineStat_u,
    Act.engine_engineStat, Act.run_all_cons, Act.run_all_nil, Act.poolStat_u]
  refine ⟨rfl, ?_, rfl⟩
  rw [Act.engine_poolStat]
  exact Act.slots_take pe thread k s

/-- Settles O23: every command is one issue of its accelerator's work; the redecode is one with a decode request. -/
theorem issuedOperations : Obligations.IssuedOperations := by
  unfold Obligations.IssuedOperations
  exact ⟨
    fun _ _ thread _ _ _ _ _ hc hf => ⟨_, rfl, Act.run_issue hc hf thread _ _⟩,
    fun _ _ thread _ _ _ _ _ hc hf => ⟨_, rfl, Act.run_issue hc hf thread _ _⟩,
    fun _ _ thread _ _ _ hc hf => ⟨_, rfl, Act.run_issue hc hf thread _ _⟩,
    fun _ _ thread _ _ _ _ _ hc hf => ⟨_, rfl, Act.run_issue hc hf thread _ _⟩,
    fun _ _ thread _ _ _ _ hc hf => ⟨_, rfl, Act.run_issue hc hf thread _ _⟩,
    fun _ _ thread _ _ _ _ hc hf => ⟨_, rfl, Act.run_issue hc hf thread _ _⟩,
    fun _ _ thread _ _ _ hc hf => ⟨_, rfl, Act.run_issue hc hf thread _ _⟩,
    fun _ _ thread _ _ _ _ _ _ hc hf => ⟨_, rfl, Act.run_issue hc hf thread _ _⟩,
    fun _ _ thread _ _ hc hf => ⟨_, rfl, Act.run_issue hc hf thread _ _⟩,
    fun _ _ thread _ _ _ _ hc hf => ⟨_, rfl, Act.run_issue hc hf thread _ _⟩,
    fun _ _ thread _ _ _ limit out _ hc hf hx hl => completes_ldpcRedecode hc hf thread limit out hx hl⟩

end Sys2Proof.Machine

namespace Sys2Proof.Machine

open Sys2Proof Sys2Proof.Reg

/-! ### The end of an outstanding operation -/

/-- R53: a completion entry, outside a level change, stands last in its engine's ring. -/
theorem Act.run_completion {s : State} (h : s.bit PWR_STATUS_CHANGING = false) (pe : Nat) (c : Completion) :
    ((Act.completion pe c).run s).u = ((Act.engine pe fun e => { e with ring := e.ring ++ [c] }).run s).u := by
  simp [Act.completion, h]

theorem Act.ring_completion {s : State} (h : s.bit PWR_STATUS_CHANGING = false) (pe : Nat) (c : Completion) :
    (((Act.completion pe c).run s).engine pe).ring = (s.engine pe).ring ++ [c] := by
  have hengine := Act.engine_engine pe (fun e => { e with ring := e.ring ++ [c] }) s pe
  rw [if_pos rfl] at hengine
  rw [State.engine, Act.run_completion h]
  exact congrArg Engine.ring hengine

/-- The completion entry of an operation (R53). -/
def Op.entry (o : Op) (status flags result : Nat) : Completion :=
  ⟨tagOf o.pe o.slot, o.thread, o.cls, status, flags, o.beat % 65536, result⟩

/-- An operation has ended (R53): it is not outstanding any more, and its completion stands in its engine's ring. -/
def OpEnded (o : Op) (status flags result : Nat) (s t : State) : Prop :=
  t.u.accel.ops = s.u.accel.ops.filter (fun p => !(p.id == o.id)) ∧
  (t.engine o.pe).ring = (s.engine o.pe).ring ++ [o.entry status flags result]

/-- The operation is not outstanding any more. -/
def Act.opGone (o : Op) : Act := accel fun x => { x with ops := x.ops.filter fun p => !(p.id == o.id) }

theorem Act.run_finish (o : Op) (status flags result : Nat) (s : State) : (Act.finish o status flags result).run s =
    (Act.completion o.pe (o.entry status flags result)).run ((Act.opGone o).run s) := rfl

theorem accel_finish {s : State} (h : s.bit PWR_STATUS_CHANGING = false) (o : Op) (status flags result : Nat) :
    ((Act.finish o status flags result).run s).u.accel =
      { s.u.accel with ops := s.u.accel.ops.filter fun p => !(p.id == o.id) } := by
  have hgone : ((Act.opGone o).run s).bit PWR_STATUS_CHANGING = false := h
  rw [Act.run_finish, Act.run_completion hgone]
  rfl

theorem opEnded_finish {s : State} (h : s.bit PWR_STATUS_CHANGING = false) (o : Op) (status flags result : Nat) :
    OpEnded o status flags result s ((Act.finish o status flags result).run s) := by
  have hgone : ((Act.opGone o).run s).bit PWR_STATUS_CHANGING = false := h
  refine ⟨by rw [accel_finish h], ?_⟩
  rw [Act.run_finish, Act.ring_completion hgone]
  rfl

/-- What came before the end of an operation may have changed anything but the operations and the engines. -/
theorem OpEnded.of_eq {o : Op} {status flags result : Nat} {s r t : State} (h : OpEnded o status flags result r t)
    (hops : r.u.accel.ops = s.u.accel.ops) (hbt : r.u.bt = s.u.bt) : OpEnded o status flags result s t := by
  unfold OpEnded State.engine at *
  rwa [← hops, ← hbt]

/-- An operation of a tag slot is its engine's (R50). -/
theorem State.of_opAt {s : State} {pe slot : Nat} {o : Op} (h : s.opAt pe slot = some o) : o.pe = pe ∧ o.slot = slot := by
  simpa using List.find?_some h

theorem OpEnded.of_opAt {s t : State} {pe slot : Nat} {o : Op} (hop : s.opAt pe slot = some o)
    {status flags result : Nat} (h : OpEnded o status flags result s t) :
    t.u.accel.ops = s.u.accel.ops.filter (fun p => !(p.id == o.id)) ∧
    (t.engine pe).ring = (s.engine pe).ring ++ [⟨tagOf pe slot, o.thread, o.cls, status, flags, o.beat % 65536, result⟩] := by
  obtain ⟨rfl, rfl⟩ := State.of_opAt hop
  exact h

theorem Act.bit_wrap_ne {a : Nat} {f : Field} (h : a ≠ f.reg) (s : State) : ((Act.wrap a).run s).bit f = s.bit f := by
  simp [State.bit, State.fld, Act.wrap, Act.wrapBy, State.reg_setReg, h]

/-- A program runs where its condition holds. -/
theorem Act.run_when_of {c : Bool} {a : Act} {s : State} (h : c = true) : (Act.when c a).run s = a.run s := by
  rw [h, Act.when, if_pos rfl]

/-- The cores show and change no unit (R408). -/
@[simp] theorem Act.coresBusy_u (s : State) : (Act.coresBusy.run s).u = s.u := by
  simp [Act.coresBusy]

theorem Act.engine_coresBusy (s : State) (n : Nat) : (Act.coresBusy.run s).engine n = s.engine n := by
  simp [State.engine]

/-- Bytes stored in a data SRAM change no other state (R44). -/
theorem Act.u_sram (pe a : Nat) (bs : List Byte) (s : State) : ((Act.sram pe a bs).run s).u =
    { s.u with accel := { s.u.accel with sram := sramPut pe a bs s.u.accel.sram } } := rfl

@[simp] theorem Act.reg_sram (pe a : Nat) (bs : List Byte) (s : State) (x : Nat) :
    ((Act.sram pe a bs).run s).reg x = s.reg x := rfl

@[simp] theorem Act.bit_sram (pe a : Nat) (bs : List Byte) (s : State) (f : Field) :
    ((Act.sram pe a bs).run s).bit f = s.bit f := rfl

/-- R53: an operation that stored its result in a data SRAM ends. -/
theorem opEnded_sram_finish {s t : State} {pe slot : Nat} {o : Op} (hop : s.opAt pe slot = some o)
    (hc : s.bit PWR_STATUS_CHANGING = false) {bs : List Byte} {status flags out : Nat}
    (ht : t = (Act.finish o status flags out).run ((Act.sram pe out bs).run s)) :
    t.u.accel.ops = s.u.accel.ops.filter (fun p => !(p.id == o.id)) ∧
    (t.engine pe).ring =
      (s.engine pe).ring ++ [⟨tagOf pe slot, o.thread, o.cls, status, flags, o.beat % 65536, out⟩] ∧
    t.u.accel.sram = sramPut pe out bs s.u.accel.sram := by
  subst ht
  have hcr : ((Act.sram pe out bs).run s).bit PWR_STATUS_CHANGING = false := hc
  have hend := (opEnded_finish hcr o status flags out).of_eq (s := s) (by rw [Act.u_sram]) (by rw [Act.u_sram])
  obtain ⟨hops, hring⟩ := hend.of_opAt hop
  exact ⟨hops, hring, by rw [accel_finish hcr, Act.u_sram]⟩

@[simp] theorem State.bytes_length (s : State) (a n : Nat) : (s.bytes a n).length = n := by
  induction n generalizing a with
  | zero => rfl
  | succ n ih => simp [State.bytes, ih]

/-- Bytes read depend on memory alone. -/
theorem State.bytes_congr {s t : State} (h : t.mem = s.mem) (a n : Nat) : t.bytes a n = s.bytes a n := by
  induction n generalizing a with
  | zero => rfl
  | succ n ih => simp [State.bytes, State.byte, h, ih]

/-- Bytes stored from an address upward are read back there, where they do not wrap onto themselves (R598). -/
theorem Act.bytes_memBytes {bs : List Byte} (h : bs.length ≤ 2 ^ 32) (a : Nat) (s : State) :
    ((Act.memBytes a bs).run s).bytes a bs.length = bs := by
  induction bs generalizing a s with
  | nil => rfl
  | cons b bs ih =>
    rw [List.length_cons] at h
    have hfirst : ((Act.memBytes (a + 1) bs).run (s.setByte a b)).byte a = b := by
      rw [Act.memBytes_byte_ne _ _ _ _ fun i hi => by omega, State.byte_setByte, if_pos rfl]
    simp only [Act.memBytes, Act.run_seq, Act.run_mem, State.bytes, List.length_cons, hfirst]
    rw [ih (by omega)]

/-- The update log of a pair changes no memory and no register (R489). -/
theorem Act.run_logUpdate (bs : List Byte) (s : State) : ((Act.logUpdate bs).run s).regs = s.regs ∧
    ((Act.logUpdate bs).run s).mem = s.mem ∧
    ((Act.logUpdate bs).run s).u = { s.u with pair := ((Act.logUpdate bs).run s).u.pair } := by
  simp only [Act.logUpdate, Act.run_read, Act.run_when]
  split <;> exact ⟨rfl, rfl, rfl⟩

/-- R489: bytes stored in a shadowed region stand there; beside them only the pair's log moves. -/
theorem Act.run_regionWrite {bs : List Byte} (h : bs.length ≤ 2 ^ 32) (a : Nat) (s : State) :
    (∀ x, ((Act.regionWrite a bs).run s).reg x = s.reg x) ∧
    ((Act.regionWrite a bs).run s).bytes a bs.length = bs ∧
    ((Act.regionWrite a bs).run s).u = { s.u with pair := ((Act.regionWrite a bs).run s).u.pair } := by
  obtain ⟨hregs, hmem, hu⟩ := Act.run_logUpdate
    ([0x16] ++ leBytes 4 a ++ leBytes 4 bs.length ++ leBytes 4 (crc32 bs).toNat) ((Act.memBytes a bs).run s)
  rw [Act.memBytes_regs] at hregs
  rw [Act.memBytes_u] at hu
  refine ⟨fun x => ?_, (State.bytes_congr hmem a bs.length).trans (Act.bytes_memBytes h a s), hu⟩
  rw [State.reg, Act.regionWrite, Act.run_seq, hregs]
  rfl

section

variable {s : State} {pe : Fin 16} {slot : Fin 48} {o : Op} (hop : s.opAt pe slot = some o) (hs : s.shadows = false)
  (hc : s.bit PWR_STATUS_CHANGING = false)
include hop hs hc

/-- R339: a placement is registered with its packet. -/
theorem completes_opCompletion_place {q start d c l : Nat} (hw : o.work = .place q start d c l) :
    Completes (.opCompletion pe slot []) s fun t =>
      t.u.accel.ops = s.u.accel.ops.filter (fun p => !(p.id == o.id)) ∧
      (t.engine pe).ring = (s.engine pe).ring ++ [⟨tagOf pe slot, o.thread, o.cls, cplOk, 0, o.beat % 65536, 0⟩] ∧
      (t.queue q).packets = (s.queue q).packets.map
        (fun p => if p.start = start then { p with decoder := some d, cls := c, length := l } else p) := by
  refine ⟨_, rfl, ?_⟩
  simp only [Act.run_read, hop, hs, hw, Act.run_when, Bool.false_and, Bool.not_false, if_true, Act.run_seq]
  have hcr : ((Act.placePacket q start d c l).run s).bit PWR_STATUS_CHANGING = false := hc
  obtain ⟨hops, hring⟩ := ((opEnded_finish hcr o cplOk 0 0).of_eq (s := s) rfl rfl).of_opAt hop
  refine ⟨hops, hring, ?_⟩
  have henv := (Act.Within.finish (o := o) (status := cplOk) (flags := 0) (result := 0)).fits
    ((Act.placePacket q start d c l).run s) |>.units .env (by decide)
  rw [State.queue, ← henv]
  exact congrArg Queue.packets ((Store.getD_setD _ _ _ _ _).trans (if_pos rfl))

/-- R364: a CMAC ends with its result where it was asked. -/
theorem completes_opCompletion_cmac {f : Fetch} {k a len out : Nat} (hw : o.work = .cmac k a len out)
    (hf : o.fetch = some f) :
    Completes (.opCompletion pe slot []) s fun t =>
      t.u.accel.ops = s.u.accel.ops.filter (fun p => !(p.id == o.id)) ∧
      (t.engine pe).ring = (s.engine pe).ring ++ [⟨tagOf pe slot, o.thread, o.cls, cplOk, 1, o.beat % 65536, out⟩] ∧
      t.u.accel.sram =
        sramPut pe out (bytesOfNat (Crypto.cmac f.key (natBytes (s.sramBytes pe a len)))) s.u.accel.sram := by
  refine ⟨_, rfl, ?_⟩
  simp only [Act.run_read, hop, hs, hw, hf, Act.run_when, Bool.false_and, Bool.not_false, if_true, Act.run_seq,
    Act.coreEnd, Act.coresBusy_u, Act.engine_coresBusy, (State.of_opAt hop).1]
  exact opEnded_sram_finish hop hc rfl

/-- R274: a walk that finds its route ends with it where it was asked, and is counted. -/
theorem completes_opCompletion_routeWalk {final out : Nat} (hw : o.work = .routeWalk final out)
    (hr : (s.walk final fun _ => false).reason = 0) :
    Completes (.opCompletion pe slot []) s fun t =>
      t.u.accel.ops = s.u.accel.ops.filter (fun p => !(p.id == o.id)) ∧
      (t.engine pe).ring = (s.engine pe).ring ++ [⟨tagOf pe slot, o.thread, o.cls, cplOk, 1, o.beat % 65536, out⟩] ∧
      t.u.accel.sram = sramPut pe out (s.walk final fun _ => false).bytes s.u.accel.sram ∧
      t.reg FWD_RW_OK = s.reg FWD_RW_OK + 1 := by
  refine ⟨_, rfl, ?_⟩
  simp only [Act.run_read, hop, hs, hw, Act.run_when, Bool.false_and, Bool.not_false, if_true, Act.run_all_cons,
    Act.run_all_nil, List.any_nil, hr, Act.walkCounts, Act.each, List.map_nil]
  obtain ⟨r, hwalk⟩ : ∃ r, (Act.wrap FWD_RW_OK).run ((Act.sram pe out (s.walk final fun _ => false).bytes).run s) = r :=
    ⟨_, rfl⟩
  have hu : r.u = ((Act.sram pe out (s.walk final fun _ => false).bytes).run s).u := by rw [← hwalk, Act.wrap, Act.wrapBy_u]
  have hcr : r.bit PWR_STATUS_CHANGING = false := by rw [← hwalk, Act.bit_wrap_ne (by decide), Act.bit_sram, hc]
  have hcount : r.reg FWD_RW_OK = s.reg FWD_RW_OK + 1 := by
    rw [← hwalk]
    exact (Act.reg_wrapBy FWD_RW_OK 1 _ rfl).trans (congrArg (· + 1) (Act.reg_sram ..))
  have hend := (opEnded_finish hcr o cplOk 1 out).of_eq (s := s) (by rw [hu, Act.u_sram]) (by rw [hu, Act.u_sram])
  obtain ⟨hops, hring⟩ := hend.of_opAt hop
  rw [hwalk]
  refine ⟨hops, hring, by rw [accel_finish hcr, hu, Act.u_sram], ?_⟩
  rw [← hcount]
  exact ((Act.Within.finish (o := o) (status := cplOk) (flags := 1) (result := out)).fits r).reg FWD_RW_OK rfl

/-- R364: the only block of SHA-256 ends with its result. -/
theorem completes_opCompletion_sha {st blk out : Nat} (hw : o.work = .sha st blk out) (ho : s.u.accel.ops = [o]) :
    Completes (.opCompletion pe slot []) s fun t =>
      t.u.accel.ops = s.u.accel.ops.filter (fun p => !(p.id == o.id)) ∧
      (t.engine pe).ring =
        (s.engine pe).ring ++ [⟨tagOf pe slot, o.thread, o.cls, cplOk, 1, o.beat % 65536, out⟩] := by
  refine ⟨_, rfl, ?_⟩
  simp only [Act.run_read, hop, hs, hw]
  rw [Act.run_when_of, Act.run_when_of, Act.run_seq]
  · obtain ⟨hops, hring, -⟩ := opEnded_sram_finish hop hc rfl
    exact ⟨hops, hring⟩
  · simp [ho, firstOp, hw]
  · simp

/-- R49, R311: a copy within the Envelope ends with the bytes of its source at its destination. -/
theorem completes_opCompletion_copy {a b len : Nat} (hw : o.work = .copy (.envelope a) (.envelope b) len)
    (hl : len < 2 ^ 19) :
    Completes (.opCompletion pe slot []) s fun t =>
      t.u.accel.ops = s.u.accel.ops.filter (fun p => !(p.id == o.id)) ∧
      (t.engine pe).ring = (s.engine pe).ring ++ [⟨tagOf pe slot, o.thread, o.cls, cplOk, 0, o.beat % 65536, 0⟩] ∧
      t.bytes b len = s.bytes a len := by
  refine ⟨_, rfl, ?_⟩
  simp only [Act.run_read, hop, hs, hw, Act.run_when, Bool.false_and, Bool.not_false, if_true, Act.run_seq, Act.each,
    List.map_nil, Act.run_all_nil, List.all_nil, List.isEmpty_nil, Act.copyRead, Act.copyWrite]
  obtain ⟨r, hwrite⟩ : ∃ r, (Act.regionWrite b (s.bytes a len)).run s = r := ⟨_, rfl⟩
  obtain ⟨hregs, hbytes, hu⟩ := Act.run_regionWrite (bs := s.bytes a len) (by simp; omega) b s
  rw [hwrite] at hregs hbytes hu ⊢
  have hcr : r.bit PWR_STATUS_CHANGING = false := by rw [State.bit, State.fld, hregs]; exact hc
  have hend := (opEnded_finish hcr o cplOk 0 0).of_eq (s := s) (by rw [hu]) (by rw [hu])
  obtain ⟨hops, hring⟩ := hend.of_opAt hop
  refine ⟨hops, hring, ?_⟩
  rw [State.bytes_congr ((Act.Within.finish (o := o) (status := cplOk) (flags := 0) (result := 0)).mem rfl r)]
  simpa using hbytes

end

/-- R51: an engine that takes a completion frees its tag. -/
theorem completes_completionTake {s : State} {pe : Fin 16} {slot : Fin 48}
    (h : ((s.engine pe).ring.any fun c => c.tag == tagOf pe slot) = true) :
    Completes (.completionTake pe slot) s fun t =>
      (t.engine pe).ring = (s.engine pe).ring.filter (fun c => !(c.tag == tagOf pe slot)) ∧
      (t.engine pe).slots = (s.engine pe).slots.filter (fun k => !(k == slot.val)) := by
  refine ⟨_, rfl, ?_⟩
  simp only [Act.run_read, Act.run_when, h, if_true, Act.run_seq, Act.engine_engineStat, Act.engine_engine, and_self]

/-- R363, R371: the cipher served first goes to the lowest free core with the key the cache holds. -/
theorem completes_cipherDispatch_cached {s : State} {o : Op} {core slot : Nat} {label : List Byte} {key : List Nat}
    (ho : s.nextCipher = some o) (hcore : s.freeAes = some core) (hw : o.work = .derive slot label)
    (hslot : (s.slot slot).state = .valid) (hkey : s.cached slot label = some key) :
    Completes (.cipherDispatch false) s fun t =>
      t.u.accel.ops =
        s.u.accel.ops.map (fun q => if q.id = o.id then { q with fetch := some ⟨core, slot, [], 0⟩ } else q) ∧
      t.reg SEC_CACHE_HIT = s.reg SEC_CACHE_HIT + 1 := by
  refine ⟨_, rfl, ?_⟩
  simp only [Act.run_read, ho, hcore, Act.coreStart, hw, Act.run_seq, Act.fetchUpset, Bool.false_and, Act.run_when,
    Bool.false_eq_true, if_false, Act.derived, hslot, decide_true, Bool.not_true, hkey, Act.coreTake, Act.coresBusy_u]
  refine ⟨?_, (Act.Within.coresBusy.fits _).reg SEC_CACHE_HIT rfl |>.trans (Act.reg_wrapBy SEC_CACHE_HIT 1 s rfl)⟩
  rw [Act.accel, Act.run_units, Act.wrap, Act.wrapBy_u]

/-- Settles O24: each end is the work's result, then the end of the operation with one completion; the dispatch takes
the cached key. -/
theorem operationsEnd : Obligations.OperationsEnd := by
  unfold Obligations.OperationsEnd
  exact ⟨fun _ _ _ _ _ _ ho hcore hw hslot hkey => completes_cipherDispatch_cached ho hcore hw hslot hkey,
    fun _ _ _ _ _ _ _ _ _ hop hs hc hw => completes_opCompletion_place hop hs hc hw,
    fun _ _ _ _ _ _ _ hop hs hc hw hl => completes_opCompletion_copy hop hs hc hw hl,
    fun _ _ _ _ _ _ _ _ _ hop hs hc hw hf => completes_opCompletion_cmac hop hs hc hw hf,
    fun _ _ _ _ _ _ hop hs hc hw hr => completes_opCompletion_routeWalk hop hs hc hw hr,
    fun _ _ _ _ _ _ _ hop hs hc hw ho => completes_opCompletion_sha hop hs hc hw ho,
    fun _ _ _ h => completes_completionTake h⟩

end Sys2Proof.Machine

namespace Sys2Proof.Machine

open Sys2Proof Sys2Proof.Reg

/-! ### The scheduler -/

/-- R325: stamping a head leaves the virtual time and the packets selected. -/
def KeepsSelection (u v : Units) : Prop :=
  v.sch.v = u.sch.v ∧
  ∀ n, (v.sch.flows.getD n Flow.idle).selected = (u.sch.flows.getD n Flow.idle).selected

theorem KeepsSelection.refl (u : Units) : KeepsSelection u u := ⟨rfl, fun _ => rfl⟩

theorem KeepsSelection.trans {u v w : Units} (h : KeepsSelection u v) (k : KeepsSelection v w) : KeepsSelection u w :=
  ⟨k.1.trans h.1, fun n => (k.2 n).trans (h.2 n)⟩

/-- What an update of one flow does to every flow. -/
theorem Act.getD_flow (d f : Nat) (g : Flow → Flow) (s : State) (n : Nat) :
    ((Act.flow d f g).run s).u.sch.flows.getD n Flow.idle =
      if 64 * d + f = n then g (s.flow d f) else s.u.sch.flows.getD n Flow.idle :=
  Store.getD_setD ..

theorem Act.keepsSelection_stamp (b : Bool) (d f : Nat) (s : State) :
    KeepsSelection s.u ((Act.stamp b d f).run s).u := by
  simp only [Act.stamp, Act.run_read]
  cases s.flowHead d f with
  | none => exact .refl _
  | some p =>
    simp only [Act.run_when]
    split
    · refine ⟨rfl, fun n => ?_⟩
      rw [Act.getD_flow]
      split
      · next h => rw [← h]; rfl
      · rfl
    · exact .refl _

theorem Act.virt_flow (d f : Nat) (g : Flow → Flow) (s : State) (n : Nat) :
    ((Act.flow d f g).run s).virt n = s.virt n := rfl

/-- What a move of one domain's virtual time leaves it at. -/
theorem Act.virt_move (d : Nat) (g : Nat → Nat) (s : State) :
    ((Act.sch fun x => { x with v := x.v.setD d 0 (g (x.v.getD d 0)) }).run s).virt d = g (s.virt d) :=
  (Store.getD_setD ..).trans (if_pos rfl)

/-- R328: a selected head stands among the packets selected, and V has moved to the later of itself and its finish. -/
theorem Act.run_selectHead (d f start fin : Nat) (s : State) :
    ((Act.selectHead d f start fin).run s).virt d = later (s.virt d) fin ∧
    start ∈ (((Act.selectHead d f start fin).run s).flow d f).selected := by
  obtain ⟨r, hr⟩ : ∃ r, (Act.sch fun x => { x with v := x.v.setD d 0 (later (x.v.getD d 0) fin) }).run s = r := ⟨_, rfl⟩
  obtain ⟨q, hq⟩ : ∃ q, (Act.flow d f fun w => { w with selected := w.selected ++ [start] }).run r = q := ⟨_, rfl⟩
  have hv : q.virt d = later (s.virt d) fin := by
    rw [← hq, Act.virt_flow, ← hr]
    exact Act.virt_move d (later · fin) s
  have hsel : start ∈ (q.flow d f).selected := by
    rw [← hq, State.flow, Act.getD_flow, if_pos rfl]
    simp
  obtain ⟨hstampv, hstampsel⟩ := Act.keepsSelection_stamp true d f q
  rw [Act.selectHead, Act.run_all_cons, hr, Act.run_all_cons, hq, Act.run_all_cons, Act.run_all_nil]
  exact ⟨(congrArg (Store.getD · d 0) hstampv).trans hv, by rw [State.flow, hstampsel]; exact hsel⟩

/-- The unit of an uplink port after an update of it. -/
theorem Act.port_ethUnit (p : EthPort) (f : EthUnit → EthUnit) (s : State) :
    ((Act.ethUnit p.idx f).run s).u.eth.port p.idx = f (s.u.eth.port p.idx) := by
  cases p <;> rfl

theorem Act.sch_ethUnit (p : Nat) (f : EthUnit → EthUnit) (s : State) :
    ((Act.ethUnit p f).run s).u.sch = s.u.sch := rfl

theorem Act.reg_ethUnit (p : Nat) (f : EthUnit → EthUnit) (s : State) (x : Nat) :
    ((Act.ethUnit p f).run s).reg x = s.reg x := rfl

/-- The sequence number a selected PLE datagram takes, 0 for a packet that is none (R460). -/
def State.nextRseq (s : State) (h : PacketInfo) : Nat :=
  match h.headend with
  | none => 0
  | some e => (s.u.eth.rseq.getD e 0 + 1) % 65536

/-- R332, R460: what a selection charges, numbers and records once its head is taken. -/
def Act.pickRest (s : State) (p c : Nat) (h : PacketInfo) : Act :=
  all [when (s.bit (SCH_ULk_CFG_SHAPE_EN (8 * p + c)))
      (sch fun x => { x with
        credit := x.credit.setD (8 * p + c) 0 (x.credit.getD (8 * p + c) 0 - 8000 * (h.acct : Int)) }),
    sch fun x => { x with robin := x.robin.setD p 0 (c + 1) },
    match h.headend with
    | none => .nop
    | some e => eth fun x => { x with rseq := x.rseq.setD e 0 (s.nextRseq h) },
    recordInput 0x0B]

theorem Act.run_uplinkTake (p c fin : Nat) (h : PacketInfo) (q : Nat) (s : State) :
    (Act.uplinkTake p c fin h q).run s =
      (Act.ethUnit p fun u => { u with chosen := some (q, h.start, s.nextRseq h) }).run
        ((Act.wrap (SCH_ULk_SENT (8 * p + c))).run ((Act.pickRest s p c h).run ((Act.selectHead p c h.start fin).run s))) :=
  rfl

/-- The rest of a selection leaves the registers, the virtual times and the flows. -/
theorem Act.run_pickRest (s : State) (p c : Nat) (h : PacketInfo) (t : State) :
    (∀ x, ((Act.pickRest s p c h).run t).reg x = t.reg x) ∧
    ((Act.pickRest s p c h).run t).u.sch.v = t.u.sch.v ∧
    ((Act.pickRest s p c h).run t).u.sch.flows = t.u.sch.flows := by
  have honly : (Act.pickRest s p c h).Only (fun _ => False) fun u v => v.sch.v = u.sch.v ∧ v.sch.flows = u.sch.flows := by
    have hrecord : (Act.recordInput 0x0B).Only (fun _ => False) fun u v => v.sch.v = u.sch.v ∧ v.sch.flows = u.sch.flows := by
      simp [Act.recordInput, Act.linkSend, Act.pair]
    unfold Act.pickRest
    cases h.headend <;> simp [Act.sch, Act.eth, hrecord]
  obtain ⟨hreg, hv, hflows⟩ := honly.run (fun _ => ⟨rfl, rfl⟩) (fun h k => ⟨k.1.trans h.1, k.2.trans h.2⟩) t
  exact ⟨fun x => hreg x id, hv, hflows⟩

/-- R331: a free port takes the packet of the class chosen, which V passes and the count of its class shows. -/
theorem completes_uplinkSelect {s : State} {port : EthPort} {c fin q : Nat} {h : PacketInfo}
    (hfree : s.portFree port = true) (hnone : (s.u.eth.port port.idx).chosen = none)
    (hchoice : s.uplinkChoice port.idx = some (c, fin)) (hhead : s.flowHead port.idx c = some h)
    (hqueue : s.classQueue port.idx c = some q) :
    Completes (.uplinkSelect port) s fun t =>
      ((t.u.eth.port port.idx).chosen.map fun x => (x.1, x.2.1)) = some (q, h.start) ∧
      h.start ∈ (t.flow port.idx c).selected ∧ t.virt port.idx = later (s.virt port.idx) fin ∧
      t.reg (SCH_ULk_SENT (8 * port.idx + c)) = s.reg (SCH_ULk_SENT (8 * port.idx + c)) + 1 := by
  refine ⟨_, rfl, ?_⟩
  simp only [hfree, hnone, Option.isNone_none, Bool.and_self, Act.run_when, if_true, hchoice, hhead, hqueue,
    Act.run_uplinkTake]
  obtain ⟨hvirt, hsel⟩ := Act.run_selectHead port.idx c h.start fin s
  obtain ⟨hreg, hv, hflows⟩ := Act.run_pickRest s port.idx c h ((Act.selectHead port.idx c h.start fin).run s)
  refine ⟨?_, ?_, ?_, ?_⟩
  · rw [Act.port_ethUnit]
    rfl
  · rw [State.flow, Act.sch_ethUnit, Act.wrap, Act.wrapBy_u, hflows]
    exact hsel
  · rw [State.virt, Act.sch_ethUnit, Act.wrap, Act.wrapBy_u, hv]
    exact hvirt
  · have hsent : fixedReg (SCH_ULk_SENT (8 * port.idx + c)) = none := by
      have hid : SCH_ULk_SENT (8 * port.idx + c) ≠ GEN_CHIP_ID := by simp only [SCH_ULk_SENT, GEN_CHIP_ID]; omega
      have hcaps : SCH_ULk_SENT (8 * port.idx + c) ≠ GEN_CAPS := by simp only [SCH_ULk_SENT, GEN_CAPS]; omega
      rw [fixedReg, if_neg hid, if_neg hcaps]
    have hselreg := (Act.Within.selectHead (d := port.idx) (f := c) (start := h.start) (fin := fin)).fits s
    rw [Act.reg_ethUnit]
    exact (Act.reg_wrapBy _ 1 _ hsent).trans (congrArg (· + 1) ((hreg _).trans (hselreg.reg _ rfl)))

/-- R332: what a microsecond does to a class's credit, shaped or not. -/
def State.creditNext (s : State) (k : Nat) : Int :=
  creditTick (s.credit k) (s.fld (SCH_ULk_SLOPE_IDLE_SLOPE k)) (s.classSending k || s.classVisible k)

/-- R332: the credits of a list of classes move where they are shaped. -/
theorem Act.credit_each (s : State) (l : List Nat) (t : State) (k : Nat) :
    ((Act.each l fun k => Act.when (s.bit (SCH_ULk_CFG_SHAPE_EN k))
      (Act.sch fun x => { x with credit := x.credit.setD k 0 (s.creditNext k) })).run t).credit k =
      if k ∈ l ∧ s.bit (SCH_ULk_CFG_SHAPE_EN k) = true then s.creditNext k else t.credit k := by
  induction l generalizing t with
  | nil => simp [Act.each]
  | cons n l ih =>
    simp only [Act.each, List.map_cons, Act.run_all_cons] at ih ⊢
    rw [ih]
    by_cases hk : k ∈ l ∧ s.bit (SCH_ULk_CFG_SHAPE_EN k) = true
    · simp [hk]
    · rw [if_neg hk, Act.run_when]
      by_cases hn : s.bit (SCH_ULk_CFG_SHAPE_EN n) = true
      · simp only [hn, if_true, State.credit, Act.sch, Act.run_units, Store.getD_setD]
        by_cases hnk : n = k
        · subst hnk
          simp [hn]
        · simp [hnk, Ne.symm hnk, hk]
      · have : ¬(k ∈ n :: l ∧ s.bit (SCH_ULk_CFG_SHAPE_EN k) = true) := by
          rintro ⟨hmem, hbit⟩
          rcases List.mem_cons.1 hmem with rfl | hmem
          · exact hn hbit
          · exact hk ⟨hmem, hbit⟩
        rw [if_neg hn, if_neg this]

/-- R332: a microsecond moves every shaped credit. -/
theorem completes_shaperTick {s : State} (hrun : s.bit TK_STATUS_RUNNING = true) (hmode : s.mode.inService = true)
    {k : Fin 16} (hk : s.bit (SCH_ULk_CFG_SHAPE_EN k) = true) :
    Completes .shaperTick s fun t => t.credit k = s.creditNext k := by
  refine ⟨_, rfl, ?_⟩
  simp only [hrun, hmode, Bool.and_self, Act.run_when, if_true, Act.creditTicks, Act.run_read]
  exact (Act.credit_each s (List.range 16) s k).trans (if_pos ⟨List.mem_range.2 k.isLt, hk⟩)

/-- R353: a domain marked for rebuild reads so. -/
theorem rebuilding_rebuildBit (d : Fin 4) (s : State) : ((Act.rebuildBit d true).run s).rebuilding d = true := by
  have hset : ((Act.rebuildBit d true).run s).fld ⟨SCH_STATUS, 1 + d, 1⟩ = 1 :=
    Act.fld_setF_same ⟨SCH_STATUS, 1 + d, 1⟩ 1 s rfl (by have := d.isLt; simp only; omega)
  generalize (Act.rebuildBit d true).run s = t at hset
  simp only [State.rebuilding, State.fld, fieldOf, SCH_STATUS_REBUILD, Nat.testBit_mod_two_pow, Nat.testBit_div_two_pow,
    d.isLt, decide_true, Bool.true_and] at hset ⊢
  rw [Nat.testBit_eq_decide_div_mod_eq, Nat.add_comm]
  simpa using hset

/-- R353: a first mismatch is counted; a second is counted as a fault and marks its domain. -/
theorem completes_residueMismatch (s : State) (domain : Fin 4) (second : Bool) :
    Completes (.residueMismatch domain second) s fun t =>
      (second = false → t.reg SCH_RESIDUE_FIX = satNext (s.reg SCH_RESIDUE_FIX)) ∧
      (second = true → t.rebuilding domain = true ∧ t.reg SCH_ARITH_FAULT = satNext (s.reg SCH_ARITH_FAULT)) := by
  refine ⟨_, rfl, ?_⟩
  cases second with
  | false => exact ⟨fun _ => Act.reg_sat (a := SCH_RESIDUE_FIX) rfl s, nofun⟩
  | true =>
    refine ⟨nofun, fun _ => ?_⟩
    simp only [if_true, Act.run_all_cons, Act.run_all_nil]
    obtain ⟨r, hr⟩ : ∃ r, (Act.raise 14 (leBytes 1 domain)).run ((Act.sat SCH_ARITH_FAULT).run s) = r := ⟨_, rfl⟩
    have hfault (t : State) (x : Nat) : ((Act.healthFault 8 7).run t).reg x = t.reg x := rfl
    rw [hr, State.rebuilding, Act.fld_raise rfl, Act.reg_raise rfl, hfault]
    refine ⟨rebuilding_rebuildBit domain r, ?_⟩
    rw [Act.rebuildBit, Act.reg_setF_ne _ _ _ (show SCH_STATUS ≠ SCH_ARITH_FAULT by decide), ← hr, Act.reg_raise rfl]
    exact Act.reg_sat (a := SCH_ARITH_FAULT) rfl s

/-- R358: the snapshot of the scheduler. -/
theorem completes_schSnapshotReq {s : State} {iface : HostIface} (hr : s.reaches iface = true)
    (hp : s.permits SCH_SNAP_REQ = true) (value : BitVec 32) :
    Completes (.schSnapshotReq iface value) s fun t =>
      t.reg SCH_SNAP_V_LO = BitVec.ofNat 32 (s.virt (fieldOf value 0 2)) ∧
      t.reg SCH_SNAP_V_HI = BitVec.ofNat 32 (s.virt (fieldOf value 0 2) / 2 ^ 32) ∧
      Nat.testBit (t.reg SCH_SNAP_REQ).toNat 31 = true := by
  refine ⟨_, rfl, ?_⟩
  rw [Act.schSnapReq, Act.run_permitted hr hp, Act.run_read]
  have hd := fieldOf_lt value 0 2
  have hf : (if fieldOf value 0 2 < 2 then fieldOf value 8 6 % 8 else fieldOf value 8 6) < 64 := by
    have := fieldOf_lt value 8 6
    split <;> omega
  have hbit (f : Nat) (hf : f < 64) : ((fieldOf value 0 2 + 256 * f + 2147483648) % 4294967296).testBit 31 = true := by
    rw [Nat.testBit_eq_decide_div_mod_eq, decide_eq_true_iff]
    omega
  simp only [Act.run_all_cons, Act.run_all_nil, Act.run_reg, State.reg_setReg, fixedReg, GEN_CHIP_ID, GEN_CAPS,
    SCH_SNAP_V_LO, SCH_SNAP_V_HI, SCH_SNAP_REQ, SCH_SNAP_F_LO, SCH_SNAP_F_HI, SCH_SNAP_C_LO, SCH_SNAP_C_HI, SCH_SNAP_TC,
    SCH_SNAP_TP]
  exact ⟨by simp, by simp, by simpa using hbit _ hf⟩

/-- Settles O29: a selection, a microsecond, a mismatch and a snapshot each by what its program does to the scheduler. -/
theorem scheduling : Obligations.Scheduling := by
  unfold Obligations.Scheduling
  refine ⟨fun _ _ _ _ _ _ hfree hnone hchoice hhead hqueue => completes_uplinkSelect hfree hnone hchoice hhead hqueue,
    fun _ _ hrun hmode hk => completes_shaperTick hrun hmode hk, completes_residueMismatch,
    fun _ _ value hr hp => completes_schSnapshotReq hr hp value, fun s iface hr hp => ⟨_, rfl, ?_⟩⟩
  rw [Act.run_permitted hr hp]
  obtain ⟨hlo, -, hsample, -, -⟩ := beatPosted_beatReq s
  exact ⟨by simp [Act.beatReq, State.reg_setReg, fixedReg, GEN_CHIP_ID, GEN_CAPS, BT_BEAT_REQ], hlo, hsample⟩

end Sys2Proof.Machine

namespace Sys2Proof.Machine

open Sys2Proof Sys2Proof.Reg

/-! ### The queue operations of an engine -/

theorem Act.Only.mono {R R' : Nat → Prop} {U U' : Units → Units → Prop} {a : Act} (h : a.Only R U)
    (hR : ∀ x, R x → R' x) (hU : ∀ u v, U u v → U' u v) : a.Only R' U' := by
  induction a with
  | nop => trivial
  | seq a b iha ihb => exact ⟨iha h.1, ihb h.2⟩
  | read k ih => exact fun s => ih s (h s)
  | reg a w => exact hR _ h
  | clear keep => exact fun a => hR a (h a)
  | mem a b => trivial
  | zero base len => trivial
  | units f => exact fun u => hU _ _ (h u)

/-- The words and the pointers of a queue. -/
def Queue.core (q : Queue) : List QWord × Word × Word × Word × Word × Word :=
  (q.words, q.wptr, q.cptr, q.rptr, q.mark, q.head)

namespace Queue

variable {q p : Queue} (h : q.core = p.core)
include h

theorem words_eq_of_core : q.words = p.words := congrArg (·.1) h
theorem wptr_eq_of_core : q.wptr = p.wptr := congrArg (·.2.1) h
theorem cptr_eq_of_core : q.cptr = p.cptr := congrArg (·.2.2.1) h
theorem rptr_eq_of_core : q.rptr = p.rptr := congrArg (·.2.2.2.1) h
theorem mark_eq_of_core : q.mark = p.mark := congrArg (·.2.2.2.2.1) h
theorem head_eq_of_core : q.head = p.head := congrArg (·.2.2.2.2.2) h

end Queue

/-- What follows a queue operation leaves: the engines, the beat of new work, the words and the pointers. -/
structure QueueFrame (u v : Units) : Prop where
  bt : ∃ l, v.bt = { u.bt with once := l }
  syncFrom : v.pair.syncFrom = u.pair.syncFrom
  liveAt : v.pair.liveAt = u.pair.liveAt
  switch : v.pair.switch = u.pair.switch
  takeover : v.pair.takeover = u.pair.takeover
  core : ∀ n, (v.env.queues.getD n Queue.unused).core = (u.env.queues.getD n Queue.unused).core

/-- The registers that the beat of new work, a completion and the count of aborted packets stand in, and the sequencer's
status. -/
def queueKept : List Nat := [GEN_MODE, PAIR_STATUS, PWR_STATUS, ENV_ABORTS, BT_STATUS]

/-- What follows a queue operation: it leaves `queueKept` and what `QueueFrame` names. -/
def Act.Follows (a : Act) : Prop := a.Only (· ∉ queueKept) QueueFrame

namespace QueueFrame

theorem refl (u : Units) : QueueFrame u u := ⟨⟨_, rfl⟩, rfl, rfl, rfl, rfl, fun _ => rfl⟩

theorem trans {u v w : Units} (h : QueueFrame u v) (k : QueueFrame v w) : QueueFrame u w where
  bt := by
    obtain ⟨l, hl⟩ := h.bt
    obtain ⟨m, hm⟩ := k.bt
    exact ⟨m, by rw [hm, hl]⟩
  syncFrom := k.syncFrom.trans h.syncFrom
  liveAt := k.liveAt.trans h.liveAt
  switch := k.switch.trans h.switch
  takeover := k.takeover.trans h.takeover
  core n := (k.core n).trans (h.core n)

/-- An update of other units. -/
theorem of_eq {u v : Units} (hbt : v.bt = u.bt) (hpair : v.pair = u.pair) (hq : v.env.queues = u.env.queues) :
    QueueFrame u v :=
  ⟨⟨u.bt.once, by rw [hbt]⟩, by rw [hpair], by rw [hpair], by rw [hpair], by rw [hpair], fun n => by rw [hq]⟩

theorem raises : RaisesIn (· ∉ queueKept) QueueFrame where
  status := by decide
  raised := by decide
  coalesced := by decide
  early := by decide
  sent := by decide
  prod r := by simp [queueKept, EVT_RINGr_PROD, GEN_MODE, PAIR_STATUS, PWR_STATUS, ENV_ABORTS, BT_STATUS]; omega
  lost r := by simp [queueKept, EVT_LOSTr, GEN_MODE, PAIR_STATUS, PWR_STATUS, ENV_ABORTS, BT_STATUS]; omega
  pending v := by simp [queueKept, MSIX_PENDING, GEN_MODE, PAIR_STATUS, PWR_STATUS, ENV_ABORTS, BT_STATUS]; omega
  evt _ _ := .of_eq rfl rfl rfl
  once _ l := ⟨⟨l, rfl⟩, rfl, rfl, rfl, rfl, fun _ => rfl⟩

end QueueFrame

namespace Act.Follows

theorem queue {n : Nat} {f : Queue → Queue} (h : ∀ q, (f q).core = q.core) : (Act.queue n f).Follows := by
  refine fun u => ⟨⟨_, rfl⟩, rfl, rfl, rfl, rfl, fun k => ?_⟩
  change (Store.getD (Store.setD ..) k Queue.unused).core = _
  rw [Store.getD_setD]
  split
  · next hk => rw [← hk, h]
  · rfl

theorem pagesUsed {f : Env → List Nat} : (Act.env fun e => { e with pagesUsed := f e }).Follows :=
  fun _ => .of_eq rfl rfl rfl

theorem raiseOnce {src key : Nat} {record : List Byte} : (Act.raiseOnce src key record).Follows :=
  Act.Only.raiseOnce QueueFrame.raises src key record

theorem raise {src : Nat} {record : List Byte} : (Act.raise src record).Follows :=
  Act.Only.raise QueueFrame.raises src record

theorem setF {f : Field} {v : Nat} (h : f.reg ∉ queueKept := by decide) : (Act.setF f v).Follows :=
  Act.Only.setF_iff.2 h

theorem writePage {n : Nat} {pg : Page} {old : Nat} {next : Option Nat} : (Act.writePage n pg old next).Follows := by
  refine fun s => Act.Only.all_iff.2 ?_
  simp only [List.forall_mem_cons, Act.Only.memBytes, List.not_mem_nil, false_implies, implies_true, and_true,
    Act.Only.each_iff]
  intro i _
  split <;> simp

theorem pagesFree {n : Nat} : (Act.pagesFree n).Follows :=
  fun _ => Act.Only.when_iff.2 fun _ => ⟨queue fun _ => rfl, pagesUsed⟩

theorem pagesFill {n k : Nat} : (Act.pagesFill n k).Follows := by
  induction k with
  | zero => trivial
  | succ k ih =>
    refine fun s => Act.Only.when_iff.2 fun _ => ?_
    dsimp only
    split
    · split
      · exact ⟨queue fun _ => rfl, writePage, ih, trivial⟩
      · split
        · trivial
        · exact ⟨pagesUsed, queue fun _ => rfl, writePage, ih, trivial⟩
    · split
      · trivial
      · exact ⟨pagesUsed, queue fun _ => rfl, ih, trivial⟩

theorem pagesFollow {n : Nat} : (Act.pagesFollow n).Follows :=
  ⟨pagesFree, fun _ => pagesFill, fun _ => setF, trivial⟩

theorem fcPins : Act.fcPins.Follows := by
  have hstate {lo v : Nat} : (Act.setF ⟨ENV_FC_STATE, lo, 1⟩ v).Follows := setF (show ENV_FC_STATE ∉ queueKept by decide)
  refine fun s => Act.Only.each_iff.2 fun g _ t => Act.Only.ite_iff.2 ⟨fun _ => ⟨?_, ?_⟩, fun _ => ?_⟩
  · exact Act.Only.when_iff.2 fun _ => hstate
  · exact fun _ => .of_eq rfl rfl rfl
  · refine Act.Only.when_iff.2 fun _ => ⟨hstate, Act.Only.when_iff.2 fun _ _ => .of_eq rfl rfl rfl,
      Act.Only.when_iff.2 fun _ => raiseOnce, trivial⟩

theorem ethUnit {p : Nat} {f : EthUnit → EthUnit} : (Act.ethUnit p f).Follows := fun _ => .of_eq rfl rfl rfl

theorem pauseEval {p : Nat} : (Act.pauseEval p).Follows :=
  fun _ => ⟨Act.Only.when_iff.2 fun _ => ethUnit, Act.Only.when_iff.2 fun _ =>
    ⟨Act.Only.setB_iff.2 (show ETH_STATUS ∉ queueKept by decide), ethUnit, Act.Only.when_iff.2 fun _ => raiseOnce,
      trivial⟩, trivial⟩

theorem fcFollow : Act.fcFollow.Follows := ⟨fun _ => setF, fcPins, pauseEval, pauseEval, trivial⟩

/-- R313: judging FC and following with pages, pins and PAUSE leaves words and pointers. -/
theorem queueDone {n : Nat} : (Act.queueDone n).Follows := ⟨queue fun _ => rfl, pagesFollow, fcFollow, trivial⟩

theorem queueLog {n op : Nat} : (Act.queueLog n op).Follows :=
  fun _ _ => Act.Only.when_iff.2 fun _ _ => ⟨⟨_, rfl⟩, rfl, rfl, rfl, rfl, fun _ => rfl⟩

theorem uplinkLog {n : Nat} {p : PacketInfo} : (Act.uplinkLog n p).Follows :=
  fun _ => Act.Only.when_iff.2 fun _ _ => Act.Only.when_iff.2 fun _ _ => ⟨⟨_, rfl⟩, rfl, rfl, rfl, rfl, fun _ => rfl⟩

theorem poisonCounts {n k : Nat} : (Act.poisonCounts n k).Follows :=
  Act.Only.when_iff.2 fun _ => ⟨Act.Only.satBy_iff.2 (by decide), queue fun _ => rfl, raiseOnce, trivial⟩

/-- What a program that follows a queue operation leaves. -/
theorem run {a : Act} (h : a.Follows) (s : State) :
    (∀ x ∈ queueKept, (a.run s).reg x = s.reg x) ∧ QueueFrame s.u (a.run s).u :=
  have ⟨hreg, hu⟩ := Act.Only.run h .refl .trans s
  ⟨fun x hx => hreg x (not_not_intro hx), hu⟩

end Act.Follows

/-- A queue operation goes on in the beat and for the engines it was issued in. -/
structure SameWork (s t : State) : Prop where
  mode : t.reg GEN_MODE = s.reg GEN_MODE
  pairStatus : t.reg PAIR_STATUS = s.reg PAIR_STATUS
  pwrStatus : t.reg PWR_STATUS = s.reg PWR_STATUS
  units : t.u.bt.engines = s.u.bt.engines ∧ t.u.bt.beat = s.u.bt.beat
  pair : t.u.pair.syncFrom = s.u.pair.syncFrom ∧ t.u.pair.liveAt = s.u.pair.liveAt ∧
    t.u.pair.switch = s.u.pair.switch ∧ t.u.pair.takeover = s.u.pair.takeover

namespace SameWork

theorem trans {s t r : State} (h : SameWork s t) (k : SameWork t r) : SameWork s r where
  mode := k.mode.trans h.mode
  pairStatus := k.pairStatus.trans h.pairStatus
  pwrStatus := k.pwrStatus.trans h.pwrStatus
  units := ⟨k.units.1.trans h.units.1, k.units.2.trans h.units.2⟩
  pair := ⟨k.pair.1.trans h.pair.1, k.pair.2.1.trans h.pair.2.1, k.pair.2.2.1.trans h.pair.2.2.1,
    k.pair.2.2.2.trans h.pair.2.2.2⟩

theorem of_only {a : Act} {R : Nat → Prop} (h : a.Only R QueueFrame)
    (hR : ∀ x ∈ [GEN_MODE, PAIR_STATUS, PWR_STATUS], ¬R x) (s : State) : SameWork s (a.run s) := by
  obtain ⟨hreg, hu⟩ := h.run .refl .trans s
  obtain ⟨l, hl⟩ := hu.bt
  exact ⟨hreg _ (hR _ (by decide)), hreg _ (hR _ (by decide)), hreg _ (hR _ (by decide)),
    by rw [hl]; exact ⟨rfl, rfl⟩, hu.syncFrom, hu.liveAt, hu.switch, hu.takeover⟩

theorem queue (n : Nat) (f : Queue → Queue) (s : State) : SameWork s ((Act.queue n f).run s) :=
  ⟨rfl, rfl, rfl, ⟨rfl, rfl⟩, rfl, rfl, rfl, rfl⟩

theorem of_follows {a : Act} (h : a.Follows) (s : State) : SameWork s (a.run s) :=
  of_only h (by decide) s

variable {s t : State} (h : SameWork s t)
include h

theorem engine (n : Nat) : t.engine n = s.engine n := by rw [State.engine, h.units.1, State.engine]

theorem changing : t.bit PWR_STATUS_CHANGING = s.bit PWR_STATUS_CHANGING := by
  simp only [State.bit, State.fld, show PWR_STATUS_CHANGING.reg = PWR_STATUS from rfl, h.pwrStatus]

theorem workBeat : t.workBeat = s.workBeat := by
  obtain ⟨hsync, hlive, hswitch, htakeover⟩ := h.pair
  have hpstate : t.pstate = s.pstate := by
    simp only [State.pstate, State.fld, show PAIR_STATUS_PSTATE.reg = PAIR_STATUS from rfl, h.pairStatus]
  have hpaired : t.bit GEN_MODE_PAIR_CFG = s.bit GEN_MODE_PAIR_CFG := by
    simp only [State.bit, State.fld, show GEN_MODE_PAIR_CFG.reg = GEN_MODE from rfl, h.mode]
  simp only [State.workBeat, State.shadows, State.live, hpstate, hpaired, h.units.2, hsync, hlive, hswitch, htakeover]
  rfl

end SameWork

/-- The engine that takes a slot. -/
theorem Act.engine_take (pe thread k : Nat) (s : State) :
    ((Act.engine pe (Engine.take · k thread)).run s).engine pe = (s.engine pe).take k thread :=
  (Act.engine_engine pe (Engine.take · k thread) s pe).trans (if_pos rfl)

/-- The completion of a queue operation an engine carries out in its step. -/
def Act.queueEnd (pe : Fin 16) (thread : Fin 4) (k status flags result : Nat) : Act := .read fun s =>
  completion pe ⟨tagOf pe k, thread, 4, status, flags, s.workBeat % 65536, result⟩

/-- R51, R302: a queue operation of an engine that can issue, has a free slot and holds that end of the queue. -/
theorem Act.run_queueOp_spool {s : State} {pe : Fin 16} {thread : Fin 4} {k : Nat} {queue : Nat} {own : Queue → Nat}
    (hc : s.canIssue pe = true) (hf : (s.engine pe).freeSlot = some k)
    (hp : s.portIs (own (s.queue queue)) (.spool pe thread) = true) (work : (Nat → Nat → Nat → Act) → Act) :
    (Act.queueOp (.spool pe thread) queue own work).run s =
      (Act.engineStat pe).run
        ((work (Act.queueEnd pe thread k)).run ((Act.engine pe (Engine.take · k thread)).run s)) := by
  simp only [Act.queueOp, Act.run_read, hp, if_true, Act.issueNow]
  exact Act.run_issueWith hc hf thread _

/-- An engine's queue operation has ended: its completion stands in the ring, the queues are `r`'s and so is every
register but those that show engines. -/
theorem run_queueEnd {s r : State} {pe : Fin 16} {thread : Fin 4} {k : Nat} (flags result : Nat)
    (hc : s.canIssue pe = true) (h : SameWork ((Act.engine pe (Engine.take · k thread)).run s) r) :
    let t := (Act.engineStat pe).run ((Act.queueEnd pe thread k cplOk flags result).run r)
    (t.engine pe).ring = (s.engine pe).ring ++ [⟨tagOf pe k, thread, 4, cplOk, flags, s.workBeat % 65536, result⟩] ∧
    (∀ n, t.queue n = r.queue n) ∧ t.reg ENV_ABORTS = r.reg ENV_ABORTS := by
  have hchanging : r.bit PWR_STATUS_CHANGING = false := by
    have hs : s.bit PWR_STATUS_CHANGING = false := by
      simp only [State.canIssue, Bool.and_eq_true, Bool.not_eq_true'] at hc
      exact hc.1.1.1.1.2
    exact h.changing.trans hs
  have hring : (r.engine pe).ring = (s.engine pe).ring := by
    rw [h.engine, Act.engine_take]
    rfl
  have hbeat : r.workBeat = s.workBeat := h.workBeat.trans (State.workBeat_engine ..)
  refine ⟨?_, fun n => ?_, ?_⟩
  · rw [Act.engine_engineStat, Act.queueEnd, Act.run_read, Act.ring_completion hchanging, hring, hbeat]
  · rw [State.queue, Act.engineStat_u, Act.queueEnd, Act.run_read, Act.run_completion hchanging]
    rfl
  · have hstat (t : State) : ((Act.engineStat pe).run t).reg ENV_ABORTS = t.reg ENV_ABORTS :=
      (Act.Within.engineStat.fits t).reg ENV_ABORTS rfl
    rw [hstat]
    exact (Act.Within.completion.fits r).reg ENV_ABORTS rfl

/-- A queue after an update of it. -/
theorem queue_queue_same (n : Nat) (f : Queue → Queue) (s : State) : ((Act.queue n f).run s).queue n = f (s.queue n) :=
  (Store.getD_setD ..).trans (if_pos rfl)

theorem Act.Follows.core {a : Act} (h : a.Follows) (s : State) (n : Nat) :
    ((a.run s).queue n).core = (s.queue n).core := (h.run s).2.core n

/-- R303: a valid packet of one word, where the queue has room, is stored and committed. -/
theorem Queue.enqueue_word {q : Queue} {x : WordIn} {v : QWord} (hv : QWord.of x.data x.tag.toNat x.par = v)
    (hvalid : v.valid = true) (hfirst : v.first = true) (hlast : v.last = true) (hpar : v.parOk = true)
    (hq : q.discarding = false) (hopen : q.wptr = q.cptr) (hroom : (q.wptr - q.headB).toNat < q.limit)
    (c : CommitInfo) : ∃ p : Queue, q.enqueue c [x] = ⟨p, 1, 0, 0, 0, 0, 0, 0, false⟩ ∧
      p.words = q.words ++ [v] ∧ p.wptr = q.wptr + 1 ∧ p.cptr = q.wptr + 1 := by
  refine ⟨({ q with wptr := q.wptr + 1, words := q.words ++ [v], openBy := some (c.engine, c.beat) } : Queue).commit c,
    ?_, rfl, rfl, rfl⟩
  rw [hopen, ← Nat.not_le] at hroom
  simp [Queue.enqueue, Enq.word, Enq.store, hv, hvalid, hfirst, hlast, hpar, hq, hopen, hroom, -BitVec.toNat_sub]

/-- R303, R311: the counts and events of an enqueue leave what a queue operation works in. -/
theorem only_enqCounts (n : Nat) (e : Enq) :
    (Act.enqCounts n e).Only (· ∉ [GEN_MODE, PAIR_STATUS, PWR_STATUS, BT_STATUS]) QueueFrame := by
  have hraise {a : Act} (h : a.Follows) : a.Only (· ∉ [GEN_MODE, PAIR_STATUS, PWR_STATUS, BT_STATUS]) QueueFrame :=
    h.mono (fun x hx hx' => hx (List.Subset.trans (by decide) (List.Subset.refl queueKept) hx')) fun _ _ h => h
  have hclass (u : Units) (k : Nat) : QueueFrame u { u with pair := { u.pair with lastFault := k } } :=
    ⟨⟨_, rfl⟩, rfl, rfl, rfl, rfl, fun _ => rfl⟩
  refine ⟨Act.Only.satBy_iff.2 (by decide), Act.Only.satBy_iff.2 (by decide), Act.Only.satBy_iff.2 (by decide),
    Act.Only.wrapBy_iff.2 (by decide), Act.Only.when_iff.2 fun _ u => hclass u 4,
    Act.Only.each_iff.2 fun _ _ => hraise .raise, Act.Only.when_iff.2 fun _ => hraise .raiseOnce,
    Act.Only.each_iff.2 fun _ _ => hraise .raise, trivial⟩

theorem Act.run_enqueue (n : Nat) (c : CommitInfo) (ws : List WordIn) (k : Enq → Act) {s : State} {e : Enq}
    (he : (s.queue n).enqueue c ws = e) : (Act.enqueue n c ws k).run s =
      (k e).run ((Act.queueDone n).run ((Act.enqCounts n e).run
        ((Act.each (e.q.packets.drop (s.queue n).packets.length) fun p =>
          .seq (Act.queueLog n 1) (Act.uplinkLog n p)).run ((Act.queue n fun _ => e.q).run s)))) := by
  rw [Act.enqueue, Act.run_read, he]
  dsimp only
  rw [Act.run_all_cons, Act.run_all_cons, Act.run_all_cons, Act.run_all_cons, Act.run_all_cons, Act.run_all_nil]

/-- R303, R313: storing the one word of a packet, and everything that follows it. -/
theorem run_enqueue_word {s : State} {n : Nat} {x : WordIn} {v : QWord} (hv : QWord.of x.data x.tag.toNat x.par = v)
    (hvalid : v.valid = true) (hfirst : v.first = true) (hlast : v.last = true) (hpar : v.parOk = true)
    (hq : (s.queue n).discarding = false) (hopen : (s.queue n).wptr = (s.queue n).cptr)
    (hroom : ((s.queue n).wptr - (s.queue n).headB).toNat < (s.queue n).limit) (c : CommitInfo) (k : Enq → Act) :
    ∃ p r, (Act.enqueue n c [x] k).run s = (k ⟨p, 1, 0, 0, 0, 0, 0, 0, false⟩).run r ∧ SameWork s r ∧
      (r.queue n).words = (s.queue n).words ++ [v] ∧ (r.queue n).wptr = (s.queue n).wptr + 1 ∧
      (r.queue n).cptr = (s.queue n).wptr + 1 := by
  obtain ⟨p, he, hwords, hwptr, hcptr⟩ := Queue.enqueue_word hv hvalid hfirst hlast hpar hq hopen hroom c
  rw [Act.run_enqueue n c [x] k he]
  have hlogs : (Act.each (p.packets.drop (s.queue n).packets.length) fun w =>
      .seq (Act.queueLog n 1) (Act.uplinkLog n w)).Follows := Act.Only.each_iff.2 fun _ _ => ⟨Act.Follows.queueLog, Act.Follows.uplinkLog⟩
  have hcounts := only_enqCounts n ⟨p, 1, 0, 0, 0, 0, 0, 0, false⟩
  have hsame := queue_queue_same n (fun _ => p) s
  have hstored := SameWork.queue n (fun _ => p) s
  generalize (Act.queue n fun _ => p).run s = a at *
  have hlogged := SameWork.of_follows hlogs a
  have hlogcore := hlogs.core a n
  generalize (Act.each (p.packets.drop (s.queue n).packets.length) fun w =>
    .seq (Act.queueLog n 1) (Act.uplinkLog n w)).run a = b at *
  have hcounted := SameWork.of_only hcounts (by decide) b
  have hcountcore := (hcounts.run .refl .trans b).2.core n
  generalize (Act.enqCounts n ⟨p, 1, 0, 0, 0, 0, 0, 0, false⟩).run b = d at *
  have hdone := Act.Follows.queueDone (n := n)
  have hcore : (((Act.queueDone n).run d).queue n).core = p.core :=
    (hdone.core d n).trans (hcountcore.trans (hlogcore.trans (congrArg Queue.core hsame)))
  refine ⟨p, _, rfl, ((hstored.trans hlogged).trans hcounted).trans (.of_follows hdone d), ?_⟩
  exact ⟨(Queue.words_eq_of_core hcore).trans hwords, (Queue.wptr_eq_of_core hcore).trans hwptr,
    (Queue.cptr_eq_of_core hcore).trans hcptr⟩

theorem completes_enq_engine {s : State} {pe : Fin 16} {thread : Fin 4} {k : Nat} {queue : Fin 4096} {x : WordIn}
    {v : QWord} (hc : s.canIssue pe = true) (hf : (s.engine pe).freeSlot = some k)
    (hp : s.portIs ((s.queue queue).producer) (.spool pe thread) = true)
    (hv : QWord.of x.data x.tag.toNat x.par = v)
    (hvalid : v.valid = true) (hfirst : v.first = true) (hlast : v.last = true) (hpar : v.parOk = true)
    (hq : (s.queue queue).discarding = false) (hopen : (s.queue queue).wptr = (s.queue queue).cptr)
    (hroom : ((s.queue queue).wptr - (s.queue queue).headB).toNat < (s.queue queue).limit) (next : Bool)
    (headend : Fin 16) :
    Completes (.enq (.spool pe thread) queue next headend [x]) s fun t =>
      (t.queue queue).words = (s.queue queue).words ++ [v] ∧ (t.queue queue).wptr = (s.queue queue).wptr + 1 ∧
      (t.queue queue).cptr = (s.queue queue).wptr + 1 ∧
      (t.engine pe).ring = (s.engine pe).ring ++ [⟨tagOf pe k, thread, 4, cplOk, 0, s.workBeat % 65536, 1⟩] := by
  refine ⟨_, rfl, ?_⟩
  rw [Act.run_queueOp_spool hc hf hp, Act.run_read]
  obtain ⟨p, r, hr, hwork, hwords, hwptr, hcptr⟩ := run_enqueue_word (s := (Act.engine pe (Engine.take · k thread)).run s)
    hv hvalid hfirst hlast hpar hq hopen hroom _ _
  rw [hr]
  obtain ⟨hring, hqueue, -⟩ := run_queueEnd 0 1 hc hwork
  refine ⟨?_, ?_, ?_, hring⟩
  · exact (congrArg Queue.words (hqueue queue)).trans hwords
  · exact (congrArg Queue.wptr (hqueue queue)).trans hwptr
  · exact (congrArg Queue.cptr (hqueue queue)).trans hcptr

/-- What an engine's queue operation comes to: an update of the queue, what follows it, and the completion. -/
theorem queueEnd_of_follows {s : State} {pe : Fin 16} {thread : Fin 4} {k : Nat} (hc : s.canIssue pe = true) {a : Act}
    (h : a.Follows) (n : Nat) (f : Queue → Queue) (flags result : Nat) :
    let t := (Act.engineStat pe).run ((Act.queueEnd pe thread k cplOk flags result).run
      (a.run ((Act.queue n f).run ((Act.engine pe (Engine.take · k thread)).run s))))
    (t.queue n).core = (f (s.queue n)).core ∧ t.reg ENV_ABORTS = s.reg ENV_ABORTS ∧
    (t.engine pe).ring = (s.engine pe).ring ++ [⟨tagOf pe k, thread, 4, cplOk, flags, s.workBeat % 65536, result⟩] := by
  obtain ⟨hring, hqueue, haborts⟩ := run_queueEnd flags result hc ((SameWork.queue n f _).trans (.of_follows h _))
  refine ⟨?_, ?_, hring⟩
  · exact (congrArg Queue.core (hqueue n)).trans ((h.core _ n).trans (congrArg Queue.core (queue_queue_same n f _)))
  · exact haborts.trans ((h.run _).1 ENV_ABORTS (by decide))

section

variable {s : State} {pe : Fin 16} {thread : Fin 4} {k : Nat} {queue : Fin 4096}

theorem completes_mark_engine (hc : s.canIssue pe = true) (hf : (s.engine pe).freeSlot = some k)
    (hp : s.portIs ((s.queue queue).consumer) (.spool pe thread) = true) :
    Completes (.mark (.spool pe thread) queue) s fun t =>
      (t.queue queue).mark = (s.queue queue).rptr ∧
      (t.engine pe).ring = (s.engine pe).ring ++ [⟨tagOf pe k, thread, 4, cplOk, 0, s.workBeat % 65536, 0⟩] := by
  refine ⟨_, rfl, ?_⟩
  rw [Act.run_queueOp_spool hc hf hp, Act.run_all_cons, Act.run_all_cons, Act.run_all_cons, Act.run_all_nil]
  obtain ⟨hcore, -, hring⟩ := queueEnd_of_follows (thread := thread) (k := k) hc .queueDone queue
    (fun q => { q with mark := q.rptr }) 0 0
  exact ⟨Queue.mark_eq_of_core hcore, hring⟩

theorem completes_rewind_engine (hc : s.canIssue pe = true) (hf : (s.engine pe).freeSlot = some k)
    (hp : s.portIs ((s.queue queue).consumer) (.spool pe thread) = true) :
    Completes (.rewind (.spool pe thread) queue) s fun t =>
      (t.queue queue).rptr = (s.queue queue).mark ∧
      (t.engine pe).ring = (s.engine pe).ring ++ [⟨tagOf pe k, thread, 4, cplOk, 0, s.workBeat % 65536, 0⟩] := by
  refine ⟨_, rfl, ?_⟩
  rw [Act.run_queueOp_spool hc hf hp, Act.run_all_cons, Act.run_all_cons, Act.run_all_cons, Act.run_all_nil]
  obtain ⟨hcore, -, hring⟩ := queueEnd_of_follows (thread := thread) (k := k) hc .queueDone queue
    (fun q => { q with rptr := q.mark }) 0 0
  exact ⟨Queue.rptr_eq_of_core hcore, hring⟩

theorem completes_release_engine (hc : s.canIssue pe = true) (hf : (s.engine pe).freeSlot = some k)
    (hp : s.portIs ((s.queue queue).consumer) (.spool pe thread) = true) :
    Completes (.release (.spool pe thread) queue) s fun t =>
      (t.queue queue).head = (s.queue queue).rptr ∧ (t.queue queue).mark = (s.queue queue).rptr ∧
      (t.engine pe).ring = (s.engine pe).ring ++ [⟨tagOf pe k, thread, 4, cplOk, 0, s.workBeat % 65536, 0⟩] := by
  refine ⟨_, rfl, ?_⟩
  rw [Act.run_queueOp_spool hc hf hp, Act.run_seq, Act.releaseQueue, Act.run_all_cons]
  have hlog : (Act.all [Act.queueLog queue 6, Act.queueDone queue]).Follows :=
    ⟨Act.Follows.queueLog, Act.Follows.queueDone, trivial⟩
  obtain ⟨hcore, -, hring⟩ := queueEnd_of_follows (thread := thread) (k := k) hc hlog queue Queue.release 0 0
  exact ⟨Queue.head_eq_of_core hcore, Queue.mark_eq_of_core hcore, hring⟩

/-- R302: the open packet dropped, and counted among the aborts. -/
theorem sameWork_countAbort (n : Nat) (t : State) :
    SameWork t ((Act.wrap ENV_ABORTS).run ((Act.queue n fun q => q.abort.countAbort).run t)) :=
  (SameWork.queue ..).trans (.of_only (R := (· = ENV_ABORTS)) (Act.Only.wrap_iff.2 rfl) (by decide) _)

theorem completes_abort_engine (hc : s.canIssue pe = true) (hf : (s.engine pe).freeSlot = some k)
    (hp : s.portIs ((s.queue queue).producer) (.spool pe thread) = true)
    (hopen : (s.queue queue).wptr ≠ (s.queue queue).cptr) :
    Completes (.abort (.spool pe thread) queue) s fun t =>
      (t.queue queue).wptr = (s.queue queue).cptr ∧ t.reg ENV_ABORTS = s.reg ENV_ABORTS + 1 ∧
      (t.engine pe).ring = (s.engine pe).ring ++ [⟨tagOf pe k, thread, 4, cplOk, 0, s.workBeat % 65536, 0⟩] := by
  refine ⟨_, rfl, ?_⟩
  have hqueue (t : State) (n : Nat) : ((Act.wrap ENV_ABORTS).run t).queue n = t.queue n := by
    simp [State.queue, Act.wrap]
  have hlog : (Act.seq (Act.queueLog queue 2) (Act.queueDone queue)).Follows :=
    ⟨Act.Follows.queueLog, Act.Follows.queueDone⟩
  rw [Act.run_queueOp_spool hc hf hp, Act.run_read]
  dsimp only
  obtain ⟨t, ht⟩ : ∃ t, (Act.engine pe (Engine.take · k thread)).run s = t := ⟨_, rfl⟩
  have hcptr : (t.queue queue).cptr = (s.queue queue).cptr := ht ▸ rfl
  have hopen' : (t.queue queue).wptr ≠ (t.queue queue).cptr := ht ▸ hopen
  rw [ht, Act.run_all_cons, Act.run_when, if_pos (by simpa using hopen'), Act.run_seq, Act.run_all_cons, Act.run_all_cons,
    Act.run_all_cons, Act.run_all_nil]
  obtain ⟨r, hr⟩ : ∃ r, (Act.wrap ENV_ABORTS).run ((Act.queue queue fun q => q.abort.countAbort).run t) = r := ⟨_, rfl⟩
  have hwork : SameWork t r := hr ▸ sameWork_countAbort queue t
  obtain ⟨hring, hq, haborts⟩ := run_queueEnd (s := s) (pe := pe) (thread := thread) (k := k) 0 0 hc
    (ht ▸ hwork.trans (.of_follows hlog r))
  have hcore := hlog.core r queue
  have hreg := (hlog.run r).1 ENV_ABORTS (by decide)
  rw [Act.run_seq] at hring hq haborts hcore hreg
  rw [hr]
  refine ⟨?_, ?_, hring⟩
  · refine (congrArg Queue.wptr (hq queue)).trans ((Queue.wptr_eq_of_core hcore).trans ?_)
    rw [← hr]
    rw [hqueue, queue_queue_same, ← hcptr]
    rfl
  · refine haborts.trans (hreg.trans ?_)
    have hqueued : ((Act.queue queue fun q => q.abort.countAbort).run t).reg ENV_ABORTS = s.reg ENV_ABORTS := ht ▸ rfl
    rw [← hr, Act.wrap, Act.reg_wrapBy _ _ _ rfl, hqueued]
    rfl

/-- R312: words none of which is poisoned make no consumer discard. -/
theorem poisonScan_clean {ws : List QWord} (h : ws.all (fun x => !x.poison) = true) :
    poisonScan ws false = (0, false) := by
  induction ws with
  | nil => rfl
  | cons w ws ih =>
    simp only [List.all_cons, Bool.and_eq_true, Bool.not_eq_true'] at h
    obtain ⟨hw, hws⟩ := h
    simp [poisonScan, hw, ih hws]

/-- A queue whose words `ws` at an offset a consumer has read (R305). -/
def Queue.moved (ws : List QWord) (at_ : Nat) (q : Queue) : Queue :=
  { q with rptr := q.rptr + BitVec.ofNat 32 ws.length, skipping := false,
           words := q.words.take at_ ++ ws ++ q.words.drop (at_ + ws.length) }

theorem upsetWords_nil {α : Type} (ws : List QWord) : upsetWords ws ([] : List (Option α)) = ws := by
  cases ws <;> rfl

theorem Act.Follows.sram {pe a : Nat} {bs : List Byte} : (Act.sram pe a bs).Follows := fun _ => .of_eq rfl rfl rfl

theorem completes_deq_engine (hc : s.canIssue pe = true) (hf : (s.engine pe).freeSlot = some k)
    (hp : s.portIs ((s.queue queue).consumer) (.spool pe thread) = true) {n : Fin 16} {stop : Bool}
    (hclean : ((s.queue queue).readable (n.val + 1) stop).all (fun x => !x.poison) = true)
    (hskip : (s.queue queue).skipping = false) (out : BitVec 18) :
    Completes (.deq (.spool pe thread) queue n stop out []) s fun t =>
      (t.queue queue).rptr =
        (s.queue queue).rptr + BitVec.ofNat 32 ((s.queue queue).readable (n.val + 1) stop).length ∧
      (t.engine pe).ring = (s.engine pe).ring ++ [⟨tagOf pe k, thread, 4, cplOk, 1, s.workBeat % 65536,
        ((s.queue queue).readable (n.val + 1) stop).length⟩] := by
  refine ⟨_, rfl, ?_⟩
  rw [Act.run_queueOp_spool hc hf hp, Act.run_read]
  obtain ⟨t, ht⟩ : ∃ t, (Act.engine pe (Engine.take · k thread)).run s = t := ⟨_, rfl⟩
  have hq : t.queue queue = s.queue queue := ht ▸ rfl
  rw [ht, hq]
  dsimp only
  simp only [State.upsetsMet, upsetWords_nil, hskip, poisonScan_clean hclean, List.take_nil,
    show Nat.blt 0 0 = false from rfl, Bool.or_false, Bool.false_eq_true, if_false, Nat.add_zero]
  generalize (s.queue queue).readable (n.val + 1) stop = ws
  generalize sramWords (ws ++ List.replicate (n.val + 1 - ws.length) QWord.notValid) = bs
  have hfollow : (Act.all [Act.each [] (Act.upsetCounts queue), Act.poisonCounts queue 0,
      Act.when (ws.length == 0) (Act.wrap ENV_EMPTY_READS), Act.queueDone queue, Act.sram pe out.toNat bs]).Follows :=
    ⟨trivial, Act.Follows.poisonCounts, Act.Only.when_iff.2 fun _ => Act.Only.wrap_iff.2 (by decide),
      Act.Follows.queueDone, Act.Follows.sram, trivial⟩
  obtain ⟨hcore, -, hring⟩ := queueEnd_of_follows (thread := thread) (k := k) hc hfollow queue
    (Queue.moved ws ((s.queue queue).off (s.queue queue).rptr)) 1 ws.length
  rw [Act.run_all_cons, Act.run_all_cons, Act.run_all_cons, Act.run_all_cons, Act.run_all_cons, Act.run_all_nil, ht]
    at hcore hring
  rw [Act.run_all_cons, Act.run_all_cons, Act.run_all_cons, Act.run_all_cons, Act.run_all_cons, Act.run_all_cons,
    Act.run_all_nil, Act.run_seq]
  exact ⟨Queue.rptr_eq_of_core hcore, hring⟩

end

/-- Settles O26: each operation is its update of the queue, programs that leave its words and pointers, and the
completion of the tag it took. -/
theorem queueOperationsOfEngines : Obligations.QueueOperationsOfEngines := by
  unfold Obligations.QueueOperationsOfEngines
  exact ⟨
    fun _ _ _ _ _ next headend _ _ hc hf hp hv hvalid hfirst hlast hpar hq hopen hroom =>
      completes_enq_engine hc hf hp hv hvalid hfirst hlast hpar hq hopen hroom next headend,
    fun _ _ _ _ _ hc hf hp hopen => completes_abort_engine hc hf hp hopen,
    fun _ _ _ _ _ _ _ out hc hf hp hclean hskip => completes_deq_engine hc hf hp hclean hskip out,
    fun _ _ _ _ _ hc hf hp => completes_mark_engine hc hf hp,
    fun _ _ _ _ _ hc hf hp => completes_rewind_engine hc hf hp,
    fun _ _ _ _ _ hc hf hp => completes_release_engine hc hf hp⟩

end Sys2Proof.Machine

namespace Sys2Proof.Machine

open Sys2Proof Sys2Proof.Reg

/-! ### What a boundary and a commit window leave

Once a beat is open, nothing that a boundary does writes its number or the sample it began at; and nothing that a commit
window does writes BT_STATUS. Programs that both run are shown to leave both. -/

/-- The beat in progress is the one it was: its number, the numbers used, the sample stamped at its start. -/
structure SameBeat (u v : Units) : Prop where
  beat : v.bt.beat = u.bt.beat
  used : v.bt.used = u.bt.used
  sample : v.bt.sample = u.bt.sample

theorem SameBeat.refl (u : Units) : SameBeat u u := ⟨rfl, rfl, rfl⟩

theorem SameBeat.trans {u v w : Units} (h : SameBeat u v) (k : SameBeat v w) : SameBeat u w :=
  ⟨k.beat.trans h.beat, k.used.trans h.used, k.sample.trans h.sample⟩

/-- A program within a beat: no update of it makes another beat of the one in progress and, where `w` holds, it does
not write BT_STATUS. -/
def Act.Tame (w : Bool) (a : Act) : Prop := a.Only (fun x => w = true → x ≠ BT_STATUS) SameBeat

namespace Act.Tame

variable {w : Bool}

theorem nop : Tame w .nop := trivial

theorem seq {a b : Act} (ha : Tame w a) (hb : Tame w b) : Tame w (.seq a b) := ⟨ha, hb⟩

theorem read {k : State → Act} (h : ∀ s, Tame w (k s)) : Tame w (.read k) := h

theorem ite {c : Prop} [Decidable c] {a b : Act} (ha : Tame w a) (hb : Tame w b) : Tame w (if c then a else b) := by
  split <;> assumption

theorem when {c : Bool} {a : Act} (h : Tame w a) : Tame w (Act.when c a) := ite h nop

theorem all {l : List Act} (h : l.Forall (Tame w)) : Tame w (Act.all l) :=
  Act.Only.all_iff.2 (List.forall_iff_forall_mem.1 h)

theorem each {α : Type} {l : List α} {f : α → Act} (h : ∀ x, Tame w (f x)) : Tame w (Act.each l f) :=
  Act.Only.each_iff.2 fun x _ => h x

/-- A register that is not BT_STATUS. -/
def Other (a : Nat) : Prop := Nat.beq a BT_STATUS = false

theorem Other.ne {a : Nat} (h : Other a) : a ≠ BT_STATUS := Nat.ne_of_beq_eq_false h

theorem reg {a : Nat} {v : Word} (h : Other a) : Tame w (.reg a v) := fun _ => h.ne

theorem setF {f : Field} {v : Nat} (h : Other f.reg) : Tame w (Act.setF f v) := fun _ => reg h
theorem setB {f : Field} {b : Bool} (h : Other f.reg) : Tame w (Act.setB f b) := setF h
theorem wrapBy {a n : Nat} (h : Other a) : Tame w (Act.wrapBy a n) := fun _ => reg h
theorem wrap {a : Nat} (h : Other a) : Tame w (Act.wrap a) := wrapBy h
theorem satBy {a n : Nat} (h : Other a) : Tame w (Act.satBy a n) := fun _ => reg h
theorem sat {a : Nat} (h : Other a) : Tame w (Act.sat a) := satBy h

/-- Where BT_STATUS may be written, every field may. -/
theorem setAny {f : Field} {v : Nat} : Tame false (Act.setF f v) := fun _ h => nomatch h
theorem setBAny {f : Field} {b : Bool} : Tame false (Act.setB f b) := setAny

theorem bt {f : Bt → Bt} (h : ∀ b, (f b).beat = b.beat ∧ (f b).used = b.used ∧ (f b).sample = b.sample) :
    Tame w (Act.bt f) := fun u => ⟨(h u.bt).1, (h u.bt).2.1, (h u.bt).2.2⟩

theorem engine {n : Nat} {f : Engine → Engine} : Tame w (Act.engine n f) := bt fun _ => ⟨rfl, rfl, rfl⟩

theorem tk {f : Tk → Tk} : Tame w (Act.tk f) := fun _ => ⟨rfl, rfl, rfl⟩
theorem pwr {f : Pwr → Pwr} : Tame w (Act.pwr f) := fun _ => ⟨rfl, rfl, rfl⟩
theorem boot {f : Boot → Boot} : Tame w (Act.boot f) := fun _ => ⟨rfl, rfl, rfl⟩
theorem hif {f : Hif → Hif} : Tame w (Act.hif f) := fun _ => ⟨rfl, rfl, rfl⟩
theorem evt {f : Evt → Evt} : Tame w (Act.evt f) := fun _ => ⟨rfl, rfl, rfl⟩
theorem accel {f : Accel → Accel} : Tame w (Act.accel f) := fun _ => ⟨rfl, rfl, rfl⟩
theorem env {f : Env → Env} : Tame w (Act.env f) := fun _ => ⟨rfl, rfl, rfl⟩
theorem fwd {f : Fwd → Fwd} : Tame w (Act.fwd f) := fun _ => ⟨rfl, rfl, rfl⟩
theorem sch {f : Sch → Sch} : Tame w (Act.sch f) := fun _ => ⟨rfl, rfl, rfl⟩
theorem eth {f : Eth → Eth} : Tame w (Act.eth f) := fun _ => ⟨rfl, rfl, rfl⟩
theorem rf {f : Rf → Rf} : Tame w (Act.rf f) := fun _ => ⟨rfl, rfl, rfl⟩
theorem rx {f : Rx → Rx} : Tame w (Act.rx f) := fun _ => ⟨rfl, rfl, rfl⟩
theorem mac {f : Mac → Mac} : Tame w (Act.mac f) := fun _ => ⟨rfl, rfl, rfl⟩
theorem sec {f : Sec → Sec} : Tame w (Act.sec f) := fun _ => ⟨rfl, rfl, rfl⟩
theorem pair {f : Pair → Pair} : Tame w (Act.pair f) := fun _ => ⟨rfl, rfl, rfl⟩
theorem img {f : Img → Img} : Tame w (Act.img f) := fun _ => ⟨rfl, rfl, rfl⟩

theorem queue {n : Nat} {f : Queue → Queue} : Tame w (Act.queue n f) := env
theorem ethUnit {p : Nat} {f : EthUnit → EthUnit} : Tame w (Act.ethUnit p f) := eth
theorem flow {d f : Nat} {g : Flow → Flow} : Tame w (Act.flow d f g) := sch
theorem entry {n slot : Nat} {e : Entry} : Tame w (Act.entry n slot e) := fwd
theorem decoder {n : Nat} {f : Decoder → Decoder} : Tame w (Act.decoder n f) := rx
theorem rxFrame {id : Nat} {g : RxFrame → RxFrame} : Tame w (Act.rxFrame id g) := rx
theorem rfUnit {p : RfPort} {f : RfUnit → RfUnit} : Tame w (Act.rfUnit p f) := rf
theorem txUnit {c : Chain} {f : TxChain → TxChain} : Tame w (Act.txUnit c f) := rfUnit
theorem txCmd {c : Chain} {f : TxCmd → TxCmd} : Tame w (Act.txCmd c f) := txUnit
theorem sram {pe a : Nat} {bs : List Byte} : Tame w (Act.sram pe a bs) := accel
theorem runSet {r : Nat} {f : Run → Run} : Tame w (Act.runSet r f) := img

theorem zero {a n : Nat} : Tame w (.zero a n) := trivial
theorem memBytes {a : Nat} {bs : List Byte} : Tame w (Act.memBytes a bs) := Act.Only.memBytes

theorem free {k : Word → Act} (hk : ∀ v, Tame w (k v)) : Tame w (Act.free k) :=
  fun _ => ⟨fun _ => ⟨rfl, rfl, rfl⟩, hk _⟩

/-- A register of an array. -/
theorem array {b k n : Nat}
    (h : (Nat.blt 0 k && (Nat.blt BT_STATUS b || Nat.ble (b + 4 * k) BT_STATUS)) = true) : Other (b + 4 * (n % k)) := by
  simp only [Bool.and_eq_true, Bool.or_eq_true, Nat.blt_eq, Nat.ble_eq] at h
  obtain ⟨hk, h⟩ := h
  have hn : n % k < k := Nat.mod_lt _ hk
  have hne : b + 4 * (n % k) ≠ BT_STATUS := by omega
  exact Bool.eq_false_iff.2 fun h => hne (Nat.eq_of_beq_eq_true h)

/-- A register that every RF port has. -/
theorem port (g : RfPort → Nat) {p : RfPort} (hs : Other (g .s)) (hw : Other (g .w)) : Other (g p) := by
  cases p
  · exact hs
  · exact hw

/-- What a queue operation ends with leaves the beat and BT_STATUS. -/
theorem of_follows {a : Act} (h : a.Follows) : Tame w a := by
  refine h.mono (fun x hx _ hs => hx (by rw [hs]; decide)) ?_
  rintro u v ⟨⟨l, hl⟩, -⟩
  exact ⟨by rw [hl], by rw [hl], by rw [hl]⟩

theorem raises : RaisesIn (fun x => w = true → x ≠ BT_STATUS) SameBeat where
  status _ := by decide
  raised _ := by decide
  coalesced _ := by decide
  early _ := by decide
  sent _ := by decide
  prod _ _ := Other.ne (array rfl)
  lost _ _ := Other.ne (array rfl)
  pending _ _ := Other.ne (array rfl)
  evt _ _ := ⟨rfl, rfl, rfl⟩
  once _ _ := ⟨rfl, rfl, rfl⟩

theorem raise {src : Nat} {record : List Byte} : Tame w (Act.raise src record) := Act.Only.raise raises src record
theorem raiseOnce {src key : Nat} {record : List Byte} : Tame w (Act.raiseOnce src key record) :=
  Act.Only.raiseOnce raises src key record
theorem evtStatus : Tame w Act.evtStatus := Act.Only.evtStatus raises
theorem bridleClose {overflow : Nat → Act} {i : Nat} {early : Bool} (ho : ∀ r, Tame w (overflow r)) :
    Tame w (Act.bridleClose overflow i early) := Act.Only.bridleClose raises ho i early

theorem queueDone {n : Nat} : Tame w (Act.queueDone n) := of_follows .queueDone
theorem queueLog {n op : Nat} : Tame w (Act.queueLog n op) := of_follows .queueLog
theorem fcFollow : Tame w Act.fcFollow := of_follows .fcFollow
theorem poisonCounts {n k : Nat} : Tame w (Act.poisonCounts n k) := of_follows .poisonCounts
theorem pauseEval {p : Nat} : Tame w (Act.pauseEval p) := of_follows .pauseEval

theorem enqueue {n : Nat} {c : CommitInfo} {ws : List WordIn} {k : Enq → Act} (hk : ∀ e, Tame w (k e)) :
    Tame w (Act.enqueue n c ws k) := by
  refine .read fun s => .all ⟨queue, .each fun _ => .seq queueLog (of_follows .uplinkLog), ?_, queueDone, hk _⟩
  refine (only_enqCounts n _).mono (fun x hx _ hs => hx (by rw [hs]; decide)) ?_
  rintro u v ⟨⟨l, hl⟩, -⟩
  exact ⟨by rw [hl], by rw [hl], by rw [hl]⟩

/-! Programs of a boundary, some of which a commit window runs too. -/

theorem startLevel {new src} : Tame false (Act.startLevel new src) :=
  .read fun _ => .when <| .all ⟨.pwr, .setB rfl, .setAny, .bt fun _ => ⟨rfl, rfl, rfl⟩⟩

theorem applyModeLevel {m} : Tame false (Act.applyModeLevel m) := by
  refine .read fun _ => ?_
  split
  · exact .all ⟨.setF rfl, .setB rfl, .pwr⟩
  · exact .ite .startLevel <| .all ⟨.setF rfl, .setAny⟩

theorem stopSequencer : Tame false Act.stopSequencer :=
  .all ⟨.setAny, .setAny, .setAny, .setAny, .tk⟩

theorem startSequencer : Tame false Act.startSequencer :=
  .all ⟨.setBAny, .setAny, .setAny⟩

theorem enterMode {m row} : Tame false (Act.enterMode m row) :=
  .read fun _ => .when <| .all ⟨.setF rfl, .setF rfl, .setB rfl, .wrap rfl, .pwr, .applyModeLevel,
    .when .stopSequencer, .when .startSequencer, .setB rfl, .when .tk, .raise⟩

theorem ethPath : Tame w Act.ethPath :=
  .read fun _ => .setF rfl

theorem brFlush {gone} : Tame w (Act.brFlush gone) :=
  .seq .eth <| .read fun _ => .setF rfl

theorem ptDrop {p n} : Tame w (Act.ptDrop p n) :=
  .when <| .seq (.satBy (array rfl)) .raiseOnce

theorem linkDown {p} : Tame w (Act.linkDown p) :=
  .read fun _ => .when <| .all ⟨.setB rfl, .setF rfl, .setB rfl, .sat (array rfl), .raise, .brFlush, .ptDrop,
    .ethUnit, .pauseEval⟩

theorem linkRestart {p} : Tame w (Act.linkRestart p) :=
  .read fun _ => .seq .linkDown .ethUnit

theorem engineReturns : Tame w Act.engineReturns :=
  .seq (.bt fun _ => ⟨rfl, rfl, rfl⟩) <| .each fun _ => .read fun _ => .when .engine

theorem commissionLeave : Tame w Act.commissionLeave :=
  .read fun _ => .seq .boot .pwr

theorem returnPacket {d f start} : Tame w (Act.returnPacket d f start) :=
  .flow

theorem entryBack {e} : Tame w (Act.entryBack e) := by
  refine .read fun _ => ?_
  split
  · exact .nop
  · split
    · exact .nop
    · exact .returnPacket

theorem logUpdate {bs} : Tame w (Act.logUpdate bs) :=
  .read fun _ => .when .pair

theorem releaseQueue {n} : Tame w (Act.releaseQueue n) :=
  .all ⟨.queue, .queueLog, .queueDone⟩

theorem releasePacket {n start} : Tame w (Act.releasePacket n start) := by
  refine .read fun _ => ?_
  split
  · exact .nop
  · exact .seq .queue .releaseQueue

theorem forgetPacket {d f start} : Tame w (Act.forgetPacket d f start) :=
  .flow

theorem stamp {backlogged d f} : Tame w (Act.stamp backlogged d f) := by
  refine .read fun _ => ?_
  split
  · exact .nop
  · exact .when .flow

theorem airDrain {q d f k} : Tame w (Act.airDrain q d f k) := by
  induction k with
  | zero => exact .nop
  | succ k ih =>
    refine .read fun _ => ?_
    split
    · exact .nop
    · exact .when <| .all ⟨.releasePacket, .forgetPacket, .stamp, ih⟩

theorem airRelease {p q start} : Tame w (Act.airRelease p q start) := by
  refine .read fun _ => ?_
  split
  · exact .releasePacket
  · exact .all ⟨.flow, .mac, .airDrain⟩

theorem txAbort {c recal back} : Tame w (Act.txAbort c recal back) := by
  refine .read fun _ => ?_
  split
  · exact .nop
  · refine .when <| .seq .txCmd ?_
    split
    · exact .nop
    · refine .ite .entryBack ?_
      split
      · exact .airRelease
      · exact .nop

theorem txHolding {c} : Tame w (Act.txHolding c) :=
  .read fun _ => .setB (port (RFx_TXn_STAT · _) (array rfl) (array rfl))

theorem cxFollow {p} : Tame w (Act.cxFollow p) :=
  .read fun _ => .seq (.setB (port RFx_STATUS rfl rfl)) .rfUnit

theorem txDrop {c} : Tame w (Act.txDrop c) :=
  .all ⟨.txUnit, .txHolding, .cxFollow⟩

theorem linkSend {b} : Tame w (Act.linkSend b) :=
  .read fun _ => .when .pair

theorem recordInput {kind} : Tame w (Act.recordInput kind) :=
  .read fun _ => .when <| .seq .linkSend .pair

theorem ackDigest {a reason} : Tame w (Act.ackDigest a reason) :=
  .read fun _ => .when .pair

theorem ackDropped {a reason} : Tame w (Act.ackDropped a reason) :=
  .all ⟨.sat rfl, .recordInput, .ackDigest, .mac, .read fun _ => .raiseOnce⟩

theorem txGiveUp {c reason} : Tame w (Act.txGiveUp c reason) := by
  refine .read fun _ => ?_
  split
  · exact .nop
  · refine .seq .txDrop ?_
    split
    · exact .ackDropped
    · exact .entryBack

theorem planLost {c} : Tame w (Act.planLost c) :=
  .read fun _ => .all ⟨.sch, .txUnit, .each fun _ => .entryBack⟩

theorem acksLost {c} : Tame w (Act.acksLost c) :=
  .read fun _ => .all ⟨.mac, .txUnit, .each fun _ => .ackDropped⟩

theorem txModeAbort : Tame w Act.txModeAbort :=
  .each fun _ => .read fun _ => .all ⟨.ite .txAbort <| .when .txGiveUp, .planLost, .acksLost, .txCmd⟩

theorem aliveRelease : Tame w Act.aliveRelease :=
  .setB rfl

theorem poolStat : Tame w Act.poolStat :=
  .read fun _ => .all ⟨.setF rfl, .setF rfl⟩

theorem countStatus {n st} : Tame w (Act.countStatus n st) :=
  .seq (.setF (array rfl)) <| .ite (.wrap (array rfl)) <| .ite (.sat (array rfl)) <| .ite (.sat (array rfl)) <|
    .ite (.sat (array rfl)) <| .all ⟨.wrap (array rfl), .decoder, .read fun _ => .when .raiseOnce⟩

theorem deliverFrame {f st beat} : Tame w (Act.deliverFrame f st beat) :=
  .read fun _ => .all ⟨.ite .nop <| .ite (.when <| .seq .pair <| .when .linkSend) <| .all ⟨.rx, .when .pair,
    .recordInput⟩, .countStatus⟩

theorem endCtx {n c st} : Tame w (Act.endCtx n c st) := by
  refine .read fun _ => .ite ?_ .countStatus
  split
  · exact .nop
  · exact .all ⟨.rx, .poolStat, .deliverFrame⟩

theorem chStat {n} : Tame w (Act.chStat n) :=
  .read fun _ => .all ⟨.setF (array rfl), .setF (array rfl), .setB (array rfl)⟩

theorem endW {n st} : Tame w (Act.endW n st) := by
  refine .read fun _ => ?_
  split
  · exact .nop
  · exact .all ⟨.endCtx, .decoder, .chStat⟩

theorem endP {n st} : Tame w (Act.endP n st) := by
  refine .read fun _ => ?_
  dsimp only
  split
  · exact .nop
  · exact .all ⟨.endCtx, .decoder, .chStat⟩

theorem endBoth {n st} : Tame w (Act.endBoth n st) :=
  .seq .endW .endP

theorem engineStat {pe} : Tame w (Act.engineStat pe) :=
  .read fun _ => .all ⟨.setF (array rfl), .setF (array rfl), .setF (array rfl)⟩

theorem discardWork : Tame w Act.discardWork :=
  .all ⟨.accel, .bt fun _ => ⟨rfl, rfl, rfl⟩, .each fun _ => .engineStat, .rx, .mac⟩

theorem rxRunning {p} : Tame w (Act.rxRunning p) :=
  .read fun _ => .seq (.setB (port (fun p => (rxRun p).reg) rfl rfl)) <| .each fun _ => .chStat

theorem healthPin : Tame w Act.healthPin :=
  .read fun _ => .when .pair

theorem shift {m row} : Tame false (Act.shift m row) :=
  .read fun _ => .when <| .all ⟨.enterMode, .when <| .seq .txModeAbort .aliveRelease, .when <| .each fun _ =>
    .endBoth, .when .discardWork, .when .pair, .ethPath, .ite (.seq .linkDown .linkDown) <| .when <|
    .seq .linkRestart .linkRestart, .when <| .seq .ethUnit .ethUnit, .when .mac, .rxRunning, .rxRunning, .poolStat,
    .healthPin, .fcFollow⟩

theorem recalRequest {p cause} : Tame w (Act.recalRequest p cause) :=
  .all ⟨.setB (port RFx_STATUS rfl rfl), .rfUnit, .rxRunning⟩

theorem dozeExit : Tame false Act.dozeExit :=
  .read fun _ => .all ⟨.shift, .bt fun _ => ⟨rfl, rfl, rfl⟩, .each fun _ => .when .recalRequest, .each fun _ =>
    .chStat, .poolStat⟩

theorem forcedExit : Tame false Act.forcedExit :=
  .read fun _ => .when <| .seq .pwr <| .when .dozeExit

theorem dozeEnter : Tame false Act.dozeEnter :=
  .read fun _ => .all ⟨.pwr, .bt fun _ => ⟨rfl, rfl, rfl⟩, .shift, .each fun _ => .seq .endBoth .decoder,
    .each fun _ => .when <| .seq (.setB (port RFx_STATUS rfl rfl)) .rxRunning, .each fun _ => .seq .engine <|
    .setF rfl, .each fun _ => .chStat, .poolStat⟩

theorem pwrEnd {result} : Tame w (Act.pwrEnd result) :=
  .all ⟨.pwr, .setB rfl, .setF rfl⟩

theorem setPstate {n} : Tame w (Act.setPstate n) :=
  .seq (.setF rfl) .healthPin

theorem stagedMode : Tame false Act.stagedMode := by
  refine .read fun _ => ?_
  split
  · exact .nop
  · exact .seq .pwr <| .ite (.when <| .seq .dozeEnter .pwrEnd) <| .ite (.seq (.when .dozeExit) .pwrEnd) <|
      .seq .shift <| .when <| .seq .setPstate .pair

theorem stagedLevel : Tame false Act.stagedLevel := by
  refine .read fun _ => ?_
  split
  · exact .nop
  · exact .seq .pwr <| .ite (.all ⟨.pwr, .setB rfl, .setAny, .pwrEnd⟩) .startLevel

theorem driftB : Tame w Act.driftB :=
  .all ⟨.setB rfl, .pwr, .each fun _ => .endBoth⟩

theorem budgetIssue : Tame w Act.budgetIssue :=
  .read fun _ => .reg rfl

theorem logicBist {n} : Tame w (Act.logicBist n) :=
  .read fun _ => .when <| .seq .engine <| .setF rfl

theorem rolesFollow : Tame w Act.rolesFollow := by
  refine .seq (.each fun _ => .read fun _ => .when .engine) <| .each fun _ => .read fun _ => .when ?_
  split
  · exact .nop
  · exact .engine

theorem pairTrim : Tame w Act.pairTrim :=
  .read fun _ => .pair

theorem pairNext {n} : Tame w (Act.pairNext n) :=
  .pair

theorem standbyResync : Tame w Act.standbyResync :=
  .read fun _ => .pairNext

theorem yieldTo : Tame w Act.yieldTo :=
  .read fun _ => .seq .linkSend .pair

theorem fullSelfTest : Tame w Act.fullSelfTest :=
  .pair

theorem startSwitch {cause cmd} : Tame w (Act.startSwitch cause cmd) :=
  .read fun _ => .when <| .free fun _ => .seq .linkSend .pair

theorem arbApply : Tame w Act.arbApply := by
  refine .read fun _ => ?_
  split
  · exact .nop
  · exact .all ⟨.pair, .setB rfl, .sat rfl, .raise, .when <| .seq (.sat rfl) .raise, .when <| .ite .nop <|
      .ite .standbyResync <| .all ⟨.yieldTo, .fullSelfTest, .standbyResync⟩, .when <| .seq .yieldTo .startSwitch⟩

theorem helloSend : Tame w Act.helloSend :=
  .read fun _ => .when <| .seq .pair .linkSend

theorem syncEnter : Tame w Act.syncEnter :=
  .read fun _ => .all ⟨.setPstate, .pair, .setB rfl, .when .helloSend⟩

theorem windowOpen : Tame w Act.windowOpen :=
  .read fun _ => .seq .pair <| .setB rfl

theorem incoming {cause l} : Tame false (Act.incoming cause l) :=
  .read fun _ => .all ⟨.pair, .setPstate, .shift, .windowOpen, .sat rfl, .raise⟩

theorem takeoverBegin : Tame false Act.takeoverBegin :=
  .read fun _ => .seq .incoming <| .setB rfl

theorem pairEnter {n} : Tame false (Act.pairEnter n) := by
  refine .read fun _ => ?_
  dsimp only
  split
  · exact .seq .setPstate .shift
  · exact .seq .setPstate .shift
  · exact .syncEnter
  · exact .setPstate
  · exact .seq .setPstate .pair
  · exact .takeoverBegin
  · exact .nop

theorem windowTick : Tame false Act.windowTick :=
  .read fun _ => .seq .pair <| .ite (.seq (.seq (.setB rfl) .pair) .pairEnter) <| .ite (.all ⟨.seq (.setB rfl) .pair,
    .setPstate, .shift, .when .syncEnter⟩) .nop

theorem aliveHeld : Tame w Act.aliveHeld :=
  .read fun _ => .when <| .ite (.seq .pairNext .raise) <| .when .pairNext

theorem pairStaged : Tame false Act.pairStaged := by
  refine .read fun _ => ?_
  split
  · exact .nop
  · exact .seq .pair .pairEnter

theorem pairResult {n} : Tame w (Act.pairResult n) :=
  .seq (.setF rfl) <| .setB rfl

theorem switchBegin {sw} : Tame false (Act.switchBegin sw) :=
  .ite (.all ⟨.incoming, .pair, .when <| .seq (.sat rfl) .raise⟩) <| .all ⟨.setPstate, .aliveRelease, .windowOpen,
    .pair, .when .pairResult⟩

theorem switchStart : Tame false Act.switchStart := by
  refine .read fun _ => ?_
  split
  · exact .nop
  · exact .when <| .seq .switchBegin <| .when .fullSelfTest

theorem epochCommit : Tame w Act.epochCommit :=
  .read fun _ => .when <| .all ⟨.setF rfl, .sat rfl, .sec, .setB rfl, .setB rfl, .raise, .recordInput, .logUpdate⟩

theorem rxIn {x beat} : Tame w (Act.rxIn x beat) :=
  .read fun _ => .seq .rx .pair

theorem tableUpdate {n key f} : Tame w (Act.tableUpdate n key f) := by
  refine .read fun _ => ?_
  split
  · exact .nop
  · exact .entry

theorem tableCount {n} : Tame w (Act.tableCount n) :=
  .read fun _ => .all ⟨.setF (array rfl), .setF (array rfl), .setF rfl⟩

theorem tableInsert {n e k} (hk : ∀ x y z v, Tame w (k x y z v)) : Tame w (Act.tableInsert n e k) := by
  refine .read fun _ => ?_
  dsimp only
  split
  · exact .seq (.seq .entry .tableCount) <| hk _ _ _ _
  · split
    · exact .seq (.seq .entry .tableCount) <| hk _ _ _ _
    · split
      · exact .all ⟨.sat (array rfl), .raiseOnce, hk _ _ _ _⟩
      · exact .all ⟨.when .fwd, .sat (array rfl), .seq .entry .tableCount, hk _ _ _ _⟩

theorem learnNet {n key headend beat moving} : Tame w (Act.learnNet n key headend beat moving) := by
  refine .read fun _ => .seq (.wrap (array rfl)) ?_
  split
  · exact .all ⟨.tableUpdate, .wrap (array rfl), .wrap (array rfl)⟩
  · exact .when <| .tableInsert fun _ _ _ _ => .when <| .wrap (array rfl)

theorem tableDelete {n key stamp k} (hk : ∀ x y z v, Tame w (k x y z v)) :
    Tame w (Act.tableDelete n key stamp k) := by
  refine .read fun _ => ?_
  dsimp only
  split
  · exact hk _ _ _ _
  · exact .ite (hk _ _ _ _) <| .all ⟨.entry, .tableCount, hk _ _ _ _⟩

theorem netLearn {p mac vid headend beat} : Tame w (Act.netLearn p mac vid headend beat) := by
  refine .read fun _ => ?_
  dsimp only
  split
  · exact .learnNet
  · refine .ite (.seq .tableUpdate .tableUpdate) <| .ite .nop ?_
    split
    · exact .ite (.seq .tableUpdate <| .when <| .all ⟨.tableDelete fun _ _ _ _ => .nop, .tableUpdate, .wrap rfl,
        .raise⟩) .learnNet
    · exact .learnNet

theorem faultClass {n} : Tame w (Act.faultClass n) :=
  .pair

theorem enqPacket {n c bs k} (hk : ∀ x, Tame w (k x)) : Tame w (Act.enqPacket n c bs k) :=
  .enqueue fun _ => hk _

theorem pleApply {p q mac vid h beat m} : Tame w (Act.pleApply p q mac vid h beat m) :=
  .seq .netLearn <| .enqPacket fun _ => .nop

theorem journal {c status final} : Tame w (Act.journal c status final) :=
  .read fun _ => .seq .logUpdate .memBytes

theorem journalNew {c} : Tame w (Act.journalNew c) :=
  .read fun _ => .all ⟨.recordInput, .journal, .hif, .when .raise⟩

theorem shadowHost {i index bs} : Tame w (Act.shadowHost i index bs) :=
  .read fun _ => .journalNew

theorem recPut {nsa f v} : Tame w (Act.recPut nsa f v) :=
  .read fun _ => .memBytes

theorem recClose {nsa} : Tame w (Act.recClose nsa) :=
  .all ⟨.read fun _ => .recPut, .read fun _ => .recPut, .read fun _ => .logUpdate⟩

theorem recUpdate {nsa fields missing} (hmissing : Tame w missing) : Tame w (Act.recUpdate nsa fields missing) :=
  .read fun _ => .ite (.seq (.each fun _ => .recPut) .recClose) hmissing

theorem pollMiss {nsa} : Tame w (Act.pollMiss nsa) :=
  .read fun _ => .all ⟨.sat rfl, .recUpdate .nop, .when .raise⟩

theorem beaconGone {e} : Tame w (Act.beaconGone e) :=
  .mac

theorem dutyStat {p r} : Tame w (Act.dutyStat p r) :=
  .read fun _ => .all ⟨.reg (port (RFx_DUTYr_USED · _) (array rfl) (array rfl)), .setF (port RFx_STATUS rfl rfl)⟩

theorem dutySet {p r d} : Tame w (Act.dutySet p r d) :=
  .read fun _ => .all ⟨.rfUnit, .dutyStat, .when .raise⟩

theorem dutyAdd {p k rate t} : Tame w (Act.dutyAdd p k rate t) :=
  .read fun _ => .each fun _ => .when .dutySet

theorem pendChain {l} : Tame w (Act.pendChain l) := by
  induction l with
  | nil => exact .nop
  | cons a l ih =>
    cases l with
    | nil => exact .memBytes
    | cons b l => exact .seq .memBytes ih

theorem pendBits {nsa on} : Tame w (Act.pendBits nsa on) :=
  .seq .tableUpdate .tableUpdate

theorem pendLink {nsa l} : Tame w (Act.pendLink nsa l) :=
  .all ⟨.pendChain, .recUpdate .nop, .pendBits⟩

theorem pendFree {l} : Tame w (Act.pendFree l) :=
  .read fun _ => .mac

theorem pendRemove {nsa gone} : Tame w (Act.pendRemove nsa gone) :=
  .read fun _ => .when <| .seq .pendLink .pendFree

theorem entryDone {e} : Tame w (Act.entryDone e) := by
  unfold Act.entryDone
  split
  · exact .airRelease
  · exact .seq .mac .pendRemove

theorem frameSent {d e stop} : Tame w (Act.frameSent d e stop) :=
  .read fun _ => .all ⟨.when <| .wrap rfl, .when .mac, .ite .mac .entryDone⟩

theorem shadowSent {e stop} : Tame w (Act.shadowSent e stop) :=
  .read fun _ => .all ⟨.sch, .when .beaconGone, .dutyAdd, .frameSent⟩

theorem entryDefer {e nb be stopNs} : Tame w (Act.entryDefer e nb be stopNs) :=
  .seq .mac .entryBack

theorem regionWrite {a bs} : Tame w (Act.regionWrite a bs) :=
  .seq .memBytes .logUpdate

theorem campPut {r f v} : Tame w (Act.campPut r f v) :=
  .read fun _ => .regionWrite

theorem campCount {r f n} : Tame w (Act.campCount r f n) :=
  .read fun _ => .when .campPut

theorem campNode {n st reason} : Tame w (Act.campNode n st reason) :=
  .recUpdate .nop

theorem campFail {r n reason} : Tame w (Act.campFail r n reason) :=
  .seq .campNode .campCount

theorem campDone {q start acked} : Tame w (Act.campDone q start acked) := by
  refine .read fun _ => ?_
  split
  · exact .nop
  · exact .seq .runSet <| .ite (.when <| .seq (.recUpdate .nop) .campCount) <| .ite (.seq .runSet <|
      .when .campFail) .runSet

theorem attemptFailed {e draw t} : Tame w (Act.attemptFailed e draw t) := by
  refine .read fun _ => .ite (.seq ?_ .entryDefer) <| .all ⟨.entryDone, .campDone, .sat rfl, .raise⟩
  split
  · exact .memBytes
  · exact .queue

theorem shadowCca {c idle stop draw} : Tame w (Act.shadowCca c idle stop draw) := by
  refine .read fun _ => ?_
  split
  · exact .nop
  · exact .ite .shadowSent <| .ite (.seq .sch <| .ite (.seq .entryDone .beaconGone) .attemptFailed) <| .ite .mac <|
      .seq .sch .entryDefer

theorem selectHead {d f start fin} : Tame w (Act.selectHead d f start fin) :=
  .all ⟨.sch, .flow, .stamp⟩

theorem uplinkPick {p c fin h k} (hk : ∀ x, Tame w (k x)) : Tame w (Act.uplinkPick p c fin h k) := by
  refine .read fun _ => .all ⟨.selectHead, .when .sch, .sch, ?_, hk _⟩
  split
  · exact .nop
  · exact .eth

theorem shadowSelect {p c} : Tame w (Act.shadowSelect p c) := by
  refine .read fun _ => ?_
  split
  · exact .nop
  · exact .uplinkPick fun _ => .nop

theorem shadowHead {n v} : Tame w (Act.shadowHead n v) := by
  refine .read fun _ => .when <| .all ⟨.each fun _ => ?_, .queue, .when .queueLog, .queueDone⟩
  split
  · split
    · exact .forgetPacket
    · exact .nop
  · split
    · exact .forgetPacket
    · exact .nop
  · split
    · exact .forgetPacket
    · exact .nop
  · split
    · exact .forgetPacket
    · exact .nop
  · exact .nop

theorem traceSet {on} : Tame w (Act.traceSet on) :=
  .read fun _ => .all ⟨.setB rfl, .when .raise, .when .recordInput⟩

theorem recordEntry {x} : Tame w (Act.recordEntry x) := by
  refine .read fun _ => ?_
  split
  · exact .rxIn
  · exact .rxIn
  · split
    · exact .pleApply
    · exact .nop
  · exact .shadowHost
  · exact .bt fun _ => ⟨rfl, rfl, rfl⟩
  · exact .pollMiss
  · exact .bt fun _ => ⟨rfl, rfl, rfl⟩
  · exact .pair
  · exact .pair
  · exact .shadowCca
  · exact .tableDelete fun _ _ _ _ => .nop
  · exact .when .env
  · exact .shadowSelect
  · exact .pair
  · exact .sch
  · exact .pair
  · exact .shadowHead
  · exact .traceSet
  · exact .all ⟨.setF rfl, .boot, .sat rfl, .sec, .setB rfl, .setB rfl, .logUpdate⟩
  · exact .nop

theorem leftoverEntry {x} : Tame w (Act.leftoverEntry x) := by
  refine .read fun _ => ?_
  split
  · exact .when <| .seq .rxIn .recordInput
  · exact .when <| .seq .rxIn .recordInput
  · exact .seq .recordInput .recordEntry
  · exact .recordEntry
  · exact .seq .recordEntry .recordInput
  · exact .seq .recordEntry .recordInput
  · exact .recordEntry
  · exact .nop

theorem liveBegin {k} : Tame w (Act.liveBegin k) :=
  .read fun _ => .all ⟨.epochCommit, .pair, .each fun _ => .seq .rxIn .recordInput, .rx, .mac, .each fun _ =>
    .leftoverEntry, .pair⟩

theorem liveStart : Tame w Act.liveStart :=
  .read fun _ => .when .liveBegin

theorem pairBoundary : Tame false Act.pairBoundary :=
  .read fun _ => .when <| .all ⟨.pairTrim, .arbApply, .windowTick, .when .aliveHeld, .pairStaged, .switchStart,
    .liveStart, .read fun _ => .when .epochCommit⟩

theorem rfBoundary : Tame w Act.rfBoundary :=
  .read fun _ => .all ⟨.each fun _ => .when <| .seq (.setB (port RFx_STATUS rfl rfl)) .rfUnit, .each fun _ =>
    .when <| .seq .txUnit <| .wrap (port RFx_TX_CAL rfl rfl), .each fun _ => .rfUnit⟩

theorem rxBoundary : Tame w Act.rxBoundary :=
  .read fun _ => .rx

theorem macBoundary : Tame w Act.macBoundary :=
  .read fun _ => .all ⟨.mac, .setB rfl⟩

theorem policerRefill : Tame w Act.policerRefill :=
  .read fun _ => .each fun _ => .when .sch

theorem fLastCatchup : Tame w Act.fLastCatchup :=
  .read fun _ => .each fun _ => .each fun _ => .when .flow

theorem rebuildBit {d b} : Tame w (Act.rebuildBit d b) :=
  .setF rfl

theorem domainRebuild : Tame w Act.domainRebuild :=
  .read fun _ => .each fun _ => .when <| .all ⟨.sch, .each fun _ => .seq .flow .stamp, .rebuildBit⟩

theorem queuesBoundary {m} : Tame w (Act.queuesBoundary m) :=
  .env

theorem recordHeads : Tame w Act.recordHeads :=
  .read fun _ => .each fun _ => .recordInput

theorem shadowPlan : Tame w Act.shadowPlan :=
  .read fun _ => .each fun _ => .ite (.seq .sch .entryBack) .shadowSent

theorem shadowBeat {r} : Tame w (Act.shadowBeat r) :=
  .all ⟨.pair, .bt fun _ => ⟨rfl, rfl, rfl⟩, .each fun _ => .recordEntry, .shadowPlan⟩

theorem linkAsk : Tame w Act.linkAsk := by
  refine .read fun _ => ?_
  split
  · exact .nop
  · exact .seq .pair .linkSend

theorem shadowStart : Tame w Act.shadowStart := by
  refine .read fun _ => .when ?_
  split
  · exact .shadowBeat
  · exact .linkAsk

theorem selfTestTick : Tame w Act.selfTestTick :=
  .read fun _ => .when <| .seq .pair <| .when .helloSend

theorem marginRule : Tame w Act.marginRule :=
  .read fun _ => .ite (.ite (.seq .pair .startSwitch) .pair) .pair

theorem timeFrame : Tame w Act.timeFrame :=
  .read fun _ => .when <| .seq .linkSend .pair

theorem pairAfter : Tame w Act.pairAfter :=
  .read fun _ => .when <| .all ⟨.shadowStart, .selfTestTick, .marginRule, .timeFrame, .read fun _ => .setB rfl⟩

theorem ringStatus : Tame w Act.ringStatus :=
  .read fun _ => .all ⟨.setB rfl, .setB rfl⟩

theorem completionEntry {c status res} : Tame w (Act.completionEntry c status res) := by
  unfold Act.completionEntry
  cases res <;>
    exact .read fun _ => .all ⟨.memBytes, .memBytes, .setF rfl, .hif, .ite .hif .raiseOnce, .setF rfl, .ringStatus⟩

theorem takeOne : Tame w Act.takeOne := by
  refine .read fun _ => .all ⟨.setF rfl, .wrap rfl, ?_, .ringStatus⟩
  split
  · exact .all ⟨.sat rfl, .ite .hif .raiseOnce, .completionEntry⟩
  · exact .journalNew

theorem takeUpTo {n} : Tame w (Act.takeUpTo n) := by
  induction n with
  | zero => exact .nop
  | succ n ih => exact .read fun _ => .when <| .seq .takeOne ih

theorem takeCommands : Tame w Act.takeCommands :=
  .read fun _ => .when .takeUpTo

theorem walkRecord {r n} : Tame w (Act.walkRecord r n) :=
  .read fun _ => .ite .nop <| .ite .campCount <| .ite .campCount <| .seq (.recUpdate .nop) .campCount

theorem campWalk : Tame w Act.campWalk := by
  refine .each fun r => .read fun _ => ?_
  split
  · exact .nop
  · next n _ =>
    have hset (m : Option Nat) : Tame w (Act.runSet r fun x => { x with walk := m }) := runSet
    generalize n + 4096 = m
    exact .when <| .seq (.each fun _ => .walkRecord) <| .ite (hset _) <| .seq (hset _) .campPut

theorem beatPulse {n} : Tame w (Act.beatPulse n) :=
  .read fun _ => .tk

/-! Programs of a commit window alone. -/

theorem opZero {o} : Tame w (Act.opZero o) := by
  refine .read fun _ => ?_
  split
  · exact .sram
  · exact .sram
  · exact .sram
  · exact .sram
  · exact .nop

theorem completion {pe c} : Tame w (Act.completion pe c) :=
  .read fun _ => .seq .engine .engineStat

theorem finish {o status flags result} : Tame w (Act.finish o status flags result) :=
  .seq .accel .completion

theorem opLate {o} : Tame w (Act.opLate o) :=
  .all ⟨.rx, .poolStat, .opZero, .finish, .wrap (array rfl), .wrap rfl, .recordInput⟩

theorem settleFrame {id} : Tame w (Act.settleFrame id) := by
  refine .read fun _ => ?_
  split
  · exact .nop
  · exact .when <| .all ⟨.rxFrame, .deliverFrame⟩

theorem cwDone {id i r} : Tame w (Act.cwDone id i r) :=
  .seq .rxFrame .settleFrame

theorem rxCommit {beat} : Tame w (Act.rxCommit beat) := by
  refine .read fun _ => .all ⟨.rx, .each fun _ => .all ⟨.sat rfl, .wrap rfl, .wrap rfl, .recordInput, .read fun _ =>
    ?_, .cwDone⟩, .rx, .poolStat⟩
  split
  · exact .raise
  · exact .nop

theorem macGone {id} : Tame w (Act.macGone id) :=
  .mac

theorem macDrop {id r} : Tame w (Act.macDrop id r) :=
  .seq (.sat (array rfl)) .macGone

theorem pendTake {nsa gone} : Tame w (Act.pendTake nsa gone) :=
  .read fun _ => .ite .mac .pendRemove

theorem pendAgeing : Tame w Act.pendAgeing :=
  .read fun _ => .each fun _ => .read fun _ => .all ⟨.pendTake, .sat rfl, .raiseOnce⟩

theorem joinFollow : Tame w Act.joinFollow :=
  .read fun _ => .seq (.setB rfl) <| .setB rfl

theorem nbrSet {n} : Tame w (Act.nbrSet n) :=
  .read fun _ => .all ⟨.reg rfl, .joinFollow, .when <| .seq .mac .raise, .when .mac⟩

theorem nbrTrack {n a} (ha : Tame w a) : Tame w (Act.nbrTrack n a) :=
  .read fun _ => .seq ha <| .read fun _ => .when .nbrSet

theorem campLeft {nsa} : Tame w (Act.campLeft nsa) := by
  refine .read fun _ => ?_
  split
  · exact .nop
  · exact .when .campCount

theorem recFree {nsa} : Tame w (Act.recFree nsa) :=
  .seq .campLeft <| .read fun _ => .seq .zero .logUpdate

theorem nodeForget {nsa} : Tame w (Act.nodeForget nsa) :=
  .read fun _ => .all ⟨.pendRemove, .tableDelete fun _ _ _ _ => .nop, .tableDelete fun _ _ _ _ => .nop,
    .nbrTrack .recFree⟩

theorem listenDrops : Tame w Act.listenDrops :=
  .read fun _ => .seq (.each fun _ => .seq .pendRemove <| .when .nodeForget) .mac

theorem reportEvent {b early} : Tame w (Act.reportEvent b early) :=
  .seq (.wrap rfl) .raise

theorem bridleFollow : Tame w Act.bridleFollow :=
  .read fun _ => .setB rfl

theorem bridleEnd {b early} : Tame w (Act.bridleEnd b early) :=
  .all ⟨.mac, .reportEvent, .bridleFollow⟩

theorem macCommit {beat} : Tame w (Act.macCommit beat) :=
  .read fun _ => .all ⟨.each fun _ => .seq .macDrop <| .all ⟨.wrap rfl, .wrap rfl, .recordInput⟩, .pendAgeing,
    .listenDrops, .when <| .each fun _ => .bridleEnd⟩

theorem abortOpen {beat} : Tame w (Act.abortOpen beat) :=
  .read fun _ => .each fun _ => .all ⟨.queue, .wrap rfl, .queueLog, .queueDone⟩

theorem complete {c status res} : Tame w (Act.complete c status res) :=
  .all ⟨.when .journal, .read fun _ => .when .completionEntry, .when <| .sat rfl, .hif⟩

theorem overrun {n} : Tame w (Act.overrun n) :=
  .read fun _ => .when <| .all ⟨.sat (array rfl), .setB (array rfl), .engine, .when <| .seq .pair .raise⟩

theorem lateWork {unfinished} : Tame w (Act.lateWork unfinished) :=
  .read fun _ => .all ⟨.each fun _ => .opLate, .rxCommit, .macCommit, .abortOpen, .each fun _ => .complete, .hif,
    .each fun _ => .overrun, .each fun _ => .seq .engine .engineStat⟩

theorem slotStat : Tame w Act.slotStat := by
  refine .read fun _ => ?_
  split
  · exact .all ⟨.setB rfl, .setF rfl, .setF rfl⟩
  · exact .all ⟨.setB rfl, .setF rfl, .setF rfl⟩

theorem pwrRefuse {r why} : Tame w (Act.pwrRefuse r why) :=
  .read fun _ => .all ⟨.setF rfl, .setF rfl, .sat (array rfl), .setF rfl, .setF rfl, .setF rfl, .setF rfl, .raise⟩

theorem pwrStage {r} : Tame w (Act.pwrStage r) := by
  refine .all ⟨.pwr, .setB rfl, ?_⟩
  split
  · exact .pwr
  · exact .pwr
  · exact .pwr
  · exact .pwr
  · exact .nop

theorem powerSlotTake : Tame w Act.powerSlotTake := by
  refine .read fun _ => ?_
  split
  · exact .nop
  · refine .when <| .all ⟨.pwr, .slotStat, ?_⟩
    split
    · exact .pwrRefuse
    · exact .ite (.setF rfl) .pwrStage

theorem txOn {p} : Tame w (Act.txOn p) :=
  .read fun _ => .setF (port RFx_STATUS rfl rfl)

theorem txSetState {c st} : Tame w (Act.txSetState c st) :=
  .seq (.setF (port (RFx_TXn_STAT · _) (array rfl) (array rfl))) .txOn

theorem txCalStart {c k} : Tame w (Act.txCalStart c k) :=
  .all ⟨.txUnit, .setF (port (RFx_TXn_STAT · _) (array rfl) (array rfl)), .txSetState,
    .wrap (port RFx_TX_CAL rfl rfl)⟩

theorem txRetune {c} : Tame w (Act.txRetune c) := by
  refine .read fun _ => ?_
  split
  · exact .nop
  · exact .when .txCalStart

theorem planRefuse {p why} : Tame w (Act.planRefuse p why) :=
  .sat (port (SCH_AIRx_REFr · _) (array rfl) (array rfl))

theorem planStarve {p f} : Tame w (Act.planStarve p f) :=
  .read fun _ => .seq .flow <| .when .raise

theorem planAdd {e} : Tame w (Act.planAdd e) :=
  .sch

theorem planPend {p cands n k} (hk : ∀ x, Tame w (k x)) : Tame w (Act.planPend p cands n k) := by
  induction cands generalizing n with
  | nil => exact hk _
  | cons c l ih =>
    refine .read fun _ => .ite (.seq .planRefuse ih) ?_
    split
    · exact .seq .planRefuse ih
    · exact .all ⟨.planAdd, .mac, ih⟩

theorem planFlows {p fuel fs n k} (hk : ∀ x, Tame w (k x)) : Tame w (Act.planFlows p fuel fs n k) := by
  induction fuel generalizing fs n with
  | zero => exact hk _
  | succ fuel ih =>
    refine .read fun _ => ?_
    dsimp only
    split
    · exact hk _
    · split
      · exact .all ⟨.poisonCounts, .airRelease, ih⟩
      · exact hk _
      · refine .ite (.all ⟨.planRefuse, .planStarve, ih⟩) ?_
        split
        · exact .all ⟨.planRefuse, .planStarve, ih⟩
        · exact .all ⟨.planAdd, .selectHead, .flow, .sch, ih⟩

theorem planPort {p silent cls} : Tame w (Act.planPort p silent cls) := by
  have hend {a b : Field} (ha : Other a.reg) (hb : Other b.reg) (forced : Bool) (n : Nat) :
      Tame w (Act.all [Act.setF a n, Act.setB b forced, Act.wrapBy (SCH_AIRx_PLACED p) n, Act.txRetune (chainOf p 0),
        Act.txRetune (chainOf p 1)]) := .all ⟨.setF ha, .setB hb, .wrapBy (port SCH_AIRx_PLACED rfl rfl), .txRetune,
          .txRetune⟩
  unfold Act.planPort
  cases p <;>
    refine .read fun _ => .ite (.all ⟨.each fun _ => .planRefuse, .each fun _ => .seq .planRefuse .planStarve,
      hend ?_ ?_ _ _⟩) <| .planPend fun _ => .planFlows fun _ => .planFlows fun _ => hend ?_ ?_ _ _ <;>
    rfl

theorem planBuild {silent cls} : Tame w (Act.planBuild silent cls) :=
  .seq .planPort .planPort

theorem campPlaced {r} : Tame w (Act.campPlaced r) :=
  .read fun _ => .all ⟨.campCount, .campCount, .runSet⟩

theorem campLost {r} : Tame w (Act.campLost r) :=
  .read fun _ => .runSet

theorem walkCounts {walk} : Tame w (Act.walkCounts walk) :=
  .ite (.wrap rfl) <| .all ⟨.sat rfl, .fwd, .read fun _ => .raiseOnce⟩

theorem pendAppend {nsa cls ready block bs k} (hk : ∀ x, Tame w (k x)) :
    Tame w (Act.pendAppend nsa cls ready block bs k) := by
  refine .read fun _ => ?_
  split
  · exact hk _
  · exact .all ⟨.mac, .memBytes, .pendLink, hk _⟩

theorem pendAdd {nsa cls ready block bs k} (hk : ∀ x, Tame w (k x)) :
    Tame w (Act.pendAdd nsa cls ready block bs k) := by
  refine .read fun _ => .ite (.pendAppend fun _ => .ite (hk _) <| .seq (.sat rfl) <| hk _) <| .ite ?_ <|
    .seq (.sat rfl) <| hk _
  split
  · exact .seq (.sat rfl) <| hk _
  · exact .all ⟨.sat rfl, .pendRemove, .pendAppend fun _ => hk _⟩

theorem requestRoll : Tame w Act.requestRoll :=
  .read fun _ => .when <| .all ⟨.sec, .setB rfl, .when .raise⟩

theorem takeCtr {key refuse k} (hrefuse : Tame w refuse) (hk : ∀ x, Tame w (k x)) :
    Tame w (Act.takeCtr key refuse k) := by
  refine .read fun _ => ?_
  split
  · exact .seq .raiseOnce hrefuse
  · exact .seq (.when <| .seq .raise .requestRoll) <| hk _

theorem cachePut {n l key} : Tame w (Act.cachePut n l key) :=
  .read fun _ => .when .sec

theorem putSlot {n k} : Tame w (Act.putSlot n k) :=
  .seq .sec .logUpdate

theorem dropCached {n} : Tame w (Act.dropCached n) :=
  .sec

theorem slotsValid : Tame w Act.slotsValid :=
  .read fun _ => .setF rfl

theorem orphanWalk {n} : Tame w (Act.orphanWalk n) :=
  .read fun _ => .all ⟨.each fun _ => .read fun _ => .all ⟨.putSlot, .dropCached, .sat rfl⟩, .when .raise,
    .slotsValid⟩

theorem tear {n} : Tame w (Act.tear n) :=
  .read fun _ => .all ⟨.putSlot, .dropCached, .orphanWalk, .sat rfl, .pair, .raise, .slotsValid⟩

theorem fetchSlot {n i upset bad k} (hbad : Tame w bad) (hk : ∀ x, Tame w (k x)) :
    Tame w (Act.fetchSlot n i upset bad k) :=
  .read fun _ => .ite hbad <| .ite (.seq .tear hbad) <| hk _

theorem deriveFromSlot {n l bad k} (hbad : Tame w bad) (hk : ∀ x, Tame w (k x)) :
    Tame w (Act.deriveFromSlot n l bad k) :=
  .read fun _ => .ite hbad <| .ite hbad <| .fetchSlot hbad fun _ => .all ⟨.wrap rfl, .cachePut, hk _⟩

theorem derived {n l bad k} (hbad : Tame w bad) (hk : ∀ x, Tame w (k x)) : Tame w (Act.derived n l bad k) := by
  refine .read fun _ => .ite hbad ?_
  split
  · exact .seq (.wrap rfl) <| hk _
  · refine .seq (.wrap rfl) <| .ite (.read fun _ => ?_) <| .deriveFromSlot hbad fun _ => hk _
    split
    · exact .seq (.wrap rfl) <| .all ⟨.wrap rfl, .cachePut, hk _⟩
    · exact .seq (.wrap rfl) <| .deriveFromSlot hbad fun _ => .all ⟨.wrap rfl, .cachePut, hk _⟩

theorem storeCtr {key c missing} (hmissing : Tame w missing) : Tame w (Act.storeCtr key c missing) := by
  unfold Act.storeCtr
  split
  · exact .recUpdate hmissing
  · exact .recUpdate hmissing
  · exact .reg rfl
  · exact .reg rfl
  · exact .nop

theorem sealOne {k seal_ refuse next} (hrefuse : Tame w refuse) (hnext : ∀ x, Tame w (next x)) :
    Tame w (Act.sealOne k seal_ refuse next) := by
  refine .takeCtr hrefuse fun _ => .read fun _ => ?_
  split
  · exact .derived (.seq (.sat rfl) hrefuse) fun _ => .all ⟨.wrap rfl, .storeCtr .nop, hnext _⟩

theorem groupKeys {f refuse k} (hrefuse : Tame w refuse) (hk : ∀ x, Tame w (k x)) :
    Tame w (Act.groupKeys f refuse k) :=
  .read fun _ => .ite (.derived hrefuse fun _ => .derived hrefuse fun _ => hk _) <| hk _

theorem sealFrame {link f refuse next} (hrefuse : Tame w refuse) (hnext : ∀ x, Tame w (next x)) :
    Tame w (Act.sealFrame link f refuse next) := by
  unfold Act.sealFrame
  have houter (g : List Byte) :
      Tame w (Act.sealOne link (fun key ep c => linkSeal key ep c g) refuse next) := .sealOne hrefuse hnext
  exact .groupKeys hrefuse fun _ => .ite (.sealOne hrefuse houter) (houter _)

theorem placePacket {q start decoder cls len} : Tame w (Act.placePacket q start decoder cls len) :=
  .queue

theorem airEnq {p f q decoder cls bs k} (hk : ∀ x y z, Tame w (k x y z)) :
    Tame w (Act.airEnq p f q decoder cls bs k) :=
  .read fun _ => .enqPacket fun _ => .seq (.when <| .seq .placePacket .stamp) <| hk _ _ _

theorem downSend {d pick block took k} (htook : ∀ x y, Tame w (took x y)) (hk : ∀ x, Tame w (k x)) :
    Tame w (Act.downSend d pick block took k) := by
  refine .read fun _ => .ite (hk _) <| .seq .walkCounts <| .ite (hk _) <| .ite (hk _) ?_
  split
  · exact hk _
  · refine .ite (.pendAdd fun _ => .ite (hk _) <| .seq (.read fun _ => htook _ _) <| hk _) ?_
    split
    · exact hk _
    · exact .sealFrame .nop fun _ => .airEnq fun _ _ _ => .ite (.seq (htook _ _) <| hk _) <| hk _

theorem campSend {r n b cls sent} (hsent : Tame w sent) : Tame w (Act.campSend r n b cls sent) :=
  .read fun _ => .downSend (fun _ _ => .runSet) fun _ => .when hsent

theorem campManifests {r cls} : Tame w (Act.campManifests r cls) :=
  .read fun _ => .each fun _ => .read fun _ => .when <| .campSend .nop

theorem campBcast {r d b cls sent} (hsent : Tame w sent) : Tame w (Act.campBcast r d b cls sent) := by
  refine .read fun _ => ?_
  dsimp only
  split
  · exact .nop
  · exact .when <| .sealFrame .nop fun _ => .airEnq fun _ _ _ => .when <| .seq .runSet hsent

theorem campRounds {r cls} : Tame w (Act.campRounds r cls) :=
  .read fun _ => .seq (.each fun _ => .each fun _ => .read fun _ => .when <| .campBcast .runSet) <| .read fun _ =>
    .when <| .all ⟨.campPut, .runSet, .when <| .seq .campPut .runSet⟩

theorem campTransfers {r cls} : Tame w (Act.campTransfers r cls) :=
  .read fun _ => .each fun _ => .each fun _ => .read fun _ => .when <| .campSend <| .recUpdate .nop

theorem campRepairs {r cls} : Tame w (Act.campRepairs r cls) :=
  .read fun _ => .seq (.each fun _ => .read fun _ => .when <| .campBcast .runSet) <| .each fun _ => .read fun _ =>
    .ite .runSet <| .when <| .campSend .runSet

theorem libPut {i f v} : Tame w (Act.libPut i f v) :=
  .read fun _ => .regionWrite

theorem campEnd {r st} : Tame w (Act.campEnd r st) :=
  .read fun _ => .all ⟨.campPut, .campPut, .libPut, .img, .raise⟩

theorem campFinish {r} : Tame w (Act.campFinish r) :=
  .read fun _ => .when .campEnd

theorem discardPacket {p q start} : Tame w (Act.discardPacket p q start) := by
  refine .all ⟨.sch, .each fun _ => .read fun _ => ?_, .airRelease⟩
  split
  · exact .nop
  · split
    · exact .when .txDrop
    · exact .nop

theorem campDrops : Tame w Act.campDrops := by
  refine .read fun _ => .seq (.each fun _ => ?_) .img
  split
  · exact .pendTake
  · exact .read fun _ => .when .discardPacket

theorem campCommit {cls} : Tame w (Act.campCommit cls) :=
  .seq (.each fun _ => .read fun _ => .when <| .all ⟨.campPlaced, .campLost, .read fun _ =>
    .all ⟨.when .campManifests, .when .campRounds, .when <| .seq .campTransfers .campRepairs⟩,
    .campFinish⟩) .campDrops

theorem tableEcc {n slot} : Tame w (Act.tableEcc n slot) := by
  refine .read fun _ => .all ⟨.when <| .seq .entry .tableCount, .when ?_, .sat (array rfl), .raise⟩
  split
  · exact .nop
  · exact .entry

theorem sweepRead {beat} : Tame w (Act.sweepRead beat) :=
  .read fun _ => .seq .fwd <| .setB rfl

theorem sweep {entries} : Tame w (Act.sweep entries) := by
  refine .read fun _ => .seq (.each fun _ => .when ?_) .sweepRead
  split
  · exact .seq (.sat (array rfl)) .pair
  · exact .tableEcc

theorem clearDead : Tame w Act.clearDead :=
  .read fun _ => .seq (.each fun _ => .nbrTrack .recFree) .env

theorem tagScrub {torn} : Tame w (Act.tagScrub torn) :=
  .read fun _ => .seq (.each fun _ => .read fun _ => .when .tear) .sec

theorem registerScrub {upsets} : Tame w (Act.registerScrub upsets) :=
  .each fun _ => .all ⟨.sat rfl, .pair, .raise⟩

theorem healthScore : Tame w Act.healthScore :=
  .read fun _ => .all ⟨.setF rfl, .pair, .healthPin, .when .raise⟩

theorem healthRecord : Tame w Act.healthRecord := by
  unfold Act.healthRecord
  refine .free fun v => .read fun s => ?_
  generalize s.healthBytes v.toNat = bs
  exact .when .memBytes

theorem qstats {n} : Tame w (Act.qstats n) :=
  .read fun _ => .seq .memBytes .queue

theorem qstatsAll : Tame w Act.qstatsAll :=
  .read fun _ => .each fun _ => .qstats

theorem hostCounts : Tame w Act.hostCounts :=
  .read fun _ => .all ⟨.when .raiseOnce, .when .raiseOnce, .hif⟩

theorem bridlePass : Tame w Act.bridlePass :=
  .read fun _ => .all ⟨.evt, .each fun _ => .bridleClose fun _ => .read fun _ => .raiseOnce, .evtStatus⟩

theorem recordCommit : Tame w Act.recordCommit :=
  .read fun _ => .seq (.each fun _ => .recordInput) <| .each fun _ => .recordInput

theorem shadowAcks : Tame w Act.shadowAcks := by
  refine .read fun _ => .all ⟨.mac, .each fun _ => .read fun _ => ?_⟩
  split
  · exact .seq .pair .ackDropped
  · exact .seq .ackDigest .dutyAdd

theorem blockDiffers {t blk} : Tame w (Act.blockDiffers t blk) :=
  .read fun _ => .ite .linkSend <| .seq (.sat (array rfl)) .raise

theorem digestsAgree : Tame w Act.digestsAgree :=
  .read fun _ => .ite (.seq (.seq .pairNext .pair) <| .seq (.sat rfl) .raise) <| .when <| .all ⟨.pair,
    .when .pairNext, .seq (.sat rfl) .raise⟩

theorem diverge {beat mask} : Tame w (Act.diverge beat mask) :=
  .read fun _ => .all ⟨.sat rfl, .raise, .pair, .when <| .setB rfl⟩

theorem digestCompare {beat} : Tame w (Act.digestCompare beat) := by
  refine .read fun _ => ?_
  split
  · exact .all ⟨.pair, .each fun _ => .blockDiffers, .ite .digestsAgree .diverge⟩
  · exact .nop

theorem digestClose : Tame w Act.digestClose :=
  .read fun _ => .seq (.when <| .all ⟨.when <| .seq .linkSend .pair, .when .shadowAcks, .read fun _ =>
    .seq .linkSend .pair, .digestCompare⟩) .pair

theorem wrapToPartner {source} : Tame w (Act.wrapToPartner source) :=
  .read fun _ => .ite .nop <| .ite (.sat rfl) <| .fetchSlot (.sat rfl) fun _ => .linkSend

theorem bulkSend : Tame w Act.bulkSend :=
  .read fun _ => .when <| .all ⟨.linkSend, .each fun _ => .wrapToPartner, .each fun _ => .linkSend, .pair,
    .each fun _ => .recordInput⟩

theorem holdFollow : Tame w Act.holdFollow :=
  .read fun _ => .seq (.ite (.when .pair) .pair) <| .read fun _ => .setF rfl

theorem pairCommit : Tame w Act.pairCommit :=
  .read fun _ => .when <| .all ⟨.digestClose, .bulkSend, .holdFollow⟩

end Act.Tame

/-! ### Where a beat begins and which window it opens -/

/-- What a program within a beat leaves. -/
theorem Act.Tame.sameBeat {w : Bool} {a : Act} (h : Act.Tame w a) (s : State) : SameBeat s.u (a.run s).u :=
  (Act.Only.run h .refl .trans s).2

theorem Act.Tame.status {a : Act} (h : Act.Tame true a) (s : State) : (a.run s).reg BT_STATUS = s.reg BT_STATUS :=
  (Act.Only.run h .refl .trans s).1 BT_STATUS fun hne => hne rfl rfl

/-- The beat in progress, with the sample at its start. -/
structure BeatIs (n sample : Nat) (u : Units) : Prop where
  beat : u.bt.beat = n
  used : u.bt.used = some n
  sample : u.bt.sample = sample

theorem BeatIs.run {w : Bool} {n sample : Nat} {a : Act} {s : State} (h : BeatIs n sample s.u) (ha : Act.Tame w a) :
    BeatIs n sample (a.run s).u :=
  have hsame := ha.sameBeat s
  ⟨hsame.beat.trans h.beat, hsame.used.trans h.used, hsame.sample.trans h.sample⟩

/-- R41: opening a beat stamps its number and sample. -/
theorem beatIs_beatOpen (n sample : Nat) (s : State) : BeatIs n sample ((Act.beatOpen n sample).run s).u := by
  rw [Act.beatOpen, Act.run_read, Act.run_all_cons]
  refine BeatIs.run (w := false) ⟨rfl, rfl, rfl⟩ ?_
  exact .all ⟨.when <| .each fun _ => .engine, .setAny, .setAny, .setAny⟩

/-- R35, R41: where no restart is scheduled, the beat begins and all that its boundary does leaves it. -/
theorem beatIs_beatBegin {s : State} (h : s.u.boot.activateAt = none) (n sample ticks : Nat) :
    BeatIs n sample ((Act.beatBegin n sample ticks).run s).u := by
  have hdue : s.restartDue n = false := by simp [State.restartDue, h]
  rw [Act.beatBegin, Act.run_read, hdue, Bool.false_and, if_neg Bool.false_ne_true, Act.run_all_cons, Act.run_all_cons,
    Act.run_all_cons]
  refine (beatIs_beatOpen n sample _).run (w := false) ?_
  exact .all ⟨.engineReturns, .when .commissionLeave, .forcedExit, .stagedMode, .stagedLevel, .when .driftB,
    .budgetIssue, .logicBist, .rolesFollow, .ite .pairBoundary .epochCommit, .rfBoundary, .rxBoundary, .macBoundary,
    .policerRefill, .fLastCatchup, .domainRebuild, .read fun _ => .queuesBoundary, .recordHeads, .pairAfter,
    .read fun _ => .hif, .takeCommands, .read fun _ => .when .campWalk, .beatPulse⟩

/-- R58, R60, R63: the end of a beat leaves the boot unit. -/
theorem boot_beatEnd (used unfinished : List Nat) (s : State) :
    ((Act.beatEnd used unfinished).run s).u.boot = s.u.boot := by
  have hraise {src : Nat} {record : List Byte} :
      (Act.raise src record).Only (fun _ => True) fun u v => v.boot = u.boot :=
    Act.Only.raise ⟨trivial, trivial, trivial, trivial, trivial, fun _ => trivial, fun _ => trivial, fun _ => trivial,
      fun _ _ => rfl, fun _ _ => rfl⟩ _ _
  have honly : (Act.beatEnd used unfinished).Only (fun _ => True) fun u v => v.boot = u.boot := by
    simp [Act.beatEnd, Act.overrun, Act.accBeat, Act.engine, Act.bt, Act.pair, Act.pwr, hraise]
  exact (honly.run (fun _ => rfl) (fun h k => k.trans h) s).2

/-- R41, R43: the first beat after a start begins at the next whole millisecond. -/
theorem completes_sequencerStart {s : State} (hrun : s.bit BT_STATUS_RUNNING = true) (hw : s.fld BT_STATUS_WINDOW = 0)
    (hgap : s.bit BT_STATUS_GAP = false) (hact : s.u.boot.activateAt = none) (sample : BitVec 64) :
    Completes (.sequencerStart sample) s fun t => BeatIs s.nextBeatNo sample.toNat t.u := by
  refine ⟨_, rfl, ?_⟩
  rw [Act.run_when, if_pos (by simp [hrun, hw, hgap])]
  exact beatIs_beatBegin hact _ _ _

/-- R35: at a boundary in the commit window the next beat begins. -/
theorem completes_beatBoundary {s : State} (hrun : s.bit BT_STATUS_RUNNING = true) (hw : s.fld BT_STATUS_WINDOW = 3)
    (hgap : s.bit BT_STATUS_GAP = false) (hdrift : s.u.pwr.driftEntry ≠ 2) (hstep : s.u.tk.step = none)
    (hact : s.u.boot.activateAt = none) (sample : BitVec 64) (used : List (BitVec 21)) (unfinished : List (Fin 16))
    (ticks : BitVec 40) :
    Completes (.beatBoundary sample used unfinished ticks) s fun t => BeatIs (s.u.bt.beat + 1) sample.toNat t.u := by
  refine ⟨_, rfl, ?_⟩
  simp only [hrun, hgap, hw, hstep, Bool.not_true, Bool.false_eq_true, if_false, beq_self_eq_true, Act.run_when,
    if_true, beq_iff_eq, hdrift, Act.run_seq]
  exact beatIs_beatBegin ((congrArg Boot.activateAt (boot_beatEnd _ _ s)).trans hact) _ _ _

/-- R36, R37: the plan window closes into the work window, its candidates flows of the two RF domains. -/
theorem completes_planWindowClose {s : State} (hrun : s.bit BT_STATUS_RUNNING = true)
    (hw : s.fld BT_STATUS_WINDOW = 1) :
    Completes .planWindowClose s fun t => t.fld BT_STATUS_WINDOW = 2 ∧ ∀ c ∈ t.u.sch.cands, c < 256 := by
  refine ⟨_, rfl, ?_⟩
  rw [Act.run_when, if_pos (by simp [hrun, hw]), Act.run_seq]
  refine ⟨?_, fun c hc => ?_⟩
  · have hgather (t : State) : (Act.planGather.run t).fld BT_STATUS_WINDOW = t.fld BT_STATUS_WINDOW := rfl
    rw [hgather]
    exact Act.fld_setF_same _ _ _ rfl (by decide)
  · simp only [Act.planGather, Act.run_read, Act.sch, Act.run_units, List.mem_flatMap, List.mem_map, List.mem_filter,
      List.mem_range] at hc
    obtain ⟨p, -, f, ⟨hf, -⟩, rfl⟩ := hc
    have hp : p.idx < 2 := by cases p <;> decide
    omega

theorem bit_setB_same (f : Field) (s : State) (hf : fixedReg f.reg = none) (h : f.lo + f.width ≤ 32)
    (hwidth : 0 < f.width) : ((Act.setB f true).run s).bit f = true := by
  have hone : 1 % 2 ^ f.width = 1 := Nat.mod_eq_of_lt (Nat.one_lt_two_pow hwidth.ne')
  simp [State.bit, Act.setB, Act.fld_setF_same f 1 s hf h, hone]

/-- R38: from the bind line on, inputs are bound to the next beat. -/
theorem completes_bindLine {s : State} (hrun : s.bit BT_STATUS_RUNNING = true) (hw : s.fld BT_STATUS_WINDOW = 2) :
    Completes .bindLine s fun t => t.bit BT_STATUS_PAST_BIND = true ∧ t.bindBeat = s.u.bt.beat + 1 := by
  refine ⟨_, rfl, ?_⟩
  rw [Act.run_when, if_pos (by simp [hrun, hw])]
  have hbind : ((Act.setB BT_STATUS_PAST_BIND true).run s).bit BT_STATUS_PAST_BIND = true :=
    bit_setB_same _ _ rfl (by decide) (by decide)
  refine ⟨hbind, ?_⟩
  rw [State.bindBeat, hbind, Bool.true_or, Bool.true_or, if_pos rfl, Act.setB, Act.setF_u]

/-- R59: the commit window opens past the bind line, and all that it does leaves BT_STATUS. -/
theorem completes_commitWindowOpen {s : State} (hrun : s.bit BT_STATUS_RUNNING = true)
    (hw : s.fld BT_STATUS_WINDOW = 2) (unfinished : List (Fin 16)) (cls : Fin 4) (upsets : List (BitVec 24))
    (torn : List (Fin 1024)) (entries : List (Fin 4 × BitVec 18 × EccFault)) :
    Completes (.commitWindowOpen unfinished cls upsets torn entries) s fun t =>
      t.fld BT_STATUS_WINDOW = 3 ∧ t.bit BT_STATUS_PAST_BIND = true := by
  refine ⟨_, rfl, ?_⟩
  rw [Act.run_when, if_pos (by simp [hrun, hw]), Act.run_all_cons, Act.run_all_cons]
  obtain ⟨t, ht⟩ : ∃ t, (Act.setB BT_STATUS_PAST_BIND true).run ((Act.setF BT_STATUS_WINDOW 3).run s) = t := ⟨_, rfl⟩
  have hwindow : t.fld BT_STATUS_WINDOW = 3 := by
    rw [← ht, Act.setB, Act.fld_setF_apart _ _ _ _ rfl (by decide) (by decide)]
    exact Act.fld_setF_same _ _ _ rfl (by decide)
  have hbind : t.bit BT_STATUS_PAST_BIND = true := ht ▸ bit_setB_same _ _ rfl (by decide) (by decide)
  have hrest : Act.Tame true (.all [Act.lateWork (unfinished.map (·.val)), Act.powerSlotTake,
      .read fun t => Act.when t.meshRuns (Act.planBuild (t.planSilent || Nat.blt 0 t.u.pwr.driftEntry) cls.val),
      Act.campCommit cls.val, Act.sweep (entries.map fun x => (x.1.val, x.2.1.toNat, x.2.2)), Act.clearDead,
      Act.tagScrub (torn.map (·.val)), Act.registerScrub (upsets.map (·.toNat)), Act.healthScore, Act.healthRecord,
      Act.qstatsAll, Act.hostCounts, Act.bridlePass, Act.recordCommit, Act.pairCommit]) :=
    .all ⟨.lateWork, .powerSlotTake, .read fun _ => .when .planBuild, .campCommit, .sweep, .clearDead, .tagScrub,
      .registerScrub, .healthScore, .healthRecord, .qstatsAll, .hostCounts, .bridlePass, .recordCommit, .pairCommit⟩
  have hstatus := hrest.status t
  rw [ht]
  constructor
  · simpa only [State.fld, show BT_STATUS_WINDOW.reg = BT_STATUS from rfl, hstatus] using hwindow
  · simpa only [State.bit, State.fld, show BT_STATUS_PAST_BIND.reg = BT_STATUS from rfl, hstatus] using hbind

/-- Settles O3: a boundary opens its beat and leaves it, and each line of the beat sets its field of BT_STATUS, which
nothing else it does writes. -/
theorem beatBoundaries : Obligations.BeatBoundaries := by
  unfold Obligations.BeatBoundaries
  refine ⟨fun s sample hrun hw hgap hact => ?_, fun s sample used unfinished ticks hrun hw hgap hdrift hstep hact => ?_,
    fun _ hrun hw => completes_planWindowClose hrun hw, fun _ hrun hw => completes_bindLine hrun hw,
    fun _ unfinished cls upsets torn entries hrun hw =>
      completes_commitWindowOpen hrun hw unfinished cls upsets torn entries⟩
  · obtain ⟨t, ht, hbeat, hused, hsample⟩ := completes_sequencerStart hrun hw hgap hact sample
    exact ⟨t, ht, hbeat, hused, hsample⟩
  · obtain ⟨t, ht, hbeat, hused, hsample⟩ :=
      completes_beatBoundary hrun hw hgap hdrift hstep hact sample used unfinished ticks
    exact ⟨t, ht, hbeat, hused, hsample⟩

end Sys2Proof.Machine

namespace Sys2Proof.Machine

open Sys2Proof Sys2Proof.Reg

/-! ### What a program keeps of the machine -/

/-- A program keeps what holds of the machine before it. -/
def Act.Keeps (P : State → Prop) (a : Act) : Prop := ∀ s, P s → P (a.run s)

namespace Act.Keeps

variable {P : State → Prop}

theorem nop : Keeps P .nop := fun _ h => h
theorem seq {a b : Act} (ha : Keeps P a) (hb : Keeps P b) : Keeps P (.seq a b) := fun s h => hb _ (ha s h)
theorem read {k : State → Act} (h : ∀ s, Keeps P (k s)) : Keeps P (.read k) := fun s => h s s

theorem ite {c : Prop} [Decidable c] {a b : Act} (ha : Keeps P a) (hb : Keeps P b) :
    Keeps P (if c then a else b) := by
  split <;> assumption

theorem when {c : Bool} {a : Act} (h : Keeps P a) : Keeps P (Act.when c a) := ite h nop

theorem all {l : List Act} (h : l.Forall (Keeps P)) : Keeps P (Act.all l) := by
  induction l with
  | nil => exact nop
  | cons a l ih =>
    obtain ⟨ha, hl⟩ := (List.forall_cons _ _ _).1 h
    exact seq ha (ih hl)

theorem each {α : Type} {l : List α} {f : α → Act} (h : ∀ x, Keeps P (f x)) : Keeps P (Act.each l f) :=
  all (List.forall_iff_forall_mem.2 fun a ha => by
    obtain ⟨x, -, rfl⟩ := List.mem_map.1 ha
    exact h x)

end Act.Keeps

/-! ### The transmit chains -/

/-- A chain's record has a property. -/
def State.TxHas (c : Chain) (Q : TxChain → Prop) (s : State) : Prop := Q (s.tx c)

theorem State.TxHas.run {c : Chain} {Q : TxChain → Prop} {s : State} {a : Act} (h : State.TxHas c Q s)
    (ha : Act.Keeps (State.TxHas c Q) a) : State.TxHas c Q (a.run s) := ha s h

/-- The chains stand in the RF unit (R122). -/
theorem State.tx_congr {s t : State} (h : t.u.rf = s.u.rf) (c : Chain) : t.tx c = s.tx c := by
  rw [State.tx, h, State.tx]

theorem Act.tx_txUnit (c : Chain) (f : TxChain → TxChain) (s : State) (c' : Chain) :
    ((Act.txUnit c f).run s).tx c' = if c = c' then f (s.tx c) else s.tx c' := by
  cases c <;> cases c' <;> rfl

@[simp] theorem Act.tx_txUnit_same (c : Chain) (f : TxChain → TxChain) (s : State) :
    ((Act.txUnit c f).run s).tx c = f (s.tx c) := by
  rw [tx_txUnit, if_pos rfl]

@[simp] theorem Act.tx_txCmd_same (c : Chain) (f : TxCmd → TxCmd) (s : State) :
    ((Act.txCmd c f).run s).tx c = { s.tx c with cmd := (s.tx c).cmd.map f } := tx_txUnit_same ..

/-- A program within a reach leaves the chains, where it does not reach the RF unit. -/
theorem Act.Within.tx {R : Reach} {a : Act} (h : Act.Within R a) (hrf : .rf ∉ R.units := by decide) (s : State)
    (c : Chain) : (a.run s).tx c = s.tx c :=
  State.tx_congr ((h.fits s).units .rf hrf).symm c

namespace Act.Keeps

variable {c : Chain} {Q : TxChain → Prop}

theorem tx {R : Reach} {a : Act} (h : Act.Within R a) (hrf : .rf ∉ R.units := by decide) :
    Keeps (State.TxHas c Q) a :=
  fun s hs => by rwa [State.TxHas, h.tx hrf s]

theorem txUnit {c' : Chain} {f : TxChain → TxChain} (h : ∀ t, Q t → Q (f t)) :
    Keeps (State.TxHas c Q) (Act.txUnit c' f) := fun s hs => by
  rw [State.TxHas, Act.tx_txUnit]
  split
  · next e => exact e ▸ h _ hs
  · exact hs

/-- An update of a port beside its chains. -/
theorem txRfUnit {p : RfPort} {f : RfUnit → RfUnit}
    (h : ∀ u, (f u).tx0 = u.tx0 ∧ (f u).tx1 = u.tx1 := by exact fun _ => ⟨rfl, rfl⟩) :
    Keeps (State.TxHas c Q) (Act.rfUnit p f) := fun s hs => by
  have hchain (u : RfUnit) (n : Nat) : (f u).chain n = u.chain n := by
    rw [RfUnit.chain, (h u).1, (h u).2, RfUnit.chain]
  have htx : ((Act.rfUnit p f).run s).tx c = s.tx c := by
    rw [State.tx, State.tx, Act.rfUnit, Act.rf, Act.run_units]
    cases p <;> cases c.port
    · exact hchain _ _
    · rfl
    · rfl
    · exact hchain _ _
  rwa [State.TxHas, htx]

theorem txOfRf {a : Act} (h : ∀ s, (a.run s).u.rf = s.u.rf) : Keeps (State.TxHas c Q) a := fun s hs => by
  rwa [State.TxHas, State.tx_congr (h s)]

theorem txSetF {f : Field} {v : Nat} : Keeps (State.TxHas c Q) (Act.setF f v) := txOfRf fun s => by simp
theorem txSetB {f : Field} {b : Bool} : Keeps (State.TxHas c Q) (Act.setB f b) := txSetF
theorem txWrap {a : Nat} : Keeps (State.TxHas c Q) (Act.wrap a) := txOfRf fun s => by simp [Act.wrap]

/-- R135: a CCA that restarts leaves what holds of a chain with no CCA under way. -/
theorem txCcaRestart {c' : Chain} (h : ∀ t d, Q t → t.cmd = some d → d.phase ≠ .cca) :
    Keeps (State.TxHas c Q) (Act.ccaRestart c') := fun s hs => by
  rw [Act.ccaRestart, Act.run_read]
  cases hcmd : (s.tx c').cmd with
  | none => exact hs
  | some d =>
    rw [Act.run_when]
    split
    · next hcca =>
      have hne : c' ≠ c := fun e => h _ d hs (e ▸ hcmd) (by simpa using hcca)
      refine seq txWrap (seq (tx .txHolding) nop) _ ?_
      rwa [State.TxHas, Act.txCmd, Act.tx_txUnit, if_neg hne]
    · exact hs

theorem txBlankOn {p : RfPort} {t sample : Nat} (h : ∀ t d, Q t → t.cmd = some d → d.phase ≠ .cca) :
    Keeps (State.TxHas c Q) (Act.blankOn p t sample) :=
  read fun _ => when <| all ⟨txSetB, txRfUnit, tx .announce, txCcaRestart h, txCcaRestart h⟩

theorem txCalStart {c' : Chain} {k : Nat} (h : ∀ t, Q t → Q { t with calibrating := true, fails := 0 }) :
    Keeps (State.TxHas c Q) (Act.txCalStart c' k) :=
  all ⟨txUnit h, txSetF, tx .txSetState, txWrap⟩

theorem txRetune {c' : Chain} (h : ∀ t, Q t → Q { t with calibrating := true, fails := 0 }) :
    Keeps (State.TxHas c Q) (Act.txRetune c') :=
  read fun _ => by split; exacts [nop, when <| txCalStart h]

theorem txCxFollow {p : RfPort} : Keeps (State.TxHas c Q) (Act.cxFollow p) := read fun _ => seq txSetB txRfUnit

/-- R144: airtime that joins the regions leaves the chains. -/
theorem txDutyAdd {p : RfPort} {k rate t : Nat} : Keeps (State.TxHas c Q) (Act.dutyAdd p k rate t) :=
  read fun _ => each fun _ => when <| read fun _ =>
    all ⟨txRfUnit, tx .dutyStat, when <| tx (R := .events [] []) .raise⟩

end Act.Keeps

/-! ### The fields that show a port and its chains -/

/-- A field reads a number. -/
def State.FldIs (f : Field) (n : Nat) (s : State) : Prop := s.fld f = n

theorem State.FldIs.run {f : Field} {n : Nat} {s : State} {a : Act} (h : State.FldIs f n s)
    (ha : Act.Keeps (State.FldIs f n) a) : State.FldIs f n (a.run s) := ha s h

theorem State.FldIs.bit {f : Field} {n : Nat} {s : State} (h : State.FldIs f n s) : s.bit f = Nat.beq n 1 :=
  congrArg (Nat.beq · 1) h

/-- Fields whose bits stand apart are apart, whatever their registers. -/
theorem Field.apart_of_bits {f g : Field}
    (h : (Nat.ble (f.lo + f.width) g.lo || Nat.ble (g.lo + g.width) f.lo) = true) : Field.apart f g = true := by
  rw [Field.apart, Bool.or_assoc, h, Bool.or_true]

theorem Reach.lacks_port {R : Reach} (g : RfPort → Nat) {p : RfPort} (hs : R.has (g .s) = false := by rfl)
    (hw : R.has (g .w) = false := by rfl) : R.has (g p) = false := by
  cases p
  · exact hs
  · exact hw

namespace Act.Keeps

variable {g : Field} {n : Nat}

/-- A program keeps a field of a register that is out of its reach. -/
theorem fld {R : Reach} {a : Act} (h : Act.Within R a) (hg : R.has g.reg = false) : Keeps (State.FldIs g n) a :=
  fun s hs => by
    rw [State.FldIs, State.fld, (h.fits s).reg _ hg]
    exact hs

theorem fldSetF {f : Field} {v : Nat}
    (h : (Nat.ble (f.lo + f.width) g.lo || Nat.ble (g.lo + g.width) f.lo) = true := by rfl)
    (hf : Nat.ble (f.lo + f.width) 32 = true := by rfl) (hg : Nat.ble g.lo 32 = true := by rfl) :
    Keeps (State.FldIs g n) (Act.setF f v) := fun s hs =>
  (Act.fld_setF_apart f g v s (Field.apart_of_bits h) (Nat.le_of_ble_eq_true hf) (Nat.le_of_ble_eq_true hg)).trans hs

theorem fldSetB {f : Field} {b : Bool}
    (h : (Nat.ble (f.lo + f.width) g.lo || Nat.ble (g.lo + g.width) f.lo) = true := by rfl)
    (hf : Nat.ble (f.lo + f.width) 32 = true := by rfl) (hg : Nat.ble g.lo 32 = true := by rfl) :
    Keeps (State.FldIs g n) (Act.setB f b) := fldSetF h hf hg

theorem fldRfUnit {p : RfPort} {f : RfUnit → RfUnit} : Keeps (State.FldIs g n) (Act.rfUnit p f) := fun _ hs => hs
theorem fldTxCmd {c : Chain} {f : TxCmd → TxCmd} : Keeps (State.FldIs g n) (Act.txCmd c f) := fun _ hs => hs

/-- A field of a port's status in a program that does not reach the status. -/
theorem fldStatus {R : Reach} {a : Act} {p : RfPort} (h : Act.Within R a) (hg : g.reg = RFx_STATUS p := by rfl)
    (hs : R.has (RFx_STATUS .s) = false := by rfl) (hw : R.has (RFx_STATUS .w) = false := by rfl) :
    Keeps (State.FldIs g n) a := fld h (hg ▸ Reach.lacks_port RFx_STATUS hs hw)

/-- R131: what a command that leaves its chain shows leaves the port's T/R switch. -/
theorem fldTxDrop {c : Chain} {p : RfPort} : Keeps (State.FldIs (RFx_STATUS_TRS_TX p) n) (Act.txDrop c) :=
  all ⟨fldRfUnit, fldStatus .txHolding, read fun _ => seq fldSetB fldRfUnit⟩

theorem fldTxCalStart {c : Chain} {p : RfPort} {k : Nat} :
    Keeps (State.FldIs (RFx_STATUS_TRS_TX p) n) (Act.txCalStart c k) :=
  all ⟨fldRfUnit, fldSetF, seq fldSetF (read fun _ => fldSetF),
    fldStatus (R := .quiet (ports RFx_TX_CAL) []) (.wrap (Reach.has_port RFx_TX_CAL))⟩

theorem fldTxRetune {c : Chain} {p : RfPort} : Keeps (State.FldIs (RFx_STATUS_TRS_TX p) n) (Act.txRetune c) :=
  read fun _ => by split; exacts [nop, when fldTxCalStart]

/-- R134: blanking leaves the port's T/R switch. -/
theorem fldBlankOnSwitch {p : RfPort} {t sample : Nat} :
    Keeps (State.FldIs (RFx_STATUS_TRS_TX p) n) (Act.blankOn p t sample) :=
  read fun _ => when <| all ⟨fldSetB, fldRfUnit, fldStatus .announce, fldStatus .ccaRestart, fldStatus .ccaRestart⟩

/-- R135: a CCA that restarts leaves the states of the chains. -/
theorem fldCcaRestart {c c' : Chain} :
    Keeps (State.FldIs (RFx_TXn_STAT_STATE c.port c.n) n) (Act.ccaRestart c') :=
  read fun _ => by
    split
    · exact nop
    · exact when <| all ⟨fldTxCmd,
        fld (R := .quiet (ports RFx_CCA_RESTART) []) (.wrap (Reach.has_port RFx_CCA_RESTART)) (by cases c <;> rfl),
        read fun _ => fldSetB⟩

theorem fldBlankOnState {p : RfPort} {c : Chain} {t sample : Nat} :
    Keeps (State.FldIs (RFx_TXn_STAT_STATE c.port c.n) n) (Act.blankOn p t sample) :=
  read fun _ => when <| all ⟨
    fld (R := .quiet (ports RFx_STATUS) []) (.setB (Reach.has_port RFx_STATUS)) (by cases c <;> rfl), fldRfUnit,
    fld .announce (by cases c <;> rfl), fldCcaRestart, fldCcaRestart⟩

end Act.Keeps

theorem fixedReg_rfxStatus (p : RfPort) : fixedReg (RFx_STATUS p) = none := by cases p <;> rfl

/-- A flag reads what was stored in it. -/
theorem fldIs_setB (f : Field) (b : Bool) (s : State) (hf : fixedReg f.reg = none)
    (h : Nat.ble (f.lo + f.width) 32 = true := by rfl) (hw : Nat.blt 0 f.width = true := by rfl) :
    State.FldIs f (if b then 1 else 0) ((Act.setB f b).run s) := by
  refine (Act.fld_setF_same f _ s hf (Nat.le_of_ble_eq_true h)).trans (Nat.mod_eq_of_lt ?_)
  have h1 : 1 < 2 ^ f.width := Nat.one_lt_two_pow (Nat.ne_of_gt (by simpa using hw))
  cases b
  · exact Nat.zero_lt_of_lt h1
  · exact h1

/-! ### What a frame sent leaves of the RF ports -/

/-- What a program beside the RF ports may touch: anything but their units and their counts of frames sent. -/
def Foot.besideRf : Foot where
  regs a := !(a == RFx_TX_FRAMES .s) && !(a == RFx_TX_FRAMES .w)
  mem _ _ := true
  units u v := v.rf = u.rf
  refl _ := rfl
  trans h k := k.trans h
  stable _ := rfl

/-- A program that leaves the RF ports' units and their counts of frames sent. -/
def Act.BesideRf (a : Act) : Prop := a.Fits Foot.besideRf

namespace Act.BesideRf

theorem nop : BesideRf .nop := Fits.nop
theorem seq {a b : Act} (ha : BesideRf a) (hb : BesideRf b) : BesideRf (.seq a b) := Fits.seq ha hb
theorem read {k : State → Act} (h : ∀ s, BesideRf (k s)) : BesideRf (.read k) := Fits.read h
theorem ite {c : Prop} [Decidable c] {a b : Act} (ha : BesideRf a) (hb : BesideRf b) :
    BesideRf (if c then a else b) := Fits.ite ha hb
theorem when {c : Bool} {a : Act} (h : BesideRf a) : BesideRf (Act.when c a) := Fits.when h
theorem all {l : List Act} (h : l.Forall BesideRf) : BesideRf (Act.all l) := Fits.all (List.forall_iff_forall_mem.1 h)
theorem each {α : Type} {l : List α} {f : α → Act} (h : ∀ x, BesideRf (f x)) : BesideRf (Act.each l f) :=
  Fits.each fun x _ => h x
theorem setF {f : Field} {v : Nat} (h : Foot.besideRf.regs f.reg = true := by rfl) : BesideRf (Act.setF f v) :=
  Fits.setF h
theorem wrap {a : Nat} (h : Foot.besideRf.regs a = true := by rfl) : BesideRf (Act.wrap a) := Fits.wrap h
theorem units {f : Units → Units} (h : ∀ u, (f u).rf = u.rf := by exact fun _ => rfl) : BesideRf (.units f) :=
  Fits.units h

theorem memBytes {a : Nat} {bs : List Byte} : BesideRf (Act.memBytes a bs) := fun _ =>
  ⟨fun _ _ => by simp, fun _ h => (nomatch h), by rw [memBytes_u]; rfl⟩

/-- A program within a reach that holds no RF unit and no count of frames sent. -/
theorem within {R : Reach} {a : Act} (h : Within R a) (hrf : .rf ∉ R.units := by decide)
    (hs : R.has (RFx_TX_FRAMES .s) = false := by rfl) (hw : R.has (RFx_TX_FRAMES .w) = false := by rfl) :
    BesideRf a := fun s => by
  refine ⟨fun x hx => (h.fits s).reg x ?_, fun _ hx => (nomatch hx), ((h.fits s).units .rf hrf).symm⟩
  have hcount : x = RFx_TX_FRAMES .s ∨ x = RFx_TX_FRAMES .w := by
    simpa [Foot.besideRf, imp_iff_not_or] using hx
  rcases hcount with rfl | rfl
  · exact hs
  · exact hw

/-! Programs that end a frame. -/

theorem queue {n : Nat} {f : Queue → Queue} : BesideRf (Act.queue n f) := units

theorem writePage {n : Nat} {pg : Page} {old : Nat} {next : Option Nat} :
    BesideRf (Act.writePage n pg old next) := by
  refine read fun _ => all ⟨each fun _ => ?_, memBytes⟩
  split
  · exact nop
  · exact seq memBytes memBytes

theorem pagesFill {n k : Nat} : BesideRf (Act.pagesFill n k) := by
  induction k with
  | zero => exact nop
  | succ k ih =>
    refine read fun _ => when ?_
    dsimp only
    split
    · refine ite (all ⟨queue, writePage, ih⟩) ?_
      split
      · exact nop
      · exact all ⟨units, queue, writePage, ih⟩
    · split
      · exact nop
      · exact all ⟨units, queue, ih⟩

theorem pagesFollow {n : Nat} : BesideRf (Act.pagesFollow n) :=
  all ⟨read fun _ => when <| seq queue units, read fun _ => pagesFill, read fun _ => setF⟩

theorem fcFollow : BesideRf Act.fcFollow :=
  all ⟨read fun _ => setF, within .fcPins, within .pauseEval, within .pauseEval⟩

theorem queueDone {n : Nat} : BesideRf (Act.queueDone n) := all ⟨queue, pagesFollow, fcFollow⟩

theorem queueLog {n op : Nat} : BesideRf (Act.queueLog n op) := read fun _ => within .logUpdate

theorem releasePacket {n start : Nat} : BesideRf (Act.releasePacket n start) := by
  refine read fun _ => ?_
  split
  · exact nop
  · exact seq queue <| all ⟨queue, queueLog, queueDone⟩

theorem airDrain {q d f k : Nat} : BesideRf (Act.airDrain q d f k) := by
  induction k with
  | zero => exact nop
  | succ k ih =>
    refine read fun _ => ?_
    split
    · exact nop
    · exact when <| all ⟨releasePacket, within .flow, within .stamp, ih⟩

theorem airRelease {p : RfPort} {q start : Nat} : BesideRf (Act.airRelease p q start) := by
  refine read fun _ => ?_
  split
  · exact releasePacket
  · exact all ⟨within .flow, units, airDrain⟩

theorem pendChain {l : List Nat} : BesideRf (Act.pendChain l) := by
  induction l with
  | nil => exact nop
  | cons a l ih =>
    cases l with
    | nil => exact memBytes
    | cons b l => exact seq memBytes ih

theorem recUpdate {nsa : Nat} {fields : List (RecField × Nat)} : BesideRf (Act.recUpdate nsa fields) := by
  have recPut {f : RecField} {v : Nat} : BesideRf (Act.recPut nsa f v) := read fun _ => memBytes
  exact read fun _ => ite (seq (each fun _ => recPut) <|
    all ⟨read fun _ => recPut, read fun _ => recPut, read fun _ => within .logUpdate⟩) nop

theorem tableUpdate {n key : Nat} {f : Entry → Entry} : BesideRf (Act.tableUpdate n key f) := by
  refine read fun _ => ?_
  split
  · exact nop
  · exact within .entry

theorem pendRemove {nsa : Nat} {gone : List Nat} : BesideRf (Act.pendRemove nsa gone) :=
  read fun _ => when <| seq (all ⟨pendChain, recUpdate, seq tableUpdate tableUpdate⟩) <| read fun _ => units

theorem entryDone {e : PlanEntry} : BesideRf (Act.entryDone e) := by
  rw [Act.entryDone]
  split
  · exact airRelease
  · exact seq units pendRemove

/-- R209, R221, R226: what follows the end of a device's frame leaves the RF ports. -/
theorem frameSent {d : TxCmd} {e : PlanEntry} {stop : Nat} : BesideRf (Act.frameSent d e stop) :=
  read fun _ => all ⟨when wrap, when units, ite units entryDone⟩

/-- The chains stand in the RF unit. -/
theorem tx {a : Act} (h : BesideRf a) (s : State) (c : Chain) : (a.run s).tx c = s.tx c :=
  State.tx_congr (h s).units c

theorem reg_txFrames {a : Act} (h : BesideRf a) (s : State) (p : RfPort) :
    (a.run s).reg (RFx_TX_FRAMES p) = s.reg (RFx_TX_FRAMES p) := by
  cases p
  · exact (h s).reg _ rfl
  · exact (h s).reg _ rfl

end Act.BesideRf

/-! ### The transmit sequence (R131–R134) -/

/-- The command of a chain stands in a phase of its sequence. -/
def TxChain.InPhase (ph : TxPhase) (t : TxChain) : Prop := (t.cmd.map fun d => d.phase) = some ph

theorem TxChain.InPhase.ne_cca {ph : TxPhase} (h : ph ≠ .cca) (t : TxChain) (d : TxCmd) (ht : t.InPhase ph)
    (hd : t.cmd = some d) : d.phase ≠ .cca := by
  have : d.phase = ph := by simpa [InPhase, hd] using ht
  exact this ▸ h

/-- R134: blanking starts, or stands. -/
theorem Act.bit_blankOn (p : RfPort) (t sample : Nat) (s : State) :
    ((Act.blankOn p t sample).run s).bit (RFx_STATUS_BLANK p) = true := by
  rw [Act.blankOn, Act.run_read, Act.run_when]
  split
  · refine State.FldIs.bit (n := 1) ?_
    rw [Act.run_all_cons]
    have hblank : State.FldIs (RFx_STATUS_BLANK p) 1 ((setB (RFx_STATUS_BLANK p) true).run s) :=
      fldIs_setB _ true s (fixedReg_rfxStatus p)
    exact hblank.run (.all ⟨.fldRfUnit, .fldStatus .announce, .fldStatus .ccaRestart, .fldStatus .ccaRestart⟩)
  · next h => simpa using h

/-- R134: blanking ends. -/
theorem Act.bit_blankOff (p : RfPort) (t sample : Nat) (s : State) :
    ((Act.blankOff p t sample).run s).bit (RFx_STATUS_BLANK p) = false := by
  rw [Act.blankOff, Act.run_read, Act.run_when]
  split
  · refine State.FldIs.bit (n := 0) ?_
    rw [Act.run_all_cons]
    have hblank : State.FldIs (RFx_STATUS_BLANK p) 0 ((setB (RFx_STATUS_BLANK p) false).run s) :=
      fldIs_setB _ false s (fixedReg_rfxStatus p)
    refine hblank.run (.all ⟨?_, .fldRfUnit, .fldStatus .announce, .fldStatus .txProceed, .fldStatus .txProceed⟩)
    split
    · exact .nop
    · exact .fldStatus (R := .quiet (ports RFx_BLANK_US) []) (.wrapBy (Reach.has_port RFx_BLANK_US))
  · next h => simpa using h

/-- The edges of R131 at X, for a frame of power class `cls`. -/
def Act.edgesAtX (s : State) (c : Chain) (cls : Nat) (frame : List Byte) (t sample : Nat) : Act :=
  all [txCmd c fun d => { d with phase := .tr, bytes := frame, xNs := some t },
    txUnit c fun t => { t with
      paMode := s.fld (RFx_PWRCLASSm_PA_MODE c.port cls)
      level := s.fld (RFx_PWRCLASSm_LEVEL c.port cls) },
    txSetState c stTx,
    setB (RFx_STATUS_TRS_TX c.port) true,
    when (s.bit (RFx_FE_CTL_BYP_IN_TX c.port)) (setB (RFx_STATUS_LNA_BYP c.port) true),
    blankOn c.port t sample]

section

variable {s : State} {chain : Chain} {d : TxCmd} (hcmd : (s.tx chain).cmd = some d)
include hcmd

/-- An update of a command puts it in the phase it names. -/
theorem Act.inPhase_txCmd (ph : TxPhase) (f : TxCmd → TxCmd) (hf : (f d).phase = ph := by exact rfl) :
    State.TxHas chain (TxChain.InPhase ph) ((Act.txCmd chain f).run s) := by
  simp [State.TxHas, TxChain.InPhase, hcmd, hf]

/-- R131, R145: an ACK that is ready, granted and within its regions' airtime takes the edges at X. -/
theorem Act.run_sequenceStart_ack {a : AckTx} (hwhat : d.what = .ack a) (hphase : d.phase = .ready)
    (hmode : s.mode.serves = true) (hmay : s.mayTransmit = true) (hcx : s.bit (RFx_CX_CTL_EN chain.port) = false)
    (hbytes : a.bytes.isEmpty = false)
    (hduty : s.dutyOk chain.port a.chan a.rate (s.dutyNs chain.port a.rate a.bytes.length) (fun _ => 0) = true)
    (t sample : Nat) : (Act.sequenceStart chain t sample).run s =
      (Act.edgesAtX s chain (s.fld MAC_ACK_ACK_CLASS) a.bytes t sample).run s := by
  simp only [Act.sequenceStart, Act.run_read, hcmd, hwhat, hphase, State.whatBytes, State.whatChan, State.whatRate,
    State.whatClass, hbytes, hduty, hmode, hmay, hcx, Act.run_when, decide_true, Bool.and_self,
    Bool.not_false, Bool.or_true, Bool.not_true, Bool.false_eq_true, if_true, if_false]
  rfl

/-- R117, R131, R134: the edges at X start the sequence, take the port's T/R switch and blank the port. -/
theorem Act.run_edgesAtX (cls : Nat) (frame : List Byte) (t sample : Nat) :
    (((Act.edgesAtX s chain cls frame t sample).run s).tx chain).InPhase .tr ∧
    ((Act.edgesAtX s chain cls frame t sample).run s).bit (RFx_STATUS_TRS_TX chain.port) = true ∧
    ((Act.edgesAtX s chain cls frame t sample).run s).bit (RFx_STATUS_BLANK chain.port) = true ∧
    ((Act.edgesAtX s chain cls frame t sample).run s).txState chain = 4 := by
  have hstat : fixedReg (RFx_TXn_STAT chain.port chain.n) = none := by cases chain <;> rfl
  rw [Act.edgesAtX, Act.run_all_cons]
  refine ⟨?_, ?_, Act.bit_blankOn .., ?_⟩
  · have htr := Act.inPhase_txCmd hcmd .tr fun d => { d with phase := .tr, bytes := frame, xNs := some t }
    exact htr.run (.all ⟨.txUnit fun _ h => h, .tx .txSetState, .txSetB, .when .txSetB,
      .txBlankOn (TxChain.InPhase.ne_cca (by decide))⟩)
  · rw [Act.run_all_cons, Act.run_all_cons, Act.run_all_cons]
    refine State.FldIs.bit (n := 1) ?_
    exact State.FldIs.run (fldIs_setB _ true _ (fixedReg_rfxStatus _)) (.all ⟨.when .fldSetB, .fldBlankOnSwitch⟩)
  · rw [Act.run_all_cons, Act.run_all_cons, Act.txSetState, Act.run_seq]
    have htx (t : State) : State.FldIs (RFx_TXn_STAT_STATE chain.port chain.n) 4
        ((Act.setF (RFx_TXn_STAT_STATE chain.port chain.n) 4).run t) :=
      Act.fld_setF_same _ 4 t hstat (show 0 + 3 ≤ 32 by decide)
    exact ((htx _).run (.read fun _ => .fldSetF)).run (.all ⟨.fldSetB, .when .fldSetB, .fldBlankOnState⟩)

/-- R131: at X an ACK that is ready starts its sequence. -/
theorem completes_txSequenceStart_ack {a : AckTx} (hwhat : d.what = .ack a) (hphase : d.phase = .ready)
    (hmode : s.mode = .solo) (hmay : s.mayTransmit = true) (hcx : s.bit (RFx_CX_CTL_EN chain.port) = false)
    (hbytes : a.bytes.isEmpty = false)
    (hduty : s.dutyOk chain.port a.chan a.rate (s.dutyNs chain.port a.rate a.bytes.length) (fun _ => 0) = true)
    (off : Fin 1000000) (sample : BitVec 64) :
    Completes (.txSequenceStart chain true off sample) s fun t => (t.tx chain).InPhase .tr ∧
      t.bit (RFx_STATUS_TRS_TX chain.port) = true ∧ t.bit (RFx_STATUS_BLANK chain.port) = true ∧
      t.txState chain = 4 := by
  refine ⟨_, rfl, ?_⟩
  have htake : (Act.txTake chain true).run s = s := by simp [Act.txTake, hcmd]
  rw [Act.run_all_cons, htake, Act.run_all_cons, Act.run_read]
  simp only [hcmd, hphase, reduceCtorEq, decide_false, Bool.and_false, Bool.false_and, Act.run_when, Bool.false_eq_true,
    if_false]
  have hserves : s.mode.serves = true := by rw [hmode]; rfl
  rw [Act.run_all_cons, Act.run_all_nil, Act.run_sequenceStart_ack hcmd hwhat hphase hserves hmay hcx hbytes hduty]
  exact Act.run_edgesAtX hcmd ..

/-- R131: PA_EN goes active. -/
theorem completes_txPaEnable (hphase : d.phase = .tr) :
    Completes (.txPaEnable chain) s fun t =>
      (t.tx chain).cmd = some { d with phase := .pa } ∧ (t.tx chain).paEn = true := by
  refine ⟨_, rfl, ?_⟩
  simp [hcmd, hphase]

/-- R132: ramp-up starts. -/
theorem completes_txRampUpStart (hphase : d.phase = .pa) (off : Fin 1000000) :
    Completes (.txRampUpStart chain off) s fun t =>
      (t.tx chain).cmd = some { d with phase := .ramp, rampNs := some (s.atNs off) } := by
  refine ⟨_, rfl, ?_⟩
  simp [hcmd, hphase]

/-- R83: at frame start the symbols of R82 are keyed. -/
theorem completes_txFrameStart (hphase : d.phase = .ramp) :
    Completes (.txFrameStart chain false) s fun t => (t.tx chain).InPhase .frame ∧ (t.tx chain).air =
      Air.frameSymbols (s.whatRate d.what) s.u.boot.syncWord ((parseMac d.bytes).typ == 3) d.bytes := by
  refine ⟨_, rfl, ?_⟩
  simp only [hcmd, hphase, decide_true, Act.run_when, if_true]
  cases d.what with
  | ack a =>
    rw [Act.run_seq, Act.Within.tx .ackDigest]
    simp [TxChain.InPhase, hcmd]
  | entry e =>
    have hgone : ((Act.beaconGone e).run s).tx chain = s.tx chain := rfl
    simp [TxChain.InPhase, hgone, hcmd]

/-- R131, R209: at frame end the frame is counted and ramp-down starts; an ACK is counted as sent. -/
theorem completes_txFrameEnd (hphase : d.phase = .frame) (off : Fin 1000000) :
    Completes (.txFrameEnd chain off true) s fun t => (t.tx chain).InPhase .down ∧
      t.reg (RFx_TX_FRAMES chain.port) = s.reg (RFx_TX_FRAMES chain.port) + 1 ∧
      (d.what.isAck = true → t.reg MAC_ACK_SENT = s.reg MAC_ACK_SENT + 1) := by
  refine ⟨_, rfl, ?_⟩
  simp only [hcmd, hphase, decide_true, Act.run_when, if_true, Act.run_all_cons, Act.run_all_nil, Bool.not_true,
    Bool.false_eq_true, if_false]
  obtain ⟨q, hq⟩ : ∃ q, (Act.txCmd chain fun d => { d with phase := .down }).run s = q := ⟨_, rfl⟩
  obtain ⟨r, hr⟩ : ∃ r, (Act.wrap (RFx_TX_FRAMES chain.port)).run q = r := ⟨_, rfl⟩
  have hapart (p : RfPort) : RFx_TX_FRAMES p ≠ MAC_ACK_SENT := by cases p <;> decide
  have hfree (p : RfPort) : fixedReg (RFx_TX_FRAMES p) = none := by cases p <;> rfl
  have hdown : State.TxHas chain (TxChain.InPhase .down) r := by
    refine hr ▸ State.TxHas.run ?_ .txWrap
    exact hq ▸ Act.inPhase_txCmd hcmd .down _
  have hframes : r.reg (RFx_TX_FRAMES chain.port) = s.reg (RFx_TX_FRAMES chain.port) + 1 := by
    rw [← hr, ← hq]
    exact Act.reg_wrapBy _ 1 _ (hfree _)
  have hsent : r.reg MAC_ACK_SENT = s.reg MAC_ACK_SENT := by
    rw [← hr, ← hq]
    exact State.reg_setReg_ne _ _ (hapart _)
  rw [hq, hr]
  cases d.what with
  | entry e =>
    have hbeside : (Act.frameSent d e (s.atNs off)).BesideRf := .frameSent
    exact ⟨by rwa [hbeside.tx], by rwa [hbeside.reg_txFrames], fun h => nomatch h⟩
  | ack a =>
    refine ⟨hdown.run .txWrap, ?_, fun _ => ?_⟩
    · rw [← hframes]
      exact State.reg_setReg_ne _ _ (hapart _).symm
    · rw [← hsent]
      exact Act.reg_wrapBy _ 1 _ rfl

/-- R144: the airtime joins the regions, and the sequence drains. -/
theorem completes_txRampDownEnd (hphase : d.phase = .down) (off : Fin 1000000) :
    Completes (.txRampDownEnd chain off) s fun t => (t.tx chain).InPhase .drained := by
  refine ⟨_, rfl, ?_⟩
  simp only [hcmd, hphase, decide_true, Act.run_when, if_true, Act.run_seq]
  have hdrained := Act.inPhase_txCmd hcmd .drained fun d => { d with phase := .drained }
  split
  · exact hdrained
  · exact hdrained.run .txDutyAdd

/-- R123, R131: PA_EN is released, whatever the chain moves on to. -/
theorem completes_txPaDisable (hphase : d.phase = .drained) :
    Completes (.txPaDisable chain) s fun t => (t.tx chain).InPhase .back ∧ (t.tx chain).paEn = false := by
  refine ⟨_, rfl, ?_⟩
  simp only [hcmd, hphase, decide_true, Act.run_when, if_true]
  rw [Act.run_all_cons, Act.run_all_cons]
  change State.TxHas chain (fun t => t.InPhase .back ∧ t.paEn = false) _
  have hcal (k : Nat) :
      Act.Keeps (State.TxHas chain fun t => t.InPhase .back ∧ t.paEn = false) (Act.txCalStart chain k) :=
    .txCalStart fun _ h => h
  refine State.TxHas.run ?_ (.all ⟨.ite (.tx .txSetState) (.ite (hcal _) (.tx .txSetState)), .when ?_⟩)
  · simp [State.TxHas, TxChain.InPhase, hcmd]
  · split
    · exact .nop
    · exact .when (hcal _)

/-- R131, R140: the last return edge frees the port. -/
theorem completes_txTrReturn (hphase : d.phase = .back) :
    Completes (.txTrReturn chain) s fun t => (t.tx chain).cmd = none ∧
      (¬(s.tx (chainOf chain.port (1 - chain.n))).inSeq = true → t.bit (RFx_STATUS_TRS_TX chain.port) = false) := by
  refine ⟨_, rfl, ?_⟩
  simp only [hcmd, hphase, decide_true, Act.run_when, if_true]
  rw [Act.run_all_cons]
  constructor
  · rw [Act.run_all_cons, Act.run_all_cons, Act.txDrop, Act.run_all_cons]
    change State.TxHas chain (fun t => t.cmd = none) _
    have hgone (t : State) : State.TxHas chain (fun t => t.cmd = none)
        ((Act.txUnit chain fun t => { t with cmd := none }).run t) := by simp [State.TxHas]
    refine (hgone _).run (a := .seq (.all [Act.txHolding chain, Act.cxFollow chain.port]) (Act.txRetune chain)) ?_
    exact .seq (.all ⟨.tx .txHolding, .txCxFollow⟩) (.txRetune fun _ h => h)
  · intro hmate
    have hreturn : State.FldIs (RFx_STATUS_TRS_TX chain.port) 0
        ((Act.setB (RFx_STATUS_TRS_TX chain.port) false).run s) := fldIs_setB _ false s (fixedReg_rfxStatus _)
    refine State.FldIs.bit (n := 0) ?_
    rw [Act.run_when, if_pos (by simpa using hmate), Act.run_seq]
    exact (hreturn.run .fldSetB).run (.all ⟨.when .fldRfUnit, .fldTxDrop, .fldTxRetune⟩)

end

/-- R131, R134: after the last return edge the port of a receiver in service opens. -/
theorem completes_txBlankEnd {s : State} {port : RfPort} (hseq : s.portSeq port = false)
    (hrecal : (s.u.rf.port port).recal = none) (hen : s.bit (RFx_SLICE_EN port) = true)
    (hlocked : s.bit (RFx_STATUS_RX_LOCKED port) = true) (off : Fin 1000000) (sample : BitVec 64) :
    Completes (.txBlankEnd port off sample) s fun t => t.bit (RFx_STATUS_BLANK port) = false := by
  refine ⟨_, rfl, ?_⟩
  simp only [hseq, hrecal, hen, hlocked, Act.run_when]
  exact Act.bit_blankOff port _ _ s

/-- Settles O10: each edge is its step of the command's phase; what else the command does leaves the chain's record and
the fields that the clause reads. -/
theorem transmitSequence : Obligations.TransmitSequence := by
  unfold Obligations.TransmitSequence
  exact ⟨fun _ _ off sample _ _ hcmd hwhat hphase hmode hmay hcx hbytes hduty =>
      completes_txSequenceStart_ack hcmd hwhat hphase hmode hmay hcx hbytes hduty off sample,
    fun _ _ _ hcmd hphase => completes_txPaEnable hcmd hphase,
    fun _ _ off _ hcmd hphase => completes_txRampUpStart hcmd hphase off,
    fun _ _ _ hcmd hphase => completes_txFrameStart hcmd hphase,
    fun _ _ off _ hcmd hphase => completes_txFrameEnd hcmd hphase off,
    fun _ _ off _ hcmd hphase => completes_txRampDownEnd hcmd hphase off,
    fun _ _ _ hcmd hphase => completes_txPaDisable hcmd hphase,
    fun _ _ _ hcmd hphase => completes_txTrReturn hcmd hphase,
    fun _ _ off sample hseq hrecal hen hlocked => completes_txBlankEnd hseq hrecal hen hlocked off sample⟩

end Sys2Proof.Machine

namespace Sys2Proof.Machine

set_option Elab.async false

open Sys2Proof Sys2Proof.Reg

/-! ### Registers and ports that a program leaves -/

/-- A register reads a word. -/
def State.RegIs (x : Nat) (w : Word) (s : State) : Prop := s.reg x = w

theorem State.RegIs.run {x : Nat} {w : Word} {s : State} {a : Act} (h : State.RegIs x w s)
    (ha : Act.Keeps (State.RegIs x w) a) : State.RegIs x w (a.run s) := ha s h

theorem State.FldIs.of_bit {f : Field} {s : State} (h : s.bit f = true) : State.FldIs f 1 s :=
  Nat.eq_of_beq_eq_true h

/-- What a port's recalibration is (R119–R121). -/
def State.RecalIs (p : RfPort) (r : Option Recal) (s : State) : Prop := (s.u.rf.port p).recal = r

theorem State.RecalIs.run {p : RfPort} {r : Option Recal} {s : State} {a : Act} (h : State.RecalIs p r s)
    (ha : Act.Keeps (State.RecalIs p r) a) : State.RecalIs p r (a.run s) := ha s h

theorem Act.Within.rf {R : Reach} {a : Act} (h : Act.Within R a) (hrf : .rf ∉ R.units := by decide) (s : State) :
    (a.run s).u.rf = s.u.rf := ((h.fits s).units .rf hrf).symm

theorem Act.port_rfUnit (p : RfPort) (f : RfUnit → RfUnit) (s : State) (p' : RfPort) :
    ((Act.rfUnit p f).run s).u.rf.port p' = if p = p' then f (s.u.rf.port p) else s.u.rf.port p' := by
  cases p <;> cases p' <;> rfl

@[simp] theorem Act.port_rfUnit_same (p : RfPort) (f : RfUnit → RfUnit) (s : State) :
    ((Act.rfUnit p f).run s).u.rf.port p = f (s.u.rf.port p) := by
  rw [port_rfUnit, if_pos rfl]

/-- One program of several establishes what all of them keep. -/
theorem Act.run_each_of_mem {α : Type} {P : State → Prop} {l : List α} {f : α → Act} {i : α} (hi : i ∈ l)
    (hset : ∀ s, P ((f i).run s)) (hkeep : ∀ j ∈ l, Act.Keeps P (f j)) (s : State) : P ((Act.each l f).run s) := by
  induction l generalizing s with
  | nil => cases hi
  | cons j l ih =>
    obtain ⟨-, htail⟩ := List.forall_mem_cons.1 hkeep
    have hrest : Act.Keeps P (Act.each l f) := .all (List.forall_iff_forall_mem.2 (List.forall_mem_map.2 htail))
    rcases List.mem_cons.1 hi with rfl | hi
    · exact hrest _ (hset s)
    · exact ih hi htail _

/-- Where releasing a packet of a queue shows: the pool of pages, flow control, PAUSE, and their events. -/
def releaseRegs : List (Nat × Nat) := [(ENV_FC_STATE, 1), (ENV_POOL, 1), (ETH_STATUS, 1)] ++ eventRegs

/-- Where a chain or a port that leaves service, or returns to it, shows. -/
def serviceRegs : List (Nat × Nat) := (MAC_ACK_DROP, 1) :: blankRegs ++ ports RFx_TX_CAL ++ releaseRegs

theorem Act.Within.planLost {c : Chain} : Act.Within (.quiet [] [.sch, .rf]) (Act.planLost c) :=
  .read fun _ => .all ⟨.units, .sub .txUnit, .each fun _ => .sub .entryBack⟩

theorem lacks_of_covers {l k : List (Nat × Nat)} {x : Nat} (hx : inSpans l x = false)
    (h : Reach.covers l k = true := by decide +kernel) : inSpans k x = false :=
  Bool.eq_false_iff.2 fun hk => by rw [Reach.inSpans_of_covers h hk] at hx; contradiction

/-- The identity registers stand below the RF ports' (R2, R33). -/
theorem fixedReg_of_rf {x : Nat} (h : 0x40000 ≤ x) : fixedReg x = none := by
  have hne : x ≠ GEN_CHIP_ID ∧ x ≠ GEN_CAPS := by simp only [GEN_CHIP_ID, GEN_CAPS]; omega
  simp [fixedReg, hne]

/-- A register of an array that every port has, where the reach is apart from both arrays. -/
theorem Reach.lacks_port_array {R : Reach} (g : RfPort → Nat → Nat) (k : Nat) {p : RfPort} {n : Nat}
    (h : Reach.apart R.spans (portArrays g k) = true := by decide +kernel)
    (hg : ∀ p, g p n = g p 0 + 4 * (n % k) := by exact fun _ => rfl) (hk : 0 < k := by decide) :
    R.has (g p n) = false := by
  have hn : n % k < k := Nat.mod_lt _ hk
  have hin : inSpans (portArrays g k) (g p n) = true := by
    cases p <;> simp [inSpans, portArrays, hg] <;> omega
  rw [Reach.has, Reach.inSpans_of_apart h hin, Bool.false_and]

namespace Act.Keeps

variable {x : Nat} {w : Word}

/-- A program keeps a register that is out of its reach. -/
theorem reg {R : Reach} {a : Act} (h : Act.Within R a) (hx : R.has x = false) : Keeps (State.RegIs x w) a :=
  fun s hs => ((h.fits s).reg x hx).trans hs

/-- A program keeps the registers outside spans that cover its reach. -/
theorem regOff {R : Reach} {a : Act} {l : List (Nat × Nat)} (hx : inSpans l x = false) (h : Act.Within R a)
    (hl : Reach.covers l R.spans = true := by decide +kernel) : Keeps (State.RegIs x w) a :=
  reg h (by rw [Reach.has, lacks_of_covers hx hl, Bool.false_and])

/-- A field stands where its register does. -/
theorem fldOfReg {g : Field} {n : Nat} {a : Act} (h : ∀ w, Keeps (State.RegIs g.reg w) a) :
    Keeps (State.FldIs g n) a := fun s hs => by
  rw [State.FldIs, State.fld, h _ s rfl]
  exact hs

theorem regUnits {f : Units → Units} : Keeps (State.RegIs x w) (.units f) := fun _ h => h

theorem regMemBytes {a : Nat} {bs : List Byte} : Keeps (State.RegIs x w) (Act.memBytes a bs) := fun s hs => by
  rwa [State.RegIs, Act.memBytes_reg]

theorem regWritePage {n : Nat} {pg : Page} {old : Nat} {next : Option Nat} :
    Keeps (State.RegIs x w) (Act.writePage n pg old next) :=
  read fun _ => all ⟨each fun _ => by split; exacts [nop, seq regMemBytes regMemBytes], regMemBytes⟩

/-- R296: pages are filled in the Envelope. -/
theorem regPagesFill {n k : Nat} : Keeps (State.RegIs x w) (Act.pagesFill n k) := by
  induction k with
  | zero => exact nop
  | succ k ih =>
    refine read fun _ => when ?_
    dsimp only
    split
    · refine ite (all ⟨regUnits, regWritePage, ih⟩) ?_
      split
      · exact nop
      · exact all ⟨regUnits, regUnits, regWritePage, ih⟩
    · split
      · exact nop
      · exact all ⟨regUnits, regUnits, ih⟩

section

variable (hx : inSpans releaseRegs x = false)
include hx

/-- R296, R313: the pool of pages, flow control and PAUSE follow a queue. -/
theorem regQueueDone {n : Nat} : Keeps (State.RegIs x w) (Act.queueDone n) := by
  have hpages : Keeps (State.RegIs x w) (Act.pagesFollow n) :=
    all ⟨read fun _ => when <| seq regUnits regUnits, read fun _ => regPagesFill,
      read fun _ => regOff hx (R := .quiet [(ENV_POOL, 1)] []) .setF⟩
  have hfc : Keeps (State.RegIs x w) Act.fcFollow :=
    all ⟨read fun _ => regOff hx (R := .quiet [(ENV_FC_STATE, 1)] []) .setF, regOff hx .fcPins, regOff hx .pauseEval,
      regOff hx .pauseEval⟩
  exact all ⟨regUnits, hpages, hfc⟩

/-- R302: where releasing a packet shows. -/
theorem regReleasePacket {n start : Nat} : Keeps (State.RegIs x w) (Act.releasePacket n start) :=
  read fun _ => by
    split
    · exact nop
    · exact seq regUnits <| all ⟨regUnits, read fun _ => regOff hx .logUpdate, regQueueDone hx⟩

theorem regAirDrain {q d f k : Nat} : Keeps (State.RegIs x w) (Act.airDrain q d f k) := by
  induction k with
  | zero => exact nop
  | succ k ih =>
    exact read fun _ => by
      split
      · exact nop
      · exact when <| all ⟨regReleasePacket hx, regUnits, regOff hx .stamp, ih⟩

/-- R209: where the end of a frame's packet shows. -/
theorem regAirRelease {p : RfPort} {q start : Nat} : Keeps (State.RegIs x w) (Act.airRelease p q start) :=
  read fun _ => by split; exacts [regReleasePacket hx, all ⟨regUnits, regUnits, regAirDrain hx⟩]

/-- R126, R142: a frame that is cut off shows where its packet's release does. -/
theorem regTxAbort {c : Chain} {recal back : Bool} : Keeps (State.RegIs x w) (Act.txAbort c recal back) :=
  read fun _ => by
    split
    · exact nop
    · refine when <| seq regUnits ?_
      split
      · exact nop
      · refine ite (regOff hx .entryBack) ?_
        split
        · exact regAirRelease hx
        · exact nop

end

section

variable (hx : inSpans serviceRegs x = false)
include hx

/-- R127: where a chain that goes out of service shows. -/
theorem regTxOff {c : Chain} : Keeps (State.RegIs x w) (Act.txOff c) :=
  read fun _ => all ⟨ite (regTxAbort (lacks_of_covers hx)) (when <| regOff hx .txGiveUp), regOff hx .planLost,
    regOff hx .acksLost⟩

/-- R151: where a port that goes out of service shows. -/
theorem regPortOff {p : RfPort} {t sample : Nat} : Keeps (State.RegIs x w) (Act.portOff p t sample) := by
  have hstatus {f : RfPort → Field} {b : Bool} (hf : ∀ p, (f p).reg = RFx_STATUS p := by exact fun _ => rfl) :
      Keeps (State.RegIs x w) (Act.setB (f p) b) :=
    regOff hx (R := .quiet (ports RFx_STATUS) []) (.setB (hf p ▸ Reach.has_port RFx_STATUS))
  exact all ⟨regTxOff hx, regTxOff hx, hstatus (f := RFx_STATUS_RX_LOCKED), hstatus (f := RFx_STATUS_RX_CAL), regUnits,
    regOff hx .endPort, regOff hx .rxRunning, regOff hx .blankOn⟩

end

/-! What programs leave of a chain. -/

section

variable {c : Chain} {Q : TxChain → Prop}

theorem txSat {a : Nat} : Keeps (State.TxHas c Q) (Act.sat a) := txOfRf fun s => by simp [Act.sat]

theorem txBesideRf {a : Act} (h : Act.BesideRf a) : Keeps (State.TxHas c Q) a := txOfRf fun s => (h s).units

/-- R206: the ACKs of a chain that are lost leave the command it works on. -/
theorem txAcksLost {c' : Chain} (h : ∀ t e, Q t → Q { t with early := e }) :
    Keeps (State.TxHas c Q) (Act.acksLost c') :=
  read fun _ => all ⟨tx (R := .quiet [] [.mac]) .units, txUnit fun t => h t _, each fun _ => tx .ackDropped⟩

/-- R128, R135: a held command goes on to its CCA, or is ready. -/
theorem txTxProceed {c' : Chain}
    (h : ∀ t, Q t → Q { t with cmd := t.cmd.map fun d => { d with phase := if d.cca then .cca else .ready } }) :
    Keeps (State.TxHas c Q) (Act.txProceed c') :=
  read fun _ => by split; exacts [nop, when <| seq (txUnit h) (tx .txHolding)]

end

/-! What programs leave of a port's recalibration. -/

section

variable {p : RfPort} {r : Option Recal}

theorem recal {R : Reach} {a : Act} (h : Act.Within R a) (hrf : .rf ∉ R.units := by decide) :
    Keeps (State.RecalIs p r) a := fun s hs => by rwa [State.RecalIs, h.rf hrf]

theorem recalRfUnit {p' : RfPort} {f : RfUnit → RfUnit} (h : ∀ u, (f u).recal = u.recal := by exact fun _ => rfl) :
    Keeps (State.RecalIs p r) (Act.rfUnit p' f) := fun s hs => by
  rw [State.RecalIs, Act.port_rfUnit]
  split
  · next e => exact (h _).trans (e ▸ hs)
  · exact hs

theorem recalTxUnit {c : Chain} {f : TxChain → TxChain} : Keeps (State.RecalIs p r) (Act.txUnit c f) :=
  recalRfUnit fun u => by split <;> rfl

theorem recalSetB {f : Field} {b : Bool} : Keeps (State.RecalIs p r) (Act.setB f b) := fun s hs => by
  rwa [State.RecalIs, Act.setB, Act.setF_u]

theorem recalWrapBy {a n : Nat} : Keeps (State.RecalIs p r) (Act.wrapBy a n) := fun s hs => by
  rwa [State.RecalIs, Act.wrapBy_u]

theorem recalCcaRestart {c : Chain} : Keeps (State.RecalIs p r) (Act.ccaRestart c) :=
  read fun _ => by split; exacts [nop, when <| all ⟨recalTxUnit, recalWrapBy, recal .txHolding⟩]

theorem recalBlankOn {p' : RfPort} {t sample : Nat} : Keeps (State.RecalIs p r) (Act.blankOn p' t sample) :=
  read fun _ => when <| all ⟨recalSetB, recalRfUnit, recal .announce, recalCcaRestart, recalCcaRestart⟩

theorem recalTxProceed {c : Chain} : Keeps (State.RecalIs p r) (Act.txProceed c) :=
  read fun _ => by split; exacts [nop, when <| seq recalTxUnit (recal .txHolding)]

theorem recalBlankOff {p' : RfPort} {t sample : Nat} : Keeps (State.RecalIs p r) (Act.blankOff p' t sample) :=
  read fun _ => when <| all ⟨recalSetB, by split; exacts [nop, recalWrapBy], recalRfUnit, recal .announce,
    recalTxProceed, recalTxProceed⟩

theorem recalTxGiveUp {c : Chain} {reason : Nat} : Keeps (State.RecalIs p r) (Act.txGiveUp c reason) :=
  read fun _ => by
    split
    · exact nop
    · refine seq (all ⟨recalTxUnit, recal .txHolding, read fun _ => seq recalSetB recalRfUnit⟩) ?_
      split
      · exact recal .ackDropped
      · exact recal .entryBack

theorem recalAcksLost {c : Chain} : Keeps (State.RecalIs p r) (Act.acksLost c) :=
  read fun _ => all ⟨recal (R := .quiet [] [.mac]) .units, recalTxUnit, each fun _ => recal .ackDropped⟩

theorem recalTxSuspend {c : Chain} : Keeps (State.RecalIs p r) (Act.txSuspend c) :=
  all ⟨recalCcaRestart, read fun _ => by
    split
    · exact nop
    · exact when <| by split; exacts [recalTxGiveUp, when recalTxUnit], recal .txHolding, recalAcksLost⟩

end

/-! What programs leave of the flags of a port's receive path, and of a chain's calibration time. -/

/-- A flag above a field leaves it. -/
theorem fldSetBAbove {f g : Field} {n : Nat} {b : Bool} (h : Nat.ble (g.lo + g.width) f.lo = true)
    (hf : Nat.ble (f.lo + f.width) 32 = true := by rfl) : Keeps (State.FldIs g n) (Act.setB f b) :=
  fldSetB (by rw [h, Bool.or_true]) hf (by simp only [Nat.ble_eq] at *; omega)

section

variable {g : Field} {p : RfPort} {n : Nat} (hg : g.reg = RFx_STATUS p)
include hg

/-- R134: blanking that ends, or starts, leaves the flags below its own. -/
theorem fldBlankOff {p' : RfPort} {t sample : Nat} (h : Nat.ble (g.lo + g.width) 2 = true) :
    Keeps (State.FldIs g n) (Act.blankOff p' t sample) :=
  read fun _ => when <| all ⟨fldSetBAbove h, by
    split
    · exact nop
    · exact fldStatus (R := .quiet (ports RFx_BLANK_US) []) (.wrapBy (Reach.has_port RFx_BLANK_US)) hg,
    fldRfUnit, fldStatus .announce hg, fldStatus .txProceed hg, fldStatus .txProceed hg⟩

theorem fldBlankOn {p' : RfPort} {t sample : Nat} (h : Nat.ble (g.lo + g.width) 2 = true) :
    Keeps (State.FldIs g n) (Act.blankOn p' t sample) :=
  read fun _ => when <| all ⟨fldSetBAbove h, fldRfUnit, fldStatus .announce hg, fldStatus .ccaRestart hg,
    fldStatus .ccaRestart hg⟩

/-- R120, R121: what waits while its port recalibrates leaves the flags of the receive path. -/
theorem fldTxSuspend {c : Chain} (h : Nat.ble (g.lo + g.width) 5 = true) :
    Keeps (State.FldIs g n) (Act.txSuspend c) := by
  have hdrop : Keeps (State.FldIs g n) (Act.txDrop c) :=
    all ⟨fldRfUnit, fldStatus .txHolding hg, read fun _ => seq (fldSetBAbove h) fldRfUnit⟩
  refine all ⟨fldStatus .ccaRestart hg, read fun _ => ?_, fldStatus .txHolding hg, fldStatus .acksLost hg⟩
  split
  · exact nop
  · refine when ?_
    split
    · refine read fun _ => ?_
      split
      · exact nop
      · exact seq hdrop (by split; exacts [fldStatus .ackDropped hg, fldStatus .entryBack hg])
    · exact when fldTxCmd

end

section

variable {c c' : Chain} {n : Nat}

theorem fldCalTimeSetState {st : Nat} :
    Keeps (State.FldIs (RFx_TXn_STAT_LAST_CAL_US c.port c.n) n) (Act.txSetState c' st) :=
  seq fldSetF <| read fun _ => fldSetF

/-- R123: a chain that moves to its next channel shows its last calibration time meanwhile. -/
theorem fldCalTimeRetune : Keeps (State.FldIs (RFx_TXn_STAT_LAST_CAL_US c.port c.n) n) (Act.txRetune c') :=
  read fun _ => by
    split
    · exact nop
    · exact when <| all ⟨fldRfUnit, fldSetF, fldCalTimeSetState,
        fld (R := .quiet (ports RFx_TX_CAL) []) (.wrap (Reach.has_port RFx_TX_CAL)) (by cases c <;> rfl)⟩

theorem fldCalTimeProceed : Keeps (State.FldIs (RFx_TXn_STAT_LAST_CAL_US c.port c.n) n) (Act.txProceed c') :=
  read fun _ => by split; exacts [nop, when <| seq fldTxCmd (read fun _ => fldSetB)]

end

end Act.Keeps

end Sys2Proof.Machine

namespace Sys2Proof.Machine

set_option Elab.async false

open Sys2Proof Sys2Proof.Reg

/-! ### Transmit synthesisers (R123–R129) -/

section

variable {s : State} {chain : Chain} {d : TxCmd}

/-- R126: a frame on its way is cut off, whatever becomes of its packet. -/
theorem Act.txHas_txAbort (hcmd : (s.tx chain).cmd = some d) (hsending : d.phase.sending = true) (recal back : Bool) :
    State.TxHas chain (fun t => t.cmd = some { d with phase := .down, recal := recal })
      ((Act.txAbort chain recal back).run s) := by
  rw [Act.txAbort, Act.run_read, hcmd]
  simp only [hsending, Act.run_when, if_true, Act.run_seq]
  refine State.TxHas.run (by simp [State.TxHas, hcmd]) ?_
  split
  · exact .nop
  · refine .ite (.tx .entryBack) ?_
    split
    · exact .txBesideRf .airRelease
    · exact .nop

theorem Act.txHas_txDrop (s : State) (chain : Chain) :
    State.TxHas chain (fun t => t.cmd = none) ((Act.txDrop chain).run s) := by
  rw [Act.txDrop, Act.run_all_cons]
  have hgone : State.TxHas chain (fun t => t.cmd = none)
      ((Act.txUnit chain fun t => { t with cmd := none }).run s) := by simp [State.TxHas]
  exact hgone.run (.all ⟨.tx .txHolding, .txCxFollow⟩)

/-- R206, R329: a command that is given up leaves its chain. -/
theorem Act.txHas_txGiveUp (s : State) (chain : Chain) (reason : Nat) :
    State.TxHas chain (fun t => t.cmd = none) ((Act.txGiveUp chain reason).run s) := by
  rw [Act.txGiveUp, Act.run_read]
  cases hcmd : (s.tx chain).cmd with
  | none => exact hcmd
  | some d =>
    refine (Act.txHas_txDrop s chain).run ?_
    split
    · exact .tx .ackDropped
    · exact .tx .entryBack

/-- R123, R128: the calibration time of a lock is shown, whatever the chain moves on to. -/
theorem completes_txLockConfirmed (hcal : (s.tx chain).calibrating = true) {us : BitVec 16} (hus : us.toNat < 200) :
    Completes (.txLockConfirmed chain us) s fun t =>
      t.fld (RFx_TXn_STAT_LAST_CAL_US chain.port chain.n) = us.toNat ∧ (t.tx chain).fails = 0 := by
  refine ⟨_, rfl, ?_⟩
  have hlock : Nat.blt us.toNat 200 = true := by simpa using hus
  simp only [hcal, hlock, Bool.and_self, Act.run_when, if_true]
  rw [Act.run_all_cons]
  constructor
  · rw [Act.run_all_cons]
    refine State.FldIs.run ?_ (.all ⟨.fldCalTimeSetState, .fldCalTimeProceed, .fldCalTimeRetune⟩)
    have hfree : fixedReg (RFx_TXn_STAT chain.port chain.n) = none := by cases chain <;> rfl
    refine (Act.fld_setF_same _ _ _ hfree (show 14 + 8 ≤ 32 by decide)).trans ?_
    change min us.toNat 255 % 2 ^ 8 = us.toNat
    omega
  · change State.TxHas chain (fun t => t.fails = 0) _
    have hnone : State.TxHas chain (fun t => t.fails = 0)
        ((Act.txUnit chain fun t => { t with calibrating := false, fails := 0, retries := 0 }).run s) := by
      simp [State.TxHas]
    exact hnone.run (.all ⟨.txSetF, .tx .txSetState, .txTxProceed fun _ h => h, .txRetune fun _ _ => rfl⟩)

/-- R125: the first calibration that ends without lock counts, and runs again. -/
theorem completes_txCalTimeout (hcal : (s.tx chain).calibrating = true) (hstate : s.txState chain ≠ 5)
    (hfails : (s.tx chain).fails = 0) :
    Completes (.txCalTimeout chain) s fun t => (t.tx chain).fails = 1 ∧ (t.tx chain).calibrating = true ∧
      t.reg (RFx_TX_CAL chain.port) = s.reg (RFx_TX_CAL chain.port) + 1 := by
  refine ⟨_, rfl, ?_⟩
  have hready : ¬ s.txState chain = stFault := hstate
  simp only [hcal, hready, hfails, Act.run_when, if_true, if_false]
  obtain ⟨q, hq⟩ : ∃ q, (Act.seq (Act.rfEvent 16 chain) (Act.faultClass 14)).run s = q := ⟨_, rfl⟩
  have hbeside : Act.Within (.events [] [.pair]) (.seq (Act.rfEvent 16 chain) (Act.faultClass 14)) :=
    .seq (.sub .rfEvent) (.sub .faultClass)
  have htx : q.tx chain = s.tx chain := hq ▸ hbeside.tx (by decide) s chain
  have hcount : q.reg (RFx_TX_CAL chain.port) = s.reg (RFx_TX_CAL chain.port) :=
    hq ▸ (hbeside.fits s).reg _ (by cases chain <;> rfl)
  rw [Act.run_seq, hq, Act.run_seq]
  have hagain : State.TxHas chain (fun t => t.fails = 1 ∧ t.calibrating = true)
      ((Act.txUnit chain fun t => { t with fails := 1 }).run q) := by simp [State.TxHas, htx, hcal]
  obtain ⟨hone, hruns⟩ := hagain.run .txWrap
  refine ⟨hone, hruns, ?_⟩
  rw [← hcount]
  exact Act.reg_wrapBy _ 1 _ (by cases chain <;> rfl)

/-- R126: a frame on its way ends where the lock is lost, and counts. -/
theorem completes_txSynthUnlock (hcmd : (s.tx chain).cmd = some d) (hsending : d.phase.sending = true) :
    Completes (.txSynthUnlock chain) s fun t => (t.tx chain).cmd = some { d with phase := .down, recal := true } ∧
      t.reg (RFx_UNLOCK_ABORT chain.port) = satNext (s.reg (RFx_UNLOCK_ABORT chain.port)) := by
  refine ⟨_, rfl, ?_⟩
  have hs : (s.tx chain).sending = true := by simpa [TxChain.sending, hcmd] using hsending
  rw [if_pos hs, Act.run_all_cons, Act.run_all_cons]
  obtain ⟨q, hq⟩ : ∃ q, (Act.faultClass 14).run s = q := ⟨_, rfl⟩
  have hqcmd : (q.tx chain).cmd = some d := by rw [← hq, Act.Within.tx .faultClass]; exact hcmd
  have hqreg : q.reg (RFx_UNLOCK_ABORT chain.port) = s.reg (RFx_UNLOCK_ABORT chain.port) := by rw [← hq]; rfl
  rw [hq, ← hqreg]
  constructor
  · have hkeep : Act.Keeps (State.TxHas chain fun t => t.cmd = some { d with phase := .down, recal := true })
        (Act.all [Act.sat (RFx_UNLOCK_ABORT chain.port), Act.rfEvent 17 chain, Act.acksLost chain]) :=
      .all ⟨.txSat, .tx .rfEvent, .txAcksLost fun _ _ h => h⟩
    exact (Act.txHas_txAbort hqcmd hsending true true).run hkeep
  · have habort : State.RegIs (RFx_UNLOCK_ABORT chain.port) (q.reg (RFx_UNLOCK_ABORT chain.port))
        ((Act.txAbort chain true true).run q) :=
      State.RegIs.run rfl (.regTxAbort (by cases chain <;> rfl))
    have hcount : State.RegIs (RFx_UNLOCK_ABORT chain.port) (satNext (q.reg (RFx_UNLOCK_ABORT chain.port)))
        ((Act.sat (RFx_UNLOCK_ABORT chain.port)).run ((Act.txAbort chain true true).run q)) := by
      rw [← habort]
      exact Act.reg_satBy _ 1 _ (by cases chain <;> rfl)
    rw [Act.run_all_cons]
    exact hcount.run (.all ⟨.reg .rfEvent (by cases chain <;> rfl), .reg .acksLost (by cases chain <;> rfl)⟩)

/-- R127, R156: a permitted write to RFx_TXn_CTL is kept, whatever it does to the chain. -/
theorem completes_txChainEnWrite {iface : HostIface} (hreach : s.reaches iface = true)
    (hpermit : s.permits (RFx_TXn_CTL chain.port chain.n) = true) (value : BitVec 32) :
    Completes (.txChainEnWrite iface chain value) s fun t =>
      t.reg (RFx_TXn_CTL chain.port chain.n) = storedValue (RFx_TXn_CTL chain.port chain.n) value := by
  refine ⟨_, rfl, ?_⟩
  rw [Act.run_permitted hreach hpermit, Act.txCtlWrite, Act.run_read, Act.run_all_cons]
  have hoff : inSpans serviceRegs (RFx_TXn_CTL chain.port chain.n) = false := by cases chain <;> rfl
  refine State.RegIs.run (State.reg_setReg_same _ _ _ (by cases chain <;> rfl)) (.all ⟨?_, ?_, ?_⟩)
  · exact .when <| .all ⟨.regTxOff hoff, .when <| .regOff hoff .txSetState, .regUnits⟩
  · exact .when <| .seq .regUnits <| .regOff hoff .txCalStart
  · exact .when <| .regOff hoff .acksLost

/-- R128, R129: a held command whose decision instant has come is given up, and counts. -/
theorem completes_txHoldDecision (hcmd : (s.tx chain).cmd = some d) (hdue : d.due = true) (hphase : d.phase = .held)
    {off : Fin 1000000} (hlate : s.holdNs chain.port d.cca d.what ≤ s.atNs off) :
    Completes (.txHoldDecision chain off) s fun t => (t.tx chain).cmd = none ∧
      t.reg (RFx_LATE_SYNTH chain.port) = satNext (s.reg (RFx_LATE_SYNTH chain.port)) := by
  refine ⟨_, rfl, ?_⟩
  simp only [hcmd, hdue, hphase, Nat.ble_eq_true_of_le hlate, decide_true, Bool.and_self, Act.run_when, if_true]
  rw [Act.run_all_cons, Act.run_all_cons, Act.run_all_cons, Act.run_all_nil]
  refine ⟨Act.txHas_txGiveUp .., ?_⟩
  have hcount : State.RegIs (RFx_LATE_SYNTH chain.port) (satNext (s.reg (RFx_LATE_SYNTH chain.port)))
      ((Act.sat (RFx_LATE_SYNTH chain.port)).run s) := Act.reg_satBy _ 1 _ (by cases chain <;> rfl)
  exact (hcount.run (.reg .rfEvent (by cases chain <;> rfl))).run (.reg .txGiveUp (by cases chain <;> rfl))

end

/-- Settles O11: each outcome is its update of the chain, and what else the command does leaves the chain's record and
the registers that the clause reads. -/
theorem transmitSynthesisers : Obligations.TransmitSynthesisers := by
  unfold Obligations.TransmitSynthesisers
  exact ⟨fun _ _ _ hcal hus => completes_txLockConfirmed hcal hus,
    fun _ _ hcal hstate hfails => completes_txCalTimeout hcal hstate hfails,
    fun _ _ _ hcmd hsending => completes_txSynthUnlock hcmd hsending,
    fun _ _ _ value hreach hpermit => completes_txChainEnWrite hreach hpermit value,
    fun _ _ _ _ hcmd hdue hphase hlate => completes_txHoldDecision hcmd hdue hphase hlate⟩

end Sys2Proof.Machine

namespace Sys2Proof.Machine

set_option Elab.async false

open Sys2Proof Sys2Proof.Reg

/-! ### Listening before talking (R128, R135, R199–R202) -/

section

variable {s : State} {chain : Chain} {d : TxCmd}

/-- A chain that works on a command takes no other. -/
theorem Act.run_txTake (hcmd : (s.tx chain).cmd = some d) (ack : Bool) : (Act.txTake chain ack).run s = s := by
  simp [Act.txTake, hcmd]

/-- The command of a chain is due, and it does not wait out a backoff. -/
def TxChain.Due (t : TxChain) : Prop :=
  (t.cmd.map fun d => d.due) = some true ∧ (t.cmd.map fun d => d.phase) ≠ some .backoff

/-- A command that is due stays so where it goes on to its CCA, or is ready. -/
theorem TxChain.Due.proceed (t : TxChain) (h : t.Due) :
    TxChain.Due { t with cmd := t.cmd.map fun d => { d with phase := if d.cca then .cca else .ready } } := by
  obtain ⟨hdue, -⟩ := h
  refine ⟨by simpa using hdue, ?_⟩
  cases t.cmd with
  | none => simp
  | some d => cases hcca : d.cca <;> simp [hcca]

/-- R128, R135: a command whose instant has come is due, whether its CCA runs or it is held. -/
theorem Act.txHas_ccaBegin (hcmd : (s.tx chain).cmd = some d) :
    State.TxHas chain TxChain.Due ((Act.ccaBegin chain).run s) := by
  rw [Act.ccaBegin, Act.run_read, Act.run_seq]
  refine State.TxHas.run ?_ (.seq (.when .txWrap) (.seq (.txTxProceed TxChain.Due.proceed) (.tx .txHolding)))
  simp [State.TxHas, TxChain.Due, hcmd]

/-- R199: at its instant a command that listens is due. -/
theorem completes_ccaStart (hcmd : (s.tx chain).cmd = some d) (hcca : d.cca = true) (hphase : d.phase = .held)
    (hdue : d.due = false) :
    Completes (.ccaStart chain) s fun t => ((t.tx chain).cmd.map fun d => d.due) = some true := by
  refine ⟨_, rfl, ?_⟩
  rw [Act.run_seq, Act.run_txTake hcmd, Act.run_read]
  simp only [hcmd, hcca, hphase, hdue, decide_true, Bool.not_false, Bool.and_self, Act.run_when, if_true]
  exact (Act.txHas_ccaBegin hcmd).1

/-- R200: a clear channel makes a command ready. -/
theorem completes_ccaEnd {e : PlanEntry} (hcmd : (s.tx chain).cmd = some d) (hwhat : d.what = .entry e)
    (hphase : d.phase = .cca) {power : BitVec 16} (hclear : s.ccaBusy chain d power = false) (off : Fin 1000000)
    (draw : Fin 256) :
    Completes (.ccaEnd chain off power draw) s fun t => (t.tx chain).cmd = some { d with phase := .ready } := by
  refine ⟨_, rfl, ?_⟩
  simp only [hcmd, hwhat, hphase, hclear, decide_true, Bool.not_false, Act.run_when, if_true, Act.run_seq]
  simp [Act.Within.tx .recordInput, hcmd, hwhat]

/-- R201: after its backoff a command's next assessment is due. -/
theorem completes_backoffExpiry (hcmd : (s.tx chain).cmd = some d) (hphase : d.phase = .backoff) :
    Completes (.backoffExpiry chain) s fun t => (t.tx chain).Due := by
  refine ⟨_, rfl, ?_⟩
  simp only [hcmd, hphase, decide_true, Act.run_when, if_true]
  exact Act.txHas_ccaBegin hcmd

/-! ### Coexistence (R139–R142) -/

theorem TxChain.inSeq_of_cmd {t : TxChain} (hcmd : t.cmd = some d) : t.inSeq = d.phase.inSeq := by
  rw [TxChain.inSeq, hcmd]

/-- R140: REQ shows a command of either chain that asks. -/
theorem Act.bit_cxFollow_of_req (hcmd : (s.tx chain).cmd = some d) (hreq : d.req = true) :
    ((Act.cxFollow chain.port).run s).bit (RFx_STATUS_CX_REQ chain.port) = true := by
  have hasks : ([(s.u.rf.port chain.port).tx0, (s.u.rf.port chain.port).tx1].flatMap fun t =>
      ((t.cmd.filter fun c => c.req).map (·.what)).toList ++ t.early.toList).isEmpty = false := by
    have hask : d.what ∈ (((s.tx chain).cmd.filter fun c => c.req).map (·.what)).toList := by simp [hcmd, hreq]
    rw [List.isEmpty_eq_false_iff_exists_mem]
    refine ⟨d.what, List.mem_flatMap.2 ⟨s.tx chain, ?_, List.mem_append_left _ hask⟩⟩
    cases chain <;> simp [State.tx, RfUnit.chain, Chain.port, Chain.n]
  rw [Act.cxFollow, Act.run_read, Act.run_seq, hasks]
  exact State.FldIs.bit (n := 1) (fldIs_setB _ true s (fixedReg_rfxStatus _))

/-- R140: the request of a command goes active. -/
theorem completes_cxRequestRaise (hen : s.bit (RFx_CX_CTL_EN chain.port) = true) (hcmd : (s.tx chain).cmd = some d)
    (hphase : d.phase.inSeq = false) (ack : Bool) :
    Completes (.cxRequestRaise chain ack) s fun t => (t.tx chain).cmd = some { d with req := true } ∧
      t.bit (RFx_STATUS_CX_REQ chain.port) = true := by
  refine ⟨_, rfl, ?_⟩
  have hfree : (s.tx chain).inSeq = false := (TxChain.inSeq_of_cmd hcmd).trans hphase
  simp only [hen, hfree, Act.run_when, if_true, Bool.false_eq_true, if_false]
  rw [Act.run_all_cons, Act.run_txTake hcmd, Act.run_all_cons, Act.run_all_cons, Act.run_all_nil]
  have hasks : State.TxHas chain (fun t => t.cmd = some { d with req := true })
      ((Act.txCmd chain fun d => { d with req := true }).run s) := by simp [State.TxHas, hcmd]
  exact ⟨hasks.run .txCxFollow, Act.bit_cxFollow_of_req hasks rfl⟩

/-- R140, R141: a grant that is sampled is kept with the command. -/
theorem completes_cxGrantSample (hen : s.bit (RFx_CX_CTL_EN chain.port) = true) (hcmd : (s.tx chain).cmd = some d)
    (hreq : d.req = true) (hphase : d.phase.inSeq = false)
    (howned : s.gtOwned (s.fld (RFx_CX_CTL_GT chain.port)) (1 + chain.port.idx) = true) :
    Completes (.cxGrantSample chain true) s fun t => (t.tx chain).cmd = some { d with granted := true } ∧
      t.bit (RFx_STATUS_CX_GNT chain.port) = true := by
  refine ⟨_, rfl, ?_⟩
  simp only [hcmd, hen, hreq, hphase, howned, Bool.not_false, Bool.and_self, Act.run_when, if_true, Act.run_seq]
  have hshown : State.FldIs (RFx_STATUS_CX_GNT chain.port) 1
      ((Act.setB (RFx_STATUS_CX_GNT chain.port) true).run s) := fldIs_setB _ true s (fixedReg_rfxStatus _)
  refine ⟨?_, (hshown.run .fldTxCmd).bit⟩
  have htx : ((Act.setB (RFx_STATUS_CX_GNT chain.port) true).run s).tx chain = s.tx chain :=
    State.TxHas.run (Q := (· = s.tx chain)) rfl .txSetB
  simp [htx, hcmd, hreq]

end

/-- A sequence is under way on a port where a chain of it is in one (R117). -/
theorem State.portSeq_iff {s : State} {port : RfPort} :
    s.portSeq port = true ↔ ([chainOf port 0, chainOf port 1].filter fun c => (s.tx c).inSeq) ≠ [] := by
  have hchain (n : Nat) : s.tx (chainOf port n) = (s.u.rf.port port).chain n := by
    cases port <;> cases n <;> rfl
  rw [State.portSeq, Bool.or_eq_true, ne_eq, List.filter_eq_nil_iff, List.forall_mem_cons, List.forall_mem_singleton,
    hchain, hchain, not_and_or, not_not, not_not]
  rfl

/-- R142: a grant withdrawn shows at once, and counts where it cuts into a sequence. -/
theorem completes_cxGrantWithdrawn {s : State} {port : RfPort} (hen : s.bit (RFx_CX_CTL_EN port) = true) :
    Completes (.cxGrantWithdrawn port) s fun t => t.bit (RFx_STATUS_CX_GNT port) = false ∧
      (s.portSeq port = true → t.reg (RFx_CX_ABORT port) = satNext (s.reg (RFx_CX_ABORT port))) := by
  refine ⟨_, rfl, ?_⟩
  simp only [hen, Act.run_when, if_true, Act.run_seq]
  obtain ⟨q, hq⟩ : ∃ q, (Act.setB (RFx_STATUS_CX_GNT port) false).run s = q := ⟨_, rfl⟩
  have hshown : State.FldIs (RFx_STATUS_CX_GNT port) 0 q := hq ▸ fldIs_setB _ false s (fixedReg_rfxStatus _)
  have hcount : q.reg (RFx_CX_ABORT port) = s.reg (RFx_CX_ABORT port) := by
    rw [← hq]
    exact Act.reg_setF_ne _ _ s (by cases port <;> decide)
  rw [hq, ← hcount]
  split
  · next hnone => exact ⟨hshown.bit, fun h => absurd hnone (State.portSeq_iff.1 h)⟩
  · next c cs _ =>
    constructor
    · have hsat : Act.Keeps (State.FldIs (RFx_STATUS_CX_GNT port) 0) (Act.sat (RFx_CX_ABORT port)) :=
        .fldStatus (R := .quiet (ports RFx_CX_ABORT) []) (.sat (Reach.has_port RFx_CX_ABORT))
      have hcut (e : Chain) : Act.Keeps (State.FldIs (RFx_STATUS_CX_GNT port) 0) (Act.txAbort e false true) :=
        .fldOfReg fun _ => .regTxAbort (by cases port <;> rfl)
      refine State.FldIs.bit (n := 0) ?_
      rw [Act.run_all_cons]
      exact (hshown.run hsat).run (.all ⟨.fldStatus .rfEvent, .when <| .each hcut⟩)
    · intro _
      rw [Act.run_all_cons]
      have habort : State.RegIs (RFx_CX_ABORT port) (satNext (q.reg (RFx_CX_ABORT port)))
          ((Act.sat (RFx_CX_ABORT port)).run q) := Act.reg_satBy _ 1 _ (by cases port <;> rfl)
      refine habort.run (.all ⟨.reg .rfEvent ?_, .when <| .each fun _ => .regTxAbort ?_⟩)
      · cases port <;> rfl
      · cases port <;> rfl

/-- R140: HOLD ends. -/
theorem completes_cxRelease {s : State} {port : RfPort} (hhold : (s.u.rf.port port).cxHold = true) :
    Completes (.cxRelease port) s fun t => (t.u.rf.port port).cxHold = false := by
  refine ⟨_, rfl, ?_⟩
  simp [hhold, Act.cxFollow, Act.setB]

/-- Settles O12: each step is its update of the command or of the port, and REQ and GNT follow. -/
theorem channelAssessment : Obligations.ChannelAssessment := by
  unfold Obligations.ChannelAssessment
  exact ⟨fun _ _ _ hcmd hcca hphase hdue => completes_ccaStart hcmd hcca hphase hdue,
    fun _ _ off _ draw _ _ hcmd hwhat hphase hclear => completes_ccaEnd hcmd hwhat hphase hclear off draw,
    fun _ _ _ hcmd hphase => completes_backoffExpiry hcmd hphase,
    fun _ _ ack _ hen hcmd hphase => completes_cxRequestRaise hen hcmd hphase ack,
    fun _ _ _ hen hcmd hreq hphase howned => completes_cxGrantSample hen hcmd hreq hphase howned,
    fun _ _ hen => completes_cxGrantWithdrawn hen,
    fun _ _ hhold => completes_cxRelease hhold⟩

end Sys2Proof.Machine

namespace Sys2Proof.Machine

set_option Elab.async false

open Sys2Proof Sys2Proof.Reg

/-! ### Receive calibration (R119–R121, R151) -/

section

variable {s : State} {port : RfPort}

/-- R120: what a requested recalibration is, before it starts. -/
theorem Act.recalIs_recalRequest (port : RfPort) (cause : Nat) (s : State) :
    State.RecalIs port (some ⟨cause, false⟩) ((Act.recalRequest port cause).run s) := by
  rw [Act.recalRequest, Act.run_all_cons, Act.run_all_cons]
  exact State.RecalIs.run (by simp [State.RecalIs]) (.all (.recal .rxRunning))

/-- R120: a permitted write of 1 requests a recalibration. -/
theorem completes_rxRecalRequest {iface : HostIface} (hreach : s.reaches iface = true)
    (hpermit : s.permits (RFx_RXCAL port) = true) {value : BitVec 32} (hset : value.getLsbD 0 = true)
    (hidle : s.bit (RFx_STATUS_RX_CAL port) = false) :
    Completes (.rxRecalRequest iface port value) s fun t => (t.u.rf.port port).recal = some ⟨1, false⟩ ∧
      t.bit (RFx_STATUS_RX_CAL port) = true := by
  refine ⟨_, rfl, ?_⟩
  have hrun : (Act.rxcalWrite port value).run s = (Act.recalRequest port 1).run s := by
    simp [Act.rxcalWrite, hset, hidle]
  rw [Act.run_permitted hreach hpermit, hrun]
  refine ⟨Act.recalIs_recalRequest port 1 s, ?_⟩
  rw [Act.recalRequest, Act.run_all_cons]
  refine State.FldIs.bit (n := 1) ?_
  have hcal : State.FldIs (RFx_STATUS_RX_CAL port) 1 ((Act.setB (RFx_STATUS_RX_CAL port) true).run s) :=
    fldIs_setB _ true s (fixedReg_rfxStatus _)
  exact hcal.run (.all ⟨.fldRfUnit, .fldStatus .rxRunning⟩)

/-- R151: RFx_SLICE keeps what is written, whatever the write does to the port. -/
theorem Act.regIs_sliceWrite (port : RfPort) (w : Word) (t sample : Nat) (s : State) :
    State.RegIs (RFx_SLICE port) w ((Act.sliceWrite port w t sample).run s) := by
  have hoff : inSpans serviceRegs (RFx_SLICE port) = false := by cases port <;> rfl
  have hstored : State.RegIs (RFx_SLICE port) w ((Act.reg (RFx_SLICE port) w).run s) :=
    State.reg_setReg_same _ _ _ (by cases port <;> rfl)
  rw [Act.sliceWrite, Act.run_read, Act.run_seq]
  exact hstored.run <| .ite (.regPortOff hoff) <| .ite (.regOff hoff .recalRequest) <| .when <|
    .regOff hoff .recalRequest

/-- R151: a port that is enabled starts up. -/
theorem Act.recalIs_sliceWrite {w : Word} (hwas : s.bit (RFx_SLICE_EN port) = false)
    (hnow : Nat.beq (fieldOf w 14 1) 1 = true) (t sample : Nat) :
    State.RecalIs port (some ⟨0, false⟩) ((Act.sliceWrite port w t sample).run s) := by
  rw [Act.sliceWrite, Act.run_read, Act.run_seq]
  simp only [hwas, hnow, Bool.false_and, Bool.false_eq_true, if_false, Bool.not_false, Bool.and_self, if_true]
  exact Act.recalIs_recalRequest port 0 _

/-- R151: a permitted write to RFx_SLICE is kept, and one that enables the port starts it up. -/
theorem completes_sliceWrite {iface : HostIface} (hreach : s.reaches iface = true)
    (hpermit : s.permits (RFx_SLICE port) = true) (value : BitVec 32) (off : Fin 1000000) (sample : BitVec 64) :
    Completes (.sliceWrite iface port value off sample) s fun t =>
      t.reg (RFx_SLICE port) = storedValue (RFx_SLICE port) value ∧
      (s.bit (RFx_SLICE_EN port) = false → t.bit (RFx_SLICE_EN port) = true →
        (t.u.rf.port port).recal = some ⟨0, false⟩) := by
  refine ⟨_, rfl, ?_⟩
  rw [Act.run_permitted hreach hpermit]
  have hkept : ((Act.sliceWrite port (storedValue (RFx_SLICE port) value) (s.atNs off) sample.toNat).run s).reg
      (RFx_SLICE port) = storedValue (RFx_SLICE port) value := Act.regIs_sliceWrite ..
  refine ⟨hkept, fun hwas hnow => Act.recalIs_sliceWrite hwas ?_ _ _⟩
  rwa [State.bit, State.fld, show (RFx_SLICE_EN port).reg = RFx_SLICE port from rfl, hkept] at hnow

/-- R120, R134: step 1 blanks the port and unlocks its receive path, whatever it does to the frames. -/
theorem Act.run_recalStart (port : RfPort) (cause t sample : Nat) (s : State) :
    State.RecalIs port (some ⟨cause, true⟩) ((Act.recalStart port cause t sample).run s) ∧
    ((Act.recalStart port cause t sample).run s).bit (RFx_STATUS_BLANK port) = true ∧
    ((Act.recalStart port cause t sample).run s).bit (RFx_STATUS_RX_LOCKED port) = false := by
  rw [Act.recalStart, Act.run_all_cons, Act.run_all_cons]
  refine ⟨?_, ?_, ?_⟩
  · rw [Act.run_all_cons]
    exact State.RecalIs.run (by simp [State.RecalIs]) <| .all ⟨.recal .endPort, .recal .rxRunning, .recalBlankOn,
      .recalTxSuspend, .recalTxSuspend⟩
  · rw [Act.run_all_cons, Act.run_all_cons, Act.run_all_cons, Act.run_all_cons]
    refine State.FldIs.bit (n := 1) ?_
    exact (State.FldIs.of_bit (Act.bit_blankOn ..)).run (.all ⟨.fldTxSuspend rfl rfl, .fldTxSuspend rfl rfl⟩)
  · refine State.FldIs.bit (n := 0) ?_
    exact State.FldIs.run (fldIs_setB _ false _ (fixedReg_rfxStatus _)) <| .all ⟨.fldRfUnit, .fldStatus .endPort,
      .fldStatus .rxRunning, .fldBlankOn rfl rfl, .fldTxSuspend rfl rfl, .fldTxSuspend rfl rfl⟩

/-- R120: a requested recalibration starts once no transmit sequence is under way. -/
theorem completes_rxRecalStart {r : Recal} (hrecal : (s.u.rf.port port).recal = some r) (hwaits : r.running = false)
    (hseq : s.portSeq port = false) (off : Fin 1000000) (sample : BitVec 64) :
    Completes (.rxRecalStart port off sample) s fun t =>
      (t.u.rf.port port).recal = some { r with running := true } ∧ t.bit (RFx_STATUS_BLANK port) = true ∧
      t.bit (RFx_STATUS_RX_LOCKED port) = false := by
  refine ⟨_, rfl, ?_⟩
  simp only [hrecal, hwaits, hseq, Bool.not_false, Bool.and_self, Act.run_when, if_true]
  exact Act.run_recalStart ..

/-- R121: a receiver that loses lock recalibrates at once. -/
theorem completes_rxSynthUnlock (hlocked : s.bit (RFx_STATUS_RX_LOCKED port) = true) (off : Fin 1000000)
    (sample : BitVec 64) :
    Completes (.rxSynthUnlock port off sample) s fun t => (t.u.rf.port port).recal = some ⟨2, true⟩ ∧
      t.bit (RFx_STATUS_RX_LOCKED port) = false ∧ t.bit (RFx_STATUS_BLANK port) = true := by
  refine ⟨_, rfl, ?_⟩
  simp only [hlocked, Act.run_when, if_true]
  rw [Act.run_all_cons, Act.run_all_cons, Act.run_all_cons, Act.run_all_cons, Act.run_all_nil]
  obtain ⟨hrecal, hblank, hunlocked⟩ := Act.run_recalStart port 2 (s.atNs off) sample.toNat
    ((Act.rfUnit port fun u => { u with rxFails := 0 }).run
      ((Act.faultClass 14).run ((Act.raise 20 (leBytes 1 port.idx)).run s)))
  exact ⟨hrecal, hunlocked, hblank⟩

end

/-- The steps of a port have a register each. -/
theorem stepTab_inj {port : RfPort} {i j : Nat} (hi : i < 15) (hj : j < 15)
    (h : RXD_STEPTAB_xi port i = RXD_STEPTAB_xi port j) : i = j := by
  simp only [RXD_STEPTAB_xi] at h
  omega

/-- R164: the step table as measured. -/
def Act.stepTable (port : RfPort) (steps : List (BitVec 10)) : Act :=
  .each (List.range 15) fun i => .reg (RXD_STEPTAB_xi port i) (BitVec.ofNat 32 (steps.getD i 0).toNat)

theorem fixedReg_stepTab (port : RfPort) (i : Nat) : fixedReg (RXD_STEPTAB_xi port i) = none :=
  fixedReg_of_rf (by simp only [RXD_STEPTAB_xi]; omega)

theorem Act.regIs_stepTable (port : RfPort) (steps : List (BitVec 10)) {i : Nat} (hi : i < 15) (s : State) :
    State.RegIs (RXD_STEPTAB_xi port i) (BitVec.ofNat 32 (steps.getD i 0).toNat)
      ((Act.stepTable port steps).run s) := by
  refine Act.run_each_of_mem (List.mem_range.2 hi) (fun s => State.reg_setReg_same s _ _ (fixedReg_stepTab port _)) ?_ s
  intro j hj t ht
  by_cases hij : j = i
  · subst hij
    exact State.reg_setReg_same t _ _ (fixedReg_stepTab port _)
  · exact (State.reg_setReg_ne t _ fun h => hij (stepTab_inj (List.mem_range.1 hj) hi h)).trans ht

/-- R119, R164: a recalibration that regains lock ends, with the step table measured. -/
theorem completes_rxRecalDone {s : State} {port : RfPort} {r : Recal} (hrecal : (s.u.rf.port port).recal = some r)
    (hruns : r.running = true) (off : Fin 1000000) (sample : BitVec 64) (steps : List (BitVec 10)) (us : BitVec 16) :
    Completes (.rxRecalDone port off sample true steps us) s fun t => (t.u.rf.port port).recal = none ∧
      t.bit (RFx_STATUS_RX_LOCKED port) = true ∧ t.bit (RFx_STATUS_RX_CAL port) = false ∧
      ∀ i ∈ List.range 15, t.reg (RXD_STEPTAB_xi port i) = BitVec.ofNat 32 (steps.getD i 0).toNat := by
  refine ⟨_, rfl, ?_⟩
  simp only [hrecal, hruns, Act.run_when, if_true]
  rw [Act.run_all_cons]
  refine ⟨?_, ?_, ?_, fun i hi => ?_⟩
  · rw [Act.run_all_cons, Act.run_all_cons, Act.run_all_cons, Act.run_all_cons]
    exact State.RecalIs.run (by simp [State.RecalIs]) <| .all ⟨.recal .rxRunning,
      .recal (R := .events [] []) .raise, .when .recalBlankOff⟩
  · rw [Act.run_all_cons, Act.run_all_cons]
    refine State.FldIs.bit (n := 1) ?_
    exact State.FldIs.run (fldIs_setB _ true _ (fixedReg_rfxStatus _)) <| .all ⟨.fldSetB, .fldRfUnit,
      .fldStatus .rxRunning, .fldStatus (R := .events [] []) .raise, .when <| .fldBlankOff rfl rfl⟩
  · rw [Act.run_all_cons, Act.run_all_cons, Act.run_all_cons]
    refine State.FldIs.bit (n := 0) ?_
    exact State.FldIs.run (fldIs_setB _ false _ (fixedReg_rfxStatus _)) <| .all ⟨.fldRfUnit,
      .fldStatus .rxRunning, .fldStatus (R := .events [] []) .raise, .when <| .fldBlankOff rfl rfl⟩
  · have hkept : Act.Within (.events (announceRegs ++ chainRegs ++ ports RFx_BLANK_US) [.rf, .rx, .pair]) <|
        Act.all [Act.agcStat port, Act.setB (RFx_STATUS_RX_LOCKED port) true, Act.setB (RFx_STATUS_RX_CAL port) false,
          Act.rfUnit port fun u => { u with recal := none, rxFails := 0 }, Act.rxRunning port,
          Act.raise 21 (leBytes 1 port.idx ++ leBytes 1 r.cause ++ leBytes 2 us.toNat),
          Act.when (!s.portSeq port) (Act.blankOff port (s.atNs off) sample.toNat)] :=
      .all ⟨.sub .agcStat, .setB (Reach.has_port RFx_STATUS), .setB (Reach.has_port RFx_STATUS), .sub .rfUnit,
        .sub .rxRunning, .raise, .when <| .sub .blankOff⟩
    exact (Act.regIs_stepTable port steps (List.mem_range.1 hi) s).run <| .reg hkept <|
      Reach.lacks_port_array RXD_STEPTAB_xi 16

/-! ### Regional airtime (R144, R147) -/

section

variable {s : State} {port : RfPort}

/-- R144: an update of a region's record. -/
theorem Act.dutyRegion_rfUnit (port : RfPort) (r : Nat) (d : DutyRegion) (s : State) :
    ((Act.rfUnit port fun u => { u with duty := u.duty.setD r DutyRegion.empty d }).run s).dutyRegion port r = d := by
  rw [State.dutyRegion, Act.port_rfUnit_same, Store.getD_setD, if_pos rfl]

theorem Act.Within.dutyRegion {R : Reach} {a : Act} (h : Act.Within R a) (hrf : .rf ∉ R.units := by decide) (s : State)
    (p : RfPort) (r : Nat) : (a.run s).dutyRegion p r = s.dutyRegion p r := by
  rw [State.dutyRegion, h.rf hrf, State.dutyRegion]

/-- R144: the current bucket of a region closes, and the oldest of 64 drops out. -/
theorem completes_dutyBucketAdvance {region : Fin 16}
    (hfull : s.dutyBeats port region ≤ (s.dutyRegion port region).beats) :
    Completes (.dutyBucketAdvance port region) s fun t =>
      (t.dutyRegion port region).buckets = (0 :: (s.dutyRegion port region).buckets).take 64 ∧
      (t.dutyRegion port region).beats = 0 := by
  refine ⟨_, rfl, ?_⟩
  simp only [Nat.ble_eq_true_of_le hfull, Act.run_when, if_true]
  rw [Act.dutySet, Act.run_read, Act.run_all_cons]
  have hshown {b : Bool} {record : List Byte} :
      Act.Within (.events dutyRegs []) (Act.all [Act.dutyStat port region, Act.when b (Act.raise 24 record)]) :=
    .all ⟨.sub .dutyStat, .when .raise⟩
  rw [hshown.dutyRegion, Act.dutyRegion_rfUnit]
  exact ⟨rfl, rfl⟩

/-- R147: a permitted write that moves a region's band is kept, and clears the region's history. -/
theorem completes_dutyRegionWrite_band {iface : HostIface} {region : Fin 16} {value : BitVec 32}
    (hreach : s.reaches iface = true) (hpermit : s.permits (RFx_DUTYr_BAND port region) = true)
    (hmoved : s.reg (RFx_DUTYr_BAND port region) ≠ storedValue (RFx_DUTYr_BAND port region) value) :
    Completes (.dutyRegionWrite iface port region true value) s fun t =>
      t.reg (RFx_DUTYr_BAND port region) = storedValue (RFx_DUTYr_BAND port region) value ∧
      t.dutyRegion port region = DutyRegion.empty := by
  refine ⟨_, rfl, ?_⟩
  have hclear (w : Word) (hw : s.reg (RFx_DUTYr_BAND port region) ≠ w) : (Act.dutyWrite port region true w).run s =
      (Act.dutyClear port region).run (s.setReg (RFx_DUTYr_BAND port region) w) := by
    simp [Act.dutyWrite, hw]
  simp only [if_true]
  rw [Act.run_permitted hreach hpermit, hclear _ hmoved]
  constructor
  · have hfree : fixedReg (RFx_DUTYr_BAND port region) = none :=
      fixedReg_of_rf (by cases port <;> simp only [RFx_DUTYr_BAND, rfBase] <;> omega)
    exact State.RegIs.run (State.reg_setReg_same s _ _ hfree) <| .reg .dutyClear <|
      Reach.lacks_port_array RFx_DUTYr_BAND 16
  · rw [Act.dutyClear, Act.run_all_cons]
    have hshown {record : List Byte} :
        Act.Within (.events dutyRegs []) (Act.all [Act.dutyStat port region, Act.raise 25 record]) :=
      .all ⟨.sub .dutyStat, .raise⟩
    rw [hshown.dutyRegion, Act.dutyRegion_rfUnit]

end

/-- Settles O13: a recalibration is its update of the port with the flags that show it, a region's history is its
record, and what else the commands do leaves both. -/
theorem rfPorts : Obligations.RfPorts := by
  unfold Obligations.RfPorts
  exact ⟨fun _ _ _ _ hreach hpermit hset hidle => completes_rxRecalRequest hreach hpermit hset hidle,
    fun _ _ _ value off sample hreach hpermit => completes_sliceWrite hreach hpermit value off sample,
    fun _ _ off sample _ hrecal hwaits hseq => completes_rxRecalStart hrecal hwaits hseq off sample,
    fun _ _ off sample steps us _ hrecal hruns => completes_rxRecalDone hrecal hruns off sample steps us,
    fun _ _ off sample hlocked => completes_rxSynthUnlock hlocked off sample,
    fun _ _ _ hfull => completes_dutyBucketAdvance hfull,
    fun _ _ _ _ _ hreach hpermit hmoved => completes_dutyRegionWrite_band hreach hpermit hmoved⟩

end Sys2Proof.Machine

namespace Sys2Proof.Machine

set_option Elab.async false

open Sys2Proof Sys2Proof.Reg

/-! ### What programs leave of the receive chain -/

/-- The receive chain's state has a property. -/
def State.RxHas (Q : Rx → Prop) (s : State) : Prop := Q s.u.rx

theorem State.RxHas.run {Q : Rx → Prop} {s : State} {a : Act} (h : State.RxHas Q s)
    (ha : Act.Keeps (State.RxHas Q) a) : State.RxHas Q (a.run s) := ha s h

/-- A decoder channel has a property. -/
def State.DecoderHas (n : Nat) (P : Decoder → Prop) : State → Prop :=
  State.RxHas fun x => P (x.decoders.getD n Decoder.idle)

theorem State.DecoderHas.run {n : Nat} {P : Decoder → Prop} {s : State} {a : Act} (h : State.DecoderHas n P s)
    (ha : Act.Keeps (State.DecoderHas n P) a) : State.DecoderHas n P (a.run s) := ha s h

/-- A port's AGC has a property. -/
def State.AgcHas (p : RfPort) (P : Agc → Prop) : State → Prop := State.RxHas fun x => P (x.agc p)

theorem State.AgcHas.run {p : RfPort} {P : Agc → Prop} {s : State} {a : Act} (h : State.AgcHas p P s)
    (ha : Act.Keeps (State.AgcHas p P) a) : State.AgcHas p P (a.run s) := ha s h

theorem Act.Within.rx {R : Reach} {a : Act} (h : Act.Within R a) (hrx : .rx ∉ R.units := by decide) (s : State) :
    (a.run s).u.rx = s.u.rx := ((h.fits s).units .rx hrx).symm

/-- An update of a port's AGC gives it what holds of the updated record. -/
theorem Act.agcHas_agc {p : RfPort} {P : Agc → Prop} {f : Agc → Agc} {s : State} (h : P (f (s.u.rx.agc p))) :
    State.AgcHas p P ((Act.agc p f).run s) := by
  cases p <;> exact h

theorem Act.decoder_decoder (n : Nat) (f : Decoder → Decoder) (s : State) (m : Nat) :
    ((Act.decoder n f).run s).decoder m = if n = m then f (s.decoder n) else s.decoder m := by
  simp only [State.decoder, Act.decoder, Act.rx, Act.run_units, Store.getD_setD]

@[simp] theorem Act.decoder_decoder_same (n : Nat) (f : Decoder → Decoder) (s : State) :
    ((Act.decoder n f).run s).decoder n = f (s.decoder n) := by
  rw [decoder_decoder, if_pos rfl]

/-- An update of a decoder channel gives it what holds of the updated record. -/
theorem Act.decoderHas_decoder {n : Nat} {P : Decoder → Prop} {f : Decoder → Decoder} {s : State}
    (h : P (f (s.decoder n))) : State.DecoderHas n P ((Act.decoder n f).run s) := by
  change P (((Act.decoder n f).run s).decoder n)
  rwa [decoder_decoder_same]

/-- What a frame that leaves the receive chain does not touch (R176, R178): the property holds whatever the frames in
reception, the descriptors handed over and the counts of false detections are. -/
structure Rx.Lasting (Q : Rx → Prop) : Prop where
  frames : ∀ (x : Rx) (l : List RxFrame), Q x → Q { x with frames := l }
  handoff : ∀ (x : Rx) (l : List RxDesc), Q x → Q { x with handoff := l }
  falses : ∀ (x : Rx) (n k : Nat), Q x →
    Q { x with decoders := x.decoders.setD n Decoder.idle { x.decoders.getD n Decoder.idle with falses := k } }

theorem Rx.lasting_agc {p : RfPort} {P : Agc → Prop} : Rx.Lasting fun x => P (x.agc p) :=
  ⟨fun _ _ h => h, fun _ _ h => h, fun _ _ _ h => h⟩

theorem Rx.lasting_decoder {n : Nat} {P : Decoder → Prop} (h : ∀ d k, P d → P { d with falses := k }) :
    Rx.Lasting fun x => P (x.decoders.getD n Decoder.idle) := by
  refine ⟨fun _ _ hx => hx, fun _ _ hx => hx, fun x m k hx => ?_⟩
  rw [Store.getD_setD]
  split
  · next e => exact h _ k (e ▸ hx)
  · exact hx

theorem Rx.lasting_reqs {P : List LdpcReq → Prop} : Rx.Lasting fun x => P x.reqs :=
  ⟨fun _ _ h => h, fun _ _ h => h, fun _ _ _ h => h⟩

namespace Act.Keeps

section

variable {Q : Rx → Prop}

/-- A program within a reach leaves the receive chain, where it does not reach its unit. -/
theorem rxBeside {R : Reach} {a : Act} (h : Act.Within R a) (hrx : .rx ∉ R.units := by decide) :
    Keeps (State.RxHas Q) a := fun s hs => by rwa [State.RxHas, h.rx hrx]

theorem rxUpdate {f : Rx → Rx} (h : ∀ x, Q x → Q (f x)) : Keeps (State.RxHas Q) (Act.rx f) := fun _ hs => h _ hs

theorem rxSetF {f : Field} {v : Nat} : Keeps (State.RxHas Q) (Act.setF f v) := fun s hs => by
  rwa [State.RxHas, Act.setF_u]

theorem rxSetB {f : Field} {b : Bool} : Keeps (State.RxHas Q) (Act.setB f b) := rxSetF

theorem rxWrapBy {a n : Nat} : Keeps (State.RxHas Q) (Act.wrapBy a n) := fun s hs => by
  rwa [State.RxHas, Act.wrapBy_u]

theorem rxWrap {a : Nat} : Keeps (State.RxHas Q) (Act.wrap a) := rxWrapBy

theorem rxSat {a : Nat} : Keeps (State.RxHas Q) (Act.sat a) := fun s hs => by
  rwa [State.RxHas, Act.sat, Act.satBy_u]

theorem rxRaise {src : Nat} {record : List Byte} : Keeps (State.RxHas Q) (Act.raise src record) :=
  rxBeside (R := .events [] []) .raise

theorem rxRaiseOnce {src key : Nat} {record : List Byte} : Keeps (State.RxHas Q) (Act.raiseOnce src key record) :=
  rxBeside (R := .events [] []) .raiseOnce

end

section

variable {Q : Rx → Prop} (hQ : Rx.Lasting Q)
include hQ

theorem rxCountStatus {n st : Nat} : Keeps (State.RxHas Q) (Act.countStatus n st) :=
  seq rxSetF <| ite rxWrap <| ite rxSat <| ite rxSat <| ite rxSat <|
    all ⟨rxWrap, rxUpdate fun _ => hQ.falses _ _ _, read fun _ => when rxRaiseOnce⟩

theorem rxDeliverFrame {f : RxFrame} {st beat : Nat} : Keeps (State.RxHas Q) (Act.deliverFrame f st beat) :=
  read fun _ => all ⟨ite nop <|
      ite (when <| seq (rxBeside (R := .quiet [] [.pair]) .units) <| when <| rxBeside .linkSend) <|
      all ⟨rxUpdate fun _ => hQ.handoff _ _, when <| rxBeside (R := .quiet [] [.pair]) .units, rxBeside .recordInput⟩,
    rxCountStatus hQ⟩

theorem rxRxFrame {id : Nat} {g : RxFrame → RxFrame} : Keeps (State.RxHas Q) (Act.rxFrame id g) :=
  rxUpdate fun _ => hQ.frames _ _

theorem rxSettleFrame {id : Nat} : Keeps (State.RxHas Q) (Act.settleFrame id) :=
  read fun _ => by split; exacts [nop, when <| all ⟨rxRxFrame hQ, rxDeliverFrame hQ⟩]

theorem rxCwDone {id i : Nat} {r : CwResult} : Keeps (State.RxHas Q) (Act.cwDone id i r) :=
  seq (rxRxFrame hQ) (rxSettleFrame hQ)

/-- R177: a context that ends takes its frame and its decode requests with it. -/
theorem rxEndCtx (hend : ∀ (x : Rx) (l : List RxFrame) (m : List LdpcReq), Q x → Q { x with frames := l, reqs := m })
    {n st : Nat} {c : RxCtx} :
    Keeps (State.RxHas Q) (Act.endCtx n c st) :=
  read fun _ => ite (by
    split
    · exact nop
    · exact all ⟨rxUpdate fun _ => hend _ _ _, rxBeside .poolStat, rxDeliverFrame hQ⟩)
    (rxCountStatus hQ)

end

/-! What the end of receptions leaves of a port's AGC. -/

section

variable {p : RfPort} {P : Agc → Prop}

theorem agcDecoder {n : Nat} {f : Decoder → Decoder} : Keeps (State.AgcHas p P) (Act.decoder n f) :=
  rxUpdate fun _ h => h

theorem agcEndCtx {n st : Nat} {c : RxCtx} : Keeps (State.AgcHas p P) (Act.endCtx n c st) :=
  rxEndCtx Rx.lasting_agc fun _ _ _ h => h

theorem agcEndW {n st : Nat} : Keeps (State.AgcHas p P) (Act.endW n st) :=
  read fun _ => by split; exacts [nop, all ⟨agcEndCtx, agcDecoder, rxBeside .chStat⟩]

theorem agcEndP {n st : Nat} : Keeps (State.AgcHas p P) (Act.endP n st) :=
  read fun _ => by
    dsimp only
    split
    · exact nop
    · exact all ⟨agcEndCtx, agcDecoder, rxBeside .chStat⟩

/-- R169: a record on an announcement bus, with the gap it may meet, leaves the AGC. -/
theorem agcAnnounce {p' : RfPort} {kind sEff sClip gain : Nat} {step : Int} :
    Keeps (State.AgcHas p P) (Act.announce p' kind sEff sClip step gain) :=
  read fun _ => all ⟨rxSetF, when rxWrap, when <| all ⟨each fun _ => seq agcEndW agcEndP, rxSat, rxRaise⟩,
    each fun _ => agcDecoder⟩

end

/-! What programs leave of a decoder channel. -/

section

variable {n : Nat} {P : Decoder → Prop}

theorem decoderAgc {p : RfPort} {f : Agc → Agc} : Keeps (State.DecoderHas n P) (Act.agc p f) :=
  rxUpdate fun _ h => by cases p <;> exact h

/-- R164: trimming the bypass step leaves the decoders. -/
theorem decoderTrimExt {p : RfPort} {seqNo : Nat} {reports : List Int} :
    Keeps (State.DecoderHas n P) (Act.trimExt p seqNo reports) :=
  read fun _ => when <| all ⟨decoderAgc, rxSetF, rxBeside .agcStat, when rxRaise⟩

end

/-! What programs leave of the registers of the receive chain. -/

section

variable {g : Field} {n : Nat} {p : RfPort}

theorem fldUnits {f : Units → Units} : Keeps (State.FldIs g n) (.units f) := fun _ hs => hs

/-- A field of a port's AGC status in a program that does not reach that status. -/
theorem fldAgcStat {R : Reach} {a : Act} (h : Act.Within R a) (hg : g.reg = RXD_AGCx_STAT p := by rfl)
    (hs : R.has (RXD_AGCx_STAT .s) = false := by rfl) (hw : R.has (RXD_AGCx_STAT .w) = false := by rfl) :
    Keeps (State.FldIs g n) a := fld h (hg ▸ Reach.lacks_port RXD_AGCx_STAT hs hw)

section

variable (hg : g.reg = RXD_AGCx_STAT p) (hseq : Nat.ble (g.lo + g.width) 8 = true)
include hg hseq

/-- R169: a record on the bus moves SEQ, and leaves what stands below it in the status. -/
theorem fldAnnounce {p' : RfPort} {kind sEff sClip gain : Nat} {step : Int} :
    Keeps (State.FldIs g n) (Act.announce p' kind sEff sClip step gain) := by
  have hseqNo {v : Nat} : Keeps (State.FldIs g n) (Act.setF (RXD_AGCx_STAT_SEQ p') v) :=
    fldSetF (by rw [show Nat.ble (g.lo + g.width) (RXD_AGCx_STAT_SEQ p').lo = true from hseq, Bool.or_true]) rfl
      (by simp only [Nat.ble_eq] at *; omega)
  exact read fun _ => all ⟨hseqNo,
    when <| fldAgcStat (R := .quiet (ports RXD_STEPS_x) []) (.wrap (Reach.has_port RXD_STEPS_x)) hg,
    when <| fldAgcStat .announceGap hg, each fun _ => fldUnits⟩

theorem fldGainDecision {p' : RfPort} {code at_ : Nat} {clip : Option Nat} :
    Keeps (State.FldIs g n) (Act.gainDecision p' code at_ clip) :=
  read fun _ => all ⟨fldAnnounce hg hseq, fldUnits, when <| fldAgcStat (R := .events [] []) .raiseOnce hg⟩

end

end

end Act.Keeps

theorem fixedReg_agcStat (p : RfPort) : fixedReg (RXD_AGCx_STAT p) = none := by cases p <;> rfl

end Sys2Proof.Machine

namespace Sys2Proof.Machine

set_option Elab.async false

open Sys2Proof Sys2Proof.Reg

/-! ### The slow AGC and its announcement bus (R163–R170) -/

section

variable {s : State} {port : RfPort}

/-- R165: a gain decision is announced, and counted. -/
theorem Act.agcHas_gainDecision (port : RfPort) (g at_ : Nat) (clip : Option Nat) (s : State) :
    State.AgcHas port (fun a => (a.next.map fun n => n.1) = some g ∧ a.decisions = (s.u.rx.agc port).decisions + 1)
      ((Act.gainDecision port g at_ clip).run s) := by
  rw [Act.gainDecision, Act.run_read, Act.run_all_cons, Act.run_all_cons]
  exact State.AgcHas.run (Act.agcHas_agc ⟨rfl, rfl⟩) (.all (.when .rxRaiseOnce))

theorem State.gain_of_next {g : Nat} (h : ((s.u.rx.agc port).next.map fun n => n.1) = some g) : s.gain port = g := by
  obtain ⟨n, hn, rfl⟩ := Option.map_eq_some_iff.1 h
  rw [State.gain, hn]

/-- R165: an attack marks its port clipping, whatever the gain does. -/
theorem completes_agcClipAttack (hon : s.agcOn port = true) {samples : Fin 65} {peak : Fin 2048}
    (hcount : s.fld (RXD_AGCx_CTL_CLIP_COUNT port) ≤ samples.val)
    (hlevel : s.fld (RXD_AGCx_CTL_CLIP_LEVEL port) ≤ peak.val) (sample clip : BitVec 64) :
    Completes (.agcClipAttack port sample clip samples peak) s fun t =>
      t.bit (RXD_AGCx_STAT_CLIPPING port) = true ∧ (s.gain port = 0 → t.bit (RFx_STATUS_OVERLOAD port) = true) := by
  refine ⟨_, rfl, ?_⟩
  simp only [hon, Nat.ble_eq_true_of_le hcount, Nat.ble_eq_true_of_le hlevel, Bool.and_self, Act.run_when, if_true]
  rw [Act.run_seq]
  constructor
  · refine State.FldIs.bit (n := 1) ?_
    refine State.FldIs.run (fldIs_setB _ true s (fixedReg_agcStat _)) (.ite (.all ⟨.fldUnits, .when ?_⟩) ?_)
    · exact .seq (.fldAgcStat (R := .quiet (ports RFx_STATUS) []) (.setB (Reach.has_port RFx_STATUS)))
        (.fldAgcStat (R := .events [] []) .raise)
    · exact .fldGainDecision rfl rfl
  · intro hlow
    rw [if_pos (.inl hlow), hlow, Act.run_all_cons, Act.run_all_cons, Act.run_all_nil, Act.run_when,
      if_pos (beq_self_eq_true 0), Act.run_seq]
    refine State.FldIs.bit (n := 1) ?_
    exact State.FldIs.run (fldIs_setB _ true _ (fixedReg_rfxStatus _)) (.fldStatus (R := .events [] []) .raise)

/-- R165: a loud measurement steps the gain down. -/
theorem completes_agcLevelDecision (hon : s.agcOn port = true) (hfreeze : s.bit (RXD_AGCx_CTL_FREEZE port) = false)
    (hclip : s.bit (RXD_AGCx_STAT_CLIPPING port) = false) (hgain : 0 < s.gain port) {rms : BitVec 16}
    (hloud : s.agcTarget port + s.agcHyst port < rms.toInt) (sample : BitVec 64) :
    Completes (.agcLevelDecision port sample false rms) s fun t => t.gain port = s.gain port - 1 ∧
      (t.u.rx.agc port).decisions = (s.u.rx.agc port).decisions + 1 := by
  refine ⟨_, rfl, ?_⟩
  have hdown : Nat.blt 0 (s.gain port) = true := by simpa using hgain
  simp only [hon, hfreeze, hclip, hdown, decide_eq_true hloud, Bool.not_false, Bool.and_self, Act.run_when, if_true,
    Bool.false_eq_true, if_false]
  obtain ⟨hnext, hcount⟩ := Act.agcHas_gainDecision port (s.gain port - 1) sample.toNat none s
  exact ⟨State.gain_of_next hnext, hcount⟩

/-- R166: a release that was deferred proceeds. -/
theorem completes_agcReleaseDeferEnd (hdeferred : s.bit (RXD_AGCx_STAT_DEFERRED port) = true)
    (hfreeze : s.bit (RXD_AGCx_CTL_FREEZE port) = false) (hgain : s.gain port < 23) (sample : BitVec 64) :
    Completes (.agcReleaseDeferEnd port sample true) s fun t => t.gain port = s.gain port + 1 ∧
      t.bit (RXD_AGCx_STAT_DEFERRED port) = false := by
  refine ⟨_, rfl, ?_⟩
  have hup : Nat.blt (s.gain port) 23 = true := by simpa using hgain
  simp only [hdeferred, hfreeze, hup, Bool.not_false, Bool.true_or, Bool.and_self, Act.run_when, if_true, Act.run_seq]
  obtain ⟨hnext, -⟩ := Act.agcHas_gainDecision port (s.gain port + 1) sample.toNat none
    ((Act.setB (RXD_AGCx_STAT_DEFERRED port) false).run s)
  refine ⟨State.gain_of_next hnext, State.FldIs.bit (n := 0) ?_⟩
  exact State.FldIs.run (fldIs_setB _ false s (fixedReg_agcStat _)) (.fldGainDecision rfl rfl)

/-- R168: an announced gain code takes effect. -/
theorem completes_gainStepEffective {g : Nat × Nat} (hnext : (s.u.rx.agc port).next = some g) (hcode : g.1 < 32) :
    Completes (.gainStepEffective port) s fun t => t.fld (RXD_AGCx_STAT_G port) = g.1 ∧
      (t.u.rx.agc port).next = none := by
  refine ⟨_, rfl, ?_⟩
  simp only [hnext]
  rw [Act.run_all_cons]
  constructor
  · have hg : State.FldIs (RXD_AGCx_STAT_G port) g.1 ((Act.setF (RXD_AGCx_STAT_G port) g.1).run s) :=
      (Act.fld_setF_same _ _ s (fixedReg_agcStat _) (show 0 + 5 ≤ 32 by decide)).trans (Nat.mod_eq_of_lt hcode)
    exact hg.run (.all ⟨.fldUnits, .read fun _ => .all ⟨.fldSetB, .fldSetF⟩,
      .when <| .fldAgcStat (R := .quiet (ports RFx_STATUS) []) (.setB (Reach.has_port RFx_STATUS))⟩)
  · rw [Act.run_all_cons]
    change State.AgcHas port (fun a => a.next = none) _
    exact State.AgcHas.run (Act.agcHas_agc rfl) (.all ⟨.rxBeside .agcStat, .when .rxSetB⟩)

/-- R168: a clipped span ends, its CLIP record issued where one is due. -/
theorem completes_clipSpanEnd (s : State) (port : RfPort) (last : BitVec 64) :
    Completes (.clipSpanEnd port last) s fun t => (t.u.rx.agc port).clip = none ∧
      t.bit (RXD_AGCx_STAT_CLIPPING port) = false ∧ t.bit (RFx_STATUS_OVERLOAD port) = false := by
  refine ⟨_, rfl, ?_⟩
  rw [Act.run_all_cons]
  refine ⟨?_, State.FldIs.bit (n := 0) ?_, ?_⟩
  · rw [Act.run_all_cons, Act.run_all_cons, Act.run_all_nil]
    change State.AgcHas port (fun a => a.clip = none) _
    split
    · next hclip =>
      have hnone : State.AgcHas port (fun a => a.clip = none) s := hclip
      exact (hnone.run .rxSetB).run .rxSetB
    · rw [Act.run_seq]
      exact State.AgcHas.run (Act.agcHas_agc rfl) .agcAnnounce
  · refine State.FldIs.run (fldIs_setB _ false s (fixedReg_agcStat _)) (.all ⟨?_, ?_⟩)
    · exact .fldAgcStat (R := .quiet (ports RFx_STATUS) []) (.setB (Reach.has_port RFx_STATUS))
    · split
      · exact .nop
      · exact .seq .fldUnits (.fldAnnounce rfl rfl)
  · rw [Act.run_all_cons]
    refine State.FldIs.bit (n := 0) ?_
    refine State.FldIs.run (fldIs_setB _ false _ (fixedReg_rfxStatus _)) (.all ?_)
    split
    · exact .nop
    · exact .seq .fldUnits (.fldStatus .announce)

/-- R170: a record that opens a blanked interval. -/
theorem Act.applyRecord_open {r : AnnRecord} (hkind : r.kind = 1) (n : Nat) : Act.applyRecord n r =
    .read fun _ => Act.decoder n fun d => { d with opened := some r.sEff } := by
  simp [Act.applyRecord, hkind]

/-- R169, R170: a decoder applies the oldest record it holds, one that opens a blanked interval. -/
theorem completes_announceRecordApply {decoder : Fin 80} {r : AnnRecord} {rest : List AnnRecord}
    (hheld : (s.decoder decoder).held = r :: rest) (hkind : r.kind = 1) (hlast : (s.decoder decoder).last = none)
    {processed : BitVec 64} (hfuture : processed.toNat ≤ r.sEff) (seq : BitVec 8) (reports : List (BitVec 16)) :
    Completes (.announceRecordApply decoder seq processed reports) s fun t => (t.decoder decoder).held = rest ∧
      (t.decoder decoder).last = some seq.toNat ∧ (t.decoder decoder).opened = some r.sEff := by
  refine ⟨_, rfl, ?_⟩
  have hcaught : Nat.blt r.sEff processed.toNat = false := by
    rw [Bool.eq_false_iff, ne_eq, Nat.blt_eq]
    omega
  simp only [hheld, hlast, hcaught, Bool.not_true, Bool.or_self]
  rw [Act.run_all_cons, Act.run_when, if_neg Bool.false_ne_true, Act.run_all_cons, Act.run_all_cons]
  rw [Act.applyRecord_open hkind decoder, Act.run_read]
  change State.DecoderHas decoder (fun d => d.held = rest ∧ d.last = some seq.toNat ∧ d.opened = some r.sEff) _
  refine State.DecoderHas.run (Act.decoderHas_decoder ?_) (.all ⟨.when .decoderTrimExt, .rxBeside .chStat⟩)
  simp

end

/-- Settles O14: a step decided is announced and counted, one announced takes effect, and what goes on the bus leaves
the AGC and what its status shows below SEQ. -/
theorem agcAndAnnouncements : Obligations.AgcAndAnnouncements := by
  unfold Obligations.AgcAndAnnouncements
  exact ⟨fun _ _ sample clip _ _ hon hcount hlevel => completes_agcClipAttack hon hcount hlevel sample clip,
    fun _ _ sample _ hon hfreeze hclip hgain hloud => completes_agcLevelDecision hon hfreeze hclip hgain hloud sample,
    fun _ _ sample hdeferred hfreeze hgain => completes_agcReleaseDeferEnd hdeferred hfreeze hgain sample,
    fun _ _ _ hnext hcode => completes_gainStepEffective hnext hcode,
    fun s port last => completes_clipSpanEnd s port last,
    fun _ _ seq _ reports _ _ hheld hkind hlast hfuture =>
      completes_announceRecordApply hheld hkind hlast hfuture seq reports⟩

end Sys2Proof.Machine

namespace Sys2Proof.Machine

set_option Elab.async false

open Sys2Proof Sys2Proof.Reg

/-! ### The registers of the decoder channels -/

/-- A register of an array that is apart from a reach. -/
theorem Reach.lacks_array {R : Reach} {b k n : Nat} (h : Reach.apart R.spans [(b, k)] = true := by decide +kernel)
    (hk : 0 < k := by decide) : R.has (b + 4 * (n % k)) = false := by
  have hn : n % k < k := Nat.mod_lt _ hk
  have hin : inSpans [(b, k)] (b + 4 * (n % k)) = true := by
    simp [inSpans]
    omega
  rw [Reach.has, Reach.inSpans_of_apart h hin, Bool.false_and]

theorem fixedReg_array {b k n : Nat} (hb : 0x40000 ≤ b := by decide) : fixedReg (b + 4 * (n % k)) = none :=
  fixedReg_of_rf (Nat.le_add_right_of_le hb)

/-- A counter that wraps moves one on. -/
theorem Act.regIs_wrap {x : Nat} {w : Word} {s : State} (h : State.RegIs x w s) (hx : fixedReg x = none) :
    State.RegIs x (w + 1) ((Act.wrap x).run s) := by
  rw [← h]
  exact Act.reg_wrapBy x 1 s hx

/-! ### The contexts of a decoder channel (R174–R178) -/

/-- The contexts of a decoder channel. -/
def Decoder.Holds (p w : Option RxCtx) (d : Decoder) : Prop := d.p = p ∧ d.w = w

theorem Decoder.Holds.lasting {n : Nat} {p w : Option RxCtx} :
    Rx.Lasting fun x => (x.decoders.getD n Decoder.idle).Holds p w := Rx.lasting_decoder fun _ _ h => h

section

variable {s : State} {n : Nat} {p w : Option RxCtx}

theorem State.decoderHas_iff {P : Decoder → Prop} : State.DecoderHas n P s ↔ P (s.decoder n) := .rfl

/-- R177: what ends with a context leaves the contexts that its decoder holds. -/
theorem Act.Keeps.holdsEndCtx {m st : Nat} {c : RxCtx} :
    Act.Keeps (State.DecoderHas n (Decoder.Holds p w)) (Act.endCtx m c st) :=
  .rxEndCtx Decoder.Holds.lasting fun _ _ _ h => h

theorem Act.run_endP_of_none (h : (s.decoder n).p = none) (st : Nat) : (Act.endP n st).run s = s := by
  simp [Act.endP, h]

theorem Act.run_endP_of_some {c : RxCtx} (h : (s.decoder n).p = some c) (st : Nat) : (Act.endP n st).run s =
    (Act.all [Act.endCtx n c st, Act.decoder n fun d => { d with p := d.w, w := none }, Act.chStat n]).run s := by
  simp [Act.endP, h]

theorem Act.run_endW_of_none (h : (s.decoder n).w = none) (st : Nat) : (Act.endW n st).run s = s := by
  simp [Act.endW, h]

theorem Act.run_endW_of_some {c : RxCtx} (h : (s.decoder n).w = some c) (st : Nat) : (Act.endW n st).run s =
    (Act.all [Act.endCtx n c st, Act.decoder n fun d => { d with w := none }, Act.chStat n]).run s := by
  simp [Act.endW, h]

/-- R175: where P ends, W becomes P. -/
theorem Act.holds_endP {c : RxCtx} (h : State.DecoderHas n (Decoder.Holds (some c) w) s) (st : Nat) :
    State.DecoderHas n (Decoder.Holds w none) ((Act.endP n st).run s) := by
  obtain ⟨hp, -⟩ := State.decoderHas_iff.1 h
  rw [Act.run_endP_of_some hp, Act.run_all_cons, Act.run_all_cons]
  obtain ⟨-, hw⟩ := State.decoderHas_iff.1 (h.run (Act.Keeps.holdsEndCtx (m := n) (st := st) (c := c)))
  exact State.DecoderHas.run (Act.decoderHas_decoder ⟨hw, rfl⟩) (.all (.rxBeside .chStat))

theorem Act.holds_endW (h : State.DecoderHas n (Decoder.Holds p w) s) (st : Nat) :
    State.DecoderHas n (Decoder.Holds p none) ((Act.endW n st).run s) := by
  obtain ⟨hp, hw⟩ := State.decoderHas_iff.1 h
  cases w with
  | none => exact (Act.run_endW_of_none hw st).symm ▸ h
  | some c =>
    rw [Act.run_endW_of_some hw, Act.run_all_cons, Act.run_all_cons]
    obtain ⟨hp, -⟩ := State.decoderHas_iff.1 (h.run (Act.Keeps.holdsEndCtx (m := n) (st := st) (c := c)))
    exact State.DecoderHas.run (Act.decoderHas_decoder ⟨hp, rfl⟩) (.all (.rxBeside .chStat))

/-- R177: both contexts end. -/
theorem Act.holds_endBoth (n st : Nat) (s : State) :
    State.DecoderHas n (Decoder.Holds none none) ((Act.endBoth n st).run s) := by
  rw [Act.endBoth, Act.run_seq]
  obtain ⟨t, ht⟩ : ∃ t, (Act.endW n st).run s = t := ⟨_, rfl⟩
  have hw : State.DecoderHas n (Decoder.Holds (s.decoder n).p none) t := ht ▸ Act.holds_endW ⟨rfl, rfl⟩ st
  rw [ht]
  cases hp : (s.decoder n).p with
  | none =>
    rw [hp] at hw
    obtain ⟨hnone, -⟩ := State.decoderHas_iff.1 hw
    rwa [Act.run_endP_of_none hnone]
  | some c => exact Act.holds_endP (hp ▸ hw) st

end

/-! ### Detection and headers (R172–R176) -/

theorem Air.differ_self (l : List Bool) : Air.differ l l = 0 := by
  induction l with
  | nil => rfl
  | cons b l ih => simpa [Air.differ] using ih

/-- The bits of a word are those of the number it is cut from. -/
theorem Air.bitsMsb_ofNat (v : Nat) : Air.bitsMsb 32 (BitVec.ofNat 32 v).toNat = Air.bitsMsb 32 v := by
  refine List.map_congr_left fun i _ => ?_
  rw [BitVec.toNat_ofNat, Nat.testBit_mod_two_pow, decide_eq_true (by omega), Bool.true_and]

section

variable {s : State} {decoder : Fin 80} {c : RxCtx}

/-- R175: without a W strong enough P stays. -/
theorem Act.run_captureDecide_of_weak {n : Nat}
    (h : ∀ p w, (s.decoder n).p = some p → (s.decoder n).w = some w →
      above p w (s.fld RXD_CAPTURE_CAPTURE_DB) = false) :
    (Act.captureDecide n).run s = s := by
  rw [Act.captureDecide, Act.run_read]
  split
  · next p w hp hw => rw [h p w hp hw, Bool.and_false, Act.run_when, if_neg Bool.false_ne_true]
  · rfl

/-- R172: P opens at a detection, which counts. -/
theorem completes_preambleDetect {found : Detection} (hidle : (s.decoder decoder).p = none)
    (hfound : s.detects decoder found = true) :
    Completes (.preambleDetect decoder found) s fun t =>
      (t.decoder decoder).p = some (ctxOf (s.decoder decoder) (s.chDfe decoder) false found) ∧
      t.reg (RXD_CHn_DET decoder) = s.reg (RXD_CHn_DET decoder) + 1 := by
  refine ⟨_, rfl, ?_⟩
  simp only [hidle, hfound, Option.isNone_none, Bool.and_self, Act.run_when, if_true]
  rw [Act.run_all_cons]
  constructor
  · change State.DecoderHas decoder
      (fun d => d.p = some (ctxOf (s.decoder decoder) (s.chDfe decoder) false found)) _
    exact State.DecoderHas.run (Act.decoderHas_decoder rfl) (.all ⟨.rxWrap, .rxBeside .chStat⟩)
  · rw [Act.run_all_cons]
    exact (Act.regIs_wrap rfl fixedReg_array).run (.all (.reg .chStat Reach.lacks_array))

/-- R174: W opens beside P. -/
theorem completes_watchDetect {found : Detection} (hp : (s.decoder decoder).p = some c)
    (hw : (s.decoder decoder).w = none) (hphase : c.phase = 3) (hfound : s.detects decoder found = true)
    (hweak : above c (ctxOf (s.decoder decoder) (s.chDfe decoder) true found) (s.fld RXD_CAPTURE_CAPTURE_DB) = false) :
    Completes (.watchDetect decoder found) s fun t =>
      (t.decoder decoder).w = some (ctxOf (s.decoder decoder) (s.chDfe decoder) true found) ∧
      (t.decoder decoder).p = some c := by
  refine ⟨_, rfl, ?_⟩
  have hmask : (3 == 2) = false := rfl
  have hearly : Nat.blt 3 4 = true := rfl
  simp only [hp, hw, hphase, hfound, hmask, hearly, Option.isSome_none, Bool.false_and, Bool.not_false, Bool.true_or,
    Bool.and_self, Act.run_when, if_true, Bool.false_eq_true, if_false]
  obtain ⟨x, hx⟩ : ∃ x, ctxOf (s.decoder decoder) (s.chDfe decoder) true found = x := ⟨_, rfl⟩
  rw [hx] at hweak ⊢
  rw [Act.run_all_cons, Act.run_all_cons]
  obtain ⟨q, hq⟩ : ∃ q, (Act.wrap (RXD_CHn_DET decoder)).run
    ((Act.decoder decoder fun d => { d with w := some x }).run s) = q := ⟨_, rfl⟩
  have hholds : State.DecoderHas decoder (Decoder.Holds (some c) (some x)) q :=
    hq ▸ State.DecoderHas.run (Act.decoderHas_decoder ⟨hp, rfl⟩) .rxWrap
  have hdb : State.FldIs RXD_CAPTURE_CAPTURE_DB (s.fld RXD_CAPTURE_CAPTURE_DB) q :=
    hq ▸ State.FldIs.run rfl (.fld (R := .quiet [(RXD_CHn_DET 0, 80)] []) (.wrap Reach.has_array) rfl)
  rw [hq, Act.run_all_cons, Act.run_captureDecide_of_weak]
  · obtain ⟨hp', hw'⟩ := hholds.run (.all (l := [Act.chStat decoder]) (.rxBeside .chStat))
    exact ⟨hw', hp'⟩
  · intro p w hp' hw'
    obtain ⟨hpc, hwx⟩ := State.decoderHas_iff.1 hholds
    obtain rfl : c = p := Option.some.inj (hpc.symm.trans hp')
    obtain rfl : x = w := Option.some.inj (hwx.symm.trans hw')
    rwa [show q.fld RXD_CAPTURE_CAPTURE_DB = _ from hdb]

/-- R173: after the sync word P waits for its header. -/
theorem completes_sfdMatch (hp : (s.decoder decoder).p = some c) (hw : (s.decoder decoder).w = none)
    (hphase : c.phase = 2) (start : BitVec 64) :
    Completes (.sfdMatch decoder false (BitVec.ofNat 32 s.u.boot.syncWord) start) s fun t =>
      (t.decoder decoder).p = some { c with phase := 3, start := start.toNat } := by
  refine ⟨_, rfl, ?_⟩
  have hword : Air.differ (Air.bitsMsb 32 (BitVec.ofNat 32 s.u.boot.syncWord).toNat)
      (Air.bitsMsb 32 s.u.boot.syncWord) = 0 := by
    rw [Air.bitsMsb_ofNat, Air.differ_self]
  have hfits (k : Nat) : Nat.ble 0 k = true := Nat.ble_eq_true_of_le (Nat.zero_le k)
  simp only [Decoder.ctx, Bool.false_eq_true, if_false, hp, hphase, hword, hfits, beq_self_eq_true, Bool.and_self,
    Act.run_when, if_true]
  rw [Act.run_all_cons]
  obtain ⟨q, hq⟩ : ∃ q, (Act.ctx decoder false fun c => { c with phase := 3, start := start.toNat }).run s = q :=
    ⟨_, rfl⟩
  have hholds : State.DecoderHas decoder (Decoder.Holds (some { c with phase := 3, start := start.toNat }) none) q :=
    hq ▸ Act.decoderHas_decoder (by simp [Decoder.Holds, hp, hw])
  obtain ⟨-, hnone⟩ := State.decoderHas_iff.1 hholds
  rw [hq, Act.run_all_cons, Act.run_captureDecide_of_weak fun p w _ h => by rw [hnone] at h; cases h]
  exact (hholds.run (.all (l := [Act.chStat decoder]) (.rxBeside .chStat))).1

/-- R173, R178: a context without a sync word counts as a false detection. -/
theorem Act.regIs_countStatus_sfdTimeout (n : Nat) (s : State) :
    State.RegIs (RXD_CHn_FALSE n) (s.reg (RXD_CHn_FALSE n) + 1) ((Act.countStatus n rxSfdTimeout).run s) := by
  have hcount : (Act.countStatus n rxSfdTimeout) = .seq (Act.setF (RXD_CHn_STAT_LAST n) rxSfdTimeout)
      (.all [Act.wrap (RXD_CHn_FALSE n), Act.decoder n fun d => { d with falses := d.falses + 1 },
        .read fun s => .when (Nat.blt 0 s.u.rx.falseLimit && Nat.blt s.u.rx.falseLimit (s.decoder n).falses)
          (Act.raiseOnce 34 n (leBytes 1 (decoderPort n).idx ++ leBytes 1 n))]) := rfl
  have hlast : State.RegIs (RXD_CHn_FALSE n) (s.reg (RXD_CHn_FALSE n))
      ((Act.setF (RXD_CHn_STAT_LAST n) rxSfdTimeout).run s) :=
    State.RegIs.run rfl (.reg (R := .quiet [(RXD_CHn_STAT 0, 80)] []) (.setF Reach.has_array) Reach.lacks_array)
  rw [hcount, Act.run_seq, Act.run_all_cons]
  exact (Act.regIs_wrap hlast fixedReg_array).run <| .all ⟨.regUnits,
    .read fun _ => .when <| .reg (R := .events [] []) .raiseOnce Reach.lacks_array⟩

/-- R173: a wait without a sync word ends the context. -/
theorem completes_sfdTimeout (hp : (s.decoder decoder).p = some c) (hphase : c.phase = 2) :
    Completes (.sfdTimeout decoder false) s fun t => (t.decoder decoder).p = (s.decoder decoder).w ∧
      (t.decoder decoder).w = none ∧ t.reg (RXD_CHn_FALSE decoder) = s.reg (RXD_CHn_FALSE decoder) + 1 := by
  refine ⟨_, rfl, ?_⟩
  simp only [Decoder.ctx, Bool.false_eq_true, if_false, hp, hphase, beq_self_eq_true, Act.run_when, if_true, Act.endOne]
  obtain ⟨hp', hw'⟩ := State.decoderHas_iff.1 (Act.holds_endP (n := decoder) ⟨hp, rfl⟩ rxSfdTimeout)
  refine ⟨hp', hw', ?_⟩
  have hsearch : ¬ c.phase = 4 := by omega
  rw [Act.run_endP_of_some hp, Act.run_all_cons, Act.endCtx, Act.run_read, if_neg hsearch]
  exact (Act.regIs_countStatus_sfdTimeout decoder s).run (.all ⟨.regUnits, .reg .chStat Reach.lacks_array⟩)

/-- R175, R176: a valid header opens the frame of P. -/
theorem completes_headerDecoded (hp : (s.decoder decoder).p = some c) (hw : (s.decoder decoder).w = none)
    (hphase : c.phase = 3) {block : BitVec 32} (hvalid : headerStatus block.toNat (s.chRate decoder) = rxOk) :
    Completes (.headerDecoded decoder false block) s fun t =>
      (t.decoder decoder).p = some { c with phase := 4, frame := s.u.rx.next } ∧
      t.u.rx.frames = s.u.rx.frames ++ [frameOf s decoder c block.toNat] ∧
      t.reg (RXD_CHn_HDR_OK decoder) = s.reg (RXD_CHn_HDR_OK decoder) + 1 := by
  refine ⟨_, rfl, ?_⟩
  simp only [Decoder.ctx, Bool.false_eq_true, if_false, hp, hphase, hvalid, beq_self_eq_true, Act.run_when, if_true,
    ne_eq, not_true_eq_false]
  rw [Act.run_seq, Act.run_endW_of_none hw, Act.openFrame, Act.run_read, hp]
  dsimp only
  rw [Act.run_all_cons, Act.run_all_cons]
  obtain ⟨q, hq⟩ : ∃ q,
    (Act.decoder decoder fun d => { d with p := some { c with phase := 4, frame := s.u.rx.next } }).run
      ((Act.rx fun x =>
        { x with frames := x.frames ++ [frameOf s decoder c block.toNat], next := x.next + 1 }).run s) = q := ⟨_, rfl⟩
  have hcount : q.reg (RXD_CHn_HDR_OK decoder) = s.reg (RXD_CHn_HDR_OK decoder) := by rw [← hq]; rfl
  rw [hq, ← hcount]
  have hshown {Q : Rx → Prop} : Act.Keeps (State.RxHas Q) (.all [Act.wrap (RXD_CHn_HDR_OK decoder),
      Act.setF (RXD_CHn_STAT_RSSI decoder) (c.level % 65536).toNat, Act.chStat decoder]) :=
    .all ⟨.rxWrap, .rxSetF, .rxBeside .chStat⟩
  refine ⟨?_, ?_, ?_⟩
  · have hopen : State.DecoderHas decoder (fun d => d.p = some { c with phase := 4, frame := s.u.rx.next }) q :=
      hq ▸ Act.decoderHas_decoder rfl
    exact hopen.run hshown
  · have hframe : State.RxHas (fun x => x.frames = s.u.rx.frames ++ [frameOf s decoder c block.toNat]) q := hq ▸ rfl
    exact hframe.run hshown
  · rw [Act.run_all_cons]
    exact (Act.regIs_wrap rfl fixedReg_array).run <| .all
      ⟨.reg (R := .quiet [(RXD_CHn_STAT 0, 80)] []) (.setF Reach.has_array) Reach.lacks_array,
        .reg .chStat Reach.lacks_array⟩

end

/-! ### Codewords and the LDPC pool (R176, R182–R186) -/

section

variable {s : State} {decoder : Fin 80} {c : RxCtx} {f : RxFrame}

/-- R39, R182: a codeword issues its decode request, bound to a beat. -/
theorem completes_codewordEnd (hp : (s.decoder decoder).p = some c) (hphase : c.phase = 4)
    (hframe : s.rxFrame c.frame = some f) (hmore : f.cws.length < Air.codewords f.rate f.length) (soft : List Soft) :
    Completes (.codewordEnd decoder soft) s fun t => t.u.rx.reqs.length = s.u.rx.reqs.length + 1 ∧
      (t.u.rx.reqs.getLast?.map fun r => (r.frame, r.cw, r.beat, r.core)) =
        some (f.id, f.cws.length, s.bindBeat, none) := by
  refine ⟨_, rfl, ?_⟩
  have hnext : Nat.blt f.cws.length (Air.codewords f.rate f.length) = true := by simpa using hmore
  simp only [hp, hframe, hphase, hnext, beq_self_eq_true, Bool.and_self, Act.run_when, if_true]
  rw [Act.run_all_cons, Act.run_all_cons]
  change State.RxHas (fun x => x.reqs.length = s.u.rx.reqs.length + 1 ∧
    (x.reqs.getLast?.map fun r => (r.frame, r.cw, r.beat, r.core)) = some (f.id, f.cws.length, s.bindBeat, none)) _
  refine State.RxHas.run ?_ (.all (.rxBeside .poolStat))
  simp [State.RxHas, Act.rx, Act.rxFrame]

/-- R176: at the end of its frame P returns to search, or W becomes P. -/
theorem completes_rxFrameEnd (hp : (s.decoder decoder).p = some c) (hphase : c.phase = 4)
    (hframe : s.rxFrame c.frame = some f) (hlast : f.cws.length = Air.codewords f.rate f.length) :
    Completes (.rxFrameEnd decoder) s fun t => (t.decoder decoder).p = (s.decoder decoder).w ∧
      (t.decoder decoder).w = none := by
  refine ⟨_, rfl, ?_⟩
  simp only [hp, hframe, hphase, hlast, beq_self_eq_true, Bool.and_self, Act.run_when, if_true]
  rw [Act.run_all_cons, Act.run_all_cons]
  change State.DecoderHas decoder (Decoder.Holds (s.decoder decoder).w none) _
  exact State.DecoderHas.run (Act.decoderHas_decoder ⟨rfl, rfl⟩)
    (.all ⟨.rxBeside .chStat, .rxSettleFrame Decoder.Holds.lasting⟩)

/-- R186: the request taken next is one of those that wait. -/
theorem mem_of_nextReq {l : List LdpcReq} {r : LdpcReq} (h : nextReq l = some r) : r ∈ l := by
  induction l generalizing r with
  | nil => cases h
  | cons q l ih =>
    rw [nextReq] at h
    split at h
    · cases h
      exact List.mem_cons_self
    · next m hm =>
      split at h
      · cases h
        exact List.mem_cons_of_mem _ (ih hm)
      · cases h
        exact List.mem_cons_self

/-- R186: the lowest free core takes the next request. -/
theorem completes_ldpcDispatch {r : LdpcReq} {k : Nat}
    (hnext : nextReq (s.u.rx.reqs.filter fun r => r.core.isNone) = some r) (hfree : s.freeLdpc = some k) :
    Completes .ldpcDispatch s fun t => ∃ q ∈ t.u.rx.reqs, q = { r with core := some k } := by
  refine ⟨_, rfl, ?_⟩
  have hr : r ∈ s.u.rx.reqs := (List.mem_filter.1 (mem_of_nextReq hnext)).1
  simp only [hnext, hfree]
  rw [Act.run_seq]
  change State.RxHas (fun x => ∃ q ∈ x.reqs, q = { r with core := some k }) _
  refine State.RxHas.run ⟨_, List.mem_map.2 ⟨r, hr, rfl⟩, ?_⟩ (.rxBeside .poolStat)
  simp

/-- R184: a core that returns is free, and its decode counts. -/
theorem completes_ldpcDecodeDone {core : Fin 8} {r : LdpcReq}
    (hreq : (s.u.rx.reqs.find? fun r => r.core == some core.val) = some r) (hframe : s.rxFrame r.frame = some f)
    (hard : BitVec 1152) (iterations : Fin 33) :
    Completes (.ldpcDecodeDone core hard iterations) s fun t =>
      (∀ q ∈ t.u.rx.reqs, q.core ≠ some core.val) ∧ t.reg RXD_LDPC_DEC = s.reg RXD_LDPC_DEC + 1 := by
  refine ⟨_, rfl, ?_⟩
  simp only [hreq, hframe]
  rw [Act.run_all_cons]
  constructor
  · change State.RxHas (fun x => ∀ q ∈ x.reqs, q.core ≠ some core.val) _
    refine State.RxHas.run ?_ (.all ⟨.rxBeside .poolStat, .rxWrap, .rxWrapBy, .when .rxSat,
      .when <| .seq (.rxBeside .linkSend) .rxWrap, ?_⟩)
    · intro q hq
      simpa using (List.mem_filter.1 hq).2
    · split
      · exact .rxCwDone (Rx.lasting_reqs (P := fun l => ∀ q ∈ l, q.core ≠ some core.val))
      · split
        · exact .nop
        · split
          · exact .seq (.rxBeside .sram) (.rxBeside .finish)
          · exact .rxBeside .finish
  · rw [Act.run_all_cons, Act.run_all_cons]
    refine State.RegIs.run (Act.regIs_wrap (State.RegIs.run (State.RegIs.run rfl .regUnits) (.reg .poolStat rfl)) rfl)
      (.all ⟨?_, .when ?_, .when <| .seq (.reg .linkSend rfl) ?_, ?_⟩)
    · exact .reg (R := .quiet [(RXD_LDPC_ITER, 1)] []) .wrapBy rfl
    · exact .reg (R := .quiet [(RXD_LDPC_FAIL, 1)] []) .sat rfl
    · exact .reg (R := .quiet [(PAIR_LLR_SHARED, 1)] []) .wrap rfl
    · split
      · exact .reg .cwDone rfl
      · split
        · exact .nop
        · split
          · exact .seq (.reg .sram rfl) (.reg .finish rfl)
          · exact .reg .finish rfl

end

/-! ### Configuration (R194, R198) -/

section

variable {s : State} {iface : HostIface}

/-- R198: a write that changes a channel's configuration is kept, and ends both contexts. -/
theorem completes_decoderCfgWrite {decoder : Fin 80} {value : BitVec 32} (hreach : s.reaches iface = true)
    (hpermit : s.permits (RXD_CHn_CFG decoder) = true)
    (hchange : s.reg (RXD_CHn_CFG decoder) ≠ storedValue (RXD_CHn_CFG decoder) value) :
    Completes (.decoderCfgWrite iface decoder value) s fun t =>
      t.reg (RXD_CHn_CFG decoder) = storedValue (RXD_CHn_CFG decoder) value ∧ (t.decoder decoder).p = none ∧
      (t.decoder decoder).w = none := by
  refine ⟨_, rfl, ?_⟩
  rw [Act.run_permitted hreach hpermit, Act.decoderCfg, Act.run_read, Act.run_when,
    if_pos (by simpa using hchange), Act.run_all_cons, Act.run_all_cons]
  constructor
  · exact State.RegIs.run (State.reg_setReg_same _ _ _ fixedReg_array) <|
      .all ⟨.regUnits, .reg .chStat Reach.lacks_array⟩
  · have hgone : State.DecoderHas decoder (Decoder.Holds none none)
        ((Act.reg (RXD_CHn_CFG decoder) (storedValue (RXD_CHn_CFG decoder) value)).run
          ((Act.endBoth decoder rxChannelOff).run s)) :=
      (Act.holds_endBoth ..).run (.rxBeside (R := .quiet [(RXD_CHn_CFG 0, 80)] []) (.reg Reach.has_array))
    rw [Act.run_all_cons]
    change State.DecoderHas decoder (Decoder.Holds none none) _
    exact State.DecoderHas.run (Act.decoderHas_decoder hgone) (.all (.rxBeside .chStat))

/-- R194: a write to RXD_CAPTURE is kept. -/
theorem completes_captureCfgWrite (hreach : s.reaches iface = true) (hpermit : s.permits RXD_CAPTURE = true)
    (value : BitVec 32) :
    Completes (.captureCfgWrite iface value) s fun t => t.reg RXD_CAPTURE = storedValue RXD_CAPTURE value := by
  refine ⟨_, rfl, ?_⟩
  rw [Act.run_permitted hreach hpermit, Act.captureCfg, Act.run_read, Act.run_seq]
  refine State.RegIs.run (State.reg_setReg_same _ _ _ rfl) <| .when <| .each fun _ => .read fun _ => ?_
  split
  · exact .when <| .seq (.reg .endW rfl) (.reg .chStat rfl)
  · exact .nop

end

/-- Settles O15: each step is its update of the decoder's contexts, of its frame or of the requests, and what else the
command does leaves them and the counters that the clause reads. -/
theorem reception : Obligations.Reception := by
  unfold Obligations.Reception
  exact ⟨fun _ _ _ hidle hfound => completes_preambleDetect hidle hfound,
    fun _ _ _ _ hp hw hphase hfound hweak => completes_watchDetect hp hw hphase hfound hweak,
    fun _ _ start _ hp hw hphase => completes_sfdMatch hp hw hphase start,
    fun _ _ _ hp hphase => completes_sfdTimeout hp hphase,
    fun _ _ _ _ hp hw hphase hvalid => completes_headerDecoded hp hw hphase hvalid,
    fun _ _ soft _ _ hp hphase hframe hmore => completes_codewordEnd hp hphase hframe hmore soft,
    fun _ _ _ _ hp hphase hframe hlast => completes_rxFrameEnd hp hphase hframe hlast,
    fun _ _ _ hnext hfree => completes_ldpcDispatch hnext hfree,
    fun _ _ hard iterations _ _ hreq hframe => completes_ldpcDecodeDone hreq hframe hard iterations,
    fun _ _ _ _ hreach hpermit hchange => completes_decoderCfgWrite hreach hpermit hchange,
    fun _ _ value hreach hpermit => completes_captureCfgWrite hreach hpermit value⟩

end Sys2Proof.Machine

namespace Sys2Proof.Machine

set_option Elab.async false

open Sys2Proof Sys2Proof.Reg

/-! ### Programs that store in the Envelope

`Act.Within` leaves memory alone. Most programs of the MAC unit and of the queues store records, frames and pages, so
`Act.Stores` says the rest of it for them: which registers and which units they leave. -/

/-- What a program of a reach may touch, where it may store anywhere in the Envelope. -/
def Reach.storing (R : Reach) : Foot where
  regs := R.has
  mem _ _ := true
  units := Units.Keeps R.units
  refl := .refl R.units
  trans := .trans
  stable _ := rfl

/-- A program stays within a reach, but for what it stores in the Envelope. -/
def Act.Stores (R : Reach) (a : Act) : Prop := a.Fits R.storing

namespace Act.Stores

open Reach (has_array)

variable {R R' : Reach}

theorem within {a : Act} (h : Within R a) (hs : R.sub R' = true := by decide +kernel) : Stores R' a := fun s =>
  ⟨(Reach.touches_mono hs (h.fits s)).reg, fun _ hx => (nomatch hx), (Reach.touches_mono hs (h.fits s)).units⟩

theorem sub {a : Act} (h : Stores R a) (hs : R.sub R' = true := by decide +kernel) : Stores R' a := fun s => by
  refine ⟨fun x hx => (h s).reg x ?_, fun _ hx => (nomatch hx), (h s).units.mono (Reach.sub_iff.1 hs).2.1⟩
  exact Bool.eq_false_iff.2 fun hb => Bool.eq_false_iff.1 hx (Reach.has_mono hs hb)

theorem nop : Stores R .nop := Fits.nop
theorem seq {a b : Act} (ha : Stores R a) (hb : Stores R b) : Stores R (.seq a b) := Fits.seq ha hb
theorem read {k : State → Act} (h : ∀ s, Stores R (k s)) : Stores R (.read k) := Fits.read h
theorem ite {c : Prop} [Decidable c] {a b : Act} (ha : Stores R a) (hb : Stores R b) :
    Stores R (if c then a else b) := Fits.ite ha hb
theorem when {c : Bool} {a : Act} (h : Stores R a) : Stores R (Act.when c a) := Fits.when h
theorem all {l : List Act} (h : l.Forall (Stores R)) : Stores R (Act.all l) := Fits.all (List.forall_iff_forall_mem.1 h)
theorem each {α : Type} {l : List α} {f : α → Act} (h : ∀ x, Stores R (f x)) : Stores R (Act.each l f) :=
  Fits.each fun x _ => h x
theorem reg {a : Nat} {w : Word} (h : R.has a = true := by rfl) : Stores R (.reg a w) := Fits.reg h
theorem setF {f : Field} {v : Nat} (h : R.has f.reg = true := by rfl) : Stores R (Act.setF f v) := Fits.setF h
theorem setB {f : Field} {b : Bool} (h : R.has f.reg = true := by rfl) : Stores R (Act.setB f b) := Fits.setB h
theorem wrapBy {a n : Nat} (h : R.has a = true := by rfl) : Stores R (Act.wrapBy a n) := Fits.wrapBy h
theorem wrap {a : Nat} (h : R.has a = true := by rfl) : Stores R (Act.wrap a) := Fits.wrap h
theorem satBy {a n : Nat} (h : R.has a = true := by rfl) : Stores R (Act.satBy a n) := Fits.satBy h
theorem sat {a : Nat} (h : R.has a = true := by rfl) : Stores R (Act.sat a) := Fits.sat h

theorem units {f : Units → Units} (h : ∀ u, f u = Units.only R.units u (f u) := by exact fun _ => rfl) :
    Stores R (.units f) := Fits.units fun u => Units.keeps_iff.2 (h u)

theorem memBytes {a : Nat} {bs : List Byte} : Stores R (Act.memBytes a bs) := fun s =>
  ⟨fun _ _ => by simp, fun _ hx => (nomatch hx), by rw [memBytes_u]; exact .refl _ _⟩

theorem raise {src : Nat} {record : List Byte} (h : (Reach.events [] []).sub R = true := by decide +kernel) :
    Stores R (Act.raise src record) := within (.raise (R := .events [] [])) h

theorem raiseOnce {src key : Nat} {record : List Byte} (h : (Reach.events [] []).sub R = true := by decide +kernel) :
    Stores R (Act.raiseOnce src key record) := within (.raiseOnce (R := .events [] [])) h

/-! #### Records of the Directory and of campaigns -/

theorem recUpdate {nsa : Nat} {fields : List (RecField × Nat)} :
    Stores (.quiet [] [.pair]) (Act.recUpdate nsa fields) := by
  have put {f : RecField} {v : Nat} : Stores (.quiet [] [.pair]) (Act.recPut nsa f v) := read fun _ => memBytes
  exact read fun _ => ite (seq (each fun _ => put) <|
    all ⟨read fun _ => put, read fun _ => put, read fun _ => within .logUpdate⟩) nop

theorem campPut {r : Nat} {f : RecField} {v : Nat} : Stores (.quiet [] [.pair]) (Act.campPut r f v) :=
  read fun _ => seq memBytes (within .logUpdate)

theorem campCount {r : Nat} {f : RecField} {n : Nat} : Stores (.quiet [] [.pair]) (Act.campCount r f n) :=
  read fun _ => when campPut

theorem campFail {r n reason : Nat} : Stores (.quiet [] [.pair]) (Act.campFail r n reason) :=
  seq recUpdate campCount

/-- R588, R590: the end of a BLOCK frame shows in its campaign. -/
theorem campDone {q : Option Nat} {start : Nat} {acked : Bool} :
    Stores (.quiet [] [.img, .pair]) (Act.campDone q start acked) := by
  refine read fun _ => ?_
  split
  · exact nop
  · exact seq (within .runSet) <| ite (when <| seq (sub recUpdate) (sub campCount)) <|
      ite (seq (within .runSet) <| when <| sub campFail) (within .runSet)

/-! #### Queues -/

theorem queue {n : Nat} {f : Queue → Queue} : Stores (.quiet [] [.env]) (Act.queue n f) := units

theorem writePage {n : Nat} {pg : Page} {old : Nat} {next : Option Nat} :
    Stores (.quiet [] []) (Act.writePage n pg old next) := by
  refine read fun _ => all ⟨each fun _ => ?_, memBytes⟩
  split
  · exact nop
  · exact seq memBytes memBytes

theorem pagesFill {n k : Nat} : Stores (.quiet [] [.env]) (Act.pagesFill n k) := by
  induction k with
  | zero => exact nop
  | succ k ih =>
    refine read fun _ => when ?_
    dsimp only
    split
    · refine ite (all ⟨queue, sub writePage, ih⟩) ?_
      split
      · exact nop
      · exact all ⟨units, queue, sub writePage, ih⟩
    · split
      · exact nop
      · exact all ⟨units, queue, ih⟩

theorem pagesFollow {n : Nat} : Stores (.quiet [(ENV_POOL, 1)] [.env]) (Act.pagesFollow n) :=
  all ⟨read fun _ => when <| seq (sub queue) units, read fun _ => sub pagesFill, read fun _ => setF⟩

theorem fcFollow : Stores (.events [(ENV_FC_STATE, 1), (ETH_STATUS, 1)] [.env, .eth]) Act.fcFollow :=
  all ⟨read fun _ => setF, within .fcPins, within .pauseEval, within .pauseEval⟩

theorem queueDone {n : Nat} : Stores (.events releaseRegs [.env, .eth]) (Act.queueDone n) :=
  all ⟨sub queue, sub pagesFollow, sub fcFollow⟩

theorem queueLog {n op : Nat} : Stores (.quiet [] [.pair]) (Act.queueLog n op) := read fun _ => within .logUpdate

theorem releasePacket {n start : Nat} :
    Stores (.events releaseRegs [.env, .eth, .pair]) (Act.releasePacket n start) := by
  refine read fun _ => ?_
  split
  · exact nop
  · exact seq (sub queue) <| all ⟨sub queue, sub queueLog, sub queueDone⟩

theorem airDrain {q d f k : Nat} : Stores (.events releaseRegs [.env, .eth, .sch, .pair]) (Act.airDrain q d f k) := by
  induction k with
  | zero => exact nop
  | succ k ih =>
    refine read fun _ => ?_
    split
    · exact nop
    · exact when <| all ⟨sub releasePacket, within .flow, within .stamp, ih⟩

/-- R209: the air port is done with a packet. -/
theorem airRelease {p : RfPort} {q start : Nat} :
    Stores (.events releaseRegs [.env, .eth, .sch, .mac, .pair]) (Act.airRelease p q start) := by
  refine read fun _ => ?_
  split
  · exact sub releasePacket
  · exact all ⟨within .flow, units, sub airDrain⟩

end Act.Stores

/-- Where an enqueue shows (R303, R311), and what follows it. -/
def enqueueRegs : List (Nat × Nat) := [(ENV_FRAMING, 1), (ENV_DROP, 1), (ENV_PARITY, 1), (ENV_ABORTS, 1)] ++ releaseRegs

/-- Where sealing a frame shows (R371, R391). -/
def sealRegs : List (Nat × Nat) :=
  deriveRegs ++ [(SEC_INVALID_KEY, 1), (SEC_CCM_OPS, 1), (SEC_TXCTR_JOIN, 1), (SEC_TXCTR_BCAST, 1)]

namespace Act.Stores

open Reach (has_array)

variable {R : Reach}

/-- R303: an enqueue, and what it is followed by. -/
theorem enqueue {n : Nat} {c : CommitInfo} {ws : List WordIn} {k : Enq → Act} (hk : ∀ e, Stores R (k e))
    (hs : (Reach.events enqueueRegs [.env, .eth, .pair]).sub R = true := by decide +kernel) :
    Stores R (Act.enqueue n c ws k) := by
  have counts {e : Enq} : Stores (.events enqueueRegs [.env, .eth, .pair]) (Act.enqCounts n e) :=
    all ⟨satBy, satBy, satBy, wrapBy, when <| within .faultClass, each fun _ => raise, when raiseOnce,
      each fun _ => raise⟩
  have uplink {p : PacketInfo} : Stores (.events enqueueRegs [.env, .eth, .pair]) (Act.uplinkLog n p) :=
    read fun _ => when <| read fun _ => when units
  have log {p : PacketInfo} : Stores (.events enqueueRegs [.env, .eth, .pair])
      (.seq (Act.queueLog n 1) (Act.uplinkLog n p)) := seq (sub queueLog) uplink
  have done : Stores (.events enqueueRegs [.env, .eth, .pair]) (Act.queueDone n) := sub queueDone
  have store {f : Queue → Queue} : Stores (.events enqueueRegs [.env, .eth, .pair]) (Act.queue n f) := sub queue
  exact read fun _ => all ⟨sub store hs, each fun _ => sub log hs, sub counts hs, sub done hs, hk _⟩

theorem enqPacket {n : Nat} {c : CommitInfo} {bs : List Byte} {k : Bool → Act} (hk : ∀ ok, Stores R (k ok))
    (hs : (Reach.events enqueueRegs [.env, .eth, .pair]).sub R = true := by decide +kernel) :
    Stores R (Act.enqPacket n c bs k) := enqueue (fun _ => hk _) hs

/-- R324: a sealed frame joins an air flow. -/
theorem airEnq {p : RfPort} {f q decoder cls : Nat} {bs : List Byte} {k : Nat → Nat → Bool → Act}
    (hk : ∀ q start ok, Stores R (k q start ok))
    (hs : (Reach.events enqueueRegs [.env, .eth, .sch, .pair]).sub R = true := by decide +kernel) :
    Stores R (Act.airEnq p f q decoder cls bs k) := by
  have place {start : Nat} : Stores (.events enqueueRegs [.env, .eth, .sch, .pair])
      (.seq (Act.placePacket q start decoder cls bs.length) (Act.stamp false (2 + p.idx) f)) :=
    seq units (within .stamp)
  exact read fun _ => enqPacket (fun _ => seq (when <| sub place hs) (hk _ _ _)) (Reach.sub_trans hs)

theorem sendControl {p : RfPort} {decoder cls : Nat} {bs : List Byte} {k : Nat → Nat → Act}
    (hk : ∀ q start, Stores R (k q start))
    (hs : (Reach.events enqueueRegs [.env, .eth, .sch, .pair]).sub R = true := by decide +kernel) :
    Stores R (Act.sendControl p decoder cls bs k) := by
  refine read fun _ => ?_
  split
  · exact nop
  · exact airEnq (fun _ _ _ => when (hk _ _)) hs

/-! #### Keys and seals -/

theorem fetchSlot {n i : Nat} {upset : Bool} {bad : Act} {k : List Nat → Act} (hbad : Stores R bad)
    (hk : ∀ w, Stores R (k w))
    (hs : (Reach.events fetchRegs [.sec, .pair]).sub R = true := by decide +kernel) :
    Stores R (Act.fetchSlot n i upset bad k) :=
  read fun _ => ite hbad <| ite (seq (within .tear hs) hbad) (hk _)

theorem derived {n : Nat} {l : List Byte} {bad : Act} {k : List Nat → Act} (hbad : Stores R bad)
    (hk : ∀ w, Stores R (k w))
    (hs : (Reach.events deriveRegs [.sec, .pair]).sub R = true := by decide +kernel) :
    Stores R (Act.derived n l bad k) := by
  have hit : Stores R (Act.wrap SEC_CACHE_HIT) := within (R := .events deriveRegs [.sec, .pair]) .wrap hs
  have miss : Stores R (Act.wrap SEC_CACHE_MISS) := within (R := .events deriveRegs [.sec, .pair]) .wrap hs
  have derive : Stores R (Act.wrap SEC_DERIVE) := within (R := .events deriveRegs [.sec, .pair]) .wrap hs
  have cache {l : List Byte} {key : List Nat} : Stores R (Act.cachePut n l key) :=
    within (R := .events deriveRegs [.sec, .pair]) (.sub .cachePut) hs
  have step {l : List Byte} {k : List Nat → Act} (hk : ∀ w, Stores R (k w)) :
      Stores R (Act.deriveFromSlot n l bad k) :=
    read fun _ => ite hbad <| ite hbad <| fetchSlot hbad (fun _ => all ⟨derive, cache, hk _⟩) (Reach.sub_trans hs)
  refine read fun _ => ite hbad ?_
  split
  · exact seq hit (hk _)
  · refine seq miss <| ite (read fun _ => ?_) (step hk)
    split
    · exact seq hit <| all ⟨derive, cache, hk _⟩
    · exact seq miss <| step fun _ => all ⟨derive, cache, hk _⟩

theorem takeCtr {key : FrameKey} {refuse : Act} {k : Nat → Act} (hrefuse : Stores R refuse) (hk : ∀ w, Stores R (k w))
    (hs : (Reach.events [(SEC_STATUS, 1)] [.sec]).sub R = true := by decide +kernel) :
    Stores R (Act.takeCtr key refuse k) := by
  refine read fun _ => ?_
  split
  · exact seq (within (R := .events [(SEC_STATUS, 1)] [.sec]) .raiseOnce hs) hrefuse
  · exact seq (within (R := .events [(SEC_STATUS, 1)] [.sec]) (.when <| .seq .raise <| .sub .requestRoll) hs) (hk _)

theorem storeCtr {key : FrameKey} {c : Nat} :
    Stores (.quiet [(SEC_TXCTR_JOIN, 1), (SEC_TXCTR_BCAST, 1)] [.pair]) (Act.storeCtr key c) := by
  cases key with
  | link nsa => exact sub recUpdate
  | e2e nsa => exact sub recUpdate
  | join eui => exact reg
  | bcast => exact reg
  | mesh => exact nop

theorem sealOne {key : FrameKey} {make : List Nat → Nat → Nat → List Byte} {refuse : Act} {next : List Byte → Act}
    (hrefuse : Stores R refuse) (hnext : ∀ bs, Stores R (next bs))
    (hs : (Reach.events sealRegs [.sec, .pair]).sub R = true := by decide +kernel) :
    Stores R (Act.sealOne key make refuse next) := by
  have invalid : Stores R (Act.sat SEC_INVALID_KEY) := within (R := .events sealRegs [.sec, .pair]) .sat hs
  have ops : Stores R (Act.wrap SEC_CCM_OPS) := within (R := .events sealRegs [.sec, .pair]) .wrap hs
  have counter {c : Nat} : Stores (.events sealRegs [.sec, .pair]) (Act.storeCtr key c) := sub storeCtr
  exact takeCtr hrefuse (fun _ => read fun _ => derived (seq invalid hrefuse)
    (fun _ => all ⟨ops, sub counter hs, hnext _⟩) (Reach.sub_trans hs)) (Reach.sub_trans hs)

/-- R105: a frame is sealed end to end and at the link. -/
theorem sealFrame {link : FrameKey} {f : List Byte} {refuse : Act} {next : List Byte → Act}
    (hrefuse : Stores R refuse) (hnext : ∀ bs, Stores R (next bs))
    (hs : (Reach.events sealRegs [.sec, .pair]).sub R = true := by decide +kernel) :
    Stores R (Act.sealFrame link f refuse next) := by
  have inner {g : List Byte} : Stores R
      (if (parseMac f).e2e then
        Act.sealOne (.e2e (parseMac f).final) (fun key ep c => e2eSeal key ep c g) refuse
          (fun g => Act.sealOne link (fun key ep c => linkSeal key ep c g) refuse next)
      else Act.sealOne link (fun key ep c => linkSeal key ep c g) refuse next) :=
    ite (sealOne hrefuse (fun _ => sealOne hrefuse hnext hs) hs) (sealOne hrefuse hnext hs)
  exact read fun _ => ite (derived hrefuse (fun _ => derived hrefuse (fun _ => inner) (Reach.sub_trans hs))
    (Reach.sub_trans hs)) inner

end Act.Stores

end Sys2Proof.Machine

namespace Sys2Proof.Machine

set_option Elab.async false

open Sys2Proof Sys2Proof.Reg

/-- Where the forwarding tables show what is learned (R260, R263, R282). -/
def learnRegs : List (Nat × Nat) :=
  [(FWD_TBLn_HIT 0, 4), (FWD_TBLn_LEARN 0, 4), (FWD_TBLn_NOSPACE 0, 4), (FWD_TBLn_EVICT 0, 4), (FWD_TBLn_COUNT 0, 4),
    (FWD_STATUS, 1)]

/-- Where a policer shows the colours it gives (R334). -/
def policeRegs : List (Nat × Nat) := [(SCH_POLk_GREEN 0, 16), (SCH_POLk_YELLOW 0, 16), (SCH_POLk_RED 0, 16)]

/-- Where a packet offered to an uplink class shows (R304, R334, R335). -/
def offerRegs : List (Nat × Nat) := policeRegs ++ [(SCH_POLk_YDROP 0, 16)] ++ enqueueRegs

/-- Where an accepted frame shows: POLLs, JOIN requests and REPORTs (R225, R228, R233). -/
def passedRegs : List (Nat × Nat) :=
  [(MAC_STATUS, 1), (MAC_POLLS, 1), (MAC_POLL_OUTSIDE, 1), (MAC_JOIN_REQ, 1), (MAC_REPORTS, 1), (MAC_BRIDLE_EVT, 1),
    (MAC_BRIDLE_EVICT, 1)]

namespace Act.Stores

open Reach (has_array)

variable {R : Reach}

/-! #### Tables and pending lists -/

theorem tableUpdate {n key : Nat} {f : Entry → Entry} : Stores (.quiet [] [.fwd]) (Act.tableUpdate n key f) := by
  refine read fun _ => ?_
  split
  · exact nop
  · exact within .entry

theorem tableInsert {n : Nat} {e : Entry} {k : Nat → Nat → Nat → Entry → Act} (hk : ∀ w x y z, Stores R (k w x y z))
    (hs : (Reach.events learnRegs [.fwd]).sub R = true := by decide +kernel) :
    Stores R (Act.tableInsert n e k) := by
  have put {slot : Nat} : Stores R (.seq (Act.entry n slot e) (Act.tableCount n)) :=
    seq (within (R := .events learnRegs [.fwd]) (.sub .entry) hs) <|
      within (R := .events learnRegs [.fwd]) (.sub .tableCount) hs
  have noSpace : Stores R (Act.sat (FWD_TBLn_NOSPACE n)) :=
    within (R := .events learnRegs [.fwd]) (.sat has_array) hs
  have evict : Stores R (Act.sat (FWD_TBLn_EVICT n)) := within (R := .events learnRegs [.fwd]) (.sat has_array) hs
  have told {v : Nat} : Stores R (Act.raiseOnce 48 n (leBytes 1 v)) := raiseOnce (Reach.sub_trans hs)
  have lfsr {f : Fwd → Store Nat} : Stores R (Act.fwd fun x => { x with lfsr := f x }) :=
    within (R := .events learnRegs [.fwd]) .units hs
  refine read fun _ => ?_
  dsimp only
  split
  · exact seq put (hk _ _ _ _)
  · split
    · exact seq put (hk _ _ _ _)
    · split
      · exact all ⟨noSpace, told, hk _ _ _ _⟩
      · exact all ⟨when lfsr, evict, put, hk _ _ _ _⟩

theorem pendChain {l : List Nat} : Stores (.quiet [] []) (Act.pendChain l) := by
  induction l with
  | nil => exact nop
  | cons a l ih =>
    cases l with
    | nil => exact memBytes
    | cons b l => exact seq memBytes ih

/-- R219: a child's pending list becomes another. -/
theorem pendLink {nsa : Nat} {l : List Nat} : Stores (.quiet [] [.fwd, .pair]) (Act.pendLink nsa l) :=
  all ⟨sub pendChain, sub recUpdate, seq (sub tableUpdate) (sub tableUpdate)⟩

theorem pendRemove {nsa : Nat} {gone : List Nat} : Stores (.quiet [] [.fwd, .mac, .pair]) (Act.pendRemove nsa gone) :=
  read fun _ => when <| seq (sub pendLink) <| read fun _ => units

/-- R209, R219: a frame that is done with leaves its queue or its pending list. -/
theorem entryDone {e : PlanEntry} :
    Stores (.events releaseRegs [.env, .fwd, .eth, .sch, .mac, .pair]) (Act.entryDone e) := by
  rw [Act.entryDone]
  split
  · exact sub airRelease
  · exact seq units (sub pendRemove)

theorem attemptFailed {e : PlanEntry} {draw t : Nat} :
    Stores (.events ((MAC_RETRY_EXH, 1) :: releaseRegs) [.env, .fwd, .eth, .sch, .mac, .img, .pair])
      (Act.attemptFailed e draw t) := by
  refine read fun _ => ?_
  dsimp only
  split
  · refine seq ?_ (seq units (within .entryBack))
    split
    · exact memBytes
    · exact sub queue
  · exact all ⟨sub entryDone, sub campDone, sat, raise⟩

/-! #### Messages to the headends -/

theorem police {k a pre : Nat} {next : Nat → Act} (hnext : ∀ c, Stores R (next c))
    (hs : (Reach.quiet policeRegs [.sch, .pair]).sub R = true := by decide +kernel) :
    Stores R (Act.police k a pre next) := by
  have record : Stores R (Act.recordInput 0x0B) := within (R := .quiet policeRegs [.sch, .pair]) (.sub .recordInput) hs
  have colours {f : Pair → List (Nat × Nat)} : Stores R (Act.pair fun p => { p with colours := f p }) :=
    within (R := .quiet policeRegs [.sch, .pair]) .units hs
  have tokens {f g : Sch → Store Nat} : Stores R (Act.sch fun x => { x with tc := f x, tp := g x }) :=
    within (R := .quiet policeRegs [.sch, .pair]) .units hs
  have green : Stores R (Act.wrap (SCH_POLk_GREEN k)) :=
    within (R := .quiet policeRegs [.sch, .pair]) (.wrap has_array) hs
  have yellow : Stores R (Act.wrap (SCH_POLk_YELLOW k)) :=
    within (R := .quiet policeRegs [.sch, .pair]) (.wrap has_array) hs
  have red : Stores R (Act.sat (SCH_POLk_RED k)) := within (R := .quiet policeRegs [.sch, .pair]) (.sat has_array) hs
  exact read fun _ => ite (hnext _) <| all ⟨record, when colours, tokens, ite green (ite yellow red), hnext _⟩

/-- R276, R304: a PLE message is offered to an uplink class. -/
theorem pleSend {h c beat pre : Nat} {m : Ple} {k : Bool → Act} (hk : ∀ ok, Stores R (k ok))
    (hs : (Reach.events offerRegs [.env, .eth, .sch, .pair]).sub R = true := by decide +kernel) :
    Stores R (Act.pleSend h c beat pre m k) := by
  have drop {k : Nat} : Stores R (Act.sat (SCH_POLk_YDROP k)) :=
    within (R := .events offerRegs [.env, .eth, .sch, .pair]) (.sat has_array) hs
  have stamped {p : Nat} : Stores R (Act.stamp false p c) :=
    within (R := .events offerRegs [.env, .eth, .sch, .pair]) (.sub .stamp) hs
  refine read fun _ => read fun _ => ?_
  split
  · exact hk _
  · exact police (fun _ => read fun _ => ite (hk _) <| ite (seq drop (hk _)) <|
      enqPacket (fun _ => seq stamped (hk _)) (Reach.sub_trans hs)) (Reach.sub_trans hs)

theorem downAnswer {h cls pre st : Nat} {m : List Byte} :
    Stores (.events ([(FWD_DL_IN, 1), (FWD_DL_REFUSED, 1)] ++ offerRegs) [.env, .fwd, .eth, .sch, .pair])
      (Act.downAnswer h cls pre m st) :=
  read fun _ => all ⟨ite wrap <| all ⟨sat, units, read fun _ => raiseOnce⟩, when <| pleSend fun _ => nop⟩

/-! #### Received frames -/

/-- R206, R207: an ACK is armed, or dropped. -/
theorem ackArm {f : MacFrame} {p : MacParts} {t : Nat} :
    Stores (.events ((MAC_ACK_DROP, 1) :: chainRegs ++ ports RFx_TX_CAL) [.rf, .mac, .pair]) (Act.ackArm f p t) := by
  refine read fun _ => ite nop <| ite (within .ackDropped) ?_
  split
  · exact within .ackDropped
  · exact seq units <| when <| within .txCalStart

theorem pollAccepted {f : MacFrame} {p : MacParts} {body : List Byte} :
    Stores (.events passedRegs [.mac, .pair]) (Act.pollAccepted f p body) :=
  read fun _ => all ⟨wrap, when <| seq sat <| when raise, sub recUpdate, when <| ite units units⟩

theorem reportOffer {f : MacFrame} {reporter : Nat} {body : List Byte} :
    Stores (.events passedRegs [.mac, .img]) (Act.reportOffer f reporter body) := by
  refine read fun _ => seq wrap <| ite units <| ite (within .reportEvent) <| ite units <| all ⟨when ?_, units,
    within .bridleFollow⟩
  split
  · exact nop
  · exact seq sat (within .bridleEnd)

/-- R211: a frame that has passed every check is taken up. -/
theorem macPassed {f : MacFrame} {p : MacParts} {clear : List Byte} :
    Stores (.events passedRegs [.mac, .img, .pair]) (Act.macPassed f p clear) :=
  read fun _ => all ⟨when <| sub recUpdate, units, ite (sub pollAccepted) <| ite (sub reportOffer) <|
    ite (when <| seq wrap units) nop⟩

theorem afterLink {f : MacFrame} {p : MacParts} {body : List Byte} :
    Stores (.events passedRegs [.mac, .img, .pair]) (Act.afterLink f p body) := ite units macPassed

end Act.Stores

/-! ### What programs leave of the MAC unit -/

/-- The MAC unit's state has a property. -/
def State.MacHas (Q : Mac → Prop) (s : State) : Prop := Q s.u.mac

theorem State.MacHas.run {Q : Mac → Prop} {s : State} {a : Act} (h : State.MacHas Q s)
    (ha : Act.Keeps (State.MacHas Q) a) : State.MacHas Q (a.run s) := ha s h

theorem Act.Stores.mac {R : Reach} {a : Act} (h : Act.Stores R a) (hmac : .mac ∉ R.units := by decide) (s : State) :
    (a.run s).u.mac = s.u.mac := ((h s).units .mac hmac).symm

theorem Act.Stores.reg_eq {R : Reach} {a : Act} {x : Nat} (h : Act.Stores R a) (hx : R.has x = false) (s : State) :
    (a.run s).reg x = s.reg x := (h s).reg x hx

/-- What the end of a frame the device sends does not touch (R209, R219): the property holds whatever the drawn backoffs
and the pending buffers in use are. -/
structure Mac.Lasting (Q : Mac → Prop) : Prop where
  deferred : ∀ (x : Mac) (l : List Deferred), Q x → Q { x with deferred := l }
  poolUsed : ∀ (x : Mac) (l : List Nat), Q x → Q { x with poolUsed := l }

theorem Mac.lasting_frames {P : List MacFrame → Prop} : Mac.Lasting fun m => P m.frames :=
  ⟨fun _ _ h => h, fun _ _ h => h⟩

theorem Mac.lasting_waits {P : List AckWait → Prop} : Mac.Lasting fun m => P m.waits :=
  ⟨fun _ _ h => h, fun _ _ h => h⟩

theorem Mac.lasting_beacons {P : List BeaconQ → Prop} : Mac.Lasting fun m => P m.beacons :=
  ⟨fun _ _ h => h, fun _ _ h => h⟩

namespace Act.Keeps

variable {Q : Mac → Prop}

/-- A program that stores within a reach leaves the MAC unit, where it does not reach it. -/
theorem macBeside {R : Reach} {a : Act} (h : Act.Stores R a) (hmac : .mac ∉ R.units := by decide) :
    Keeps (State.MacHas Q) a := fun s hs => by rwa [State.MacHas, h.mac hmac]

theorem macWithin {R : Reach} {a : Act} (h : Act.Within R a) (hmac : .mac ∉ R.units := by decide) :
    Keeps (State.MacHas Q) a := fun s hs => by rwa [State.MacHas, ← (h.fits s).units .mac hmac]

theorem macUpdate {f : Mac → Mac} (h : ∀ x, Q x → Q (f x)) : Keeps (State.MacHas Q) (Act.mac f) := fun _ hs => h _ hs

theorem macSetB {f : Field} {b : Bool} : Keeps (State.MacHas Q) (Act.setB f b) := fun s hs => by
  rwa [State.MacHas, Act.setB, Act.setF_u]

theorem macWrap {a : Nat} : Keeps (State.MacHas Q) (Act.wrap a) := fun s hs => by
  rwa [State.MacHas, Act.wrap, Act.wrapBy_u]

theorem macSat {a : Nat} : Keeps (State.MacHas Q) (Act.sat a) := fun s hs => by
  rwa [State.MacHas, Act.sat, Act.satBy_u]

theorem macRaise {src : Nat} {record : List Byte} : Keeps (State.MacHas Q) (Act.raise src record) :=
  macBeside (R := .events [] []) .raise

theorem macRaiseOnce {src key : Nat} {record : List Byte} : Keeps (State.MacHas Q) (Act.raiseOnce src key record) :=
  macBeside (R := .events [] []) .raiseOnce

/-- A program keeps a register that its stores leave alone. -/
theorem regStores {R : Reach} {a : Act} {x : Nat} {w : Word} (h : Act.Stores R a)
    (hx : R.has x = false := by decide +kernel) : Keeps (State.RegIs x w) a := fun s hs => (h.reg_eq hx s).trans hs

section

variable (hQ : Mac.Lasting Q)
include hQ

theorem macAirRelease {p : RfPort} {q start : Nat} : Keeps (State.MacHas Q) (Act.airRelease p q start) :=
  read fun _ => by
    split
    · exact macBeside .releasePacket
    · exact all ⟨macWithin .flow, macUpdate fun _ => hQ.deferred _ _, macBeside .airDrain⟩

theorem macPendRemove {nsa : Nat} {gone : List Nat} : Keeps (State.MacHas Q) (Act.pendRemove nsa gone) :=
  read fun _ => when <| seq (macBeside .pendLink) <| read fun _ => macUpdate fun _ => hQ.poolUsed _ _

theorem macEntryDone {e : PlanEntry} : Keeps (State.MacHas Q) (Act.entryDone e) := by
  rw [Act.entryDone]
  split
  · exact macAirRelease hQ
  · exact seq (macUpdate fun _ => hQ.deferred _ _) (macPendRemove hQ)

theorem macAttemptFailed {e : PlanEntry} {draw t : Nat} : Keeps (State.MacHas Q) (Act.attemptFailed e draw t) :=
  read fun _ => by
    dsimp only
    split
    · refine seq ?_ (seq (macUpdate fun _ => hQ.deferred _ _) (macWithin .entryBack))
      split
      · exact macBeside (R := .quiet [] []) .memBytes
      · exact macBeside .queue
    · exact all ⟨macEntryDone hQ, macBeside .campDone, macSat, macRaise⟩

end

end Act.Keeps

end Sys2Proof.Machine

namespace Sys2Proof.Machine

set_option Elab.async false

open Sys2Proof Sys2Proof.Reg

/-! ### What a record is read from -/

/-- A record's field is read from the Envelope, where the Directory stands (R245). -/
theorem State.node_congr {s t : State} (hmem : t.mem = s.mem) (hdir : t.reg FWD_DIR_BASE = s.reg FWD_DIR_BASE)
    (nsa : Nat) (f : RecField) : t.node nsa f = s.node nsa f := by
  rw [State.node, State.le, State.recAddr, State.dirBase, State.fld, hdir, State.bytes_congr hmem]
  rfl

theorem State.recValid_congr {s t : State} (hmem : t.mem = s.mem) (hdir : t.reg FWD_DIR_BASE = s.reg FWD_DIR_BASE)
    (henv : t.u.env = s.u.env) (nsa : Nat) : t.recValid nsa = s.recValid nsa := by
  simp only [State.recValid, State.recState, State.node_congr hmem hdir, henv]

/-! ### A received frame's checks (R211–R217) -/

/-- No frame of the MAC unit carries a number. -/
def Mac.Lacks (id : Nat) (m : Mac) : Prop := ∀ g ∈ m.frames, g.id ≠ id

theorem Mac.lasting_lacks {id : Nat} : Mac.Lasting (Mac.Lacks id) :=
  Mac.lasting_frames (P := fun l => ∀ g ∈ l, g.id ≠ id)

theorem mem_insertFrame (f : MacFrame) (l : List MacFrame) : f ∈ insertFrame f l := by
  induction l with
  | nil => exact List.mem_cons_self
  | cons g l ih =>
    rw [insertFrame]
    split
    · exact List.mem_cons_self
    · exact List.mem_cons_of_mem _ ih

section

variable {s : State} {index : Fin 256} {f : MacFrame}

theorem Act.lacks_macGone (id : Nat) (s : State) : State.MacHas (Mac.Lacks id) ((Act.macGone id).run s) :=
  fun g hg => by
    simpa using (List.mem_filter.1 hg).2

/-- R217: a frame that is dropped leaves the MAC unit. -/
theorem Act.lacks_macDrop (id r : Nat) (s : State) : State.MacHas (Mac.Lacks id) ((Act.macDrop id r).run s) :=
  Act.lacks_macGone id _

/-- R217: a drop counts under its reason. -/
theorem Act.regIs_macDrop {r : Nat} {w : Word} (h : State.RegIs (MAC_DROPr r) w s) (id : Nat) :
    State.RegIs (MAC_DROPr r) (satNext w) ((Act.macDrop id r).run s) := by
  rw [← h]
  exact Act.reg_sat fixedReg_array s

/-- R211: the oldest descriptor is taken in; its FCS and structure are checked. -/
theorem completes_macFrameReceived {d : RxDesc} {rest : List RxDesc} (hd : s.u.rx.handoff = d :: rest) :
    Completes .macFrameReceived s fun t =>
      t.u.rx.handoff = rest ∧ (d.status ≠ rxOk → t.u.mac.frames = s.u.mac.frames) ∧
      (d.status = rxOk → fcsOk (descramble d.bits) = false → t.reg (MAC_DROPr 0) = satNext (s.reg (MAC_DROPr 0))) ∧
      (d.status = rxOk → fcsOk (descramble d.bits) = true →
        s.structureDrop (descramble d.bits) (parseMac (descramble d.bits)) d.frame.beacon = none →
        ∃ g ∈ t.u.mac.frames, g.id = d.frame.id ∧ g.bytes = descramble d.bits) := by
  refine ⟨_, rfl, ?_⟩
  simp only [hd]
  rw [Act.run_seq]
  refine ⟨?_, fun hbad => ?_, fun hok hfcs => ?_, fun hok hfcs hdrop => ?_⟩
  · change State.RxHas (fun x => x.handoff = rest) _
    refine State.RxHas.run rfl (.when <| .ite .rxSat ?_)
    split
    · exact .rxSat
    · exact .rxBeside (R := .quiet [] [.mac]) .units
  · rw [Act.run_when, if_neg (by simpa using hbad)]
    rfl
  · rw [Act.run_when, if_pos (by simpa using hok), hfcs]
    exact Act.reg_sat fixedReg_array _
  · rw [Act.run_when, if_pos (by simpa using hok), hfcs, hdrop]
    exact ⟨_, mem_insertFrame _ _, rfl, rfl⟩

/-- R246, R290: a source without a record, or whose record reads wrong, drops the frame. -/
theorem completes_macRecordFetched_missing (hf : s.macFrame index = some f) (hstage : f.stage = .record)
    (hblocked : s.macBlocked index = false) (htyp : (parseMac f.bytes).typ ≠ 4) {bad : Bool}
    (hbad : bad = true ∨ s.recValid (parseMac f.bytes).src = false) :
    Completes (.macRecordFetched index bad) s fun t =>
      (∀ g ∈ t.u.mac.frames, g.id ≠ f.id) ∧ t.reg (MAC_DROPr 9) = satNext (s.reg (MAC_DROPr 9)) ∧
      (bad = true → t.reg ENV_ECC_UNC = satNext (s.reg ENV_ECC_UNC)) := by
  refine ⟨_, rfl, ?_⟩
  have hdrop : (!((parseMac f.bytes).typ == 4) && (bad || !s.recValid (parseMac f.bytes).src)) = true := by
    simpa [htyp] using hbad
  simp only [hf, hstage, hblocked, hdrop, Act.run_when, decide_true, Bool.not_false, Bool.and_self, if_true]
  rw [Act.run_seq]
  refine ⟨Act.lacks_macDrop _ _ _, ?_, fun hb => ?_⟩
  · exact Act.regIs_macDrop (State.RegIs.run rfl (.when <| .reg .demandFail (by decide +kernel))) _
  · rw [hb, Act.run_when, if_pos rfl, Act.demandFail, Act.run_read, Act.run_all_cons]
    have hcount : State.RegIs ENV_ECC_UNC (satNext (s.reg ENV_ECC_UNC)) ((Act.sat ENV_ECC_UNC).run s) :=
      Act.reg_sat rfl s
    refine State.RegIs.run (State.RegIs.run hcount (.all ⟨?_, ?_, ?_, .when .regUnits⟩)) (.reg .macDrop rfl)
    · exact .reg (R := .events [] []) .raise rfl
    · exact .reg .healthFault rfl
    · exact .reg .recordInput rfl

/-- R211: a frame whose source has a record, and whose counter is not stale, goes on to its key. -/
theorem completes_macRecordFetched (hf : s.macFrame index = some f) (hstage : f.stage = .record)
    (hblocked : s.macBlocked index = false) (hvalid : s.recValid (parseMac f.bytes).src = true)
    (hfresh : s.linkOutcome f.bytes (parseMac f.bytes) ≠ 3) :
    Completes (.macRecordFetched index false) s fun t =>
      t.u.mac.frames = s.u.mac.frames.map (fun g => if g.id = f.id then { g with stage := .key } else g) := by
  refine ⟨_, rfl, ?_⟩
  simp only [hf, hstage, hblocked, hvalid, hfresh, Act.run_when, decide_true, Bool.not_false, Bool.not_true,
    Bool.or_self, Bool.and_false, Bool.and_self, Bool.false_eq_true, if_false, if_true]
  rfl

/-- R369, R376: an empty slot gives no key. -/
theorem completes_macLinkKeyReady_empty (hf : s.macFrame index = some f) (hstage : f.stage = .key)
    (hblocked : s.macBlocked index = false)
    (hempty : (s.slot (s.frameLabel (parseMac f.bytes).key false (parseMac f.bytes).epoch).1).state = .empty) :
    Completes (.macLinkKeyReady index) s fun t =>
      (∀ g ∈ t.u.mac.frames, g.id ≠ f.id) ∧ t.reg (MAC_DROPr 10) = satNext (s.reg (MAC_DROPr 10)) ∧
      t.reg SEC_INVALID_KEY = satNext (s.reg SEC_INVALID_KEY) := by
  refine ⟨_, rfl, ?_⟩
  simp only [hf, hstage, hblocked, Act.derived, hempty, Act.run_when, Act.run_read, decide_true, reduceCtorEq,
    decide_false, Bool.not_false, Bool.and_self, if_true]
  rw [Act.run_seq]
  refine ⟨Act.lacks_macDrop _ _ _, ?_, ?_⟩
  · exact Act.regIs_macDrop (State.RegIs.run rfl (.reg (R := .quiet [(SEC_INVALID_KEY, 1)] []) .sat rfl)) _
  · exact State.RegIs.run (Act.reg_sat rfl s) (.reg .macDrop rfl)

/-- A key that the cache holds is there at once (R371). -/
theorem Act.run_derived_cached {n : Nat} {l : List Byte} {key : List Nat} (hvalid : (s.slot n).state = .valid)
    (hcached : s.cached n l = some key) (bad : Act) (k : List Nat → Act) :
    (Act.derived n l bad k).run s = (k key).run ((Act.wrap SEC_CACHE_HIT).run s) := by
  simp [Act.derived, hvalid, hcached]

/-- R371: a link key from the cache, and the frame goes on to its MIC. -/
theorem completes_macLinkKeyReady_cached {key : List Nat} (hf : s.macFrame index = some f) (hstage : f.stage = .key)
    (hblocked : s.macBlocked index = false)
    (hvalid : (s.slot (s.frameLabel (parseMac f.bytes).key false (parseMac f.bytes).epoch).1).state = .valid)
    (hcached : s.cached (s.frameLabel (parseMac f.bytes).key false (parseMac f.bytes).epoch).1
      (s.frameLabel (parseMac f.bytes).key false (parseMac f.bytes).epoch).2 = some key) :
    Completes (.macLinkKeyReady index) s fun t =>
      t.u.mac.frames = s.u.mac.frames.map (fun g => if g.id = f.id then { g with stage := .mic, key := key } else g) ∧
      t.reg SEC_CACHE_HIT = s.reg SEC_CACHE_HIT + 1 := by
  refine ⟨_, rfl, ?_⟩
  simp only [hf, hstage, hblocked, Act.run_when, decide_true, Bool.not_false, Bool.and_self, if_true]
  rw [Act.run_derived_cached hvalid hcached]
  exact ⟨rfl, State.RegIs.run (Act.regIs_wrap rfl rfl) (.reg .macSet rfl)⟩

/-- R211: a failing link MIC drops the frame. -/
theorem completes_macLinkMicDone_bad (hf : s.macFrame index = some f) (hstage : f.stage = .mic)
    (hblocked : s.macBlocked index = false) (hlate : s.lateHere f false = false)
    (hopen : linkOpen f.key f.bytes (parseMac f.bytes) = none) (off : Fin 1000000) :
    Completes (.macLinkMicDone index off) s fun t =>
      (∀ g ∈ t.u.mac.frames, g.id ≠ f.id) ∧ t.reg (MAC_DROPr 11) = satNext (s.reg (MAC_DROPr 11)) ∧
      t.reg SEC_MIC_FAIL = satNext (s.reg SEC_MIC_FAIL) ∧ t.reg SEC_CCM_OPS = s.reg SEC_CCM_OPS + 1 := by
  refine ⟨_, rfl, ?_⟩
  simp only [hf, hstage, hblocked, hlate, hopen, Act.run_when, decide_true, Bool.not_false, Bool.and_self, if_true]
  rw [Act.run_seq, Act.run_seq]
  have hops : Act.Within (.quiet [(SEC_CCM_OPS, 1)] []) (Act.wrap SEC_CCM_OPS) := .wrap
  have hfail : Act.Within (.quiet [(SEC_MIC_FAIL, 1)] []) (Act.sat SEC_MIC_FAIL) := .sat
  refine ⟨Act.lacks_macDrop _ _ _, ?_, ?_, ?_⟩
  · exact Act.regIs_macDrop (State.RegIs.run (State.RegIs.run rfl (.reg hops rfl)) (.reg hfail rfl)) _
  · refine State.RegIs.run ?_ (.reg .macDrop rfl)
    rw [← (hops.fits s).reg SEC_MIC_FAIL rfl]
    exact Act.reg_sat rfl _
  · exact State.RegIs.run (State.RegIs.run (Act.regIs_wrap rfl rfl) (.reg hfail rfl)) (.reg .macDrop rfl)

/-- R212–R214: a good link MIC, and the outcome its counter has. -/
theorem completes_macLinkMicDone {body : List Byte} (hf : s.macFrame index = some f) (hstage : f.stage = .mic)
    (hblocked : s.macBlocked index = false) (hlate : s.lateHere f false = false)
    (hopen : linkOpen f.key f.bytes (parseMac f.bytes) = some body)
    (hvalid : s.recValid (parseMac f.bytes).src = true) (hdirect : (parseMac f.bytes).directJoin = false)
    (off : Fin 1000000) :
    Completes (.macLinkMicDone index off) s fun t =>
      (s.linkOutcome f.bytes (parseMac f.bytes) = 0 → t.reg MAC_RX_OK = s.reg MAC_RX_OK + 1) ∧
      (s.linkOutcome f.bytes (parseMac f.bytes) = 1 →
        t.reg MAC_DUP = s.reg MAC_DUP + 1 ∧ (∀ g ∈ t.u.mac.frames, g.id ≠ f.id)) ∧
      (s.linkOutcome f.bytes (parseMac f.bytes) = 2 →
        t.reg (MAC_DROPr 13) = satNext (s.reg (MAC_DROPr 13)) ∧ (∀ g ∈ t.u.mac.frames, g.id ≠ f.id)) ∧
      (s.linkOutcome f.bytes (parseMac f.bytes) = 3 →
        t.reg (MAC_DROPr 12) = satNext (s.reg (MAC_DROPr 12)) ∧ (∀ g ∈ t.u.mac.frames, g.id ≠ f.id)) := by
  refine ⟨_, rfl, ?_⟩
  simp only [hf, hstage, hblocked, hlate, hopen, Act.run_when, decide_true, Bool.not_false, Bool.and_self, if_true]
  rw [Act.run_seq]
  have hops : Act.Within (.quiet [(SEC_CCM_OPS, 1)] []) (Act.wrap SEC_CCM_OPS) := .wrap
  obtain ⟨q, hq⟩ : ∃ q, (Act.wrap SEC_CCM_OPS).run s = q := ⟨_, rfl⟩
  have hreg {x : Nat} (hx : (Reach.quiet [(SEC_CCM_OPS, 1)] []).has x = false := by rfl) :
      State.RegIs x (s.reg x) q := hq ▸ (hops.fits s).reg x hx
  have hvalidq : q.recValid (parseMac f.bytes).src = true := by
    rw [State.recValid_congr (t := q) (s := s) (hq ▸ hops.mem rfl s) hreg
      (hq ▸ ((hops.fits s).units .env (by decide)).symm), hvalid]
  rw [hq]
  refine ⟨fun hnew => ?_, fun hdup => ?_, fun hreplay => ?_, fun hstale => ?_⟩
  · simp only [hnew, Act.linkNew, Act.run_read, hdirect, hvalidq, Bool.not_true, Bool.false_eq_true, if_false]
    rw [Act.run_seq, Act.run_seq]
    refine State.RegIs.run (Act.regIs_wrap (State.RegIs.run hreg (.regStores .recUpdate)) rfl) ?_
    exact .seq (.when <| .regStores .ackArm) (.regStores .afterLink)
  · simp only [hdup]
    rw [Act.run_all_cons, Act.run_all_cons]
    refine ⟨State.RegIs.run (State.RegIs.run (Act.regIs_wrap (hreg (x := MAC_DUP)) rfl) (.when <| .regStores .ackArm))
      (.all (l := [Act.macGone f.id]) (.reg .macGone rfl)), Act.lacks_macGone _ _⟩
  · simp only [hreplay]
    rw [Act.run_seq]
    exact ⟨State.RegIs.run (Act.regIs_macDrop hreg _) (.reg (R := .events [] []) .raise rfl),
      State.MacHas.run (Act.lacks_macDrop _ _ _) .macRaise⟩
  · simp only [hstale]
    exact ⟨Act.regIs_macDrop hreg _, Act.lacks_macDrop _ _ _⟩

/-- R246: a frame whose origin has no record is dropped at its end-to-end check. -/
theorem completes_macE2eCheckDone_missing (hf : s.macFrame index = some f) (hstage : f.stage = .e2e)
    (hblocked : s.macBlocked index = false) (hlate : s.lateHere f true = false)
    (hmissing : s.recValid (parseMac f.bytes).origin = false) :
    Completes (.macE2eCheckDone index false) s fun t =>
      (∀ g ∈ t.u.mac.frames, g.id ≠ f.id) ∧ t.reg (MAC_DROPr 9) = satNext (s.reg (MAC_DROPr 9)) := by
  refine ⟨_, rfl, ?_⟩
  simp only [hf, hstage, hblocked, hlate, hmissing, Act.run_when, decide_true, Bool.not_false, Bool.and_self, if_true,
    Bool.false_eq_true, if_false]
  exact ⟨Act.lacks_macDrop _ _ _, Act.regIs_macDrop rfl _⟩

/-- A frame of the MAC unit has passed its checks (R211). -/
def Mac.Accepted (id : Nat) (clear : List Byte) (m : Mac) : Prop :=
  ∃ g ∈ m.frames, g.id = id ∧ g.stage = .deliver ∧ g.clear = clear ∧ g.accepted = true

/-- R211, R225, R228, R233: an accepted frame stands in the MAC unit until it is delivered. -/
theorem Act.accepted_macPassed {clear : List Byte} (hmem : f ∈ s.u.mac.frames) (p : MacParts) :
    State.MacHas (Mac.Accepted f.id clear) ((Act.macPassed f p clear).run s) := by
  rw [Act.macPassed, Act.run_read, Act.run_all_cons, Act.run_all_cons]
  have hheard : State.MacHas (fun m => f ∈ m.frames) ((Act.when (!p.directJoin)
      (Act.recUpdate p.src (heardFields s f p.src (s.node p.src Node.STATE)))).run s) :=
    State.MacHas.run hmem (.when <| .macBeside .recUpdate)
  refine State.MacHas.run ⟨_, List.mem_map.2 ⟨f, hheard, rfl⟩, ?_⟩ (.all (l := [_]) (.ite ?_ <| .ite ?_ <|
    .ite (.when <| .seq .macWrap (.macUpdate fun _ h => h)) .nop))
  · simp
  · exact .read fun _ => .all ⟨.macWrap, .when <| .seq .macSat <| .when .macRaise, .macBeside .recUpdate,
      .when <| .ite (.macUpdate fun _ h => h) (.macUpdate fun _ h => h)⟩
  · have hend {b : MacBridle} {early : Bool} : Act.Keeps (State.MacHas (Mac.Accepted f.id clear))
        (Act.bridleEnd b early) :=
      .all ⟨.macUpdate fun _ h => h, .macWithin .reportEvent, .macWithin .bridleFollow⟩
    refine .read fun _ => .seq .macWrap <| .ite (.macWithin (R := .quiet [] [.img]) .units) <|
      .ite (.macWithin .reportEvent) <| .ite (.macUpdate fun _ h => h) <| .all ⟨.when ?_, .macUpdate fun _ h => h,
        .macWithin .bridleFollow⟩
    split
    · exact .nop
    · exact .seq .macSat hend

/-- R215: with no frame of its origin seen, a good end-to-end MIC accepts the frame. -/
theorem completes_macE2eCheckDone {key : List Nat} {plain : List Byte} (hf : s.macFrame index = some f)
    (hstage : f.stage = .e2e) (hblocked : s.macBlocked index = false) (hlate : s.lateHere f true = false)
    (hvalid : s.recValid (parseMac f.bytes).origin = true)
    (hslot : (s.slot (s.frameLabel (.e2e (parseMac f.bytes).origin) false
      (parseMac f.bytes).e2eEpoch).1).state = .valid)
    (hcached : s.cached (s.frameLabel (.e2e (parseMac f.bytes).origin) false (parseMac f.bytes).e2eEpoch).1
      (s.frameLabel (.e2e (parseMac f.bytes).origin) false (parseMac f.bytes).e2eEpoch).2 = some key)
    (hopen : e2eOpen key f.bytes (parseMac f.bytes) f.body = some plain)
    (hunseen : s.recFlag (parseMac f.bytes).origin 6 = false) :
    Completes (.macE2eCheckDone index false) s fun t =>
      (∃ g ∈ t.u.mac.frames, g.id = f.id ∧ g.stage = .deliver ∧ g.clear = plain ∧ g.accepted = true) ∧
      t.reg SEC_CCM_OPS = s.reg SEC_CCM_OPS + 1 := by
  refine ⟨_, rfl, ?_⟩
  simp only [hf, hstage, hblocked, hlate, hvalid, Act.run_when, decide_true, Bool.not_false, Bool.not_true,
    Bool.and_self, if_true, Bool.false_eq_true, if_false]
  rw [Act.run_derived_cached hslot hcached]
  simp only [hopen, hunseen, e2eWindow, Bool.not_false, if_true]
  rw [Act.run_seq, Act.run_seq]
  have hhit : Act.Within (.quiet [(SEC_CACHE_HIT, 1)] []) (Act.wrap SEC_CACHE_HIT) := .wrap
  constructor
  · refine Act.accepted_macPassed ?_ _
    have hmem : State.MacHas (fun m => f ∈ m.frames) s := List.mem_of_getElem? hf
    exact ((hmem.run .macWrap).run .macWrap).run (.macBeside .recUpdate)
  · have hstart : State.RegIs SEC_CCM_OPS (s.reg SEC_CCM_OPS) s := rfl
    have hcount := Act.regIs_wrap (hstart.run (.reg hhit rfl)) rfl
    exact (hcount.run (.regStores .recUpdate)).run (.regStores .macPassed)

/-- R210: an ACK that matches no waiting frame is ignored, and counted. -/
theorem exec_ackReceived_stray (hf : s.macFrame index = some f) (hstage : f.stage = .ack)
    (hstray : s.u.mac.waits.find? (s.ackMatches f) = none) :
    exec (.ackReceived index) s = .next ((Act.wrap MAC_ACK_STRAY).run ((Act.macGone f.id).run s)) := by
  change s.act _ = _
  simp only [hf, hstage, hstray, Act.when, decide_true, if_true]
  rfl

/-- R209: an ACK that answers a frame of the device ends its wait. -/
theorem completes_ackReceived_matched {x : AckWait} (hf : s.macFrame index = some f) (hstage : f.stage = .ack)
    (hmatch : s.u.mac.waits.find? (s.ackMatches f) = some x) :
    Completes (.ackReceived index) s fun t =>
      (∀ g ∈ t.u.mac.frames, g.id ≠ f.id) ∧ t.u.mac.waits = s.u.mac.waits.erase x := by
  refine ⟨_, rfl, ?_⟩
  simp only [hf, hstage, hmatch, Act.run_when, decide_true, if_true]
  rw [Act.run_seq]
  constructor
  · change State.MacHas (Mac.Lacks f.id) _
    exact State.MacHas.run (Act.lacks_macGone _ _) (.all ⟨.macUpdate fun _ h => h, .macEntryDone Mac.lasting_lacks,
      .macBeside .campDone⟩)
  · rw [Act.run_all_cons]
    change State.MacHas (fun m => m.waits = s.u.mac.waits.erase x) _
    exact State.MacHas.run rfl (.all
      ⟨.macEntryDone (Mac.lasting_waits (P := (· = s.u.mac.waits.erase x))), .macBeside .campDone⟩)

/-- R209, R210: an ACK leaves the MAC unit, matched or stray. -/
theorem completes_ackReceived (hf : s.macFrame index = some f) (hstage : f.stage = .ack) :
    Completes (.ackReceived index) s fun t =>
      (∀ g ∈ t.u.mac.frames, g.id ≠ f.id) ∧
      ((s.u.mac.waits.find? (s.ackMatches f)) = none → t.reg MAC_ACK_STRAY = s.reg MAC_ACK_STRAY + 1) ∧
      (∀ x, s.u.mac.waits.find? (s.ackMatches f) = some x → t.u.mac.waits = s.u.mac.waits.erase x) := by
  cases hfind : s.u.mac.waits.find? (s.ackMatches f) with
  | none =>
    refine ⟨_, exec_ackReceived_stray hf hstage hfind, ?_, fun _ => ?_, fun _ h => nomatch h⟩
    · exact State.MacHas.run (Act.lacks_macGone _ _) .macWrap
    · exact Act.regIs_wrap rfl rfl
  | some x =>
    obtain ⟨t, hexec, hgone, hwaits⟩ := completes_ackReceived_matched hf hstage hfind
    refine ⟨t, hexec, hgone, (nomatch ·), fun y hy => ?_⟩
    cases hy
    exact hwaits

end

/-- Settles O16: each check is the one branch that the frame's stage and the hypotheses pick; what else the branch does
leaves the frames and the counters that the clause reads. -/
theorem frameChecks : Obligations.FrameChecks := by
  unfold Obligations.FrameChecks
  refine ⟨fun _ _ _ hd => completes_macFrameReceived hd, ?_,
    fun _ _ _ hf hstage hblocked hempty => completes_macLinkKeyReady_empty hf hstage hblocked hempty,
    fun _ _ off _ hf hstage hblocked hlate hopen => completes_macLinkMicDone_bad hf hstage hblocked hlate hopen off,
    fun _ _ _ hf hstage hblocked hlate hmissing => completes_macE2eCheckDone_missing hf hstage hblocked hlate hmissing,
    ?_,
    fun _ _ _ hf hstage hblocked hvalid hfresh => completes_macRecordFetched hf hstage hblocked hvalid hfresh,
    fun _ _ _ _ hf hstage hblocked hvalid hcached =>
      completes_macLinkKeyReady_cached hf hstage hblocked hvalid hcached,
    fun _ _ off _ _ hf hstage hblocked hlate hopen hvalid hdirect =>
      completes_macLinkMicDone hf hstage hblocked hlate hopen hvalid hdirect off,
    fun _ _ _ _ _ hf hstage hblocked hlate hvalid hslot hcached hopen hunseen =>
      completes_macE2eCheckDone hf hstage hblocked hlate hvalid hslot hcached hopen hunseen,
    fun _ _ _ hf hstage => completes_ackReceived hf hstage⟩
  · intro s index f hf hstage hblocked htyp hmissing
    obtain ⟨t, hexec, hgone, hcount, -⟩ :=
      completes_macRecordFetched_missing hf hstage hblocked htyp (bad := false) (.inr hmissing)
    exact ⟨t, hexec, hgone, hcount⟩
  · intro s index f hf hstage hblocked htyp
    obtain ⟨t, hexec, hgone, hcount, hecc⟩ :=
      completes_macRecordFetched_missing hf hstage hblocked htyp (bad := true) (.inl rfl)
    exact ⟨t, hexec, hgone, hcount, hecc rfl⟩

/-- Settles O60: the frame leaves the pipeline and one counter moves on, which is all the command does. -/
theorem strayAcks : Obligations.StrayAcks := by
  unfold Obligations.StrayAcks
  intro s index f hf hstage hstray
  refine ⟨_, exec_ackReceived_stray hf hstage hstray, Act.regIs_wrap rfl rfl, fun a ha => ?_, ?_, ?_⟩
  · exact State.reg_setReg_ne _ _ ha.symm
  · exact Act.wrapBy_mem _ _ _
  · exact Act.wrapBy_u _ _ _

end Sys2Proof.Machine

namespace Sys2Proof.Machine

set_option Elab.async false

open Sys2Proof Sys2Proof.Reg

/-! ### Sealing a frame (R105, R391) -/

theorem leAt_leBytes_append (n v : Nat) (f : List Byte) : leAt (leBytes n v ++ f) 0 n = v % 256 ^ n := by
  rw [leAt, List.drop_zero, List.take_left' (leBytes_length n v), leValue_leBytes]

theorem parseMac_typ (f : List Byte) : (parseMac f).typ = leAt f 0 2 % 8 := rfl
theorem parseMac_pend (f : List Byte) : (parseMac f).pend = Nat.beq (leAt f 0 2 / 2 ^ 4 % 2) 1 := rfl
theorem parseMac_e2e (f : List Byte) : (parseMac f).e2e = Nat.beq (leAt f 0 2 / 2 ^ 7 % 2) 1 := rfl

namespace Act

/-- R105: a frame that is no SET_KEYS command and has no end-to-end part is sealed at the link alone. -/
theorem run_sealFrame_link {f : List Byte} (htyp : (parseMac f).typ ≠ 5) (he2e : (parseMac f).e2e = false)
    (link : FrameKey) (refuse : Act) (next : List Byte → Act) (s : State) :
    (Act.sealFrame link f refuse next).run s =
      (Act.sealOne link (fun key ep c => linkSeal key ep c f) refuse next).run s := by
  simp only [Act.sealFrame, Act.groupKeys, run_read, htyp, he2e, false_and, if_false, Bool.false_eq_true]

/-- R391: with its counter short of WARN and its key in the cache, a frame is sealed and its counter stored. -/
theorem run_sealOne {k : FrameKey} {key : List Nat} {s : State} (hctr : s.storedCtr k < ctrWarn - 1)
    (hvalid : (s.slot (s.frameLabel k true s.epoch).1).state = .valid)
    (hcached : s.cached (s.frameLabel k true s.epoch).1 (s.frameLabel k true s.epoch).2 = some key)
    (make : List Nat → Nat → Nat → List Byte) (refuse : Act) (next : List Byte → Act) :
    (Act.sealOne k make refuse next).run s = (next (make key s.epoch (s.storedCtr k + 1))).run
      ((Act.storeCtr k (s.storedCtr k + 1)).run ((Act.wrap SEC_CCM_OPS).run ((Act.wrap SEC_CACHE_HIT).run s))) := by
  have htake : s.takeCtr (s.storedCtr k) = some (s.storedCtr k + 1) := by
    rw [State.takeCtr, if_pos (Nat.lt_of_lt_of_le hctr (Nat.sub_le _ _))]
  have hquiet : Nat.beq (s.storedCtr k + 1) ctrWarn = false := Bool.eq_false_iff.2 fun h => by
    have := Nat.eq_of_beq_eq_true h
    omega
  simp only [Act.sealOne, Act.takeCtr, run_read, htake, hquiet, run_seq, run_when, Bool.false_eq_true, if_false]
  rw [run_derived_cached hvalid hcached]
  rfl

end Act

/-- R391: a seal counts one operation, whatever its frame does next. -/
theorem Act.regIs_ccmOps_sealOne {k : FrameKey} {key : List Nat} {s : State} (hctr : s.storedCtr k < ctrWarn - 1)
    (hvalid : (s.slot (s.frameLabel k true s.epoch).1).state = .valid)
    (hcached : s.cached (s.frameLabel k true s.epoch).1 (s.frameLabel k true s.epoch).2 = some key)
    {make : List Nat → Nat → Nat → List Byte} {refuse : Act} {next : List Byte → Act}
    (hnext : ∀ bs w, Act.Keeps (State.RegIs SEC_CCM_OPS w) (next bs)) :
    State.RegIs SEC_CCM_OPS (s.reg SEC_CCM_OPS + 1) ((Act.sealOne k make refuse next).run s) := by
  rw [Act.run_sealOne hctr hvalid hcached]
  have hhit : Act.Within (.quiet [(SEC_CACHE_HIT, 1)] []) (Act.wrap SEC_CACHE_HIT) := .wrap
  have hstart : State.RegIs SEC_CCM_OPS (s.reg SEC_CCM_OPS) s := rfl
  have hops := Act.regIs_wrap (hstart.run (.reg hhit rfl)) rfl
  exact (hops.run (.regStores .storeCtr)).run (hnext _ _)

/-! ### Waits, listen and poll windows (R209, R220–R225) -/

/-- R209: a wait whose instant has passed without an ACK ends, and is counted. -/
theorem completes_ackWaitExpiry {s : State} {index : Fin 256} {off : Fin 1000000} {x : AckWait}
    (hx : s.u.mac.waits[index.val]? = some x)
    (hlast : x.stopNs + turnaroundNs x.rate + 1000 * s.fld MAC_ACK_WIN_US + 160 * symbolNs x.rate ≤ s.atNs off)
    (draw : Fin 256) :
    Completes (.ackWaitExpiry index draw off) s fun t =>
      t.u.mac.waits = s.u.mac.waits.erase x ∧ t.reg MAC_ACK_MISSED = satNext (s.reg MAC_ACK_MISSED) := by
  refine ⟨_, rfl, ?_⟩
  simp only [hx, Nat.ble_eq_true_of_le hlast, Act.run_when, if_true]
  rw [Act.run_all_cons, Act.run_all_cons]
  constructor
  · change State.MacHas (fun m => m.waits = s.u.mac.waits.erase x) _
    have herase : State.MacHas (fun m => m.waits = s.u.mac.waits.erase x)
      ((Act.mac fun m => { m with waits := m.waits.erase x }).run s) := rfl
    exact (herase.run .macSat).run (.all (l := [_]) (.macAttemptFailed
      (Mac.lasting_waits (P := (· = s.u.mac.waits.erase x)))))
  · have hcount : State.RegIs MAC_ACK_MISSED (satNext (s.reg MAC_ACK_MISSED)) ((Act.sat MAC_ACK_MISSED).run
        ((Act.mac fun m => { m with waits := m.waits.erase x }).run s)) := Act.reg_sat rfl _
    exact hcount.run (.all (l := [_]) (.regStores .attemptFailed))

/-- A child's listen window is still its window after an update that leaves its node and keeps it open or closed. -/
theorem listenOf_listenSet {s : State} {nsa : Nat} {l : Listen} (h : s.listenOf nsa = some l) {g : Listen → Listen}
    (hg : ∀ x, (g x).nsa = x.nsa ∧ (g x).closed = x.closed) :
    ((Act.listenSet nsa g).run s).listenOf nsa = some (g l) := by
  obtain ⟨hnsa, hopen⟩ : l.nsa = nsa ∧ l.closed = false := by simpa using List.find?_some h
  have hsame : ((fun x : Listen => x.nsa == nsa && !x.closed) ∘ fun x =>
      if x.nsa = nsa ∧ x.closed = false then g x else x) = fun x => x.nsa == nsa && !x.closed := by
    funext x
    simp only [Function.comp_apply]
    split
    · rw [(hg x).1, (hg x).2]
    · rfl
  change (List.map (fun x => if x.nsa = nsa ∧ x.closed = false then g x else x) s.u.mac.listens).find? _ = _
  rw [List.find?_map, hsame]
  change Option.map _ (s.listenOf nsa) = _
  rw [h, Option.map_some, if_pos ⟨hnsa, hopen⟩]

/-- R221: a listen window opens. -/
theorem completes_listenWindowOpen {s : State} {node : BitVec 24} {off : Fin 1000000} {l : Listen}
    (hl : s.listenOf node.toNat = some l) (hclosed : l.opened = false) (hnow : l.openNs ≤ s.atNs off)
    (hempty : s.pendList node.toNat = []) :
    Completes (.listenWindowOpen node off) s fun t => (t.listenOf node.toNat) = some { l with opened := true } := by
  refine ⟨_, rfl, ?_⟩
  simp only [hl, hclosed, hempty, Nat.ble_eq_true_of_le hnow, Act.run_when, Bool.not_false, Bool.and_self, if_true]
  exact listenOf_listenSet hl fun _ => ⟨rfl, rfl⟩

/-- R220: a listen window closes; its record waits for the commit window. -/
theorem completes_listenWindowClose {s : State} {node : BitVec 24} {off : Fin 1000000} {l : Listen}
    (hl : s.listenOf node.toNat = some l) (hopened : l.opened = true) (hnow : l.closeNs ≤ s.atNs off) :
    Completes (.listenWindowClose node off) s fun t =>
      t.listenOf node.toNat = none ∧ { l with closed := true } ∈ t.u.mac.listens := by
  refine ⟨_, rfl, ?_⟩
  simp only [hl, hopened, Nat.ble_eq_true_of_le hnow, Act.run_when, Bool.and_self, if_true]
  rw [Act.run_seq]
  obtain ⟨q, hq⟩ : ∃ q, (Act.satBy MAC_LISTEN_MISS
    ((s.pendList node.toNat).filter fun a => !l.placed.contains a).length).run s = q := ⟨_, rfl⟩
  have hlisten : q.u.mac.listens = s.u.mac.listens := by rw [← hq, Act.satBy_u]
  rw [hq]
  constructor
  · refine List.find?_eq_none.2 fun x hx => ?_
    obtain ⟨y, -, rfl⟩ := List.mem_map.1 hx
    split
    · simp
    · next hother => simpa using hother
  · obtain ⟨hnsa, hopen⟩ : l.nsa = node.toNat ∧ l.closed = false := by simpa using List.find?_some hl
    refine List.mem_map.2 ⟨l, ?_, by simp [hnsa, hopen, hopened]⟩
    rw [hlisten]
    exact List.mem_of_find?_eq_some hl

/-- R225: a poll window that ends without a POLL counts. -/
theorem completes_pollWindowClose {s : State} {node : BitVec 24} {off : Fin 1000000} {a p : Nat}
    (hplan : s.pollPlan node.toNat = some (a, p)) (hlive : s.shadows = false)
    (hend : a + p * 1000000000 + s.pollGuard p 1 ≤ s.atNs off) :
    Completes (.pollWindowClose node off) s fun t => t.reg MAC_POLL_MISSED = satNext (s.reg MAC_POLL_MISSED) := by
  refine ⟨_, rfl, ?_⟩
  simp only [hplan, hlive, Nat.ble_eq_true_of_le hend, Act.run_when, Bool.not_false, Bool.and_self, if_true]
  rw [Act.run_seq, Act.pollMiss, Act.run_read, Act.run_all_cons]
  have hcount : State.RegIs MAC_POLL_MISSED (satNext (s.reg MAC_POLL_MISSED)) ((Act.sat MAC_POLL_MISSED).run s) :=
    Act.reg_sat rfl s
  refine State.RegIs.run (hcount.run (.all ⟨.regStores .recUpdate, .when ?_⟩)) (.reg .recordInput rfl)
  exact .reg (R := .events [] []) .raise rfl

/-- The first window of a plan is one of the two nearest ones, until it ends (R223, R224). -/
theorem pollNear {t a p guard : Nat} (hp : 0 < p) (hguard : guard ≤ p * 1000000000 / 4)
    (hto : t ≤ a + p * 1000000000 + guard) :
    1 ∈ [(t - a) / (p * 1000000000), (t - a) / (p * 1000000000) + 1] := by
  have hlt : (t - a) / (p * 1000000000) < 2 := Nat.div_lt_of_lt_mul (by omega)
  generalize (t - a) / (p * 1000000000) = k at hlt
  simp only [List.mem_cons, List.not_mem_nil, or_false]
  omega

/-- What a plan of poll windows is: its child polls, with a period and an anchor (R223). -/
theorem State.pos_of_pollPlan {s : State} {nsa a p : Nat} (h : s.pollPlan nsa = some (a, p)) : 0 < p := by
  simp only [State.pollPlan, Option.ite_none_right_eq_some, Bool.and_eq_true, Nat.blt_eq, Option.some.injEq,
    Prod.mk.injEq] at h
  obtain ⟨⟨⟨-, hp⟩, -⟩, -, rfl⟩ := h
  exact hp

/-- R224: a frame sealed ahead of its window, told by the SEALED bit of its buffer. -/
def Act.pendStore (x : Nat) (bs : List Byte) : Act := .read fun t =>
  .all [Act.memBytes (x + 12) (leBytes 2 bs.length ++ leBytes 1 (stateWith (t.le (x + 14) 1) 0 true)),
    Act.memBytes (x + 64) (padTo 1024 bs)]

theorem stateWith_bit_zero (v : Nat) : stateWith v 0 true % 2 = 1 := by
  rw [stateWith, Nat.testBit_zero]
  split
  · next h => simpa using h
  · next h =>
    have : v % 2 ≠ 1 := by simpa using h
    rw [if_pos rfl]
    omega

theorem Act.pendSealed_pendStore (x : Nat) (bs : List Byte) (s : State) :
    ((Act.pendStore x bs).run s).pendSealed x = true := by
  rw [Act.pendStore, Act.run_read, Act.run_all_cons, Act.run_all_cons, Act.run_all_nil, State.pendSealed, State.le]
  simp only [State.bytes]
  rw [Act.memBytes_byte_ne _ _ _ _ fun i hi => by rw [padTo_length] at hi; omega]
  generalize hv : stateWith (s.le (x + 14) 1) 0 true = v
  have hodd : v % 2 = 1 := hv ▸ stateWith_bit_zero _
  have hbyte := congrArg (·.getD 2 0) (Act.bytes_memBytes (bs := leBytes 2 bs.length ++ leBytes 1 v)
    (by simp) (x + 12) s)
  change ((Act.memBytes (x + 12) _).run s).byte (x + 14) = BitVec.ofNat 8 v at hbyte
  rw [hbyte, leValue, leValue, Nat.testBit_zero, BitVec.toNat_ofNat]
  simp only [decide_eq_true_eq]
  omega

/-- R101: a frame with its own frame control in place is the same frame in its first two bytes. -/
theorem leAt_patch_frameControl (f : List Byte) (v : Nat) : leAt (patch f 0 (leBytes 2 v)) 0 2 = v % 65536 := by
  rw [patch, List.take_zero, List.nil_append]
  exact leAt_leBytes_append 2 v _

theorem stateWith_of_testBit {v i : Nat} {on : Bool} (h : Nat.testBit v i = on) : stateWith v i on = v := if_pos h

/-- R224, R391: the last frame of a child's list is sealed as it stands. -/
theorem Act.run_pendSeal_single {s : State} {nsa x : Nat} (hunsealed : s.pendSealed x = false)
    (htyp : (parseMac (s.pendFrame x)).typ = 0) (hpend : (parseMac (s.pendFrame x)).pend = false)
    (he2e : (parseMac (s.pendFrame x)).e2e = false) :
    ∃ g : List Byte, (Act.pendSeal nsa [x]).run s =
      (Act.sealOne (.link nsa) (fun key ep c => linkSeal key ep c g) .nop (Act.pendStore x)).run s := by
  obtain ⟨fc, hfc⟩ : ∃ fc, leAt (s.pendFrame x) 0 2 = fc := ⟨_, rfl⟩
  rw [parseMac_pend, hfc] at hpend
  rw [parseMac_typ, hfc] at htyp
  rw [parseMac_e2e, hfc] at he2e
  have hkept : stateWith fc 4 false = fc := stateWith_of_testBit <| by
    rw [Nat.testBit_eq_decide_div_mod_eq]
    exact decide_eq_false (Nat.ne_of_beq_eq_false hpend)
  have hctl : leAt (patch (s.pendFrame x) 0 (leBytes 2 fc)) 0 2 = fc % 65536 := leAt_patch_frameControl _ _
  refine ⟨patch (s.pendFrame x) 0 (leBytes 2 fc), ?_⟩
  simp only [Act.pendSeal, Act.run_seq, Act.run_read, Act.run_when, hunsealed, Bool.not_false, if_true,
    List.isEmpty_nil, Bool.not_true, hfc, hkept]
  rw [Act.run_nop]
  refine Act.run_sealFrame_link ?_ ?_ _ _ _ _
  · rw [parseMac_typ, hctl]
    omega
  · rw [parseMac_e2e, hctl, ← he2e]
    congr 1
    omega

/-- R224, R225: a frame for a child is sealed when its window is near. -/
theorem completes_pollStage {s : State} {node : BitVec 24} {off : Fin 1000000} {a p x : Nat} {key : List Nat}
    (hplan : s.pollPlan node.toNat = some (a, p))
    (hfrom : a + p * 1000000000 ≤ s.atNs off + s.pollGuard p 1 + 1000000 * s.fld MAC_POLL_STAGE_MS)
    (hto : s.atNs off ≤ a + p * 1000000000 + s.pollGuard p 1) (hlist : s.pendList node.toNat = [x])
    (hunsealed : s.pendSealed x = false) (htyp : (parseMac (s.pendFrame x)).typ = 0)
    (hpend : (parseMac (s.pendFrame x)).pend = false) (he2e : (parseMac (s.pendFrame x)).e2e = false)
    (hctr : s.storedCtr (.link node.toNat) < ctrWarn - 1)
    (hvalid : (s.slot (s.frameLabel (.link node.toNat) true s.epoch).1).state = .valid)
    (hcached : s.cached (s.frameLabel (.link node.toNat) true s.epoch).1
      (s.frameLabel (.link node.toNat) true s.epoch).2 = some key) :
    Completes (.pollStage node off) s fun t =>
      t.pendSealed x = true ∧ t.reg SEC_CCM_OPS = s.reg SEC_CCM_OPS + 1 := by
  refine ⟨_, rfl, ?_⟩
  simp only [hplan, hlist]
  obtain ⟨g, hseal⟩ := Act.run_pendSeal_single (nsa := node.toNat) hunsealed htyp hpend he2e
  rw [Act.run_when, if_pos, hseal]
  · refine ⟨?_, ?_⟩
    · rw [Act.run_sealOne hctr hvalid hcached]
      exact Act.pendSealed_pendStore _ _ _
    · exact Act.regIs_ccmOps_sealOne hctr hvalid hcached fun _ _ => .read fun _ => .all ⟨.regMemBytes, .regMemBytes⟩
  · refine List.any_eq_true.2 ⟨1, pollNear (State.pos_of_pollPlan hplan) (Nat.min_le_right _ _) hto, ?_⟩
    simp only [Bool.and_eq_true, Nat.blt_eq, Nat.ble_eq, Nat.one_mul]
    omega

end Sys2Proof.Machine

namespace Sys2Proof.Machine

set_option Elab.async false

open Sys2Proof Sys2Proof.Reg

/-! ### Beacons (R226, R227) -/

theorem Act.Stores.discardPacket {p : RfPort} {q start : Nat} :
    Act.Stores (.events (chainRegs ++ releaseRegs) [.rf, .env, .eth, .sch, .mac, .pair])
      (Act.discardPacket p q start) := by
  refine all ⟨units, each fun c => read fun s => ?_, sub airRelease⟩
  split
  · exact nop
  · split
    · exact when <| within .txDrop
    · exact nop

theorem Act.Keeps.macDiscardPacket {Q : Mac → Prop} (hQ : Mac.Lasting Q) {p : RfPort} {q start : Nat} :
    Act.Keeps (State.MacHas Q) (Act.discardPacket p q start) := by
  refine all ⟨macWithin (R := .quiet [] [.sch]) .units, each fun c => read fun s => ?_, macAirRelease hQ⟩
  split
  · exact nop
  · split
    · exact when <| macWithin .txDrop
    · exact nop

/-- R227: a beacon that has not started by half a period after its beat is skipped. -/
theorem completes_beaconSkipDeadline {s : State} {decoder : Fin 80} {b : BeaconQ} (hbeacons : s.u.mac.beacons = [b])
    (hdecoder : b.decoder = decoder) (hlate : b.nominal + s.fld MAC_BEACON_PERIOD_MS / 2 ≤ s.workBeat)
    (hstarted : s.started b.queue b.start = false) :
    Completes (.beaconSkipDeadline decoder) s fun t =>
      t.u.mac.beacons = [] ∧ t.reg MAC_BEACON_SKIP = satNext (s.reg MAC_BEACON_SKIP) := by
  refine ⟨_, rfl, ?_⟩
  have hdue : (s.u.mac.beacons.filter fun b => b.decoder == decoder.val &&
      Nat.ble (b.nominal + s.fld MAC_BEACON_PERIOD_MS / 2) s.workBeat && !s.started b.queue b.start) = [b] := by
    simp [hbeacons, hdecoder, hlate, hstarted]
  simp only [hdue]
  obtain ⟨q, hq⟩ : ∃ q, (Act.discardPacket (decoderPort b.decoder) b.queue b.start).run s = q := ⟨_, rfl⟩
  rw [Act.each, List.map_singleton, Act.run_all_cons, Act.run_all_nil, Act.run_all_cons, Act.run_all_cons,
    Act.run_all_cons, Act.run_all_nil, hq]
  constructor
  · have hkept : State.MacHas (fun m => m.beacons = [b]) q := hq ▸ State.MacHas.run hbeacons
      (.macDiscardPacket (Mac.lasting_beacons (P := (· = [b]))))
    have herased : State.MacHas (fun m => m.beacons = [])
        ((Act.mac fun m => { m with beacons := m.beacons.erase b }).run q) :=
      (congrArg (List.erase · b) hkept).trans (List.erase_cons_head ..)
    exact herased.run .macSat
  · have hkept : State.RegIs MAC_BEACON_SKIP (s.reg MAC_BEACON_SKIP) q := hq ▸ State.RegIs.run rfl
      (.regStores .discardPacket)
    rw [← hkept]
    exact Act.reg_sat rfl _

/-- R101: the frame control stands first in the head of a frame the device makes. -/
theorem State.leAt_macHead (s : State) (typ flags dstMode dst level : Nat) (body : List Byte) :
    leAt (s.macHead typ flags dstMode dst level ++ body) 0 2 = (typ + 8 + flags + 256 * dstMode + 1024) % 65536 := by
  rw [State.macHead]
  simp only [List.append_assoc]
  exact leAt_leBytes_append 2 _ _

/-- R391: the broadcast counter stored is the next one. -/
theorem Act.regIs_storeCtr_bcast (s : State) (w : Word) :
    State.RegIs SEC_TXCTR_BCAST (w + 1) ((Act.storeCtr .bcast (w.toNat + 1)).run s) :=
  (State.reg_setReg_same _ _ _ rfl).trans (BitVec.eq_of_toNat_eq (by simp))

/-- R226, R391: a beacon due on its beat takes the next broadcast counter and is sealed. -/
theorem completes_beaconDue {s : State} {decoder : Fin 80} {cls : Fin 4} {key : List Nat} (hruns : s.meshRuns = true)
    (hon : s.beaconOn decoder = true) (hdue : s.beaconDue decoder s.workBeat = true)
    (hctr : s.storedCtr .bcast < ctrWarn - 1)
    (hvalid : (s.slot (s.frameLabel .bcast true s.epoch).1).state = .valid)
    (hcached : s.cached (s.frameLabel .bcast true s.epoch).1 (s.frameLabel .bcast true s.epoch).2 = some key) :
    Completes (.beaconDue decoder cls) s fun t =>
      t.reg SEC_TXCTR_BCAST = s.reg SEC_TXCTR_BCAST + 1 ∧ t.reg SEC_CCM_OPS = s.reg SEC_CCM_OPS + 1 := by
  refine ⟨_, rfl, ?_⟩
  simp only [hruns, hon, hdue, Act.run_when, Bool.and_self, if_true]
  have hnext (bs : List Byte) : Act.Stores (.events enqueueRegs [.env, .eth, .sch, .mac, .pair])
      (Act.sendControl (decoderPort decoder) decoder cls bs fun q start =>
        Act.mac fun m => { m with beacons := m.beacons ++ [⟨decoder, s.workBeat, q, start⟩] }) :=
    .sendControl fun _ _ => .units
  rw [Act.run_sealFrame_link]
  · constructor
    · rw [Act.run_sealOne hctr hvalid hcached]
      exact State.RegIs.run (Act.regIs_storeCtr_bcast _ _) (.regStores (hnext _))
    · exact Act.regIs_ccmOps_sealOne hctr hvalid hcached fun _ _ => .regStores (hnext _)
  · rw [parseMac_typ, State.leAt_macHead]
    decide
  · rw [parseMac_e2e, State.leAt_macHead]
    decide

/-! ### Joins and reports (R228–R231, R233) -/

/-- R274: a walk counts. -/
theorem Act.Stores.walkCounts {w : Walk} :
    Act.Stores (.events [(FWD_RW_OK, 1), (FWD_RW_FAIL, 1)] [.fwd]) (Act.walkCounts w) :=
  ite wrap <| all ⟨sat, units, read fun _ => raiseOnce⟩

/-- The joins of the beat are taken; answering them leaves none behind (R228). -/
def Mac.NoJoins (m : Mac) : Prop := m.joins = []

namespace Act.Keeps

theorem macJoinSend {Q : Mac → Prop} {r : JoinReq} {cls : Nat} {body : List Byte} {sent : Act}
    (hsent : Act.Stores (.quiet [(MAC_JOIN_REFUSE, 1), (MAC_JOIN_ACCEPT, 1)] []) sent) :
    Keeps (State.MacHas Q) (Act.joinSend r cls body sent) := by
  have send {bs : List Byte} : Act.Stores
      (.events (sealRegs ++ enqueueRegs ++ [(MAC_JOIN_REFUSE, 1), (MAC_JOIN_ACCEPT, 1)])
        [.sec, .env, .eth, .sch, .pair])
      (Act.sendControl r.port r.decoder cls bs fun _ _ => sent) := .sendControl fun _ _ => .sub hsent
  exact read fun _ => ite (macBeside (.sealFrame .nop fun _ => send)) <|
    seq (macBeside .walkCounts) <| when <| macBeside (.sealFrame .nop fun _ => send)

theorem macJoinAccept {Q : Mac → Prop} {r : JoinReq} {cls : Nat} {d : JoinDone} :
    Keeps (State.MacHas Q) (Act.joinAccept r cls d) := macJoinSend .wrap

theorem macJoinTurnAway {r : JoinReq} {cls op retry : Nat} :
    Keeps (State.MacHas Mac.NoJoins) (Act.joinTurnAway r cls op retry) :=
  read fun _ => when <| seq (macUpdate fun _ h => h) <| macJoinSend <| .when .wrap

/-- R228–R231: a join request is answered at once, or waits for its admission. -/
theorem macJoinTake {cls : Nat} {r : JoinReq} : Keeps (State.MacHas Mac.NoJoins) (Act.joinTake cls r) := by
  refine read fun s => ite (macUpdate fun _ h => h) ?_
  split
  · exact macJoinAccept
  · exact ite macJoinTurnAway <| ite (macUpdate fun _ h => h) <|
      all ⟨macSat, macJoinTurnAway, when <| seq macSetB macRaiseOnce⟩

/-- R230: the routing role answers an admitted request. -/
theorem macJoinAnswer {cls eui : Nat} {o : JoinOutcome} :
    Keeps (State.MacHas Mac.NoJoins) (Act.joinAnswer cls eui o) := by
  refine read fun s => ?_
  split
  · exact nop
  · cases o with
    | waiting => exact nop
    | refuse => exact seq (macUpdate fun _ h => h) macJoinTurnAway
    | accept => exact all ⟨macUpdate fun _ h => h, macUpdate fun _ h => h, macJoinAccept⟩

end Act.Keeps

/-- R228: the join requests of the beat are taken. -/
theorem completes_joinAdmission {s : State} (hruns : s.meshRuns = true) (cls : Fin 4)
    (answers : List (BitVec 64 × JoinOutcome)) :
    Completes (.joinAdmission cls answers) s fun t => t.u.mac.joins = [] := by
  refine ⟨_, rfl, ?_⟩
  simp only [hruns, Act.run_when, if_true]
  rw [Act.run_all_cons]
  change State.MacHas Mac.NoJoins _
  exact State.MacHas.run rfl (.all ⟨.each fun _ => .macJoinTake, .each fun _ => .macJoinAnswer⟩)

/-- R233: a report window ends, and its report leaves the table. -/
theorem completes_bridleWindowEnd {s : State} {index : Fin 512} {b : MacBridle}
    (hb : s.u.mac.bridle[index.val]? = some b) (hend : b.firstBeat + b.window ≤ s.workBeat + 1) :
    Completes (.bridleWindowEnd index) s fun t => t.u.mac.bridle = s.u.mac.bridle.erase b := by
  refine ⟨_, rfl, ?_⟩
  simp only [hb, Nat.ble_eq_true_of_le hend, Act.run_when, if_true]
  rw [Act.bridleEnd, Act.run_all_cons]
  change State.MacHas (fun m => m.bridle = s.u.mac.bridle.erase b) _
  exact State.MacHas.run rfl (.all ⟨.macWithin .reportEvent, .macWithin .bridleFollow⟩)

/-- Settles O17: each instant picks its one branch; what follows it leaves the windows, the counters and the lists that
the clause reads. -/
theorem windowsAndBeacons : Obligations.WindowsAndBeacons := by
  unfold Obligations.WindowsAndBeacons
  exact ⟨fun _ _ draw _ _ hx hlast => completes_ackWaitExpiry hx hlast draw,
    fun _ _ _ _ hl hclosed hnow hempty => completes_listenWindowOpen hl hclosed hnow hempty,
    fun _ _ _ _ hl hopened hnow _ => completes_listenWindowClose hl hopened hnow,
    fun _ _ _ _ _ hplan hlive hend => completes_pollWindowClose hplan hlive hend,
    fun _ _ _ hbeacons hdecoder hlate hstarted => completes_beaconSkipDeadline hbeacons hdecoder hlate hstarted,
    fun _ _ _ _ hruns hon hdue hctr hvalid hcached => completes_beaconDue hruns hon hdue hctr hvalid hcached,
    fun _ _ _ _ _ _ _ hplan hfrom hto hlist hunsealed htyp hpend he2e hctr hvalid hcached =>
      completes_pollStage hplan hfrom hto hlist hunsealed htyp hpend he2e hctr hvalid hcached,
    fun _ cls answers hruns => completes_joinAdmission hruns cls answers,
    fun _ _ _ hb hend => completes_bridleWindowEnd hb hend⟩

end Sys2Proof.Machine

namespace Sys2Proof.Machine

set_option Elab.async false

open Sys2Proof Sys2Proof.Reg

/-! ### A delivered frame (R260, R261, R277) -/

/-- R260: the source of a received frame is looked up once; what is learned counts elsewhere. -/
theorem Act.run_learnAir (n nsa : Nat) (direct : Bool) (hop decoder link beat : Nat) (s : State) :
    ∃ a, Act.Stores (.events learnRegs [.fwd]) a ∧ (Act.learnAir n nsa direct hop decoder link beat).run s =
      a.run ((Act.wrap (FWD_TBLn_LOOKUP n)).run s) := by
  have counts {x : Nat} (h : (Reach.events learnRegs [.fwd]).has x = true) :
      Act.Stores (.events learnRegs [.fwd]) (Act.wrap x) := .wrap h
  rw [Act.learnAir, Act.run_read, Act.run_seq]
  refine ⟨_, ?_, rfl⟩
  split
  · exact .all ⟨.sub .tableUpdate, counts Reach.has_array, counts Reach.has_array⟩
  · exact .when <| .tableInsert fun _ _ _ _ => .when <| counts Reach.has_array

/-- R260, R261, R277: a frame whose turn has come leaves the MAC unit, with one lookup of its source. -/
theorem completes_forwardLearn {s : State} {index : Fin 256} {f : MacFrame} (hf : s.macFrame index = some f)
    (hstage : f.stage = .deliver) (hsettled : s.settledBefore index f = true) (hsrc : (parseMac f.bytes).srcMode = 1)
    (hmesh : (parseMac f.bytes).mesh = false) (headend : Fin 16) (cls : Fin 8) (pre : Fin 3) :
    Completes (.forwardLearn index headend cls pre) s fun t =>
      (∀ g ∈ t.u.mac.frames, g.id ≠ f.id) ∧
      t.reg (FWD_TBLn_LOOKUP (decoderPort f.rx.decoder).idx) =
        s.reg (FWD_TBLn_LOOKUP (decoderPort f.rx.decoder).idx) + 1 := by
  refine ⟨_, rfl, ?_⟩
  simp only [hf, hstage, hsettled, hsrc, hmesh, Act.run_when, decide_true, Bool.and_self, beq_self_eq_true,
    Bool.and_false, Bool.false_and, if_true]
  rw [Act.run_all_cons, Act.run_all_cons, Act.run_all_cons, Act.run_when,
    if_neg Bool.false_ne_true, Act.run_when, if_pos rfl]
  obtain ⟨a, ha, hlearn⟩ := Act.run_learnAir (decoderPort f.rx.decoder).idx (parseMac f.bytes).src true
    (parseMac f.bytes).src f.rx.decoder (linkDbm f.rx.rssi) f.beat ((Act.macGone f.id).run s)
  rw [hlearn]
  have up {h c beat seqNo : Nat} {m : Ple} :
      Act.Stores (.events (offerRegs ++ [(FWD_UL_OUT, 1)]) [.env, .fwd, .eth, .sch, .pair])
        (Act.pleSend h c beat pre m fun ok => Act.when ok
          (.seq (Act.fwd fun x => { x with seqs := x.seqs.setD h 0 seqNo }) (Act.wrap FWD_UL_OUT))) :=
    .pleSend fun _ => .when <| .seq .units .wrap
  constructor
  · change State.MacHas (Mac.Lacks f.id) _
    have hgone := Act.lacks_macGone f.id s
    exact ((hgone.run .macWrap).run (.macBeside ha)).run (.all (l := [_]) (.when (.macBeside up)))
  · have hstart : State.RegIs (FWD_TBLn_LOOKUP (decoderPort f.rx.decoder).idx)
      (s.reg (FWD_TBLn_LOOKUP (decoderPort f.rx.decoder).idx)) ((Act.macGone f.id).run s) := rfl
    have hcount := Act.regIs_wrap hstart fixedReg_array
    exact (hcount.run (.regStores ha Reach.lacks_array)).run
      (.all (l := [_]) (.when (.regStores up Reach.lacks_array)))

/-! ### A message for a sleepy child (R219, R278) -/

theorem State.pendFrom_congr {s t : State} (hmem : t.mem = s.mem) (n a : Nat) : t.pendFrom n a = s.pendFrom n a := by
  induction n generalizing a with
  | zero => rfl
  | succ n ih => rw [State.pendFrom, State.pendFrom, ih, State.le, State.bytes_congr hmem]; rfl

/-- A child's pending list is read from the Envelope, where its record stands (R219, R245). -/
theorem State.pendList_congr {s t : State} (hmem : t.mem = s.mem) (hdir : t.reg FWD_DIR_BASE = s.reg FWD_DIR_BASE)
    (henv : t.u.env = s.u.env) (nsa : Nat) : t.pendList nsa = s.pendList nsa := by
  simp only [State.pendList, State.recValid_congr hmem hdir henv, State.node_congr hmem hdir,
    State.pendFrom_congr hmem]

/-- R219: with a buffer free, a frame takes the lowest one and joins its list. -/
theorem Act.run_pendAppend {s : State} {i : Nat} (hfree : firstFree s.u.mac.poolUsed s.poolCount = some i)
    (nsa cls : Nat) (ready block : Bool) (bs : List Byte) (k : Bool → Act) :
    ∃ q, (Act.pendAppend nsa cls ready block bs k).run s = (k true).run q ∧
      q.u.mac.poolUsed = s.u.mac.poolUsed ++ [i] ∧ q.reg FWD_DL_IN = s.reg FWD_DL_IN := by
  rw [Act.pendAppend, Act.run_read, hfree]
  dsimp only
  rw [Act.run_all_cons, Act.run_all_cons, Act.run_all_cons, Act.run_all_cons, Act.run_all_nil]
  refine ⟨_, rfl, ?_, ?_⟩
  · rw [Act.Stores.pendLink.mac, Act.memBytes_u]
    rfl
  · rw [Act.Stores.pendLink.reg_eq rfl, Act.memBytes_reg]
    rfl

/-- R278: a message for a sleepy direct child with room on its list is listed. -/
theorem Act.run_downSend_pending {s : State} {d : Down} {pick : Pick} {n i : Nat}
    (hsleepy : s.sleepyChild d.nsa = true) (hroute : (s.walk d.nsa fun _ => false).reason = 0)
    (hlen : sealedLength (s.downFrame d (s.walk d.nsa fun _ => false).nsa (s.walk d.nsa fun _ => false).route) ≤ 1024)
    (hdecoder : s.downDecoder (s.bandOf (s.walk d.nsa fun _ => false).nsa pick.band)
      (s.walk d.nsa fun _ => false).nsa pick.decoder = some n)
    (hroom : (s.pendList d.nsa).length < 8) (hfree : firstFree s.u.mac.poolUsed s.poolCount = some i)
    (block : Bool) (k : Nat → Act) :
    ∃ q, (Act.downSend d pick block (fun _ _ => .nop) k).run s = (k dlPending).run q ∧
      q.u.mac.poolUsed = s.u.mac.poolUsed ++ [i] ∧ q.reg FWD_DL_IN = s.reg FWD_DL_IN := by
  have hvalid : s.recValid d.nsa = true := by
    simp only [State.sleepyChild, Bool.and_eq_true] at hsleepy
    exact hsleepy.1.1
  simp only [Act.downSend, Act.run_read, hvalid, hroute, hsleepy, hdecoder, Act.walkCounts, Nat.not_lt.2 hlen,
    Bool.not_true, Bool.false_eq_true, ne_eq, not_true_eq_false, if_true, if_false]
  rw [Act.run_seq]
  obtain ⟨t, ht⟩ : ∃ t, (Act.wrap FWD_RW_OK).run s = t := ⟨_, rfl⟩
  have hcount : Act.Within (.quiet [(FWD_RW_OK, 1)] []) (Act.wrap FWD_RW_OK) := .wrap
  have hu : t.u = s.u := ht ▸ Act.wrapBy_u _ _ _
  have hreg {x : Nat} (hx : (Reach.quiet [(FWD_RW_OK, 1)] []).has x = false := by rfl) : t.reg x = s.reg x :=
    ht ▸ (hcount.fits s).reg x hx
  have hlist : t.pendList d.nsa = s.pendList d.nsa :=
    State.pendList_congr (ht ▸ Act.wrapBy_mem _ _ _) hreg (congrArg Units.env hu) _
  have hpool : t.poolCount = s.poolCount := by rw [State.poolCount, State.fld, hreg]; rfl
  rw [ht, Act.pendAdd, Act.run_read, hlist, if_pos hroom]
  obtain ⟨q, hq, hused, hin⟩ := Act.run_pendAppend (s := t) (i := i) (by rw [hu, hpool, hfree]) d.nsa d.cls false block
    (s.downFrame d (s.walk d.nsa fun _ => false).nsa (s.walk d.nsa fun _ => false).route) _
  rw [hq]
  exact ⟨q, rfl, by rw [hused, hu], by rw [hin, hreg]⟩

/-- R276, R278: a message of a headend for a sleepy direct child takes a pending buffer, and counts as taken in. -/
theorem completes_pleDownlinkReceived {s : State} {port : EthPort} {pick : Pick} {q : Nat} {p : PacketInfo}
    {m : List Byte} {d : Down} {n i : Nat} (hq : s.ingressQueue port.idx = some q)
    (hp : ((s.queue q).visible).head? = some p) (hm : wordBytes ((s.queue q).packetWords p) = m)
    (hok : s.downOk m = true)
    (hd : (⟨leAt m 7 1 % 8, beValue ((m.drop 4).take 3), leAt m 7 1 / 32,
      leAt m 7 1 % 8 == 5 || Nat.testBit (leAt m 7 1) 3, m.drop 28⟩ : Down) = d)
    (hsleepy : s.sleepyChild d.nsa = true) (hroute : (s.walk d.nsa fun _ => false).reason = 0)
    (hlen : sealedLength (s.downFrame d (s.walk d.nsa fun _ => false).nsa (s.walk d.nsa fun _ => false).route) ≤ 1024)
    (hdecoder : s.downDecoder (s.bandOf (s.walk d.nsa fun _ => false).nsa pick.band)
      (s.walk d.nsa fun _ => false).nsa pick.decoder = some n)
    (hroom : (s.pendList d.nsa).length < 8) (hfree : firstFree s.u.mac.poolUsed s.poolCount = some i)
    (cls : Fin 8) (pre : Fin 3) :
    Completes (.pleDownlinkReceived port pick cls pre) s fun t =>
      t.u.mac.poolUsed = s.u.mac.poolUsed ++ [i] ∧ t.reg FWD_DL_IN = s.reg FWD_DL_IN + 1 := by
  refine ⟨_, rfl, ?_⟩
  simp only [hq, hp, hm, hok, hd, Bool.not_true, Bool.false_eq_true, if_false]
  obtain ⟨t, ht, hused, hin⟩ := Act.run_downSend_pending hsleepy hroute hlen hdecoder hroom hfree false _
  rw [ht, Act.run_seq]
  constructor
  · change State.MacHas (fun m => m.poolUsed = s.u.mac.poolUsed ++ [i]) _
    exact State.MacHas.run (State.MacHas.run hused (.macBeside .downAnswer)) (.macBeside .releasePacket)
  · refine State.RegIs.run ?_ (.regStores .releasePacket)
    rw [Act.downAnswer, Act.run_read, Act.run_all_cons]
    exact State.RegIs.run (Act.regIs_wrap hin rfl) (.all (l := [_]) (.when
      (.regStores (R := .events offerRegs [.env, .eth, .sch, .pair]) (.pleSend fun _ => .nop))))

/-- Settles O18: the frame's lookup is the first thing learning does, and the message's buffer and count stand whatever
its answer and its packet's release do. -/
theorem upAndDown : Obligations.UpAndDown := by
  unfold Obligations.UpAndDown
  refine ⟨fun _ _ headend cls pre _ hf hstage hsettled hsrc hmesh =>
    completes_forwardLearn hf hstage hsettled hsrc hmesh headend cls pre, ?_⟩
  rintro s port pick cls pre q k m nsa e2e n i hq hk hm hok rfl rfl hsleepy hroute hlen hdecoder hroom hfree
  exact completes_pleDownlinkReceived hq hk hm.symm hok rfl hsleepy hroute hlen hdecoder hroom hfree cls pre

end Sys2Proof.Machine

namespace Sys2Proof.Machine

set_option Elab.async false

open Sys2Proof Sys2Proof.Reg

/-! ### Entries of the forwarding tables (R254–R256) -/

theorem Entry.fld_eq (e : Entry) (lo w : Nat) : e.fld lo w = e.toNat % 2 ^ (lo + w) / 2 ^ lo := by
  rw [Entry.fld, Nat.pow_add, Nat.mod_mul_right_div_self]

/-- An entry with a field replaced, up to the end of that field. -/
theorem Entry.toNat_set_mod (e : Entry) {lo w : Nat} (v : Nat) (h : lo + w ≤ 128) :
    (e.set lo w v).toNat % 2 ^ (lo + w) = e.toNat % 2 ^ lo + v % 2 ^ w * 2 ^ lo := by
  have hlow : e.toNat % 2 ^ lo < 2 ^ lo := Nat.mod_lt _ (Nat.two_pow_pos _)
  have hfield : v % 2 ^ w < 2 ^ w := Nat.mod_lt _ (Nat.two_pow_pos _)
  rw [Entry.set, BitVec.toNat_ofNat, Nat.mod_mod_of_dvd _ (Nat.pow_dvd_pow 2 h), Nat.add_mul_mod_self_right,
    Nat.mod_eq_of_lt]
  calc e.toNat % 2 ^ lo + v % 2 ^ w * 2 ^ lo < (v % 2 ^ w + 1) * 2 ^ lo := by rw [Nat.add_mul]; omega
    _ ≤ 2 ^ w * 2 ^ lo := Nat.mul_le_mul_right _ hfield
    _ = 2 ^ (lo + w) := by rw [Nat.pow_add, Nat.mul_comm]

/-- A field of an entry reads what was stored in it. -/
theorem Entry.fld_set_same (e : Entry) {lo w : Nat} (v : Nat) (h : lo + w ≤ 128) :
    (e.set lo w v).fld lo w = v % 2 ^ w := by
  rw [Entry.fld_eq, Entry.toNat_set_mod e v h, Nat.add_mul_div_right _ _ (Nat.two_pow_pos _),
    Nat.div_eq_of_lt (Nat.mod_lt _ (Nat.two_pow_pos _)), Nat.zero_add]

/-- A field below another one reads as before. -/
theorem Entry.fld_set_below (e : Entry) {lo w l k : Nat} (v : Nat) (h : lo + w ≤ 128) (hl : l + k ≤ lo) :
    (e.set lo w v).fld l k = e.fld l k := by
  rw [Entry.fld_eq, Entry.fld_eq, ← Nat.mod_mod_of_dvd (e.set lo w v).toNat (Nat.pow_dvd_pow 2 (by omega : l + k ≤ lo + w)),
    Entry.toNat_set_mod e v h, Nat.add_mod, Nat.mod_mod_of_dvd _ (Nat.pow_dvd_pow 2 hl),
    Nat.mod_eq_zero_of_dvd (Dvd.dvd.mul_left (Nat.pow_dvd_pow 2 hl) _), Nat.add_zero, Nat.mod_mod]

theorem keyWidth_le (n : Nat) : keyWidth n ≤ 60 := by
  unfold keyWidth
  split <;> decide

/-- An entry whose VALID is cleared is not valid. -/
theorem entryValid_set_zero (n : Nat) (e : Entry) : entryValid n (e.set (keyWidth n) 1 0) = false := by
  have := keyWidth_le n
  rw [entryValid, Entry.fld_set_same e 0 (by omega)]
  rfl

/-- A stamp leaves the key (R256). -/
theorem entryKey_withStamp (n : Nat) (e : Entry) (v : Nat) : entryKey n (withStamp e v) = entryKey n e :=
  have := keyWidth_le n
  Entry.fld_set_below e v (by decide) (by omega)

/-! ### What a table operation looks at -/

/-- A slot stands in the tables. -/
theorem State.entry_congr {s t : State} (h : t.u.fwd.tables = s.u.fwd.tables) : t.entry = s.entry := by
  funext n slot
  rw [State.entry, h, State.entry]

theorem State.bucket_congr {s t : State} {n : Nat} (h : t.reg (FWD_TBLn_SEED n) = s.reg (FWD_TBLn_SEED n)) (key : Nat) :
    t.bucket n key = s.bucket n key := by rw [State.bucket, h, State.bucket]

/-- Where a key stands is read from the tables, under the table's seed (R258, R259). -/
theorem State.wayOf_congr {s t : State} {n : Nat} (htables : t.u.fwd.tables = s.u.fwd.tables)
    (hseed : t.reg (FWD_TBLn_SEED n) = s.reg (FWD_TBLn_SEED n)) (key : Nat) : t.wayOf n key = s.wayOf n key := by
  simp only [State.wayOf, State.bucket_congr hseed, State.entry_congr htables]

theorem State.blockDigest_congr {s t : State} (h : t.u.fwd.tables = s.u.fwd.tables) (n blk : Nat) :
    t.blockDigest n blk = s.blockDigest n blk := by
  simp only [State.blockDigest, State.blockBytes, State.entry_congr h]

/-! ### Storing a slot -/

/-- A slot is stored, and the table counted (R282). -/
def Act.tableStore (n slot : Nat) (e : Entry) : Act := .seq (entry n slot e) (tableCount n)

/-- Where storing a slot shows. -/
def storeRegs : List (Nat × Nat) := [(FWD_STATUS, 1), (FWD_TBLn_COUNT 0, 4)]

theorem Act.Within.tableStore {n slot : Nat} {e : Entry} : Within (.quiet storeRegs [.fwd]) (Act.tableStore n slot e) :=
  .seq (.sub .entry) (.sub .tableCount)

theorem Act.tableCount_u (n : Nat) (s : State) : ((Act.tableCount n).run s).u = s.u := by
  simp [tableCount]

theorem Act.entry_entry (n slot : Nat) (e : Entry) (s : State) (slot' : Nat) :
    ((Act.entry n slot e).run s).entry n slot' = if slot = slot' then e else s.entry n slot' := by
  simp only [State.entry, entry, fwd, run_units, Store.getD_setD, Nat.add_left_cancel_iff]

theorem Act.entry_tableStore (n slot : Nat) (e : Entry) (s : State) :
    ((Act.tableStore n slot e).run s).entry n slot = e := by
  rw [tableStore, run_seq, State.entry_congr (congrArg (fun u : Units => u.fwd.tables) (tableCount_u n _)), entry_entry,
    if_pos rfl]

section

variable {s : State} {n w : Nat} {e : Entry}

/-- R263: an entry whose key the table holds takes the place of the one there. -/
theorem Act.run_tableInsert_held (hway : s.wayOf n (entryKey n e) = some w) (k : Nat → Nat → Nat → Entry → Act) :
    (Act.tableInsert n e k).run s = (k tblOk w (s.bucket n (entryKey n e)) 0).run
      ((Act.tableStore n (4 * s.bucket n (entryKey n e) + w) e).run s) := by
  simp only [tableInsert, tableStore, run_read, hway, run_seq]

/-- R279: the entry of a key the table holds is deleted, where its stamp is the one asked for, if any is. -/
theorem Act.run_tableDelete_held {key : Nat} (hway : s.wayOf n key = some w) {stamp : Option Nat}
    (hstamp : ∀ t ∈ stamp, t = entryStamp (s.entry n (4 * s.bucket n key + w)))
    (k : Nat → Nat → Nat → Entry → Act) :
    (Act.tableDelete n key stamp k).run s =
      (k tblOk w (s.bucket n key) (s.entry n (4 * s.bucket n key + w))).run ((Act.tableStore n
        (4 * s.bucket n key + w) ((s.entry n (4 * s.bucket n key + w)).set (keyWidth n) 1 0)).run s) := by
  cases stamp with
  | none => simp [tableDelete, tableStore, hway]
  | some t => simp [tableDelete, tableStore, hway, hstamp t rfl]

end

/-! ### Table operations by the command register (R279, R280) -/

/-- The machine with the command register busy, its last result not valid any more. -/
def State.cmdBusy (s : State) : State :=
  (Act.setB FWD_CMD_STAT_VALID false).run ((Act.setB FWD_CMD_STAT_BUSY true).run s)

namespace State

variable (s : State)

@[simp] theorem cmdBusy_u : s.cmdBusy.u = s.u := by simp [cmdBusy, Act.setB]

theorem reg_cmdBusy {x : Nat} (hx : FWD_CMD_STAT ≠ x) : s.cmdBusy.reg x = s.reg x :=
  (Act.reg_setF_ne FWD_CMD_STAT_VALID _ _ hx).trans (Act.reg_setF_ne FWD_CMD_STAT_BUSY _ _ hx)

theorem reg_seed_cmdBusy (n : Nat) : s.cmdBusy.reg (FWD_TBLn_SEED n) = s.reg (FWD_TBLn_SEED n) :=
  s.reg_cmdBusy (by unfold FWD_CMD_STAT FWD_TBLn_SEED; omega)

@[simp] theorem mode_cmdBusy : s.cmdBusy.mode = s.mode := mode_congr (s.reg_cmdBusy (by decide))

@[simp] theorem workBeat_cmdBusy : s.cmdBusy.workBeat = s.workBeat :=
  SameWork.workBeat ⟨s.reg_cmdBusy (by decide), s.reg_cmdBusy (by decide), s.reg_cmdBusy (by decide), by simp, by simp⟩

@[simp] theorem entry_cmdBusy : s.cmdBusy.entry = s.entry := entry_congr (by simp)

@[simp] theorem bucket_cmdBusy (n key : Nat) : s.cmdBusy.bucket n key = s.bucket n key :=
  bucket_congr (s.reg_seed_cmdBusy n) key

@[simp] theorem wayOf_cmdBusy (n key : Nat) : s.cmdBusy.wayOf n key = s.wayOf n key :=
  wayOf_congr (by simp) (s.reg_seed_cmdBusy n) key

@[simp] theorem blockDigest_cmdBusy (n blk : Nat) : s.cmdBusy.blockDigest n blk = s.blockDigest n blk :=
  blockDigest_congr (by simp) n blk

end State

/-- What an operation of the command register leaves to be posted when it ends. -/
def Act.tablePost (op n st way b : Nat) (r : Entry) : Act :=
  fwd fun x => { x with cmd := some ⟨st, way, b, r, if op == 7 && st == tblOk && isAir n then some n else none⟩ }

/-- What an operation left stands with the register still busy, where it left the register's status alone. -/
theorem Act.tablePost_posts {R : Reach} {a : Act} (ha : Act.Within R a)
    (hR : R.has FWD_CMD_STAT = false := by decide +kernel) {op n st way b : Nat} {r : Entry} {s : State} :
    ((Act.tablePost op n st way b r).run (a.run s.cmdBusy)).u.fwd.cmd =
      some ⟨st, way, b, r, if op == 7 && st == tblOk && isAir n then some n else none⟩ ∧
    ((Act.tablePost op n st way b r).run (a.run s.cmdBusy)).bit FWD_CMD_STAT_BUSY = true := by
  have hset : State.FldIs FWD_CMD_STAT_BUSY 1 s.cmdBusy :=
    State.FldIs.run (fldIs_setB FWD_CMD_STAT_BUSY true s rfl) .fldSetB
  exact ⟨rfl, (hset.run (.fld ha hR)).bit⟩

theorem Act.entry_tablePost (op n st way b : Nat) (r : Entry) (s : State) :
    ((Act.tablePost op n st way b r).run s).entry = s.entry := rfl

theorem Act.reg_tablePost (op n st way b : Nat) (r : Entry) (s : State) (x : Nat) :
    ((Act.tablePost op n st way b r).run s).reg x = s.reg x := rfl

theorem Act.tables_tablePost (op n st way b : Nat) (r : Entry) (s : State) :
    ((Act.tablePost op n st way b r).run s).u.fwd.tables = s.u.fwd.tables := rfl

/-- A permitted command makes the register busy and does its work. -/
theorem Act.run_tableVia_register {s : State} {iface : HostIface} (hreach : s.reaches iface = true)
    (hpermit : s.permits FWD_CMD = true) (hidle : s.bit FWD_CMD_STAT_BUSY = false) (op n : Nat) (ecc : Option EccFault) :
    (Act.tableVia (.register iface) op n ecc).run s =
      (Act.tableOp true op n (stagedData s) ecc (tablePost op n)).run s.cmdBusy := by
  rw [tableVia, run_permitted hreach hpermit, tableCmdReg, run_read, hidle]
  rfl

section

variable {s : State} {n w : Nat} {e : Entry} (hn : n < 4) (hmode : s.mode.inService = true)
  (k : Nat → Nat → Nat → Entry → Act)
include hn hmode

/-- LOOKUP of a key the table holds is counted, and is a hit (R279). -/
theorem Act.run_tableOp_lookup (hgood : badStaged 1 n e = false) (hway : s.wayOf n (entryKey n e) = some w) :
    (Act.tableOp true 1 n e none k).run s =
      (k tblOk w (s.bucket n (entryKey n e)) (s.entry n (4 * s.bucket n (entryKey n e) + w))).run
        ((Act.seq (wrap (FWD_TBLn_LOOKUP n)) (wrap (FWD_TBLn_HIT n))).run s) := by
  simp [tableOp, hmode, hgood, hway, tableChanges, Nat.not_le.2 hn]

/-- INSERT and UPDATE store the entry, stamped with the age of the beat (R256, R263). -/
theorem Act.run_tableOp_store {op : Nat} (hop : op = 2 ∨ op = 3) (hsolo : s.mode.paired = false)
    (hgood : badStaged op n e = false) (hway : s.wayOf n (entryKey n e) = some w) :
    (Act.tableOp true op n e none k).run s =
      (k tblOk w (s.bucket n (entryKey n e)) (withStamp e (ageNow s.workBeat))).run
        ((Act.tableStore n (4 * s.bucket n (entryKey n e) + w) (withStamp e (ageNow s.workBeat))).run s) := by
  have hinsert := run_tableInsert_held (e := withStamp e (ageNow s.workBeat)) (by rwa [entryKey_withStamp])
  rw [entryKey_withStamp] at hinsert
  rcases hop with rfl | rfl
  · simp [tableOp, hmode, hgood, hsolo, Nat.not_le.2 hn, hinsert, tblOk, tblEvicted]
  · simp [tableOp, hmode, hgood, hsolo, Nat.not_le.2 hn, hway, hinsert]

/-- DELETE, and DELETE_IF_STAMP of an entry that stands with its stamp, clear VALID (R279). -/
theorem Act.run_tableOp_delete {op : Nat} (hop : op = 4 ∨ op = 5) (hsolo : s.mode.paired = false)
    (hgood : badStaged op n e = false) (hway : s.wayOf n (entryKey n e) = some w)
    (hstamp : op = 5 → entryStamp (s.entry n (4 * s.bucket n (entryKey n e) + w)) = entryStamp e) :
    (Act.tableOp true op n e none k).run s =
      (k tblOk w (s.bucket n (entryKey n e)) (s.entry n (4 * s.bucket n (entryKey n e) + w))).run
        ((Act.tableStore n (4 * s.bucket n (entryKey n e) + w)
          ((s.entry n (4 * s.bucket n (entryKey n e) + w)).set (keyWidth n) 1 0)).run s) := by
  rcases hop with rfl | rfl
  · rw [← run_tableDelete_held hway (stamp := none) (by simp)]
    simp [tableOp, hmode, hgood, hsolo, Nat.not_le.2 hn]
  · rw [← run_tableDelete_held hway (stamp := some (entryStamp e)) (by simp [hstamp rfl])]
    simp [tableOp, hmode, hgood, hsolo, Nat.not_le.2 hn]

theorem Act.run_tableOp_readSlot (hslot : e.fld 0 18 < 4 * tableBuckets n) :
    (Act.tableOp true 6 n e none k).run s = (k tblOk (e.fld 0 2) (e.fld 2 16) (s.entry n (e.fld 0 18))).run s := by
  simp [tableOp, hmode, badStaged, tableChanges, Nat.not_le.2 hslot, Nat.not_le.2 hn]

theorem Act.run_tableOp_flush (hsolo : s.mode.paired = false) :
    (Act.tableOp true 7 n e none k).run s = (k tblOk 0 0 0).run ((Act.tableFlush n).run s) := by
  simp [tableOp, hmode, badStaged, hsolo, Nat.not_le.2 hn]

theorem Act.run_tableOp_digest (hblock : e.fld 0 8 < tableBlocks n) :
    (Act.tableOp true 8 n e none k).run s =
      (k tblOk 0 0 (BitVec.ofNat 128 (s.blockDigest n (e.fld 0 8)))).run s := by
  simp [tableOp, hmode, badStaged, tableChanges, Nat.not_le.2 hblock, Nat.not_le.2 hn]

end

theorem Act.Within.tableFlush {n : Nat} : Within (.quiet storeRegs [.fwd]) (Act.tableFlush n) :=
  .seq .units (.sub .tableCount)

/-- Where a LOOKUP that finds its key counts. -/
def hitRegs : List (Nat × Nat) := [(FWD_TBLn_LOOKUP 0, 4), (FWD_TBLn_HIT 0, 4)]

theorem Act.Within.lookupHit {n : Nat} :
    Within (.quiet hitRegs []) (Act.seq (Act.wrap (FWD_TBLn_LOOKUP n)) (Act.wrap (FWD_TBLn_HIT n))) :=
  .seq (.wrap Reach.has_array) (.wrap Reach.has_array)

/-- After a FLUSH no entry of its table is valid but the static ones (R279). -/
theorem Act.invalid_of_tableFlush {n : Nat} {s : State} {e : Nat × Entry}
    (he : e ∈ ((Act.tableFlush n).run s).u.fwd.tables) (htable : e.1 / 2 ^ 18 = n)
    (hdynamic : entryStatic n e.2 = false) : entryValid n e.2 = false := by
  rw [tableFlush, run_seq, tableCount_u] at he
  obtain ⟨x, -, rfl⟩ := List.mem_map.1 he
  split
  · exact entryValid_set_zero n x.2
  · next hkept =>
    rw [if_neg hkept] at htable hdynamic
    rw [htable, hdynamic, beq_self_eq_true, Bool.true_and, Bool.not_false, Bool.and_true] at hkept
    exact Bool.eq_false_iff.2 hkept

section

variable {s : State} {iface : HostIface} {table : Fin 4} {w : Nat}
  (hreach : s.reaches iface = true) (hpermit : s.permits FWD_CMD = true) (hidle : s.bit FWD_CMD_STAT_BUSY = false)
  (hmode : s.mode.inService = true)
include hreach hpermit hidle hmode

/-- R279: LOOKUP finds the entry, and counts a hit. -/
theorem completes_fwdLookup_register (hgood : badStaged 1 table (Act.stagedData s) = false)
    (hway : s.wayOf table (entryKey table (Act.stagedData s)) = some w) :
    Completes (.fwdLookup (.register iface) table none) s fun t =>
      t.u.fwd.cmd = some ⟨tblOk, w, s.bucket table (entryKey table (Act.stagedData s)),
        s.entry table (4 * s.bucket table (entryKey table (Act.stagedData s)) + w), none⟩ ∧
      t.bit FWD_CMD_STAT_BUSY = true ∧ t.reg (FWD_TBLn_HIT table) = s.reg (FWD_TBLn_HIT table) + 1 := by
  refine ⟨_, rfl, ?_⟩
  rw [Act.run_tableVia_register hreach hpermit hidle, Act.run_tableOp_lookup table.isLt (by simpa using hmode) _ hgood
    (by simpa using hway), State.bucket_cmdBusy, State.entry_cmdBusy]
  obtain ⟨hcmd, hbusy⟩ := Act.tablePost_posts Act.Within.lookupHit
  refine ⟨hcmd, hbusy, ?_⟩
  have hbefore : State.RegIs (FWD_TBLn_HIT table) (s.reg (FWD_TBLn_HIT table)) s.cmdBusy :=
    s.reg_cmdBusy (by unfold FWD_CMD_STAT FWD_TBLn_HIT; omega)
  have hlookup : Act.Within (.quiet [(FWD_TBLn_LOOKUP 0, 4)] []) (Act.wrap (FWD_TBLn_LOOKUP table)) :=
    .wrap Reach.has_array
  exact Act.regIs_wrap (hbefore.run (.reg hlookup Reach.lacks_array)) fixedReg_array

/-- R279: READ_SLOT reads a slot of the table. -/
theorem completes_fwdReadSlot_register (hslot : (Act.stagedData s).fld 0 18 < 4 * tableBuckets table) :
    Completes (.fwdReadSlot (.register iface) table) s fun t =>
      t.u.fwd.cmd = some ⟨tblOk, (Act.stagedData s).fld 0 2, (Act.stagedData s).fld 2 16,
        s.entry table ((Act.stagedData s).fld 0 18), none⟩ ∧ t.bit FWD_CMD_STAT_BUSY = true := by
  refine ⟨_, rfl, ?_⟩
  rw [Act.run_tableVia_register hreach hpermit hidle, Act.run_tableOp_readSlot table.isLt (by simpa using hmode) _ hslot,
    State.entry_cmdBusy]
  exact Act.tablePost_posts (R := .quiet [] []) .nop

/-- R270: DIGEST digests a block of the table. -/
theorem completes_fwdDigest_register (hblock : (Act.stagedData s).fld 0 8 < tableBlocks table) :
    Completes (.fwdDigest (.register iface) table) s fun t =>
      t.u.fwd.cmd = some ⟨tblOk, 0, 0,
        BitVec.ofNat 128 (s.blockDigest table ((Act.stagedData s).fld 0 8)), none⟩ ∧
      t.bit FWD_CMD_STAT_BUSY = true := by
  refine ⟨_, rfl, ?_⟩
  rw [Act.run_tableVia_register hreach hpermit hidle, Act.run_tableOp_digest table.isLt (by simpa using hmode) _ hblock,
    State.blockDigest_cmdBusy]
  exact Act.tablePost_posts (R := .quiet [] []) .nop

section

variable (hsolo : s.mode.paired = false)
include hsolo

/-- R256, R263: what INSERT and UPDATE of a held key leave. -/
theorem tableVia_store_register {op : Nat} (hop : op = 2 ∨ op = 3)
    (hgood : badStaged op table (Act.stagedData s) = false)
    (hway : s.wayOf table (entryKey table (Act.stagedData s)) = some w) {t : State}
    (ht : (Act.tableVia (.register iface) op table none).run s = t) :
    t.u.fwd.cmd = some ⟨tblOk, w, s.bucket table (entryKey table (Act.stagedData s)),
      withStamp (Act.stagedData s) (ageNow s.workBeat), none⟩ ∧
    t.bit FWD_CMD_STAT_BUSY = true ∧
    t.entry table (4 * s.bucket table (entryKey table (Act.stagedData s)) + w) =
      withStamp (Act.stagedData s) (ageNow s.workBeat) := by
  rw [Act.run_tableVia_register hreach hpermit hidle, Act.run_tableOp_store table.isLt (by simpa using hmode) _ hop
    (by simpa using hsolo) hgood (by simpa using hway), State.bucket_cmdBusy, State.workBeat_cmdBusy] at ht
  subst ht
  obtain ⟨hcmd, hbusy⟩ := Act.tablePost_posts Act.Within.tableStore
  refine ⟨?_, hbusy, ?_⟩
  · rcases hop with rfl | rfl
    · exact hcmd
    · exact hcmd
  · rw [Act.entry_tablePost, Act.entry_tableStore]

/-- R279: what DELETE and DELETE_IF_STAMP of a held key leave. -/
theorem tableVia_delete_register {op : Nat} (hop : op = 4 ∨ op = 5)
    (hgood : badStaged op table (Act.stagedData s) = false)
    (hway : s.wayOf table (entryKey table (Act.stagedData s)) = some w)
    (hstamp : op = 5 → entryStamp (s.entry table (4 * s.bucket table (entryKey table (Act.stagedData s)) + w)) =
      entryStamp (Act.stagedData s)) {t : State} (ht : (Act.tableVia (.register iface) op table none).run s = t) :
    t.u.fwd.cmd = some ⟨tblOk, w, s.bucket table (entryKey table (Act.stagedData s)),
      s.entry table (4 * s.bucket table (entryKey table (Act.stagedData s)) + w), none⟩ ∧
    t.bit FWD_CMD_STAT_BUSY = true ∧
    t.entry table (4 * s.bucket table (entryKey table (Act.stagedData s)) + w) =
      (s.entry table (4 * s.bucket table (entryKey table (Act.stagedData s)) + w)).set (keyWidth table) 1 0 := by
  rw [Act.run_tableVia_register hreach hpermit hidle, Act.run_tableOp_delete table.isLt (by simpa using hmode) _ hop
    (by simpa using hsolo) hgood (by simpa using hway) (by simpa using hstamp), State.bucket_cmdBusy,
    State.entry_cmdBusy] at ht
  subst ht
  obtain ⟨hcmd, hbusy⟩ := Act.tablePost_posts Act.Within.tableStore
  refine ⟨?_, hbusy, ?_⟩
  · rcases hop with rfl | rfl
    · exact hcmd
    · exact hcmd
  · rw [Act.entry_tablePost, Act.entry_tableStore]

/-- R279: FLUSH leaves no valid entry but the static ones. -/
theorem completes_fwdFlush_register :
    Completes (.fwdFlush (.register iface) table) s fun t =>
      t.bit FWD_CMD_STAT_BUSY = true ∧
      t.u.fwd.cmd = some ⟨tblOk, 0, 0, 0, if isAir table then some table.val else none⟩ ∧
      ∀ e ∈ t.u.fwd.tables, e.1 / 2 ^ 18 = table → entryStatic table e.2 = false → entryValid table e.2 = false := by
  refine ⟨_, rfl, ?_⟩
  rw [Act.run_tableVia_register hreach hpermit hidle, Act.run_tableOp_flush table.isLt (by simpa using hmode) _
    (by simpa using hsolo)]
  obtain ⟨hcmd, hbusy⟩ := Act.tablePost_posts Act.Within.tableFlush
  rw [Act.tables_tablePost]
  exact ⟨hbusy, hcmd, fun e he => Act.invalid_of_tableFlush he⟩

end

end

/-! ### The end of an operation of the command register (R280, R285) -/

/-- What the command register shows of an operation that has ended, its result aside. -/
def Act.tableShow (x : FwdCmd) : Act :=
  all [setF FWD_CMD_STAT_STATUS x.status, setF FWD_CMD_STAT_WAY x.way, setF FWD_CMD_STAT_BUCKET x.bucket,
    setB FWD_CMD_STAT_BUSY false, setB FWD_CMD_STAT_VALID true, fwd fun y => { y with cmd := none }]

theorem Act.Within.tableShow {x : FwdCmd} : Within (.quiet [(FWD_CMD_STAT, 1)] [.fwd]) (Act.tableShow x) :=
  .all ⟨.setF, .setF, .setF, .setB, .setB, .units⟩

theorem Act.fldIs_tableShow_status (x : FwdCmd) (s : State) :
    State.FldIs FWD_CMD_STAT_STATUS (x.status % 16) ((Act.tableShow x).run s) := by
  rw [tableShow, run_all_cons]
  exact State.FldIs.run (fld_setF_same FWD_CMD_STAT_STATUS _ s rfl (by decide))
    (.all ⟨.fldSetF, .fldSetF, .fldSetB, .fldSetB, .fldUnits⟩)

theorem Act.fldIs_tableShow_busy (x : FwdCmd) (s : State) :
    State.FldIs FWD_CMD_STAT_BUSY 0 ((Act.tableShow x).run s) := by
  rw [tableShow, run_all_cons, run_all_cons, run_all_cons, run_all_cons]
  exact (fldIs_setB FWD_CMD_STAT_BUSY false _ rfl).run (.all ⟨.fldSetB, .fldUnits⟩)

theorem Act.fldIs_tableShow_valid (x : FwdCmd) (s : State) :
    State.FldIs FWD_CMD_STAT_VALID 1 ((Act.tableShow x).run s) := by
  rw [tableShow, run_all_cons, run_all_cons, run_all_cons, run_all_cons, run_all_cons]
  exact (fldIs_setB FWD_CMD_STAT_VALID true _ rfl).run (.all (l := [_]) .fldUnits)

theorem Act.cmd_tableShow (x : FwdCmd) (s : State) : ((Act.tableShow x).run s).u.fwd.cmd = none := by
  rw [tableShow, run_all_cons, run_all_cons, run_all_cons, run_all_cons, run_all_cons, run_all_cons, run_all_nil]
  rfl

/-- The words of a result (R285). -/
def Act.tableResult (res : Entry) : Act :=
  each (List.range 4) fun i => .reg (FWD_RESx i) (BitVec.ofNat 32 (Entry.fld res (32 * i) 32))

theorem Act.reg_tableResult (res : Entry) (s : State) {i : Nat} (hi : i ∈ List.range 4) :
    ((Act.tableResult res).run s).reg (FWD_RESx i) = BitVec.ofNat 32 (res.toNat / 2 ^ (32 * i)) := by
  have hword : BitVec.ofNat 32 (Entry.fld res (32 * i) 32) = BitVec.ofNat 32 (res.toNat / 2 ^ (32 * i)) :=
    BitVec.eq_of_toNat_eq (by simp [Entry.fld])
  have hset (q : State) : State.RegIs (FWD_RESx i) (BitVec.ofNat 32 (Entry.fld res (32 * i) 32))
      ((Act.reg (FWD_RESx i) (BitVec.ofNat 32 (Entry.fld res (32 * i) 32))).run q) :=
    State.reg_setReg_same _ _ _ fixedReg_array
  suffices hrun : State.RegIs (FWD_RESx i) (BitVec.ofNat 32 (Entry.fld res (32 * i) 32)) ((tableResult res).run s) from
    hrun.trans hword
  refine Act.run_each_of_mem hi hset (fun j hj q hq => ?_) s
  by_cases hij : j = i
  · subst hij
    exact hset q
  · refine (State.reg_setReg_ne _ _ ?_).trans hq
    have hi := List.mem_range.1 hi
    have hj := List.mem_range.1 hj
    unfold FWD_RESx
    omega

/-- R280: the end of an operation posts its status and its result, with VALID. -/
theorem completes_fwdOpComplete {s : State} {x : FwdCmd} (hx : s.u.fwd.cmd = some x) :
    Completes .fwdOpComplete s fun t =>
      t.bit FWD_CMD_STAT_BUSY = false ∧ t.bit FWD_CMD_STAT_VALID = true ∧ t.u.fwd.cmd = none ∧
      t.fld FWD_CMD_STAT_STATUS = x.status % 16 ∧
      ∀ i ∈ List.range 4, t.reg (FWD_RESx i) = BitVec.ofNat 32 (x.res.toNat / 2 ^ (32 * i)) := by
  refine ⟨(Act.tableShow x).run ((Act.tableResult x.res).run s), ?_, ?_⟩
  · change execFwdOpComplete s = _
    rw [execFwdOpComplete, hx, State.act_eq, Act.run_all_cons]
    rfl
  refine ⟨?_, ?_, ?_, ?_, fun i hi => ?_⟩
  · exact (Act.fldIs_tableShow_busy x _).bit
  · exact (Act.fldIs_tableShow_valid x _).bit
  · exact Act.cmd_tableShow x _
  · exact Act.fldIs_tableShow_status x _
  · exact State.RegIs.run (Act.reg_tableResult x.res s hi) (.reg Act.Within.tableShow Reach.lacks_array)

/-- Settles O19: each command passes the checks by its hypotheses and is its one update of the tables, which leaves the
register busy; the end posts field by field. -/
theorem tableCommands : Obligations.TableCommands := by
  unfold Obligations.TableCommands
  refine ⟨?_, ?_, ?_, ?_, ?_, ?_, ?_, ?_, fun s x hx => completes_fwdOpComplete hx⟩
  · exact fun s iface table w hr hp hi hm hgood hway => completes_fwdLookup_register hr hp hi hm hgood hway
  · exact fun s iface table w hr hp hi hm hsolo hgood hway =>
      ⟨_, rfl, tableVia_store_register hr hp hi hm hsolo (.inl rfl) hgood hway rfl⟩
  · exact fun s iface table w hr hp hi hm hsolo hgood hway =>
      ⟨_, rfl, tableVia_store_register hr hp hi hm hsolo (.inr rfl) hgood hway rfl⟩
  · exact fun s iface table w hr hp hi hm hsolo hgood hway =>
      ⟨_, rfl, tableVia_delete_register hr hp hi hm hsolo (.inl rfl) hgood hway nofun rfl⟩
  · exact fun s iface table w hr hp hi hm hsolo hgood hway hstamp =>
      ⟨_, rfl, tableVia_delete_register hr hp hi hm hsolo (.inr rfl) hgood hway (fun _ => hstamp) rfl⟩
  · exact fun s iface table hr hp hi hm hslot => completes_fwdReadSlot_register hr hp hi hm hslot
  · exact fun s iface table hr hp hi hm hsolo => completes_fwdFlush_register hr hp hi hm hsolo
  · exact fun s iface table hr hp hi hm hblock => completes_fwdDigest_register hr hp hi hm hblock

end Sys2Proof.Machine


namespace Sys2Proof.Machine

set_option Elab.async false

open Sys2Proof Sys2Proof.Reg

/-! ### The end of a command of the ring (R613, R623) -/

theorem Act.Stores.journal {c : HostCmd} {status : Nat} {final : Bool} :
    Act.Stores (.quiet [] [.pair]) (Act.journal c status final) :=
  read fun _ => seq (within .logUpdate) memBytes

/-- The commands taken and not completed. -/
def State.CmdsAre (l : List HostCmd) (s : State) : Prop := s.u.hif.cmds = l

/-- Where the next completion of the ring is written. -/
abbrev cplProd : Field := ⟨HIF_CPL_PROD, 0, 12⟩

theorem State.CmdsAre.run {l : List HostCmd} {s : State} {a : Act} (h : State.CmdsAre l s)
    (ha : Act.Keeps (State.CmdsAre l) a) : State.CmdsAre l (a.run s) := ha s h

theorem Finished.of_eq {c : HostCmd} {s r t : State} (h : Finished c r t) (hhif : r.u.hif = s.u.hif)
    (hprod : r.reg HIF_CPL_PROD = s.reg HIF_CPL_PROD) : Finished c s t := by
  unfold Finished State.fld at *
  rwa [← hhif, ← hprod]

namespace Act.Keeps

variable {l : List HostCmd}

theorem cmdsStores {R : Reach} {a : Act} (h : Act.Stores R a) (hhif : .hif ∉ R.units := by decide) :
    Keeps (State.CmdsAre l) a := fun s hs => (congrArg Hif.cmds ((h s).units .hif hhif)).symm.trans hs

theorem cmdsHif {f : Hif → Hif} (h : ∀ x, (f x).cmds = x.cmds := by exact fun _ => rfl) :
    Keeps (State.CmdsAre l) (Act.hif f) := fun s hs => (h s.u.hif).trans hs

/-- A completion written leaves the commands that are outstanding. -/
theorem cmdsCompletionEntry {c : HostCmd} {status : Nat} {res : CmdResult} :
    Keeps (State.CmdsAre l) (Act.completionEntry c status res) :=
  have quiet {a : Act} (h : Act.Stores (.events [(HIF_CPL_PROD, 1), (HIF_STATUS, 1)] []) a) :
      Keeps (State.CmdsAre l) a := cmdsStores h
  read fun _ => all ⟨quiet .memBytes, quiet .memBytes, quiet .setF, cmdsHif, ite cmdsHif (quiet .raiseOnce), quiet .setF,
    quiet <| .read fun _ => .all ⟨.setB, .setB⟩⟩

end Act.Keeps

/-- R613: a completion written moves the ring one entry on. -/
theorem Act.fldIs_completionEntry (c : HostCmd) (status : Nat) (res : CmdResult) (s : State) :
    State.FldIs cplProd ((s.fld cplProd + 1) % 4096) ((Act.completionEntry c status res).run s) := by
  have hset (q : State) : State.FldIs cplProd ((s.fld cplProd + 1) % 4096)
      ((setF cplProd (s.fld cplProd + 1)).run q) := fld_setF_same cplProd _ q rfl (by decide)
  rw [completionEntry, run_read, run_all_cons, run_all_cons, run_all_cons]
  exact (hset _).run (.all ⟨.fldUnits, .ite .fldUnits (.fld (R := .events [] []) .raiseOnce rfl), .fldSetF,
    .read fun _ => .all ⟨.fld (R := .quiet [(HIF_STATUS, 1)] []) .setB rfl,
      .fld (R := .quiet [(HIF_STATUS, 1)] []) .setB rfl⟩⟩)

/-- R613, R623: a command of the ring that is not mirrored completes. -/
theorem Act.finished_complete {c : HostCmd} (hown : c.mirrored = false) (status : Nat) (res : CmdResult) (s : State) :
    Finished c s ((Act.complete c status res).run s) := by
  rw [complete, run_all_cons, run_all_cons, run_all_cons, run_all_cons, run_all_nil, run_read, hown, Bool.not_false,
    Bool.true_or, run_when (c := true), if_pos rfl]
  obtain ⟨q, hq⟩ : ∃ q, (when (Nat.blt 0 c.seq) (journal c status true)).run s = q := ⟨_, rfl⟩
  have hjournal : Act.Stores (.quiet [] [.pair]) (when (Nat.blt 0 c.seq) (journal c status true)) := .when .journal
  have hcmds : State.CmdsAre s.u.hif.cmds q := hq ▸ State.CmdsAre.run rfl (.cmdsStores hjournal)
  have hprod : q.fld cplProd = s.fld cplProd := by
    rw [State.fld, State.fld, ← hq, hjournal.reg_eq rfl]
  have hlate : Act.Within (.quiet [(HIF_CMD_LATE, 1)] []) (when (Nat.beq status stLate) (sat HIF_CMD_LATE)) :=
    .when .sat
  rw [hq]
  constructor
  · have hentry : State.CmdsAre s.u.hif.cmds ((completionEntry c status res).run q) := hcmds.run .cmdsCompletionEntry
    exact congrArg (List.filter _) (hentry.run (.cmdsStores (R := .quiet [(HIF_CMD_LATE, 1)] []) (.within hlate)))
  · have hentry := fldIs_completionEntry c status res q
    rw [hprod] at hentry
    exact (hentry.run (.fld hlate rfl)).run .fldUnits

/-- A command that waits at its index with its opcode is carried out. -/
theorem Act.run_hostCmd {s : State} {i : Nat} {ok : Nat → Bool} {c : HostCmd} (h : s.cmdAt i ok = some c)
    (k : HostCmd → Act) : (Act.hostCmd i ok k).run s = (k c).run s := by
  rw [hostCmd, run_read, h]

/-! ### What a table operation may do before it answers (R263, R272, R279) -/

/-- Where a table operation shows (R282). -/
def tableRegs : List (Nat × Nat) :=
  learnRegs ++ [(FWD_TBLn_LOOKUP 0, 4), (FWD_TBLn_ECC_CORR 0, 4), (FWD_TBLn_ECC_UNC 0, 4)]

/-- A program that completes a command of the ring, wherever it is run. -/
def Act.Finishes (c : HostCmd) (a : Act) : Prop := ∀ s, Finished c s (a.run s)

namespace Act.Finishes

variable {c : HostCmd} {a b : Act} {l : List Act}

/-- A program within the tables leaves the rings alone. -/
theorem seq (ha : Act.Stores (.events tableRegs [.fwd]) a) (hb : Finishes c b) : Finishes c (.seq a b) := fun s =>
  (hb (a.run s)).of_eq ((ha s).units .hif (by decide)).symm (ha.reg_eq (by decide +kernel) s)

theorem cons (ha : Act.Stores (.events tableRegs [.fwd]) a) (hl : Finishes c (.all l)) : Finishes c (.all (a :: l)) :=
  seq ha hl

theorem last (ha : Finishes c a) : Finishes c (.all [a]) := ha
theorem read {k : State → Act} (h : ∀ s, Finishes c (k s)) : Finishes c (.read k) := fun s => h s s

theorem ite {p : Prop} [Decidable p] (ha : Finishes c a) (hb : Finishes c b) : Finishes c (if p then a else b) := by
  split <;> assumption

variable {k : Nat → Nat → Nat → Entry → Act} (hk : ∀ st way b e, Finishes c (k st way b e))
include hk

theorem tableInsert {n : Nat} {e : Entry} : Finishes c (Act.tableInsert n e k) := by
  have put {slot : Nat} : Act.Stores (.events tableRegs [.fwd]) (.seq (Act.entry n slot e) (Act.tableCount n)) :=
    .seq (.within .entry) (.within .tableCount)
  refine read fun _ => ?_
  dsimp only
  split
  · exact seq put (hk _ _ _ _)
  · split
    · exact seq put (hk _ _ _ _)
    · split
      · exact cons (.sat Reach.has_array) <| cons .raiseOnce <| last (hk _ _ _ _)
      · exact cons (.when .units) <| cons (.sat Reach.has_array) <| cons put <| last (hk _ _ _ _)

theorem tableDelete {n key : Nat} {stamp : Option Nat} : Finishes c (Act.tableDelete n key stamp k) := by
  refine read fun _ => ?_
  split
  · exact hk _ _ _ _
  · exact ite (hk _ _ _ _) <| cons (.within .entry) <| cons (.within .tableCount) <| last (hk _ _ _ _)

/-- R279: a table operation completes the command that asks for it, whatever it finds. -/
theorem tableOp {direct : Bool} {op n : Nat} {e : Entry} : Finishes c (Act.tableOp direct op n e none k) := by
  refine read fun _ => ite (hk _ _ _ _) <| ite (hk _ _ _ _) <| ite (hk _ _ _ _) <| ite (hk _ _ _ _) <| ite ?lookup <|
    ite (tableInsert fun _ _ _ _ => hk _ _ _ _) <| ite (ite (hk _ _ _ _) <| tableInsert fun _ _ _ _ => hk _ _ _ _) <|
    ite (tableDelete hk) <| ite (tableDelete hk) <| ite (hk _ _ _ _) <|
    ite (seq (.within .tableFlush) (hk _ _ _ _)) (hk _ _ _ _)
  case lookup =>
    refine seq (.wrap Reach.has_array) ?_
    split
    · exact hk _ _ _ _
    · exact seq (.wrap Reach.has_array) (hk _ _ _ _)

end Act.Finishes

/-- R619, R620: a taken table command of its table completes. -/
theorem finished_tableVia_ring {s : State} {index : Fin 4096} {op n : Nat} {c : HostCmd}
    (hcmd : s.cmdAt index.val (fun o => o == 0x0100 + op) = some c) (hown : c.mirrored = false) (htable : c.arg 0 1 = n) :
    Finished c s ((Act.tableVia (.ring index) op n none).run s) := by
  rw [Act.tableVia, Act.run_hostCmd hcmd, htable, Nat.beq_refl, Act.run_when, if_pos rfl]
  exact Act.Finishes.tableOp (fun _ _ _ _ => Act.finished_complete hown _ _) s

/-- Settles O20: each is one table operation whose every branch ends in the command's completion. -/
theorem tableCommandsOfTheRing : Obligations.TableCommandsOfTheRing := by
  unfold Obligations.TableCommandsOfTheRing
  refine ⟨?_, ?_, ?_, ?_, ?_, ?_, ?_, ?_⟩ <;>
    exact fun _ _ _ _ hcmd hown htable => ⟨_, rfl, finished_tableVia_ring hcmd hown htable⟩

end Sys2Proof.Machine


namespace Sys2Proof.Machine

set_option Elab.async false

open Sys2Proof Sys2Proof.Reg

theorem Act.run_each_singleton {α : Type} (x : α) (f : α → Act) (s : State) :
    (Act.each [x] f).run s = (f x).run s := rfl

theorem Act.tables_tableCount (n : Nat) (s : State) : ((Act.tableCount n).run s).u.fwd.tables = s.u.fwd.tables := by
  rw [tableCount_u]

/-! ### The delete phase of a sweep (R265) -/

/-- What the delete phase does of an entry it has deleted. -/
def Act.aged (n : Nat) (e : Entry) : Act :=
  .seq (wrap (FWD_TBLn_AGED n)) (.seq (recordInput 9) (fwd fun x => { x with swept := x.swept ++ [(n, e)] }))

/-- The end of the delete phase. -/
def Act.sweepEnd : Act := .seq (fwd fun x => { x with expired := [] }) (setB FWD_STATUS_SWEEP false)

theorem Act.tables_aged (n : Nat) (e : Entry) (s : State) : ((Act.aged n e).run s).u.fwd.tables = s.u.fwd.tables := by
  have hrecord (q : State) : ((recordInput 9).run q).u.fwd = q.u.fwd :=
    (((Act.Within.recordInput (kind := 9)).fits q).units .fwd (by decide)).symm
  rw [aged, run_seq, run_seq]
  change ((recordInput 9).run ((wrap (FWD_TBLn_AGED n)).run s)).u.fwd.tables = _
  rw [hrecord, wrap, wrapBy_u]

theorem Act.regIs_aged (n : Nat) (e : Entry) (s : State) :
    State.RegIs (FWD_TBLn_AGED n) (s.reg (FWD_TBLn_AGED n) + 1) ((Act.aged n e).run s) :=
  (regIs_wrap rfl fixedReg_array).run (.seq (.reg .recordInput rfl) .regUnits)

theorem Act.tables_sweepEnd (s : State) : (Act.sweepEnd.run s).u.fwd.tables = s.u.fwd.tables := by
  rw [sweepEnd, run_seq, setB, setF_u]
  rfl

theorem Act.expired_sweepEnd (s : State) : (Act.sweepEnd.run s).u.fwd.expired = [] := by
  rw [sweepEnd, run_seq, setB, setF_u]
  rfl

theorem Act.bit_sweepEnd (s : State) : (Act.sweepEnd.run s).bit FWD_STATUS_SWEEP = false := by
  rw [sweepEnd, run_seq]
  exact (fldIs_setB FWD_STATUS_SWEEP false _ rfl).bit

theorem Act.Within.sweepEnd : Within (.quiet [(FWD_STATUS, 1)] [.fwd]) Act.sweepEnd := .seq .units .setB

/-- R265: an expired entry that stands with its stamp is deleted and counted. -/
theorem exec_ageingDeletePhase {s : State} {n w : Nat} {e : Entry} (hexpired : s.u.fwd.expired = [(n, e)])
    (hway : s.wayOf n (entryKey n e) = some w)
    (hstamp : entryStamp (s.entry n (4 * s.bucket n (entryKey n e) + w)) = entryStamp e) :
    exec .ageingDeletePhase s = .next (Act.sweepEnd.run ((Act.aged n e).run
      ((Act.tableStore n (4 * s.bucket n (entryKey n e) + w)
        ((s.entry n (4 * s.bucket n (entryKey n e) + w)).set (keyWidth n) 1 0)).run s))) := by
  change execAgeingDeletePhase s = _
  rw [execAgeingDeletePhase, hexpired, State.act_eq, Act.run_all_cons,
    Act.run_each_singleton, Act.run_tableDelete_held hway (by simp [hstamp]), if_pos rfl]
  rfl

theorem completes_ageingDeletePhase {s : State} {n w : Nat} {e : Entry} (hexpired : s.u.fwd.expired = [(n, e)])
    (hway : s.wayOf n (entryKey n e) = some w)
    (hstamp : entryStamp (s.entry n (4 * s.bucket n (entryKey n e) + w)) = entryStamp e) :
    Completes .ageingDeletePhase s fun t =>
      t.u.fwd.expired = [] ∧ t.bit FWD_STATUS_SWEEP = false ∧
      t.reg (FWD_TBLn_AGED n) = s.reg (FWD_TBLn_AGED n) + 1 ∧
      entryValid n (t.entry n (4 * s.bucket n (entryKey n e) + w)) = false := by
  refine ⟨_, exec_ageingDeletePhase hexpired hway hstamp, Act.expired_sweepEnd _,
    Act.bit_sweepEnd _, ?_, ?_⟩
  · have hbefore : State.RegIs (FWD_TBLn_AGED n) (s.reg (FWD_TBLn_AGED n)) ((Act.tableStore n
        (4 * s.bucket n (entryKey n e) + w)
        ((s.entry n (4 * s.bucket n (entryKey n e) + w)).set (keyWidth n) 1 0)).run s) :=
      State.RegIs.run rfl (.reg .tableStore Reach.lacks_array)
    rw [← hbefore]
    exact (Act.regIs_aged n e _).run (.reg .sweepEnd Reach.lacks_array)
  · rw [State.entry_congr ((Act.tables_sweepEnd _).trans (Act.tables_aged n e _)), Act.entry_tableStore]
    exact entryValid_set_zero n _

/-! ### A block taken from the partner (R271) -/

/-- R271: the entries of a block stored one after the other stand in its slots. -/
theorem Act.entry_each_zipIdx (n base : Nat) (es : List Entry) (s : State) {i : Nat} (hi : i < es.length) :
    ((Act.each es.zipIdx fun e => Act.entry n (base + e.2) e.1).run s).entry n (base + i) = es.getD i 0 := by
  refine Act.run_each_of_mem (P := fun q => q.entry n (base + i) = es.getD i 0) (i := (es[i], i))
    (List.mem_zipIdx_iff_getElem?.2 (by simp [hi])) (fun q => ?_) (fun p hp q hq => ?_) s
  · rw [Act.entry_entry, if_pos rfl]
    simp [hi]
  · change ((Act.entry n (base + p.2) p.1).run q).entry n (base + i) = _
    rw [Act.entry_entry]
    split
    · next hslot =>
      have hat : es[p.2]? = some p.1 := List.mem_zipIdx_iff_getElem?.1 hp
      rw [← Nat.add_left_cancel hslot, List.getD_eq_getElem?_getD, hat, Option.getD_some]
    · exact hq

/-- The end of a resync. -/
def Act.resyncEnd : Act := .seq (fwd fun x => { x with resync := [] }) (setB FWD_STATUS_RESYNC false)

theorem Act.tables_resyncEnd (s : State) : (Act.resyncEnd.run s).u.fwd.tables = s.u.fwd.tables := by
  rw [resyncEnd, run_seq, setB, setF_u]
  rfl

theorem Act.resync_resyncEnd (s : State) : (Act.resyncEnd.run s).u.fwd.resync = [] := by
  rw [resyncEnd, run_seq, setB, setF_u]
  rfl

theorem Act.bit_resyncEnd (s : State) : (Act.resyncEnd.run s).bit FWD_STATUS_RESYNC = false := by
  rw [resyncEnd, run_seq]
  exact (fldIs_setB FWD_STATUS_RESYNC false _ rfl).bit

/-- R271: a block that waits takes the place of the unit's own. -/
theorem exec_blockResyncApply {s : State} {b : BlockResync} (hresync : s.u.fwd.resync = [b]) :
    exec .blockResyncApply s = .next (Act.resyncEnd.run ((Act.tableCount b.table).run
      ((Act.each b.entries.zipIdx fun e => Act.entry b.table (1024 * b.block + e.2) e.1).run s))) := by
  change execBlockResyncApply s = _
  rw [execBlockResyncApply, hresync, State.act_eq, Act.run_all_cons, Act.run_each_singleton,
    Act.run_seq]
  rfl

theorem completes_blockResyncApply {s : State} {b : BlockResync} (hresync : s.u.fwd.resync = [b]) :
    Completes .blockResyncApply s fun t =>
      t.u.fwd.resync = [] ∧ t.bit FWD_STATUS_RESYNC = false ∧
      ∀ i ∈ List.range b.entries.length, t.entry b.table (1024 * b.block + i) = b.entries.getD i 0 := by
  refine ⟨_, exec_blockResyncApply hresync, Act.resync_resyncEnd _, Act.bit_resyncEnd _, fun i hi => ?_⟩
  rw [State.entry_congr ((Act.tables_resyncEnd _).trans (Act.tables_tableCount _ _))]
  exact Act.entry_each_zipIdx _ _ _ s (List.mem_range.1 hi)

/-- Settles O22: the sweep's one expired entry is deleted as a held key is, and the block's entries are stored slot by
slot. -/
theorem sweepAndResync : Obligations.SweepAndResync := by
  unfold Obligations.SweepAndResync
  exact ⟨fun _ _ _ _ hexpired hway hstamp => completes_ageingDeletePhase hexpired hway hstamp,
    fun _ _ hresync => completes_blockResyncApply hresync⟩

end Sys2Proof.Machine

namespace Sys2Proof.Machine

set_option Elab.async false

open Sys2Proof Sys2Proof.Reg

/-! ### Frames taken in their turn (R471, R472) -/

/-- The machine once a frame of the link is taken: the next in turn is the one after it. -/
def State.tookFrame (s : State) (lseq : BitVec 32) : State :=
  (Act.pair fun p => { p with lseqIn := some ((lseq.toNat + 1) % 2 ^ 32), asked := false }).run s

/-- The next frame wanted from the partner. -/
def State.NextFrame (n : Nat) (s : State) : Prop := s.u.pair.lseqIn = some n

theorem State.NextFrame.run {n : Nat} {s : State} {a : Act} (h : State.NextFrame n s)
    (ha : Act.Keeps (State.NextFrame n) a) : State.NextFrame n (a.run s) := ha s h

namespace State

variable (s : State) (lseq : BitVec 32)

theorem nextFrame_tookFrame : NextFrame ((lseq.toNat + 1) % 2 ^ 32) (s.tookFrame lseq) := rfl

@[simp] theorem bit_tookFrame (f : Field) : (s.tookFrame lseq).bit f = s.bit f := rfl
@[simp] theorem mode_tookFrame : (s.tookFrame lseq).mode = s.mode := rfl
@[simp] theorem pstate_tookFrame : (s.tookFrame lseq).pstate = s.pstate := rfl
@[simp] theorem live_tookFrame : (s.tookFrame lseq).live = s.live := rfl
@[simp] theorem shadows_tookFrame : (s.tookFrame lseq).shadows = s.shadows := rfl
@[simp] theorem execd_tookFrame : (s.tookFrame lseq).u.pair.execd = s.u.pair.execd := rfl
@[simp] theorem syncFrom_tookFrame : (s.tookFrame lseq).u.pair.syncFrom = s.u.pair.syncFrom := rfl
@[simp] theorem frames_tookFrame : (s.tookFrame lseq).u.rx.frames = s.u.rx.frames := rfl
@[simp] theorem workBeat_tookFrame : (s.tookFrame lseq).workBeat = s.workBeat := rfl
@[simp] theorem nearBeat_tookFrame (low : Nat) : (s.tookFrame lseq).nearBeat low = s.nearBeat low := rfl
@[simp] theorem sampleNs_tookFrame (i : Nat) : (s.tookFrame lseq).sampleNs i = s.sampleNs i := rfl
@[simp] theorem matchesHeard_tookFrame (x : AirRx) : (s.tookFrame lseq).matchesHeard x = s.matchesHeard x := rfl

/-- R481: a shadow takes what belongs to the record of a beat it has not executed. -/
theorem takesRecord_tookFrame {beat : Nat} (hshadow : s.pstate = 5) (hcoming : s.u.pair.execd < beat) :
    (s.tookFrame lseq).takesRecord beat = true := by simp [takesRecord, hshadow, hcoming]

end State

/-- R490: digests are compared once the unit's own are formed. -/
theorem Act.run_digestCompare_none {s : State} {beat : Nat}
    (hown : (s.u.pair.own.find? fun d => d.beat == beat) = none) : (Act.digestCompare beat).run s = s := by
  rw [digestCompare, run_read, hown]
  rfl

/-! ### What leaves the next frame wanted -/

namespace Act.Keeps

variable {n : Nat}

theorem nextFrame {R : Reach} {a : Act} (h : Act.Within R a) (hpair : .pair ∉ R.units := by decide) :
    Keeps (State.NextFrame n) a := fun s hs => by
  rwa [State.NextFrame, ← (h.fits s).units .pair hpair]

theorem nextFramePair {f : Pair → Pair} (h : ∀ p, (f p).lseqIn = p.lseqIn := by exact fun _ => rfl) :
    Keeps (State.NextFrame n) (Act.pair f) := fun s hs => (h s.u.pair).trans hs

theorem nextFrameLinkSend {b : LinkBody} : Keeps (State.NextFrame n) (Act.linkSend b) :=
  read fun _ => when nextFramePair

theorem nextFrameRecordInput {kind : Nat} : Keeps (State.NextFrame n) (Act.recordInput kind) :=
  read fun _ => when <| seq nextFrameLinkSend <| nextFramePair fun p => by split <;> rfl

theorem nextFrameRxIn {x : AirRx} {beat : Nat} : Keeps (State.NextFrame n) (Act.rxIn x beat) :=
  read fun _ => seq (fun _ hs => hs) nextFramePair

theorem nextFrameWrap {x : Nat} : Keeps (State.NextFrame n) (Act.wrap x) := fun s hs => by
  rwa [State.NextFrame, Act.wrap, Act.wrapBy_u]

end Act.Keeps

/-! ### What a unit does with some of the frames -/

/-- R485: a codeword of a frame is decoded again, with other LLRs. -/
def Act.decodeAgain (id : Nat) (codeword : Fin 16) (beat iter : Nat) (llrs : List Int) : Act :=
  .seq (rxFrame id fun g => { g with
      settled := false
      cws := g.cws.zipIdx.map fun d => if d.2 = codeword.val then { d.1 with result := .waiting, llrs := llrs } else d.1 })
    (.seq (rx fun x => { x with reqs := x.reqs ++ [⟨id, codeword, beat, none, iter, llrs, none⟩] }) poolStat)

theorem Act.reqs_decodeAgain (id : Nat) (codeword : Fin 16) (beat iter : Nat) (llrs : List Int) (s : State) :
    ((Act.decodeAgain id codeword beat iter llrs).run s).u.rx.reqs.length = s.u.rx.reqs.length + 1 := by
  rw [decodeAgain, run_seq, run_seq, Act.Within.poolStat.rx]
  exact List.length_append

theorem Act.Keeps.nextFrameDecodeAgain {n id beat iter : Nat} {codeword : Fin 16} {llrs : List Int} :
    Act.Keeps (State.NextFrame n) (Act.decodeAgain id codeword beat iter llrs) :=
  .seq (.nextFrame .rxFrame) <| .seq (fun _ hs => hs) (.nextFrame .poolStat)

/-- R486: an armed standby has the step that its time frame asks for waiting. -/
def Act.armedStep (off : Int) : Act :=
  all [setB TK_STATUS_ARMED false, setB TK_STATUS_STEP_BUSY true, tk fun t => { t with step := some off }]

theorem Act.u_armedStep (off : Int) (s : State) :
    ((Act.armedStep off).run s).u = { s.u with tk := { s.u.tk with step := some off } } := by
  rw [armedStep, run_all_cons, run_all_cons, run_all_cons, run_all_nil, tk, run_units, setB, setF_u, setB, setF_u]

theorem Act.pair_armedStep (off : Int) (s : State) : ((Act.armedStep off).run s).u.pair = s.u.pair := by
  rw [u_armedStep]

theorem Act.step_armedStep (off : Int) (s : State) : ((Act.armedStep off).run s).u.tk.step = some off := by
  rw [u_armedStep]

theorem Act.bit_busy_armedStep (off : Int) (s : State) : ((Act.armedStep off).run s).bit TK_STATUS_STEP_BUSY = true := by
  rw [armedStep, run_all_cons, run_all_cons]
  exact State.FldIs.bit (n := 1) (State.FldIs.run (fldIs_setB TK_STATUS_STEP_BUSY true _ rfl) (.all Act.Keeps.fldUnits))

theorem Act.bit_armed_armedStep (off : Int) (s : State) : ((Act.armedStep off).run s).bit TK_STATUS_ARMED = false := by
  rw [armedStep, run_all_cons]
  exact State.FldIs.bit (n := 0) (State.FldIs.run (fldIs_setB TK_STATUS_ARMED false s rfl) (.all ⟨.fldSetB, .fldUnits⟩))

/-- Device time at the instant of a time frame: the edges since the last event have passed. -/
def State.timeAt (s : State) (edges : Nat) : State := (Act.when (s.bit TK_STATUS_RUNNING) (Act.timePasses edges)).run s

theorem State.tk_timeAt (s : State) (edges : Nat) :
    (s.timeAt edges).u.tk = if s.bit TK_STATUS_RUNNING then s.u.tk.tick edges else s.u.tk := by
  rw [State.timeAt, Act.run_when]
  split
  · next hrun =>
    rw [Act.timePasses, Act.run_read, hrun, Act.run_when, if_pos rfl]
    rfl
  · rfl

theorem State.fld_timeAt (s : State) (edges : Nat) (f : Field) : (s.timeAt edges).fld f = s.fld f :=
  congrArg (fieldOf · f.lo f.width) ((Act.Within.fits (.when .timePasses) s).reg f.reg rfl)

@[simp] theorem State.bit_timeAt (s : State) (edges : Nat) (f : Field) : (s.timeAt edges).bit f = s.bit f :=
  congrArg (Nat.beq · 1) (s.fld_timeAt edges f)

@[simp] theorem State.pstate_timeAt (s : State) (edges : Nat) : (s.timeAt edges).pstate = s.pstate :=
  s.fld_timeAt edges PAIR_STATUS_PSTATE

section

variable {s : State} {lseq : BitVec 32} (hup : s.bit PAIR_STATUS_LINK_UP = true)
  (hturn : s.u.pair.lseqIn.getD lseq.toNat = lseq.toNat)
include hup hturn

/-- R471: a frame that comes in its turn is taken. -/
theorem Act.run_linkTake (k : Act) : (Act.linkTake lseq k).run s = k.run (s.tookFrame lseq) := by
  rw [linkTake, run_read, hup, run_when, if_pos rfl]
  cases hnext : s.u.pair.lseqIn with
  | none => rfl
  | some e =>
    have he : e = lseq.toNat := by rwa [hnext] at hturn
    have hahead : (lseq.toNat + 2 ^ 32 - e) % 2 ^ 32 = 0 := by
      rw [he, Nat.add_sub_cancel_left, Nat.mod_self]
    dsimp only
    rw [if_pos hahead]
    rfl

/-- R482: inputs of a coming beat join its record. -/
theorem completes_inputReceived {beat : BitVec 32} (hshadow : s.pstate = 5)
    (hcoming : s.u.pair.execd < s.nearBeat beat.toNat) (entries : List RecEntry) :
    Completes (.inputReceived lseq beat entries) s fun t =>
      t.u.pair.lseqIn = some ((lseq.toNat + 1) % 2 ^ 32) ∧
      t.u.pair.recs = recordAdd (s.nearBeat beat.toNat) entries s.u.pair.recs := by
  refine ⟨_, rfl, ?_⟩
  have hstate : ¬(s.tookFrame lseq).pstate = 7 := by simp [hshadow]
  have htakes := s.takesRecord_tookFrame lseq hshadow hcoming
  rw [Act.run_linkTake hup hturn, Act.run_read]
  dsimp only
  rw [if_neg hstate, Act.run_when, State.nearBeat_tookFrame, if_pos htakes]
  exact ⟨rfl, rfl⟩

/-- R482: a record whose SEAL agrees is closed. -/
theorem completes_sealReceived {beat count : BitVec 32} (hshadow : s.pstate = 5)
    (hcoming : s.u.pair.execd < s.nearBeat beat.toNat) (hlater : s.workBeat ≠ s.nearBeat beat.toNat)
    (hwhole : ((recordAdd (s.nearBeat beat.toNat) [] s.u.pair.recs).any fun r =>
      r.beat == s.nearBeat beat.toNat && r.entries.length == count.toNat) = true) :
    Completes (.sealReceived lseq beat count true) s fun t =>
      t.u.pair.lseqIn = some ((lseq.toNat + 1) % 2 ^ 32) ∧ t.u.pair.lastRec = s.nearBeat beat.toNat ∧
      (t.u.pair.recs.any fun r => r.beat == s.nearBeat beat.toNat && r.closed) = true := by
  refine ⟨_, rfl, ?_⟩
  have htakes := s.takesRecord_tookFrame lseq hshadow hcoming
  have hwaits : ((s.tookFrame lseq).shadows && (s.tookFrame lseq).workBeat == s.nearBeat beat.toNat) = false := by
    simp [hlater]
  rw [Act.run_linkTake hup hturn, Act.run_read]
  dsimp only
  rw [State.nearBeat_tookFrame, htakes, Act.run_when, if_pos (by exact hwhole), Act.run_seq, Act.run_when, hwaits,
    if_neg Bool.false_ne_true]
  refine ⟨rfl, rfl, ?_⟩
  obtain ⟨r, hr, hsealed⟩ := List.any_eq_true.1 hwhole
  obtain ⟨hbeat, -⟩ := Bool.and_eq_true_iff.1 hsealed
  refine List.any_eq_true.2 ⟨{ r with closed := true }, List.mem_map.2 ⟨r, hr, if_pos (by simpa using hbeat)⟩, ?_⟩
  simpa using hbeat

/-- R490: the partner's digests of a beat whose own are not formed yet are held. -/
theorem completes_digestReceived {beat : BitVec 32}
    (hown : (s.u.pair.own.find? fun d => d.beat == s.nearBeat beat.toNat) = none)
    (plan uplink log b0 b1 b2 b3 : BitVec 64) :
    Completes (.digestReceived lseq beat plan uplink log b0 b1 b2 b3) s fun t =>
      t.u.pair.lseqIn = some ((lseq.toNat + 1) % 2 ^ 32) ∧ t.u.pair.partner = s.u.pair.partner ++
        [⟨s.nearBeat beat.toNat, [plan.toNat, uplink.toNat, log.toNat], [b0.toNat, b1.toNat, b2.toNat, b3.toNat]⟩] := by
  refine ⟨_, rfl, ?_⟩
  rw [Act.run_linkTake hup hturn, Act.run_read]
  dsimp only
  rw [State.nearBeat_tookFrame, Act.run_seq, Act.run_digestCompare_none (by exact hown)]
  exact ⟨rfl, rfl⟩

/-- R484: a diversity reception is taken, or is found held. -/
theorem completes_diversityReceived (hserves : s.mode.serves = true) (hlive : s.live = true) (hstate : s.pstate ≠ 8)
    (x : AirRx) :
    Completes (.diversityReceived lseq x) s fun t =>
      t.u.pair.lseqIn = some ((lseq.toNat + 1) % 2 ^ 32) ∧
      (s.matchesHeard x = true → t.reg PAIR_DIV_DUP = s.reg PAIR_DIV_DUP + 1) ∧
      (s.matchesHeard x = false → t.reg PAIR_DIV_IN = s.reg PAIR_DIV_IN + 1) := by
  refine ⟨_, rfl, ?_⟩
  have hopen : ((s.tookFrame lseq).mode.serves && (s.tookFrame lseq).live && !((s.tookFrame lseq).pstate == 8)) = true := by
    simp [hserves, hlive, hstate]
  rw [Act.run_linkTake hup hturn, Act.run_read, hopen, Act.run_when, if_pos rfl,
    State.matchesHeard_tookFrame]
  cases hmatch : s.matchesHeard x with
  | true =>
    rw [if_pos rfl]
    exact ⟨(s.nextFrame_tookFrame lseq).run .nextFrameWrap, fun _ => Act.regIs_wrap rfl rfl, nofun⟩
  | false =>
    rw [if_neg Bool.false_ne_true]
    refine ⟨(s.nextFrame_tookFrame lseq).run (.all ⟨.nextFrameRecordInput, .nextFrameWrap, .nextFrameRxIn⟩), nofun,
      fun _ => ?_⟩
    have hrecorded : State.RegIs PAIR_DIV_IN (s.reg PAIR_DIV_IN) ((Act.recordInput 2).run (s.tookFrame lseq)) :=
      State.RegIs.run rfl (.reg .recordInput rfl)
    rw [Act.run_all_cons, Act.run_all_cons]
    exact (Act.regIs_wrap hrecorded rfl).run (.all (.reg .rxIn rfl))

/-- R485: LLRs the partner shares for a codeword that failed have it decoded anew. -/
theorem completes_llrReceived {decoder : Fin 80} {codeword : Fin 16} {stopNs : BitVec 64} {llrs : List (BitVec 6)}
    {f : RxFrame} {c : Codeword} (hllrs : llrs.length = 1152) (hmode : s.mode = .standby)
    (hframes : s.u.rx.frames = [f]) (hdecoder : f.decoder = decoder) (hstop : s.sampleNs f.stop = stopNs.toNat)
    (hcw : f.cws[codeword.val]? = some c) (hfail : c.result = .fail) (hheld : c.llrs ≠ []) :
    Completes (.llrReceived lseq decoder codeword stopNs llrs) s fun t =>
      t.u.pair.lseqIn = some ((lseq.toNat + 1) % 2 ^ 32) ∧ t.u.rx.reqs.length = s.u.rx.reqs.length + 1 := by
  have hok : llrsOk llrs = true := beq_iff_eq.2 hllrs
  refine ⟨_, if_pos hok, ?_⟩
  have hfound : ((s.tookFrame lseq).u.rx.frames.find? fun f => f.decoder == decoder.val &&
      Nat.ble ((s.tookFrame lseq).sampleNs f.stop)
        (stopNs.toNat + (2 * symbolNs ((s.tookFrame lseq).chRate decoder) + 2000)) &&
      Nat.ble stopNs.toNat ((s.tookFrame lseq).sampleNs f.stop +
        (2 * symbolNs ((s.tookFrame lseq).chRate decoder) + 2000))) = some f := by
    rw [State.frames_tookFrame, hframes]
    exact List.find?_cons_of_pos (by simp [hdecoder, hstop])
  have hadds : (decide (c.result = .fail) && !c.llrs.isEmpty && decide ((s.tookFrame lseq).mode = .standby)) = true := by
    simp [hfail, hheld, hmode]
  rw [Act.run_linkTake hup hturn, Act.run_read]
  dsimp only
  rw [hfound]
  dsimp only
  rw [hcw]
  dsimp only
  rw [Act.run_when, if_pos hadds]
  exact ⟨(s.nextFrame_tookFrame lseq).run .nextFrameDecodeAgain, Act.reqs_decodeAgain ..⟩

/-- R480: an item of the copy is applied, here the transmit counters. -/
theorem completes_bulkReceived_counters (hjoins : s.pstate = 4) (hcopies : s.u.pair.syncFrom = none)
    (bcast join : BitVec 32) :
    Completes (.bulkReceived lseq (.counters bcast join)) s fun t =>
      t.u.pair.lseqIn = some ((lseq.toNat + 1) % 2 ^ 32) ∧ t.reg SEC_TXCTR_BCAST = bcast ∧
      t.reg SEC_TXCTR_JOIN = join := by
  refine ⟨_, rfl, ?_⟩
  have happlies : ((s.tookFrame lseq).pstate == 4 && (s.tookFrame lseq).u.pair.syncFrom.isNone) = true := by
    simp [hjoins, hcopies]
  rw [Act.run_linkTake hup hturn, Act.run_read, Act.run_when, if_pos happlies, Act.bulkItem, Act.run_read]
  dsimp only
  rw [Act.run_seq, Act.run_reg, Act.run_reg]
  refine ⟨by rw [State.setReg_u, State.setReg_u]; rfl, ?_, State.reg_setReg_same _ _ _ rfl⟩
  rw [State.reg_setReg_ne _ _ (by decide), State.reg_setReg_same _ _ _ rfl]

/-- R486: a time frame that comes to a standby armed while it joins asks for its one step. -/
theorem completes_timeFrameReceived (hjoins : s.pstate = 4) (harmed : s.bit TK_STATUS_ARMED = true)
    (hidle : s.bit TK_STATUS_STEP_BUSY = false) (sent echo : BitVec 64) (edges : BitVec 40) :
    Completes (.timeFrameReceived lseq sent echo edges) s fun t =>
      t.u.pair.lseqIn = some ((lseq.toNat + 1) % 2 ^ 32) ∧ t.u.tk.step.isSome = true ∧
      t.bit TK_STATUS_STEP_BUSY = true ∧ t.bit TK_STATUS_ARMED = false ∧
      t.u.pair.timeIn = some (if s.bit TK_STATUS_RUNNING then (s.u.tk.tick edges.toNat).ns else s.u.tk.ns) := by
  refine ⟨_, rfl, ?_⟩
  rw [Act.run_linkTake hup hturn, Act.run_read, Act.run_seq]
  have hnext : State.NextFrame ((lseq.toNat + 1) % 2 ^ 32) ((s.tookFrame lseq).timeAt edges.toNat) :=
    (s.nextFrame_tookFrame lseq).run (.when (.nextFrame .timePasses))
  have htk : ((s.tookFrame lseq).timeAt edges.toNat).u.tk =
      if s.bit TK_STATUS_RUNNING then s.u.tk.tick edges.toNat else s.u.tk := State.tk_timeAt ..
  have hsteps : (((s.tookFrame lseq).timeAt edges.toNat).pstate == 4 &&
      ((s.tookFrame lseq).timeAt edges.toNat).bit TK_STATUS_ARMED &&
      !((s.tookFrame lseq).timeAt edges.toNat).bit TK_STATUS_STEP_BUSY) = true := by
    simp [hjoins, harmed, hidle]
  rw [← State.timeAt, Act.run_read]
  dsimp only
  rw [if_pos hsteps, ← Act.armedStep, Act.run_all_cons, Act.run_all_cons, Act.run_all_nil, Act.pair_armedStep,
    Act.step_armedStep]
  refine ⟨hnext, rfl, Act.bit_busy_armedStep _ _, Act.bit_armed_armedStep _ _, congrArg some ?_⟩
  rw [htk]
  exact apply_ite Tk.ns ..

/-- R271: a block of a table joins those a shadow will take. -/
theorem completes_blockFrameReceived {table : Fin 4} {block : BitVec 8} {entries : List (BitVec 128)}
    (hentries : entries.length = 1024) (hshadows : s.shadows = true) (hblock : block.toNat < tableBlocks table) :
    Completes (.blockFrameReceived lseq table block entries) s fun t =>
      t.u.pair.lseqIn = some ((lseq.toNat + 1) % 2 ^ 32) ∧
      t.u.fwd.resync = s.u.fwd.resync ++ [⟨table, block.toNat, entries⟩] ∧ t.bit FWD_STATUS_RESYNC = true := by
  have hok : blockOk entries = true := beq_iff_eq.2 hentries
  refine ⟨_, if_pos hok, ?_⟩
  have hof : ((s.tookFrame lseq).shadows && Nat.blt block.toNat (tableBlocks table)) = true := by
    simp [hshadows, hblock]
  rw [Act.run_linkTake hup hturn, Act.run_read, Act.run_when, if_pos hof, Act.run_seq]
  refine ⟨?_, ?_, (fldIs_setB FWD_STATUS_RESYNC true _ rfl).bit⟩
  · rw [Act.setB, Act.setF_u]; rfl
  · rw [Act.setB, Act.setF_u]; rfl

end

/-- R481: a record that does not come takes a shadow out of step. -/
theorem completes_sealWaitExpiry {s : State} (hshadows : s.shadows = true) (hlate : s.u.pair.execd < s.workBeat)
    (hshadow : s.pstate = 5) : Completes .sealWaitExpiry s fun t => t.u.pair.next = some 4 := by
  refine ⟨_, rfl, ?_⟩
  have hblt : Nat.blt s.u.pair.execd s.workBeat = true := by rwa [Nat.blt_eq]
  rw [hshadows, hblt, hshadow, Act.run_when, if_pos (by decide)]
  rfl

/-- Settles O35: a frame in its turn is taken, and what each kind of frame does follows from the unit's pair state. -/
theorem pairRecords : Obligations.PairRecords := by
  refine ⟨?input, ?close, ?sealWait, ?digest, ?diversity, ?llr, ?bulk, ?time, ?block⟩
  case input => exact fun s lseq beat entries hup hturn hshadow hcoming =>
    completes_inputReceived hup hturn hshadow hcoming entries
  case close => exact fun s lseq beat count hup hturn => completes_sealReceived hup hturn
  case sealWait => exact fun s => completes_sealWaitExpiry
  case digest => exact fun s lseq beat plan uplink log b0 b1 b2 b3 hup hturn hown =>
    completes_digestReceived hup hturn hown plan uplink log b0 b1 b2 b3
  case diversity => exact fun s lseq x hup hturn hserves hlive hstate =>
    completes_diversityReceived hup hturn hserves hlive hstate x
  case llr => exact fun s lseq decoder codeword stopNs llrs f c hup hturn => completes_llrReceived hup hturn
  case bulk => exact fun s lseq bcast join hup hturn hjoins hcopies =>
    completes_bulkReceived_counters hup hturn hjoins hcopies bcast join
  case time => exact fun s lseq sent echo edges hup hturn hjoins harmed hidle =>
    completes_timeFrameReceived hup hturn hjoins harmed hidle sent echo edges
  case block => exact fun s lseq table block entries hup hturn => completes_blockFrameReceived hup hturn

end Sys2Proof.Machine

namespace Sys2Proof.Machine

set_option Elab.async false

open Sys2Proof Sys2Proof.Reg

/-! ### The form of memory and registers -/

/-- Every program of the model's language keeps the form: the operations on memory and registers each do. -/
theorem Act.run_inv (a : Act) {s : State} (h : s.Inv) : (a.run s).Inv := by
  induction a generalizing s with
  | nop => exact h
  | seq a b iha ihb => exact ihb (iha h)
  | read k ih => exact ih s h
  | reg x w => exact ⟨by simpa using h.mem, State.setReg_wf h.regs x w⟩
  | clear keep => exact ⟨h.mem, Act.clear_wf h.regs keep⟩
  | mem x b => exact ⟨State.setByte_wf h.mem x b, h.regs⟩
  | zero base len => exact ⟨Act.zero_wf h.mem base len, h.regs⟩
  | units f => exact ⟨h.mem, h.regs⟩

/-- A command with well-formed operands means a program, which is run on the state it meets. -/
theorem exec_of_wf {c : Instr} (hwf : c.wf = true) (s : State) : ∃ a : Act, exec c s = s.act a := by
  cases c with
  | enq | recordUpdate | llrReceived | blockFrameReceived => exact ⟨_, if_pos hwf⟩
  | _ => exact ⟨_, rfl⟩

/-- A command with an operand no event can carry is refused. -/
theorem exec_of_not_wf {c : Instr} (hwf : c.wf = false) (s : State) : exec c s = .refused .illFormed := by
  cases c with
  | enq | recordUpdate | llrReceived | blockFrameReceived => exact if_neg (Bool.eq_false_iff.1 hwf)
  | _ => exact nomatch hwf

/-- What a command can answer: the next state is where its program ends. -/
theorem exec_next {c : Instr} {s t : State} (h : exec c s = .next t) : ∃ a : Act, t = a.run s := by
  cases hwf : c.wf with
  | true =>
    obtain ⟨a, ha⟩ := exec_of_wf hwf s
    rw [ha, State.act_eq] at h
    exact ⟨a, (Host.Outcome.next.inj h).symm⟩
  | false => exact nomatch (exec_of_not_wf hwf s).symm.trans h

/-- Settles O55: an idle step changes nothing, and a command's next state is where a program ends, which keeps the form. -/
theorem stepsKeepTheForm : Obligations.StepsKeepTheForm := by
  intro s t hinv hstep
  unfold step at hstep
  split at hstep
  case h_1 => exact Host.Outcome.next.inj hstep ▸ hinv
  case h_2 c cs _ =>
    obtain ⟨a, rfl⟩ := exec_next hstep
    exact a.run_inv ⟨hinv.mem, hinv.regs⟩

end Sys2Proof.Machine

namespace Sys2Proof.Machine

set_option Elab.async false

open Sys2Proof Sys2Proof.Reg

/-! ### The queue operations of a hardware port (R302, R303, R305)

The same updates of a queue as an engine's, without a tag: what follows them leaves the words and the pointers. -/

/-- R302: in service, a hardware port that holds the end of the queue does the operation's work, with no completion. -/
theorem Act.run_queueOp_hard {s : State} {code : Fin 10} {n : Nat} {own : Queue → Nat} (hmode : s.mode.inService = true)
    (hport : s.portIs (own (s.queue n)) (.hard code) = true) (work : (Nat → Nat → Nat → Act) → Act) :
    (Act.queueOp (.hard code) n own work).run s = (work fun _ _ _ => .nop).run s := by
  rw [queueOp, run_read]
  dsimp only
  rw [hmode, hport, run_when, if_pos (by decide)]

namespace Act.Follows

theorem nop : Act.nop.Follows := trivial

theorem when {c : Bool} {a : Act} (h : a.Follows) : (Act.when c a).Follows := Act.Only.when_iff.2 fun _ => h

theorem wrap {x : Nat} (h : x ∉ queueKept := by decide) : (Act.wrap x).Follows := Act.Only.wrap_iff.2 h

theorem all {l : List Act} (h : l.Forall Act.Follows) : (Act.all l).Follows :=
  Act.Only.all_iff.2 (List.forall_iff_forall_mem.1 h)

/-- A queue after an update of it and what follows that. -/
theorem core_queue {a : Act} (h : a.Follows) (n : Nat) (f : Queue → Queue) (s : State) :
    ((a.run ((Act.queue n f).run s)).queue n).core = (f (s.queue n)).core :=
  (h.core _ n).trans (congrArg Queue.core (queue_queue_same n f s))

end Act.Follows

section

variable {s : State} {code : Fin 10} {queue : Fin 4096} (hmode : s.mode.inService = true)
include hmode

theorem completes_enq_port {x : WordIn} {v : QWord} (hport : s.portIs (s.queue queue).producer (.hard code) = true)
    (hv : QWord.of x.data x.tag.toNat x.par = v) (hvalid : v.valid = true) (hfirst : v.first = true)
    (hlast : v.last = true) (hpar : v.parOk = true) (hq : (s.queue queue).discarding = false)
    (hopen : (s.queue queue).wptr = (s.queue queue).cptr)
    (hroom : ((s.queue queue).wptr - (s.queue queue).headB).toNat < (s.queue queue).limit) (next : Bool)
    (headend : Fin 16) :
    Completes (.enq (.hard code) queue next headend [x]) s fun t =>
      (t.queue queue).words = (s.queue queue).words ++ [v] ∧ (t.queue queue).wptr = (s.queue queue).wptr + 1 ∧
      (t.queue queue).cptr = (s.queue queue).wptr + 1 := by
  refine ⟨_, rfl, ?_⟩
  rw [Act.run_queueOp_hard hmode hport, Act.run_read]
  obtain ⟨p, r, hr, -, hstored⟩ := run_enqueue_word hv hvalid hfirst hlast hpar hq hopen hroom _ _
  rw [hr]
  exact hstored

theorem completes_abort_port (hport : s.portIs (s.queue queue).producer (.hard code) = true)
    (hopen : (s.queue queue).wptr ≠ (s.queue queue).cptr) :
    Completes (.abort (.hard code) queue) s fun t =>
      (t.queue queue).wptr = (s.queue queue).cptr ∧ t.reg ENV_ABORTS = s.reg ENV_ABORTS + 1 := by
  refine ⟨_, rfl, ?_⟩
  rw [Act.run_queueOp_hard hmode hport, Act.run_read]
  dsimp only
  have hdrop : (!decide ((s.queue queue).wptr = (s.queue queue).cptr)) = true := by simpa using hopen
  rw [Act.run_all_cons, Act.run_when, if_pos hdrop, Act.run_seq]
  have hrest : (Act.all [Act.queueLog queue 2, Act.queueDone queue, .nop]).Follows :=
    .all ⟨.queueLog, .queueDone, .nop⟩
  have hqueue (t : State) : ((Act.wrap ENV_ABORTS).run t).queue queue = t.queue queue := by
    simp [State.queue, Act.wrap]
  constructor
  · have hcore := hrest.core ((Act.wrap ENV_ABORTS).run ((Act.queue queue fun q => q.abort.countAbort).run s)) queue
    rw [hqueue, queue_queue_same] at hcore
    exact Queue.wptr_eq_of_core hcore
  · exact ((hrest.run _).1 ENV_ABORTS (by decide)).trans (Act.regIs_wrap (by exact rfl) rfl)

/-- R305, R312: whatever poison the words read carry, the consumer passes them. -/
theorem completes_deq_port (hport : s.portIs (s.queue queue).consumer (.hard code) = true) (n : Fin 16) (stop : Bool)
    (out : BitVec 18) :
    Completes (.deq (.hard code) queue n stop out []) s fun t =>
      (t.queue queue).rptr =
        (s.queue queue).rptr + BitVec.ofNat 32 ((s.queue queue).readable (n.val + 1) stop).length := by
  refine ⟨_, rfl, ?_⟩
  rw [Act.run_queueOp_hard hmode hport, Act.run_read]
  dsimp only
  rw [State.upsetsMet, upsetWords_nil, List.take_nil, Act.run_all_cons]
  refine (Queue.rptr_eq_of_core (Act.Follows.core_queue ?_ ..)).trans rfl
  exact .all ⟨.nop, .poisonCounts, .when .wrap, .queueDone, .nop⟩

theorem completes_mark_port (hport : s.portIs (s.queue queue).consumer (.hard code) = true) :
    Completes (.mark (.hard code) queue) s fun t => (t.queue queue).mark = (s.queue queue).rptr := by
  refine ⟨_, rfl, ?_⟩
  rw [Act.run_queueOp_hard hmode hport, Act.run_all_cons]
  exact (Queue.mark_eq_of_core (Act.Follows.core_queue (.all (l := [_, _]) ⟨.queueDone, .nop⟩) ..)).trans rfl

theorem completes_rewind_port (hport : s.portIs (s.queue queue).consumer (.hard code) = true) :
    Completes (.rewind (.hard code) queue) s fun t => (t.queue queue).rptr = (s.queue queue).mark := by
  refine ⟨_, rfl, ?_⟩
  rw [Act.run_queueOp_hard hmode hport, Act.run_all_cons]
  exact (Queue.rptr_eq_of_core (Act.Follows.core_queue (.all (l := [_, _]) ⟨.queueDone, .nop⟩) ..)).trans rfl

theorem completes_release_port (hport : s.portIs (s.queue queue).consumer (.hard code) = true) :
    Completes (.release (.hard code) queue) s fun t =>
      (t.queue queue).head = (s.queue queue).rptr ∧ (t.queue queue).mark = (s.queue queue).rptr := by
  refine ⟨_, rfl, ?_⟩
  rw [Act.run_queueOp_hard hmode hport, Act.run_seq, Act.run_nop, Act.releaseQueue, Act.run_all_cons]
  have hcore := Act.Follows.core_queue (a := .all [Act.queueLog queue 6, Act.queueDone queue])
    (.all ⟨.queueLog, .queueDone⟩) queue Queue.release s
  exact ⟨Queue.head_eq_of_core hcore, Queue.mark_eq_of_core hcore⟩

end

/-- Settles O25: each operation is its update of the queue, and what follows it leaves the words and the pointers. -/
theorem queueOperationsOfPorts : Obligations.QueueOperationsOfPorts := by
  unfold Obligations.QueueOperationsOfPorts
  refine ⟨?enq, ?abort, ?deq, ?mark, ?rewind, ?release⟩
  case enq => exact fun s code queue next headend x v hmode hport hv hvalid hfirst hlast hpar hq hopen hroom =>
    completes_enq_port hmode hport hv hvalid hfirst hlast hpar hq hopen hroom next headend
  case abort => exact fun s code queue => completes_abort_port
  case deq => exact fun s code queue n stop out hmode hport => completes_deq_port hmode hport n stop out
  case mark => exact fun s code queue => completes_mark_port
  case rewind => exact fun s code queue => completes_rewind_port
  case release => exact fun s code queue => completes_release_port

end Sys2Proof.Machine

namespace Sys2Proof.Machine

set_option Elab.async false

open Sys2Proof Sys2Proof.Reg

/-! ### What follows an update of a queue leaves of it (R296, R313) -/

/-- A queue has a property. -/
def State.QueueHas (n : Nat) (P : Queue → Prop) (s : State) : Prop := P (s.queue n)

theorem State.QueueHas.run {n : Nat} {P : Queue → Prop} {s : State} {a : Act} (h : State.QueueHas n P s)
    (ha : Act.Keeps (State.QueueHas n P) a) : State.QueueHas n P (a.run s) := ha s h

/-- What follows an update of a queue does not touch: the property holds whatever FC and the pages are. -/
structure Queue.Lasting (P : Queue → Prop) : Prop where
  fc : ∀ (q : Queue) (b : Bool), P q → P { q with fc := b }
  pages : ∀ (q : Queue) (l : List Page), P q → P { q with pages := l }

namespace Act.Keeps

variable {n : Nat} {P : Queue → Prop}

theorem queueUpdate {m : Nat} {f : Queue → Queue} (h : ∀ q, P q → P (f q)) :
    Keeps (State.QueueHas n P) (Act.queue m f) := fun s hs => by
  change P (Store.getD (Store.setD ..) n Queue.unused)
  rw [Store.getD_setD]
  split
  · next hm => exact h _ (hm ▸ hs)
  · exact hs

theorem queueEnv {f : Env → Env} (h : ∀ e, (f e).queues = e.queues := by exact fun _ => rfl) :
    Keeps (State.QueueHas n P) (Act.env f) := fun s hs => by
  rw [State.QueueHas, State.queue, Act.env, Act.run_units, h]
  exact hs

/-- A program leaves the queues, where it does not reach the Envelope's unit. -/
theorem queueBeside {R : Reach} {a : Act} (h : Act.Stores R a) (henv : .env ∉ R.units := by decide) :
    Keeps (State.QueueHas n P) a := fun s hs => by
  rwa [State.QueueHas, State.queue, ← (h s).units .env henv]

theorem queueSetF {f : Field} {v : Nat} : Keeps (State.QueueHas n P) (Act.setF f v) := fun s hs => by
  rwa [State.QueueHas, State.queue, Act.setF_u]

theorem queueRaiseOnce {src key : Nat} {record : List Byte} :
    Keeps (State.QueueHas n P) (Act.raiseOnce src key record) := queueBeside (R := .events [] []) .raiseOnce

theorem queueFcPins : Keeps (State.QueueHas n P) Act.fcPins :=
  read fun _ => each fun _ => read fun _ => ite (seq (when queueSetF) queueEnv) <| when <|
    all ⟨queueSetF, when queueEnv, when queueRaiseOnce⟩

section

variable (hP : Queue.Lasting P)
include hP

theorem queuePagesFill {m k : Nat} : Keeps (State.QueueHas n P) (Act.pagesFill m k) := by
  have update {f : Queue → List Page} : Keeps (State.QueueHas n P) (Act.queue m fun q => { q with pages := f q }) :=
    queueUpdate fun _ => hP.pages _ _
  induction k with
  | zero => exact nop
  | succ k ih =>
    refine read fun _ => when ?_
    dsimp only
    split
    · refine ite (all ⟨update, queueBeside .writePage, ih⟩) ?_
      split
      · exact nop
      · exact all ⟨queueEnv, update, queueBeside .writePage, ih⟩
    · split
      · exact nop
      · exact all ⟨queueEnv, update, ih⟩

/-- R313: judging FC and following with pages, pins and PAUSE. -/
theorem queueQueueDone {m : Nat} : Keeps (State.QueueHas n P) (Act.queueDone m) := by
  have hpages : Keeps (State.QueueHas n P) (Act.pagesFollow m) :=
    all ⟨read fun _ => when <| seq (queueUpdate fun _ => hP.pages _ _) queueEnv, read fun _ => queuePagesFill hP,
      read fun _ => queueSetF⟩
  have pause {p : Nat} : Keeps (State.QueueHas n P) (Act.pauseEval p) :=
    queueBeside (R := .events [(ETH_STATUS, 1)] [.eth]) (.within .pauseEval)
  have hfc : Keeps (State.QueueHas n P) Act.fcFollow :=
    all ⟨read fun _ => queueSetF, queueFcPins, pause, pause⟩
  exact all ⟨queueUpdate fun _ => hP.fc _ _, hpages, hfc⟩

end

end Act.Keeps

/-! ### The changes that the queue commands make (R321, R322) -/

/-- The limit, the group and the watermarks that WRITE_CFG takes of its data words. -/
def Queue.configured (data : List Nat) (q : Queue) : Queue :=
  { q with limit := data.getD 0 0 % 2 ^ 24, group := data.getD 0 0 / 2 ^ 24 % 8, fcEn := Nat.testBit (data.getD 0 0) 27,
           hi := data.getD 1 0 % 2 ^ 24, lo := data.getD 2 0 % 2 ^ 24 }

/-- A queue has taken the configuration of these data words. -/
def Queue.Took (data : List Nat) (q : Queue) : Prop :=
  q.limit = data.getD 0 0 % 2 ^ 24 ∧ q.group = data.getD 0 0 / 2 ^ 24 % 8 ∧ q.hi = data.getD 1 0 % 2 ^ 24 ∧
  q.lo = data.getD 2 0 % 2 ^ 24

theorem Queue.lasting_took {data : List Nat} : Queue.Lasting (Queue.Took data) := ⟨fun _ _ h => h, fun _ _ h => h⟩

/-- A queue stands empty, its six pointers together. -/
def Queue.EmptyAt (p : Word) (q : Queue) : Prop :=
  q.head = p ∧ q.mark = p ∧ q.rptr = p ∧ q.tail = p ∧ q.cptr = p ∧ q.wptr = p ∧ q.words = []

theorem Queue.lasting_emptyAt {p : Word} : Queue.Lasting (Queue.EmptyAt p) := ⟨fun _ _ h => h, fun _ _ h => h⟩

/-- R321: the open packet is dropped, so all six pointers stand where the committed words ended. -/
theorem Queue.emptyAt_flush (q : Queue) : q.flush.EmptyAt q.cptr := by
  unfold Queue.flush
  split
  · next hclosed => exact ⟨hclosed, hclosed, hclosed, hclosed, rfl, hclosed, rfl⟩
  · exact ⟨rfl, rfl, rfl, rfl, rfl, rfl, rfl⟩

/-- R322: a queue takes a configuration, and FC, pages and flow control follow. -/
def Act.queueConfigure (n : Nat) (data : List Nat) : Act := all [queue n (Queue.configured data), queueDone n]

/-- R321: a queue is flushed and logged, an open packet counted among the aborts. -/
def Act.queueEmpty (n : Nat) : Act := .read fun s =>
  all [when (!(decide ((s.queue n).wptr = (s.queue n).cptr))) (wrap ENV_ABORTS), queue n Queue.flush,
    queueLog n Config.flushCode.toNat, queueDone n]

/-- Where a change of a queue shows and what it reaches. -/
abbrev queueReach : Reach := .events enqueueRegs [.env, .eth, .pair]

theorem Act.Stores.queueConfigure {n : Nat} {data : List Nat} : Stores queueReach (Act.queueConfigure n data) :=
  all ⟨sub .queue, sub .queueDone⟩

theorem Act.Stores.queueEmpty {n : Nat} : Stores queueReach (Act.queueEmpty n) :=
  read fun _ => all ⟨when .wrap, sub .queue, sub .queueLog, sub .queueDone⟩

theorem Act.queueHas_queueConfigure (n : Nat) (data : List Nat) (s : State) :
    State.QueueHas n (Queue.Took data) ((queueConfigure n data).run s) := by
  rw [queueConfigure, run_all_cons]
  have htook : State.QueueHas n (Queue.Took data) ((queue n (Queue.configured data)).run s) := by
    rw [State.QueueHas, queue_queue_same]
    exact ⟨rfl, rfl, rfl, rfl⟩
  exact htook.run (.all (l := [_]) (.queueQueueDone Queue.lasting_took))

theorem Act.queueHas_queueEmpty (n : Nat) (s : State) :
    State.QueueHas n (Queue.EmptyAt (s.queue n).cptr) ((queueEmpty n).run s) := by
  rw [queueEmpty, run_read, run_all_cons, run_all_cons]
  have hcounted : State.QueueHas n (· = s.queue n)
      ((when (!decide ((s.queue n).wptr = (s.queue n).cptr)) (wrap ENV_ABORTS)).run s) :=
    State.QueueHas.run rfl (.when (.queueBeside (R := .quiet [(ENV_ABORTS, 1)] []) .wrap))
  have hflushed : State.QueueHas n (Queue.EmptyAt (s.queue n).cptr) ((queue n Queue.flush).run
      ((when (!decide ((s.queue n).wptr = (s.queue n).cptr)) (wrap ENV_ABORTS)).run s)) := by
    rw [State.QueueHas, queue_queue_same, show State.queue _ n = _ from hcounted]
    exact Queue.emptyAt_flush _
  exact hflushed.run (.all ⟨.queueBeside .queueLog, .queueQueueDone Queue.lasting_emptyAt⟩)

/-! ### What a queue command answers (R321–R323) -/

/-- The words READ_CFG shows of a queue (R322). -/
def Queue.cfgWords (q : Queue) : List Nat :=
  [q.limit + 2 ^ 24 * q.group + 2 ^ 27 * (if q.fcEn then 1 else 0) + 2 ^ 28 * (if q.deferred then 1 else 0),
    q.hi, q.lo, q.producer + 256 * q.consumer]

/-- The words READ_STATE shows of a queue (R323). -/
def Queue.stateWords (q : Queue) : List Nat :=
  [q.head.toNat, q.mark.toNat, q.rptr.toNat, q.tail.toNat, q.cptr.toNat, q.wptr.toNat,
    (if q.wptr = q.cptr then 0 else 1) + (if q.fc then 2 else 0), q.pages.length]

section

variable {s : State} {n : Nat} (hmode : s.mode.inService = true) (hused : (s.queue n).producer ≠ 0) (direct : Bool)
  (data : List Nat) (k : Nat → List Nat → Act)
include hmode hused

theorem Act.run_queueCmd_readCfg : (queueCmd direct 1 n data k).run s = (k 0 (s.queue n).cfgWords).run s := by
  simp [queueCmd, hmode, hused, Queue.cfgWords]

theorem Act.run_queueCmd_readState : (queueCmd direct 3 n data k).run s = (k 0 (s.queue n).stateWords).run s := by
  simp [queueCmd, hmode, hused, Queue.stateWords]

variable (hdirect : (direct && s.mode.paired) = false)
include hdirect

theorem Act.run_queueCmd_writeCfg
    (hgood : s.badQueueCfg n (data.getD 0 0) (data.getD 1 0) (data.getD 2 0) (data.getD 3 0) = false) :
    (queueCmd direct 2 n data k).run s = (k 0 []).run ((queueConfigure n data).run s) := by
  rw [queueCmd, run_read]
  dsimp only
  rw [if_neg (by decide), hmode, hdirect, if_neg (by decide), if_neg (by decide), if_neg hused, if_neg (by decide),
    if_pos rfl, hgood, if_neg (by decide), run_all_cons, run_all_cons, run_all_cons, run_all_nil, queueConfigure,
    run_all_cons, run_all_cons, run_all_nil]
  rfl

theorem Act.run_queueCmd_flush :
    (queueCmd direct 4 n data k).run s = (k 0 []).run ((queueEmpty n).run s) := by
  rw [queueCmd, run_read]
  dsimp only
  rw [if_neg (by decide), hmode, hdirect, if_neg (by decide), if_neg (by decide), if_neg hused, if_neg (by decide),
    if_neg (by decide), if_neg (by decide), run_all_cons, run_all_cons, run_all_cons, run_all_cons, run_all_cons,
    run_all_nil, queueEmpty, run_read, run_all_cons, run_all_cons, run_all_cons, run_all_cons, run_all_nil]

end


/-! ### The queue commands by register and by ring (R318, R321, R620) -/

/-- The machine with ENV_QCMD busy, its last results not valid any more (R321). -/
def State.qcmdBusy (s : State) : State :=
  (Act.setB ENV_QCMD_STAT_VALID false).run ((Act.setB ENV_QCMD_STAT_BUSY true).run s)

/-- The data words that stand in ENV_QDATAx. -/
def State.qcmdData (s : State) : List Nat := (List.range 4).map fun i => (s.reg (ENV_QDATAx i)).toNat

/-- What a command of ENV_QCMD leaves to be posted when it ends. -/
def Act.qcmdPost (status : Nat) (results : List Nat) : Act := env fun e => { e with cmd := some ⟨status, results⟩ }

namespace State

variable (s : State)

theorem reg_qcmdBusy {x : Nat} (hx : ENV_QCMD_STAT ≠ x) : s.qcmdBusy.reg x = s.reg x :=
  (Act.reg_setF_ne ENV_QCMD_STAT_VALID _ _ hx).trans (Act.reg_setF_ne ENV_QCMD_STAT_BUSY _ _ hx)

@[simp] theorem u_qcmdBusy : s.qcmdBusy.u = s.u := by simp [qcmdBusy, Act.setB]

@[simp] theorem queue_qcmdBusy (n : Nat) : s.qcmdBusy.queue n = s.queue n := by rw [queue, u_qcmdBusy, queue]

@[simp] theorem mode_qcmdBusy : s.qcmdBusy.mode = s.mode := mode_congr (s.reg_qcmdBusy (by decide))

@[simp] theorem badQueueCfg_qcmdBusy : s.qcmdBusy.badQueueCfg = s.badQueueCfg := by
  have hpages : s.qcmdBusy.spillPages = s.spillPages := by
    rw [spillPages, spillPages, fld, fld, s.reg_qcmdBusy (by decide)]
  funext n w0 w1 w2 w3
  rw [badQueueCfg, badQueueCfg, u_qcmdBusy, hpages]

theorem fldIs_busy_qcmdBusy : FldIs ENV_QCMD_STAT_BUSY 1 s.qcmdBusy :=
  FldIs.run (fldIs_setB ENV_QCMD_STAT_BUSY true s rfl) .fldSetB

end State

/-- A permitted command makes ENV_QCMD busy and does its work. -/
theorem Act.run_queueCmdVia_register {s : State} {iface : HostIface} (hreach : s.reaches iface = true)
    (hpermit : s.permits ENV_QCMD = true) (hidle : s.bit ENV_QCMD_STAT_BUSY = false) (op n : Nat) :
    (queueCmdVia (.register iface) op n).run s = (queueCmd true op n s.qcmdData qcmdPost).run s.qcmdBusy := by
  rw [queueCmdVia, run_permitted hreach hpermit, queueCmdReg, run_read, hidle]
  rfl

/-- R321: a command's change of a queue leaves ENV_QCMD busy. -/
theorem Act.bit_busy_qcmdPost {a : Act} (ha : Stores queueReach a) (status : Nat) (results : List Nat) (s : State) :
    ((qcmdPost status results).run (a.run s.qcmdBusy)).bit ENV_QCMD_STAT_BUSY = true :=
  (s.fldIs_busy_qcmdBusy.run (a := .seq a (qcmdPost status results)) <|
    .seq (.fldOfReg fun _ => .regStores ha) .fldUnits).bit

theorem Act.bit_busy_qcmdPost_idle (status : Nat) (results : List Nat) (s : State) :
    ((qcmdPost status results).run s.qcmdBusy).bit ENV_QCMD_STAT_BUSY = true :=
  bit_busy_qcmdPost .nop status results s

theorem Act.cmd_qcmdPost (status : Nat) (results : List Nat) (s : State) :
    ((qcmdPost status results).run s).u.env.cmd = some ⟨status, results⟩ := rfl

section

variable {s : State} {iface : HostIface} {queue : Fin 4096} (hreach : s.reaches iface = true)
  (hpermit : s.permits ENV_QCMD = true) (hidle : s.bit ENV_QCMD_STAT_BUSY = false) (hmode : s.mode.inService = true)
  (hused : (s.queue queue).producer ≠ 0)
include hreach hpermit hidle hmode hused

theorem completes_queueReadCfg : Completes (.queueReadCfg iface queue) s fun t =>
    t.bit ENV_QCMD_STAT_BUSY = true ∧ t.u.env.cmd = some ⟨0, (s.queue queue).cfgWords⟩ := by
  refine ⟨_, rfl, ?_⟩
  rw [Act.run_queueCmdVia_register hreach hpermit hidle, Act.run_queueCmd_readCfg (by simpa using hmode)
    (by simpa using hused), State.queue_qcmdBusy]
  exact ⟨Act.bit_busy_qcmdPost_idle .., Act.cmd_qcmdPost ..⟩

theorem completes_queueReadState : Completes (.queueReadState iface queue) s fun t =>
    t.bit ENV_QCMD_STAT_BUSY = true ∧ t.u.env.cmd = some ⟨0, (s.queue queue).stateWords⟩ := by
  refine ⟨_, rfl, ?_⟩
  rw [Act.run_queueCmdVia_register hreach hpermit hidle, Act.run_queueCmd_readState (by simpa using hmode)
    (by simpa using hused), State.queue_qcmdBusy]
  exact ⟨Act.bit_busy_qcmdPost_idle .., Act.cmd_qcmdPost ..⟩

variable (hsolo : s.mode.paired = false)
include hsolo

theorem completes_queueWriteCfg_register
    (hgood : s.badQueueCfg queue (s.reg (ENV_QDATAx 0)).toNat (s.reg (ENV_QDATAx 1)).toNat
      (s.reg (ENV_QDATAx 2)).toNat (s.reg (ENV_QDATAx 3)).toNat = false) :
    Completes (.queueWriteCfg (.register iface) queue) s fun t =>
      t.bit ENV_QCMD_STAT_BUSY = true ∧ (t.queue queue).Took s.qcmdData := by
  refine ⟨_, rfl, ?_⟩
  rw [Act.run_queueCmdVia_register hreach hpermit hidle, Act.run_queueCmd_writeCfg (by simpa using hmode)
    (by simpa using hused) _ _ _ (by simpa using hsolo) (by rw [State.badQueueCfg_qcmdBusy]; exact hgood)]
  exact ⟨Act.bit_busy_qcmdPost .queueConfigure .., (Act.queueHas_queueConfigure ..).run .queueEnv⟩

theorem completes_queueFlush_register :
    Completes (.queueFlush (.register iface) queue) s fun t =>
      t.bit ENV_QCMD_STAT_BUSY = true ∧ (t.queue queue).EmptyAt (s.queue queue).cptr := by
  refine ⟨_, rfl, ?_⟩
  rw [Act.run_queueCmdVia_register hreach hpermit hidle, Act.run_queueCmd_flush (by simpa using hmode)
    (by simpa using hused) _ _ _ (by simpa using hsolo)]
  have hempty := Act.queueHas_queueEmpty queue s.qcmdBusy
  rw [State.queue_qcmdBusy] at hempty
  exact ⟨Act.bit_busy_qcmdPost .queueEmpty .., hempty.run .queueEnv⟩

end

/-- R613, R623: where the completion of a command of the ring shows. -/
theorem Act.Stores.complete {c : HostCmd} {status : Nat} {res : CmdResult} :
    Stores (.events ringRegs [.hif, .pair]) (Act.complete c status res) := by
  have entry : Stores (.events ringRegs [.hif, .pair]) (Act.completionEntry c status res) :=
    read fun _ => all ⟨memBytes, memBytes, setF, units, ite units raiseOnce, setF, read fun _ => all ⟨setB, setB⟩⟩
  exact all ⟨when <| sub journal, read fun _ => when entry, when sat, units⟩

/-- The data words that a queue command of the ring carries after QUEUE (R620). -/
def HostCmd.queueData (c : HostCmd) : List Nat := (List.range 4).map fun j => c.arg (4 + 4 * j) 4

section

variable {s : State} {index : Fin 4096} {c : HostCmd} {queue : Fin 4096}

/-- R620: a taken queue command of its queue does its work and completes. -/
theorem Act.run_queueCmdVia_ring {op n : Nat} (hcmd : s.cmdAt index (fun o => o == 0x0200 + op) = some c)
    (hqueue : c.arg 0 2 = n) :
    (queueCmdVia (.ring index) op n).run s =
      (queueCmd false op n c.queueData fun status _ => complete c (groupStatus c.opcode status) (.val 0)).run s := by
  rw [queueCmdVia, run_hostCmd hcmd, hqueue, Nat.beq_refl, run_when, if_pos rfl]
  rfl

/-- A command that has changed a queue completes, which leaves the queue. -/
theorem Act.finished_complete_of_stores {a : Act} (ha : Stores queueReach a) (hown : c.mirrored = false) {n : Nat}
    {P : Queue → Prop} (hP : State.QueueHas n P (a.run s)) (status : Nat) (res : CmdResult) :
    P (((complete c status res).run (a.run s)).queue n) ∧ Finished c s ((complete c status res).run (a.run s)) :=
  ⟨hP.run (.queueBeside .complete), (finished_complete hown status res _).of_eq ((ha s).units .hif (by decide)).symm
    (ha.reg_eq (by decide +kernel) s)⟩

variable (hown : c.mirrored = false) (hqueue : c.arg 0 2 = queue) (hmode : s.mode.inService = true)
  (hused : (s.queue queue).producer ≠ 0)
include hown hqueue hmode hused

theorem completes_queueWriteCfg_ring (hcmd : s.cmdAt index (fun o => o == 0x0202) = some c)
    (hgood : s.badQueueCfg queue (c.arg 4 4) (c.arg 8 4) (c.arg 12 4) (c.arg 16 4) = false) :
    Completes (.queueWriteCfg (.ring index) queue) s fun t => (t.queue queue).Took c.queueData ∧ Finished c s t := by
  refine ⟨_, rfl, ?_⟩
  rw [Act.run_queueCmdVia_ring hcmd hqueue, Act.run_queueCmd_writeCfg hmode hused _ c.queueData _ rfl hgood]
  exact Act.finished_complete_of_stores .queueConfigure hown (Act.queueHas_queueConfigure ..) _ _

theorem completes_queueFlush_ring (hcmd : s.cmdAt index (fun o => o == 0x0204) = some c) :
    Completes (.queueFlush (.ring index) queue) s fun t =>
      (t.queue queue).EmptyAt (s.queue queue).cptr ∧ Finished c s t := by
  refine ⟨_, rfl, ?_⟩
  rw [Act.run_queueCmdVia_ring hcmd hqueue, Act.run_queueCmd_flush hmode hused _ _ _ rfl]
  exact Act.finished_complete_of_stores .queueEmpty hown (Act.queueHas_queueEmpty ..) _ _

end

/-! ### The end of a queue command (R321) -/

/-- What ENV_QCMD_STAT shows of a command that has ended. -/
def Act.qcmdShow (c : QCmd) : Act :=
  all [setF ENV_QCMD_STAT_STATUS c.status, setB ENV_QCMD_STAT_BUSY false, setB ENV_QCMD_STAT_VALID true,
    env fun e => { e with cmd := none }]

theorem Act.fldIs_qcmdShow_status (c : QCmd) (s : State) :
    State.FldIs ENV_QCMD_STAT_STATUS (c.status % 2 ^ ENV_QCMD_STAT_STATUS.width) ((qcmdShow c).run s) := by
  rw [qcmdShow, run_all_cons]
  exact State.FldIs.run (fld_setF_same ENV_QCMD_STAT_STATUS _ s rfl (by decide)) (.all ⟨.fldSetB, .fldSetB, .fldUnits⟩)

theorem Act.fldIs_qcmdShow_busy (c : QCmd) (s : State) :
    State.FldIs ENV_QCMD_STAT_BUSY 0 ((qcmdShow c).run s) := by
  rw [qcmdShow, run_all_cons, run_all_cons]
  exact (fldIs_setB ENV_QCMD_STAT_BUSY false _ rfl).run (.all ⟨.fldSetB, .fldUnits⟩)

theorem Act.fldIs_qcmdShow_valid (c : QCmd) (s : State) :
    State.FldIs ENV_QCMD_STAT_VALID 1 ((qcmdShow c).run s) := by
  rw [qcmdShow, run_all_cons, run_all_cons, run_all_cons]
  exact (fldIs_setB ENV_QCMD_STAT_VALID true _ rfl).run (.all (l := [_]) .fldUnits)

theorem Act.cmd_qcmdShow (c : QCmd) (s : State) : ((qcmdShow c).run s).u.env.cmd = none := by
  rw [qcmdShow, run_all_cons, run_all_cons, run_all_cons, run_all_cons, run_all_nil]
  rfl

theorem completes_envQcmdComplete {s : State} {c : QCmd} (hcmd : s.u.env.cmd = some c) :
    Completes .envQcmdComplete s fun t =>
      t.bit ENV_QCMD_STAT_BUSY = false ∧ t.bit ENV_QCMD_STAT_VALID = true ∧ t.u.env.cmd = none ∧
      t.fld ENV_QCMD_STAT_STATUS = c.status % 2 ^ ENV_QCMD_STAT_STATUS.width := by
  refine ⟨(Act.qcmdShow c).run ((Act.each c.results.zipIdx fun r =>
    .reg (ENV_QRESx r.2) (BitVec.ofNat 32 r.1)).run s), ?_, ?_⟩
  · change execEnvQcmdComplete s = _
    rw [execEnvQcmdComplete, hcmd, State.act_eq, Act.run_all_cons]
    rfl
  · exact ⟨(Act.fldIs_qcmdShow_busy ..).bit, (Act.fldIs_qcmdShow_valid ..).bit, Act.cmd_qcmdShow ..,
      Act.fldIs_qcmdShow_status ..⟩

/-! ### The patrol scrubber (R289) -/

/-- What the scrubber does about a corrected error of its burst. -/
def Act.scrubCorrected (corrected : Bool) : Act :=
  when corrected (all [sat ENV_ECC_CORR, env fun e => { e with passCorr := e.passCorr + 1 }, faultClass 1])

/-- What it does about one that cannot be corrected, in burst `n`. -/
def Act.scrubLost (uncorrectable : Bool) (n : Nat) : Act :=
  when uncorrectable (all [sat ENV_ECC_UNC, env fun e => { e with passUnc := e.passUnc + 1 },
    raise 56 (leBytes 4 (64 * n)), healthFault 6 2])

theorem Act.Within.scrubCorrected {corrected : Bool} :
    Within (.quiet [(ENV_ECC_CORR, 1)] [.env, .pair]) (Act.scrubCorrected corrected) :=
  .when <| .all ⟨.sat, .units, .sub .faultClass⟩

theorem Act.Within.scrubLost {uncorrectable : Bool} {n : Nat} :
    Within (.events [(ENV_ECC_UNC, 1)] [.env, .pair]) (Act.scrubLost uncorrectable n) :=
  .when <| .all ⟨.sat, .units, .raise, .sub .healthFault⟩

theorem State.RegIs.sat {x : Nat} {w : Word} {s : State} (h : State.RegIs x w s) (hx : fixedReg x = none) :
    State.RegIs x (satNext w) ((Act.sat x).run s) := (Act.reg_sat hx s).trans (congrArg satNext h)

theorem Act.regIs_scrubCorrected {w : Word} {s : State} (h : State.RegIs ENV_ECC_CORR w s) :
    State.RegIs ENV_ECC_CORR (satNext w) ((scrubCorrected true).run s) := by
  rw [scrubCorrected, run_when, if_pos rfl, run_all_cons]
  exact (h.sat rfl).run (.all ⟨.regUnits, .reg .faultClass rfl⟩)

theorem Act.regIs_scrubLost {w : Word} {s : State} (h : State.RegIs ENV_ECC_UNC w s) (n : Nat) :
    State.RegIs ENV_ECC_UNC (satNext w) ((scrubLost true n).run s) := by
  rw [scrubLost, run_when, if_pos rfl, run_all_cons]
  exact (h.sat rfl).run (.all ⟨.regUnits, .reg (R := .events [] []) .raise rfl, .reg .healthFault rfl⟩)

theorem completes_scrubBurst {s : State} (hon : s.bit ENV_ECC_CFG_SCRUB_EN = true) (hmode : s.mode.inService = true)
    (hnext : s.u.env.scrubAt + 1 ≠ bursts) (corrected uncorrectable : Bool) :
    Completes (.scrubBurst corrected uncorrectable) s fun t =>
      t.u.env.scrubAt = s.u.env.scrubAt + 1 ∧ t.bit ENV_STATUS_SCRUBBING = true ∧
      (corrected = true → t.reg ENV_ECC_CORR = satNext (s.reg ENV_ECC_CORR)) ∧
      (uncorrectable = true → t.reg ENV_ECC_UNC = satNext (s.reg ENV_ECC_UNC)) := by
  refine ⟨_, rfl, ?_⟩
  have hlast : (s.u.env.scrubAt + 1 == bursts) = false := by simpa using hnext
  rw [hon, hmode, Act.run_when, if_pos (by decide), Act.run_all_cons, ← Act.scrubCorrected, Act.run_all_cons,
    ← Act.scrubLost, Act.run_all_cons, Act.run_all_cons, Act.run_all_cons, Act.run_all_nil, hlast, Act.run_when,
    if_neg (by decide)]
  have hscrubs : State.FldIs ENV_STATUS_SCRUBBING 1 ((Act.setB ENV_STATUS_SCRUBBING true).run s) :=
    fldIs_setB ENV_STATUS_SCRUBBING true s rfl
  have hcount {x : Nat} (hx : ENV_STATUS ≠ x) :
      State.RegIs x (s.reg x) ((Act.setB ENV_STATUS_SCRUBBING true).run s) := Act.reg_setF_ne _ _ _ hx
  refine ⟨rfl, ?_, ?_, ?_⟩
  · refine State.FldIs.bit (n := 1) ?_
    exact ((hscrubs.run (.fld .scrubCorrected rfl)).run (.fld .scrubLost rfl)).run .fldUnits
  · rintro rfl
    exact (Act.regIs_scrubCorrected (hcount (by decide))).run (.reg .scrubLost rfl) |>.run .regUnits
  · rintro rfl
    exact (Act.regIs_scrubLost ((hcount (by decide)).run (.reg .scrubCorrected rfl)) _).run .regUnits

/-! ### The pins of the flow-control groups (R314) -/

/-- One program of several brings `Q` about where `P` holds, and the others keep both. -/
theorem Act.run_each_reaches {α : Type} {P Q : State → Prop} {l : List α} {f : α → Act} {i : α} (hi : i ∈ l)
    (hset : ∀ s, P s → Q ((f i).run s)) (hQP : ∀ s, Q s → P s)
    (hkeep : ∀ j ∈ l, j ≠ i → Act.Keeps P (f j) ∧ Act.Keeps Q (f j)) {s : State} (h : P s) :
    Q ((Act.each l f).run s) := by
  have hP : ∀ j ∈ l, Act.Keeps P (f j) := fun j hj t ht => by
    by_cases hji : j = i
    · exact hQP _ (hji ▸ hset t ht)
    · exact (hkeep j hj hji).1 t ht
  have hQ : ∀ j ∈ l, Act.Keeps Q (f j) := fun j hj t ht => by
    by_cases hji : j = i
    · exact hji ▸ hset t (hQP t ht)
    · exact (hkeep j hj hji).2 t ht
  induction l generalizing s with
  | nil => cases hi
  | cons j l ih =>
    obtain ⟨hPj, hPl⟩ := List.forall_mem_cons.1 hP
    obtain ⟨-, hQl⟩ := List.forall_mem_cons.1 hQ
    rcases List.mem_cons.1 hi with rfl | hi
    · exact Act.Keeps.all (List.forall_iff_forall_mem.2 (List.forall_mem_map.2 hQl)) _ (hset s h)
    · exact ih hi (fun k hk => hkeep k (List.mem_cons_of_mem _ hk)) (hPj s h) hPl hQl

/-- The bit of ENV_FC_STATE that shows a group's pin. -/
abbrev pinField (g : Nat) : Field := ⟨ENV_FC_STATE, 8 + g, 1⟩

/-- ASSERTED has one bit for each group (R318). -/
theorem State.testBit_asserted (s : State) {g : Nat} (hg : g < 8) :
    Nat.testBit (s.fld ENV_FC_STATE_ASSERTED) g = s.bit (pinField g) := by
  change Nat.testBit ((s.reg ENV_FC_STATE).toNat / 2 ^ 8 % 2 ^ 8) g =
    Nat.beq ((s.reg ENV_FC_STATE).toNat / 2 ^ (8 + g) % 2) 1
  rw [Nat.testBit_mod_two_pow, decide_eq_true hg, Bool.true_and, Nat.testBit_div_two_pow,
    Nat.testBit_eq_decide_div_mod_eq, Nat.add_comm g 8, Bool.eq_iff_iff, decide_eq_true_iff, Nat.beq_eq]

/-- No hold time of the group's pin runs (R314). -/
def State.PinFree (g : Nat) (s : State) : Prop := (s.u.env.fcHold.any fun h => h.1 == g) = false

/-- R314: what one look at the queues does to the pin of group `g`, where the mode drives pins and the group's state is
`on`. -/
def Act.fcPin (driven on : Bool) (g : Nat) : Act := .read fun t =>
  let want := if decide (t.mode = .hold) then true else on
  let ball := Nat.blt g 4 || t.u.boot.gpio.getD (4 + g) 0 == 0
  let en := driven && ball && Nat.testBit (t.fld ENV_FC_CTL_EN) g
  let shown := Nat.testBit (t.fld ENV_FC_STATE_ASSERTED) g
  let held := t.u.env.fcHold.any fun h => h.1 == g
  let set := fun (b : Bool) => setF (pinField g) (if b then 1 else 0)
  if !en then .seq (when shown (set false)) (env fun e => { e with fcHold := e.fcHold.filter fun h => !(h.1 == g) })
  else when (want != shown && !held)
    (all [set want,
      when (Nat.blt 0 (t.fld ENV_FC_CTL_MIN_HOLD_US)) (env fun e => { e with fcHold := e.fcHold ++ [(g, want)] }),
      when want (raiseOnce 60 g (leBytes 1 g))])

theorem Act.run_fcPins (s : State) : fcPins.run s = (each (List.range 8) fun g =>
    fcPin (s.mode.runs || decide (s.mode = .hold)) (s.groupState g) g).run s := by
  rw [fcPins, run_read]
  rfl

/-- R314: the pin of an enabled group whose state is asserted, with no hold time running, is asserted, if it is not yet. -/
theorem Act.fldIs_fcPin {t : State} {g : Nat} (hg : g < 4) (hen : Nat.testBit (t.fld ENV_FC_CTL_EN) g = true)
    (hfree : State.PinFree g t ∨ State.FldIs (pinField g) 1 t) :
    State.FldIs (pinField g) 1 ((fcPin true true g).run t) := by
  have hball : Nat.blt g 4 = true := by simpa using hg
  rw [fcPin, run_read]
  dsimp only
  rw [hen, hball, ite_self, State.testBit_asserted t (by omega), Bool.true_or, Bool.true_and, Bool.true_and,
    Bool.not_true, if_neg Bool.false_ne_true, run_when]
  cases hshown : t.bit (pinField g) with
  | true => exact State.FldIs.of_bit hshown
  | false =>
    have hnone : (t.u.env.fcHold.any fun h => h.1 == g) = false :=
      hfree.resolve_right fun hset => by rw [hset.bit] at hshown; contradiction
    rw [hnone, if_pos (by decide), run_all_cons, if_pos rfl]
    have hset : State.FldIs (pinField g) 1 ((setF (pinField g) 1).run t) :=
      fld_setF_same (pinField g) 1 t rfl (show 8 + g + 1 ≤ 32 by omega)
    exact hset.run (.all ⟨.when .fldUnits, .when (.fld (R := .events [] []) .raiseOnce rfl)⟩)

theorem Act.Keeps.pinEnable {driven on : Bool} {j : Nat} {w : Word} :
    Keeps (State.RegIs ENV_FC_CTL w) (Act.fcPin driven on j) :=
  .reg (R := .events [(ENV_FC_STATE, 1)] [.env]) (.read fun _ => .ite (.seq (.when .setF) .units) <| .when <|
    .all ⟨.setF, .when .units, .when .raiseOnce⟩) rfl

/-- ENV_FC_CTL reads `w`, and the pin of group `g` may be asserted, or is. -/
def State.PinDue (g : Nat) (w : Word) (s : State) : Prop :=
  State.RegIs ENV_FC_CTL w s ∧ (State.PinFree g s ∨ State.FldIs (pinField g) 1 s)

/-- ENV_FC_CTL reads `w`, and the pin of group `g` is asserted. -/
def State.PinUp (g : Nat) (w : Word) (s : State) : Prop := State.RegIs ENV_FC_CTL w s ∧ State.FldIs (pinField g) 1 s

theorem State.PinUp.due {g : Nat} {w : Word} {s : State} (h : State.PinUp g w s) : State.PinDue g w s :=
  ⟨h.1, .inr h.2⟩

section

variable {driven on : Bool} {g j : Nat} (hj : j ≠ g)
include hj

/-- The hold time of one group's pin is not another's. -/
theorem Act.Keeps.pinFree : Keeps (State.PinFree g) (Act.fcPin driven on j) := by
  have setPin {v : Nat} : Keeps (State.PinFree g) (Act.setF (pinField j) v) := fun t ht => by
    rwa [State.PinFree, Act.setF_u]
  have raised {src key : Nat} {record : List Byte} : Keeps (State.PinFree g) (Act.raiseOnce src key record) :=
    fun t ht => by
      rwa [State.PinFree, ← ((Act.Within.raiseOnce (R := .events [] [])).fits t).units .env (by decide)]
  refine read fun t => ite (seq (when setPin) fun q hq => ?_) <| when <| all ⟨setPin, when fun q hq => ?_, when raised⟩
  · exact List.any_eq_false.2 fun h hh => List.any_eq_false.1 hq h (List.mem_of_mem_filter hh)
  · exact List.any_append.trans (by rw [show (q.u.env.fcHold.any fun h => h.1 == g) = false from hq]; simp [hj])

theorem Act.Keeps.pinShown (hg : g < 8) (hlt : j < 8) :
    Keeps (State.FldIs (pinField g) 1) (Act.fcPin driven on j) := by
  have hapart : (Nat.ble (8 + j + 1) (8 + g) || Nat.ble (8 + g + 1) (8 + j)) = true := by
    rw [Bool.or_eq_true, Nat.ble_eq, Nat.ble_eq]
    omega
  have setPin {v : Nat} : Keeps (State.FldIs (pinField g) 1) (Act.setF (pinField j) v) :=
    fldSetF hapart (Nat.ble_eq_true_of_le (show 8 + j + 1 ≤ 32 by omega))
      (Nat.ble_eq_true_of_le (show 8 + g ≤ 32 by omega))
  exact read fun _ => ite (seq (when setPin) fldUnits) <| when <|
    all ⟨setPin, when fldUnits, when (fld (R := .events [] []) .raiseOnce rfl)⟩

theorem Act.Keeps.pinDue (hg : g < 8) (hlt : j < 8) {w : Word} :
    Keeps (State.PinDue g w) (Act.fcPin driven on j) := fun t ht =>
  ⟨pinEnable t ht.1, ht.2.imp (pinFree hj t) (pinShown hj hg hlt t)⟩

theorem Act.Keeps.pinUp (hg : g < 8) (hlt : j < 8) {w : Word} :
    Keeps (State.PinUp g w) (Act.fcPin driven on j) := fun t ht => ⟨pinEnable t ht.1, pinShown hj hg hlt t ht.2⟩

end

/-- R314: the hold time over, the pin follows its group, whatever the pins of the others do. -/
theorem completes_fcHoldExpiry {s : State} {group : Fin 8} {b : Bool} (hhold : s.u.env.fcHold = [(group.val, b)])
    (hmode : s.mode.runs = true) (hg : group.val < 4) (hen : Nat.testBit (s.fld ENV_FC_CTL_EN) group = true)
    (hstate : s.groupState group = true) :
    Completes (.fcHoldExpiry group) s fun t => Nat.testBit (t.fld ENV_FC_STATE_ASSERTED) group = true := by
  refine ⟨_, rfl, ?_⟩
  obtain ⟨q, hq⟩ : ∃ q, (Act.env fun e => { e with fcHold := e.fcHold.filter fun h => !(h.1 == group.val) }).run s = q :=
    ⟨_, rfl⟩
  have hfree : State.PinFree group q := by simp [← hq, State.PinFree, Act.env, hhold]
  have hdriven : (q.mode.runs || decide (q.mode = .hold)) = true := by
    rw [← hq, Bool.or_eq_true]
    exact .inl hmode
  have hon : q.groupState group = true := hq ▸ hstate
  have hdue : State.PinDue group (s.reg ENV_FC_CTL) q := ⟨hq ▸ rfl, .inl hfree⟩
  rw [Act.run_seq, hq, Act.run_fcPins, hdriven, State.testBit_asserted _ group.isLt]
  refine (Act.run_each_reaches (List.mem_range.2 group.isLt) (fun t ht => ?_) (fun _ => State.PinUp.due)
    (fun j hj hne => ⟨.pinDue hne group.isLt (List.mem_range.1 hj), .pinUp hne group.isLt (List.mem_range.1 hj)⟩)
    hdue).2.bit
  rw [hon]
  exact ⟨Act.Keeps.pinEnable t ht.1,
    Act.fldIs_fcPin hg ((congrArg (fun w => Nat.testBit (fieldOf w 0 8) group) ht.1).trans hen) ht.2⟩

/-- Settles O27: each command is its change of the queue or the words it shows, and what else it does leaves the queue,
ENV_QCMD and the rings; a burst counts what it found, and a pin follows its group unless its hold time runs. -/
theorem queueCommandsAndScrubbing : Obligations.QueueCommandsAndScrubbing := by
  unfold Obligations.QueueCommandsAndScrubbing
  refine ⟨?readCfg, ?readState, ?writeCfg, ?flush, ?ringWriteCfg, ?ringFlush, ?complete, ?scrub, ?pin⟩
  case readCfg => exact fun s iface queue => completes_queueReadCfg
  case readState => exact fun s iface queue => completes_queueReadState
  case writeCfg => exact fun s iface queue => completes_queueWriteCfg_register
  case flush => exact fun s iface queue => completes_queueFlush_register
  case ringWriteCfg =>
    intro s index c queue hcmd hown hqueue hmode hused hgood
    obtain ⟨t, ht, ⟨hlimit, -, hhi, hlo⟩, hdone⟩ := completes_queueWriteCfg_ring hown hqueue hmode hused hcmd hgood
    exact ⟨t, ht, hlimit, hhi, hlo, hdone⟩
  case ringFlush =>
    intro s index c queue hcmd hown hqueue hmode hused
    obtain ⟨t, ht, ⟨hhead, hmark, hrptr, htail, hcptr, hwptr, hwords⟩, hdone⟩ :=
      completes_queueFlush_ring hown hqueue hmode hused hcmd
    exact ⟨t, ht, hhead, hmark, hrptr, htail, hcptr, hwptr, hwords, hdone⟩
  case complete => exact fun s c => completes_envQcmdComplete
  case scrub => exact fun s corrected uncorrectable hon hmode hnext =>
    completes_scrubBurst hon hmode hnext corrected uncorrectable
  case pin => exact fun s group b => completes_fcHoldExpiry

end Sys2Proof.Machine

namespace Sys2Proof.Machine

set_option Elab.async false

open Sys2Proof Sys2Proof.Reg

/-! ### The security block and what a program leaves of it (R374, R379) -/

/-- The security block has a property. -/
def State.SecHas (Q : Sec → Prop) (s : State) : Prop := Q s.u.sec

theorem State.SecHas.run {Q : Sec → Prop} {s : State} {a : Act} (h : State.SecHas Q s)
    (ha : Act.Keeps (State.SecHas Q) a) : State.SecHas Q (a.run s) := ha s h

/-- A program leaves the security block, where it does not reach it. -/
theorem Act.Within.sec {R : Reach} {a : Act} (h : Act.Within R a) (hsec : .sec ∉ R.units := by decide) (s : State) :
    (a.run s).u.sec = s.u.sec := ((h.fits s).units .sec hsec).symm

theorem Act.Stores.sec {R : Reach} {a : Act} (h : Act.Stores R a) (hsec : .sec ∉ R.units := by decide) (s : State) :
    (a.run s).u.sec = s.u.sec := ((h s).units .sec hsec).symm

namespace Act.Keeps

variable {Q : Sec → Prop}

theorem secStores {R : Reach} {a : Act} (h : Act.Stores R a) (hsec : .sec ∉ R.units := by decide) :
    Keeps (State.SecHas Q) a := fun s hs => by rwa [State.SecHas, h.sec hsec]

theorem secWithin {R : Reach} {a : Act} (h : Act.Within R a) (hsec : .sec ∉ R.units := by decide) :
    Keeps (State.SecHas Q) a := fun s hs => by rwa [State.SecHas, ← (h.fits s).units .sec hsec]

theorem secUpdate {f : Sec → Sec} (h : ∀ x, Q x → Q (f x)) : Keeps (State.SecHas Q) (Act.sec f) :=
  fun _ hs => h _ hs

end Act.Keeps

/-! ### Slots and their changes under way (R374, R379–R381) -/

/-- The slots stand in the security block (R374). -/
theorem State.slot_congr {s t : State} (h : t.u.sec = s.u.sec) (n : Nat) : t.slot n = s.slot n := by
  rw [State.slot, h, State.slot]

theorem Act.slot_putSlot (n : Nat) (k : KeySlot) (s : State) (m : Nat) :
    ((Act.putSlot n k).run s).slot m = if n = m then k else s.slot m := by
  rw [Act.putSlot, Act.run_seq, State.slot_congr (Act.Within.logUpdate.sec (by decide) _)]
  exact Store.getD_setD ..

theorem Act.slot_putSlot_same (n : Nat) (k : KeySlot) (s : State) : ((Act.putSlot n k).run s).slot n = k := by
  rw [Act.slot_putSlot, if_pos rfl]

theorem Act.writes_putSlot (n : Nat) (k : KeySlot) (s : State) :
    ((Act.putSlot n k).run s).u.sec.writes = s.u.sec.writes := by
  rw [Act.putSlot, Act.run_seq, Act.Within.logUpdate.sec (by decide)]
  rfl

/-- A slot is this one. -/
def State.SlotIs (n : Nat) (k : KeySlot) (s : State) : Prop :=
  State.SecHas (fun x => x.slots.getD n KeySlot.zeroed = k) s

/-- The slot changes under way. -/
def State.WritesAre (l : List SlotWrite) (s : State) : Prop := State.SecHas (fun x => x.writes = l) s

theorem State.SlotIs.run {n : Nat} {k : KeySlot} {s : State} {a : Act} (h : State.SlotIs n k s)
    (ha : Act.Keeps (State.SlotIs n k) a) : State.SlotIs n k (a.run s) := ha s h

theorem State.WritesAre.run {l : List SlotWrite} {s : State} {a : Act} (h : State.WritesAre l s)
    (ha : Act.Keeps (State.WritesAre l) a) : State.WritesAre l (a.run s) := ha s h

namespace Act.Keeps

variable {n : Nat} {k : KeySlot} {l : List SlotWrite}

theorem slotPutSlot {m : Nat} {k' : KeySlot} (h : m ≠ n) : Keeps (State.SlotIs n k) (Act.putSlot m k') := by
  intro s hs
  change ((Act.putSlot m k').run s).slot n = k
  rw [Act.slot_putSlot, if_neg h]
  exact hs

/-- R381: the walk from a slot leaves the slot itself. -/
theorem slotOrphanWalk : Keeps (State.SlotIs n k) (Act.orphanWalk n) := by
  refine read fun s => all ⟨all (List.forall_iff_forall_mem.2 (List.forall_mem_map.2 fun m hm => ?_)),
    when (secWithin (R := .events [] []) .raise), secWithin .slotsValid⟩
  have hne : m ≠ n := by
    have := (List.mem_filter.1 hm).2
    simp only [Bool.and_eq_true, Bool.not_eq_true', beq_eq_false_iff_ne] at this
    exact this.1.1
  exact read fun _ => all ⟨slotPutSlot hne, secUpdate fun _ h => h,
    secWithin (R := .quiet [(SEC_ORPHANS, 1)] []) .sat⟩

theorem writesPutSlot {k' : KeySlot} : Keeps (State.WritesAre l) (Act.putSlot n k') := fun s hs =>
  (Act.writes_putSlot n k' s).trans hs

theorem writesDropCached : Keeps (State.WritesAre l) (Act.dropCached n) := secUpdate fun _ h => h

theorem writesOrphanWalk : Keeps (State.WritesAre l) (Act.orphanWalk n) :=
  read fun _ => all ⟨each fun _ => read fun _ => all ⟨writesPutSlot, writesDropCached,
    secWithin (R := .quiet [(SEC_ORPHANS, 1)] []) .sat⟩, when (secWithin (R := .events [] []) .raise),
    secWithin .slotsValid⟩

end Act.Keeps

theorem Act.Within.slotDrain {n : Nat} : Within (.quiet [(SEC_STATUS, 1)] [.sec, .pair]) (Act.slotDrain n) :=
  .read fun _ => .all ⟨.units, .sub .putSlot, .sub .slotsValid⟩

theorem Act.Within.slotWrite {n : Nat} {shadow : Option KeySlot} {cmd : Option Nat} :
    Within (.quiet [(SEC_STATUS, 1)] [.sec, .pair]) (Act.slotWrite n shadow cmd) :=
  .read fun _ => .seq .units <| .ite .nop .slotDrain

/-- R379, R380: a slot that drains keeps its contents, and its change waits for the last holder. -/
theorem Act.slot_slotDrain (n : Nat) (s : State) :
    ((Act.slotDrain n).run s).slot n = { s.slot n with state := .draining } := by
  rw [Act.slotDrain, Act.run_read, Act.run_all_cons, Act.run_all_cons]
  exact State.SlotIs.run (Act.slot_putSlot_same ..) (.all (l := [_]) (.secWithin .slotsValid))

theorem Act.writes_slotDrain (n : Nat) (s : State) : ((Act.slotDrain n).run s).u.sec.writes =
    s.u.sec.writes.map fun w => if w.slot == n then { w with draining := true } else w := by
  rw [Act.slotDrain, Act.run_read, Act.run_all_cons]
  exact State.WritesAre.run rfl (.all (l := [_, _]) ⟨.writesPutSlot, .secWithin .slotsValid⟩)

/-- The slot drains, and a change of it that completes command `seq` waits for its last holder, with a shadow copy that
has a property. -/
def State.Drains (n seq : Nat) (P : Option KeySlot → Prop) (s : State) : Prop :=
  (s.slot n).state = .draining ∧
  ∃ x ∈ s.u.sec.writes, x.slot = n ∧ x.draining = true ∧ x.cmd = some seq ∧ P x.shadow

/-- What a shadow copy says of the key: its tagging leaves it (R379). -/
def KeySlot.origin (k : KeySlot) : Nat × Nat := (k.key, k.parent)

/-- R379, R380: a change that needs no record leaves the slot draining. -/
theorem Act.drains_slotWrite {shadow : Option KeySlot} (h : ∀ k, shadow = some k → k.has 7 = false) (n seq : Nat)
    (s : State) : State.Drains n seq (fun x => x.map KeySlot.origin = shadow.map KeySlot.origin)
      ((Act.slotWrite n shadow (some seq)).run s) := by
  unfold Act.slotWrite
  rw [Act.run_read, Act.run_seq, if_neg ?noRecord]
  case noRecord =>
    cases shadow with
    | none => exact Bool.false_ne_true
    | some k => exact Bool.eq_false_iff.1 (h k rfl)
  constructor
  · rw [Act.slot_slotDrain]
  · rw [Act.writes_slotDrain]
    refine ⟨_, List.mem_map_of_mem (List.mem_append_right _ (List.mem_singleton_self _)), ?_⟩
    rw [if_pos (beq_self_eq_true n)]
    refine ⟨rfl, rfl, rfl, ?_⟩
    cases shadow with
    | none => rfl
    | some k => cases s.u.sec.integrity <;> rfl

theorem State.Drains.mono {n seq : Nat} {P Q : Option KeySlot → Prop} {s : State} (h : State.Drains n seq P s)
    (hPQ : ∀ x, P x → Q x) : State.Drains n seq Q s :=
  ⟨h.1, h.2.imp fun _ ⟨hx, hslot, hdraining, hcmd, hP⟩ => ⟨hx, hslot, hdraining, hcmd, hPQ _ hP⟩⟩

/-! ### The key commands of the ring (R378) -/

/-- R617: a taken key command whose slot has no change under way is carried out. -/
theorem Act.run_keyCmd {s : State} {index op target : Nat} {c : HostCmd}
    (hcmd : s.cmdAt index (fun o => o == op) = some c) (hslot : c.arg target 2 < 1024)
    (hidle : s.slotBusy (c.arg target 2) = false) (hmode : s.mode.runs = true) (k : HostCmd → Nat → State → Act) :
    (Act.keyCmd index op target k).run s = (k c (c.arg target 2) s).run s := by
  have hlt : Nat.blt (c.arg target 2) 1024 = true := by simpa using hslot
  rw [Act.keyCmd, Act.run_hostCmd hcmd, Act.run_read]
  simp only [hidle, hmode, hlt, Bool.not_false, Bool.not_true, Bool.or_self, Bool.false_eq_true, if_false, Act.run_when,
    if_true]

/-- R376, R382: a key that may be used, its TAG verified, is fetched. -/
theorem Act.run_fetchSlot {s : State} {n i : Nat} (husable : s.usable n i = true) (htag : s.tagOk n = true) (bad : Act)
    (k : List Nat → Act) : (Act.fetchSlot n i false bad k).run s = (k (s.slot n).bytes).run s := by
  rw [Act.fetchSlot, Act.run_read, husable, htag]
  rfl

/-- R375: the stored ATTR of a key under a parent keeps the bits below DEPTH. -/
theorem testBit_attrUnder (attr depth : Nat) {i : Nat} (hi : i < 9) :
    Nat.testBit (attrUnder attr depth) i = Nat.testBit attr i := by
  rw [attrUnder, Nat.add_comm, Nat.mul_comm, show 512 = 2 ^ 9 by rfl,
    Nat.testBit_two_pow_mul_add _ (Nat.mod_lt _ (Nat.two_pow_pos 9)), if_pos hi, Nat.testBit_mod_two_pow,
    decide_eq_true hi, Bool.true_and]

/-- A sum of some of the powers of two below `2 ^ n` is below it. -/
theorem foldl_bits_lt (p : Nat → Bool) (n : Nat) :
    (List.range n).foldl (fun v i => if p i then v + 2 ^ i else v) 0 < 2 ^ n := by
  induction n with
  | zero => exact Nat.one_pos
  | succ n ih =>
    rw [List.range_succ, List.foldl_append, List.foldl_cons, List.foldl_nil, Nat.pow_succ]
    split <;> omega

/-- The ATTR that RESTRICT leaves (R378). -/
def KeySlot.restricted (k : KeySlot) (mask : Nat) : Nat :=
  let perms := (List.range 6).foldl (fun v i => if Nat.testBit k.attr i && !Nat.testBit mask i then v + 2 ^ i else v) 0
  let attr := k.attr / 64 * 64 + perms
  if Nat.testBit mask 8 && !Nat.testBit attr 8 then attr + 256 else attr

/-- R378: what RESTRICT changes of ATTR stands beside PERSIST. -/
theorem KeySlot.testBit_restricted (k : KeySlot) (mask : Nat) :
    Nat.testBit (k.restricted mask) 7 = Nat.testBit k.attr 7 := by
  have hattr (perms : Nat) (h : perms < 2 ^ 6) : Nat.testBit (k.attr / 64 * 64 + perms) 7 = Nat.testBit k.attr 7 := by
    rw [Nat.mul_comm, show 64 = 2 ^ 6 by rfl, Nat.testBit_two_pow_mul_add _ h, if_neg (by decide),
      Nat.testBit_div_two_pow]
  have hperms := hattr _ (foldl_bits_lt (fun i => Nat.testBit k.attr i && !Nat.testBit mask i) 6)
  unfold KeySlot.restricted
  dsimp only
  split
  · rw [Nat.add_comm _ 256, show 256 = 2 ^ 8 by rfl, Nat.testBit_two_pow_add_gt (by decide)]
    exact hperms
  · exact hperms

/-- What UNWRAP_TO_SLOT does by what its blob unwraps to (R378, R387): the change of the slot, or the failure that is
counted, raised and answered. -/
def Act.unwrapEnd (c : HostCmd) (depth : Nat) : Option (List Nat) → Act
  | none => all [sat SEC_UNWRAP_FAILS, raise 70 (leBytes 2 (c.arg 0 2)), complete c keyError (.val 0)]
  | some key => slotWrite (c.arg 0 2)
      (some ⟨leValue (bytesOfNat key), attrUnder (c.arg 4 4) depth, c.arg 2 2, 0, 0, .valid⟩) (some c.seq)

/-- The blob of a 128-bit key in UNWRAP_TO_SLOT (R378): 24 bytes (log 52). -/
def HostCmd.shortBlob (c : HostCmd) : List Nat := natBytes ((c.args.drop 8).take 24)

/-- R378: a blob that unwraps changes the slot, unless the change has to be recorded first. -/
theorem Act.drains_unwrapEnd {c : HostCmd} (hlasts : Nat.testBit (c.arg 4 4) 7 = false) (depth : Nat) (key : List Nat)
    (s : State) : State.Drains (c.arg 0 2) c.seq
      (fun x => x.map KeySlot.origin = some (leValue (bytesOfNat key), c.arg 2 2))
      ((unwrapEnd c depth (some key)).run s) := by
  refine drains_slotWrite (fun k hk => ?_) _ _ s
  obtain rfl := Option.some.inj hk
  exact (testBit_attrUnder _ _ (by decide)).trans hlasts

/-- R378, R387: a blob that does not unwrap is counted, and its command completes. -/
theorem Act.counted_unwrapEnd {c : HostCmd} (hown : c.mirrored = false) (depth : Nat) (s : State) :
    ((unwrapEnd c depth none).run s).reg SEC_UNWRAP_FAILS = satNext (s.reg SEC_UNWRAP_FAILS) ∧
    Finished c s ((unwrapEnd c depth none).run s) := by
  have hraise : Within (.events [(SEC_UNWRAP_FAILS, 1)] [])
      (.seq (sat SEC_UNWRAP_FAILS) (raise 70 (leBytes 2 (c.arg 0 2)))) := .seq .sat .raise
  have hcount : State.RegIs SEC_UNWRAP_FAILS (satNext (s.reg SEC_UNWRAP_FAILS)) ((sat SEC_UNWRAP_FAILS).run s) :=
    reg_sat rfl s
  rw [unwrapEnd, run_all_cons, run_all_cons, run_all_cons, run_all_nil]
  constructor
  · exact (hcount.run (.reg (R := .events [] []) .raise rfl)).run (.regStores .complete)
  · exact (finished_complete hown _ _ _).of_eq ((hraise.fits s).units .hif (by decide)).symm
      ((hraise.fits s).reg HIF_CPL_PROD (by decide +kernel))

section

variable {s : State} {index : Fin 4096} {c : HostCmd} (hslot : c.arg 0 2 < 1024)
  (hidle : s.slotBusy (c.arg 0 2) = false) (hmode : s.mode.runs = true) (hlocked : (s.slot (c.arg 0 2)).has 8 = false)
include hslot hidle hmode hlocked

/-- R378: an unlocked slot is erased. -/
theorem completes_erase (hcmd : s.cmdAt index (fun o => o == 0x0504) = some c) :
    Completes (.erase index) s (State.Drains (c.arg 0 2) c.seq fun _ => True) := by
  refine ⟨_, rfl, ?_⟩
  rw [Act.run_keyCmd hcmd hslot hidle hmode, hlocked, if_neg Bool.false_ne_true]
  exact (Act.drains_slotWrite (shadow := none) (fun _ h => nomatch h) _ _ s).mono fun _ _ => trivial

/-- R378: permissions of an unlocked slot are taken away. -/
theorem completes_restrict (hcmd : s.cmdAt index (fun o => o == 0x0503) = some c)
    (hvalid : (s.slot (c.arg 0 2)).state = .valid) (hlasts : (s.slot (c.arg 0 2)).has 7 = false) :
    Completes (.restrict index) s (State.Drains (c.arg 0 2) c.seq fun _ => True) := by
  refine ⟨_, rfl, ?_⟩
  rw [Act.run_keyCmd hcmd hslot hidle hmode]
  dsimp only
  rw [hvalid, hlocked, if_neg (by decide), if_neg Bool.false_ne_true]
  refine (Act.drains_slotWrite (fun k hk => ?_) _ _ s).mono fun _ _ => trivial
  obtain rfl := Option.some.inj hk
  exact ((s.slot (c.arg 0 2)).testBit_restricted _).trans hlasts

section

variable (hdepth : (s.slot (c.arg 2 2)).depth < 3)
  (hperms : permsWithin (permsOf (c.arg 4 4)) (permsOf (s.slot (c.arg 2 2)).attr) = true)
  (htag : s.tagOk (c.arg 2 2) = true)
include hdepth hperms htag

/-- R378: a key derived from its parent takes the place of an unlocked slot's. -/
theorem completes_deriveToSlot (hcmd : s.cmdAt index (fun o => o == 0x0502) = some c)
    (husable : s.usable (c.arg 2 2) 3 = true) (hlasts : Nat.testBit (c.arg 4 4) 7 = false) :
    Completes (.deriveToSlot index) s fun t =>
      State.Drains (c.arg 0 2) c.seq (fun _ => True) t ∧ t.reg SEC_DERIVE = s.reg SEC_DERIVE + 1 := by
  refine ⟨_, rfl, ?_⟩
  have hshallow : ((s.slot (c.arg 2 2)).depth == 3) = false := beq_eq_false_iff_ne.2 (Nat.ne_of_lt hdepth)
  rw [Act.run_keyCmd hcmd hslot hidle hmode]
  dsimp only
  rw [husable, hshallow, hlocked, hperms, if_neg (by decide), if_neg (by decide), Act.run_fetchSlot husable htag,
    Act.run_seq]
  constructor
  · refine (Act.drains_slotWrite (fun k hk => ?_) _ _ _).mono fun _ _ => trivial
    obtain rfl := Option.some.inj hk
    exact (testBit_attrUnder _ _ (by decide)).trans hlasts
  · exact State.RegIs.run (Act.reg_wrapBy SEC_DERIVE 1 s rfl) (.reg .slotWrite rfl)

/-- R378: an allowed UNWRAP_TO_SLOT goes by what its blob unwraps to. -/
theorem exec_unwrapToSlot (hcmd : s.cmdAt index (fun o => o == 0x0501) = some c)
    (husable : s.usable (c.arg 2 2) 5 = true) (hshort : Nat.testBit (c.arg 4 4) 6 = false) :
    exec (.unwrapToSlot index) s = .next ((Act.unwrapEnd c ((s.slot (c.arg 2 2)).depth + 1)
      (Crypto.kwUnwrap (s.slot (c.arg 2 2)).bytes c.shortBlob)).run s) := by
  change execUnwrapToSlot index s = _
  have hshallow : Nat.blt 3 ((s.slot (c.arg 2 2)).depth + 1) = false := by
    rw [← Bool.not_eq_true, Nat.blt_eq]
    omega
  rw [execUnwrapToSlot, State.act_eq, Act.run_keyCmd hcmd hslot hidle hmode]
  dsimp only
  rw [husable, hshallow, hlocked, hperms, if_neg (by decide), if_neg (by decide), Act.run_fetchSlot husable htag,
    hshort, if_neg Bool.false_ne_true]
  rfl

end

end

/-! ### Keys for the partner, and the phases of a slot change (R378–R380, R384) -/

/-- R471, R472: a link frame leaves where the link is up. -/
theorem Act.sent_linkSend {s : State} (hup : s.bit PAIR_STATUS_LINK_UP = true) (b : LinkBody) :
    ((Act.linkSend b).run s).u.pair.out.length = s.u.pair.out.length + 1 ∧
    ((Act.linkSend b).run s).u.pair.lseq = (s.u.pair.lseq + 1) % 2 ^ 32 := by
  rw [Act.linkSend, Act.run_read, hup, Act.run_when, if_pos rfl]
  exact ⟨List.length_append, rfl⟩

/-- R378: a key with a parent leaves for the partner. -/
theorem completes_wrapToPartner {s : State} {source : Fin 1024} (hmode : s.mode.runs = true)
    (hparent : (s.slot source).parent ≠ 0xFFFF) (hwrap : s.bit SEC_ROOTMAP_PAIR_WRAP_EN = true)
    (hvalid : (s.slot source).state = .valid) (husable : s.usable (s.fld SEC_ROOTMAP_PAIR_WRAP) 4 = true)
    (htag : s.tagOk (s.fld SEC_ROOTMAP_PAIR_WRAP) = true) (hup : s.bit PAIR_STATUS_LINK_UP = true) :
    Completes (.wrapToPartner source) s fun t =>
      t.u.pair.out.length = s.u.pair.out.length + 1 ∧ t.u.pair.lseq = (s.u.pair.lseq + 1) % 2 ^ 32 := by
  refine ⟨_, rfl, ?_⟩
  have hchild : ((s.slot source).parent == 0xFFFF) = false := beq_eq_false_iff_ne.2 hparent
  rw [Act.run_read, hmode, Act.run_when, if_pos rfl, Act.wrapToPartner, Act.run_read]
  dsimp only
  rw [hchild, hwrap, hvalid, if_neg Bool.false_ne_true, if_neg (by decide), Act.run_fetchSlot husable htag]
  exact Act.sent_linkSend hup _

/-- R379, R384: the record confirmed, the one change that waited for it goes on to drain the slot. -/
theorem completes_slotPersistConfirmed {s : State} {slot : Fin 1024} {x : SlotWrite} {k : KeySlot}
    (hwrites : s.u.sec.writes = [x]) (hslot : x.slot = slot) (hwaits : x.draining = false)
    (hshadow : x.shadow = some k) :
    Completes (.slotPersistConfirmed slot true) s fun t =>
      t.u.sec.writes = [{ x with draining := true }] ∧ (t.slot slot).state = .draining ∧
      t.u.boot.flash = s.u.boot.flash.writeKey slot k := by
  have hfind : (s.u.sec.writes.find? fun w => !w.draining) = some x := by simp [hwrites, hwaits]
  have hrun : exec (.slotPersistConfirmed slot true) s = .next ((Act.slotDrain slot).run
      ((Act.boot fun b => { b with flash := b.flash.writeKey slot k }).run s)) := by
    change execSlotPersistConfirmed slot true s = _
    simp only [execSlotPersistConfirmed, State.act_eq, Act.run_read, hfind, hshadow, hslot, beq_self_eq_true,
      Act.run_when, if_true, Act.run_seq]
  refine ⟨_, hrun, ?_, ?_, ?_⟩
  · rw [Act.writes_slotDrain]
    change s.u.sec.writes.map _ = _
    simp [hwrites, hslot]
  · rw [Act.slot_slotDrain]
  · exact (congrArg Boot.flash ((Act.Within.slotDrain.fits _).units .boot (by decide))).symm

/-- R379: completing the command that waits for a change leaves the security block. -/
theorem Act.Stores.completeSeq {seq status : Nat} :
    Stores (.events ringRegs [.hif, .pair]) (Act.completeSeq seq status) :=
  read fun _ => by
    split
    · exact nop
    · exact complete

/-- The answer to the command that waits for a change, where one does (R379). -/
def Act.slotAnswer : Option Nat → Act
  | some n => completeSeq n stOk
  | none => nop

theorem Act.Stores.slotAnswer {cmd : Option Nat} :
    Stores (.events ringRegs [.hif, .pair]) (Act.slotAnswer cmd) := by
  cases cmd with
  | none => exact nop
  | some n => exact completeSeq

/-- The end of a change that has a copy to swap in (R380, R381). -/
def Act.slotSwap (slot : Nat) (x : SlotWrite) (k : KeySlot) : Act :=
  all [sec fun y => { y with writes := y.writes.filter fun v => !(v.slot == slot) },
    putSlot slot k,
    dropCached slot,
    orphanWalk slot,
    slotsValid,
    slotAnswer x.cmd]

/-- R380: the last holder gone, the copy takes the slot's place and the change is over. -/
theorem Act.slot_slotSwap (slot : Nat) (x : SlotWrite) (k : KeySlot) (s : State) :
    ((slotSwap slot x k).run s).slot slot = k ∧
    ((slotSwap slot x k).run s).u.sec.writes = s.u.sec.writes.filter fun v => !(v.slot == slot) := by
  rw [slotSwap, run_all_cons, run_all_cons]
  constructor
  · exact State.SlotIs.run (slot_putSlot_same ..) (.all (l := [_, _, _, _])
      ⟨.secUpdate fun _ h => h, .slotOrphanWalk, .secWithin .slotsValid, .secStores .slotAnswer⟩)
  · exact State.WritesAre.run (writes_putSlot ..) (.all (l := [_, _, _, _])
      ⟨.writesDropCached, .writesOrphanWalk, .secWithin .slotsValid, .secStores .slotAnswer⟩)

theorem completes_slotDrainDone {s : State} {slot : Fin 1024} {x : SlotWrite} {k : KeySlot}
    (hfind : (s.u.sec.writes.find? fun w => w.slot == slot.val && w.draining) = some x) (hshadow : x.shadow = some k)
    (hfree : s.slotHolders slot = 0) :
    Completes (.slotDrainDone slot) s fun t =>
      t.slot slot = k ∧ t.u.sec.writes = s.u.sec.writes.filter (fun v => !(v.slot == slot.val)) := by
  refine ⟨(Act.slotSwap slot x k).run s, ?_, Act.slot_slotSwap ..⟩
  change execSlotDrainDone slot s = _
  simp only [execSlotDrainDone, State.act_eq, Act.run_read, hfind, hshadow, hfree, beq_self_eq_true, Act.run_when,
    if_true]
  cases hcmd : x.cmd with
  | none => simp only [Act.slotSwap, hcmd, Act.slotAnswer]
  | some n => simp only [Act.slotSwap, hcmd, Act.slotAnswer]

/-- R389, R392: a roll's record confirmed, it stands in the epoch log. -/
theorem completes_epochWriteConfirmed {s : State} (hroll : s.u.sec.roll = some false)
    (hlast : max s.epoch s.u.sec.rollFrom < 0xFFFF) :
    Completes (.epochWriteConfirmed true) s fun t =>
      t.u.sec.roll = some true ∧
      t.u.boot.flash =
        s.u.boot.flash.addEpoch (fieldOf (s.reg SEC_EPOCH) 16 16) (max s.epoch s.u.sec.rollFrom + 1) := by
  have hopen : (s.u.sec.roll == some false && Nat.blt (max s.epoch s.u.sec.rollFrom) 0xFFFF) = true := by
    rw [hroll, Bool.and_eq_true, Nat.blt_eq]
    exact ⟨rfl, hlast⟩
  refine ⟨_, rfl, ?_⟩
  rw [Act.run_read, hopen, Act.run_when, if_pos rfl]
  exact ⟨rfl, rfl⟩

/-- Settles O30: a key command allowed by its checks is one slot change, and each later phase is its update of the
changes under way; what follows it leaves the slot. -/
theorem keyCommands : Obligations.KeyCommands := by
  unfold Obligations.KeyCommands
  refine ⟨?unwrap, ?derive, ?restrict, ?erase, ?wrap, ?persist, ?drained, ?epoch⟩
  case unwrap =>
    intro s index c hcmd hown hslot hidle hmode husable hdepth hlocked hperms htag hshort hlasts
    refine ⟨_, exec_unwrapToSlot hslot hidle hmode hlocked hdepth hperms htag hcmd husable hshort, ?_⟩
    change if (Crypto.kwUnwrap _ c.shortBlob).isSome then _ else _
    cases hkey : Crypto.kwUnwrap (s.slot (c.arg 2 2)).bytes c.shortBlob with
    | none => exact Act.counted_unwrapEnd hown _ s
    | some key =>
      obtain ⟨hstate, x, hx, hof, hdraining, hseq, horigin⟩ :=
        Act.drains_unwrapEnd hlasts ((s.slot (c.arg 2 2)).depth + 1) key s
      refine ⟨hstate, x, hx, hof, hdraining, hseq, horigin.trans ?_⟩
      change _ = some (leValue (bytesOfNat ((Crypto.kwUnwrap _ c.shortBlob).getD [])), _)
      rw [hkey, Option.getD_some]
  case derive =>
    intro s index c hcmd hown hslot hidle hmode husable hdepth hlocked hperms htag hlasts
    obtain ⟨t, ht, ⟨hstate, x, hx, hof, hdraining, hseq, -⟩, hcount⟩ :=
      completes_deriveToSlot hslot hidle hmode hlocked hdepth hperms htag hcmd husable hlasts
    exact ⟨t, ht, hstate, hcount, x, hx, hof, hdraining, hseq⟩
  case restrict =>
    intro s index c hcmd hown hslot hidle hmode hvalid hlocked hlasts
    obtain ⟨t, ht, hstate, x, hx, hof, hdraining, hseq, -⟩ :=
      completes_restrict hslot hidle hmode hlocked hcmd hvalid hlasts
    exact ⟨t, ht, hstate, x, hx, hof, hdraining, hseq⟩
  case erase =>
    intro s index c hcmd hown hslot hidle hmode hlocked
    obtain ⟨t, ht, hstate, x, hx, hof, hdraining, hseq, -⟩ := completes_erase hslot hidle hmode hlocked hcmd
    exact ⟨t, ht, hstate, x, hx, hof, hdraining, hseq⟩
  case wrap => exact fun s source => completes_wrapToPartner
  case persist => exact fun s slot x k => completes_slotPersistConfirmed
  case drained => exact fun s slot x k => completes_slotDrainDone
  case epoch => exact fun s => completes_epochWriteConfirmed

end Sys2Proof.Machine

namespace Sys2Proof.Machine

set_option Elab.async false

open Sys2Proof Sys2Proof.Reg

/-! ### A change of the major mode (R24, R31, R511) -/

theorem Mode.ofCode_code (m : Mode) : Mode.ofCode m.code = m := by cases m <;> rfl

/-- GEN_MODE names the mode (R31). -/
theorem State.FldIs.mode {m : Mode} {s : State} (h : State.FldIs GEN_MODE_MODE m.code s) : s.mode = m := by
  rw [State.mode, h, Mode.ofCode_code]

/-- Where the level of a mode shows (R513). -/
def levelRegs : List (Nat × Nat) := [(PWR_STATUS, 1), (BT_STATUS, 1)]

/-- Where a new mode shows before anything follows it (R31, R511). -/
def modeRegs : List (Nat × Nat) := [(GEN_MODE, 1), (GEN_MODE_CHANGES, 1), (HIF_STATUS, 1)] ++ levelRegs

namespace Act.Within

theorem startLevel {new src : Nat} : Within (.quiet levelRegs [.bt, .pwr]) (Act.startLevel new src) :=
  .read fun _ => .when <| .all ⟨.units, .setB, .setF, .units⟩

theorem applyModeLevel {m : Mode} : Within (.quiet levelRegs [.bt, .pwr]) (Act.applyModeLevel m) := by
  refine .read fun _ => ?_
  split
  · exact .all ⟨.setF, .setB, .units⟩
  · exact .ite .startLevel <| .all ⟨.setF, .setF⟩

theorem stopSequencer : Within (.quiet [(BT_STATUS, 1)] [.tk]) Act.stopSequencer :=
  .all ⟨.setF, .setF, .setF, .setF, .units⟩

theorem startSequencer : Within (.quiet [(BT_STATUS, 1)] []) Act.startSequencer := .all ⟨.setB, .setF, .setF⟩

theorem enterMode {m : Mode} {row : Nat} : Within (.events modeRegs [.tk, .pwr]) (Act.enterMode m row) :=
  .read fun _ => .when <| .all ⟨.setF, .setF, .setB, .wrap, .units, .sub .applyModeLevel, .when (.sub .stopSequencer),
    .when (.sub .startSequencer), .setB, .when .units, .raise⟩

theorem ethPath : Within (.quiet [(ETH_STATUS, 1)] []) Act.ethPath := .read fun _ => .setF

theorem brFlush {gone : BrEntry → Bool} : Within (.quiet [(ETH_BR_STAT, 1)] [.eth]) (Act.brFlush gone) :=
  .seq .units <| .read fun _ => .setF

theorem ptDrop {p n : Nat} : Within (.events [(ETH_Pp_PT_DROP 0, 2)] []) (Act.ptDrop p n) :=
  .when <| .seq (.satBy Reach.has_array) .raiseOnce

end Act.Within

/-- Where a link that goes down shows (R447). -/
def linkRegs : List (Nat × Nat) :=
  [(ETH_STATUS, 1), (ETH_BR_STAT, 1), (ETH_Pp_LINK_DOWN 0, 2), (ETH_Pp_PT_DROP 0, 2)]

namespace Act.Within

theorem linkDown {p : Nat} : Within (.events linkRegs [.eth]) (Act.linkDown p) :=
  .read fun _ => .when <| .all ⟨.setB, .setF, .setB, .sat Reach.has_array, .raise, .sub .brFlush, .sub .ptDrop,
    .units,
    .sub .pauseEval⟩

theorem linkRestart {p : Nat} : Within (.events linkRegs [.eth]) (Act.linkRestart p) :=
  .read fun _ => .seq .linkDown .units

theorem discardWork : Within (.quiet [(BT_PEn_STAT 0, 16)] [.accel, .bt, .rx, .mac]) Act.discardWork :=
  .all ⟨.units, .units, .each fun _ => .sub .engineStat, .units, .units⟩

theorem healthPin : Within (.quiet [] [.pair]) Act.healthPin := .read fun _ => .when .units

end Act.Within

theorem Act.Stores.txAbort {c : Chain} {recal back : Bool} :
    Stores (.events releaseRegs [.env, .eth, .sch, .rf, .mac, .pair]) (Act.txAbort c recal back) := by
  refine read fun _ => ?_
  split
  · exact nop
  · refine when <| seq (within .txCmd) ?_
    split
    · exact nop
    · refine ite (within .entryBack) ?_
      split
      · exact sub airRelease
      · exact nop

/-- R137: the transmitters stop with the mode. -/
theorem Act.Stores.txModeAbort : Stores (.events ((MAC_ACK_DROP, 1) :: chainRegs ++ releaseRegs)
    [.env, .eth, .sch, .rf, .mac, .pair]) Act.txModeAbort :=
  each fun _ => read fun _ => all ⟨ite (sub txAbort) (when (within .txGiveUp)), within .planLost, within .acksLost,
    within .txCmd⟩

/-- R31, R511: MODE reads the mode entered. -/
theorem Act.mode_enterMode (m : Mode) (row : Nat) (s : State) : ((Act.enterMode m row).run s).mode = m := by
  rw [Act.enterMode, Act.run_read]
  dsimp only
  rw [Act.run_when]
  split
  · have hset (t : State) : State.FldIs GEN_MODE_MODE m.code ((Act.setF GEN_MODE_MODE m.code).run t) :=
      (Act.fld_setF_same GEN_MODE_MODE _ t rfl (by decide)).trans (by cases m <;> rfl)
    rw [Act.run_all_cons, Act.run_all_cons]
    exact State.FldIs.mode <| (hset _).run <| .all ⟨.fldSetB,
      .fld (R := .quiet [(GEN_MODE_CHANGES, 1)] []) .wrap rfl, .fldUnits,
      .fld .applyModeLevel rfl, .when (.fld .stopSequencer rfl), .when (.fld .startSequencer rfl),
      .fld (R := .quiet [(HIF_STATUS, 1)] []) .setB rfl, .when .fldUnits, .fld (R := .events [] []) .raise rfl⟩
  · next h => simpa using h

/-- What follows a change of the mode from `old` to `m` (R23–R25, R137, R449, R453, R475). -/
def Act.modeFollow (old m : Mode) : Act :=
  all [when (old.airTx && !m.airTx) (.seq txModeAbort aliveRelease),
    when (old.airRx && !m.airRx) (each (List.range 80) fun n => endBoth n rxChannelOff),
    when (old.runs && !m.runs) discardWork,
    when (!m.serves) (pair fun p => { p with window := 0 }),
    ethPath,
    if decide (m = .cold) || decide (m = .drift) || decide (m = .hold) then .seq (linkDown 0) (linkDown 1)
      else when (old.bridgeDefaults != m.bridgeDefaults) (.seq (linkRestart 0) (linkRestart 1)),
    when (!old.sendsUplink && m.sendsUplink)
      (.seq (ethUnit 0 fun u => { u with naLeft := 3 }) (ethUnit 1 fun u => { u with naLeft := 3 })),
    when (!m.runs) (mac fun c => { c with listens := c.listens.filter fun l => !l.closed }),
    rxRunning .s, rxRunning .w, poolStat,
    healthPin,
    fcFollow]

theorem Act.shift_eq (m : Mode) (row : Nat) : shift m row =
    .read fun s => when (!decide (s.mode = m)) (.seq (enterMode m row) (modeFollow s.mode m)) := rfl

/-- Where what follows a change of the mode shows. -/
def followRegs : List (Nat × Nat) :=
  [(PAIR_STATUS, 1), (BT_PEn_STAT 0, 16)] ++ linkRegs ++ receiveRegs ++ (MAC_ACK_DROP, 1) :: chainRegs ++ releaseRegs

theorem Act.Stores.modeFollow {old m : Mode} : Stores
    (.events followRegs [.accel, .rx, .env, .eth, .sch, .rf, .mac, .pair]) (Act.modeFollow old m) :=
  all ⟨when (seq (sub txModeAbort) (within .aliveRelease)), when (each fun _ => within .endBoth),
    when (within .discardWork), when units, within .ethPath,
    ite (seq (within .linkDown) (within .linkDown)) (when (seq (within .linkRestart) (within .linkRestart))),
    when (seq (within .ethUnit) (within .ethUnit)), when units, within .rxRunning, within .rxRunning, within .poolStat,
    within .healthPin, sub fcFollow⟩

/-- The major mode is this one. -/
def State.ModeIs (m : Mode) (s : State) : Prop := s.mode = m

theorem State.ModeIs.run {m : Mode} {s : State} {a : Act} (h : State.ModeIs m s)
    (ha : Act.Keeps (State.ModeIs m) a) : State.ModeIs m (a.run s) := ha s h

namespace Act.Keeps

variable {m : Mode}

theorem modeStores {R : Reach} {a : Act} (h : Act.Stores R a) (hx : R.has GEN_MODE = false := by decide +kernel) :
    Keeps (State.ModeIs m) a := fun s hs => (State.mode_congr (h.reg_eq hx s)).trans hs

theorem modeWithin {R : Reach} {a : Act} (h : Act.Within R a) (hx : R.has GEN_MODE = false := by decide +kernel) :
    Keeps (State.ModeIs m) a := fun s hs => (State.mode_congr ((h.fits s).reg GEN_MODE hx)).trans hs

theorem modeUnits {f : Units → Units} : Keeps (State.ModeIs m) (.units f) := fun _ hs => hs

/-- A field of GEN_MODE above MODE. -/
theorem modeSetF {f : Field} {v : Nat} (h : Field.apart f GEN_MODE_MODE = true := by decide)
    (hf : f.lo + f.width ≤ 32 := by decide) : Keeps (State.ModeIs m) (Act.setF f v) := fun s hs => by
  rw [State.ModeIs, State.mode, Act.fld_setF_apart f _ v s h hf (by decide)]
  exact hs

end Act.Keeps

/-- What a change of the mode reaches: neither the security block nor what it shows. -/
abbrev shiftReach : Reach :=
  .events (modeRegs ++ followRegs) [.tk, .pwr, .accel, .rx, .env, .eth, .sch, .rf, .mac, .pair]

theorem Act.Stores.shift {m : Mode} {row : Nat} : Stores shiftReach (Act.shift m row) := by
  rw [shift_eq]
  exact read fun _ => when <| seq (within .enterMode) (sub modeFollow)

theorem Act.mode_shift (m : Mode) (row : Nat) (s : State) : ((shift m row).run s).mode = m := by
  rw [shift_eq, run_read, run_when]
  split
  · rw [run_seq]
    exact State.ModeIs.run (mode_enterMode m row s) (.modeStores .modeFollow)
  · next h => simpa using h

/-! ### Zeroising, and the entry into HOLD (R25, R396, R397) -/

/-- What the entry into HOLD reaches: neither the security block nor what it shows. -/
abbrev holdReach : Reach :=
  .events ((PWR_REQ_STAT, 1) :: modeRegs ++ followRegs)
    [.tk, .pwr, .boot, .accel, .rx, .env, .eth, .sch, .rf, .mac, .pair]

theorem Act.Stores.holdEntry : Stores holdReach Act.holdEntry :=
  read fun _ => when <| all ⟨sub shift, within .aliveRelease, when (seq setF setB), units, units, units, setF⟩

/-- R25: HOLD is entered from any mode. -/
theorem Act.mode_holdEntry (s : State) : (holdEntry.run s).mode = .hold := by
  rw [holdEntry, run_read, run_when]
  split
  · rw [run_all_cons]
    exact State.ModeIs.run (mode_shift .hold 20 s) <| .all ⟨.modeWithin .aliveRelease,
      .when (.seq .modeSetF .modeSetF),
      .modeUnits, .modeUnits, .modeUnits, .modeSetF⟩
  · next h => simpa using h

theorem Act.Stores.zero {R : Reach} {base len : Nat} : Stores R (.zero base len) := fun _ =>
  ⟨fun _ _ => rfl, fun _ hx => (nomatch hx), .refl _ _⟩

theorem Act.Within.abortCiphers : Within (.quiet [(BT_PEn_STAT 0, 16)] [.bt, .accel]) Act.abortCiphers :=
  .read fun _ => .each fun _ => .seq (.sub .opZero) .finish

/-- The store of keys and the cache of derived keys are empty (R397). -/
def Sec.Erased (x : Sec) : Prop := x.slots = [] ∧ x.cache = []

/-- The machine is zeroised (R397): no key is left, and SEC_STATUS shows it. -/
def State.Zeroised (s : State) : Prop := State.SecHas Sec.Erased s ∧ State.FldIs SEC_STATUS_ZEROISED 1 s

theorem State.Zeroised.run {s : State} {a : Act} (h : s.Zeroised) (ha : Act.Keeps State.Zeroised a) :
    (a.run s).Zeroised := ha s h

theorem Act.Keeps.zeroised {R : Reach} {a : Act} (h : Act.Stores R a) (hsec : .sec ∉ R.units := by decide)
    (hx : R.has SEC_STATUS = false := by decide +kernel) : Keeps State.Zeroised a := fun s hs =>
  ⟨secStores h hsec s hs.1, fldOfReg (fun _ => regStores h hx) s hs.2⟩

/-- R397: whatever the store held, zeroising leaves no key. -/
theorem Act.zeroised_zeroise (s : State) : (zeroise.run s).Zeroised := by
  rw [zeroise, run_read]
  constructor
  · rw [run_all_cons, run_all_cons]
    refine State.SecHas.run ⟨rfl, rfl⟩ (.all (l := [_, _, _, _, _, _]) ⟨.secStores (R := .quiet [] []) .zero,
      .secWithin .slotsValid, .secWithin (R := .quiet [(SEC_STATUS, 1)] []) .setB,
      .secWithin (R := .quiet [(SEC_STATUS, 1)] []) .setB, .secWithin (R := .quiet [(SEC_ZEROISE_CNT, 1)] []) .sat,
      .secWithin (R := .events [] []) .raise⟩)
  · rw [run_all_cons, run_all_cons, run_all_cons, run_all_cons, run_all_cons, run_all_cons]
    exact State.FldIs.run (fldIs_setB SEC_STATUS_ZEROISED true _ rfl) (.all (l := [_, _])
      ⟨.fld (R := .quiet [(SEC_ZEROISE_CNT, 1)] []) .sat rfl, .fld (R := .events [] []) .raise rfl⟩)

theorem Act.Within.eraseKeyArea : Within (.quiet [] [.boot]) Act.eraseKeyArea := .read fun _ => .when .units

/-- R396, R397: in every mode zeroising leaves no key and enters HOLD. -/
theorem Act.zeroised_zeroiseHold (s : State) :
    (zeroiseHold.run s).Zeroised ∧ (zeroiseHold.run s).mode = .hold := by
  rw [zeroiseHold, run_all_cons, run_all_cons]
  constructor
  · exact ((zeroised_zeroise s).run (.zeroised .holdEntry)).run (.all (l := [_])
      (.zeroised (R := .quiet [] [.boot]) (.within .eraseKeyArea)))
  · exact State.ModeIs.run (mode_holdEntry _) (.all (l := [_]) (.modeWithin .eraseKeyArea))

/-! ### Tamper causes (R395, R396) -/

/-- What zeroising reaches. -/
abbrev zeroiseReach : Reach :=
  .events [(BT_PEn_STAT 0, 16), (SEC_STATUS, 1), (SEC_ZEROISE_CNT, 1)] [.accel, .sec]

theorem Act.Stores.zeroise : Stores zeroiseReach Act.zeroise :=
  read fun _ => all ⟨within .abortCiphers, units, zero, within .slotsValid, setB, setB, sat, raise⟩

theorem Act.Within.latchTamper {cause : Nat} :
    Within (.events [(SEC_TAMPER_CNT, 1), (SEC_TAMPER_STAT, 1), (SEC_STATUS, 1)] []) (Act.latchTamper cause) :=
  .read fun _ => .seq .sat <| .when <| .all ⟨.setB, .setF, .setF, .setB, .raise⟩

/-- What a tamper cause leaves of the latch: it is set, and the first cause stands in it (R396). -/
def State.Latched (first : Option Nat) (s : State) : Prop :=
  State.FldIs SEC_TAMPER_STAT_LATCHED 1 s ∧ ∀ c, first = some c → State.FldIs SEC_TAMPER_STAT_CAUSE c s

theorem Act.Keeps.latched {R : Reach} {a : Act} {first : Option Nat} (h : Act.Stores R a)
    (hx : R.has SEC_TAMPER_STAT = false := by decide +kernel) : Keeps (State.Latched first) a := fun s hs =>
  ⟨fldOfReg (fun _ => regStores h hx) s hs.1, fun c hc => fldOfReg (fun _ => regStores h hx) s (hs.2 c hc)⟩

theorem State.Latched.run {first : Option Nat} {s : State} {a : Act} (h : s.Latched first)
    (ha : Act.Keeps (State.Latched first) a) : (a.run s).Latched first := ha s h

/-- The cause that a latch records: none where one stands already. -/
def State.firstCause (s : State) (cause : Nat) : Option Nat :=
  if s.bit SEC_TAMPER_STAT_LATCHED then none else some (cause % 8)

/-- R396: a cause is latched, the first one recorded. -/
theorem Act.latched_latchTamper (cause : Nat) (s : State) :
    ((latchTamper cause).run s).Latched (s.firstCause cause) := by
  have hcount : Stores (.quiet [(SEC_TAMPER_CNT, 1)] []) (sat SEC_TAMPER_CNT) := .sat
  rw [latchTamper, run_read, run_seq, run_when, State.firstCause]
  cases hold : s.bit SEC_TAMPER_STAT_LATCHED with
  | true =>
    have hbefore : s.Latched none := ⟨State.FldIs.of_bit hold, fun _ h => nomatch h⟩
    exact hbefore.run (.latched hcount)
  | false =>
    rw [Bool.not_false, if_pos rfl, if_neg Bool.false_ne_true, run_all_cons, run_all_cons]
    have hset (t : State) : State.FldIs SEC_TAMPER_STAT_CAUSE (cause % 8) ((setF SEC_TAMPER_STAT_CAUSE cause).run t) :=
      fld_setF_same _ _ _ rfl (by decide)
    have hlatched (t : State) : ((setF SEC_TAMPER_STAT_CAUSE cause).run
        ((setB SEC_TAMPER_STAT_LATCHED true).run t)).Latched (some (cause % 8)) :=
      ⟨State.FldIs.run (fldIs_setB SEC_TAMPER_STAT_LATCHED true t rfl) .fldSetF, fun c hc => by
        obtain rfl := Option.some.inj hc
        exact hset _⟩
    refine (hlatched _).run (.all (l := [_, _, _]) ⟨fun t ht => ?_, .latched (R := .quiet [(SEC_STATUS, 1)] []) .setB,
      .latched (R := .events [] []) .raise⟩)
    exact ⟨ht.1.run .fldSetF, fun c hc => (ht.2 c hc).run .fldSetF⟩

/-- What a cause is answered with keeps, the cause itself keeps (R396). -/
theorem Act.Keeps.tamper {P : State → Prop} {cause : Nat} (hcount : Keeps P (Act.sat SEC_TAMPER_CNT))
    (hlatch : Keeps P (Act.latchTamper cause)) (hzero : Keeps P Act.zeroise) (hhold : Keeps P Act.holdEntry)
    (herase : Keeps P Act.eraseKeyArea) : Keeps P (Act.tamper cause) := by
  have hall : Keeps P Act.zeroiseHold := all ⟨hzero, hhold, herase⟩
  refine read fun s => ?_
  split
  · exact hcount
  · exact hlatch
  · exact hlatch
  · exact ite (seq hlatch hhold) (seq hlatch hall)
  · exact seq hlatch hall

/-- R396: a cause in SOLO is latched, the store zeroised and HOLD entered. -/
theorem Act.answered_tamper {s : State} (hmode : s.mode = .solo) (cause : Nat) :
    ((tamper cause).run s).Zeroised ∧ ((tamper cause).run s).mode = .hold ∧
    ((tamper cause).run s).Latched (s.firstCause cause) := by
  have hrun : (tamper cause).run s = zeroiseHold.run ((latchTamper cause).run s) := by
    rw [tamper, run_read, hmode, run_seq]
  rw [hrun]
  refine ⟨(zeroised_zeroiseHold _).1, (zeroised_zeroiseHold _).2, ?_⟩
  rw [zeroiseHold]
  exact (latched_latchTamper cause s).run (.all ⟨.latched .zeroise, .latched .holdEntry,
    .latched (R := .quiet [] [.boot]) (.within .eraseKeyArea)⟩)

/-- A monitor's condition is present. -/
def State.MonitorIn (m : Nat) (s : State) : Prop := State.SecHas (fun x => m ∈ x.mon) s

/-- R396, R397: an answer to a cause leaves the monitor conditions. -/
theorem Act.Keeps.monitorTamper {m cause : Nat} : Keeps (State.MonitorIn m) (Act.tamper cause) := by
  have hzero : Keeps (State.MonitorIn m) Act.zeroise :=
    read fun _ => all ⟨secWithin .abortCiphers, secUpdate fun _ h => h, secStores (R := .quiet [] []) .zero,
      secWithin .slotsValid, secWithin (R := .quiet [(SEC_STATUS, 1)] []) .setB,
      secWithin (R := .quiet [(SEC_STATUS, 1)] []) .setB, secWithin (R := .quiet [(SEC_ZEROISE_CNT, 1)] []) .sat,
      secWithin (R := .events [] []) .raise⟩
  exact tamper (secWithin (R := .quiet [(SEC_TAMPER_CNT, 1)] []) .sat) (secWithin .latchTamper) hzero
    (secStores .holdEntry) (secWithin .eraseKeyArea)

/-- R396: nor does it clear that one is present. -/
theorem Act.Keeps.fldMonNowTamper {n cause : Nat} :
    Keeps (State.FldIs SEC_TAMPER_STAT_MON_NOW n) (Act.tamper cause) := by
  have off {R : Reach} {a : Act} (h : Act.Stores R a) (hx : R.has SEC_TAMPER_STAT = false := by decide +kernel) :
      Keeps (State.FldIs SEC_TAMPER_STAT_MON_NOW n) a := fldOfReg fun _ => regStores h hx
  have hcount : Keeps (State.FldIs SEC_TAMPER_STAT_MON_NOW n) (Act.sat SEC_TAMPER_CNT) :=
    off (R := .quiet [(SEC_TAMPER_CNT, 1)] []) .sat
  have hlatch : Keeps (State.FldIs SEC_TAMPER_STAT_MON_NOW n) (Act.latchTamper cause) :=
    read fun _ => seq hcount <| when <| all ⟨fldSetB, fldSetF, fldSetF, off (R := .quiet [(SEC_STATUS, 1)] []) .setB,
      off (R := .events [] []) .raise⟩
  exact tamper hcount hlatch (off .zeroise) (off .holdEntry) (off (R := .quiet [] [.boot]) (.within .eraseKeyArea))

/-- What a tamper cause and the pair's record keep, a monitor condition keeps (R395). -/
theorem Act.Keeps.monitorMet {P : State → Prop} {code setting : Nat}
    (hevent : Keeps P (Act.raiseOnce 73 code (leBytes 1 code))) (hpair : ∀ f, Keeps P (Act.pair f))
    (htamper : Keeps P (Act.tamper code)) : Keeps P (Act.monitorMet code setting) :=
  seq (when (seq hevent (read fun _ => hpair _))) (when (seq (hpair _) htamper))

/-- R395, R409: a ball's level shows, and its active level starts the debounce where the ball is enabled. -/
theorem completes_tamperPinEdge (s : State) (pin : Fin 2) (high : Bool) :
    Completes (.tamperPinEdge pin high) s fun t =>
      (pin.val = 0 → t.u.pins.tamper0 = (high != s.bit SEC_TAMPER_CFG_T0_LOW) ∧
        t.u.sec.deb0 = ((high != s.bit SEC_TAMPER_CFG_T0_LOW) && s.bit SEC_TAMPER_CFG_T0_EN)) ∧
      (pin.val = 1 → t.u.pins.tamper1 = (high != s.bit SEC_TAMPER_CFG_T1_LOW) ∧
        t.u.sec.deb1 = ((high != s.bit SEC_TAMPER_CFG_T1_LOW) && s.bit SEC_TAMPER_CFG_T1_EN)) := by
  refine ⟨_, rfl, fun hpin => ?_, fun hpin => ?_⟩ <;>
    simp [hpin, Act.pins, Act.sec, Act.setB]

/-- R395, R396: a ball that stayed active past DEB_US in SOLO is a cause of its own. -/
theorem completes_tamperDebounced {s : State} {pin : Fin 2}
    (hruns : (if pin.val = 0 then s.u.sec.deb0 && s.bit SEC_TAMPER_CFG_T0_EN
      else s.u.sec.deb1 && s.bit SEC_TAMPER_CFG_T1_EN) = true) (hmode : s.mode = .solo) :
    Completes (.tamperDebounced pin) s fun t =>
      t.Zeroised ∧ t.mode = .hold ∧ t.Latched (s.firstCause (pin.val + 1)) := by
  refine ⟨_, rfl, ?_⟩
  rw [Act.run_read]
  rcases (by omega : pin.val = 0 ∨ pin.val = 1) with hpin | hpin
  · rw [hpin, if_pos rfl] at hruns
    rw [hpin, if_pos (beq_self_eq_true 0), hruns, Act.run_when, if_pos rfl, Act.run_seq]
    exact Act.answered_tamper (s := (Act.sec _).run s) hmode 1
  · rw [hpin, if_neg (by decide)] at hruns
    rw [hpin, if_neg (by decide), hruns, Act.run_when, if_pos rfl, Act.run_seq]
    exact Act.answered_tamper (s := (Act.sec _).run s) hmode 2

/-- R395: whatever a monitor's condition is answered with, it stands among those present. -/
theorem completes_monitorExcursion {s : State} (hreset : s.u.pins.resetN = true) (monitor : Fin 4) :
    Completes (.monitorExcursion monitor true) s fun t =>
      monitor.val ∈ t.u.sec.mon ∧ t.bit SEC_TAMPER_STAT_MON_NOW = true := by
  refine ⟨_, rfl, ?_⟩
  rw [Act.run_read, hreset]
  dsimp only
  rw [Bool.true_or, Bool.true_or, Bool.and_self, if_pos rfl, Act.run_all_cons]
  have hevent : Act.Within (.events [] []) (Act.raiseOnce 73 (Act.monitorCode monitor)
      (leBytes 1 (Act.monitorCode monitor))) := .raiseOnce
  have hmet {m : Nat} : Act.Keeps (State.MonitorIn m) (Act.monitorMet (Act.monitorCode monitor)
      (Act.monitorMode (s.reg SEC_TAMPER_CFG) (Act.monitorCode monitor))) :=
    .monitorMet (.secWithin hevent) (fun _ => .secWithin (R := .quiet [] [.pair]) .units) .monitorTamper
  have hmetNow {n : Nat} : Act.Keeps (State.FldIs SEC_TAMPER_STAT_MON_NOW n) (Act.monitorMet (Act.monitorCode monitor)
      (Act.monitorMode (s.reg SEC_TAMPER_CFG) (Act.monitorCode monitor))) :=
    .monitorMet (.fld hevent rfl) (fun _ => .fldUnits) .fldMonNowTamper
  constructor
  · change State.MonitorIn monitor.val ((Act.all [_, _]).run ((Act.sec _).run s))
    exact State.SecHas.run (List.mem_append_right _ (List.mem_singleton_self _))
      (.all ⟨.secWithin (R := .quiet [(SEC_TAMPER_STAT, 1)] []) .setB, .when hmet⟩)
  · have hpresent : (!((s.u.sec.mon.filter fun k => !(k == monitor.val)) ++ [monitor.val]).isEmpty) = true := by simp
    rw [hpresent, Act.run_all_cons]
    exact (State.FldIs.run (fldIs_setB SEC_TAMPER_STAT_MON_NOW true _ rfl) (.all (l := [_]) (.when hmetNow))).bit

end Sys2Proof.Machine

namespace Sys2Proof.Machine

set_option Elab.async false

open Sys2Proof Sys2Proof.Reg

/-! ### Guarded writes that are accepted (R609, R610) -/

/-- The machine once a guarded write of `x` is accepted: nothing is armed any more, and the guard shows it. -/
def State.guardTaken (x : Nat) (s : State) : State :=
  (Act.setF (guardResult x) grdAccepted).run ((Act.disarm x).run s)

theorem State.reg_guardTaken {x a : Nat} (hx : x + 8 ≠ a) (s : State) : (s.guardTaken x).reg a = s.reg a :=
  (Act.reg_setF_ne (guardResult x) _ _ hx).trans (Act.reg_setF_ne (guardArmed x) _ _ hx)

theorem State.mode_guardTaken {x : Nat} (hx : x + 8 ≠ GEN_MODE) (s : State) : (s.guardTaken x).mode = s.mode :=
  State.mode_congr (State.reg_guardTaken hx s)

@[simp] theorem State.fuse_guardTaken (x : Nat) (s : State) : (s.guardTaken x).u.fuse = s.u.fuse := by
  simp [State.guardTaken, Act.disarm, Act.setB, Act.hif]

/-- R609: the complement of the armed value has the register's effect, where the value is accepted and permitted. -/
theorem Act.run_guardComplement {s : State} {x : Nat} {v : Word} (harmed : s.armed x = some v)
    {check : Word → State → Nat} (hcheck : check v s = grdAccepted) (hpermit : s.permits x = true)
    (apply : Word → Act) : (guardComplement x (~~~v) check apply).run s = (apply v).run (s.guardTaken x) := by
  have hmismatch : grdAccepted ≠ grdMismatch := by decide
  rw [guardComplement, run_read, harmed]
  dsimp only
  rw [hcheck, hpermit, decide_eq_true rfl, Bool.not_true, if_neg Bool.false_ne_true, if_neg hmismatch,
    if_neg Bool.false_ne_true, if_pos rfl, run_seq, run_seq]
  rfl

/-- R395, R397: the guarded write of SEC_ZEROISE is a cause in SOLO. -/
theorem completes_secZeroise {s : State} {iface : HostIface} (hreach : s.reaches iface = true)
    (hpermit : s.permits SEC_ZEROISE = true) (harmed : s.armed SEC_ZEROISE = some 0x5A5A0001) (hmode : s.mode = .solo) :
    Completes (.secZeroise iface (~~~0x5A5A0001)) s fun t => t.Zeroised ∧ t.mode = .hold := by
  refine ⟨_, rfl, ?_⟩
  rw [Act.secZeroise, Act.run_reached hreach, Act.run_guardComplement harmed (by rfl) hpermit]
  obtain ⟨hzeroised, hhold, -⟩ :=
    Act.answered_tamper ((State.mode_guardTaken (x := SEC_ZEROISE) (by decide) s).trans hmode) 6
  exact ⟨hzeroised, hhold⟩

/-- R401: debug access in PROVISIONED is a cause in SOLO. -/
theorem completes_debugAccessOpen {s : State} (hlife : s.lifecycle = 1)
    (hlock : Nat.testBit (s.fuseRow 0).toNat 16 = false) (hmode : s.mode = .solo) :
    Completes .debugAccessOpen s fun t => t.Zeroised ∧ t.mode = .hold ∧ t.Latched (s.firstCause 7) := by
  refine ⟨_, rfl, ?_⟩
  rw [Act.run_read, hlife, hlock, hmode, Act.run_when, if_pos (by decide)]
  exact Act.answered_tamper hmode 7

/-! ### The reset that clears the tamper latch (R398, R553) -/

/-- A store cut down by key lists what it listed at the keys that stay. -/
theorem Store.get?_filter_of_keep {α : Type} (m : Store α) {keep : Nat → Bool} {a : Nat} (h : keep a = true) :
    Store.get? (m.filter fun e => keep e.1) a = Store.get? m a := by
  induction m with
  | nil => rfl
  | cons e m ih =>
    obtain ⟨k, v⟩ := e
    rw [List.filter_cons]
    split
    · rw [Store.get?_cons, Store.get?_cons, ih]
    · next hk =>
      have hne : k ≠ a := fun hka => hk (hka ▸ h)
      rw [Store.get?_cons, if_neg hne, ih]

/-- A register that a reset names to stay reads as before (R7). -/
theorem Act.reg_clear_of_keep {keep : Nat → Bool} {x : Nat} (h : keep x = true) (s : State) :
    ((Act.clear keep).run s).reg x = s.reg x := by
  rw [State.reg, State.reg]
  split
  · rfl
  · exact congrArg (Option.getD · 0) (Store.get?_filter_of_keep s.regs h)

namespace Act.Keeps

variable {x : Nat} {w : Word}

/-- R7: a reset leaves the AON registers. -/
theorem regResetDevice (h : Reg.isAon x = true := by rfl) (hx : TK_INCR_INT ≠ x := by decide) :
    Keeps (State.RegIs x w) Act.resetDevice :=
  seq (seq (fun s hs => (reg_clear_of_keep h s).trans hs) fun s hs => (State.reg_setReg_ne s _ hx).trans hs) regUnits

end Act.Keeps

/-- What follows the entry into ROM mode of a start of the boot ROM. -/
def Act.romFollow (st : Straps) : Act :=
  all [setF GEN_MODE_ROLE_B (if st.roleB then 1 else 0), setB PAIR_STATUS_ROLE_A (!st.roleB),
    pins fun p => { p with rcvrLow := st.rcvrLow, roleB := st.roleB },
    ethPath, linkRestart 0, linkRestart 1,
    wrap BOOT_COUNT,
    setF BOOT_STATUS_STAGE 1,
    boot fun b => { b with running := true }]

theorem Act.startRom_eq (old : Mode) (row : Nat) (st : Straps) : startRom old row st =
    .seq (setF GEN_MODE_MODE old.code) (.seq seedTime (.seq (enterMode .rom row) (romFollow st))) := rfl

theorem Act.Within.seedTime : Within (.quiet [(TK_STATUS, 1)] [.tk]) Act.seedTime :=
  .read fun _ => .all ⟨.units, .setB, .setF, .setF, .setB, .setB⟩

/-- What the start of the boot ROM reaches. -/
abbrev romReach : Reach :=
  .events ([(PAIR_STATUS, 1), (BOOT_COUNT, 1), (BOOT_STATUS, 1), (TK_STATUS, 1)] ++ modeRegs ++ linkRegs)
    [.pins, .eth, .boot, .tk, .pwr]

theorem Act.Within.startRom {old : Mode} {row : Nat} {st : Straps} : Within romReach (Act.startRom old row st) :=
  .all ⟨.setF, .sub .seedTime, .sub .enterMode, .setF, .setB, .units, .sub .ethPath, .sub .linkRestart,
    .sub .linkRestart, .wrap, .setF, .units⟩

/-- R553: the boot ROM runs in ROM mode, whatever the mode was. -/
theorem Act.started_startRom (old : Mode) (row : Nat) (st : Straps) (s : State) :
    ((startRom old row st).run s).mode = .rom ∧ ((startRom old row st).run s).u.boot.running = true := by
  rw [startRom_eq, run_seq, run_seq, run_seq]
  constructor
  · exact State.ModeIs.run (mode_enterMode .rom row _) <| .all ⟨.modeSetF,
      .modeWithin (R := .quiet [(PAIR_STATUS, 1)] []) .setB, .modeUnits, .modeWithin .ethPath, .modeWithin .linkRestart,
      .modeWithin .linkRestart, .modeWithin (R := .quiet [(BOOT_COUNT, 1)] []) .wrap,
      .modeWithin (R := .quiet [(BOOT_STATUS, 1)] []) .setF, .modeUnits⟩
  · rfl

/-- R398, R536: a reset ends in ROM mode with the boot under way, and leaves the tamper latch. -/
theorem Act.started_resetKeepStraps (row : Nat) (s : State) :
    ((resetKeepStraps row).run s).mode = .rom ∧ ((resetKeepStraps row).run s).u.boot.running = true := by
  rw [resetKeepStraps, run_read, resetIntoRom, run_read, run_seq, run_seq]
  exact started_startRom _ _ _ _

theorem Act.Keeps.regResetKeepStraps {w : Word} {row : Nat} :
    Keeps (State.RegIs SEC_TAMPER_STAT w) (Act.resetKeepStraps row) :=
  read fun _ => read fun _ => seq regResetDevice <|
    seq (reg (R := .quiet [(PAIR_STATUS, 1)] []) .setB rfl) (reg .startRom rfl)

theorem Act.Within.aonPass {ticks : Nat} : Within (.quiet [(PWR_ACC_DRIFT_S, 1)] [.tk, .pwr]) (Act.aonPass ticks) :=
  .read fun _ => .seq .units <| .when <| .seq .units .wrapBy

/-- R398: with no cause present the latch clears and the device resets into ROM mode. -/
theorem completes_secTamperClr {s : State} {iface : HostIface} (hreach : s.reaches iface = true)
    (hpermit : s.permits SEC_TAMPER_CLR = true) (harmed : s.armed SEC_TAMPER_CLR = some 0x5A5A0002)
    (h0 : s.bit SEC_TAMPER_STAT_T0_NOW = false) (h1 : s.bit SEC_TAMPER_STAT_T1_NOW = false)
    (hmon : s.bit SEC_TAMPER_STAT_MON_NOW = false) (ticks : BitVec 40) :
    Completes (.secTamperClr iface (~~~0x5A5A0002) ticks) s fun t =>
      t.mode = .rom ∧ t.bit SEC_TAMPER_STAT_LATCHED = false ∧ t.u.boot.running = true := by
  refine ⟨_, rfl, ?_⟩
  rw [Act.secTamperClr, Act.run_reached hreach, Act.run_guardComplement harmed (by rw [h0, h1, hmon]; rfl) hpermit,
    Act.run_read, Act.run_all_cons]
  refine and_left_comm.1 ⟨?_, ?_⟩
  · exact (State.FldIs.run (fldIs_setB SEC_TAMPER_STAT_LATCHED false _ rfl) (.all (l := [_, _, _, _])
      ⟨.fldSetF, .fldSetF, .fld .aonPass rfl, .fldOfReg fun _ => .regResetKeepStraps⟩)).bit
  · exact Act.started_resetKeepStraps _ _

/-! ### Slot queries (R406, R410) -/

/-- SEC_SLOT_META0 and 1 show a slot. -/
def State.MetaShows (k : KeySlot) (s : State) : Prop :=
  State.RegIs SEC_SLOT_META0 (BitVec.ofNat 32 k.attr) s ∧
  State.RegIs SEC_SLOT_META1 (BitVec.ofNat 32 (k.parent + 2 ^ 16 * k.gen)) s

theorem Act.metaShows_slotMeta (n : Nat) (good : Bool) (s : State) :
    ((slotMeta n good).run s).MetaShows (s.slot n) := by
  have hset {a : Nat} (h : fixedReg a = none) (w : Word) (t : State) : State.RegIs a w ((Act.reg a w).run t) := by
    rw [State.RegIs, run_reg, State.reg_setReg, if_pos ⟨rfl, h⟩]
  have hne {a x : Nat} (hx : a ≠ x) {v w : Word} : Keeps (State.RegIs x w) (.reg a v) := fun t ht =>
    (State.reg_setReg_ne t v hx).trans ht
  rw [slotMeta, run_read]
  constructor
  · rw [run_all_cons]
    exact (hset rfl _ _).run (.all ⟨hne (by decide), hne (by decide)⟩)
  · rw [run_all_cons, run_all_cons]
    exact (hset rfl _ _).run (.all (l := [_]) (hne (by decide)))

/-- SEC_SLOT_STAT shows a query answered with no error. -/
def State.QueryOk (s : State) : Prop := s.bit SEC_SLOT_STAT_VALID = true ∧ s.fld SEC_SLOT_STAT_RESULT = 0

/-- What a query shows besides the work it asks for. -/
def Act.queryEnd : Act := all [setF SEC_SLOT_STAT_RESULT 0, setB SEC_SLOT_STAT_VALID true]

theorem Act.Within.queryEnd : Within (.quiet [(SEC_SLOT_STAT, 1)] []) Act.queryEnd := .all ⟨.setF, .setB⟩

theorem Act.queryOk_queryEnd (s : State) : (queryEnd.run s).QueryOk := by
  rw [queryEnd, run_all_cons, run_all_cons, run_all_nil]
  have hresult : State.FldIs SEC_SLOT_STAT_RESULT 0 ((setF SEC_SLOT_STAT_RESULT 0).run s) :=
    fld_setF_same _ _ s rfl (by decide)
  exact ⟨(fldIs_setB SEC_SLOT_STAT_VALID true _ rfl).bit, hresult.run .fldSetB⟩

/-- R410: where the key store runs, a permitted query does its work and shows it. -/
theorem Act.run_slotQuery {s : State} {iface : HostIface} (hreach : s.reaches iface = true)
    (hpermit : s.permits SEC_SLOT_CMD = true) (hmode : s.mode.runs = true) (k : Act) :
    (permitted iface SEC_SLOT_CMD (slotQuery k)).run s = queryEnd.run (k.run s) := by
  rw [run_permitted hreach hpermit, slotQuery, run_read, if_pos hmode, run_all_cons, queryEnd]

theorem Act.Keeps.metaQueryEnd {k : KeySlot} : Keeps (State.MetaShows k) Act.queryEnd := fun s hs =>
  ⟨reg .queryEnd rfl s hs.1, reg .queryEnd rfl s hs.2⟩

/-- R382: a slot that tears keeps what its attributes say. -/
theorem Act.slot_tear (n : Nat) (s : State) :
    ((tear n).run s).slot n = { s.slot n with key := 0, state := .torn } := by
  rw [tear, run_read, run_all_cons]
  exact State.SlotIs.run (slot_putSlot_same ..) (.all (l := [_, _, _, _, _, _]) ⟨.secUpdate fun _ h => h,
    .slotOrphanWalk, .secWithin (R := .quiet [(SEC_TORN, 1)] []) .sat, .secWithin (R := .quiet [] [.pair]) .units,
    .secWithin (R := .events [] []) .raise, .secWithin .slotsValid⟩)

section

variable {s : State} {iface : HostIface} (hreach : s.reaches iface = true) (hpermit : s.permits SEC_SLOT_CMD = true)
  (hmode : s.mode.runs = true) (slot : Fin 1024)
include hreach hpermit hmode

theorem completes_slotReadMeta : Completes (.slotReadMeta iface slot) s fun t =>
    t.MetaShows (s.slot slot) ∧ t.QueryOk := by
  refine ⟨_, rfl, ?_⟩
  rw [Act.slotReadMeta, Act.run_slotQuery hreach hpermit hmode]
  exact ⟨Act.Keeps.metaQueryEnd _ (Act.metaShows_slotMeta slot false s), Act.queryOk_queryEnd _⟩

/-- R410, R382: a TAG that fails tears a VALID slot, and the query shows the slot as it stands. -/
theorem completes_slotVerifyTag (upset : Bool) : Completes (.slotVerifyTag iface slot upset) s fun t =>
    t.QueryOk ∧ t.reg SEC_SLOT_META0 = BitVec.ofNat 32 (s.slot slot).attr ∧
    ((s.slot slot).state = .valid → (upset || !s.tagOk slot) = true → (t.slot slot).state = .torn) := by
  refine ⟨_, rfl, ?_⟩
  rw [Act.slotVerifyTag, Act.run_slotQuery hreach hpermit hmode, Act.run_read, Act.run_seq, Act.run_when]
  refine ⟨Act.queryOk_queryEnd _, ?_, fun hvalid hbad => ?_⟩
  · rw [(Act.Keeps.metaQueryEnd _ (Act.metaShows_slotMeta slot _ _)).1]
    split
    · rw [Act.slot_tear]
    · rfl
  · have htear : (!(!upset && s.tagOk slot) && decide ((s.slot slot).state = .valid)) = true := by
      rw [decide_eq_true hvalid, Bool.and_true, Bool.not_and, Bool.not_not]
      exact hbad
    rw [if_pos htear, State.slot_congr (Act.Within.queryEnd.sec (by decide) _),
      State.slot_congr (Act.Within.slotMeta.sec (by decide) _), Act.slot_tear]

end

/-! ### Fuses (R403, R404, R411) -/

/-- R411: a row is read, the key rows as 0. -/
theorem completes_fuseReadReq {s : State} {iface : HostIface} (hreach : s.reaches iface = true)
    (hpermit : s.permits FUSE_READ_REQ = true) (value : BitVec 32) :
    Completes (.fuseReadReq iface value) s fun t =>
      t.reg FUSE_READ_DATA = (if 20 ≤ fieldOf value 0 7 ∧ fieldOf value 0 7 ≤ 28 then 0
        else s.fuseRow (fieldOf value 0 7)) ∧
      t.reg FUSE_READ_REQ = BitVec.ofNat 32 (2 ^ 31 + fieldOf value 0 7) := by
  refine ⟨_, rfl, ?_⟩
  rw [Act.fuseReadReq, Act.run_permitted hreach hpermit, Act.run_read, Act.run_seq, Act.run_reg, Act.run_reg]
  constructor
  · rw [State.reg_setReg_ne _ _ (by decide), State.reg_setReg, if_pos ⟨rfl, rfl⟩]
  · rw [State.reg_setReg, if_pos ⟨rfl, rfl⟩]

/-- A fuse operation is under way, and FUSE_STATUS shows it (R403, R404). -/
def State.Programs (j : FuseJob) (s : State) : Prop :=
  s.u.fuse.job = some j ∧ State.FldIs FUSE_STATUS_PROG_BUSY 1 s

theorem Act.programs_fuseStart (row : Nat) (bits : Word) (advance : Bool) (s : State) :
    ((fuseStart row bits advance).run s).Programs ⟨row, bits, advance⟩ := by
  rw [fuseStart, run_seq]
  exact ⟨by rw [setB, setF_u]; rfl, fldIs_setB FUSE_STATUS_PROG_BUSY true _ rfl⟩

/-- R404: an accepted guarded write of a fuse register that starts programming. -/
theorem Act.programs_fuseGuard {s : State} {x : Nat} {v : Word} {j : FuseJob} (harmed : s.armed x = some v)
    {check : Word → State → Nat} (hcheck : check v s = grdAccepted) (hpermit : s.permits x = true)
    {apply : Word → Act} (happly : ((apply v).run (s.guardTaken x)).Programs j) :
    ((fuseGuard x (~~~v) check apply).run s).Programs j := by
  have hrefuse (t : State) (ht : t.Programs j) : ((fuseRefuse fuseNotPermitted).run t).Programs j :=
    ⟨by rw [fuseRefuse, setF_u]; exact ht.1, ht.2.run .fldSetF⟩
  rw [fuseGuard, run_read, run_seq, run_guardComplement harmed hcheck hpermit, run_read, run_when]
  split
  · exact hrefuse _ happly
  · exact happly

section

variable {s : State} {iface : HostIface} {v : Word} (hreach : s.reaches iface = true)
  (hidle : s.bit FUSE_STATUS_PROG_BUSY = false)
include hreach hidle

/-- R404: programming of an allowed row starts. -/
theorem completes_fuseProg (hpermit : s.permits FUSE_PROG = true) (harmed : s.armed FUSE_PROG = some v)
    (hrow : v.toNat < 128) (hallowed : fuseAllowed s.lifecycle v.toNat (s.reg FUSE_PROG_DATA) = true) :
    Completes (.fuseProg iface (~~~v)) s (State.Programs ⟨v.toNat, s.reg FUSE_PROG_DATA, false⟩) := by
  refine ⟨_, rfl, ?_⟩
  rw [Act.fuseProgGuard, Act.run_reached hreach]
  refine Act.programs_fuseGuard harmed ?_ hpermit ?_
  · rw [if_neg (by omega), hidle, if_neg Bool.false_ne_true]
  · have hlife : (s.guardTaken FUSE_PROG).lifecycle = s.lifecycle := by
      rw [State.lifecycle, State.fuseRow, State.fuse_guardTaken, State.lifecycle, State.fuseRow]
    rw [Act.run_read, hlife, State.reg_guardTaken (by decide), if_pos hallowed]
    exact Act.programs_fuseStart ..

/-- R403: the advance from PROVISIONED starts. -/
theorem completes_fuseAdvance (hpermit : s.permits FUSE_ADVANCE = true) (harmed : s.armed FUSE_ADVANCE = some v)
    (hnext : v.toNat = s.lifecycle + 1) (hlife : s.lifecycle = 1) :
    Completes (.fuseAdvance iface (~~~v)) s (State.Programs ⟨0, 0xF0, true⟩) := by
  refine ⟨_, rfl, ?_⟩
  rw [Act.fuseAdvanceGuard, Act.run_reached hreach]
  have hv : v.toNat = 2 := by rw [hnext, hlife]
  refine Act.programs_fuseGuard harmed ?_ hpermit ?_
  · rw [hv, if_neg (by decide), hidle, if_neg Bool.false_ne_true]
  · have hlife' : (s.guardTaken FUSE_ADVANCE).lifecycle = 1 := by
      rw [State.lifecycle, State.fuseRow, State.fuse_guardTaken]
      exact hlife
    rw [Act.run_read]
    dsimp only
    rw [hlife', hv, if_neg (by simp), Act.run_seq, Act.run_when, if_neg (by decide)]
    exact Act.programs_fuseStart ..

end

/-- Whether the bits to be blown read 1 in a row (R404). -/
def FuseJob.good (j : FuseJob) (row : Word) : Bool := decide (row &&& j.bits = j.bits)

/-- An operation that has ended is counted by its outcome (R404). -/
def Act.fuseCount (good : Bool) : Act := if good then .seq (sat FUSE_PROG_COUNT) .nop else sat FUSE_PROG_FAIL

theorem Act.Within.fuseCount {good : Bool} :
    Within (.quiet [(FUSE_PROG_COUNT, 1), (FUSE_PROG_FAIL, 1)] []) (Act.fuseCount good) := .ite (.seq .sat .nop) .sat

/-- The end of programming a row, which reads `row` afterwards (R404). -/
def Act.fuseEnd (j : FuseJob) (row : Word) : Act :=
  all [fuse fun f => { f with rows := f.rows.put j.row row, job := none },
    setB FUSE_STATUS_PROG_BUSY false,
    setF FUSE_STATUS_LAST (if j.good row then fuseOk else fuseVerifyFail),
    fuseStatus,
    fuseCount (j.good row),
    raise 75 (leBytes 1 j.row ++ leBytes 1 (if j.good row then fuseOk else fuseVerifyFail))]

namespace Act.Keeps

variable {n : Nat}

theorem fldBusyFuseStatus : Keeps (State.FldIs FUSE_STATUS_PROG_BUSY n) Act.fuseStatus :=
  read fun _ => all ⟨fldSetF, fldSetB, fldSetB, fldSetB, fldSetB, fldSetB, fldSetF⟩

theorem fldLastFuseStatus : Keeps (State.FldIs FUSE_STATUS_LAST n) Act.fuseStatus :=
  read fun _ => all ⟨fldSetF, fldSetB, fldSetB, fldSetB, fldSetB, fldSetB, fldSetF⟩

end Act.Keeps

/-- R404: the row reads what it reads, no operation is under way, and FUSE_STATUS tells whether all bits were blown. -/
theorem Act.ended_fuseEnd (j : FuseJob) (row : Word) (s : State) :
    ((fuseEnd j row).run s).u.fuse = { s.u.fuse with rows := s.u.fuse.rows.put j.row row, job := none } ∧
    ((fuseEnd j row).run s).bit FUSE_STATUS_PROG_BUSY = false ∧
    ((fuseEnd j row).run s).fld FUSE_STATUS_LAST = if j.good row then fuseOk else fuseVerifyFail := by
  rw [fuseEnd, run_all_cons]
  refine ⟨?unit, ?busy, ?last⟩
  case unit =>
    have hrest : Within (.events [(FUSE_STATUS, 1), (FUSE_PROG_COUNT, 1), (FUSE_PROG_FAIL, 1)] [])
        (.all [setB FUSE_STATUS_PROG_BUSY false, setF FUSE_STATUS_LAST (if j.good row then fuseOk else fuseVerifyFail),
          fuseStatus, fuseCount (j.good row),
          raise 75 (leBytes 1 j.row ++ leBytes 1 (if j.good row then fuseOk else fuseVerifyFail))]) :=
      .all ⟨.setB, .setF, .sub .fuseStatus, .sub .fuseCount, .raise⟩
    exact ((hrest.fits _).units .fuse (by decide)).symm
  case busy =>
    rw [run_all_cons]
    exact (State.FldIs.run (fldIs_setB FUSE_STATUS_PROG_BUSY false _ rfl) (.all (l := [_, _, _, _]) ⟨.fldSetF,
      .fldBusyFuseStatus, .fld .fuseCount rfl, .fld (R := .events [] []) .raise rfl⟩)).bit
  case last =>
    have hset (t : State) : State.FldIs FUSE_STATUS_LAST (if j.good row then fuseOk else fuseVerifyFail)
        ((setF FUSE_STATUS_LAST (if j.good row then fuseOk else fuseVerifyFail)).run t) :=
      (fld_setF_same _ _ t rfl (by decide)).trans (by cases j.good row <;> rfl)
    rw [run_all_cons, run_all_cons]
    exact State.FldIs.run (hset _) (.all (l := [_, _, _]) ⟨
      .fldLastFuseStatus, .fld .fuseCount rfl, .fld (R := .events [] []) .raise rfl⟩)

/-- R403, R404: programming of a row ends with the bits that read 1 afterwards. -/
theorem completes_fuseProgDone {s : State} {j : FuseJob} (hjob : s.u.fuse.job = some j) (hrow : j.advance = false)
    (blown : BitVec 32) :
    Completes (.fuseProgDone blown) s fun t =>
      t.u.fuse.job = none ∧ t.bit FUSE_STATUS_PROG_BUSY = false ∧
      t.fuseRow j.row = (s.fuseRow j.row ||| (j.bits &&& blown)) ∧
      t.fld FUSE_STATUS_LAST =
        (if (s.fuseRow j.row ||| (j.bits &&& blown)) &&& j.bits = j.bits then fuseOk else fuseVerifyFail) := by
  have hrun : exec (.fuseProgDone blown) s =
      .next ((Act.fuseEnd j (s.fuseRow j.row ||| (j.bits &&& blown))).run s) := by
    change execFuseProgDone blown s = _
    rw [execFuseProgDone, State.act_eq, Act.run_read, hjob]
    dsimp only
    rw [hrow]
    rfl
  obtain ⟨hunit, hbusy, hlast⟩ := Act.ended_fuseEnd j (s.fuseRow j.row ||| (j.bits &&& blown)) s
  refine ⟨_, hrun, by rw [hunit], hbusy, ?_, hlast.trans ?_⟩
  · rw [State.fuseRow, hunit, Store.getD, Store.get?_put, if_pos rfl, Option.getD_some]
  · rw [FuseJob.good]
    simp only [decide_eq_true_eq]

/-- Settles O31: each cause answered in SOLO is the latch, zeroising and the entry into HOLD, which leaves what the
first two did; queries and fuse operations are their updates, which what follows leaves. -/
theorem tamperAndFuses : Obligations.TamperAndFuses := by
  unfold Obligations.TamperAndFuses
  refine ⟨completes_tamperPinEdge, ?debounced, fun s monitor hreset => completes_monitorExcursion hreset monitor,
    ?zeroise, ?clear, ?readMeta, ?verifyTag, ?read, ?prog, ?advance, ?done, ?debug⟩
  case debounced =>
    intro s pin hruns hmode
    obtain ⟨t, ht, ⟨⟨hslots, -⟩, -⟩, hhold, hlatched, hcause⟩ := completes_tamperDebounced hruns hmode
    refine ⟨t, ht, hhold, hslots, hlatched.bit, fun hfirst => hcause _ ?_⟩
    rw [State.firstCause, hfirst, if_neg Bool.false_ne_true, Nat.mod_eq_of_lt (by omega)]
  case zeroise =>
    intro s iface hreach hpermit harmed hmode
    obtain ⟨t, ht, ⟨⟨hslots, hcache⟩, hshown⟩, hhold⟩ := completes_secZeroise hreach hpermit harmed hmode
    exact ⟨t, ht, hhold, hslots, hcache, hshown.bit⟩
  case clear =>
    exact fun s iface ticks hreach hpermit harmed h0 h1 hmon _ =>
      completes_secTamperClr hreach hpermit harmed h0 h1 hmon ticks
  case readMeta =>
    intro s iface slot hreach hpermit hmode
    obtain ⟨t, ht, ⟨h0, h1⟩, hvalid, hresult⟩ := completes_slotReadMeta hreach hpermit hmode slot
    exact ⟨t, ht, h0, h1, hvalid, hresult⟩
  case verifyTag =>
    intro s iface slot upset hreach hpermit hmode
    obtain ⟨t, ht, ⟨hvalid, hresult⟩, h0, htorn⟩ := completes_slotVerifyTag hreach hpermit hmode slot upset
    exact ⟨t, ht, hvalid, hresult, h0, htorn⟩
  case read => exact fun s iface value hreach hpermit => completes_fuseReadReq hreach hpermit value
  case prog =>
    intro s iface v hreach hpermit harmed hrow hidle hallowed
    obtain ⟨t, ht, hjob, hbusy⟩ := completes_fuseProg hreach hidle hpermit harmed hrow hallowed
    exact ⟨t, ht, hjob, hbusy.bit⟩
  case advance =>
    intro s iface v hreach hpermit harmed hnext hlife hidle
    obtain ⟨t, ht, hjob, hbusy⟩ := completes_fuseAdvance hreach hidle hpermit harmed hnext hlife
    exact ⟨t, ht, hjob, hbusy.bit⟩
  case done => exact fun s blown j hjob hrow _ => completes_fuseProgDone hjob hrow blown
  case debug =>
    intro s hlife hlock hmode
    obtain ⟨t, ht, ⟨⟨hslots, -⟩, -⟩, hhold, hlatched, -⟩ := completes_debugAccessOpen hlife hlock hmode
    exact ⟨t, ht, hhold, hslots, hlatched.bit⟩

end Sys2Proof.Machine

namespace Sys2Proof.Machine

open Sys2Proof Sys2Proof.Reg

/-! ### The time keeper of a shadow -/

/-- R425, R486: on a shadow a change of STATE, other than to FAULT, leaves TRACE, which is the active unit's. -/
theorem Act.bit_trace_tkState_of_shadows {s : State} (hshadows : s.shadows = true) {st : Nat} (hst : st ≠ tkFault)
    (watchdog : Bool) : ((Act.tkState st watchdog).run s).bit TK_STATUS_TRACE = s.bit TK_STATUS_TRACE := by
  have hkept : State.FldIs TK_STATUS_TRACE (s.fld TK_STATUS_TRACE) ((Act.tkState st watchdog).run s) := by
    rw [Act.tkState, Act.run_read, hshadows, beq_false_of_ne hst]
    exact State.FldIs.run rfl (.all ⟨.fldSetF, .fldUnits, .when (.fld (R := .events [] []) .raise rfl),
      .when (.fld (R := .events [] []) .raise rfl), .nop⟩)
  exact congrArg (Nat.beq · 1) hkept

/-- R423: on a shadow the watchdog's expiry leaves TRACE. -/
theorem completes_servoWatchdogExpiry_of_shadows {s : State} (hshadows : s.shadows = true)
    (hlocked : s.fld TK_STATUS_STATE = tkLocked) :
    Completes .servoWatchdogExpiry s fun t => t.bit TK_STATUS_TRACE = s.bit TK_STATUS_TRACE := by
  refine ⟨_, rfl, ?_⟩
  rw [Act.run_when, hlocked]
  exact Act.bit_trace_tkState_of_shadows hshadows (by decide) true

/-- A SHADOW in STANDBY, LOCKED to the time of an active unit whose time is not traceable. -/
def lockedShadow : State :=
  (Act.all [.setB TK_STATUS_RUNNING true, .setF GEN_MODE_MODE 6, .setB GEN_MODE_PAIR_CFG true, .setF PAIR_STATUS_PSTATE 5,
    .setF TK_STATUS_STATE tkLocked]).run State.reset

/-- Refutes O28: the servo watchdog of a shadow that is LOCKED sets HOLDOVER and leaves TRACE, which follows the active
unit and may be 0. -/
theorem not_timeKeeper : ¬ Obligations.TimeKeeper := by
  unfold Obligations.TimeKeeper
  intro ⟨_, _, _, _, _, _, _, _, watchdog, _⟩
  have hlocked : lockedShadow.fld TK_STATUS_STATE = tkLocked := by decide
  obtain ⟨t, ht, _, htrace, _⟩ := watchdog lockedShadow hlocked
  obtain ⟨t', ht', hkept⟩ := completes_servoWatchdogExpiry_of_shadows (s := lockedShadow) (by decide) hlocked
  obtain rfl : t = t' := by simpa using ht.symm.trans ht'
  rw [htrace] at hkept
  exact absurd hkept (by decide)

end Sys2Proof.Machine

namespace Sys2Proof.Machine

set_option Elab.async false

open Sys2Proof Sys2Proof.Reg

/-! ### The step and its commands -/

/-- Settles O51: the step's second case. -/
theorem stepRunsTheFrontCommand : Obligations.StepRunsTheFrontCommand := by
  unfold Obligations.StepRunsTheFrontCommand
  intro s c cs hfront
  rw [step, hfront]

/-- Settles O52: the step's first case. -/
theorem emptyQueueIdles : Obligations.EmptyQueueIdles := by
  unfold Obligations.EmptyQueueIdles
  intro s hempty
  rw [step, hempty]

/-- Settles O53: a well-formed command means a program, every program ends in a state, and none touches the queue; a
command that is not well-formed is refused by its operands alone. -/
theorem everyCommandAnswers : Obligations.EveryCommandAnswers := by
  unfold Obligations.EveryCommandAnswers
  intro c s
  refine ⟨fun hwf => ?_, fun hwf => exec_of_not_wf hwf s⟩
  obtain ⟨a, hexec⟩ := exec_of_wf hwf s
  exact ⟨a.run s, hexec, a.run_pending s⟩

end Sys2Proof.Machine

namespace Sys2Proof.Machine

set_option Elab.async false

open Sys2Proof Sys2Proof.Reg

/-! ### What a program leaves of a unit and of a register -/

/-- A program leaves a unit it does not reach. -/
theorem Act.Stores.unit {R : Reach} {a : Act} (h : Stores R a) (n : UnitName) (s : State)
    (hn : n ∉ R.units := by decide) : n.Same s.u (a.run s).u := (h s).units n hn

theorem Act.Within.unit {R : Reach} {a : Act} (h : Within R a) (n : UnitName) (s : State)
    (hn : n ∉ R.units := by decide) : n.Same s.u (a.run s).u := (h.fits s).units n hn

/-- A program leaves a register it does not reach. -/
theorem Act.Within.reg_eq {R : Reach} {a : Act} (h : Within R a) {x : Nat} (hx : R.has x = false) (s : State) :
    (a.run s).reg x = s.reg x := (h.fits s).reg x hx

/-! ### Power requests (R524, R525) -/

/-- What a request does to the one that stands in the slot: it is superseded. -/
def Act.supersede : Option PwrReq → Act
  | none => nop
  | some old => all [sat PWR_SUPERSEDED, raise 3 (reqRecord old), setF PWR_REQ_STAT_RESULT pwrSuperseded]

theorem Act.Within.supersede {old : Option PwrReq} :
    Within (.events [(PWR_SUPERSEDED, 1), (PWR_REQ_STAT, 1)] []) (Act.supersede old) := by
  cases old
  · exact .nop
  · exact .all ⟨.sat, .raise, .setF⟩

theorem Act.reg_superseded_supersede {old : Option PwrReq} (h : old.isSome) (s : State) :
    ((supersede old).run s).reg PWR_SUPERSEDED = satNext (s.reg PWR_SUPERSEDED) := by
  obtain ⟨r, rfl⟩ := Option.isSome_iff_exists.1 h
  have htail : Within (.events [(PWR_REQ_STAT, 1)] [])
    (all [raise 3 (reqRecord r), setF PWR_REQ_STAT_RESULT pwrSuperseded]) := .all ⟨.raise, .setF⟩
  exact (htail.reg_eq rfl _).trans (reg_sat rfl s)

/-- R525: while the sequencer runs a request takes the slot and waits there for a boundary. -/
theorem Act.run_pwrRequest {s : State} (hrun : s.bit BT_STATUS_RUNNING = true) (r : PwrReq) :
    (pwrRequest r).run s =
      slotStat.run ((pwr fun p => { p with slot := some r }).run ((supersede s.u.pwr.slot).run s)) := by
  have hstopped : (!s.bit BT_STATUS_RUNNING && s.u.pwr.driftEntry == 0) = false := by rw [hrun]; rfl
  rw [pwrRequest, run_read, hstopped]
  cases s.u.pwr.slot <;> rfl

/-- R525: the power unit after a request, while the sequencer runs. -/
theorem Act.pwr_pwrRequest {s : State} (hrun : s.bit BT_STATUS_RUNNING = true) (r : PwrReq) :
    ((pwrRequest r).run s).u.pwr = { s.u.pwr with slot := some r } := by
  have hold : s.u.pwr = ((supersede s.u.pwr.slot).run s).u.pwr := Within.supersede.unit .pwr s
  rw [run_pwrRequest hrun, ← Within.slotStat.unit .pwr _]
  exact congrArg (fun p : Pwr => { p with slot := some r }) hold.symm

/-- A request stands in the slot, and the one that stood there is counted as superseded. -/
def Placed (r : PwrReq) (s t : State) : Prop :=
  t.u.pwr.slot = some r ∧
  (s.u.pwr.slot.isSome → t.reg PWR_SUPERSEDED = satNext (s.reg PWR_SUPERSEDED))

theorem Act.placed_pwrRequest {s : State} (hrun : s.bit BT_STATUS_RUNNING = true) (r : PwrReq) :
    Placed r s ((pwrRequest r).run s) := by
  refine ⟨by rw [pwr_pwrRequest hrun], fun hslot => ?_⟩
  rw [run_pwrRequest hrun, Within.slotStat.reg_eq rfl]
  exact reg_superseded_supersede hslot s

/-- Settles O4: each of the four commands is a permitted request of the host. -/
theorem powerRequests : Obligations.PowerRequests := by
  unfold Obligations.PowerRequests
  have place {s : State} {iface : HostIface} (op : PwrOp) (hreach : s.reaches iface = true)
      (hpermit : s.permits PWR_REQ = true) (hrun : s.bit BT_STATUS_RUNNING = true) :
      Placed ⟨op, .host⟩ s ((Act.permitted iface PWR_REQ (Act.pwrRequest ⟨op, .host⟩)).run s) := by
    rw [Act.run_permitted hreach hpermit]
    exact Act.placed_pwrRequest hrun _
  exact ⟨fun _ _ level hreach hpermit hrun => ⟨_, rfl, place (.level level) hreach hpermit hrun⟩,
    fun _ _ hreach hpermit hrun => ⟨_, rfl, place .doze hreach hpermit hrun⟩,
    fun _ _ hreach hpermit hrun => ⟨_, rfl, place .serve hreach hpermit hrun⟩,
    fun _ _ hreach hpermit hrun => ⟨_, rfl, place .drift hreach hpermit hrun⟩⟩

end Sys2Proof.Machine

namespace Sys2Proof.Machine

set_option Elab.async false

open Sys2Proof Sys2Proof.Reg

/-! ### Entry into DRIFT (R527) -/

/-- SOLO with all of DRIFT entry done but its end, the Envelope not retained, and a cell listed past the Envelope's last
one. -/
def enteringDrift : State :=
  (Act.all [.setF GEN_MODE_MODE 4, .pwr fun p => { p with driftEntry := 3 }]).run cellPastEnvelope

/-- The end of DRIFT entry there leaves memory as it was, for the Envelope is cleared by address. -/
theorem mem_driftEntryComplete :
    Completes (.driftEntryComplete 0) enteringDrift fun t => t.mem ≠ [] := by
  refine ⟨_, rfl, ?_⟩
  decide +kernel

/-- Refutes O6: memory need not be empty after an entry into DRIFT that does not retain the Envelope: a state may list a
cell past its last one, which clearing it by address leaves. -/
theorem not_driftSampling : ¬ Obligations.DriftSampling := by
  unfold Obligations.DriftSampling
  intro ⟨entry, _⟩
  obtain ⟨t, ht, _, _, _, hempty, _⟩ := entry enteringDrift 0 rfl rfl (by decide)
  obtain ⟨t', ht', hkept⟩ := mem_driftEntryComplete
  obtain rfl : t = t' := by simpa using ht.symm.trans ht'
  exact hkept (hempty (by decide)).1

/-! ### The end of the ROM flow (R553) -/

/-- R396: a cause in ROM mode enters HOLD, whether or not the key store is open. -/
theorem Act.mode_tamper_of_rom {s : State} (hmode : s.mode = .rom) (cause : Nat) :
    ((tamper cause).run s).mode = .hold := by
  rw [tamper, run_read, hmode]
  dsimp only
  split
  · exact mode_holdEntry _
  · exact (zeroised_zeroiseHold _).2

/-- R395: a monitor's condition under the setting TAMPER is a cause. -/
theorem Act.mode_monitorMet_of_rom {s : State} (hmode : s.mode = .rom) (code : Nat) :
    ((monitorMet code 2).run s).mode = .hold := by
  have halarm : ((2 : Nat) == 1) = false := rfl
  rw [monitorMet, halarm, run_seq, run_when, run_when, if_neg Bool.false_ne_true, if_pos (by decide), run_seq]
  exact Act.mode_tamper_of_rom (s := (Act.pair _).run s) hmode code

/-- R395, R553: the ROM flow answers a condition of the temperature monitor that is set to TAMPER before it looks at
RCVR_n. -/
theorem Act.mode_bootRun_of_monitor {s : State} (hmode : s.mode = .rom)
    (hlatch : s.bit SEC_TAMPER_STAT_LATCHED = false) (hmon : s.u.sec.mon = [1])
    (hcfg : Act.monitorMode (s.reg SEC_TAMPER_CFG) 4 = 2) (flashOk epochOk : Bool) (ms : Nat) :
    ((bootRun flashOk epochOk ms).run s).mode = .hold := by
  have hsensed : Within (.quiet [(FUSE_STATUS, 1)] []) (setB FUSE_STATUS_SENSED true) := .setB
  have hmode' : State.ModeIs .rom (fuseStatus.run ((setB FUSE_STATUS_SENSED true).run s)) :=
    (State.ModeIs.run hmode (.modeWithin hsensed)).run (.modeWithin .fuseStatus)
  rw [bootRun, run_read, run_all_cons, run_all_cons, run_all_cons, hlatch, if_neg Bool.false_ne_true, hmon, if_pos]
  · have hcodes : ([1].map monitorCode).filter (fun c => monitorMode (s.reg SEC_TAMPER_CFG) c == 2) = [4] := by
      simp [monitorCode, hcfg]
    rw [hcodes]
    exact mode_monitorMet_of_rom hmode' 4
  · simp [monitorCode, hcfg]

theorem completes_bootDone_of_monitor {s : State} (hmode : s.mode = .rom) (hrunning : s.u.boot.running = true)
    (hlatch : s.bit SEC_TAMPER_STAT_LATCHED = false) (hmon : s.u.sec.mon = [1])
    (hcfg : Act.monitorMode (s.reg SEC_TAMPER_CFG) 4 = 2) (flashOk epochOk : Bool) (ms : BitVec 32) :
    Completes (.bootDone flashOk epochOk ms) s fun t => t.mode = .hold := by
  have hdue : (decide (s.mode = .rom) && s.u.boot.running) = true := by rw [hmode, hrunning]; rfl
  refine ⟨_, rfl, ?_⟩
  rw [Act.run_read, Act.run_when, if_pos hdue]
  exact Act.mode_bootRun_of_monitor hmode hlatch hmon hcfg flashOk epochOk ms.toNat

/-- ROM mode in PROVISIONED with RCVR_n low, the temperature out of its range and its monitor set to TAMPER. -/
def heatedRom : State :=
  (Act.all [.setF GEN_MODE_MODE 1, .boot fun b => { b with running := true }, .pins fun p => { p with rcvrLow := true },
    .fuse fun f => { f with rows := f.rows.put 0 0x0F }, .sec fun x => { x with mon := [1] },
    .reg SEC_TAMPER_CFG 0x80]).run State.reset

/-- Refutes O7: with RCVR_n low the ROM flow need not end in RECOVERY: a monitor's condition that stands under the
setting TAMPER ends it in HOLD. -/
theorem not_startUp : ¬ Obligations.StartUp := by
  unfold Obligations.StartUp
  intro ⟨boot, _⟩
  have hmode : heatedRom.mode = .rom := by decide
  have hlatch : heatedRom.bit SEC_TAMPER_STAT_LATCHED = false := by decide
  obtain ⟨t, ht, hrecovery, _⟩ := boot heatedRom true true 0 hmode rfl hlatch (.inl (by decide)) rfl
  obtain ⟨t', ht', hhold⟩ := completes_bootDone_of_monitor hmode rfl hlatch rfl (by decide) true true 0
  obtain rfl : t = t' := by simpa using ht.symm.trans ht'
  exact absurd (hrecovery.symm.trans hhold) (by decide)

end Sys2Proof.Machine

namespace Sys2Proof.Machine

set_option Elab.async false

open Sys2Proof Sys2Proof.Reg

/-! ### A part of the units that programs keep -/

/-- A part of the units has a value. -/
def State.Part {α : Type} (part : Units → α) (x : α) (s : State) : Prop := part s.u = x

theorem State.Part.run {α : Type} {part : Units → α} {x : α} {s : State} {a : Act} (h : State.Part part x s)
    (ha : Act.Keeps (State.Part part x) a) : State.Part part x (a.run s) := ha s h

namespace Act.Keeps

/-- What two predicates keep, both together keep. -/
theorem and {P Q : State → Prop} {a : Act} (hp : Keeps P a) (hq : Keeps Q a) : Keeps (fun s => P s ∧ Q s) a :=
  fun s h => ⟨hp s h.1, hq s h.2⟩

section

variable {α : Type} {part : Units → α} {x : α}

/-- A program keeps a part of the units that it does not reach. -/
theorem partStores {R : Reach} {a : Act} (h : Act.Stores R a)
    (hp : ∀ u v, part (Units.only R.units u v) = part u := by exact fun _ _ => rfl) : Keeps (State.Part part x) a :=
  fun s hs => by
    rw [State.Part, Units.keeps_iff.1 (h s).units, hp]
    exact hs

theorem partWithin {R : Reach} {a : Act} (h : Act.Within R a)
    (hp : ∀ u v, part (Units.only R.units u v) = part u := by exact fun _ _ => rfl) : Keeps (State.Part part x) a :=
  fun s hs => by
    rw [State.Part, Units.keeps_iff.1 (h.fits s).units, hp]
    exact hs

theorem partUnits {f : Units → Units} (h : ∀ u, part (f u) = part u := by exact fun _ => rfl) :
    Keeps (State.Part part x) (.units f) := fun s hs => (h s.u).trans hs

theorem partReg {a : Nat} {w : Word} : Keeps (State.Part part x) (.reg a w) := fun s hs => by
  rwa [State.Part, run_reg, State.setReg_u]

theorem partSetF {f : Field} {v : Nat} : Keeps (State.Part part x) (Act.setF f v) := read fun _ => partReg
theorem partSetB {f : Field} {b : Bool} : Keeps (State.Part part x) (Act.setB f b) := partSetF
theorem partWrap {a : Nat} : Keeps (State.Part part x) (Act.wrap a) := read fun _ => partReg
theorem partSat {a : Nat} : Keeps (State.Part part x) (Act.sat a) := read fun _ => partReg

end

section

variable {g : Field} {n : Nat}

/-- A field apart from the one stored. -/
theorem fldApart {f : Field} {v : Nat} (h : Field.apart f g = true := by rfl)
    (hf : Nat.ble (f.lo + f.width) 32 = true := by rfl) (hg : Nat.ble g.lo 32 = true := by rfl) :
    Keeps (State.FldIs g n) (Act.setF f v) := fun s hs =>
  (Act.fld_setF_apart f g v s h (Nat.le_of_ble_eq_true hf) (Nat.le_of_ble_eq_true hg)).trans hs

theorem fldApartB {f : Field} {b : Bool} (h : Field.apart f g = true := by rfl)
    (hf : Nat.ble (f.lo + f.width) 32 = true := by rfl) (hg : Nat.ble g.lo 32 = true := by rfl) :
    Keeps (State.FldIs g n) (Act.setB f b) := fldApart h hf hg

theorem fldReg {a : Nat} {w : Word} (h : a ≠ g.reg := by decide) : Keeps (State.FldIs g n) (.reg a w) := fun s hs => by
  rw [State.FldIs, State.fld, run_reg, State.reg_setReg_ne s w h]
  exact hs

theorem fldWrap {a : Nat} (h : a ≠ g.reg := by decide) : Keeps (State.FldIs g n) (Act.wrap a) := read fun _ => fldReg h
theorem fldSat {a : Nat} (h : a ≠ g.reg := by decide) : Keeps (State.FldIs g n) (Act.sat a) := read fun _ => fldReg h

end

section

variable {x : Nat} {w : Word}

theorem regNe {a : Nat} {v : Word} (h : a ≠ x := by decide) : Keeps (State.RegIs x w) (.reg a v) := fun s hs =>
  (State.reg_setReg_ne s v h).trans hs

theorem regSetF {f : Field} {v : Nat} (h : f.reg ≠ x := by decide) : Keeps (State.RegIs x w) (Act.setF f v) :=
  read fun _ => regNe h

theorem regSetB {f : Field} {b : Bool} (h : f.reg ≠ x := by decide) : Keeps (State.RegIs x w) (Act.setB f b) :=
  regSetF h

theorem regWrap {a : Nat} (h : a ≠ x := by decide) : Keeps (State.RegIs x w) (Act.wrap a) := read fun _ => regNe h
theorem regSat {a : Nat} (h : a ≠ x := by decide) : Keeps (State.RegIs x w) (Act.sat a) := read fun _ => regNe h

end

end Act.Keeps

/-- A number that a field has room for reads as it was stored. -/
theorem Act.fldIs_setF (f : Field) (v : Nat) (s : State) (hf : fixedReg f.reg = none) (hv : v < 2 ^ f.width)
    (h : Nat.ble (f.lo + f.width) 32 = true := by rfl) : State.FldIs f v ((setF f v).run s) :=
  (fld_setF_same f v s hf (Nat.le_of_ble_eq_true h)).trans (Nat.mod_eq_of_lt hv)

theorem Act.regIs_reg {a : Nat} (h : fixedReg a = none) (w : Word) (s : State) :
    State.RegIs a w ((Act.reg a w).run s) := State.reg_setReg_same s a w h

end Sys2Proof.Machine

namespace Sys2Proof.Machine

set_option Elab.async false

open Sys2Proof Sys2Proof.Reg

/-! ### Temperature and mains (R514, R515, R517, R518, R523) -/

/-- R517: a request leaves the cap. -/
theorem Act.Keeps.cappedPwrRequest {x : Bool} {r : PwrReq} :
    Keeps (State.Part (fun u => u.pwr.capped) x) (Act.pwrRequest r) := by
  have stage {r : PwrReq} : Keeps (State.Part (fun u => u.pwr.capped) x) (Act.pwrStage r) :=
    all ⟨partUnits, partSetB, by
      split
      · exact partUnits
      · exact partUnits
      · exact partUnits
      · exact partUnits
      · exact nop⟩
  have take : Keeps (State.Part (fun u => u.pwr.capped) x) Act.powerSlotTake := read fun _ => by
    split
    · exact nop
    · refine when <| all ⟨partUnits, partWithin .slotStat, ?_⟩
      split
      · exact partWithin .pwrRefuse
      · exact ite partSetF stage
  exact read fun _ => all ⟨by
      split
      · exact nop
      · exact all ⟨partSat, partWithin (R := .events [] []) .raise, partSetF⟩,
    partUnits, partWithin .slotStat, when take⟩

theorem State.bit_of_fldIs {f : Field} {b : Bool} {s : State} (h : State.FldIs f (if b then 1 else 0) s) :
    s.bit f = b := by
  rw [h.bit]
  cases b <;> rfl

/-- R514, R517: a junction at the cap marks the part capped. -/
theorem completes_thermalReading_of_cap {s : State} {quarters : BitVec 16} (hcapped : s.u.pwr.capped = false)
    (hcap : (s.fld PWR_THERM_CAP_C : Int) * 4 ≤ quarters.toInt) :
    Completes (.thermalReading quarters) s fun t =>
      t.u.pwr.capped = true ∧ t.bit PWR_STATUS_CAPPED = true ∧ t.u.pair.temp = quarters.toInt := by
  refine ⟨_, rfl, ?_⟩
  have hdue : (decide ((s.fld PWR_THERM_CAP_C : Int) * 4 ≤ quarters.toInt) && !s.u.pwr.capped) = true := by
    rw [hcapped, decide_eq_true hcap]; rfl
  rw [Act.run_read]
  dsimp only
  rw [hdue, if_pos rfl, Act.run_all_cons]
  refine ⟨?_, ?_, ?_⟩
  · rw [Act.run_all_cons, Act.run_all_cons, Act.run_all_nil, Act.run_all_cons]
    exact State.Part.run (part := fun u => u.pwr.capped) rfl
      (.all (l := [_, _]) ⟨.partSetB, .when .cappedPwrRequest⟩)
  · rw [Act.run_all_cons, Act.run_all_cons, Act.run_all_nil, Act.run_all_cons, Act.run_all_cons]
    exact (State.FldIs.run (fldIs_setB PWR_STATUS_CAPPED true _ rfl)
      (.all (l := [_]) (.when (.fld .pwrRequest rfl)))).bit
  · exact State.Part.run (part := fun u => u.pair.temp) rfl
      (.all (l := [_, _]) ⟨.partSetF, .all ⟨.partUnits, .partSetB, .when (.partWithin .pwrRequest)⟩⟩)

/-- A wake condition met outside DRIFT keeps what the power unit's updates keep (R533). -/
theorem Act.Keeps.wakeMet {P : State → Prop} {src : Nat} (hmode : ∀ s, P s → s.mode ≠ .drift)
    (hpwr : ∀ f, Keeps P (Act.pwr f)) : Keeps P (Act.wakeMet src) := fun s hs => by
  rw [Act.wakeMet, run_read, decide_eq_false (hmode s hs)]
  split
  · exact hs
  · rw [if_neg Bool.false_ne_true]
    exact when (hpwr _) s hs

/-- The mode, and what PWR_STATUS shows of mains. -/
def State.MainsIn (m : Mode) (n : Nat) (s : State) : Prop := State.ModeIs m s ∧ State.FldIs PWR_STATUS_MAINS n s

theorem State.MainsIn.run {m : Mode} {n : Nat} {s : State} {a : Act} (h : State.MainsIn m n s)
    (ha : Act.Keeps (State.MainsIn m n) a) : State.MainsIn m n (a.run s) := ha s h

theorem State.MainsIn.bit {m : Mode} {b : Bool} {s : State} (h : State.MainsIn m (if b then 1 else 0) s) :
    s.bit PWR_STATUS_MAINS = b := State.bit_of_fldIs h.2

theorem Act.Keeps.mainsWithin {m : Mode} {n : Nat} {R : Reach} {a : Act} (h : Act.Within R a)
    (hm : R.has GEN_MODE = false := by decide +kernel) (hp : R.has PWR_STATUS = false := by decide +kernel) :
    Keeps (State.MainsIn m n) a := .and (.modeWithin h hm) (.fld h hp)

theorem Act.Keeps.mainsPwr {m : Mode} {n : Nat} {f : Pwr → Pwr} : Keeps (State.MainsIn m n) (Act.pwr f) :=
  mainsWithin (R := .quiet [] [.pwr]) .units

/-- R518: the filtered level of the mains ball shows. -/
theorem completes_mainsFiltered {s : State} (ticks : BitVec 40)
    (hnew : s.u.pins.mainsRaw ≠ s.bit PWR_STATUS_MAINS) (hcold : s.mode ≠ .cold) (hdrift : s.mode ≠ .drift) :
    Completes (.mainsFiltered ticks) s fun t => t.bit PWR_STATUS_MAINS = s.u.pins.mainsRaw := by
  refine ⟨_, rfl, ?_⟩
  have hdue : (s.u.pins.mainsRaw != s.bit PWR_STATUS_MAINS && !decide (s.mode = .cold)) = true := by
    rw [decide_eq_false hcold, bne_iff_ne.2 hnew]; rfl
  rw [Act.run_read]
  dsimp only
  rw [hdue, Act.run_when, if_pos rfl, Act.run_all_cons, Act.run_all_cons]
  have hset : State.MainsIn s.mode (if s.u.pins.mainsRaw then 1 else 0)
      ((Act.setB PWR_STATUS_MAINS s.u.pins.mainsRaw).run ((Act.aonPass ticks.toNat).run s)) :=
    ⟨(State.ModeIs.run (s := s) rfl (.modeWithin .aonPass)).run (.modeWithin (R := .quiet [(PWR_STATUS, 1)] []) .setB),
      fldIs_setB PWR_STATUS_MAINS _ _ rfl⟩
  refine State.MainsIn.bit (m := s.mode) ?_
  exact hset.run (.all (l := [_]) (.ite
    (.all ⟨.mainsWithin (R := .events [] []) .raise, .mainsPwr, .when (.mainsWithin .mainsRequest),
      .wakeMet (fun t ht => ht.1.symm ▸ hdrift) fun _ => .mainsPwr⟩)
    (.all ⟨.mainsWithin (R := .events [] []) .raise, .when (.mainsWithin .mainsRequest),
      .when (.mainsWithin .mainsRequest), .when .mainsPwr⟩)))

/-- R518: DRIFT is asked for where mains stays lost. -/
theorem completes_lossDriftExpiry {s : State} (hwait : s.u.pwr.lossWait = true)
    (hmains : s.bit PWR_STATUS_MAINS = false) (hon : s.fld PWR_MAINS_ON_LOSS = 3)
    (hrun : s.bit BT_STATUS_RUNNING = true) :
    Completes .lossDriftExpiry s fun t => t.u.pwr.slot = some ⟨.drift, .mains⟩ ∧ t.u.pwr.lossWait = false := by
  refine ⟨_, rfl, ?_⟩
  have hslot := Act.pwr_pwrRequest (s := (Act.pwr fun p => { p with lossWait := false }).run s) hrun ⟨.drift, .mains⟩
  rw [Act.run_read, hwait, hmains, hon, Act.run_when, if_pos (by rfl), Act.run_seq]
  exact ⟨congrArg Pwr.slot hslot, congrArg Pwr.lossWait hslot⟩

end Sys2Proof.Machine

namespace Sys2Proof.Machine

set_option Elab.async false

open Sys2Proof Sys2Proof.Reg

/-! ### Level changes (R515, R517) -/

/-- R515: a change settles. -/
theorem completes_vddEngSettled {s : State} {c : LevelChange} (hchange : s.u.pwr.change = some c)
    (hfailed : c.failed = false) :
    Completes .vddEngSettled s fun t => t.u.pwr.change = some { c with settled := true } := by
  refine ⟨_, rfl, ?_⟩
  change s.u.pwr.change.map (fun c => { c with settled := !c.failed }) = _
  rw [hchange, Option.map_some, hfailed, Bool.not_false]

/-- R515, R517: a change that does not settle goes back to its old level, and is counted. -/
theorem completes_vsettleTimeout {s : State} {c : LevelChange} (hchange : s.u.pwr.change = some c)
    (hfailed : c.failed = false) (hsettled : c.settled = false) (hvid : s.bit PWR_VID_VID_EN = true) :
    Completes .vsettleTimeout s fun t =>
      t.u.pwr.change = some ⟨c.old, c.new, c.src, true, false⟩ ∧ t.u.pwr.vid = c.old ∧
      t.reg PWR_LEVEL_FAIL = satNext (s.reg PWR_LEVEL_FAIL) := by
  refine ⟨_, rfl, ?_⟩
  rw [Act.run_read, hchange]
  dsimp only
  rw [hsettled, hfailed, hvid, Act.run_when, if_pos (by rfl), Act.run_all_cons]
  refine ⟨?_, ?_, ?_⟩
  · exact State.Part.run (part := fun u => u.pwr.change) rfl
      (.all (l := [_, _]) ⟨.partSat, .partWithin (R := .events [] []) .raise⟩)
  · exact State.Part.run (part := fun u => u.pwr.vid) rfl
      (.all (l := [_, _]) ⟨.partSat, .partWithin (R := .events [] []) .raise⟩)
  · rw [Act.run_all_cons]
    exact State.RegIs.run (Act.reg_sat rfl _) (.all (l := [_]) (.reg (R := .events [] []) .raise rfl))

/-- R515: a change that settled ends at its new level, and is counted. -/
theorem completes_levelChangeDone {s : State} {c : LevelChange} (hchange : s.u.pwr.change = some c)
    (hfailed : c.failed = false) (hsettled : c.settled = true) (hnew : c.new < 4) :
    Completes .levelChangeDone s fun t =>
      t.u.pwr.change = none ∧ t.fld PWR_STATUS_LEVEL = c.new ∧
      t.reg PWR_LEVEL_CHANGES = s.reg PWR_LEVEL_CHANGES + 1 := by
  refine ⟨_, rfl, ?_⟩
  rw [Act.run_read, hchange]
  dsimp only
  rw [hsettled, hfailed, Act.run_when, if_pos (by rfl), if_neg Bool.false_ne_true, if_neg Bool.false_ne_true,
    Bool.not_false, Act.when, if_pos rfl, Act.run_all_cons]
  refine ⟨?_, ?_, ?_⟩
  · exact State.Part.run (part := fun u => u.pwr.change) rfl
      (.all (l := [_, _, _, _, _, _]) ⟨.partSetB, .partSetF, .partSetF,
        .all ⟨.partUnits, .partWrap, .partWithin (R := .events [] []) .raise⟩,
        .when (.all ⟨.partUnits, .partSetB, .partSetF⟩), .partWithin .releaseHeld⟩)
  · rw [Act.run_all_cons, Act.run_all_cons]
    exact State.FldIs.run (Act.fldIs_setF PWR_STATUS_LEVEL c.new _ rfl hnew)
      (.all (l := [_, _, _, _]) ⟨.fldApart,
        .all ⟨.fldUnits, .fldWrap, .fld (R := .events [] []) .raise rfl⟩,
        .when (.fld .pwrEnd rfl), .fld .releaseHeld rfl⟩)
  · rw [Act.run_all_cons, Act.run_all_cons, Act.run_all_cons, Act.run_all_cons]
    refine State.RegIs.run ?_ (.all (l := [_, _]) ⟨.when (.reg .pwrEnd rfl), .reg .releaseHeld rfl⟩)
    rw [Act.run_all_cons, Act.run_all_cons]
    refine State.RegIs.run ?_ (.all (l := [_]) (.reg (R := .events [] []) .raise rfl))
    refine Act.regIs_wrap (w := s.reg PWR_LEVEL_CHANGES) ?_ rfl
    refine State.RegIs.run (.run (.run (.run ?_ .regSetB) .regSetF) .regSetF) .regUnits
    rfl

/-! ### Guarded writes to the power controller (R536) -/

/-- What a forced transition does. -/
theorem Act.run_modeForce {s : State} {iface : HostIface} {v : Word} (hreach : s.reaches iface = true)
    (hpermit : s.permits PWR_MODE_FORCE = true) (harmed : s.armed PWR_MODE_FORCE = some v)
    (hvalue : v = 0x5A5A000B ∨ v = 0x5A5A0004 ∧ s.mode = .doze) :
    (reached iface (modeForce (~~~v))).run s =
      (if v = 0x5A5A000B then tamper 6 else pwr fun p => { p with exitForced := true, mainsHoldoff := true }).run
        (s.guardTaken PWR_MODE_FORCE) := by
  have hknown : (decide (v = 0x5A5A000B) || (decide (v = 0x5A5A0004) && decide (s.mode = .doze))) = true := by
    simpa using hvalue
  rw [run_reached hreach, modeForce, run_guardComplement harmed (by rw [hknown]; rfl) hpermit]
  simp only [decide_eq_true_eq]

/-- R536: HOLD is forced as a tamper cause forces it. -/
theorem completes_forceHold {s : State} {iface : HostIface} (hreach : s.reaches iface = true)
    (hpermit : s.permits PWR_MODE_FORCE = true) (harmed : s.armed PWR_MODE_FORCE = some 0x5A5A000B)
    (hmode : s.mode = .solo) :
    Completes (.forceHold iface (~~~0x5A5A000B)) s fun t =>
      t.mode = .hold ∧ t.u.sec.slots = [] ∧ t.bit SEC_TAMPER_STAT_LATCHED = true := by
  refine ⟨_, rfl, ?_⟩
  rw [Act.run_modeForce hreach hpermit harmed (.inl rfl), if_pos rfl]
  obtain ⟨⟨⟨hslots, -⟩, -⟩, hhold, hlatched, -⟩ :=
    Act.answered_tamper ((State.mode_guardTaken (x := PWR_MODE_FORCE) (by decide) s).trans hmode) 6
  exact ⟨hhold, hslots, hlatched.bit⟩

/-- R536: the end of DOZE is forced at the next boundary. -/
theorem completes_forceDozeExit {s : State} {iface : HostIface} (hreach : s.reaches iface = true)
    (hpermit : s.permits PWR_MODE_FORCE = true) (harmed : s.armed PWR_MODE_FORCE = some 0x5A5A0004)
    (hmode : s.mode = .doze) :
    Completes (.forceDozeExit iface (~~~0x5A5A0004)) s fun t =>
      t.u.pwr.exitForced = true ∧ t.u.pwr.mainsHoldoff = true ∧ t.mode = .doze := by
  refine ⟨_, rfl, ?_⟩
  rw [Act.run_modeForce hreach hpermit harmed (.inr ⟨rfl, hmode⟩), if_neg (by decide)]
  exact ⟨rfl, rfl, (State.mode_guardTaken (x := PWR_MODE_FORCE) (by decide) s).trans hmode⟩

/-- R28: a part of the units that a reset leaves, a start of the boot ROM leaves where it has no other unit's. -/
theorem Act.Keeps.flashResetKeepStraps {row : Nat} {x : Flash} :
    Keeps (State.Part (fun u => u.boot.flash) x) (Act.resetKeepStraps row) := by
  have rom {old : Mode} {st : Straps} : Keeps (State.Part (fun u => u.boot.flash) x) (Act.startRom old row st) := by
    rw [startRom_eq]
    exact seq partSetF (seq (partWithin .seedTime) (seq (partWithin .enterMode) (all ⟨partSetF, partSetB, partUnits,
      partWithin .ethPath, partWithin .linkRestart, partWithin .linkRestart, partWrap, partSetF, partUnits⟩)))
  exact read fun _ => read fun _ => seq (seq (seq (fun _ h => h) partReg) partUnits) (seq partSetB rom)

/-- R536: the guarded write of PWR_RESET resets the device into ROM mode, and the flash keeps what it holds. -/
theorem completes_pwrReset {s : State} {iface : HostIface} (ticks : BitVec 40) (hreach : s.reaches iface = true)
    (hpermit : s.permits PWR_RESET = true) (harmed : s.armed PWR_RESET = some 0x5A5A0020) :
    Completes (.pwrReset iface (~~~0x5A5A0020) ticks) s fun t =>
      t.mode = .rom ∧ t.u.boot.running = true ∧ t.u.boot.flash = s.u.boot.flash := by
  refine ⟨_, rfl, ?_⟩
  rw [Act.pwrResetGuard, Act.run_reached hreach, Act.run_guardComplement harmed (by rfl) hpermit, Act.run_read,
    Act.run_seq]
  obtain ⟨hmode, hrunning⟩ := Act.started_resetKeepStraps
    (if decide ((s.guardTaken PWR_RESET).mode = .hold) then 21 else 3)
    ((Act.aonPass ticks.toNat).run (s.guardTaken PWR_RESET))
  have htaken : State.Part (fun u => u.boot.flash) s.u.boot.flash (s.guardTaken PWR_RESET) :=
    ((State.Part.run (s := s) rfl (.all (l := [_, _]) ⟨.partUnits, .partSetF⟩))).run .partSetF
  exact ⟨hmode, hrunning, (htaken.run (.partWithin .aonPass)).run .flashResetKeepStraps⟩

/-- Settles O5: each command's program sets what the clause names, and what follows it in the program keeps that. -/
theorem powerTransitions : Obligations.PowerTransitions := by
  unfold Obligations.PowerTransitions
  exact ⟨fun _ _ hcapped hcap => completes_thermalReading_of_cap hcapped hcap,
    fun _ _ => ⟨_, rfl, rfl⟩,
    fun _ ticks hnew hcold hdrift => completes_mainsFiltered ticks hnew hcold hdrift,
    fun _ hwait hmains hon hrun => completes_lossDriftExpiry hwait hmains hon hrun,
    fun _ _ hchange hfailed => completes_vddEngSettled hchange hfailed,
    fun _ _ hchange hfailed hsettled hvid => completes_vsettleTimeout hchange hfailed hsettled hvid,
    fun _ _ hchange hfailed hsettled hnew => completes_levelChangeDone hchange hfailed hsettled hnew,
    fun _ _ hreach hpermit harmed hmode => completes_forceHold hreach hpermit harmed hmode,
    fun _ _ hreach hpermit harmed hmode => completes_forceDozeExit hreach hpermit harmed hmode,
    fun _ _ ticks hreach hpermit harmed _ => completes_pwrReset ticks hreach hpermit harmed⟩

end Sys2Proof.Machine

namespace Sys2Proof.Machine

set_option Elab.async false

open Sys2Proof Sys2Proof.Reg

/-! ### Commands of the ring that complete after their work (R613, R623) -/

/-- A program within a reach stores nothing that the reach with stores does not allow. -/
theorem Act.Within.stores {R : Reach} {a : Act} (h : Within R a) : Stores R a := fun s =>
  ⟨(h.fits s).reg, fun _ hx => (nomatch hx), (h.fits s).units⟩

/-- Work that leaves the rings alone, before a command completes. -/
theorem Act.Finishes.after {c : HostCmd} {R : Reach} {a b : Act} (ha : Act.Stores R a) (hb : Finishes c b)
    (hhif : .hif ∉ R.units := by decide) (hprod : R.has HIF_CPL_PROD = false := by decide +kernel) :
    Finishes c (.seq a b) := fun s =>
  (hb (a.run s)).of_eq ((ha s).units .hif hhif).symm (ha.reg_eq hprod s)

theorem Act.Finishes.afterWithin {c : HostCmd} {R : Reach} {a b : Act} (ha : Act.Within R a) (hb : Finishes c b)
    (hhif : .hif ∉ R.units := by decide) (hprod : R.has HIF_CPL_PROD = false := by decide +kernel) :
    Finishes c (.seq a b) := after ha.stores hb hhif hprod

theorem Act.Finishes.run {c : HostCmd} {a : Act} (s : State) (h : Finishes c a) : Finished c s (a.run s) := h s

theorem Act.Finishes.complete {c : HostCmd} (hown : c.mirrored = false) {status : Nat} {res : CmdResult} :
    Finishes c (Act.complete c status res) := finished_complete hown status res

/-! ### Update sessions (R563–R570) -/

/-- Where the end of an update command shows. -/
def updateRegs : List (Nat × Nat) := (BOOT_UPD_STAT, 1) :: ringRegs

theorem Act.Stores.updDone {c : HostCmd} {n : Nat} : Stores (.events updateRegs [.hif, .pair]) (Act.updDone c n) :=
  seq (within .updShow) (sub complete)

theorem Act.Finishes.updDone {c : HostCmd} (hown : c.mirrored = false) {n : Nat} : Finishes c (Act.updDone c n) :=
  afterWithin .updShow (complete hown)

/-- The end of an update command leaves the boot unit. -/
theorem Act.Keeps.partUpdDone {α : Type} {part : Boot → α} {x : α} {c : HostCmd} {n : Nat} :
    Keeps (State.Part (fun u => part u.boot) x) (Act.updDone c n) := partStores .updDone

theorem Act.fldIs_updShow_last {n : Nat} (hn : n < 32) (s : State) :
    State.FldIs BOOT_UPD_STAT_LAST n ((updShow n).run s) := by
  rw [updShow, run_read]
  split
  rw [run_all_cons, run_all_cons, run_all_cons, run_all_cons, run_all_nil]
  exact fldIs_setF BOOT_UPD_STAT_LAST n _ rfl hn

theorem Act.fldIs_updShow_session {x : Session} {n : Nat} {s : State} (hs : s.u.boot.session = some x)
    (hx : x.state < 4) : State.FldIs BOOT_UPD_STAT_SESSION x.state ((updShow n).run s) := by
  rw [updShow, run_read, hs]
  dsimp only
  rw [run_all_cons]
  exact State.FldIs.run (fldIs_setF BOOT_UPD_STAT_SESSION x.state s rfl hx) (.all (l := [_, _, _]) ⟨.fldApart, .fldApart,
    .fldApart⟩)

section

variable {s : State} {index : Fin 4096} {c : HostCmd} (hown : c.mirrored = false)
include hown

/-- R566: a session replaced shows, and its command completes. -/
theorem Act.opened_session {x : Session} (hx : x.state < 4) (s : State) :
    State.Part (fun u => u.boot.session) (some x) ((seq (session (some x)) (updDone c updOk)).run s) ∧
    State.FldIs BOOT_UPD_STAT_SESSION x.state ((seq (session (some x)) (updDone c updOk)).run s) ∧
    Finished c s ((seq (session (some x)) (updDone c updOk)).run s) := by
  refine ⟨?_, ?_, Act.Finishes.run s (.afterWithin .session (.updDone hown))⟩ <;> rw [run_seq]
  · exact State.Part.run rfl .partUpdDone
  · rw [updDone, run_seq]
    exact (fldIs_updShow_session (x := x) rfl hx).run (.fldOfReg fun _ => .regStores .complete)

/-- R566, R567: UPDATE_BEGIN opens a session that receives. -/
theorem completes_updateBegin {kind : UpdateKind} {length : BitVec 32} {tries : Fin 3} {sha : BitVec 256}
    (hcmd : s.cmdAt index (fun o => o == 0x0301) = some c) (hsession : s.u.boot.session = none)
    (hfw : s.bsr.fwTrial = none) (hcfg : s.bsr.cfgTrial = none) (hlength : length.toNat ≤ s.transfer)
    (hmode : s.mode = .solo) :
    Completes (.updateBegin index kind length tries sha) s fun t =>
      t.u.boot.session = some ⟨kind.code, length.toNat, tries.val + 1, sha.toNat, [], 1⟩ ∧
      t.fld BOOT_UPD_STAT_SESSION = 1 ∧ Finished c s t := by
  refine ⟨_, rfl, ?_⟩
  have hshort : Nat.blt s.transfer length.toNat = false := by simpa [Bool.eq_false_iff] using hlength
  have hallowed : (!(s.shadows || decide (s.mode = .commission) || decide (s.mode = .solo) || decide (s.mode = .active) ||
      decide (s.mode = .doze))) = false := by rw [hmode]; simp
  rw [Act.run_hostCmd hcmd, Act.run_read, hsession, hfw, hcfg, hshort, hallowed]
  simp only [Option.isSome_none, Bool.or_self, Bool.false_eq_true, if_false]
  exact Act.opened_session hown (Nat.lt_of_sub_eq_succ rfl) s

/-- R567: a checked block marks its units. -/
theorem completes_updateBlock {offset bytes crc : BitVec 32} {x : Session}
    (hcmd : s.cmdAt index (fun o => o == 0x0302) = some c) (hsession : s.u.boot.session = some x) (hx : x.state = 1)
    (hrange : blockInRange x.length offset.toNat bytes.toNat = true)
    (hcrc : crc32 (s.bytes s.stagingBase (min bytes.toNat 65536)) = crc) :
    Completes (.updateBlock index offset bytes crc) s fun t =>
      t.u.boot.session = some { x with
        units := x.units ++ (blockUnits offset.toNat bytes.toNat).filter fun k => !x.units.contains k } ∧
      t.reg BOOT_UPD_BLOCKS = s.reg BOOT_UPD_BLOCKS + 1 ∧ Finished c s t := by
  refine ⟨_, rfl, ?_⟩
  rw [Act.run_hostCmd hcmd, Act.run_read, hsession]
  dsimp only
  rw [hx, if_neg (by decide), if_neg (by decide), hrange, hcrc, decide_eq_true rfl, Bool.not_true,
    if_neg Bool.false_ne_true, if_neg Bool.false_ne_true]
  refine ⟨?_, ?_, ?_⟩
  · rw [Act.run_all_cons, Act.run_all_cons, Act.run_all_cons, Act.run_all_cons, Act.run_all_cons]
    exact State.Part.run (part := fun u => u.boot.session) rfl (.all (l := [_]) .partUpdDone)
  · rw [Act.run_all_cons, Act.run_all_cons, Act.run_all_cons]
    refine State.RegIs.run (Act.regIs_wrap ?_ rfl) (.all (l := [_, _, _]) ⟨.when .regSat, .regUnits, .regStores .updDone⟩)
    exact (State.RegIs.run (s := s) rfl .regMemBytes).run (.reg .logUpdate rfl)
  · exact Act.Finishes.run s (.after (R := .quiet [] []) .memBytes (.afterWithin .logUpdate
      (.after (R := .quiet [(BOOT_UPD_BLOCKS, 1)] []) .wrap (.after (R := .quiet [(BOOT_UPD_REPEATS, 1)] []) (.when .sat)
        (.afterWithin .session (.last (.updDone hown)))))))

/-- R568: UPDATE_END applies what the session received. -/
theorem completes_updateEnd {x : Session} (hcmd : s.cmdAt index (fun o => o == 0x0303) = some c)
    (hsession : s.u.boot.session = some x) (hx : x.state = 1) :
    Completes (.updateEnd index) s fun t =>
      t.u.boot.session = some { x with state := 2 } ∧ t.bit BOOT_STATUS_UPDATE_BUSY = true ∧ Finished c s t := by
  refine ⟨_, rfl, ?_⟩
  rw [Act.run_hostCmd hcmd, Act.run_read, hsession]
  dsimp only
  rw [hx, if_neg (by decide), if_neg (by decide)]
  refine ⟨?_, ?_, ?_⟩
  · rw [Act.run_all_cons]
    exact State.Part.run (part := fun u => u.boot.session) rfl (.all (l := [_, _]) ⟨.partSetB, .partUpdDone⟩)
  · rw [Act.run_all_cons, Act.run_all_cons]
    exact (State.FldIs.run (fldIs_setB BOOT_STATUS_UPDATE_BUSY true _ rfl)
      (.all (l := [_]) (.fldOfReg fun _ => .regStores .updDone))).bit
  · exact Act.Finishes.run s
      (.afterWithin .session (.after (R := .quiet [(BOOT_STATUS, 1)] []) .setB (.last (.updDone hown))))

/-- R566: UPDATE_ABORT closes a session that is not applied. -/
theorem completes_updateAbort {x : Session} (hcmd : s.cmdAt index (fun o => o == 0x0304) = some c)
    (hsession : s.u.boot.session = some x) (hx : x.state ≠ 2) :
    Completes (.updateAbort index) s fun t => t.u.boot.session = none ∧ Finished c s t := by
  refine ⟨_, rfl, ?_⟩
  rw [Act.run_hostCmd hcmd, Act.run_read, hsession]
  dsimp only
  rw [if_neg hx]
  refine ⟨?_, Act.Finishes.run s (.afterWithin (.when .bsrWrite) (.afterWithin .session (.last (.updDone hown))))⟩
  rw [Act.run_all_cons, Act.run_all_cons]
  exact State.Part.run (part := fun u => u.boot.session) rfl (.all (l := [_]) .partUpdDone)

/-- R566, R572: UPDATE_ACTIVATE schedules the restart. -/
theorem completes_updateActivate {beat : BitVec 32} (hcmd : s.cmdAt index (fun o => o == 0x0305) = some c) :
    Completes (.updateActivate index beat) s fun t =>
      t.u.boot.activateAt = some (s.activateBeat beat.toNat) ∧ Finished c s t := by
  refine ⟨_, rfl, ?_⟩
  rw [Act.run_hostCmd hcmd, Act.run_read]
  refine ⟨?_, Act.Finishes.run s (.after (R := .quiet [] [.boot]) .units (.updDone hown))⟩
  rw [Act.run_seq]
  exact State.Part.run (part := fun u => u.boot.activateAt) rfl .partUpdDone

end

/-- No trial runs (R563). -/
def State.TrialOver (s : State) : Prop :=
  State.Part (fun u => u.boot.trial) (false, false) s ∧ State.FldIs BOOT_STATUS_TRIAL 0 s

/-- R563: a confirmed trial is over. -/
theorem Act.trialOver_confirmTrial (blown : BitVec 256) (s : State) : ((confirmTrial blown).run s).TrialOver := by
  rw [confirmTrial, run_read]
  dsimp only
  rw [run_all_cons, run_all_cons]
  constructor
  · exact State.Part.run rfl (.all (l := [_, _, _]) ⟨.partSetB, .when (.partWithin .rollbackTo),
      .read fun _ => .partWithin (R := .events [] []) .raise⟩)
  · rw [run_all_cons]
    exact (fldIs_setB BOOT_STATUS_TRIAL false _ rfl).run (.all (l := [_, _]) ⟨.when (.fld .rollbackTo rfl),
      .read fun _ => .fld (R := .events [] []) .raise rfl⟩)

/-- R563: UPDATE_CONFIRM confirms the trial. -/
theorem completes_updateConfirm {s : State} {index : Fin 4096} {c : HostCmd} (hown : c.mirrored = false)
    (blown : BitVec 256) (hcmd : s.cmdAt index (fun o => o == 0x0306) = some c) (htrial : s.onTrial = true) :
    Completes (.updateConfirm index blown) s fun t =>
      t.u.boot.trial = (false, false) ∧ t.bit BOOT_STATUS_TRIAL = false ∧ Finished c s t := by
  refine ⟨_, rfl, ?_⟩
  rw [Act.run_hostCmd hcmd, Act.run_read, htrial, if_pos rfl]
  obtain ⟨hover, hshown⟩ := Act.trialOver_confirmTrial blown s
  exact ⟨hover.run .partUpdDone, (hshown.run (.fldOfReg fun _ => .regStores .updDone)).bit,
    Act.Finishes.run s (.afterWithin .confirmTrial (.updDone hown))⟩

/-- R546: a record written is the one in use, for its SEQ is above the other's. -/
theorem Flash.bsr_writeBsr (f : Flash) (r : Bsr) : ∃ n, (f.writeBsr r).bsr = some { r with seq := n } := by
  refine ⟨((f.bsr.map (·.seq)).getD 0) + 1, ?_⟩
  unfold Flash.writeBsr Flash.bsr
  rcases f.bsr0 with _ | a <;> rcases f.bsr1 with _ | b
  · simp
  · simp
  · simp
  · by_cases hab : a.seq < b.seq
    · simp [hab, Nat.not_le.2 hab]
    · have hba : b.seq ≤ a.seq := Nat.le_of_not_lt hab
      simp [hab, hba]

theorem Act.bsr_bsrWrite (g : Bsr → Bsr) (s : State) :
    ∃ n, ((bsrWrite g).run s).bsr = { g s.bsr with seq := n } := by
  obtain ⟨n, hn⟩ := s.u.boot.flash.bsr_writeBsr (g s.bsr)
  have hflash : ((bsrWrite g).run s).u.boot.flash = s.u.boot.flash.writeBsr (g s.bsr) := by
    rw [bsrWrite, run_read, run_seq]
    exact State.Part.run (part := fun u => u.boot.flash) rfl (.partWithin .bsrShow)
  exact ⟨n, by rw [State.bsr, hflash, hn, Option.getD_some]⟩

/-- R28, R546: a reset leaves the record. -/
theorem Act.Keeps.ofFlash {α : Type} {part : Flash → α} {x : α} {a : Act}
    (h : ∀ f, Keeps (State.Part (fun u => u.boot.flash) f) a) : Keeps (State.Part (fun u => part u.boot.flash) x) a :=
  fun s hs => (congrArg part (h s.u.boot.flash s rfl)).trans hs

/-- R564: UPDATE_REVERT clears the trial from the record and restarts. -/
theorem completes_updateRevert {s : State} {index : Fin 4096} {c : HostCmd} (ticks : BitVec 40)
    (hcmd : s.cmdAt index (fun o => o == 0x0307) = some c) (htrial : s.onTrial = true) :
    Completes (.updateRevert index ticks) s fun t =>
      t.mode = .rom ∧ t.u.boot.running = true ∧ (s.u.boot.trial.1 = true → t.bsr.fwTrial = none) := by
  refine ⟨_, rfl, ?_⟩
  rw [Act.run_hostCmd hcmd, Act.run_read, htrial, if_pos rfl]
  refine ⟨(Act.started_resetKeepStraps 3 _).1, (Act.started_resetKeepStraps 3 _).2, fun hfw => ?_⟩
  rw [hfw, Act.run_all_cons]
  have hwritten : State.Part (fun u => (u.boot.flash.bsr.getD Bsr.default).fwTrial) none
      ((Act.bsrWrite fun b => if s.u.boot.trial.2 then (b.setTrial true none).setTrial false none
        else b.setTrial true none).run s) := by
    obtain ⟨n, hn⟩ := Act.bsr_bsrWrite (fun b => if s.u.boot.trial.2 then (b.setTrial true none).setTrial false none
      else b.setTrial true none) s
    refine (congrArg Bsr.fwTrial hn).trans ?_
    cases s.u.boot.trial.2 <;> rfl
  exact hwritten.run (.all (l := [_, _, _]) ⟨.partStores .updDone, .partWithin .aonPass,
    .ofFlash (part := fun f => (f.bsr.getD Bsr.default).fwTrial) fun _ => .flashResetKeepStraps⟩)

/-- A session's state after what it received was applied (R568). -/
def State.Applied (x : Session) (n : Nat) (s : State) : Prop :=
  State.FldIs BOOT_STATUS_UPDATE_BUSY 0 s ∧ State.Part (fun u => u.boot.session) (some { x with state := n }) s

/-- What follows a flash write of UPDATE_END leaves that nothing is applied any more. -/
theorem Act.applied_session {x : Session} {n : Nat} {s : State} (hbusy : State.FldIs BOOT_STATUS_UPDATE_BUSY 0 s)
    (last src : Nat) (record : List Byte) :
    ((all [session (some { x with state := n }), updShow last, raise src record]).run s).Applied x n := by
  constructor
  · exact hbusy.run (.all ⟨.fldUnits, .fld .updShow rfl, .fld (R := .events [] []) .raise rfl⟩)
  · rw [run_all_cons]
    exact State.Part.run rfl (.all (l := [_, _]) ⟨.partWithin .updShow, .partWithin (R := .events [] []) .raise⟩)

/-- R568, R569: what is applied is named as a trial, or the session receives again. -/
theorem completes_updateApplyComplete {s : State} (bad : Option (List Byte)) (written : Bool) {x : Session}
    (hsession : s.u.boot.session = some x) (hx : x.state = 2) :
    Completes (.updateApplyComplete bad written) s fun t =>
      t.bit BOOT_STATUS_UPDATE_BUSY = false ∧
      t.u.boot.session = some { x with state := match s.updateResult x, bad, written with
        | .ok _, none, true => 3
        | _, _, _ => 1 } := by
  suffices h : Completes (.updateApplyComplete bad written) s (State.Applied x (match s.updateResult x, bad, written with
      | .ok _, none, true => 3
      | _, _, _ => 1)) by
    obtain ⟨t, ht, hbusy, happlied⟩ := h
    exact ⟨t, ht, hbusy.bit, happlied⟩
  refine ⟨_, rfl, ?_⟩
  have hset := fldIs_setB BOOT_STATUS_UPDATE_BUSY false s rfl
  rw [Act.run_read, hsession]
  dsimp only
  rw [hx, Act.run_when, if_pos (by rfl), Act.run_seq]
  rcases s.updateResult x with ⟨st, code⟩ | img
  · exact Act.applied_session hset _ _ _
  · cases bad with
    | some w =>
      dsimp only
      rw [Act.run_seq]
      exact Act.applied_session (hset.run .fldUnits) _ _ _
    | none =>
      dsimp only
      rw [Act.run_seq]
      cases written with
      | false =>
        rw [Bool.not_false, if_pos rfl]
        exact Act.applied_session (hset.run .fldUnits) _ _ _
      | true =>
        rw [Bool.not_true, if_neg Bool.false_ne_true, Act.run_all_cons]
        exact Act.applied_session ((hset.run .fldUnits).run (.fld .bsrWrite rfl)) _ _ _

/-- R572: the wait for the partner ends, and its status shows. -/
theorem completes_pairUpdateTimeout {s : State} (hwait : s.u.boot.activateWait = true)
    (hat : s.u.boot.activateAt = none) :
    Completes .pairUpdateTimeout s fun t => t.u.boot.activateWait = false ∧ t.fld BOOT_UPD_STAT_LAST = 17 := by
  refine ⟨_, rfl, ?_⟩
  rw [Act.run_read, hwait, hat, Act.run_when, if_pos (by rfl), Act.run_all_cons]
  constructor
  · exact State.Part.run (part := fun u => u.boot.activateWait) rfl
      (.all (l := [_, _]) ⟨.partWithin .updShow, .partWithin (R := .events [] []) .raise⟩)
  · rw [Act.run_all_cons]
    exact State.FldIs.run (Act.fldIs_updShow_last (by decide) _) (.all (l := [_]) (.fld (R := .events [] []) .raise rfl))

end Sys2Proof.Machine

namespace Sys2Proof.Machine

set_option Elab.async false

open Sys2Proof Sys2Proof.Reg

/-- Settles O8: each command's program keeps the session or the trial it leaves through the completion that follows, and
the record written is the one in use. -/
theorem updateSessions : Obligations.UpdateSessions := by
  unfold Obligations.UpdateSessions
  exact ⟨fun _ _ _ _ _ _ _ hcmd hown hsession hfw hcfg hlength hmode =>
      completes_updateBegin hown hcmd hsession hfw hcfg hlength hmode,
    fun _ _ _ _ _ _ _ hcmd hown hsession hx hrange hcrc => completes_updateBlock hown hcmd hsession hx hrange hcrc,
    fun _ _ _ _ hcmd hown hsession hx => completes_updateEnd hown hcmd hsession hx,
    fun _ bad written _ hsession hx => completes_updateApplyComplete bad written hsession hx,
    fun _ _ _ _ hcmd hown hsession hx => completes_updateAbort hown hcmd hsession hx,
    fun _ _ _ _ hcmd hown => completes_updateActivate hown hcmd,
    fun _ _ _ blown hcmd hown htrial => completes_updateConfirm hown blown hcmd htrial,
    fun _ _ _ ticks hcmd _ htrial _ => completes_updateRevert ticks hcmd htrial,
    fun _ hwait hat => completes_pairUpdateTimeout hwait hat⟩

end Sys2Proof.Machine

namespace Sys2Proof.Machine

set_option Elab.async false

open Sys2Proof Sys2Proof.Reg

/-! ### Recovery operations (R575, R576, R580) -/

section

variable {s : State} {iface : HostIface} (hreach : s.reaches iface = true) (hpermit : s.permits BOOT_RCV_CMD = true)
  (hidle : s.bit BOOT_RCV_STAT_BUSY = false) (hmode : s.mode = .recovery)
include hreach hpermit hidle hmode

/-- R575: in RECOVERY a permitted operation starts. -/
theorem Act.run_rcvStart (op : Nat) (k : Nat → Act) :
    (rcvStart op (.register iface) k).run s =
      (all [setB BOOT_RCV_STAT_BUSY true,
        boot fun b => { b with rcvOp := some (op, (s.reg BOOT_RCV_ARG).toNat, none), rcvSeen := true },
        k (s.reg BOOT_RCV_ARG).toNat]).run s := by
  rw [rcvStart]
  dsimp only
  rw [run_permitted hreach hpermit, run_read, hidle, if_neg Bool.false_ne_true, hmode, decide_eq_true rfl,
    Bool.not_true, if_neg Bool.false_ne_true]

/-- R575, R580: an operation that only starts is busy with its argument kept. -/
theorem Act.busy_rcvStart (op : Nat) :
    ((rcvStart op (.register iface) fun _ => .nop).run s).bit BOOT_RCV_STAT_BUSY = true ∧
    ((rcvStart op (.register iface) fun _ => .nop).run s).u.boot.rcvOp =
      some (op, (s.reg BOOT_RCV_ARG).toNat, none) ∧
    ((rcvStart op (.register iface) fun _ => .nop).run s).u.boot.rcvSeen = true := by
  rw [run_rcvStart hreach hpermit hidle hmode, run_all_cons]
  exact ⟨((fldIs_setB BOOT_RCV_STAT_BUSY true s rfl).run (.all (l := [_, _]) ⟨.fldUnits, .nop⟩)).bit, rfl, rfl⟩

/-- R575: EXIT resets into ROM. -/
theorem completes_rcvExit (ticks : BitVec 40) :
    Completes (.rcvExit (.register iface) ticks) s fun t => t.mode = .rom ∧ t.u.boot.running = true := by
  refine ⟨_, rfl, ?_⟩
  rw [Act.rcvExit, Act.run_rcvStart hreach hpermit hidle hmode, Act.run_all_cons, Act.run_all_cons, Act.run_all_cons,
    Act.run_all_nil, Act.run_all_cons, Act.run_all_cons, Act.run_all_cons, Act.run_all_nil]
  exact Act.started_resetKeepStraps 10 _

end

/-- No Recovery operation runs. -/
def State.RcvFree (s : State) : Prop :=
  State.FldIs BOOT_RCV_STAT_BUSY 0 s ∧ State.Part (fun u => u.boot.rcvOp) none s

/-- A program that ends the Recovery operation, wherever it is run. -/
def Act.EndsRcv (a : Act) : Prop := ∀ s, (a.run s).RcvFree

namespace Act.EndsRcv

theorem seq {a b : Act} (hb : EndsRcv b) : EndsRcv (.seq a b) := fun s => hb (a.run s)
theorem read {k : State → Act} (h : ∀ s, EndsRcv (k s)) : EndsRcv (.read k) := fun s => h s s

theorem ite {c : Prop} [Decidable c] {a b : Act} (ha : EndsRcv a) (hb : EndsRcv b) :
    EndsRcv (if c then a else b) := by
  split <;> assumption

/-- R575: the end of an operation leaves none, whatever its result. -/
theorem rcvEnd {result code : Nat} : EndsRcv (Act.rcvEnd result code) := fun s => by
  have answer {o : Option Nat} : Act.Stores (.events ringRegs [.hif, .pair]) (match o with
      | none => .nop
      | some n => completeSeq n (groupStatus 0x0900 result)) := by
    cases o
    · exact .nop
    · exact .completeSeq
  rw [Act.rcvEnd, run_read, run_all_cons]
  constructor
  · exact (fldIs_setB BOOT_RCV_STAT_BUSY false s rfl).run (.all (l := [_, _, _, _]) ⟨.fldApart, .fldApart, .fldUnits,
      .fldOfReg fun _ => .regStores answer⟩)
  · rw [run_all_cons, run_all_cons, run_all_cons]
    exact State.Part.run rfl (.all (l := [_]) (.partStores answer))

/-- R575: whatever an operation does, it ends. -/
theorem rcvRun (op arg : Nat) (bad : Option (List Byte)) : EndsRcv (Act.rcvRun op arg bad) := read fun s => by
  dsimp only
  split
  · refine ite rcvEnd (ite rcvEnd ?_)
    split
    · exact seq rcvEnd
    · exact seq rcvEnd
  · split
    · exact rcvEnd
    · refine ite rcvEnd ?_
      split
      · exact seq rcvEnd
      · exact seq rcvEnd
  · exact ite rcvEnd (ite rcvEnd (seq rcvEnd))
  · exact ite rcvEnd (ite rcvEnd (seq rcvEnd))
  · exact rcvEnd

end Act.EndsRcv

/-- R575: a finished operation leaves BOOT_RCV_STAT free. -/
theorem completes_rcvOpComplete {s : State} (bad : Option (List Byte)) {op arg : Nat}
    (hop : s.u.boot.rcvOp = some (op, arg, none)) (hmode : s.mode = .recovery) :
    Completes (.rcvOpComplete bad) s fun t => t.bit BOOT_RCV_STAT_BUSY = false ∧ t.u.boot.rcvOp = none := by
  refine ⟨_, rfl, ?_⟩
  rw [Act.run_read, hop]
  dsimp only
  rw [hmode, Act.run_when, if_pos (decide_eq_true rfl)]
  obtain ⟨hbusy, hnone⟩ := Act.EndsRcv.rcvRun op arg bad s
  exact ⟨hbusy.bit, hnone⟩

/-- R576: an unattended RECOVERY entered for an error resets into ROM. -/
theorem completes_recoveryIdleTimeout {s : State} (ticks : BitVec 40) (hmode : s.mode = .recovery)
    (herror : s.u.boot.rcvError = true) (hseen : s.u.boot.rcvSeen = false) :
    Completes (.recoveryIdleTimeout ticks) s fun t => t.mode = .rom ∧ t.u.boot.running = true := by
  refine ⟨_, rfl, ?_⟩
  rw [Act.run_read, hmode, herror, hseen, Act.run_when, if_pos (by rfl), Act.run_seq]
  exact Act.started_resetKeepStraps 10 _

/-- Settles O9: the four operations that run start alike, EXIT and the timeout end in the boot ROM, and every operation
that finishes ends by the same program. -/
theorem recoveryOperations : Obligations.RecoveryOperations := by
  unfold Obligations.RecoveryOperations
  exact ⟨fun _ _ hreach hpermit hidle hmode => ⟨_, rfl, Act.busy_rcvStart hreach hpermit hidle hmode 1⟩,
    fun _ _ hreach hpermit hidle hmode => ⟨_, rfl, Act.busy_rcvStart hreach hpermit hidle hmode 2⟩,
    fun _ _ hreach hpermit hidle hmode => ⟨_, rfl, Act.busy_rcvStart hreach hpermit hidle hmode 3⟩,
    fun _ _ hreach hpermit hidle hmode => ⟨_, rfl, Act.busy_rcvStart hreach hpermit hidle hmode 4⟩,
    fun _ _ ticks hreach hpermit hidle hmode => completes_rcvExit hreach hpermit hidle hmode ticks,
    fun _ bad _ _ hop hmode => completes_rcvOpComplete bad hop hmode,
    fun _ ticks hmode herror hseen => completes_recoveryIdleTimeout ticks hmode herror hseen⟩

end Sys2Proof.Machine

namespace Sys2Proof.Machine

set_option Elab.async false

open Sys2Proof Sys2Proof.Reg

/-! ### Guard blocks (R609, R610) -/

section

variable (g : GuardReg)

theorem fixedReg_guardResult : fixedReg (guardAddr g + 8) = none := by cases g <;> rfl

theorem guardResult_ne_guardRej : guardAddr g + 8 ≠ HIF_GUARD_REJ := by cases g <;> decide

/-- A guard block lies apart from the registers that show events. -/
theorem events_lacks_guardResult : (Reach.events [] []).has (guardAddr g + 8) = false := by cases g <;> rfl

/-- R610: a rejected write shows why, and is counted. -/
theorem Act.rejected_guardReject {res : Nat} (hres : res < 8) (s : State) :
    State.FldIs (guardResult (guardAddr g)) res ((guardReject (guardAddr g) res).run s) ∧
    State.RegIs HIF_GUARD_REJ (satNext (s.reg HIF_GUARD_REJ)) ((guardReject (guardAddr g) res).run s) := by
  have hraise {src : Nat} {record : List Byte} : Within (.events [] []) (raise src record) := .raise
  rw [guardReject, run_all_cons]
  constructor
  · exact State.FldIs.run (fldIs_setF _ res s (fixedReg_guardResult g) hres)
      (.all (l := [_, _]) ⟨.fldSat (guardResult_ne_guardRej g).symm, .fld hraise (events_lacks_guardResult g)⟩)
  · rw [run_all_cons, ← Act.reg_setF_ne (guardResult (guardAddr g)) res s (guardResult_ne_guardRej g)]
    exact State.RegIs.run (Act.reg_sat rfl _) (.all (l := [_]) (.reg hraise rfl))

/-- A rejected write leaves what is armed, and that it shows so. -/
theorem Act.Keeps.armedGuardReject {x y res : Nat} {v : Option Word} :
    Keeps (State.Part (fun u => u.hif.armed.get? y) v) (Act.guardReject x res) :=
  all ⟨partSetF, partSat, partWithin (R := .events [] []) .raise⟩

theorem Act.Keeps.fldArmedGuardReject {n res : Nat} :
    Keeps (State.FldIs (guardArmed (guardAddr g)) n) (Act.guardReject (guardAddr g) res) :=
  all ⟨fldSetF, fldSat (guardResult_ne_guardRej g).symm,
    fld (R := .events [] []) .raise (events_lacks_guardResult g)⟩

/-- R609: a value written to X is armed. -/
theorem Act.armed_guardArm (v : Word) (s : State) :
    ((guardArm (guardAddr g) v).run s).armed (guardAddr g) = some v ∧
    ((guardArm (guardAddr g) v).run s).bit (guardArmed (guardAddr g)) = true ∧
    (s.armed (guardAddr g) = none → ((guardArm (guardAddr g) v).run s).mem = s.mem ∧
      ((guardArm (guardAddr g) v).run s).reg HIF_GUARD_REJ = s.reg HIF_GUARD_REJ) := by
  rw [guardArm, run_read, run_all_cons, run_all_cons, run_all_cons, run_all_nil]
  refine ⟨?_, (fldIs_setB (guardArmed (guardAddr g)) true _ (fixedReg_guardResult g)).bit, fun hnone => ?_⟩
  · refine State.Part.run (part := fun u => u.hif.armed.get? (guardAddr g)) ?_ .partSetB
    exact (Store.get?_put _ _ _ _).trans (if_pos rfl)
  · rw [hnone]
    exact ⟨setF_mem _ _ _, Act.reg_setF_ne (guardArmed (guardAddr g)) _ _ (guardResult_ne_guardRej g)⟩

/-- R610: an armed value that is given up is rejected, and nothing stays armed. -/
theorem Act.rejected_disarm {res : Nat} (hres : res < 8) (s : State) :
    ((seq (disarm (guardAddr g)) (guardReject (guardAddr g) res)).run s).armed (guardAddr g) = none ∧
    ((seq (disarm (guardAddr g)) (guardReject (guardAddr g) res)).run s).bit (guardArmed (guardAddr g)) = false ∧
    ((seq (disarm (guardAddr g)) (guardReject (guardAddr g) res)).run s).fld (guardResult (guardAddr g)) = res ∧
    ((seq (disarm (guardAddr g)) (guardReject (guardAddr g) res)).run s).reg HIF_GUARD_REJ =
      satNext (s.reg HIF_GUARD_REJ) := by
  have hrej : ((disarm (guardAddr g)).run s).reg HIF_GUARD_REJ = s.reg HIF_GUARD_REJ :=
    Act.reg_setF_ne (guardArmed (guardAddr g)) _ _ (guardResult_ne_guardRej g)
  obtain ⟨hresult, hcount⟩ := rejected_guardReject g hres ((disarm (guardAddr g)).run s)
  rw [run_seq]
  refine ⟨?_, ?_, hresult, hcount.trans (congrArg satNext hrej)⟩
  · refine State.Part.run (part := fun u => u.hif.armed.get? (guardAddr g)) ?_ .armedGuardReject
    rw [disarm, run_seq]
    exact State.Part.run (part := fun u => u.hif.armed.get? (guardAddr g))
      ((Store.get?_del _ _ _).trans (if_pos rfl)) .partSetB
  · exact (State.FldIs.run (fldIs_setB (guardArmed (guardAddr g)) false _ (fixedReg_guardResult g))
      (.fldArmedGuardReject g)).bit

end

/-- Settles O42: arming stores the value and shows it; the timeout and a write behind X give it up by one and the same
program, and a complement with nothing armed is rejected by that program's end. -/
theorem guardBlocks : Obligations.GuardBlocks := by
  unfold Obligations.GuardBlocks
  refine ⟨fun s iface g value hreach => ⟨_, rfl, ?_⟩, fun s g x harmed => ⟨_, rfl, ?_⟩,
    fun s iface g part x hreach hpart harmed => ⟨_, rfl, ?_⟩, fun s iface g hreach hnone => ⟨_, rfl, ?_⟩⟩
  · rw [Act.run_reached hreach]
    exact Act.armed_guardArm g value s
  · rw [harmed, Act.run_when, Option.isSome_some, if_pos rfl]
    exact Act.rejected_disarm g (by decide) s
  · have hbreak : (Act.guardBreak (guardAddr g)).run s =
        (Act.seq (Act.disarm (guardAddr g)) (Act.guardReject (guardAddr g) grdInterrupted)).run s := by
      rw [Act.guardBreak, Act.run_read, harmed, Act.run_when, Option.isSome_some, if_pos rfl]
    rw [Act.run_reached hreach, Act.run_read]
    cases part with
    | complement => exact absurd rfl hpart
    | result => exact hbreak ▸ Act.rejected_disarm g (by decide) s
    | reserved => exact hbreak ▸ Act.rejected_disarm g (by decide) s
  · rw [Act.run_reached hreach, Act.run_read]
    dsimp only
    rw [hnone, Act.run_when, Option.isNone_none, if_pos rfl]
    exact Act.rejected_guardReject g (by decide) s

end Sys2Proof.Machine

namespace Sys2Proof.Machine

set_option Elab.async false

open Sys2Proof Sys2Proof.Reg

/-! ### Accesses that are refused (R605) -/

/-- An access is logged as refused: the reason, the address and the count. -/
def AccessLogged (reason addr : Nat) (s t : State) : Prop :=
  State.FldIs HIF_ACCERR_REASON reason t ∧ State.RegIs HIF_ACCERR_ADDR (BitVec.ofNat 32 addr) t ∧
  State.RegIs HIF_ACCERR_CNT (satNext (s.reg HIF_ACCERR_CNT)) t

/-- R605: what a refused access shows. -/
theorem Act.logged_accessError {reason : Nat} (hreason : reason < 8) (i : HostIface) (byteEn addr : Nat) (s : State) :
    AccessLogged reason addr s ((accessError reason i byteEn addr).run s) := by
  have hraise {src key : Nat} {record : List Byte} : Within (.events [] []) (raiseOnce src key record) := .raiseOnce
  rw [accessError, run_all_cons]
  refine ⟨?_, ?_, ?_⟩
  · exact State.FldIs.run (fldIs_setF HIF_ACCERR_REASON reason s rfl hreason) (.all (l := [_, _, _, _, _, _])
      ⟨.fldApart, .fldApart, .fldReg, .fldSat, .when .fldUnits, .read fun _ => .fld hraise rfl⟩)
  · rw [run_all_cons, run_all_cons, run_all_cons]
    exact State.RegIs.run (Act.regIs_reg rfl _ _) (.all (l := [_, _, _])
      ⟨.regSat, .when .regUnits, .read fun _ => .reg hraise rfl⟩)
  · rw [run_all_cons, run_all_cons, run_all_cons, run_all_cons]
    refine State.RegIs.run (x := HIF_ACCERR_CNT) ?_ (.all (l := [_, _]) ⟨.when .regUnits, .read fun _ => .reg hraise rfl⟩)
    refine (Act.reg_sat rfl _).trans (congrArg satNext ?_)
    exact State.RegIs.run (.run (.run (.run (s := s) rfl .regSetF) .regSetF) .regSetF) .regNe

/-! ### The rings' indexes (R614, R636) -/

theorem State.fld_lt (f : Field) (s : State) : s.fld f < 2 ^ f.width := fieldOf_lt ..

/-- Where taking commands shows. -/
def takeRegs : List (Nat × Nat) := ringRegs ++ [(HIF_CMD_HEAD, 1), (HIF_CMD_TAKEN, 1), (HIF_CMD_REFUSED, 1)]

theorem Act.Within.ringStatus : Within (.quiet [(HIF_STATUS, 1)] []) Act.ringStatus :=
  .read fun _ => .all ⟨.setB, .setB⟩

theorem Act.Stores.completionEntry {c : HostCmd} {status : Nat} {res : CmdResult} :
    Stores (.events ringRegs [.hif]) (Act.completionEntry c status res) :=
  read fun _ => all ⟨memBytes, memBytes, setF, units, ite units raiseOnce, setF, within .ringStatus⟩

theorem Act.Stores.journalNew {c : HostCmd} : Stores (.events [] [.hif, .pair]) (Act.journalNew c) :=
  read fun _ => all ⟨within .recordInput, sub journal, units, when raise⟩

theorem Act.Stores.takeOne : Stores (.events takeRegs [.hif, .pair]) Act.takeOne := read fun _ => by
  refine all ⟨setF, wrap, ?_, within .ringStatus⟩
  split
  · exact all ⟨sat, ite units raiseOnce, sub completionEntry⟩
  · exact sub journalNew

theorem Act.Stores.takeUpTo {n : Nat} : Stores (.events takeRegs [.hif, .pair]) (Act.takeUpTo n) := by
  induction n with
  | zero => exact nop
  | succ n ih => exact read fun _ => when (seq takeOne ih)

theorem Act.Stores.recoveryTake : Stores (.events takeRegs [.hif, .pair]) Act.recoveryTake :=
  read fun _ => when (seq units takeUpTo)

namespace Act.Keeps

variable {i : HostIface}

/-- R614: taking commands leaves the interface that rang last. -/
theorem bellTakeUpTo {n : Nat} : Keeps (State.Part (fun u => u.hif.bell) i) (Act.takeUpTo n) := by
  have raises {src key : Nat} {record : List Byte} : Keeps (State.Part (fun u => u.hif.bell) i)
      (Act.raiseOnce src key record) := partWithin (R := .events [] []) .raiseOnce
  have bytes {a : Nat} {bs : List Byte} : Keeps (State.Part (fun u => u.hif.bell) i) (Act.memBytes a bs) :=
    partStores (R := .quiet [] []) .memBytes
  have entry {c : HostCmd} {status : Nat} {res : CmdResult} :
      Keeps (State.Part (fun u => u.hif.bell) i) (Act.completionEntry c status res) :=
    read fun _ => all ⟨bytes, bytes, partSetF, partUnits, ite partUnits raises, partSetF, partWithin .ringStatus⟩
  have new {c : HostCmd} : Keeps (State.Part (fun u => u.hif.bell) i) (Act.journalNew c) :=
    read fun _ => all ⟨partWithin .recordInput, partStores .journal, partUnits,
      when (partWithin (R := .events [] []) .raise)⟩
  induction n with
  | zero => exact nop
  | succ n ih =>
    refine read fun _ => when (seq (read fun _ => all ⟨partSetF, partWrap, ?_, partWithin .ringStatus⟩) ih)
    split
    · exact all ⟨partSat, ite partUnits raises, entry⟩
    · exact new

theorem bellRecoveryTake : Keeps (State.Part (fun u => u.hif.bell) i) Act.recoveryTake :=
  read fun _ => when (seq partUnits bellTakeUpTo)

end Act.Keeps

theorem fixedReg_of_le {a : Nat} (h : 0x10000 ≤ a) : fixedReg a = none := by
  rw [fixedReg, if_neg (by unfold GEN_CHIP_ID; omega), if_neg (by unfold GEN_CAPS; omega)]

/-- A program that reaches no unit leaves them all. -/
theorem Act.Within.u_eq {l : List (Nat × Nat)} {a : Act} (h : Within (.quiet l []) a) (s : State) : (a.run s).u = s.u :=
  Units.keeps_iff.1 (h.fits s).units

section

variable {s : State} {iface : HostIface} {value : Word} (hreach : s.reaches iface = true)
include hreach

/-- R614: a doorbell that leaves no fewer entries untaken moves TAIL. -/
theorem completes_cmdDoorbell (hpermit : s.permits HIF_CMD_TAIL = true)
    (hmore : (s.fld HIF_CMD_TAIL_TAIL + 4096 - s.fld ⟨HIF_CMD_HEAD, 0, 12⟩) % 4096 ≤
      (fieldOf value 0 12 + 4096 - s.fld ⟨HIF_CMD_HEAD, 0, 12⟩) % 4096) :
    Completes (.cmdDoorbell iface value) s fun t =>
      t.fld HIF_CMD_TAIL_TAIL = fieldOf value 0 12 ∧ t.u.hif.bell = iface := by
  refine ⟨_, rfl, ?_⟩
  rw [Act.run_permitted hreach hpermit, Act.doorbell, Act.run_read]
  dsimp only
  rw [if_neg (Nat.not_lt.2 hmore), Act.run_all_cons]
  constructor
  · exact State.FldIs.run (Act.fldIs_setF HIF_CMD_TAIL_TAIL _ s rfl (fieldOf_lt value 0 12)) (.all (l := [_, _, _])
      ⟨.fldUnits, .fld .ringStatus rfl, .fldOfReg fun _ => .regStores .recoveryTake⟩)
  · rw [Act.run_all_cons]
    exact State.Part.run (part := fun u => u.hif.bell) rfl (.all (l := [_, _]) ⟨.partWithin .ringStatus, .bellRecoveryTake⟩)

/-- R605, R614: one that would leave fewer is refused. -/
theorem completes_cmdDoorbell_of_fewer (hpermit : s.permits HIF_CMD_TAIL = true)
    (hfewer : (fieldOf value 0 12 + 4096 - s.fld ⟨HIF_CMD_HEAD, 0, 12⟩) % 4096 <
      (s.fld HIF_CMD_TAIL_TAIL + 4096 - s.fld ⟨HIF_CMD_HEAD, 0, 12⟩) % 4096) :
    Completes (.cmdDoorbell iface value) s fun t =>
      t.fld HIF_CMD_TAIL_TAIL = s.fld HIF_CMD_TAIL_TAIL ∧ AccessLogged 3 HIF_CMD_TAIL s t := by
  refine ⟨_, rfl, ?_⟩
  rw [Act.run_permitted hreach hpermit, Act.doorbell, Act.run_read]
  dsimp only
  rw [if_pos hfewer]
  have herror : Act.Within (.events accessRegs [.hif]) (Act.accessError 3 iface 15 HIF_CMD_TAIL) := .accessError
  exact ⟨State.FldIs.run (s := s) rfl (.fld herror rfl), Act.logged_accessError (by decide) iface 15 _ s⟩

/-- R614: completions consumed move CONS. -/
theorem completes_cplConsume (hpermit : s.permits HIF_CPL_CONS = true)
    (hused : (fieldOf value 0 12 + 4096 - s.fld HIF_CPL_CONS_CONS) % 4096 ≤ s.cplUsed) :
    Completes (.cplConsume iface value) s fun t => t.fld HIF_CPL_CONS_CONS = fieldOf value 0 12 := by
  refine ⟨_, rfl, ?_⟩
  rw [Act.run_permitted hreach hpermit, Act.cplConsume, Act.run_read]
  dsimp only
  rw [if_neg (Nat.not_lt.2 hused), Act.run_all_cons]
  exact State.FldIs.run (Act.fldIs_setF HIF_CPL_CONS_CONS _ s rfl (fieldOf_lt value 0 12)) (.all (l := [_, _])
    ⟨.fld .ringStatus rfl, .fldOfReg fun _ => .regStores .recoveryTake⟩)

/-- R636: events consumed move CONS. -/
theorem completes_evtRingConsume {ring : Fin 4} (hpermit : s.permits (EVT_RINGr_CONS ring) = true)
    (hused : (fieldOf value 0 13 + 8192 - s.fld (EVT_RINGr_CONS_CONS ring)) % 8192 ≤ s.ringUsed ring) :
    Completes (.evtRingConsume iface ring value) s fun t =>
      t.fld (EVT_RINGr_CONS_CONS ring) = fieldOf value 0 13 ∧ t.mem = s.mem ∧ t.u = s.u := by
  refine ⟨_, rfl, ?_⟩
  rw [Act.run_permitted hreach hpermit, Act.evtConsume, Act.run_read]
  dsimp only
  rw [if_neg (Nat.not_lt.2 hused), Act.run_seq]
  have hstatus : Act.Within (.quiet [(EVT_STATUS, 1)] []) Act.evtStatus := .read fun _ => .all ⟨.setF, .setB, .setF⟩
  have hapart : (Reach.quiet [(EVT_STATUS, 1)] []).has (EVT_RINGr_CONS ring) = false := by fin_cases ring <;> rfl
  refine ⟨?_, (hstatus.mem rfl _).trans (Act.setF_mem _ _ _), (hstatus.u_eq _).trans (Act.setF_u _ _ _)⟩
  exact State.FldIs.run (Act.fldIs_setF (EVT_RINGr_CONS_CONS ring) _ s
    (fixedReg_of_le (Nat.le_add_right_of_le (by decide))) (fieldOf_lt value 0 13)) (.fld hstatus hapart)

/-- R623: the journal request posts the next and the oldest sequence number. -/
theorem completes_hifJrnReq (hpermit : s.permits HIF_JRN_REQ = true) :
    Completes (.hifJrnReq iface) s fun t =>
      t.reg HIF_JRN_NEXT = BitVec.ofNat 32 s.u.hif.journalNext ∧
      t.reg HIF_JRN_OLDEST = BitVec.ofNat 32 s.u.hif.journalOldest ∧ t.reg HIF_JRN_REQ = 0x80000000 ∧ t.u = s.u := by
  refine ⟨_, rfl, ?_⟩
  rw [Act.run_permitted hreach hpermit, Act.journalReq, Act.run_read, Act.run_all_cons]
  refine ⟨?_, ?_, ?_, ?_⟩
  · exact State.RegIs.run (Act.regIs_reg rfl _ s) (.all (l := [_, _]) ⟨.regNe, .regNe⟩)
  · rw [Act.run_all_cons]
    exact State.RegIs.run (Act.regIs_reg rfl _ _) (.all (l := [_]) .regNe)
  · rw [Act.run_all_cons, Act.run_all_cons, Act.run_all_nil]
    exact Act.regIs_reg rfl _ _
  · rw [Act.run_all_cons, Act.run_all_cons, Act.run_all_nil]
    exact State.Part.run (part := id) (.run (.run (s := s) rfl .partReg) .partReg) .partReg

end

/-- Settles O43: an index written stands through what follows the write, a doorbell with fewer entries is only logged, and
the journal request stores two counts. -/
theorem ringIndexes : Obligations.RingIndexes := by
  unfold Obligations.RingIndexes
  exact ⟨fun _ _ _ hreach hpermit hmore => completes_cmdDoorbell hreach hpermit hmore,
    fun _ _ _ hreach hpermit hfewer => completes_cmdDoorbell_of_fewer hreach hpermit hfewer,
    fun _ _ _ hreach hpermit hused => completes_cplConsume hreach hpermit hused,
    fun _ _ _ _ hreach hpermit hused => completes_evtRingConsume hreach hpermit hused,
    fun _ _ hreach hpermit => completes_hifJrnReq hreach hpermit⟩

end Sys2Proof.Machine

namespace Sys2Proof.Machine

set_option Elab.async false

open Sys2Proof Sys2Proof.Reg

/-! ### What a read returns depends on (R294, R602, R604) -/

/-- A dword read depends on the registers, the fuses and the masks of the vectors. -/
theorem State.readDword_congr {s t : State} (hreg : ∀ a, t.reg a = s.reg a) (hfuse : t.u.fuse = s.u.fuse)
    (hmask : t.u.hif.unmasked = s.u.hif.unmasked) (a : Nat) : t.readDword a = s.readDword a := by
  simp [State.readDword, State.permitsRead, State.mode_congr (hreg GEN_MODE), State.allows, State.lifecycle,
    State.fuseMap, State.fuseRow, hfuse, hmask, hreg]

/-- A read of the window depends on memory, the fuses, where things stand, and registers beside HIF_STATUS. -/
theorem State.barRead_congr {s t : State} (hreg : ∀ a, HIF_STATUS ≠ a → t.reg a = s.reg a)
    (hfuse : t.u.fuse = s.u.fuse) (hevt : t.u.evt = s.u.evt) (hmem : t.mem = s.mem) (off n : Nat) :
    t.barRead off n = s.barRead off n := by
  have hwin : t.fld HIF_WIN_BASE_BASE = s.fld HIF_WIN_BASE_BASE := by
    rw [State.fld, hreg _ (by decide)]; rfl
  have hregion (a : Nat) : t.inRegion 3 a = s.inRegion 3 a := by
    simp only [State.inRegion, State.fld]
    rw [hreg _ (by decide), hreg _ (by decide)]
  simp [State.barRead, State.winAddr, State.barReadable, hwin, hevt, hregion, State.byte, hmem,
    State.mode_congr (hreg GEN_MODE (by decide)), hreg PAIR_HEALTH_ADDR (by decide), State.allows, State.lifecycle,
    State.fuseMap, State.fuseRow, hfuse]

/-! ### SPI transactions (R599, R600) -/

theorem State.u_spiOpen (s : State) :
    s.spiOpen.u = { s.u with hif := { s.u.hif with spiErr := false, spiOut := [] } } := Act.setF_u ..

theorem State.mem_spiOpen (s : State) : s.spiOpen.mem = s.mem := Act.setF_mem ..

section

variable {s : State} (hreach : s.reaches .spi = true)
include hreach

/-- What an SPI transaction leaves in the host unit is what its access left there. -/
theorem Act.hif_spi (a : Act) : ((spi a).run s).u.hif = (a.run s.spiOpen).u.hif := by
  rw [run_spi hreach]
  exact congrArg Units.hif (setF_u ..)

/-- A refused access within an SPI transaction is logged, and STATUS shows it. -/
theorem Act.logged_spi {reason : Nat} (hreason : reason < 8) (byteEn addr : Nat) {a : Act}
    (ha : ∀ t, a.run t = (accessError reason .spi byteEn addr).run t) :
    AccessLogged reason addr s ((spi a).run s) ∧ ((spi a).run s).u.hif.spiErr = true := by
  constructor
  · obtain ⟨hshown, haddr, hcount⟩ := logged_accessError hreason .spi byteEn addr s.spiOpen
    rw [s.reg_spiOpen (by decide)] at hcount
    rw [run_spi hreach, ha]
    exact ⟨hshown.run .fldApartB, haddr.run .regSetB, hcount.run .regSetB⟩
  · rw [hif_spi hreach, ha, accessError, run_all_cons, run_all_cons, run_all_cons, run_all_cons, run_all_cons,
      run_all_cons]
    exact State.Part.run (part := fun u => u.hif.spiErr) rfl
      (.all (l := [_]) (.read fun _ => .partWithin (R := .events [] []) .raiseOnce))

/-- R599: a read of BAR0 shifts out its dwords. -/
theorem completes_spiRead_bar0 {addr : BitVec 32} {dwords corrected : Fin 1025} {bad : List (BitVec 32)}
    (halign : addr.toNat % 4 = 0) (hbar0 : addr.toNat < 2 ^ 31) :
    Completes (.spiRead addr dwords corrected bad) s fun t =>
      t.u.hif.spiErr = false ∧ t.mem = s.mem ∧
      t.u.hif.spiOut = (List.range dwords.val).flatMap fun k =>
        leBytes 4 (((Act.setB HIF_STATUS_SPI_SEL true).run s).readDword ((addr.toNat + 4 * k) % 2 ^ 24)).toNat := by
  refine ⟨_, rfl, ?_⟩
  have hopen (a : Nat) : s.spiOpen.readDword a = ((Act.setB HIF_STATUS_SPI_SEL true).run s).readDword a :=
    State.readDword_congr (t := s.spiOpen) (fun x => (Act.reg_setF HIF_STATUS_SPI_SEL _ _ x rfl).trans
      (Act.reg_setF HIF_STATUS_SPI_SEL _ s x rfl).symm) (by rw [s.u_spiOpen, Act.setF_u])
      (by rw [s.u_spiOpen, Act.setF_u]) a
  rw [Act.run_spi hreach, Act.run_read]
  dsimp only
  rw [if_neg (not_not.2 halign), if_neg (Nat.not_le.2 hbar0)]
  simp only [hopen]
  refine ⟨?_, ?_, ?_⟩
  · simp [Act.setB, Act.hif, s.u_spiOpen]
  · simp [Act.setB, Act.hif, s.mem_spiOpen]
  · simp [Act.setB, Act.hif]

/-- R599: a read of the window shifts out its bytes. -/
theorem completes_spiRead_window {addr : BitVec 32} {dwords corrected : Fin 1025} {bad : List (BitVec 32)}
    (halign : addr.toNat % 4 = 0) (hwindow : 2 ^ 31 ≤ addr.toNat) :
    Completes (.spiRead addr dwords corrected bad) s fun t =>
      t.u.hif.spiOut = s.barRead (addr.toNat % 2 ^ 28) (4 * dwords.val) := by
  refine ⟨_, rfl, ?_⟩
  have hread := State.barRead_congr (s := s) (t := s.spiOpen) (fun a ha => s.reg_spiOpen ha)
    (by rw [s.u_spiOpen]) (by rw [s.u_spiOpen]) s.mem_spiOpen (addr.toNat % 2 ^ 28) (4 * dwords.val)
  refine (congrArg Hif.spiOut (Act.hif_spi hreach _)).trans ?_
  rw [Act.run_read]
  dsimp only
  rw [if_neg (not_not.2 halign), if_pos hwindow, hread, Act.run_seq]
  exact State.Part.run (part := fun u => u.hif.spiOut) rfl (.partWithin .barErrors)

/-- R599: a read from an address that is no multiple of 4 shifts out zeros and is logged. -/
theorem completes_spiRead_misaligned {addr : BitVec 32} {dwords corrected : Fin 1025} {bad : List (BitVec 32)}
    (halign : addr.toNat % 4 ≠ 0) :
    Completes (.spiRead addr dwords corrected bad) s fun t =>
      t.u.hif.spiOut = List.replicate (4 * dwords.val) 0 ∧ AccessLogged 5 addr.toNat s t := by
  refine ⟨_, rfl, ?_⟩
  rw [Act.run_spi hreach, Act.run_read]
  dsimp only
  rw [if_pos halign, Act.run_seq]
  constructor
  · refine State.Part.run (part := fun u => u.hif.spiOut) (.run rfl ?_) .partSetB
    exact .all ⟨.partSetF, .partSetF, .partSetF, .partReg, .partSat, .when .partUnits,
      .read fun _ => .partWithin (R := .events [] []) .raiseOnce⟩
  · obtain ⟨hshown, haddr, hcount⟩ := Act.logged_accessError (reason := 5) (by decide) .spi 15 addr.toNat
      ((Act.hif fun h => { h with spiOut := List.replicate (4 * dwords.val) 0 }).run s.spiOpen)
    have hbefore : s.spiOpen.reg HIF_ACCERR_CNT = s.reg HIF_ACCERR_CNT := s.reg_spiOpen (by decide)
    exact ⟨hshown.run .fldApartB, haddr.run .regSetB, (hcount.run .regSetB).trans (congrArg satNext hbefore)⟩

/-- R599: STATUS. -/
theorem completes_spiStatus :
    Completes .spiStatus s fun t =>
      t.u.hif.spiErr = false ∧ t.u.hif.spiOut = [BitVec.ofNat 8 ((if s.u.hif.spiErr then 1 else 0) +
        (if 4 ≤ s.fld BOOT_STATUS_STAGE then 2 else 0) + (if s.mode = .recovery then 4 else 0) +
        (if s.fld EVT_STATUS_PENDING = 0 then 0 else 8))] := by
  refine ⟨_, rfl, ?_⟩
  rw [Act.run_reached hreach, Act.run_read]
  refine ⟨rfl, ?_⟩
  simp only [Act.hif, Act.run_units, leBytes, Nat.ble_eq, decide_eq_true_eq, Bool.not_eq_true', beq_eq_false_iff_ne,
    ne_eq, ite_not]

/-- R600: an address that is no multiple of 4 is logged. -/
theorem completes_spiWrite_misaligned {addr : BitVec 32} (bytes : List (BitVec 8)) (m : Moment)
    (halign : addr.toNat % 4 ≠ 0) :
    Completes (.spiWrite addr bytes m) s fun t => AccessLogged 5 addr.toNat s t ∧ t.u.hif.spiErr = true := by
  refine ⟨_, rfl, Act.logged_spi hreach (by decide) 15 _ fun t => ?_⟩
  rw [if_pos halign]

/-- R600: bytes that make no whole dword are logged. -/
theorem completes_spiWrite_partial {addr : BitVec 32} {bytes : List (BitVec 8)} (m : Moment)
    (halign : addr.toNat % 4 = 0) (hbar0 : addr.toNat < 2 ^ 24) (hsome : 0 < bytes.length) (hfew : bytes.length < 4) :
    Completes (.spiWrite addr bytes m) s fun t => AccessLogged 1 addr.toNat s t ∧ t.u.hif.spiErr = true := by
  have hwhole : dwordsOf bytes = [] := by
    match bytes, hfew with
    | [], _ | [_], _ | [_, _], _ | [_, _, _], _ => rfl
  refine ⟨_, rfl, Act.logged_spi hreach (by decide) (2 ^ (bytes.length % 4) - 1) _ fun t => ?_⟩
  have hlast : bytes.length / 4 * 4 = 0 := by omega
  have htail : (bytes.length % 4 == 0) = false := by
    rw [beq_eq_false_iff_ne]; omega
  rw [if_neg (not_not.2 halign), hwhole, hlast, htail, decide_eq_false (by omega : ¬2 ^ 31 ≤ addr.toNat),
    if_neg Bool.false_ne_true, Nat.add_zero, Nat.mod_eq_of_lt hbar0]
  rfl

end

end Sys2Proof.Machine

namespace Sys2Proof.Machine

set_option Elab.async false

open Sys2Proof Sys2Proof.Reg

/-! ### Register writes that only store (R602, R604) -/

/-- A register that takes a write is not one whose value is fixed in the part. -/
theorem fixedReg_of_writes {a : Nat} {r : Row} (hrow : rowOf a = some r) (hw : writes a r = true) :
    fixedReg a = none := by
  have hno {b : Nat} (hb : (rowOf b).map (writes b) = some false) : a ≠ b := by
    rintro rfl
    rw [hrow, Option.map_some, hw] at hb
    exact absurd hb (by decide)
  rw [fixedReg, if_neg (hno rfl), if_neg (hno rfl)]

/-- HIF_STATUS takes no write. -/
theorem hifStatus_ne_of_writes {a : Nat} {r : Row} (hrow : rowOf a = some r) (hw : writes a r = true) :
    HIF_STATUS ≠ a := by
  rintro rfl
  have hb : (rowOf HIF_STATUS).map (writes HIF_STATUS) = some false := rfl
  rw [hrow, Option.map_some, hw] at hb
  exact absurd hb (by decide)

/-- Whether a write does more than store depends on the register and the value alone. -/
theorem Act.isNone_special_congr (i : HostIface) (a : Nat) (w : Word) (m : Moment) (s t : State) :
    (special i a w m t).isNone = (special i a w m s).isNone := by
  have hrf (p : RfPort) : (rfWrite p a w m t).isNone = (rfWrite p a w m s).isNone := by
    unfold rfWrite
    dsimp only
    by_cases hslice : a = RFx_SLICE p
    · rw [if_pos hslice, if_pos hslice, Option.isNone_some, Option.isNone_some]
    · rw [if_neg hslice, if_neg hslice]
  unfold special
  split
  · exact hrf .s
  · exact hrf .w
  all_goals rfl

/-- R604: a dword written to a register that only stores. -/
theorem Act.run_regWrite_keep {i : HostIface} {a : Nat} {r : Row} {s : State} {w : Word} {m : Moment}
    (hreach : s.reaches i = true) (hrow : rowOf a = some r) (hw : writes a r = true) (hmsix : inMsixTable a = false)
    (hguard : guardAt a = none) (hpermit : s.permits a = true) (hplain : (special i a w m s).isNone = true) :
    (regWrite i a w m).run s =
      s.setReg a ((s.reg a &&& ~~~(BitVec.ofNat 32 r.writable)) ||| storedValue a w) := by
  have hspecial : special i a w m s = none := Option.isNone_iff_eq_none.1 hplain
  rw [regWrite, run_read, hguard]
  dsimp only
  rw [hmsix, if_neg Bool.false_ne_true, hrow]
  dsimp only
  rw [hw, run_when, if_pos rfl, run_permitted hreach hpermit, hspecial, Option.getD_none, keep, run_read, hrow]
  rfl

/-- R600, R604: a whole dword written over SPI to a plain register stores its writable bits. -/
theorem completes_spiWrite_keep {s : State} {addr : BitVec 32} {v : BitVec 32} {m : Moment} {r : Row}
    (hreach : s.reaches .spi = true) (halign : addr.toNat % 4 = 0) (hbar0 : addr.toNat < 2 ^ 24)
    (hrow : rowOf addr.toNat = some r) (hw : writes addr.toNat r = true) (hmsix : inMsixTable addr.toNat = false)
    (hguard : guardAt addr.toNat = none) (hpermit : s.permits addr.toNat = true)
    (hplain : (Act.special .spi addr.toNat v m s).isNone = true) :
    Completes (.spiWrite addr (leBytes 4 v.toNat) m) s fun t =>
      t.reg addr.toNat = (s.reg addr.toNat &&& ~~~(BitVec.ofNat 32 r.writable)) ||| storedValue addr.toNat v ∧
      t.u.hif.spiErr = false := by
  have hne := hifStatus_ne_of_writes hrow hw
  have hexec := exec_spiWrite_dword hbar0 halign v m s
  rw [BitVec.ofNat_toNat, BitVec.setWidth_eq] at hexec
  have hreach' := (State.reaches_congr (s := s) (t := s.spiOpen) (by rw [s.u_spiOpen]) (by rw [s.u_spiOpen])
    (s.reg_spiOpen (by decide)) (s.reg_spiOpen (by decide))).trans hreach
  have hpermit' := (State.permits_congr (s := s) (t := s.spiOpen) (by rw [s.u_spiOpen])
    (s.reg_spiOpen (by decide)) addr.toNat).trans hpermit
  have hplain' := (Act.isNone_special_congr .spi addr.toNat v m s s.spiOpen).trans hplain
  refine ⟨_, hexec, ?_⟩
  rw [Act.run_spi hreach, Act.run_regWrite_keep hreach' hrow hw hmsix hguard hpermit' hplain', s.reg_spiOpen hne]
  constructor
  · exact (Act.reg_setF_ne HIF_STATUS_SPI_SEL _ _ hne).trans
      (State.reg_setReg_same _ _ _ (fixedReg_of_writes hrow hw))
  · simp [Act.setB, s.u_spiOpen]

section

variable {s : State} (hreach : s.reaches .pcie = true)
include hreach

/-- R602, R604: a whole dword written over PCIe to a plain register stores its writable bits. -/
theorem completes_registerWrite_keep {addr : BitVec 24} {v : BitVec 32} {m : Moment} {r : Row}
    (halign : addr.toNat % 4 = 0) (hrow : rowOf addr.toNat = some r) (hw : writes addr.toNat r = true)
    (hmsix : inMsixTable addr.toNat = false) (hguard : guardAt addr.toNat = none)
    (hpermit : s.permits addr.toNat = true) (hplain : (Act.special .pcie addr.toNat v m s).isNone = true) :
    Completes (.registerWrite addr [(v, 15)] m) s fun t =>
      t.reg addr.toNat = (s.reg addr.toNat &&& ~~~(BitVec.ofNat 32 r.writable)) ||| storedValue addr.toNat v := by
  have hexec := exec_registerWrite_dword addr.isLt halign v m s
  rw [BitVec.ofNat_toNat, BitVec.setWidth_eq] at hexec
  refine ⟨_, hexec, ?_⟩
  rw [Act.run_reached hreach, Act.run_regWrite_keep hreach hrow hw hmsix hguard hpermit hplain]
  exact State.reg_setReg_same _ _ _ (fixedReg_of_writes hrow hw)

/-- R602: a dword of which not every byte is enabled is logged, with its enables. -/
theorem completes_registerWrite_partial {addr : BitVec 24} {v : BitVec 32} {en : BitVec 4} (m : Moment)
    (halign : addr.toNat % 4 = 0) (hen : en ≠ 15) :
    Completes (.registerWrite addr [(v, en)] m) s fun t =>
      AccessLogged 1 addr.toNat s t ∧ t.fld HIF_ACCERR_BYTE_EN = en.toNat := by
  have hpart : en.toNat ≠ 15 := fun h => hen (BitVec.eq_of_toNat_eq h)
  have hdword : addr.toNat / 4 * 4 = addr.toNat := by omega
  have haddr : (addr.toNat + 4 * 0) % 2 ^ 24 = addr.toNat := Nat.mod_eq_of_lt addr.isLt
  refine ⟨_, rfl, ?_⟩
  have hrun : (Act.each [(v, en)].zipIdx fun d =>
      Act.dwordWrite .pcie ((addr.toNat + 4 * d.2) % 2 ^ 24) d.1.1 d.1.2.toNat m).run s =
      (Act.accessError 1 .pcie en.toNat addr.toNat).run s := by
    change (Act.dwordWrite .pcie ((addr.toNat + 4 * 0) % 2 ^ 24) v en.toNat m).run s = _
    rw [haddr, Act.dwordWrite, if_neg hpart]
  rw [Act.run_reached hreach, if_neg (Nat.not_lt.2 (by simp)), hdword, hrun]
  refine ⟨Act.logged_accessError (by decide) .pcie _ _ s, ?_⟩
  rw [Act.accessError, Act.run_all_cons, Act.run_all_cons, Act.run_all_cons]
  exact State.FldIs.run (Act.fldIs_setF HIF_ACCERR_BYTE_EN _ _ rfl en.isLt) (.all (l := [_, _, _, _])
    ⟨.fldReg, .fldSat, .when .fldUnits, .read fun _ => .fld (R := .events [] []) .raiseOnce rfl⟩)

/-- R602: a request of more than 16 dwords is logged. -/
theorem completes_registerWrite_long {addr : BitVec 24} {dwords : List (BitVec 32 × BitVec 4)} (m : Moment)
    (hlong : 16 < dwords.length) :
    Completes (.registerWrite addr dwords m) s (AccessLogged 6 (addr.toNat / 4 * 4) s) := by
  refine ⟨_, rfl, ?_⟩
  rw [Act.run_reached hreach, if_pos hlong]
  exact Act.logged_accessError (by decide) .pcie 15 _ s

/-- R598: a read of the window returns its bytes. -/
theorem completes_bar2Read (offset : BitVec 28) (len corrected : Fin 4097) (bad : List (BitVec 32)) :
    Completes (.bar2Read offset len corrected bad) s fun t => t.u.hif.barOut = s.barRead offset.toNat len.val := by
  refine ⟨_, rfl, ?_⟩
  rw [Act.run_reached hreach, Act.run_read, Act.run_seq]
  exact State.Part.run (part := fun u => u.hif.barOut) rfl (.partWithin .barErrors)

/-- R598, R605: a byte outside what the window may write is refused. -/
theorem completes_bar2Write_refused {offset : BitVec 28} {b : BitVec 8}
    (hnot : s.barWritable (s.winAddr offset.toNat) = false) :
    Completes (.bar2Write offset [some b]) s (AccessLogged 4 (2 ^ 31 + offset.toNat) s) := by
  refine ⟨_, rfl, ?_⟩
  rw [Act.run_reached hreach, Act.barWrite, Act.run_read, if_pos (by simpa using hnot)]
  exact Act.logged_accessError (by decide) .pcie _ _ s

end

end Sys2Proof.Machine

namespace Sys2Proof.Machine

set_option Elab.async false

open Sys2Proof Sys2Proof.Reg

/-! ### Bytes written through the window (R294, R598) -/

/-- The bytes that a request enables, with the addresses they go to. -/
def State.barCells (s : State) (off : Nat) (bytes : List (Option Byte)) : List (Nat × Byte) :=
  bytes.zipIdx.filterMap fun x => x.1.map fun b => (s.winAddr (off + x.2), b)

theorem State.mem_barCells {s : State} {off : Nat} {bytes : List (Option Byte)} {c : Nat × Byte} :
    c ∈ s.barCells off bytes ↔ ∃ k, bytes[k]? = some (some c.2) ∧ c.1 = s.winAddr (off + k) := by
  rw [State.barCells, List.mem_filterMap]
  constructor
  · rintro ⟨⟨o, k⟩, hk, hc⟩
    obtain ⟨b, rfl, rfl⟩ := Option.map_eq_some_iff.1 hc
    exact ⟨k, List.mem_zipIdx_iff_getElem?.1 hk, rfl⟩
  · rintro ⟨k, hk, haddr⟩
    exact ⟨(some c.2, k), List.mem_zipIdx_iff_getElem?.2 hk, by rw [← haddr]; rfl⟩

/-- The addresses of a request shorter than the Envelope differ. -/
theorem State.pairwise_barCells (s : State) (off : Nat) {bytes : List (Option Byte)} (hlen : bytes.length ≤ 256) :
    (s.barCells off bytes).Pairwise fun c d => c.1 % 2 ^ 32 ≠ d.1 % 2 ^ 32 := by
  have hrising : bytes.zipIdx.Pairwise fun x y => x.2 < y.2 := by
    rw [← List.pairwise_map (f := Prod.snd), List.zipIdx_map_snd]
    exact List.pairwise_lt_range'
  have hindex {x : Option Byte × Nat} (hx : x ∈ bytes.zipIdx) : x.2 < bytes.length := by
    have := List.mem_zipIdx hx
    omega
  refine List.Pairwise.filterMap (R := fun x y => x.2 < y.2 ∧ y.2 < 256) _ ?_
    (hrising.imp_of_mem fun _ hy hlt => ⟨hlt, (hindex hy).trans_le hlen⟩)
  rintro ⟨o, j⟩ ⟨p, k⟩ ⟨hlt, hk⟩ c hc d hd
  obtain ⟨b, rfl, rfl⟩ := Option.map_eq_some_iff.1 hc
  obtain ⟨e, rfl, rfl⟩ := Option.map_eq_some_iff.1 hd
  simp only [State.winAddr] at *
  omega

theorem Act.regs_eachMem (cells : List (Nat × Byte)) (s : State) :
    ((each cells fun c => .mem c.1 c.2).run s).regs = s.regs := by
  induction cells generalizing s with
  | nil => rfl
  | cons c cells ih => exact ih (s.setByte c.1 c.2)

/-- A byte at none of the addresses stored. -/
theorem Act.byte_eachMem_ne {cells : List (Nat × Byte)} {a : Nat} (h : ∀ d ∈ cells, a % 2 ^ 32 ≠ d.1 % 2 ^ 32)
    (s : State) : ((each cells fun c => .mem c.1 c.2).run s).byte a = s.byte a := by
  induction cells generalizing s with
  | nil => rfl
  | cons c cells ih =>
    refine (ih (fun d hd => h d (List.mem_cons_of_mem _ hd)) (s.setByte c.1 c.2)).trans ?_
    rw [State.byte_setByte, if_neg (h c List.mem_cons_self).symm]

/-- Bytes stored at different addresses read back. -/
theorem Act.byte_eachMem {cells : List (Nat × Byte)} (hdiffer : cells.Pairwise fun c d => c.1 % 2 ^ 32 ≠ d.1 % 2 ^ 32)
    {c : Nat × Byte} (hc : c ∈ cells) (s : State) :
    ((each cells fun c => .mem c.1 c.2).run s).byte c.1 = c.2 := by
  induction cells generalizing s with
  | nil => exact nomatch hc
  | cons d cells ih =>
    obtain ⟨hd, hrest⟩ := List.pairwise_cons.1 hdiffer
    rcases List.mem_cons.1 hc with rfl | hmem
    · refine (byte_eachMem_ne hd (s.setByte c.1 c.2)).trans ?_
      rw [State.byte_setByte, if_pos rfl]
    · exact ih hrest hmem (s.setByte d.1 d.2)

/-- R598: permitted bytes written through the window stand in the Envelope. -/
theorem completes_bar2Write {s : State} (hreach : s.reaches .pcie = true) {offset : BitVec 28}
    {bytes : List (Option (BitVec 8))} (hlen : bytes.length ≤ 256)
    (hallowed : (List.range bytes.length).all (fun k => (bytes.getD k none).isNone ||
      (s.barWritable (s.winAddr (offset.toNat + k)) && s.barPermits (s.winAddr (offset.toNat + k)))) = true) :
    Completes (.bar2Write offset bytes) s fun t =>
      (List.range bytes.length).all (fun k => (bytes.getD k none).all fun b =>
        t.byte (s.winAddr (offset.toNat + k)) == b) = true ∧ t.regs = s.regs := by
  refine ⟨_, rfl, ?_⟩
  have hcell {c : Nat × Byte} (hc : c ∈ s.barCells offset.toNat bytes) :
      s.barWritable c.1 = true ∧ s.barPermits c.1 = true := by
    obtain ⟨k, hk, haddr⟩ := State.mem_barCells.1 hc
    obtain ⟨hlt, -⟩ := List.getElem?_eq_some_iff.1 hk
    have hbyte := List.all_eq_true.1 hallowed k (List.mem_range.2 hlt)
    rw [List.getD_eq_getElem?_getD, hk] at hbyte
    simpa [haddr] using hbyte
  have hwritable : (s.barCells offset.toNat bytes).any (fun c => !s.barWritable c.1) = false := by
    rw [List.any_eq_false]
    exact fun c hc => by simp [(hcell hc).1]
  have hpermits : (s.barCells offset.toNat bytes).any (fun c => !s.barPermits c.1) = false := by
    rw [List.any_eq_false]
    exact fun c hc => by simp [(hcell hc).2]
  have hrun : (Act.barWrite .pcie offset.toNat bytes).run s =
      (Act.each (s.barCells offset.toNat bytes) fun c => .mem c.1 c.2).run s := by
    rw [Act.barWrite, Act.run_read]
    dsimp only
    rw [← State.barCells, hwritable, hpermits, if_neg Bool.false_ne_true, if_neg Bool.false_ne_true]
  rw [Act.run_reached hreach, hrun]
  refine ⟨List.all_eq_true.2 fun k hk => ?_, Act.regs_eachMem _ s⟩
  rw [List.getD_eq_getElem?_getD, List.getElem?_eq_getElem (List.mem_range.1 hk), Option.getD_some]
  cases hb : bytes[k]'(List.mem_range.1 hk) with
  | none => rfl
  | some b =>
    have hc : (s.winAddr (offset.toNat + k), b) ∈ s.barCells offset.toNat bytes :=
      State.mem_barCells.2 ⟨k, by rw [List.getElem?_eq_getElem (List.mem_range.1 hk), hb], rfl⟩
    exact beq_iff_eq.2 (Act.byte_eachMem (s.pairwise_barCells offset.toNat hlen) hc s)

/-- Settles O41: an SPI transaction leaves what its access saw and what its access left, an access that is refused is
logged by one program, and a plain register or a byte of the window keeps what is written to it. -/
theorem hostAccesses : Obligations.HostAccesses := by
  unfold Obligations.HostAccesses
  refine ⟨fun _ _ _ _ _ hreach halign hbar0 => completes_spiRead_bar0 hreach halign hbar0,
    fun _ _ _ _ _ hreach halign hwindow => completes_spiRead_window hreach halign hwindow,
    fun _ _ _ _ _ hreach halign => ?_,
    fun _ _ _ _ _ hreach halign hbar0 hrow hw hmsix hguard hpermit hplain =>
      completes_spiWrite_keep hreach halign hbar0 hrow hw hmsix hguard hpermit hplain,
    fun _ _ _ m hreach halign hbar0 hsome hfew => ?_,
    fun _ _ bytes m hreach halign => ?_,
    fun _ hreach => completes_spiStatus hreach,
    fun _ hreach => ?_,
    fun _ _ _ _ _ hreach halign hrow hw hmsix hguard hpermit hplain =>
      completes_registerWrite_keep hreach halign hrow hw hmsix hguard hpermit hplain,
    fun _ _ _ _ m hreach halign hen => ?_,
    fun _ _ _ m hreach hlong => completes_registerWrite_long hreach m hlong,
    fun _ offset len corrected bad hreach => completes_bar2Read hreach offset len corrected bad,
    fun _ _ _ hreach hlen hallowed => completes_bar2Write hreach hlen hallowed,
    fun _ _ _ hreach hnot => completes_bar2Write_refused hreach hnot⟩
  · obtain ⟨t, ht, hout, hreason, haddr, hcount⟩ := completes_spiRead_misaligned hreach halign
    exact ⟨t, ht, hout, hreason, haddr.trans (by simp), hcount⟩
  · obtain ⟨t, ht, ⟨hreason, haddr, hcount⟩, herr⟩ := completes_spiWrite_partial hreach m halign hbar0 hsome hfew
    exact ⟨t, ht, hreason, haddr.trans (by simp), hcount, herr⟩
  · obtain ⟨t, ht, ⟨hreason, haddr, hcount⟩, herr⟩ := completes_spiWrite_misaligned hreach bytes m halign
    exact ⟨t, ht, hreason, haddr.trans (by simp), hcount, herr⟩
  · exact ⟨_, rfl, by rw [Act.run_reached hreach]; exact ⟨rfl, rfl⟩⟩
  · obtain ⟨t, ht, ⟨hreason, haddr, hcount⟩, hbytes⟩ := completes_registerWrite_partial hreach m halign hen
    exact ⟨t, ht, hreason, haddr, hcount, hbytes⟩

end Sys2Proof.Machine

namespace Sys2Proof.Machine

set_option Elab.async false

open Sys2Proof Sys2Proof.Reg

/-! ### What a completion says (R613) -/

theorem State.bytes_add (s : State) (a m n : Nat) : s.bytes a (m + n) = s.bytes a m ++ s.bytes (a + m) n := by
  induction m generalizing a with
  | zero => simp [State.bytes]
  | succ m ih =>
    rw [Nat.succ_add, State.bytes, State.bytes, ih, List.cons_append]
    congr 3
    omega

/-- Bytes read that are three stretches, the second of them. -/
theorem State.bytes_middle {s : State} {a : Nat} {l m r : List Byte}
    (h : s.bytes a (l.length + (m.length + r.length)) = l ++ (m ++ r)) : s.bytes (a + l.length) m.length = m := by
  rw [State.bytes_add, State.bytes_add] at h
  obtain ⟨-, hrest⟩ := List.append_inj h (State.bytes_length ..)
  exact (List.append_inj hrest (State.bytes_length ..)).1

/-- The status and the value that the completion written next carries. -/
def State.Posted (status v : Nat) (s t : State) : Prop :=
  t.le (s.cplAddr + 10) 2 = status % 65536 ∧ t.le (s.cplAddr + 16) 8 = v % 2 ^ 64

/-- R613: a completion stores its status and its value in its entry. -/
theorem Act.posted_completionEntry {c : HostCmd} {status v : Nat} {s : State} (hrun : s.bit BT_STATUS_RUNNING = true) :
    s.Posted status v ((completionEntry c status (.val v)).run s) := by
  obtain ⟨flags, beat, hmem⟩ : ∃ flags beat, ((completionEntry c status (.val v)).run s).mem =
      ((memBytes s.cplAddr (leBytes 4 c.id ++ leBytes 4 c.seq ++ leBytes 2 c.opcode ++ leBytes 2 status ++
        leBytes 2 c.index ++ leBytes 1 flags ++ [0] ++ leBytes 8 v ++ leBytes 4 beat ++ leBytes 4 0)).run s).mem := by
    refine ⟨if s.u.hif.cplPhase then 1 else 0, s.workBeat % 2 ^ 32, ?_⟩
    rw [completionEntry, run_read, hrun]
    dsimp only
    rw [if_pos rfl, run_all_cons, run_all_cons]
    have htail : Within (.quiet [(HIF_CPL_PROD, 1), (HIF_STATUS, 1)] [.hif]) (all [setF cplProd (s.fld cplProd + 1),
        hif fun h => { h with cplPhase := if s.fld cplProd = 4095 then !h.cplPhase else h.cplPhase },
        hif fun h => { h with done := h.done + 1 },
        setF ⟨HIF_CPL_PROD, 12, 1⟩ (if s.fld cplProd = 4095 then 1 - (if s.u.hif.cplPhase then 1 else 0)
          else if s.u.hif.cplPhase then 1 else 0), ringStatus]) :=
      .all ⟨.setF, .units, .units, .setF, .sub .ringStatus⟩
    exact htail.mem rfl _
  have hentry := Act.bytes_memBytes (bs := leBytes 4 c.id ++ leBytes 4 c.seq ++ leBytes 2 c.opcode ++
    leBytes 2 status ++ leBytes 2 c.index ++ leBytes 1 flags ++ [0] ++ leBytes 8 v ++ leBytes 4 beat ++ leBytes 4 0)
    (by simp) s.cplAddr s
  rw [← State.bytes_congr hmem] at hentry
  constructor
  · have hstatus := State.bytes_middle (l := leBytes 4 c.id ++ leBytes 4 c.seq ++ leBytes 2 c.opcode)
      (m := leBytes 2 status)
      (r := leBytes 2 c.index ++ leBytes 1 flags ++ [0] ++ leBytes 8 v ++ leBytes 4 beat ++ leBytes 4 0)
      (s := (completionEntry c status (.val v)).run s) (a := s.cplAddr) (by simpa using hentry)
    simp only [List.length_append, leBytes_length] at hstatus
    rw [State.le, hstatus, leValue_leBytes]
    rfl
  · have hvalue := State.bytes_middle (l := leBytes 4 c.id ++ leBytes 4 c.seq ++ leBytes 2 c.opcode ++
      leBytes 2 status ++ leBytes 2 c.index ++ leBytes 1 flags ++ [0]) (m := leBytes 8 v)
      (r := leBytes 4 beat ++ leBytes 4 0)
      (s := (completionEntry c status (.val v)).run s) (a := s.cplAddr) (by simpa using hentry)
    simp only [List.length_append, leBytes_length, List.length_singleton] at hvalue
    rw [State.le, hvalue, leValue_leBytes]
    rfl

theorem State.Posted.of_eq {status v : Nat} {s r t : State} (h : r.Posted status v t)
    (hbase : r.reg HIF_CPL_BASE = s.reg HIF_CPL_BASE) (hprod : r.reg HIF_CPL_PROD = s.reg HIF_CPL_PROD) :
    s.Posted status v t := by
  have haddr : s.cplAddr = r.cplAddr := by
    simp only [State.cplAddr, State.fld, hbase, hprod]
  rw [State.Posted, haddr]
  exact h

/-- A program that completes a command of the ring with a status and a value. -/
def Act.Answers (c : HostCmd) (status v : Nat) (a : Act) : Prop := ∀ s, Finished c s (a.run s) ∧
  (s.bit BT_STATUS_RUNNING = true → s.Posted status v (a.run s))

namespace Act.Answers

variable {c : HostCmd} {status v : Nat}

theorem complete (hown : c.mirrored = false) : Answers c status v (Act.complete c status (.val v)) := fun s => by
  refine ⟨finished_complete hown _ _ s, fun hrun => ?_⟩
  have hjournal : Stores (.quiet [] [.pair]) (when (Nat.blt 0 c.seq) (journal c status true)) := .when .journal
  have hlate : Within (.quiet [(HIF_CMD_LATE, 1)] []) (when (Nat.beq status stLate) (sat HIF_CMD_LATE)) := .when .sat
  rw [Act.complete, run_all_cons, run_all_cons, run_all_cons, run_all_cons, run_all_nil, run_read, hown, Bool.not_false,
    Bool.true_or, run_when (c := true), if_pos rfl]
  have hrun' : ((when (Nat.blt 0 c.seq) (journal c status true)).run s).bit BT_STATUS_RUNNING = true := by
    simpa only [State.bit, State.fld, hjournal.reg_eq (x := BT_STATUS_RUNNING.reg) rfl] using hrun
  obtain ⟨hstatus, hvalue⟩ := (posted_completionEntry (c := c) (status := status) (v := v) hrun').of_eq
    (hjournal.reg_eq rfl s) (hjournal.reg_eq rfl s)
  have hmem (t : State) : ((Act.hif fun h => { h with
      cmds := h.cmds.filter fun d => !(d.index == c.index && d.seq == c.seq) }).run
      ((when (Nat.beq status stLate) (sat HIF_CMD_LATE)).run t)).mem = t.mem := hlate.mem rfl t
  exact ⟨by rw [State.le, State.bytes_congr (hmem _)]; exact hstatus,
    by rw [State.le, State.bytes_congr (hmem _)]; exact hvalue⟩

theorem after {R : Reach} {a b : Act} (ha : Act.Stores R a) (hb : Answers c status v b)
    (hhif : .hif ∉ R.units := by decide) (hprod : R.has HIF_CPL_PROD = false := by decide +kernel)
    (hbase : R.has HIF_CPL_BASE = false := by decide +kernel) (hbt : R.has BT_STATUS = false := by decide +kernel) :
    Answers c status v (.seq a b) := fun s => by
  obtain ⟨hfinished, hposted⟩ := hb (a.run s)
  refine ⟨hfinished.of_eq ((ha s).units .hif hhif).symm (ha.reg_eq hprod s), fun hrun => ?_⟩
  refine (hposted ?_).of_eq (ha.reg_eq hbase s) (ha.reg_eq hprod s)
  simpa only [State.bit, State.fld, ha.reg_eq (x := BT_STATUS_RUNNING.reg) hbt] using hrun

theorem last {a : Act} (h : Answers c status v a) : Answers c status v (Act.all [a]) := h

/-- What a command that completes with OK shows. -/
theorem run {a : Act} (h : Answers c 0 v a) (s : State) : Finished c s (a.run s) ∧
    (s.bit BT_STATUS_RUNNING = true → (a.run s).le (s.cplAddr + 10) 2 = 0) :=
  ⟨(h s).1, fun hrun => ((h s).2 hrun).1⟩

end Act.Answers

/-! ### The image library (R581–R584) -/

theorem Act.Stores.regionWrite {a : Nat} {bs : List Byte} : Stores (.quiet [] [.pair]) (Act.regionWrite a bs) :=
  seq memBytes (within .logUpdate)

theorem Act.Stores.libPut {i : Nat} {f : RecField} {v : Nat} : Stores (.quiet [] [.pair]) (Act.libPut i f v) :=
  read fun _ => regionWrite

theorem Act.Stores.img {f : Img → Img} : Stores (.quiet [] [.img]) (Act.img f) := units

/-- The end of an image or campaign command leaves the role's own state. -/
theorem Act.img_imgDone (c : HostCmd) (n : Nat) (s : State) : ((imgDone c n).run s).u.img = s.u.img :=
  (Act.Stores.complete.unit .img s).symm

theorem Act.Answers.imgDone {c : HostCmd} (hown : c.mirrored = false) : Answers c 0 0 (Act.imgDone c imgOk) :=
  complete hown

section

variable {s : State} {index : Fin 4096} {c : HostCmd} {op : Nat} (hcmd : s.cmdAt index (fun o => o == op) = some c)
include hcmd

/-- R581: a command of the library is carried out where there is one. -/
theorem Act.run_imgCmd (hlib : s.libSlots ≠ 0) (k : HostCmd → State → Act) :
    (imgCmd index op k).run s = (k c s).run s := by
  rw [imgCmd, run_hostCmd hcmd, run_read, if_neg hlib]

theorem Act.run_slotCmd {slot : Nat} (hslot : slot < s.libSlots) (k : HostCmd → State → Act) :
    (slotCmd index op slot k).run s = (k c s).run s := by
  rw [slotCmd, run_imgCmd hcmd (Nat.ne_zero_of_lt hslot), if_neg (Nat.not_le.2 hslot)]

/-- R587: a command on a campaign is carried out in the states it names. -/
theorem Act.run_campCmd {number r : Nat} {ok : Nat → Bool} (hlib : s.libSlots ≠ 0) (hcamp : s.campOf number = some r)
    (hok : ok (s.camp r Camp.STATE) = true) (k : HostCmd → State → Nat → Act) :
    (campCmd index op number ok k).run s = (k c s r).run s := by
  rw [campCmd, run_imgCmd hcmd hlib, hcamp]
  dsimp only
  rw [if_pos hok]

end

/-- What joins a list is in it. -/
theorem contains_append_filter {l m : List Nat} {x : Nat} (h : x ∈ m) :
    (l ++ m.filter fun y => !l.contains y).contains x = true := by
  by_cases hx : x ∈ l <;> simp [h, hx]

section

variable {s : State} {index : Fin 4096} {c : HostCmd} (hown : c.mirrored = false) {slot : BitVec 8}
include hown

/-- R583: IMAGE_OPEN. -/
theorem completes_imageOpen {nodeClass : BitVec 8} {blockSize : BitVec 16} {length version : BitVec 32}
    {sha : BitVec 256} (hcmd : s.cmdAt index (fun o => o == 0x0401) = some c) (hslot : slot.toNat < s.libSlots)
    (hfree : s.lib slot.toNat Lib.STATE = 0) (hrange : ¬(blockSize.toNat < 64 ∨ 896 < blockSize.toNat ∨
      blockSize.toNat % 64 ≠ 0 ∨ length.toNat = 0 ∨ 2 ^ 23 - 64 < length.toNat ∨ blockSize.toNat * 65534 < length.toNat)) :
    Completes (.imageOpen index slot nodeClass blockSize length version sha) s fun t =>
      (Finished c s t ∧ (s.bit BT_STATUS_RUNNING = true → t.le (s.cplAddr + 10) 2 = 0)) ∧
      t.u.img.maps.getD slot.toNat [] = [] := by
  refine ⟨_, rfl, ?_⟩
  rw [Act.run_slotCmd hcmd hslot]
  dsimp only
  rw [hfree, if_neg (by decide), if_neg hrange]
  refine ⟨Act.Answers.run (.after .regionWrite (.after .img (.last (.imgDone hown)))) s, ?_⟩
  rw [Act.run_all_cons, Act.run_all_cons, Act.run_all_cons, Act.run_all_nil, Act.img_imgDone, Act.img, Act.run_units]
  dsimp only
  rw [Store.getD_setD, if_pos rfl]

/-- R583: IMAGE_PUT. -/
theorem completes_imagePut {offset bytes crc : BitVec 32} (hcmd : s.cmdAt index (fun o => o == 0x0402) = some c)
    (hslot : slot.toNat < s.libSlots) (hloading : s.lib slot.toNat Lib.STATE = 1)
    (hrange : blockInRange (s.lib slot.toNat Lib.LENGTH) offset.toNat bytes.toNat = true)
    (hcrc : crc32 (s.bytes s.stagingBase (min bytes.toNat 65536)) = crc) :
    Completes (.imagePut index slot offset bytes crc) s fun t =>
      (Finished c s t ∧ (s.bit BT_STATUS_RUNNING = true → t.le (s.cplAddr + 10) 2 = 0)) ∧
      (blockUnits offset.toNat bytes.toNat).all ((t.u.img.maps.getD slot.toNat []).contains ·) = true := by
  refine ⟨_, rfl, ?_⟩
  rw [Act.run_slotCmd hcmd hslot]
  dsimp only
  rw [hloading, hrange, hcrc, decide_eq_true rfl, if_neg (by decide), if_neg (by decide), if_neg (by decide)]
  refine ⟨Act.Answers.run (.after .regionWrite (.after .img (.last (.imgDone hown)))) s, ?_⟩
  rw [Act.run_all_cons, Act.run_all_cons, Act.run_all_cons, Act.run_all_nil, Act.img_imgDone, Act.img, Act.run_units]
  dsimp only
  rw [Store.getD_setD, if_pos rfl]
  exact List.all_eq_true.2 fun u hu => contains_append_filter hu

/-- R583: IMAGE_CLOSE. -/
theorem completes_imageClose (hcmd : s.cmdAt index (fun o => o == 0x0403) = some c) (hslot : slot.toNat < s.libSlots)
    (hloading : s.lib slot.toNat Lib.STATE = 1)
    (hcomplete : (blockUnits 0 (s.lib slot.toNat Lib.LENGTH)).all
      ((s.u.img.maps.getD slot.toNat []).contains ·) = true)
    (hhash : Crypto.sha256 (natBytes (s.bytes (s.libSlot slot.toNat + 64) (s.lib slot.toNat Lib.LENGTH))) =
      natBytes (s.bytes (s.libSlot slot.toNat + 12) 32)) :
    Completes (.imageClose index slot) s fun t =>
      Finished c s t ∧ (s.bit BT_STATUS_RUNNING = true → t.le (s.cplAddr + 10) 2 = 0) := by
  refine ⟨_, rfl, ?_⟩
  rw [Act.run_slotCmd hcmd hslot]
  dsimp only
  rw [hloading, if_neg (by decide), if_neg (by simpa using hcomplete), hhash, if_neg (by simp)]
  exact Act.Answers.run (.after .regionWrite (.imgDone hown)) s

/-- R583, R584: IMAGE_DELETE. -/
theorem completes_imageDelete (hcmd : s.cmdAt index (fun o => o == 0x0404) = some c) (hslot : slot.toNat < s.libSlots)
    (hunused : s.lib slot.toNat Lib.USERS = 0) :
    Completes (.imageDelete index slot) s fun t =>
      (Finished c s t ∧ (s.bit BT_STATUS_RUNNING = true → t.le (s.cplAddr + 10) 2 = 0)) ∧
      t.u.img.maps.getD slot.toNat [] = [] := by
  refine ⟨_, rfl, ?_⟩
  rw [Act.run_slotCmd hcmd hslot]
  dsimp only
  rw [hunused, if_neg (Nat.lt_irrefl 0)]
  refine ⟨Act.Answers.run (.after .regionWrite (.after .img (.last (.imgDone hown)))) s, ?_⟩
  rw [Act.run_all_cons, Act.run_all_cons, Act.run_all_cons, Act.run_all_nil, Act.img_imgDone, Act.img, Act.run_units]
  dsimp only
  rw [Store.getD_setD, if_pos rfl]

end

/-- Settles O38: each command's checks pass, its work leaves the rings alone, and its completion says OK. -/
theorem imageLibrary : Obligations.ImageLibrary := by
  unfold Obligations.ImageLibrary
  refine ⟨fun s index c slot _ blockSize length _ _ hcmd hown hslot hfree h64 h896 hmult hpos hlen hblocks => ?_,
    fun s index c slot _ _ _ hcmd hown hslot hloading hrange hcrc => ?_,
    fun s index c slot hcmd hown hslot hloading hcomplete hhash =>
      completes_imageClose hown hcmd hslot hloading hcomplete hhash,
    fun s index c slot hcmd hown hslot hunused => ?_⟩
  · obtain ⟨t, ht, ⟨hfinished, hok⟩, hmarks⟩ := completes_imageOpen (blockSize := blockSize) (length := length) hown hcmd hslot hfree
      (by omega)
    exact ⟨t, ht, hfinished, hok, hmarks⟩
  · obtain ⟨t, ht, ⟨hfinished, hok⟩, hmarks⟩ := completes_imagePut hown hcmd hslot hloading hrange hcrc
    exact ⟨t, ht, hfinished, hok, hmarks⟩
  · obtain ⟨t, ht, ⟨hfinished, hok⟩, hmarks⟩ := completes_imageDelete hown hcmd hslot hunused
    exact ⟨t, ht, hfinished, hok, hmarks⟩

end Sys2Proof.Machine

namespace Sys2Proof.Machine

set_option Elab.async false

open Sys2Proof Sys2Proof.Reg

/-! ### What a campaign keeps beside its record (R584–R594) -/

/-- A campaign's own state stands in the image unit. -/
theorem State.run_congr {s t : State} (h : t.u.img = s.u.img) (r : Nat) : t.run r = s.run r := by
  rw [State.run, h, State.run]

theorem State.run_setD {s : State} {r : Nat} {x : Run} (h : s.u.img.runs = (Store.setD runs r Run.idle x)) :
    s.run r = x := by
  rw [State.run, h, Store.getD_setD, if_pos rfl]

@[simp] theorem Act.run_runSet (r : Nat) (f : Run → Run) (s : State) : ((runSet r f).run s).run r = f (s.run r) :=
  State.run_setD rfl

theorem mem_nodup {l : List Nat} {x : Nat} : x ∈ nodup l ↔ x ∈ l := by
  have hfold (acc : List Nat) :
      x ∈ l.foldl (fun acc x => if acc.contains x then acc else acc ++ [x]) acc ↔ x ∈ acc ∨ x ∈ l := by
    induction l generalizing acc with
    | nil => simp
    | cons y l ih =>
      rw [List.foldl_cons, ih, List.mem_cons]
      by_cases hy : y ∈ acc
      · rw [if_pos (List.contains_iff_mem.2 hy)]
        constructor
        · rintro (h | h)
          · exact .inl h
          · exact .inr (.inr h)
        · rintro (h | rfl | h)
          · exact .inl h
          · exact .inl hy
          · exact .inr h
      · rw [if_neg (fun h => hy (List.contains_iff_mem.1 h)), List.mem_append, List.mem_singleton, or_assoc]
  rw [nodup, hfold]
  simp

theorem Act.Stores.campNode {n st reason : Nat} : Stores (.quiet [] [.pair]) (Act.campNode n st reason) := recUpdate

theorem Act.Stores.runSet {r : Nat} {f : Run → Run} : Stores (.quiet [] [.img]) (Act.runSet r f) := img

theorem Act.Stores.campEnd {r st : Nat} : Stores (.events [] [.pair, .img]) (Act.campEnd r st) :=
  read fun _ => all ⟨sub campPut, sub campPut, sub libPut, units, raise⟩

theorem Act.Stores.campFinish {r : Nat} : Stores (.events [] [.pair, .img]) (Act.campFinish r) :=
  read fun _ => when campEnd

/-- A campaign that has ended keeps nothing, and its frames are to be dropped (R594). -/
def CampEnded (r : Nat) (s t : State) : Prop :=
  t.run r = Run.idle ∧ t.u.img.dropping = s.u.img.dropping ++ (s.run r).flights

/-- R594: the end of a campaign. -/
theorem Act.ended_campEnd (r st : Nat) (s : State) : CampEnded r s ((campEnd r st).run s) := by
  rw [campEnd, run_read]
  dsimp only
  rw [run_all_cons, run_all_cons, run_all_cons, run_all_cons]
  obtain ⟨q, hq, himg⟩ : ∃ q, ((libPut (s.camp r Camp.SLOT) Lib.USERS (s.lib (s.camp r Camp.SLOT) Lib.USERS - 1)).run
      ((campPut r Camp.END_BEAT (s.workBeat % 2 ^ 32)).run ((campPut r Camp.STATE st).run s))) = q ∧
      q.u.img = s.u.img := ⟨_, rfl, by
    rw [← Act.Stores.libPut.unit .img, ← Act.Stores.campPut.unit .img, ← Act.Stores.campPut.unit .img]⟩
  have hraise {src : Nat} {record : List Byte} {t : State} :
      ((all [raise src record]).run t).u.img = t.u.img :=
    ((Within.raise (R := .events [] [])).unit .img t).symm
  rw [hq]
  constructor
  · exact State.run_setD (runs := q.u.img.runs) (congrArg Img.runs hraise)
  · rw [hraise, ← himg]
    rfl

/-- Work that leaves the image unit, before a campaign ends. -/
theorem CampEnded.of_eq {r : Nat} {s q t : State} (h : CampEnded r q t) (himg : q.u.img = s.u.img) :
    CampEnded r s t := by
  rw [CampEnded, ← State.run_congr himg, ← himg]
  exact h

/-- R594: the end that a campaign reaches by itself leaves nothing of it, and otherwise changes nothing. -/
theorem Act.run_campFinish (r : Nat) (s : State) :
    (campFinish r).run s = s ∨ ((campFinish r).run s).run r = Run.idle := by
  rw [campFinish, run_read, run_when]
  split
  · exact .inr (ended_campEnd r 5 s).1
  · exact .inl rfl

/-! ### The commands of campaigns (R587, R589, R594) -/

section

variable {s : State} {index : Fin 4096} {c : HostCmd} (hown : c.mirrored = false)
include hown

/-- R587: CAMPAIGN_CREATE. -/
theorem completes_campaignCreate {slot : BitVec 8} {flags : BitVec 3} {p : CampParams} {r : Nat}
    (hcmd : s.cmdAt index (fun o => o == 0x0410) = some c) (hslot : slot.toNat < s.libSlots)
    (hready : s.lib slot.toNat Lib.STATE = 2) (hparams : campParamsOk p = true)
    (hrecord : ((List.range 16).find? fun q => s.camp q Camp.NUMBER == 0) = some r) :
    Completes (.campaignCreate index slot flags p) s fun t =>
      (Finished c s t ∧ (s.bit BT_STATUS_RUNNING = true → t.le (s.cplAddr + 10) 2 = 0)) ∧
      t.u.img.last = s.campNumber ∧ t.run r = Run.idle := by
  refine ⟨_, rfl, ?_⟩
  rw [Act.run_slotCmd hcmd hslot]
  dsimp only
  rw [hready, if_neg (by decide), hparams, if_neg (by decide), hrecord]
  dsimp only
  refine ⟨Act.Answers.run (.after .regionWrite (.after .libPut (.after .img (.last (.complete hown))))) s, ?_⟩
  rw [Act.run_all_cons, Act.run_all_cons, Act.run_all_cons]
  have himg (t : State) : ((Act.all [Act.complete c stOk (.val s.campNumber)]).run t).u.img = t.u.img :=
    (Act.Stores.complete.unit .img t).symm
  exact ⟨congrArg Img.last (himg _), State.run_setD (congrArg Img.runs (himg _))⟩

/-- R587: CAMPAIGN_TARGET. -/
theorem completes_campaignTarget {number : BitVec 16} {r : Nat} {add : Bool} {nodes : List (BitVec 24)}
    (hcmd : s.cmdAt index (fun o => o == 0x0411) = some c) (hlib : s.libSlots ≠ 0)
    (hcamp : s.campOf number.toNat = some r) (hstate : s.camp r Camp.STATE = 0) (hsome : 0 < nodes.length)
    (hfew : nodes.length ≤ 10) :
    Completes (.campaignTarget index number add nodes) s fun t =>
      (Finished c s t ∧ (s.bit BT_STATUS_RUNNING = true → t.le (s.cplAddr + 10) 2 = 0)) ∧
      ∀ n ∈ nodes, (t.run r).named.contains n.toNat = add ∧ (t.run r).removed.contains n.toNat = !add := by
  refine ⟨_, rfl, ?_⟩
  have hrange : ¬((nodes.map BitVec.toNat).isEmpty = true ∨ 10 < (nodes.map BitVec.toNat).length) := by
    rw [List.length_map, List.isEmpty_iff_length_eq_zero, List.length_map]
    omega
  rw [Act.run_campCmd hcmd hlib hcamp (by rw [hstate]; rfl)]
  dsimp only
  rw [if_neg hrange]
  refine ⟨Act.Answers.run (.after .runSet (.imgDone hown)) s, fun n hn => ?_⟩
  have hin : ∃ a ∈ nodes, a.toNat = n.toNat := ⟨n, hn, rfl⟩
  rw [Act.run_seq, State.run_congr (Act.img_imgDone ..), Act.run_runSet]
  cases add
  · exact ⟨by simp [hin], by simp [mem_nodup, hin]⟩
  · exact ⟨by simp [mem_nodup, hin], by simp [hin]⟩

section

variable {number : BitVec 16} {r : Nat} (hlib : s.libSlots ≠ 0) (hcamp : s.campOf number.toNat = some r)
include hlib hcamp

/-- R589: CAMPAIGN_START. -/
theorem completes_campaignStart (hcmd : s.cmdAt index (fun o => o == 0x0412) = some c)
    (hstate : s.camp r Camp.STATE = 0) :
    Completes (.campaignStart index number) s fun t =>
      (Finished c s t ∧ (s.bit BT_STATUS_RUNNING = true → t.le (s.cplAddr + 10) 2 = 0)) ∧
      (t.run r).walk = some 0 ∧ (t.run r).lastProgress = s.workBeat := by
  refine ⟨_, rfl, ?_⟩
  rw [Act.run_campCmd hcmd hlib hcamp (by rw [hstate]; rfl)]
  refine ⟨Act.Answers.run (.after .campPut (.after .campPut (.after .runSet (.last (.imgDone hown))))) s, ?_⟩
  rw [Act.run_all_cons, Act.run_all_cons, Act.run_all_cons, Act.run_all_cons, Act.run_all_nil,
    State.run_congr (Act.img_imgDone ..), Act.run_runSet]
  exact ⟨rfl, rfl⟩

/-- R587: CAMPAIGN_PAUSE. -/
theorem completes_campaignPause (hcmd : s.cmdAt index (fun o => o == 0x0413) = some c)
    (hlow : 1 ≤ s.camp r Camp.STATE) (hhigh : s.camp r Camp.STATE ≤ 3) :
    Completes (.campaignPause index number) s fun t =>
      (Finished c s t ∧ (s.bit BT_STATUS_RUNNING = true → t.le (s.cplAddr + 10) 2 = 0)) ∧
      (t.run r).paused = s.camp r Camp.STATE := by
  refine ⟨_, rfl, ?_⟩
  rw [Act.run_campCmd hcmd hlib hcamp (by simp [hlow, hhigh])]
  refine ⟨Act.Answers.run (.after .campPut (.after .campPut (.after .runSet (.last (.imgDone hown))))) s, ?_⟩
  rw [Act.run_all_cons, Act.run_all_cons, Act.run_all_cons, Act.run_all_cons, Act.run_all_nil,
    State.run_congr (Act.img_imgDone ..), Act.run_runSet]

/-- R587: CAMPAIGN_PAUSE with RESUME. -/
theorem completes_campaignResume (hcmd : s.cmdAt index (fun o => o == 0x0413) = some c)
    (hstate : s.camp r Camp.STATE = 4) :
    Completes (.campaignResume index number) s fun t =>
      (Finished c s t ∧ (s.bit BT_STATUS_RUNNING = true → t.le (s.cplAddr + 10) 2 = 0)) ∧ t.u.img = s.u.img := by
  refine ⟨_, rfl, ?_⟩
  rw [Act.run_campCmd hcmd hlib hcamp (by rw [hstate]; rfl)]
  refine ⟨Act.Answers.run (.after .campPut (.after .campPut (.last (.imgDone hown)))) s, ?_⟩
  rw [Act.run_all_cons, Act.run_all_cons, Act.run_all_cons, Act.run_all_nil, Act.img_imgDone,
    ← Act.Stores.campPut.unit .img, ← Act.Stores.campPut.unit .img]

/-- R594: CAMPAIGN_CANCEL. -/
theorem completes_campaignCancel (hcmd : s.cmdAt index (fun o => o == 0x0414) = some c)
    (hstate : s.camp r Camp.STATE ≤ 4) :
    Completes (.campaignCancel index number) s fun t =>
      (Finished c s t ∧ (s.bit BT_STATUS_RUNNING = true → t.le (s.cplAddr + 10) 2 = 0)) ∧ CampEnded r s t := by
  refine ⟨_, rfl, ?_⟩
  have hnodes : Act.Stores (.quiet [] [.pair]) (Act.each (s.campNodes r campOpen) fun n => Act.campNode n 0 0) :=
    .each fun _ => .campNode
  rw [Act.run_campCmd hcmd hlib hcamp (by simp [hstate])]
  refine ⟨Act.Answers.run (.after hnodes (.after .campEnd (.last (.imgDone hown)))) s, ?_⟩
  rw [Act.run_all_cons, Act.run_all_cons, Act.run_all_cons, Act.run_all_nil]
  obtain ⟨hidle, hdropping⟩ := (Act.ended_campEnd r 6 _).of_eq (hnodes.unit .img s).symm
  exact ⟨(State.run_congr (Act.img_imgDone ..) r).trans hidle,
    (congrArg Img.dropping (Act.img_imgDone ..)).trans hdropping⟩

/-- R587: CAMPAIGN_CLEAR. -/
theorem completes_campaignClear (hcmd : s.cmdAt index (fun o => o == 0x0416) = some c)
    (hlow : 5 ≤ s.camp r Camp.STATE) (hhigh : s.camp r Camp.STATE ≤ 7) :
    Completes (.campaignClear index number) s fun t =>
      (Finished c s t ∧ (s.bit BT_STATUS_RUNNING = true → t.le (s.cplAddr + 10) 2 = 0)) ∧ t.u.img = s.u.img := by
  refine ⟨_, rfl, ?_⟩
  rw [Act.run_campCmd hcmd hlib hcamp (by simp [hlow, hhigh])]
  refine ⟨Act.Answers.run (.after .regionWrite (.imgDone hown)) s, ?_⟩
  rw [Act.run_seq, Act.img_imgDone, ← Act.Stores.regionWrite.unit .img]

end

/-- R587: CAMPAIGN_QUERY completes with the table's address. -/
theorem completes_campaignQuery (hcmd : s.cmdAt index (fun o => o == 0x0415) = some c) (hlib : s.libSlots ≠ 0) :
    Completes (.campaignQuery index) s fun t =>
      Finished c s t ∧ (s.bit BT_STATUS_RUNNING = true →
        t.le (s.cplAddr + 10) 2 = 0 ∧ t.le (s.cplAddr + 16) 8 = s.campTable) := by
  refine ⟨_, rfl, ?_⟩
  have htable : s.campTable % 2 ^ 64 = s.campTable := by
    have hbase : s.fld ⟨ENV_REGr_BASE 5, 0, 12⟩ < 2 ^ 12 := s.fld_lt _
    refine Nat.mod_eq_of_lt ?_
    rw [State.campTable, State.systemBase]
    omega
  rw [Act.run_imgCmd hcmd hlib]
  obtain ⟨hfinished, hposted⟩ := Act.Answers.complete (status := stOk) (v := s.campTable) hown s
  refine ⟨hfinished, fun hrun => ?_⟩
  obtain ⟨hstatus, hvalue⟩ := hposted hrun
  exact ⟨hstatus, hvalue.trans htable⟩

end

/-- Settles O39: each command's checks pass, what it changes of the campaign stands through its completion, and the
completion says OK. -/
theorem campaigns : Obligations.Campaigns := by
  unfold Obligations.Campaigns
  refine ⟨fun _ _ _ _ _ _ _ hcmd hown hslot hready hparams hrecord => ?_,
    fun _ _ _ _ _ _ _ hcmd hown hlib hcamp hstate hsome hfew => ?_,
    fun _ _ _ _ _ hcmd hown hlib hcamp hstate => ?_,
    fun _ _ _ _ _ hcmd hown hlib hcamp hlow hhigh => ?_,
    fun _ _ _ _ _ hcmd hown hlib hcamp hstate => ?_,
    fun _ _ _ _ _ hcmd hown hlib hcamp hstate => ?_,
    fun _ _ _ hcmd hown hlib => completes_campaignQuery hown hcmd hlib,
    fun _ _ _ _ _ hcmd hown hlib hcamp hlow hhigh => ?_⟩
  · obtain ⟨t, ht, ⟨hfinished, hok⟩, hchange⟩ := completes_campaignCreate hown hcmd hslot hready hparams hrecord
    exact ⟨t, ht, hfinished, hok, hchange⟩
  · obtain ⟨t, ht, ⟨hfinished, hok⟩, hchange⟩ := completes_campaignTarget hown hcmd hlib hcamp hstate hsome hfew
    exact ⟨t, ht, hfinished, hok, hchange⟩
  · obtain ⟨t, ht, ⟨hfinished, hok⟩, hchange⟩ := completes_campaignStart hown hlib hcamp hcmd hstate
    exact ⟨t, ht, hfinished, hok, hchange⟩
  · obtain ⟨t, ht, ⟨hfinished, hok⟩, hchange⟩ := completes_campaignPause hown hlib hcamp hcmd hlow hhigh
    exact ⟨t, ht, hfinished, hok, hchange⟩
  · obtain ⟨t, ht, ⟨hfinished, hok⟩, hchange⟩ := completes_campaignResume hown hlib hcamp hcmd hstate
    exact ⟨t, ht, hfinished, hok, hchange⟩
  · obtain ⟨t, ht, ⟨hfinished, hok⟩, hchange⟩ := completes_campaignCancel hown hlib hcamp hcmd hstate
    exact ⟨t, ht, hfinished, hok, hchange⟩
  · obtain ⟨t, ht, ⟨hfinished, hok⟩, hchange⟩ := completes_campaignClear hown hlib hcamp hcmd hlow hhigh
    exact ⟨t, ht, hfinished, hok, hchange⟩

end Sys2Proof.Machine

namespace Sys2Proof.Machine

set_option Elab.async false

open Sys2Proof Sys2Proof.Reg

/-! ### What campaigns do by themselves (R590–R594) -/

theorem Act.img_raise (src : Nat) (record : List Byte) (s : State) : ((raise src record).run s).u.img = s.u.img :=
  ((Within.raise (R := .events [] [])).unit .img s).symm

/-- R590: a failed manifest goes out again. -/
theorem completes_enrolRetryExpiry {s : State} {record : Fin 16} {node : BitVec 24} {x : Nat × Nat}
    (hlive : s.campLive record.val = true)
    (hfind : ((s.run record.val).waiting.find? fun w => w.1 == node.toNat) = some x)
    (hdue : s.camp record.val Camp.REPORT_WAIT_S ≤ s.secondsSince x.2) :
    Completes (.enrolRetryExpiry record node) s fun t =>
      t = { s with u := t.u } ∧ (t.run record.val).waiting = (s.run record.val).waiting.erase x := by
  refine ⟨_, rfl, ?_⟩
  dsimp only
  rw [hfind]
  dsimp only
  rw [hlive, Nat.ble_eq_true_of_le hdue, Act.run_when, if_pos (by rfl)]
  exact ⟨rfl, congrArg Run.waiting (Act.run_runSet ..)⟩

section

variable {l : List CampReport}

/-- The reports that wait are those of a list. -/
def State.Reports (l : List CampReport) : State → Prop := State.Part (fun u => u.img.reports) l

theorem Act.Keeps.reportsRunSet {r : Nat} {f : Run → Run} : Keeps (State.Reports l) (runSet r f) := .partUnits

theorem Act.Keeps.reportsCampCount {r : Nat} {f : RecField} {n : Nat} : Keeps (State.Reports l) (campCount r f n) :=
  .partStores .campCount

theorem Act.Keeps.reportsRecUpdate {n : Nat} {fields : List (RecField × Nat)} :
    Keeps (State.Reports l) (recUpdate n fields) := .partStores .recUpdate

theorem Act.Keeps.reportsCampFail {r n reason : Nat} : Keeps (State.Reports l) (campFail r n reason) :=
  .partStores .campFail

/-- R594: the end of a campaign leaves the reports that wait. -/
theorem Act.Keeps.reportsCampFinish {r : Nat} : Keeps (State.Reports l) (campFinish r) :=
  .read fun _ => .when <| .read fun _ =>
    .all ⟨.partStores .campPut, .partStores .campPut, .partStores .libPut, .partUnits,
      .partWithin (.raise (R := .events [] []))⟩

/-- R592: a report that is applied leaves those that wait. -/
theorem Act.Keeps.reportsReportApply {r n : Nat} {x : CampReport} : Keeps (State.Reports l) (reportApply r n x) := by
  refine .read fun s => ?_
  dsimp only
  split
  · exact .seq reportsRecUpdate reportsRunSet
  · exact .seq reportsRecUpdate (.when reportsCampCount)
  · exact .ite (.seq reportsRecUpdate reportsCampFail) (.seq reportsRecUpdate reportsRunSet)
  · exact .ite (.all ⟨reportsRecUpdate, reportsRecUpdate, reportsCampCount⟩) reportsCampFail
  · exact reportsCampFail
  · exact .nop

end

/-- R592: the oldest report leaves its queue. -/
theorem completes_campaignReport {s : State} {x : CampReport} {rest : List CampReport}
    (hreports : s.u.img.reports = x :: rest) :
    Completes .campaignReport s fun t => t.u.img.reports = rest := by
  refine ⟨_, rfl, ?_⟩
  rw [hreports]
  dsimp only
  rw [Act.run_seq]
  refine State.Part.run (part := fun u => u.img.reports) rfl ?_
  split
  · exact .ite (.all (l := [_, _, _]) ⟨.reportsCampCount, .when .reportsReportApply, .reportsCampFinish⟩)
      .reportsCampCount
  · exact .reportsCampCount
  · exact .reportsCampCount
  · exact .nop

/-- R594: the end a campaign may reach leaves what it kept as it stands, or nothing of it. -/
theorem Act.kept_campFinish {α : Type} {f : Run → α} {v : α} {r : Nat} {s : State} (h : f (s.run r) = v) :
    f (((campFinish r).run s).run r) = v ∨ ((campFinish r).run s).run r = Run.idle := by
  rcases run_campFinish r s with heq | hidle
  · exact .inl (by rw [heq, h])
  · exact .inr hidle

/-- R593: a pass sets the time of the next, unless the campaign ends with it. -/
theorem Act.lastPass_repairPass (r : Nat) (s : State) :
    (((repairPass r).run s).run r).lastPass = s.workBeat ∨ ((repairPass r).run s).run r = Run.idle := by
  rw [repairPass, run_read]
  dsimp only
  rw [run_all_cons, run_all_cons, run_all_cons, run_all_cons, run_all_nil]
  exact kept_campFinish (f := Run.lastPass) (congrArg Run.lastPass (run_runSet ..))

/-- R593: REPORT_WAIT_S after the last pass comes the next. -/
theorem completes_repairPass {s : State} {record : Fin 16} (hlive : s.campLive record.val = true)
    (hstate : s.camp record.val Camp.STATE = 3)
    (hdue : s.camp record.val Camp.REPORT_WAIT_S ≤ s.secondsSince (s.run record.val).lastPass) :
    Completes (.repairPass record) s fun t =>
      (t.run record.val).lastPass = s.workBeat ∨ t.run record.val = Run.idle := by
  refine ⟨_, rfl, ?_⟩
  dsimp only
  rw [hlive, hstate, Nat.ble_eq_true_of_le hdue, Act.run_when, if_pos (by rfl)]
  exact Act.lastPass_repairPass ..

/-- R594: at its deadline a campaign ends. -/
theorem completes_campaignDeadline {s : State} {record : Fin 16} (hlive : s.campLive record.val = true)
    (hstate : 1 ≤ s.camp record.val Camp.STATE)
    (hdue : 1000 * s.camp record.val Camp.DEADLINE_S ≤
      (s.workBeat + 2 ^ 32 - s.camp record.val Camp.START_BEAT) % 2 ^ 32) :
    Completes (.campaignDeadline record) s (CampEnded record.val s) := by
  refine ⟨_, rfl, ?_⟩
  dsimp only
  rw [hlive, Nat.ble_eq_true_of_le hstate, Nat.ble_eq_true_of_le hdue, Act.run_when, if_pos (by rfl), Act.run_seq]
  refine (Act.ended_campEnd record.val 7 _).of_eq ?_
  exact ((Act.Stores.each fun n => Act.Stores.campFail).unit .img s).symm

/-- R594: a progress period that ends begins the next, unless the campaign ends with it. -/
theorem completes_campaignProgressExpiry {s : State} {record : Fin 16} (hlive : s.campLive record.val = true)
    (hstate : 1 ≤ s.camp record.val Camp.STATE) (hperiod : 0 < s.camp record.val Camp.PROGRESS_S)
    (hdue : s.camp record.val Camp.PROGRESS_S ≤ s.secondsSince (s.run record.val).lastProgress) :
    Completes (.campaignProgressExpiry record) s fun t =>
      (t.run record.val).lastProgress = s.workBeat ∨ t.run record.val = Run.idle := by
  refine ⟨_, rfl, ?_⟩
  dsimp only
  rw [hlive, Nat.ble_eq_true_of_le hstate, Nat.ble_eq_true_of_le hdue, show Nat.blt 0 _ = true from
    Nat.ble_eq_true_of_le hperiod, Act.run_when, if_pos (by rfl)]
  rw [Act.run_all_cons, Act.run_all_cons, Act.run_all_cons, Act.run_all_nil]
  refine Act.kept_campFinish (f := Run.lastProgress) ?_
  rw [State.run_congr (Act.img_raise ..), Act.run_runSet]

/-- Settles O40: each timer of a campaign acts on what the campaign keeps, and a campaign that ends keeps nothing. -/
theorem campaignTimers : Obligations.CampaignTimers :=
  ⟨fun _ _ _ _ => completes_enrolRetryExpiry, fun _ _ _ => completes_campaignReport, fun _ _ => completes_repairPass,
    fun _ _ => completes_campaignDeadline, fun _ _ => completes_campaignProgressExpiry⟩

end Sys2Proof.Machine

namespace Sys2Proof.Machine

set_option Elab.async false

open Sys2Proof Sys2Proof.Reg

theorem not_ble_eq_blt (m n : Nat) : (!Nat.ble m n) = Nat.blt n m := by
  rw [Bool.eq_iff_iff, Bool.not_eq_true', ← Bool.not_eq_true, Nat.ble_eq, Nat.blt_eq, Nat.not_le]

/-! ### The upkeep of the bridge table (R454, R467) -/

/-- R454: what a flush leaves in the bridge's table. -/
def State.BridgeKeeps (kept : BrEntry → Bool) : State → Prop :=
  State.Part (fun u => u.eth.bridge.all fun e => match e.2 with
    | none => false
    | some b => b.static || kept b) true

theorem Act.bridgeKeeps_brFlush {gone kept : BrEntry → Bool} (h : ∀ b, (!gone b) = kept b) (s : State) :
    State.BridgeKeeps kept ((brFlush gone).run s) := by
  rw [brFlush, run_seq, run_read]
  refine State.Part.run ?_ .partSetF
  refine List.all_eq_true.2 fun e he => ?_
  simp only [← h]
  exact (List.mem_filter.1 he).2

/-- R454: the tick of each second. -/
theorem completes_bridgeAgeTick {s : State} (hon : s.mode.portsOn = true) :
    Completes .bridgeAgeTick s fun t =>
      (t.u.eth.bridge.all fun e => match e.2 with
        | none => false
        | some b => b.static || Nat.blt s.u.tk.s (b.seen + (if s.mode.bridgeDefaults then 300 else s.fld ETH_BRIDGE_AGE_S)))
          = true := by
  refine ⟨_, rfl, ?_⟩
  dsimp only
  rw [hon, Act.run_when, if_pos (by rfl)]
  exact Act.bridgeKeeps_brFlush (fun b => not_ble_eq_blt ..) s

/-- R467: an accepted flush. -/
theorem completes_ethBrFlush {s : State} {iface : HostIface} {value : BitVec 32} (hreach : s.reaches iface = true)
    (hpermit : s.permits ETH_BR_CMD = true) (hidle : s.bit ETH_BR_STAT_BUSY = false) (hflush : fieldOf value 0 1 = 1)
    (hport : fieldOf value 1 2 < 3) :
    Completes (.ethBrFlush iface value) s fun t =>
      t.bit ETH_BR_STAT_BUSY = true ∧ t.u.eth.flush = some (fieldOf value 1 2) := by
  refine ⟨_, rfl, ?_⟩
  have hport' : Nat.blt (fieldOf value 1 2) 3 = true := by simpa using hport
  rw [Act.run_permitted hreach hpermit, Act.brCmdWrite, Act.run_read, hidle, if_neg (by decide), hflush, hport',
    Act.run_when, if_pos (by rfl), Act.run_seq]
  exact ⟨(State.FldIs.run (fldIs_setB ETH_BR_STAT_BUSY true s rfl) .fldUnits).bit, rfl⟩

/-- R467: the end of a flush. -/
theorem completes_ethBrFlushDone {s : State} {k : Nat} (hflush : s.u.eth.flush = some k) :
    Completes .ethBrFlushDone s fun t =>
      t.bit ETH_BR_STAT_BUSY = false ∧ t.u.eth.flush = none ∧ (t.u.eth.bridge.all fun e => match e.2 with
        | none => false
        | some b => b.static || (!(k == 0) && !(b.port + 1 == k))) = true := by
  refine ⟨_, rfl, ?_⟩
  rw [hflush]
  dsimp only
  rw [Act.run_all_cons, Act.run_all_cons, Act.run_all_cons, Act.run_all_nil]
  refine ⟨(State.FldIs.run (fldIs_setB ETH_BR_STAT_BUSY false _ rfl) .fldUnits).bit, rfl, ?_⟩
  exact State.Part.run (State.Part.run (Act.bridgeKeeps_brFlush (fun b => Bool.not_or ..) s) .partSetB) .partUnits

/-- Settles O33: a flush filters the table by what is gone, and its command is busy until it ends. -/
theorem bridgeUpkeep : Obligations.BridgeUpkeep :=
  ⟨fun _ => completes_bridgeAgeTick, fun _ _ _ => completes_ethBrFlush, fun _ _ => completes_ethBrFlushDone⟩

end Sys2Proof.Machine

namespace Sys2Proof.Machine

set_option Elab.async false

open Sys2Proof Sys2Proof.Reg

/-- What one action of a sequence brings about, where those behind it keep it. -/
theorem Act.run_all_set {P : State → Prop} {a : Act} (l m : List Act) (ha : ∀ s, P (a.run s)) (hm : Keeps P (Act.all m))
    (s : State) : P ((Act.all (l ++ a :: m)).run s) := by
  induction l generalizing s with
  | nil => rw [List.nil_append, run_all_cons]; exact hm _ (ha s)
  | cons b l ih => rw [List.cons_append, run_all_cons]; exact ih _

/-! ### A part of a backhaul port's unit that programs keep -/

/-- A part of a port's unit has a value. -/
def State.Port {α : Type} (p : EthPort) (g : EthUnit → α) (x : α) : State → Prop :=
  State.Part (fun u => g (u.eth.port p.idx)) x

theorem State.Port.run {α : Type} {p : EthPort} {g : EthUnit → α} {x : α} {s : State} {a : Act}
    (h : State.Port p g x s) (ha : Act.Keeps (State.Port p g x) a) : State.Port p g x (a.run s) := ha s h

@[simp] theorem EthPort.ofIdx_idx (p : EthPort) : EthPort.ofIdx p.idx = p := by cases p <;> rfl

namespace Act.Keeps

section

variable {α : Type} {p : EthPort} {g : EthUnit → α} {x : α}

theorem portEthUnit {q : Nat} {f : EthUnit → EthUnit} (h : ∀ u, g (f u) = g u := by exact fun _ => rfl) :
    Keeps (State.Port p g x) (Act.ethUnit q f) := partUnits fun u => by
  cases p <;> dsimp only <;> split <;> first | exact h _ | rfl

/-- R463: what is apart from the PAUSE condition and the PAUSE frame that waits. -/
theorem portPauseEval {q : Nat} (hheld : ∀ u b, g { u with ptHeld := b } = g u := by exact fun _ _ => rfl)
    (hnext : ∀ u n, g { u with pauseNext := n } = g u := by exact fun _ _ => rfl) :
    Keeps (State.Port p g x) (Act.pauseEval q) :=
  read fun _ => all ⟨when <| portEthUnit fun _ => hheld .., when <| all ⟨partSetB, portEthUnit fun _ => hnext ..,
    when <| partWithin (R := .events [] []) .raiseOnce⟩⟩

/-- R302: a packet is released beside what the port sends. -/
theorem portReleasePacket {n start : Nat} (hheld : ∀ u b, g { u with ptHeld := b } = g u := by exact fun _ _ => rfl)
    (hnext : ∀ u n, g { u with pauseNext := n } = g u := by exact fun _ _ => rfl) :
    Keeps (State.Port p g x) (Act.releasePacket n start) := by
  have queue {f : Queue → Queue} : Keeps (State.Port p g x) (Act.queue n f) := partUnits
  have follow : Keeps (State.Port p g x) Act.fcFollow :=
    all ⟨read fun _ => partSetF, partWithin .fcPins, portPauseEval hheld hnext, portPauseEval hheld hnext⟩
  refine read fun _ => ?_
  split
  · exact nop
  · exact seq queue <| all ⟨queue, partStores .queueLog, all ⟨queue, partStores .pagesFollow, follow⟩⟩

end

/-- R463: a field of ETH_STATUS apart from PAUSING. -/
theorem fldPauseEval {q n : Nat} {g : Field} (h : ∀ p, Field.apart (ETH_STATUS_Pp_PAUSING p) g = true)
    (hreg : g.reg = ETH_STATUS) (hg : Nat.ble g.lo 32 = true) : Keeps (State.FldIs g n) (Act.pauseEval q) :=
  read fun _ => all ⟨when fldUnits, when <| all ⟨fldApartB (h _) (by cases EthPort.ofIdx q <;> rfl) hg, fldUnits,
    when <| fld (R := .events [] []) .raiseOnce (by rw [hreg]; rfl)⟩⟩

end Act.Keeps

/-- What an update of a port's unit sets. -/
theorem Act.port_ethUnit_set {α : Type} {p : EthPort} {g : EthUnit → α} {x : α} {f : EthUnit → EthUnit}
    (h : ∀ u, g (f u) = x := by exact fun _ => rfl) (s : State) : State.Port p g x ((Act.ethUnit p.idx f).run s) :=
  (congrArg g (Act.port_ethUnit p f s)).trans (h _)

/-! ### Links (R446, R447) -/

section

variable {s : State} {port : EthPort}

/-- R446: an unlocked port tries the other mode. -/
theorem completes_ethAutodetectSwitch (hon : s.mode.portsOn = true) (hauto : s.lineMode port.idx = 3)
    (hdown : s.bit (ETH_STATUS_Pp_UP port) = false) :
    Completes (.ethAutodetectSwitch port) s fun t =>
      (t.u.eth.port port.idx).trying = (if (s.u.eth.port port.idx).trying = 2 then 1 else 2) := by
  refine ⟨_, rfl, ?_⟩
  have hdue : (s.mode.portsOn && s.lineMode port.idx == 3 && !s.bit (ETH_STATUS_Pp_UP port)) = true := by
    rw [hon, hauto, hdown]; rfl
  rw [Act.run_when, if_pos hdue]
  exact congrArg EthUnit.trying (Act.port_ethUnit ..)

/-- R447: a link comes up. -/
theorem completes_ethLinkUp {ten rxPause : Bool} (hon : s.mode.portsOn = true)
    (hdown : s.bit (ETH_STATUS_Pp_UP port) = false)
    (hmode : s.lineMode port.idx = 3 ∨ s.lineMode port.idx = (if ten then 2 else 1)) :
    Completes (.ethLinkUp port ten rxPause) s fun t =>
      t.bit (ETH_STATUS_Pp_UP port) = true ∧ t.fld (ETH_STATUS_Pp_MODE port) = (if ten then 2 else 1) ∧
      (t.u.eth.port port.idx).trying = 0 := by
  refine ⟨_, rfl, ?_⟩
  have hline : (s.lineMode port.idx == 3 || s.lineMode port.idx == if ten then 2 else 1) = true := by simpa using hmode
  dsimp only
  rw [hon, hdown, hline, Act.run_when, if_pos (by rfl), Act.run_all_cons]
  refine ⟨?_, ?_, ?_⟩
  · have hup := fldIs_setB (ETH_STATUS_Pp_UP port) true s rfl (by cases port <;> rfl)
    refine (State.FldIs.run hup (.all (l := [_, _, _, _]) ⟨?_, .fldUnits, ?_, ?_⟩)).bit
    · exact .fldApart (by cases port <;> rfl) (by cases port <;> rfl) (by cases port <;> rfl)
    · exact .fld (R := .events [] []) .raise rfl
    · exact .fldPauseEval (by cases port <;> intro p <;> cases p <;> rfl) rfl (by cases port <;> rfl)
  · rw [Act.run_all_cons]
    refine State.FldIs.run (Act.fldIs_setF _ _ _ rfl (by cases ten <;> simp [ETH_STATUS_Pp_MODE]) (by cases port <;> rfl))
      (.all (l := [_, _, _]) ⟨.fldUnits, ?_, ?_⟩)
    · exact .fld (R := .events [] []) .raise rfl
    · exact .fldPauseEval (by cases port <;> intro p <;> cases p <;> rfl) rfl (by cases port <;> rfl)
  · rw [Act.run_all_cons, Act.run_all_cons]
    exact State.Port.run (g := EthUnit.trying) (congrArg EthUnit.trying (Act.port_ethUnit ..))
      (.all (l := [_, _]) ⟨.partWithin (R := .events [] []) .raise, .portPauseEval⟩)

/-- R447: what a link that goes down leaves. -/
def LinkIsDown (p : EthPort) (s t : State) : Prop :=
  t.bit (ETH_STATUS_Pp_UP p) = false ∧ State.Port p (fun u => (u.fifo, u.sending)) ([], none) t ∧
    t.reg (ETH_Pp_LINK_DOWN p.idx) = satNext (s.reg (ETH_Pp_LINK_DOWN p.idx))

theorem Act.down_linkDown (hup : s.bit (ETH_STATUS_Pp_UP port) = true) :
    LinkIsDown port s ((Act.linkDown port.idx).run s) := by
  rw [linkDown, run_read]
  dsimp only
  rw [EthPort.ofIdx_idx, hup, run_when, if_pos rfl]
  refine ⟨?_, ?_, ?_⟩
  · refine State.FldIs.bit (n := 0) (run_all_set [] [_, _, _, _, _, _, _, _] (fun s => ?_)
      (.all ⟨?_, ?_, ?_, ?_, ?_, ?_, .fldUnits, ?_⟩) s)
    · exact fldIs_setB _ false s rfl (by cases port <;> rfl)
    · exact .fldApart (by cases port <;> rfl) (by cases port <;> rfl) (by cases port <;> rfl)
    · exact .fldApartB (by cases port <;> rfl) (by cases port <;> rfl) (by cases port <;> rfl)
    · exact .fldSat (by cases port <;> decide)
    · exact .fld (R := .events [] []) .raise rfl
    · exact .fld .brFlush rfl
    · exact .fld .ptDrop rfl
    · exact .fldPauseEval (by cases port <;> intro p <;> cases p <;> rfl) rfl (by cases port <;> rfl)
  · exact run_all_set (P := State.Port port (fun u => (u.fifo, u.sending)) ([], none)) [_, _, _, _, _, _, _] [_]
      (port_ethUnit_set fun _ => rfl) (.all (l := [_]) .portPauseEval) s
  · have hkept : State.RegIs (ETH_Pp_LINK_DOWN port.idx) (s.reg (ETH_Pp_LINK_DOWN port.idx))
        ((Act.all [setB (ETH_STATUS_Pp_UP port) false, setF (ETH_STATUS_Pp_MODE port) 0,
          setB (ETH_STATUS_Pp_PAUSED port) false]).run s) := by
      refine State.RegIs.run rfl (.all ⟨?_, ?_, ?_⟩)
      all_goals exact .regSetF (by cases port <;> decide)
    rw [run_all_cons, run_all_cons, run_all_cons, run_all_cons]
    refine State.RegIs.run ?_ (.all ⟨?_, ?_, ?_, .regUnits, ?_⟩)
    · exact (reg_sat (by cases port <;> rfl) _).trans (congrArg satNext hkept)
    · exact .reg (R := .events [] []) .raise (by cases port <;> rfl)
    · exact .reg .brFlush (by cases port <;> rfl)
    · exact .reg .ptDrop (by cases port <;> rfl)
    · exact .reg .pauseEval (by cases port <;> rfl)

/-- R447: a link goes down, and its pass-through frames with it. -/
theorem completes_ethLinkDown (hup : s.bit (ETH_STATUS_Pp_UP port) = true) :
    Completes (.ethLinkDown port) s fun t =>
      t.bit (ETH_STATUS_Pp_UP port) = false ∧ (t.u.eth.port port.idx).fifo = [] ∧
      (t.u.eth.port port.idx).sending = none ∧
      t.reg (ETH_Pp_LINK_DOWN port.idx) = satNext (s.reg (ETH_Pp_LINK_DOWN port.idx)) := by
  refine ⟨_, rfl, ?_⟩
  rw [Act.linkRestart, Act.run_read]
  obtain ⟨hdown, hsent, hcount⟩ := Act.down_linkDown hup
  have hlost := hsent.run (.portEthUnit (q := port.idx) (f := fun u => { u with trying :=
    if (s.mode.bridgeDefaults || s.fld (ETH_Pp_CFG_MODE port.idx) == 3) = true then 2 else 0 }))
  exact ⟨hdown, congrArg Prod.fst hlost, congrArg Prod.snd hlost, hcount⟩

end

end Sys2Proof.Machine

namespace Sys2Proof.Machine

set_option Elab.async false

open Sys2Proof Sys2Proof.Reg

/-! ### Reception on a backhaul port (R448, R449) -/

/-- Where the tables of headends show what a PLE message teaches them (R264, R268). -/
def netRegs : List (Nat × Nat) := (FWD_TBLn_LOOKUP 0, 4) :: (FWD_MOVES, 1) :: learnRegs

/-- Where the bridge shows what it learns (R454, R455). -/
def bridgeRegs : List (Nat × Nat) := [(ETH_BR_STAT, 1), (ETH_BR_NOSPACE, 1), (ETH_BR_MOVES, 1)]

/-- Where a frame that is bridged shows (R453–R456). -/
def bridgedRegs : List (Nat × Nat) :=
  (ETH_STATUS, 1) :: (ETH_Pp_PT_DROP 0, 2) :: (ETH_Pp_BR_FILTER 0, 2) :: (bridgeRegs ++ offerRegs)

/-- Where a frame addressed to the device shows (R449). -/
def localRegs : List (Nat × Nat) := (FWD_DL_BAD, 1) :: (ETH_Pp_LOCAL_DROP 0, 2) :: (netRegs ++ enqueueRegs)

/-- Where a good frame shows, beside its count (R448, R449). -/
def frameInRegs : List (Nat × Nat) :=
  (ETH_Pp_PAUSE_RX 0, 2) :: (ETH_Pp_RX_RSVD 0, 2) :: (ETH_Pp_VLAN_DROP 0, 2) :: (bridgedRegs ++ localRegs)

namespace Act.Stores

open Reach (has_array)

variable {R : Reach}

theorem ethUnit {p : Nat} {f : EthUnit → EthUnit} : Stores (.quiet [] [.eth]) (Act.ethUnit p f) := units

theorem tableDelete {n key : Nat} {stamp : Option Nat} {k : Nat → Nat → Nat → Entry → Act}
    (hk : ∀ w x y z, Stores R (k w x y z)) (hs : (Reach.events learnRegs [.fwd]).sub R = true := by decide +kernel) :
    Stores R (Act.tableDelete n key stamp k) := by
  refine read fun _ => ?_
  dsimp only
  split
  · exact hk _ _ _ _
  · exact ite (hk _ _ _ _) <| all ⟨within (R := .events learnRegs [.fwd]) (.sub .entry) hs,
      within (R := .events learnRegs [.fwd]) (.sub .tableCount) hs, hk _ _ _ _⟩

theorem learnNet {n key headend beat : Nat} {moving : Bool} :
    Stores (.events netRegs [.fwd]) (Act.learnNet n key headend beat moving) := by
  refine read fun _ => seq (wrap has_array) ?_
  split
  · exact all ⟨sub tableUpdate, wrap has_array, wrap has_array⟩
  · exact when <| tableInsert fun _ _ _ _ => when <| wrap has_array

/-- R264, R268: a headend's address is learned. -/
theorem netLearn {p mac vid headend beat : Nat} :
    Stores (.events netRegs [.fwd]) (Act.netLearn p mac vid headend beat) := by
  refine read fun _ => ?_
  dsimp only
  split
  · exact learnNet
  · refine ite (seq (sub tableUpdate) (sub tableUpdate)) <| ite nop ?_
    split
    · exact ite (seq (sub tableUpdate) <| when <| all ⟨tableDelete fun _ _ _ _ => nop, sub tableUpdate, wrap, raise⟩)
        learnNet
    · exact learnNet

/-- R268, R449: a PLE message enters a port's ingress queue. -/
theorem pleIngress {p q mac vid h beat : Nat} {m : List Byte} :
    Stores (.events (netRegs ++ enqueueRegs) [.fwd, .env, .eth, .pair]) (Act.pleIngress p q mac vid h beat m) :=
  read fun _ => ite (within .linkSend) <| seq (within .recordInput) <| seq (sub netLearn) <| enqPacket fun _ => nop

/-- R449: a frame addressed to the device. -/
theorem localFrame {p : Nat} {f : List Byte} {vid : Nat} {ip6 : List Byte} :
    Stores (.events localRegs [.fwd, .env, .eth, .pair]) (Act.localFrame p f vid ip6) := by
  have own {f : EthUnit → EthUnit} : Stores (.events localRegs [.fwd, .env, .eth, .pair]) (Act.ethUnit p f) :=
    sub ethUnit
  have lost : Stores (.events localRegs [.fwd, .env, .eth, .pair]) (Act.sat (ETH_Pp_LOCAL_DROP p)) := sat has_array
  refine read fun _ => ite ?_ <| ite (ite own own) <| ite own lost
  split
  · exact sub pleIngress
  · exact sat
  · exact lost

/-- R462: a received PAUSE frame. -/
theorem pauseReceived {p : Nat} {f : List Byte} :
    Stores (.events [(ETH_STATUS, 1), (ETH_Pp_PAUSE_RX 0, 2)] []) (Act.pauseReceived p f) :=
  read fun _ => seq (wrap has_array) <| when <| seq setB raiseOnce

/-- R454, R455: a learn of the bridge. -/
theorem brLearn {p mac vid : Nat} : Stores (.events bridgeRegs [.eth]) (Act.brLearn p mac vid) := by
  have put {slot : Nat} {e : Option BrEntry} : Stores (.events bridgeRegs [.eth]) (Act.brPut slot e) :=
    seq units <| read fun _ => setF
  refine read fun _ => ?_
  dsimp only
  split
  · split
    · exact seq sat raiseOnce
    · exact put
  · split
    · exact nop
    · exact ite nop <| ite put <| ite put <| ite (all ⟨put, wrap, raise⟩) put

/-- R304, R335: a packet is offered to an uplink class. -/
theorem uplinkOffer {p c beat : Nat} {headend stampAt : Option Nat} {pre : Nat} {bs : List Byte} {k : Bool → Act}
    (hk : ∀ ok, Stores R (k ok))
    (hs : (Reach.events offerRegs [.env, .eth, .sch, .pair]).sub R = true := by decide +kernel) :
    Stores R (Act.uplinkOffer p c beat headend stampAt pre bs k) := by
  have drop : Stores R (Act.sat (SCH_POLk_YDROP (8 * p + c))) :=
    within (R := .events offerRegs [.env, .eth, .sch, .pair]) (.sat has_array) hs
  have stamped : Stores R (Act.stamp false p c) :=
    within (R := .events offerRegs [.env, .eth, .sch, .pair]) (.sub .stamp) hs
  refine read fun _ => ?_
  split
  · exact hk _
  · exact police (fun _ => read fun _ => ite (hk _) <| ite (seq drop (hk _)) <|
      enqPacket (fun _ => seq stamped (hk _)) (Reach.sub_trans hs)) (Reach.sub_trans hs)

/-- R453–R456: a frame is bridged. -/
theorem bridge {p : Nat} {f : List Byte} {vid : Nat} {stamp : Option Nat} :
    Stores (.events bridgedRegs [.env, .eth, .sch, .pair]) (Act.bridge p f vid stamp) := by
  have out : Stores (.events bridgedRegs [.env, .eth, .sch, .pair]) (Act.bridgeOut p f stamp) :=
    read fun _ => ite (uplinkOffer fun _ => nop) <| ite (within .ptDrop) <| seq (sub ethUnit) (within .pauseEval)
  exact read fun _ => seq (when <| sub brLearn) <| ite (wrap has_array) out

/-- R449: the six steps of a received frame. -/
theorem frameIn {p phase : Nat} {f : List Byte} :
    Stores (.events frameInRegs [.fwd, .env, .eth, .sch, .pair]) (Act.frameIn p phase f) :=
  read fun _ => ite (sub pauseReceived) <| ite (wrap has_array) <| ite (sat has_array) <|
    all ⟨when <| sub ethUnit, when <| sub localFrame, when <| sub bridge⟩

end Act.Stores

section

variable {s : State} {port : EthPort} {edges : BitVec 40} {phase : Fin 4} {code : Bool} {bytes : List Byte}

/-- R448: the longest frame a port takes. -/
def State.longest (s : State) (p : Nat) : Nat := if s.mode.bridgeDefaults then 1536 else s.fld (ETH_Pp_CFG_MAX_LEN p)

/-- R448: a frame with an error. -/
def State.errored (s : State) (p : Nat) (code : Bool) (bytes : List Byte) : Bool :=
  bytes.length < 64 || s.longest p < bytes.length || code ||
    !(bytes.drop (bytes.length - 4) == fcsOf (bytes.take (bytes.length - 4)))

theorem State.longest_timePasses (s : State) (n p : Nat) : ((Act.timePasses n).run s).longest p = s.longest p := by
  have hmode : ((Act.timePasses n).run s).mode = s.mode :=
    State.ModeIs.run (s := s) rfl (.modeWithin .timePasses)
  have hlen : ((Act.timePasses n).run s).fld (ETH_Pp_CFG_MAX_LEN p) = s.fld (ETH_Pp_CFG_MAX_LEN p) :=
    congrArg (fieldOf · 3 14) (Act.Within.timePasses.reg_eq (by rfl) s)
  rw [longest, hmode, hlen, longest]

/-- R448: what a port counts of a frame. -/
def FrameCounted (p : EthPort) (errored : Bool) (s t : State) : Prop :=
  t.reg (ETH_Pp_RX_ERR p.idx) = (if errored then satNext (s.reg (ETH_Pp_RX_ERR p.idx)) else s.reg (ETH_Pp_RX_ERR p.idx)) ∧
    t.reg (ETH_Pp_RX_FRAMES p.idx) =
      if errored then s.reg (ETH_Pp_RX_FRAMES p.idx) else s.reg (ETH_Pp_RX_FRAMES p.idx) + 1

theorem FrameCounted.of_eq {p : EthPort} {e : Bool} {n : Nat} {t : State}
    (h : FrameCounted p e ((Act.timePasses n).run s) t) : FrameCounted p e s t := by
  have hreg {x : Nat} (hx : (Reach.quiet [] [.tk]).has x = false) : ((Act.timePasses n).run s).reg x = s.reg x :=
    Act.Within.timePasses.reg_eq hx s
  rw [FrameCounted, hreg (by cases p <;> rfl), hreg (by cases p <;> rfl)] at h
  exact h

/-- R448: each frame that ends is counted, with the good ones or with the bad ones. -/
theorem completes_ethFrameReceived (hon : s.mode.portsOn = true) (hdrift : s.u.pwr.driftEntry < 2)
    (hup : s.bit (ETH_STATUS_Pp_UP port) = true) :
    Completes (.ethFrameReceived port edges phase code bytes) s (FrameCounted port (s.errored port.idx code bytes) s) := by
  refine ⟨_, rfl, ?_⟩
  have hdrift' : Nat.blt s.u.pwr.driftEntry 2 = true := by simpa using hdrift
  rw [hon, hdrift', hup, Act.run_when, if_pos (by rfl), Act.run_seq, State.errored,
    ← s.longest_timePasses edges.toNat, ← State.errored]
  refine FrameCounted.of_eq (n := edges.toNat) ?_
  generalize (Act.timePasses edges.toNat).run s = r
  rw [Act.run_read]
  dsimp only
  rw [← State.longest, ← State.errored]
  cases r.errored port.idx code bytes with
  | true =>
    rw [FrameCounted, if_pos rfl, if_pos rfl, if_pos rfl, Act.run_all_cons]
    constructor
    · refine State.RegIs.run (Act.reg_sat (by cases port <;> rfl) _) (.all (l := [_, _]) ⟨.regUnits, .when ?_⟩)
      exact .reg (R := .events [] []) .raiseOnce (by cases port <;> rfl)
    · refine State.RegIs.run (State.RegIs.run (s := r) rfl (.regSat (by cases port <;> decide)))
        (.all (l := [_, _]) ⟨.regUnits, .when ?_⟩)
      exact .reg (R := .events [] []) .raiseOnce (by cases port <;> rfl)
  | false =>
    rw [FrameCounted, if_neg Bool.false_ne_true, if_neg Bool.false_ne_true, if_neg Bool.false_ne_true, Act.run_seq]
    constructor
    · refine State.RegIs.run (State.RegIs.run (s := r) rfl (.regWrap (by cases port <;> decide))) (.regStores .frameIn ?_)
      cases port <;> rfl
    · refine State.RegIs.run (Act.regIs_wrap (s := r) rfl (by cases port <;> rfl)) (.regStores .frameIn ?_)
      cases port <;> rfl

end

end Sys2Proof.Machine

namespace Sys2Proof.Machine

set_option Elab.async false

open Sys2Proof Sys2Proof.Reg

/-! ### Transmission on a backhaul port (R457, R463) -/

theorem Act.Stores.poisonCounts {n k : Nat} :
    Stores (.events [(ENV_POISON_READ, 1)] [.env]) (Act.poisonCounts n k) :=
  when <| all ⟨satBy, units, raiseOnce⟩

section

variable {s : State} {port : EthPort} {edges : BitVec 40} {phase : Fin 4}

/-- R462: a pause ends. -/
theorem completes_ethPauseExpiry (s : State) (port : EthPort) :
    Completes (.ethPauseExpiry port) s fun t => t.bit (ETH_STATUS_Pp_PAUSED port) = false :=
  ⟨_, rfl, (fldIs_setB (ETH_STATUS_Pp_PAUSED port) false s rfl (by cases port <;> rfl)).bit⟩

/-- Time that passes leaves the ports. -/
theorem Act.eth_timePasses (n : Nat) (s : State) : ((timePasses n).run s).u.eth = s.u.eth :=
  (Within.timePasses.unit .eth s).symm

/-- R457: what starts on the wire. -/
theorem Act.port_ethSend {x : EthTx} (f : List Byte) (s : State) :
    State.Port port EthUnit.sending (some x) ((ethSend port.idx x f).run s) := by
  unfold ethSend
  exact port_ethUnit_set (s := s)

theorem Act.Keeps.portEthSend {α : Type} {g : EthUnit → α} {v : α} {x : EthTx} {f : List Byte}
    (h : ∀ u y w, g { u with sending := y, wire := w, badFcs := false } = g u := by exact fun _ _ _ => rfl) :
    Keeps (State.Port port g v) (ethSend port.idx x f) := by
  unfold ethSend
  exact portEthUnit fun _ => h ..

/-- R463: a PAUSE frame goes first. -/
theorem completes_ethTxStart_of_pause {q : Nat} (hon : s.mode.portsOn = true)
    (hup : s.bit (ETH_STATUS_Pp_UP port) = true) (hfree : (s.u.eth.port port.idx).sending = none)
    (hpaused : s.bit (ETH_STATUS_Pp_PAUSED port) = false) (hnext : (s.u.eth.port port.idx).pauseNext = some q) :
    Completes (.ethTxStart port edges phase) s fun t =>
      (t.u.eth.port port.idx).sending = some (.pause q) ∧ (t.u.eth.port port.idx).pauseNext = none := by
  refine ⟨_, rfl, ?_⟩
  dsimp only
  rw [hon, hup, hfree, hpaused, Act.run_when, if_pos (by rfl), Act.run_seq, Act.run_read, Act.eth_timePasses, hnext]
  dsimp only
  rw [Act.run_seq]
  refine ⟨Act.port_ethSend .., ?_⟩
  exact State.Port.run (g := EthUnit.pauseNext) (Act.port_ethUnit_set (s := _)) .portEthSend

/-- R457: the oldest pass-through frame, when nothing else waits. -/
theorem completes_ethTxStart_of_through {g : PtFrame} {rest : List PtFrame} (hon : s.mode.portsOn = true)
    (hup : s.bit (ETH_STATUS_Pp_UP port) = true) (hfree : (s.u.eth.port port.idx).sending = none)
    (hpaused : s.bit (ETH_STATUS_Pp_PAUSED port) = false) (hnext : (s.u.eth.port port.idx).pauseNext = none)
    (hown : (s.u.eth.port port.idx).own = []) (hchosen : (s.u.eth.port port.idx).chosen = none)
    (hfifo : (s.u.eth.port port.idx).fifo = g :: rest) (hstamp : g.stamp = none) :
    Completes (.ethTxStart port edges phase) s fun t =>
      (t.u.eth.port port.idx).sending = some (.through g) ∧ (t.u.eth.port port.idx).fifo = g :: rest := by
  refine ⟨_, rfl, ?_⟩
  dsimp only
  rw [hon, hup, hfree, hpaused, Act.run_when, if_pos (by rfl), Act.run_seq, Act.run_read, Act.eth_timePasses, hnext, hown, hchosen, hfifo]
  dsimp only [List.head?]
  rw [ite_self, ite_self]
  dsimp only
  rw [hstamp, Act.correctOut, Act.run_read]
  refine ⟨Act.port_ethSend .., ?_⟩
  refine State.Port.run (g := EthUnit.fifo) ?_ .portEthSend
  rw [State.Port, State.Part, Act.eth_timePasses, hfifo]

/-- R457: a frame has left. -/
theorem completes_ethTxDone {upset : Bool} {x : EthTx} (hsending : (s.u.eth.port port.idx).sending = some x) :
    Completes (.ethTxDone port upset) s fun t =>
      (t.u.eth.port port.idx).sending = none ∧
      t.reg (ETH_Pp_TX_FRAMES port.idx) = s.reg (ETH_Pp_TX_FRAMES port.idx) + 1 := by
  refine ⟨_, rfl, ?_⟩
  dsimp only
  rw [hsending]
  dsimp only
  rw [Act.run_all_cons, Act.run_all_cons]
  constructor
  · refine State.Port.run (g := EthUnit.sending)
      (State.Port.run (g := EthUnit.sending) (Act.port_ethUnit_set (s := s)) .partWrap) (.all (l := [_]) ?_)
    cases x with
    | pause n => exact .partWrap
    | own b => exact .nop
    | through g => exact .all ⟨.partWrap, .portEthUnit, .portPauseEval⟩
    | packet q start n =>
      exact .all ⟨.when .partWrap, .when <| .all ⟨.partSat, .partWithin (R := .events [] []) .raise,
        .partWithin .faultClass, .partStores .poisonCounts, .portEthUnit⟩, .partWithin .flow, .portReleasePacket⟩
  · refine State.RegIs.run (Act.regIs_wrap (State.RegIs.run (s := s) rfl .regUnits) (by cases port <;> rfl))
      (.all (l := [_]) ?_)
    cases x with
    | pause n => exact .regWrap (by cases port <;> decide)
    | own b => exact .nop
    | through g => exact .all ⟨.regWrap (by cases port <;> decide), .regUnits, .reg .pauseEval (by cases port <;> rfl)⟩
    | packet q start n =>
      exact .all ⟨.when <| .regWrap (by cases port <;> decide),
        .when <| .all ⟨.regSat (by cases port <;> decide),
          .reg (R := .events [] []) .raise (by cases port <;> rfl), .regUnits,
          .regStores .poisonCounts (by cases port <;> rfl), .regUnits⟩, .regUnits,
        .regReleasePacket (by cases port <;> rfl)⟩

/-- R463: the condition holds still. -/
theorem completes_pauseRefresh (hpausing : s.bit (ETH_STATUS_Pp_PAUSING port) = true)
    (hnext : (s.u.eth.port port.idx).pauseNext = none) :
    Completes (.pauseRefresh port) s fun t =>
      (t.u.eth.port port.idx).pauseNext = some (s.fld (ETH_Pp_PAUSE_QUANTA port.idx)) := by
  refine ⟨_, rfl, ?_⟩
  rw [hpausing, hnext, Act.run_when, if_pos (by rfl)]
  exact congrArg EthUnit.pauseNext (Act.port_ethUnit ..)

/-- R449: an unsolicited advertisement. -/
theorem completes_naAnnounce (hsends : s.mode.sendsUplink = true) (hup : s.bit (ETH_STATUS_Pp_UP port) = true)
    (hleft : 0 < (s.u.eth.port port.idx).naLeft) :
    Completes (.naAnnounce port) s fun t =>
      (t.u.eth.port port.idx).naLeft = (s.u.eth.port port.idx).naLeft - 1 ∧
      (t.u.eth.port port.idx).own = (s.u.eth.port port.idx).own ++ [s.advertise port.idx allNodesMac allNodesIp false] := by
  refine ⟨_, rfl, ?_⟩
  have hdue : (s.mode.sendsUplink && s.bit (ETH_STATUS_Pp_UP port) && Nat.blt 0 (s.u.eth.port port.idx).naLeft) = true := by
    rw [hsends, hup]; simpa using hleft
  dsimp only
  rw [Act.run_when, if_pos hdue, Act.port_ethUnit]
  exact ⟨rfl, rfl⟩

/-- R467: a port's configuration is stored, whether its link starts anew or not. -/
theorem completes_ethPortCfgWrite {iface : HostIface} {value : BitVec 32} (hreach : s.reaches iface = true)
    (hpermit : s.permits (ETH_Pp_CFG port.idx) = true) :
    Completes (.ethPortCfgWrite iface port value) s fun t =>
      t.reg (ETH_Pp_CFG port.idx) = storedValue (ETH_Pp_CFG port.idx) value := by
  refine ⟨_, rfl, ?_⟩
  rw [Act.run_permitted hreach hpermit, Act.ethCfgWrite, Act.run_read]
  dsimp only
  rw [Act.run_seq]
  exact State.RegIs.run (Act.regIs_reg (by cases port <;> rfl) _ s)
    (.when <| .reg .linkRestart (by cases port <;> rfl))

end

/-- Settles O32: each command of a port does its step on the port's unit, and what follows leaves that step. -/
theorem backhaulPorts : Obligations.BackhaulPorts := by
  unfold Obligations.BackhaulPorts
  refine ⟨fun _ _ => completes_ethAutodetectSwitch, fun _ _ _ _ => completes_ethLinkUp, fun _ _ => completes_ethLinkDown,
    ?_, ?_, completes_ethPauseExpiry, fun _ _ _ _ _ => completes_ethTxStart_of_pause,
    fun _ _ _ _ _ _ => completes_ethTxStart_of_through, fun _ _ _ _ => completes_ethTxDone,
    fun _ _ => completes_pauseRefresh, fun _ _ => completes_naAnnounce, fun _ _ _ _ => completes_ethPortCfgWrite⟩
  · intro s port edges phase bytes hon hdrift hup hlong hshort hfcs
    obtain ⟨t, ht, herr, hcount⟩ := completes_ethFrameReceived (edges := edges) (phase := phase) (code := false)
      (bytes := bytes) hon hdrift hup
    have hgood : s.errored port.idx false bytes = false := by
      rw [State.errored, hfcs, beq_self_eq_true, decide_eq_false (Nat.not_lt.2 hlong),
        decide_eq_false (show ¬s.longest port.idx < bytes.length from Nat.not_lt.2 hshort)]
      rfl
    rw [hgood] at herr hcount
    exact ⟨t, ht, hcount, herr⟩
  · intro s port edges phase bytes hon hdrift hup
    obtain ⟨t, ht, herr, hcount⟩ := completes_ethFrameReceived (edges := edges) (phase := phase) (code := true)
      (bytes := bytes) hon hdrift hup
    have hbad : s.errored port.idx true bytes = true := by simp [State.errored]
    rw [hbad] at herr hcount
    exact ⟨t, ht, herr, hcount⟩

end Sys2Proof.Machine

namespace Sys2Proof.Machine

set_option Elab.async false

open Sys2Proof Sys2Proof.Reg

/-! ### A part of the pair unit that programs keep -/

/-- A part of the pair unit has a value. -/
def State.PairPart {α : Type} (g : Pair → α) (x : α) : State → Prop := State.Part (fun u => g u.pair) x

theorem State.PairPart.run {α : Type} {g : Pair → α} {x : α} {s : State} {a : Act} (h : State.PairPart g x s)
    (ha : Act.Keeps (State.PairPart g x) a) : State.PairPart g x (a.run s) := ha s h

/-- Two parts together. -/
theorem State.PairPart.both {α β : Type} (f : Pair → α) (g : Pair → β) {x : α} {y : β} {s : State}
    (h : State.PairPart (fun p => (f p, g p)) (x, y) s) : f s.u.pair = x ∧ g s.u.pair = y := Prod.mk.inj h

/-- What an update of the pair unit sets. -/
theorem Act.pairPart_pair {α : Type} {g : Pair → α} {x : α} {f : Pair → Pair} (s : State)
    (h : ∀ p, g (f p) = x := by exact fun _ => rfl) : State.PairPart g x ((Act.pair f).run s) := h s.u.pair

/-- What the link's own bookkeeping leaves of the pair unit. -/
def LinkApart {α : Type} (g : Pair → α) : Prop :=
  ∀ p out lseq asked helloed, g { p with out := out, lseq := lseq, asked := asked, helloed := helloed } = g p

namespace Act.Keeps

section

variable {α : Type} {g : Pair → α} {x : α}

theorem pairPair {f : Pair → Pair} (h : ∀ p, g (f p) = g p := by exact fun _ => rfl) :
    Keeps (State.PairPart g x) (Act.pair f) := partUnits fun u => h u.pair

theorem pairRaise {src : Nat} {record : List Byte} : Keeps (State.PairPart g x) (Act.raise src record) :=
  partWithin (R := .events [] []) .raise

/-- R478: what a held PAIR_ALIVE leaves, beside the state to come. -/
theorem pairAliveHeld (h : ∀ p n, g { p with next := n } = g p := by exact fun _ _ => rfl) :
    Keeps (State.PairPart g x) Act.aliveHeld :=
  read fun _ => when <| ite (seq (pairPair fun p => h p _) pairRaise) (when <| pairPair fun p => h p _)

/-- R493: what the end of a planned switchover leaves, beside it. -/
theorem pairSwitchCancel {n : Nat} (h : ∀ p w, g { p with switch := w } = g p := by exact fun _ _ => rfl) :
    Keeps (State.PairPart g x) (Act.switchCancel n) := by
  refine read fun _ => ?_
  split
  · exact nop
  · exact seq (pairPair fun p => h p _) <| when <| partWithin .pairResult

variable (hg : LinkApart g)
include hg

theorem pairLinkSend {b : LinkBody} : Keeps (State.PairPart g x) (Act.linkSend b) :=
  read fun _ => when <| pairPair fun p => hg p _ _ p.asked p.helloed

theorem pairLinkAsk : Keeps (State.PairPart g x) Act.linkAsk := by
  refine read fun _ => ?_
  split
  · exact nop
  · exact seq (pairPair fun p => hg p p.out p.lseq _ p.helloed) (pairLinkSend hg)

theorem pairHelloSend : Keeps (State.PairPart g x) Act.helloSend :=
  read fun _ => when <| seq (pairPair fun p => hg p p.out p.lseq p.asked _) (pairLinkSend hg)

theorem pairHelloStart : Keeps (State.PairPart g x) Act.helloStart := read fun _ => when <| pairHelloSend hg

end

end Act.Keeps

theorem Act.Keeps.fldSetFOther {g : Field} {n : Nat} {f : Field} {v : Nat} (h : f.reg ≠ g.reg) :
    Keeps (State.FldIs g n) (Act.setF f v) := read fun _ => fldReg h

/-! ### The link and PAIR_ALIVE (R470, R475) -/

section

variable {s : State}

/-- R470: block lock brings the link up. -/
theorem completes_pairLinkUp (hpaired : s.paired = true) (hdown : s.bit PAIR_STATUS_LINK_UP = false) :
    Completes .pairLinkUp s fun t =>
      t.bit PAIR_STATUS_LINK_UP = true ∧ t.u.pair.lseqIn = none ∧ t.u.pair.refused = false := by
  refine ⟨_, rfl, ?_⟩
  rw [hpaired, hdown, Act.run_when, if_pos (by rfl)]
  constructor
  · exact State.FldIs.bit (n := 1) (Act.run_all_set [] [_, _] (fun s => fldIs_setB PAIR_STATUS_LINK_UP true s rfl)
      (.all ⟨.fldUnits, .fld (R := .events [] []) .raise rfl⟩) s)
  · exact State.PairPart.both Pair.lseqIn Pair.refused
      (Act.run_all_set [_] [_] (fun s => Act.pairPart_pair s) (.all (l := [_]) .pairRaise) s)

/-- R474, R478: the Tether is declared lost. -/
theorem Act.bit_partnerLost (s : State) : (partnerLost.run s).bit PAIR_STATUS_TETHER_OK = false := by
  rw [partnerLost, run_read, run_when]
  split
  · refine State.FldIs.bit (n := 0) (run_all_set [] [_, _, _, _, _, _]
      (fun s => fldIs_setB PAIR_STATUS_TETHER_OK false s rfl) (.all ⟨?_, ?_, ?_, ?_, ?_, ?_⟩) s)
    · exact .fldSat
    · exact .fldUnits
    · exact .fld (R := .events [] []) .raise rfl
    · exact .fldUnits
    · exact .when <| .seq .fldUnits <| .fld .switchCancel rfl
    · exact .fld .aliveHeld rfl
  next hlost => exact Bool.eq_false_iff.2 hlost

theorem Act.Keeps.linkUpPartnerLost {n : Nat} : Keeps (State.FldIs PAIR_STATUS_LINK_UP n) partnerLost :=
  read fun _ => when <| all ⟨fldApartB, fldSat, fldUnits, fld (R := .events [] []) .raise rfl, fldUnits,
    when <| seq fldUnits <| fld .switchCancel rfl, fld .aliveHeld rfl⟩

/-- R474, R478: what the loss of the Tether leaves of the pair unit. -/
theorem Act.Keeps.pairPartnerLost {α : Type} {g : Pair → α} {x : α}
    (h : ∀ p f q e n w, g { p with lastFault := f, quiet := q, helloed := e, next := n, switch := w } = g p
      := by exact fun _ _ _ _ _ _ => rfl) :
    Keeps (State.PairPart g x) partnerLost := by
  exact read fun _ => when <| all ⟨partSetB, partSat, pairPair fun p => h p _ p.quiet p.helloed p.next p.switch,
    pairRaise, pairPair fun p => h p p.lastFault _ _ p.next p.switch,
    when <| seq (pairPair fun p => h p p.lastFault p.quiet p.helloed _ p.switch) <|
      pairSwitchCancel fun p => h p p.lastFault p.quiet p.helloed p.next,
    pairAliveHeld fun p n => h p p.lastFault p.quiet p.helloed n p.switch⟩

/-- R470, R474, R488: the loss of block lock takes the Tether and a sync with it. -/
theorem completes_pairLinkDown (hup : s.bit PAIR_STATUS_LINK_UP = true) :
    Completes .pairLinkDown s fun t =>
      t.bit PAIR_STATUS_LINK_UP = false ∧ t.bit PAIR_STATUS_TETHER_OK = false ∧ t.u.pair.syncing = false ∧
      t.u.pair.timeIn = none := by
  refine ⟨_, rfl, ?_⟩
  rw [hup, Act.run_when, if_pos rfl]
  refine ⟨?_, ?_, ?_⟩
  · refine State.FldIs.bit (n := 0) (Act.run_all_set [] [_, _, _, _, _]
      (fun s => fldIs_setB PAIR_STATUS_LINK_UP false s rfl) (.all ⟨?_, ?_, ?_, ?_, ?_⟩) s)
    · exact .fld (R := .events [] []) .raise rfl
    · exact .fldUnits
    · exact .when .fldUnits
    · exact .when <| .fld .syncFail rfl
    · exact .linkUpPartnerLost
  · exact Act.run_all_set (P := fun t => t.bit PAIR_STATUS_TETHER_OK = false) [_, _, _, _, _] [] Act.bit_partnerLost
      .nop s
  · exact State.PairPart.both Pair.syncing Pair.timeIn (Act.run_all_set [_, _] [_, _, _]
      (fun s => Act.pairPart_pair s)
      (.all ⟨.when .pairPair, .when <| .read fun _ => .seq .pairPair .pairRaise, .pairPartnerLost⟩) s)

/-- R473: a TETHER goes out. -/
theorem completes_tetherSend (hpaired : s.paired = true) (hrun : s.bit BT_STATUS_RUNNING = true) (hmode : s.mode ≠ .hold)
    (hup : s.bit PAIR_STATUS_LINK_UP = true) :
    Completes .tetherSend s fun t =>
      t.u.pair.lseq = (s.u.pair.lseq + 1) % 2 ^ 32 ∧ t.u.pair.out.length = s.u.pair.out.length + 1 := by
  refine ⟨_, rfl, ?_⟩
  have hhold : decide (s.mode = .hold) = false := decide_eq_false hmode
  rw [hpaired, hrun, hhold, Act.run_when, if_pos (by rfl)]
  exact (Act.sent_linkSend hup _).symm

/-- R473: a received TETHER. -/
theorem completes_tetherReceived {lseq : BitVec 32} {x : TetherIn} (hpaired : s.paired = true)
    (hup : s.bit PAIR_STATUS_LINK_UP = true) (hturn : s.u.pair.lseqIn.getD lseq.toNat = lseq.toNat) :
    Completes (.tetherReceived lseq x) s fun t =>
      t.u.pair.lseqIn = some ((lseq.toNat + 1) % 2 ^ 32) ∧ t.u.pair.tether = some x ∧ t.u.pair.quiet = 0 ∧
      t.bit PAIR_STATUS_TETHER_OK = true ∧ t.fld ⟨PAIR_SCORE, 8, 8⟩ = x.score.toNat := by
  refine ⟨_, rfl, ?_⟩
  rw [hpaired, hup, Act.run_when, if_pos (by rfl), Act.run_all_cons, Act.run_linkTake hup hturn]
  have hfollow {α : Type} {g : Pair → α} {v : α} : Act.Keeps (State.PairPart g v) Act.updateFollow := .read fun _ => by
    split
    · exact .when .partUnits
    · exact .nop
  have hfollowFld {g : Field} {n : Nat} : Act.Keeps (State.FldIs g n) Act.updateFollow := .read fun _ => by
    split
    · exact .when .fldUnits
    · exact .nop
  refine ⟨?_, ?_⟩
  · exact State.PairPart.run (g := Pair.lseqIn) (s.nextFrame_tookFrame lseq)
      (.all (l := [_, _, _, _, _]) ⟨.pairPair, .partSetB, .partSetF, .pairHelloStart fun _ _ _ _ _ => rfl, hfollow⟩)
  rw [← and_assoc]
  refine ⟨?_, ?_, ?_⟩
  · exact State.PairPart.both Pair.tether Pair.quiet (Act.run_all_set [] [_, _, _, _] (fun s => Act.pairPart_pair s)
      (.all ⟨.partSetB, .partSetF, .pairHelloStart fun _ _ _ _ _ => rfl, hfollow⟩) _)
  · exact State.FldIs.bit (n := 1) (Act.run_all_set [_] [_, _, _]
      (fun s => fldIs_setB PAIR_STATUS_TETHER_OK true s rfl)
      (.all ⟨.fldSetFOther (by decide), .fld .helloStart rfl, hfollowFld⟩) _)
  · exact Act.run_all_set (P := State.FldIs ⟨PAIR_SCORE, 8, 8⟩ x.score.toNat) [_, _] [_, _]
      (fun s => Act.fldIs_setF _ _ s rfl x.score.isLt) (.all ⟨.fld .helloStart rfl, hfollowFld⟩) _

/-- R474: a missed TETHER. -/
theorem completes_tetherMiss (hpaired : s.paired = true) :
    Completes .tetherMiss s fun t => t.reg PAIR_TETHER_MISS = s.reg PAIR_TETHER_MISS + 1 := by
  refine ⟨_, rfl, ?_⟩
  rw [hpaired, Act.run_when, if_pos rfl]
  exact Act.regIs_wrap rfl rfl

/-- R474: the Tether is lost. -/
theorem completes_tetherLost (hok : s.bit PAIR_STATUS_TETHER_OK = true) :
    Completes .tetherLost s fun t =>
      t.bit PAIR_STATUS_TETHER_OK = false ∧ t.u.pair.quiet = 0 ∧ t.reg PAIR_LOST = satNext (s.reg PAIR_LOST) ∧
      (s.pstate = 2 → s.bit PAIR_STATUS_ALIVE_LOW = false → t.u.pair.next = some 1) := by
  refine ⟨_, rfl, Act.bit_partnerLost s, ?_⟩
  rw [Act.partnerLost, Act.run_read, hok, Act.run_when, if_pos rfl]
  refine ⟨?_, ?_, fun hlead hhigh => ?_⟩
  · exact Act.run_all_set (P := State.PairPart Pair.quiet 0) [_, _, _, _] [_, _] (fun s => Act.pairPart_pair s)
      (.all ⟨.when <| .seq .pairPair .pairSwitchCancel, .pairAliveHeld⟩) _
  · rw [Act.run_all_cons, Act.run_all_cons]
    refine State.RegIs.run ((Act.reg_sat rfl _).trans ?_) (.all (l := [_, _, _, _, _])
      ⟨.regUnits, .reg (R := .events [] []) .raise rfl, .regUnits, .when <| .seq .regUnits <| .reg .switchCancel rfl,
        .reg .aliveHeld rfl⟩)
    exact congrArg satNext (State.RegIs.run (s := s) (x := PAIR_LOST) rfl (.regSetB (by decide)))
  · have hlow : State.FldIs PAIR_STATUS_ALIVE_LOW (s.fld PAIR_STATUS_ALIVE_LOW) _ :=
      State.FldIs.run (s := s) rfl (.all (l := [Act.setB PAIR_STATUS_TETHER_OK false, Act.sat PAIR_LOST, Act.faultClass 18,
        Act.raise 98 [], Act.pair fun p => { p with quiet := 0, helloed := false },
        Act.when (s.pstate == 2) (.seq (Act.pairNext 1) (Act.switchCancel 3))])
        ⟨.fldApartB, .fldSat, .fldUnits, .fld (R := .events [] []) .raise rfl, .fldUnits,
          .when <| .seq .fldUnits <| .fld .switchCancel rfl⟩)
    have hidle (r : State) (h : r.bit PAIR_STATUS_ALIVE_LOW = false) : Act.aliveHeld.run r = r := by
      rw [Act.aliveHeld, Act.run_read, h, Bool.and_false, Bool.false_and, Act.run_when, if_neg Bool.false_ne_true]
    rw [Act.run_all_cons, Act.run_all_cons, Act.run_all_cons, Act.run_all_cons, Act.run_all_cons, Act.run_all_cons,
      Act.run_all_cons, Act.run_all_nil, hidle]
    · rw [hlead, Act.run_when, if_pos (by rfl), Act.run_seq]
      exact State.PairPart.run (g := Pair.next) rfl .pairSwitchCancel
    · exact hlow.bit.trans hhigh

/-- R475: PAIR_ALIVE follows its ball. -/
theorem completes_pairAliveEdge (s : State) (low : Bool) :
    Completes (.pairAliveEdge low) s fun t => t.bit PAIR_STATUS_ALIVE_LOW = low :=
  ⟨_, rfl, State.bit_of_fldIs ((fldIs_setB PAIR_STATUS_ALIVE_LOW low s rfl).run (.fld .aliveHeld rfl))⟩

/-- R475: the watchdog releases the pull. -/
theorem completes_aliveWatchdogExpiry (s : State) :
    Completes .aliveWatchdogExpiry s fun t => t.bit PAIR_STATUS_ALIVE_DRV = false :=
  ⟨_, rfl, (fldIs_setB PAIR_STATUS_ALIVE_DRV false s rfl).bit⟩

/-- R472: the frames kept from the wanted one on are sent again. -/
theorem completes_resendReceived {lseq wanted : BitVec 32} (hup : s.bit PAIR_STATUS_LINK_UP = true)
    (hturn : s.u.pair.lseqIn.getD lseq.toNat = lseq.toNat) :
    Completes (.resendReceived lseq wanted) s fun t =>
      t.u.pair.lseqIn = some ((lseq.toNat + 1) % 2 ^ 32) ∧
      t.reg PAIR_RESENDS = s.reg PAIR_RESENDS + BitVec.ofNat 32 (s.u.pair.out.filter fun f =>
        Nat.blt ((f.lseq + 2 ^ 32 - wanted.toNat) % 2 ^ 32) (2 ^ 31)).length := by
  refine ⟨_, rfl, ?_⟩
  rw [Act.run_linkTake hup hturn, Act.run_read]
  exact ⟨by rw [Act.wrapBy_u]; rfl, Act.reg_wrapBy _ _ _ rfl⟩

/-- R472: a frame whose CRC fails. -/
theorem completes_linkFrameCrcFail (hup : s.bit PAIR_STATUS_LINK_UP = true) :
    Completes .linkFrameCrcFail s fun t => t.reg PAIR_LINK_CRC = satNext (s.reg PAIR_LINK_CRC) := by
  refine ⟨_, rfl, ?_⟩
  rw [hup, Act.run_when, if_pos rfl, Act.run_all_cons]
  refine State.RegIs.run (Act.reg_sat rfl s) (.all (l := [_, _]) ⟨.regUnits, .read fun _ => ?_⟩)
  split
  · exact .nop
  · exact .seq .regUnits <| .reg .linkSend rfl

end

/-- Settles O34: each event of the link does its step, and what follows it leaves that step. -/
theorem linkAndTether : Obligations.LinkAndTether :=
  ⟨fun _ => completes_pairLinkUp, fun _ => completes_pairLinkDown, fun _ => completes_tetherSend,
    fun _ _ _ => completes_tetherReceived, fun _ => completes_tetherMiss, fun _ => completes_tetherLost,
    completes_pairAliveEdge, completes_aliveWatchdogExpiry, fun _ _ _ => completes_resendReceived,
    fun _ => completes_linkFrameCrcFail⟩

end Sys2Proof.Machine

namespace Sys2Proof.Machine

set_option Elab.async false

open Sys2Proof Sys2Proof.Reg

/-! ### Pairing and planned switchovers (R487, R493) -/

/-- R393: a roll requested is under way. -/
theorem Act.roll_requestRoll (s : State) : (requestRoll.run s).u.sec.roll.isSome = true := by
  rw [requestRoll, run_read, run_when]
  split
  · rw [run_all_cons]
    exact State.Part.run (part := fun u => u.sec.roll.isSome) rfl
      (.all (l := [_, _]) ⟨.partSetB, .when <| .partWithin (R := .events [] []) .raise⟩)
  next hsome => exact Option.isSome_iff_ne_none.2 fun hnone => hsome (by rw [hnone]; rfl)

theorem Act.Keeps.pairRequestRoll {α : Type} {g : Pair → α} {x : α} : Keeps (State.PairPart g x) requestRoll :=
  partWithin .requestRoll

/-- R492: what holding both verdicts leaves, beside the outcome. -/
theorem Act.Keeps.pairArbHeld {α : Type} {g : Pair → α} {x : α}
    (h : ∀ p n, g { p with outcome := n } = g p := by exact fun _ _ => rfl) : Keeps (State.PairPart g x) arbHeld :=
  read fun _ => by
    split
    · exact pairPair fun p => h p _
    · exact nop

section

variable {s : State}

/-- R491, R492: this unit's verdict is held. -/
theorem Act.arb_arbSend {a : Arb} (harb : s.u.pair.arb = some a) (hown : a.own = none) (v : Verdict) :
    ((arbSend v).run s).u.pair.arb = some { a with own := some (v, s.score) } := by
  rw [arbSend, run_read, harb]
  dsimp only
  rw [hown, run_when, if_pos (by rfl)]
  exact run_all_set (P := State.PairPart Pair.arb (some { a with own := some (v, s.score) })) [] [_, _]
    (fun s => pairPart_pair s) (.all ⟨.pairLinkSend fun _ _ _ _ _ => rfl, .pairArbHeld⟩) s

/-- R493: a unit starts a planned switchover. -/
theorem Act.switch_startSwitch (hnone : s.u.pair.switch = none) (cause : Nat) (cmd : Bool) :
    (((startSwitch cause cmd).run s).u.pair.switch.map fun w => (w.incoming, w.acked, w.cmd, w.cause)) =
      some (cause == 4, false, cmd, cause) := by
  rw [startSwitch, run_read, hnone, run_when, if_pos (by rfl)]
  rfl

/-- R488: a sync fails. -/
theorem Act.pair_syncFail (s : State) :
    State.PairPart (fun p => (p.syncAt, p.syncFrom, p.retryAt)) (none, none, some (s.u.bt.beat + 10000)) (syncFail.run s) := by
  rw [syncFail, run_read, run_seq]
  exact State.PairPart.run (Act.pairPart_pair s) .pairRaise

section

variable {lseq beat : BitVec 32} (hup : s.bit PAIR_STATUS_LINK_UP = true)
  (hturn : s.u.pair.lseqIn.getD lseq.toNat = lseq.toNat)
include hup hturn

/-- R487: a HELLO that comes to the serving unit. -/
theorem completes_helloReceived {h : Hello} (halone : s.pstate = 1) :
    Completes (.helloReceived lseq h) s fun t =>
      t.u.pair.lseqIn = some ((lseq.toNat + 1) % 2 ^ 32) ∧
      (helloDiffers s.hello h = 0 → t.u.pair.syncing = true ∧ t.u.pair.syncFrom = none) ∧
      (helloDiffers s.hello h ≠ 0 → t.u.pair.refused = true) := by
  refine ⟨_, rfl, ?_⟩
  have hhello : (s.tookFrame lseq).hello = s.hello := rfl
  rw [Act.run_linkTake hup hturn, Act.run_read]
  dsimp only
  rw [State.pstate_tookFrame, halone, hhello, Act.run_seq]
  have hsent : State.NextFrame ((lseq.toNat + 1) % 2 ^ 32)
      ((Act.when (1 == 1 || 1 == 2) (Act.linkSend (.hello s.hello))).run (s.tookFrame lseq)) :=
    (s.nextFrame_tookFrame lseq).run (.when .nextFrameLinkSend)
  by_cases hsame : helloDiffers s.hello h = 0
  · rw [if_pos hsame]
    exact ⟨hsent, fun _ => ⟨rfl, rfl⟩, fun hne => absurd hsame hne⟩
  · rw [if_neg hsame]
    refine ⟨hsent.run (.all ⟨?_, .nextFramePair, .when .nextFramePair⟩), fun h0 => absurd h0 hsame, fun _ => ?_⟩
    · exact .nextFrame (R := .events [] []) .raise
    · exact Act.run_all_set (P := State.PairPart Pair.refused true) [_] [_] (fun s => Act.pairPart_pair s)
        (.all (l := [_]) <| .when .pairPair) _

/-- R493: the partner names beat H to the standby, which starts its epoch write. -/
theorem completes_switchReceived (hshadow : s.pstate = 5) (hnone : s.u.pair.switch = none) :
    Completes (.switchReceived lseq beat) s fun t =>
      t.u.pair.lseqIn = some ((lseq.toNat + 1) % 2 ^ 32) ∧
      t.u.pair.switch = some ⟨(s.nearBeat beat.toNat), true, true, s.u.bt.beat, false, 1⟩ ∧
      t.u.sec.roll.isSome = true := by
  refine ⟨_, rfl, ?_⟩
  have hnone' : (s.tookFrame lseq).u.pair.switch = none := hnone
  rw [Act.run_linkTake hup hturn, Act.run_read]
  dsimp only
  rw [State.pstate_tookFrame, hshadow, State.nearBeat_tookFrame, hnone', Act.run_when, if_pos (by rfl),
    Act.run_all_cons, Act.run_all_cons, Act.run_all_cons, Act.run_all_nil, Act.run_when, if_pos (by rfl)]
  rw [← and_assoc]
  refine ⟨?_, Act.roll_requestRoll _⟩
  refine State.PairPart.both Pair.lseqIn Pair.switch (State.PairPart.run ?_ .pairRequestRoll)
  exact State.PairPart.run rfl (.pairLinkSend fun _ _ _ _ _ => rfl)

/-- R493: the partner's answer. -/
theorem completes_switchAckReceived {x : Switch} (hswitch : s.u.pair.switch = some x) (hopen : x.acked = false)
    (hbeat : x.h = s.nearBeat beat.toNat) :
    Completes (.switchAckReceived lseq beat) s fun t =>
      t.u.pair.lseqIn = some ((lseq.toNat + 1) % 2 ^ 32) ∧ t.u.pair.switch = some { x with acked := true } := by
  refine ⟨_, rfl, ?_⟩
  have hswitch' : (s.tookFrame lseq).u.pair.switch = some x := hswitch
  rw [Act.run_linkTake hup hturn, Act.run_read, hswitch']
  dsimp only
  rw [State.nearBeat_tookFrame, hopen, ← hbeat, Act.run_when, if_pos (by rw [beq_self_eq_true]; rfl), Act.run_seq]
  exact State.PairPart.both Pair.lseqIn Pair.switch (State.PairPart.run rfl (.when .pairRequestRoll))

/-- R492: the partner's verdict is held. -/
theorem completes_arbReceived {verdict : Verdict} {score : BitVec 8} {a : Arb} (harb : s.u.pair.arb = some a) :
    Completes (.arbReceived lseq verdict score) s fun t =>
      t.u.pair.lseqIn = some ((lseq.toNat + 1) % 2 ^ 32) ∧
      t.u.pair.arb = some { a with partner := some (verdict, score.toNat) } := by
  refine ⟨_, rfl, ?_⟩
  have harb' : (s.tookFrame lseq).u.pair.arb = some a := harb
  rw [Act.run_linkTake hup hturn, Act.run_read, harb']
  dsimp only
  rw [Act.run_seq]
  exact State.PairPart.both Pair.lseqIn Pair.arb (State.PairPart.run rfl .pairArbHeld)

/-- R492: the partner yields. -/
theorem completes_yieldReceived :
    Completes (.yieldReceived lseq) s fun t =>
      t.u.pair.lseqIn = some ((lseq.toNat + 1) % 2 ^ 32) ∧ t.u.pair.own = [] ∧ t.u.pair.partner = [] := by
  refine ⟨_, rfl, ?_⟩
  rw [Act.run_linkTake hup hturn]
  exact ⟨rfl, rfl, rfl⟩

end

/-- R493: two beats without an answer cancel a switchover. -/
theorem completes_switchAckTimeout {x : Switch} (hswitch : s.u.pair.switch = some x) (hopen : x.acked = false)
    (hlate : x.sentAt + 2 ≤ s.u.bt.beat) :
    Completes .switchAckTimeout s fun t =>
      t.u.pair.switch = none ∧
      (x.cmd = true → t.fld PAIR_CMD_STAT_RESULT = 3 ∧ t.bit PAIR_CMD_STAT_BUSY = false) := by
  refine ⟨_, rfl, ?_⟩
  rw [hswitch]
  dsimp only
  rw [hopen, Nat.ble_eq_true_of_le hlate, Act.run_when, if_pos (by rfl), Act.switchCancel, Act.run_read, hswitch]
  dsimp only
  rw [Act.run_seq]
  refine ⟨State.PairPart.run (g := Pair.switch) rfl (.when <| .partWithin .pairResult), fun hcmd => ?_⟩
  rw [hcmd, Act.run_when, if_pos rfl, Act.pairResult, Act.run_seq]
  exact ⟨State.FldIs.run (Act.fldIs_setF PAIR_CMD_STAT_RESULT 3 _ rfl (by decide)) .fldApartB,
    (fldIs_setB PAIR_CMD_STAT_BUSY false _ rfl).bit⟩

/-- R493: in beat H the incoming unit claims the line. -/
theorem completes_switchoverAliveClaim (hincoming : s.pstate = 7) (hplanned : s.u.pair.takeover = none)
    (hhigh : s.bit PAIR_STATUS_ALIVE_LOW = false) :
    Completes .switchoverAliveClaim s fun t => t.bit PAIR_STATUS_ALIVE_DRV = true := by
  refine ⟨_, rfl, ?_⟩
  rw [hincoming, hplanned, hhigh, Act.run_when, if_pos (by rfl)]
  exact (fldIs_setB PAIR_STATUS_ALIVE_DRV true s rfl).bit

/-! ### Arbitration, takeover and sync (R479, R488, R491, R494, R498) -/

/-- R491: the second execution of the beat is done. -/
theorem completes_reexecutionDone {consistent : Bool} {a : Arb} (harb : s.u.pair.arb = some a)
    (hstart : a.start ≤ s.u.bt.beat) (hown : a.own = none) :
    Completes (.reexecutionDone consistent) s fun t =>
      t.u.pair.arb = some { a with own := some (if consistent then .consistent else .inconsistent, s.score) } := by
  refine ⟨_, rfl, ?_⟩
  rw [harb]
  dsimp only
  rw [Nat.ble_eq_true_of_le hstart, Act.run_when, if_pos rfl]
  exact Act.arb_arbSend harb hown _

/-- R491: the second execution took too long. -/
theorem completes_reexecutionDeadline {a : Arb} (harb : s.u.pair.arb = some a) (hlate : a.start + 3 ≤ s.u.bt.beat)
    (hown : a.own = none) :
    Completes .reexecutionDeadline s fun t => t.u.pair.arb = some { a with own := some (.inconclusive, s.score) } := by
  refine ⟨_, rfl, ?_⟩
  rw [harb]
  dsimp only
  rw [Nat.ble_eq_true_of_le hlate, Act.run_when, if_pos rfl]
  exact Act.arb_arbSend harb hown _

/-- R479: a unit alone claims the line at once as Unit A, and after its wait otherwise. -/
theorem completes_startClaim (hwaits : s.pstate = 3) (hhigh : s.bit PAIR_STATUS_ALIVE_LOW = false)
    (hrun : s.bit BT_STATUS_RUNNING = true) (halone : s.bit PAIR_STATUS_TETHER_OK = false)
    (hturn : s.bit PAIR_STATUS_ROLE_A = true ∨ s.fld PAIR_TIMING_BOOT_WAIT_S ≤ s.u.pair.quiet) :
    Completes .startClaim s fun t => t.bit PAIR_STATUS_ALIVE_DRV = true ∧ t.u.pair.next = some 1 := by
  refine ⟨_, rfl, ?_⟩
  have hturn' : (s.bit PAIR_STATUS_ROLE_A || Nat.ble (s.fld PAIR_TIMING_BOOT_WAIT_S) s.u.pair.quiet) = true := by
    rw [Bool.or_eq_true, Nat.ble_eq]
    exact hturn
  dsimp only
  rw [hwaits, hhigh, hrun, halone, if_pos (by rfl), hturn', Act.run_when, if_pos (by rfl), Act.run_seq]
  exact ⟨(State.FldIs.run (fldIs_setB PAIR_STATUS_ALIVE_DRV true s rfl) .fldUnits).bit, rfl⟩

/-- What a takeover stages (R478, R494). -/
def TakesOver (s t : State) : Prop :=
  (t.u.pair.takeover = some s.u.pair.lastRec ∧ t.u.pair.switch = none) ∧ t.u.pair.next = some 7 ∧
    t.u.sec.roll.isSome = true

theorem TakesOver.of_requestRoll {r : State} (h : r.u.pair.takeover = some s.u.pair.lastRec ∧ r.u.pair.switch = none) :
    TakesOver s ((Act.pairNext 7).run (Act.requestRoll.run r)) := by
  refine ⟨?_, rfl, Act.roll_requestRoll r⟩
  exact State.PairPart.both Pair.takeover Pair.switch
    ((State.PairPart.run (s := r) (Prod.ext h.1 h.2) .pairRequestRoll).run .pairPair)

/-- R494: the standby decides to take over. -/
theorem completes_takeoverDecision (hshadow : s.pstate = 5) (hlost : s.bit PAIR_STATUS_TETHER_OK = false)
    (hhigh : s.bit PAIR_STATUS_ALIVE_LOW = false) (hnone : s.u.pair.takeover = none) :
    Completes .takeoverDecision s fun t =>
      t.u.pair.takeover = some s.u.pair.lastRec ∧ t.u.pair.switch = none ∧ t.u.pair.next = some 7 ∧
      t.u.sec.roll.isSome = true := by
  refine ⟨_, rfl, ?_⟩
  rw [hshadow, hlost, hhigh, hnone, Act.run_when, if_pos (by rfl)]
  obtain ⟨⟨htake, hswitch⟩, hnext, hroll⟩ := TakesOver.of_requestRoll (s := s) (r := (Act.faultClass 17).run
    ((Act.pair fun p => { p with takeover := some p.lastRec, switch := none }).run s)) ⟨rfl, rfl⟩
  exact ⟨htake, hswitch, hnext, hroll⟩

/-- R478: a detached unit takes over a line that is not held. -/
theorem completes_staleTakeoverExpiry (hdetached : s.pstate = 6) (hstale : s.bit PAIR_CFG_STALE_TAKEOVER = true)
    (hhigh : s.bit PAIR_STATUS_ALIVE_LOW = false) (hnone : s.u.pair.takeover = none) :
    Completes .staleTakeoverExpiry s fun t =>
      t.u.pair.takeover = some s.u.pair.lastRec ∧ t.u.pair.next = some 7 ∧ t.u.sec.roll.isSome = true := by
  refine ⟨_, rfl, ?_⟩
  rw [hdetached, hstale, hhigh, hnone, Act.run_when, if_pos (by rfl)]
  obtain ⟨⟨htake, -⟩, hnext, hroll⟩ := TakesOver.of_requestRoll (s := s)
    (r := (Act.pair fun p => { p with takeover := some p.lastRec, switch := none }).run s) ⟨rfl, rfl⟩
  exact ⟨htake, hnext, hroll⟩

/-- R488: a sync that takes 120 s fails. -/
theorem completes_syncTimeout {b : Nat} (hjoins : s.pstate = 4) (hsync : s.u.pair.syncAt = some b)
    (hlate : b + 120000 ≤ s.u.bt.beat) :
    Completes .syncTimeout s fun t =>
      t.u.pair.syncAt = none ∧ t.u.pair.syncFrom = none ∧ t.u.pair.retryAt = some (s.u.bt.beat + 10000) := by
  refine ⟨_, rfl, ?_⟩
  rw [hjoins, hsync]
  dsimp only
  rw [Nat.ble_eq_true_of_le hlate, Act.run_when, if_pos (by rfl)]
  obtain ⟨hat, hrest⟩ := Prod.mk.inj (Act.pair_syncFail s)
  exact ⟨hat, Prod.mk.inj hrest⟩

/-- R488: a failed sync is tried again. -/
theorem completes_syncRetryExpiry {b : Nat} (hretry : s.u.pair.retryAt = some b) (hdue : b ≤ s.u.bt.beat) :
    Completes .syncRetryExpiry s fun t => t.u.pair.retryAt = none ∧ t.u.pair.syncAt = some s.u.bt.beat := by
  refine ⟨_, rfl, ?_⟩
  rw [hretry]
  dsimp only
  rw [Nat.ble_eq_true_of_le hdue, Act.run_when, if_pos rfl, Act.run_seq]
  exact State.PairPart.both Pair.retryAt Pair.syncAt
    (State.PairPart.run rfl (.when <| .pairHelloSend fun _ _ _ _ _ => rfl))

/-- R498: a good hold ends in a switchover back. -/
theorem completes_reclaimHoldExpiry (hrevertive : s.bit PAIR_CFG_REVERTIVE = true) (hruns : s.u.pair.holdRuns = true)
    (hover : s.u.pair.holdS = 0) (hgood : Act.holdGood s = true) (hnone : s.u.pair.switch = none) :
    Completes .reclaimHoldExpiry s fun t =>
      t.u.pair.holdRuns = false ∧
      (t.u.pair.switch.map fun w => (w.incoming, w.acked, w.cause)) = some (true, false, 4) := by
  refine ⟨_, rfl, ?_⟩
  rw [hrevertive, hruns, hover, hgood, Act.run_when, if_pos (by rfl), Act.run_seq]
  have hswitch := Act.switch_startSwitch (s := (Act.pair fun p => { p with holdRuns := false }).run s) hnone 4 false
  refine ⟨?_, ?_⟩
  · refine State.PairPart.run (g := Pair.holdRuns) rfl (.read fun _ => .when ?_)
    exact .read fun _ => .seq .partUnits <| .seq (.pairLinkSend fun _ _ _ _ _ => rfl) .pairPair
  · obtain ⟨w, hw, heq⟩ := Option.map_eq_some_iff.1 hswitch
    rw [hw]
    simp only [Prod.mk.injEq] at heq
    obtain ⟨hin, hacked, -, hcause⟩ := heq
    rw [Option.map_some, hin, hacked, hcause]
    rfl

end

/-- Settles O36: each event of the pair stages its step, and what follows it leaves that step. -/
theorem pairingAndSwitchovers : Obligations.PairingAndSwitchovers :=
  ⟨fun _ _ _ hup hturn => completes_helloReceived hup hturn, fun _ _ _ => completes_switchReceived, fun _ _ _ _ hup hturn => completes_switchAckReceived hup hturn,
    fun _ _ => completes_switchAckTimeout, fun _ => completes_switchoverAliveClaim,
    fun _ _ _ _ _ hup hturn => completes_arbReceived hup hturn, fun _ _ => completes_yieldReceived,
    fun _ _ _ => completes_reexecutionDone, fun _ _ => completes_reexecutionDeadline, fun _ => completes_startClaim,
    fun _ => completes_takeoverDecision, fun _ => completes_staleTakeoverExpiry, fun _ _ => completes_syncTimeout,
    fun _ _ => completes_syncRetryExpiry, fun _ => completes_reclaimHoldExpiry⟩

end Sys2Proof.Machine

namespace Sys2Proof.Machine

set_option Elab.async false

open Sys2Proof Sys2Proof.Reg

/-! ### PAIR_CMD, the role override and the digest request (R505–R509) -/

section

variable {s : State} {iface : HostIface}

theorem Act.pairCmd_started (s : State) : State.FldIs PAIR_CMD_STAT_RESULT 0 ((setF PAIR_CMD_STAT_RESULT 0).run s) :=
  fldIs_setF _ _ _ rfl (by decide)

theorem State.pstate_pairCmd (s : State) : ((Act.setF PAIR_CMD_STAT_RESULT 0).run s).pstate = s.pstate :=
  Act.fld_setF_apart _ _ _ _ (by rfl) (by decide) (by decide)

/-- R507: the halves of the digests, posted one after the other. -/
theorem Act.posted_halves (f g : Nat → Word) (s : State) :
    State.RegIs (PAIR_DIG_OWNx 0) (f 0) ((each (List.range 6) fun i =>
      .seq (.reg (PAIR_DIG_OWNx i) (f i)) (.reg (PAIR_DIG_PARTx i) (g i))).run s) ∧
    State.RegIs (PAIR_DIG_PARTx 0) (g 0) ((each (List.range 6) fun i =>
      .seq (.reg (PAIR_DIG_OWNx i) (f i)) (.reg (PAIR_DIG_PARTx i) (g i))).run s) := by
  have later {x : Nat} {w : Word} (i : Nat) (hown : PAIR_DIG_OWNx i ≠ x) (hpart : PAIR_DIG_PARTx i ≠ x) :
      Keeps (State.RegIs x w) (.seq (.reg (PAIR_DIG_OWNx i) (f i)) (.reg (PAIR_DIG_PARTx i) (g i))) :=
    .seq (.regNe hown) (.regNe hpart)
  constructor
  · refine run_all_set [] [_, _, _, _, _] (fun s => (regIs_reg rfl _ s).run (.regNe (by decide))) (.all ?_) s
    exact ⟨later 1 (by decide) (by decide), later 2 (by decide) (by decide), later 3 (by decide) (by decide),
      later 4 (by decide) (by decide), later 5 (by decide) (by decide)⟩
  · refine run_all_set (P := State.RegIs (PAIR_DIG_PARTx 0) (g 0)) (a := .seq (.reg (PAIR_DIG_OWNx 0) (f 0)) (.reg (PAIR_DIG_PARTx 0) (g 0)))
      [] [_, _, _, _, _] (fun _ => regIs_reg rfl ..) (.all ?_) s
    exact ⟨later 1 (by decide) (by decide), later 2 (by decide) (by decide), later 3 (by decide) (by decide),
      later 4 (by decide) (by decide), later 5 (by decide) (by decide)⟩

section

variable (hreach : s.reaches iface = true) (hpermit : s.permits PAIR_CMD = true)
  (hidle : s.bit PAIR_CMD_STAT_BUSY = false)
include hreach hpermit hidle

/-- R508: a command that the state allows. -/
theorem Act.run_pairCmd {allowed : State → Bool} (hallowed : allowed s = true) (go : Act) :
    (pairCmd iface allowed go).run s = go.run ((setF PAIR_CMD_STAT_RESULT 0).run s) := by
  rw [pairCmd, run_permitted hreach hpermit, run_read, hidle, if_neg Bool.false_ne_true, if_pos hallowed, run_seq]

/-- R508: SWITCH. -/
theorem completes_pairSwitch (hlead : s.pstate = 2) (hnone : s.u.pair.switch = none) :
    Completes (.pairSwitch iface) s fun t =>
      t.bit PAIR_CMD_STAT_BUSY = true ∧
      (t.u.pair.switch.map fun w => (w.incoming, w.acked, w.cmd, w.cause)) = some (false, false, true, 1) := by
  refine ⟨_, rfl, ?_⟩
  rw [Act.pairSwitch, Act.run_pairCmd hreach hpermit hidle (by rw [hlead]; rfl), Act.run_read, Act.setF_u, hnone,
    if_neg (by decide), Act.run_seq]
  refine ⟨(State.FldIs.run (fldIs_setB PAIR_CMD_STAT_BUSY true _ rfl) (.fld .startSwitch rfl)).bit, ?_⟩
  exact Act.switch_startSwitch (by rw [Act.setB, Act.setF_u, Act.setF_u, hnone]) 1 true

/-- R508: RESYNC. -/
theorem completes_pairResync (hshadow : s.pstate = 5) :
    Completes (.pairResync iface) s fun t =>
      t.u.pair.next = some 4 ∧ t.u.pair.barred = false ∧ t.fld PAIR_CMD_STAT_RESULT = 0 := by
  refine ⟨_, rfl, ?_⟩
  rw [Act.pairResync, Act.run_pairCmd hreach hpermit hidle (by rw [hshadow]; rfl), Act.run_read,
    State.pstate_pairCmd, if_pos hshadow]
  exact ⟨rfl, rfl, Act.pairCmd_started s⟩

/-- R498, R508: HOLD_RECLAIM. -/
theorem completes_pairHoldReclaim (hpaired : s.paired = true) :
    Completes (.pairHoldReclaim iface) s fun t =>
      t.u.pair.holdS = (if s.u.pair.holdRuns then s.fld PAIR_TIMING_RECLAIM_HOLD_S else 0) ∧
      t.fld PAIR_CMD_STAT_RESULT = 0 := by
  refine ⟨_, rfl, ?_⟩
  have hlength : ((Act.setF PAIR_CMD_STAT_RESULT 0).run s).fld PAIR_TIMING_RECLAIM_HOLD_S =
      s.fld PAIR_TIMING_RECLAIM_HOLD_S := Act.fld_setF_apart _ _ _ _ (by rfl) (by decide) (by decide)
  rw [Act.pairHoldReclaim, Act.run_pairCmd hreach hpermit hidle hpaired]
  refine ⟨?_, State.FldIs.run (Act.pairCmd_started s) (.fld .holdRestart rfl)⟩
  rw [Act.holdRestart, Act.run_read, Act.run_seq, Act.run_read, Act.setF_u, hlength, Act.pair, Act.run_units]
  dsimp only
  rw [Act.setF_u]

/-- R508: DETACH. -/
theorem completes_pairDetach (hshadow : s.pstate = 5) :
    Completes (.pairDetach iface) s fun t =>
      t.u.pair.next = some 6 ∧ t.u.pair.barred = true ∧ t.fld PAIR_CMD_STAT_RESULT = 0 := by
  refine ⟨_, rfl, ?_⟩
  rw [Act.pairDetach, Act.run_pairCmd hreach hpermit hidle (by rw [hshadow]; rfl), Act.run_read,
    State.pstate_pairCmd, hshadow, if_neg (by decide), if_pos (.inl rfl)]
  exact ⟨rfl, rfl, Act.pairCmd_started s⟩

end

/-- R509: the guarded override of the role. -/
theorem completes_pairRoleOvr (hreach : s.reaches iface = true) (hpermit : s.permits PAIR_ROLE_OVR = true)
    (harmed : s.armed PAIR_ROLE_OVR = some 0x5A5A0011) :
    Completes (.pairRoleOvr iface (~~~0x5A5A0011)) s fun t =>
      t.u.pair.roleOvr = some true ∧ t.bit PAIR_STATUS_ROLE_A = true ∧ t.fld (guardResult PAIR_ROLE_OVR) = grdAccepted := by
  refine ⟨_, rfl, ?_⟩
  rw [Act.pairRoleOvr, Act.run_reached hreach, Act.run_guardComplement harmed (by rfl) hpermit, Act.run_read, Act.run_seq]
  refine ⟨?_, (fldIs_setB PAIR_STATUS_ROLE_A true _ rfl).bit, ?_⟩
  · exact State.PairPart.run (g := Pair.roleOvr) rfl .partSetB
  · exact (State.FldIs.run (Act.fldIs_setF (guardResult PAIR_ROLE_OVR) grdAccepted _ rfl (by decide)) .fldUnits).run
      (.fldSetFOther (by decide))

/-- R507: the digests compared last are posted. -/
theorem completes_pairDigReq {value : BitVec 32} {a b : DigestSet} (hreach : s.reaches iface = true)
    (hpermit : s.permits PAIR_DIG_REQ = true) (hcompared : s.u.pair.compared = some (a, b)) :
    Completes (.pairDigReq iface value) s fun t =>
      t.reg PAIR_DIG_BEAT = BitVec.ofNat 32 a.beat ∧ t.reg (PAIR_DIG_OWNx 0) = BitVec.ofNat 32 (a.streams.getD 0 0) ∧
      t.reg (PAIR_DIG_PARTx 0) = BitVec.ofNat 32 (b.streams.getD 0 0) ∧
      t.reg PAIR_DIG_REQ = (storedValue PAIR_DIG_REQ value ||| 0x80000000) := by
  refine ⟨_, rfl, ?_⟩
  rw [Act.pairDigReq, Act.run_permitted hreach hpermit, Act.run_read]
  dsimp only
  rw [hcompared]
  dsimp only
  have hhalf (d : DigestSet) : BitVec.ofNat 32 (d.streams.getD (0 / 2) 0 / 2 ^ (32 * (0 % 2))) =
      BitVec.ofNat 32 (d.streams.getD 0 0) := by simp
  have hown (i : Nat) : PAIR_DIG_OWNx i ≠ PAIR_DIG_BEAT := by simp only [PAIR_DIG_OWNx, PAIR_DIG_BEAT]; omega
  have hpart (i : Nat) : PAIR_DIG_PARTx i ≠ PAIR_DIG_BEAT := by simp only [PAIR_DIG_PARTx, PAIR_DIG_BEAT]; omega
  refine ⟨?_, ?_, ?_, ?_⟩
  · exact Act.run_all_set (P := State.RegIs PAIR_DIG_BEAT (BitVec.ofNat 32 a.beat)) [] [_, _] (Act.regIs_reg rfl _)
      (.all ⟨.each fun i => .seq (.regNe (hown i)) (.regNe (hpart i)), .regNe⟩) s
  · rw [← hhalf]
    exact Act.run_all_set [_] [_] (fun s => (Act.posted_halves _ _ s).1) (.all (l := [_]) .regNe) s
  · rw [← hhalf]
    exact Act.run_all_set [_] [_] (fun s => (Act.posted_halves _ _ s).2) (.all (l := [_]) .regNe) s
  · exact Act.run_all_set (P := State.RegIs PAIR_DIG_REQ _) [_, _] [] (Act.regIs_reg rfl _) .nop s

end

end Sys2Proof.Machine

namespace Sys2Proof.Machine

set_option Elab.async false

open Sys2Proof Sys2Proof.Reg

/-! ### Self-tests (R500) -/

/-- A run of a self-test is counted, and its failure too. -/
def Tested (pass : Bool) (s t : State) : Prop :=
  t.reg PAIR_BIST_RUNS = s.reg PAIR_BIST_RUNS + 1 ∧
    (pass = false → t.reg PAIR_SELFTEST_FAIL = satNext (s.reg PAIR_SELFTEST_FAIL))

/-- What a program leaves where the self-tests count. -/
def Act.LeavesTests (a : Act) : Prop :=
  ∀ w, Keeps (State.RegIs PAIR_BIST_RUNS w) a ∧ Keeps (State.RegIs PAIR_SELFTEST_FAIL w) a

namespace Act.LeavesTests

theorem units {f : Units → Units} : LeavesTests (.units f) := fun _ => ⟨.regUnits, .regUnits⟩

theorem nop : LeavesTests .nop := fun _ => ⟨.nop, .nop⟩

theorem all {l : List Act} (h : l.Forall LeavesTests) : LeavesTests (Act.all l) := fun w => by
  have hmem := List.forall_iff_forall_mem.1 h
  exact ⟨.all (List.forall_iff_forall_mem.2 fun a ha => (hmem a ha w).1),
    .all (List.forall_iff_forall_mem.2 fun a ha => (hmem a ha w).2)⟩

theorem stores {R : Reach} {a : Act} (h : Act.Stores R a) (hruns : R.has PAIR_BIST_RUNS = false := by decide +kernel)
    (hfail : R.has PAIR_SELFTEST_FAIL = false := by decide +kernel) : LeavesTests a :=
  fun _ => ⟨.regStores h hruns, .regStores h hfail⟩

theorem within {R : Reach} {a : Act} (h : Act.Within R a) (hruns : R.has PAIR_BIST_RUNS = false := by decide +kernel)
    (hfail : R.has PAIR_SELFTEST_FAIL = false := by decide +kernel) : LeavesTests a := stores h.stores hruns hfail

end Act.LeavesTests

theorem Tested.run {pass : Bool} {s t : State} {a : Act} (h : Tested pass s t) (ha : a.LeavesTests) :
    Tested pass s (a.run t) :=
  ⟨State.RegIs.run h.1 (ha _).1, fun hpass => State.RegIs.run (h.2 hpass) (ha _).2⟩

theorem Tested.of_run {pass : Bool} {s t : State} {a : Act} (h : Tested pass (a.run s) t) (ha : a.LeavesTests) :
    Tested pass s t := by
  rwa [Tested, (ha _).1 s rfl, (ha _).2 s rfl] at h

/-- R500: one run of a self-test. -/
theorem Act.tested_selfTestRun {row : Nat} {pass : Bool} {bad : Act} (hbad : bad.LeavesTests) (s : State) :
    Tested pass s ((selfTestRun row pass bad).run s) := by
  have hcount := regIs_wrap (x := PAIR_BIST_RUNS) (s := s) rfl rfl
  have hfails : State.RegIs PAIR_SELFTEST_FAIL (s.reg PAIR_SELFTEST_FAIL) ((wrap PAIR_BIST_RUNS).run s) :=
    State.RegIs.run rfl .regWrap
  rw [selfTestRun, run_seq, run_when]
  cases pass with
  | true => exact ⟨hcount, nofun⟩
  | false =>
    rw [Bool.not_false, if_pos rfl, run_all_cons]
    refine Tested.run ⟨hcount.run .regSat, fun _ => ?_⟩ (.all (l := [_, _, _]) ⟨.units,
      .within (R := .events [] []) .raise, hbad⟩)
    rw [reg_sat rfl, hfails]

section

variable {s : State} {pass : Bool}

/-- R47, R500: logic BIST ends well. -/
theorem completes_logicBistDone {pe : Fin 16} (hbist : (s.engine pe).bist = true) :
    Completes (.logicBistDone pe true) s fun t =>
      (t.engine pe).bist = false ∧ t.reg PAIR_BIST_RUNS = s.reg PAIR_BIST_RUNS + 1 ∧
      t.fld (BT_ENG_STATE_n pe) = engServing := by
  refine ⟨_, rfl, ?_⟩
  have hroles : Act.LeavesTests Act.rolesFollow := .within .rolesFollow
  have hstate : Act.LeavesTests (Act.setF (BT_ENG_STATE_n pe) engServing) :=
    .within (R := .quiet [(BT_ENG_STATE, 1)] []) .setF
  have hsmall : Nat.ble ((BT_ENG_STATE_n pe).lo + (BT_ENG_STATE_n pe).width) 32 = true := by
    have hpe := pe.isLt
    rw [Nat.ble_eq]
    change 2 * pe.val + 2 ≤ 32
    omega
  rw [hbist, Act.run_when, if_pos rfl, Act.run_seq, Act.run_when, if_pos rfl, Act.run_all_cons, Act.run_all_cons,
    Act.run_all_cons, Act.run_all_nil]
  refine ⟨?_, ?_, ?_⟩
  · obtain ⟨x, hx⟩ := Act.engine_rolesFollow ((Act.setF (BT_ENG_STATE_n pe) engServing).run
      ((Act.engine pe fun e => { e with bist := false }).run ((Act.selfTestRun 1 true (Act.engineFault pe 8)).run s))) pe
    rw [hx, State.engine, Act.setF_u, Act.engine, Act.bt, Act.run_units]
    dsimp only
    rw [Store.getD_setD, if_pos rfl]
  · exact (((Act.tested_selfTestRun (row := 1) (pass := true) .nop s).run .units).run hstate).run hroles |>.1
  · exact State.FldIs.run (Act.fldIs_setF _ _ _ rfl (show 1 < 2 ^ 2 by decide) hsmall) (.fld .rolesFollow rfl)

/-- A list without a member, and with it again where a test failed. -/
theorem contains_out (l : List Nat) (k : Nat) :
    (if pass then l.filter fun j => !(j == k) else (l.filter fun j => !(j == k)) ++ [k]).contains k = !pass := by
  cases pass <;> simp

/-- R500: an LDPC core's test. -/
theorem completes_ldpcKat {core : Fin 8} (hmode : s.mode.runs = true) :
    Completes (.ldpcKat core pass) s fun t =>
      t.reg PAIR_BIST_RUNS = s.reg PAIR_BIST_RUNS + 1 ∧
      (pass = false → t.reg PAIR_SELFTEST_FAIL = satNext (s.reg PAIR_SELFTEST_FAIL)) ∧
      t.u.pair.ldpcOut.contains core.val = !pass := by
  refine ⟨_, rfl, ?_⟩
  rw [hmode, Act.run_when, if_pos rfl, Act.run_seq, Act.run_seq]
  have htested := ((Act.tested_selfTestRun (row := 3) (pass := pass) .nop s).run
    (.units (f := fun u => { u with pair := { u.pair with ldpcOut :=
      let rest := u.pair.ldpcOut.filter fun k => !(k == core.val)
      if pass then rest else rest ++ [core.val] } }))).run (.within .poolStat)
  refine ⟨htested.1, htested.2, ?_⟩
  exact State.PairPart.run (g := fun p => p.ldpcOut.contains core.val) (contains_out ..) (.partWithin .poolStat)

/-- R500: a cipher core's test. -/
theorem completes_cipherKat {core : Fin 8} (hmode : s.mode.runs = true) :
    Completes (.cipherKat core pass) s fun t =>
      t.reg PAIR_BIST_RUNS = s.reg PAIR_BIST_RUNS + 1 ∧
      (pass = false → t.reg PAIR_SELFTEST_FAIL = satNext (s.reg PAIR_SELFTEST_FAIL)) ∧
      t.u.pair.aesOut.contains core.val = !pass := by
  refine ⟨_, rfl, ?_⟩
  rw [hmode, Act.run_when, if_pos rfl, Act.run_seq]
  obtain ⟨hruns, hfails⟩ := Act.tested_selfTestRun (row := 4) (pass := pass) .nop s
  exact ⟨hruns, hfails, contains_out ..⟩

/-- R500: the test of signatures. -/
theorem completes_ecdsaKat (hmode : s.mode.runs = true) :
    Completes (.ecdsaKat pass) s fun t =>
      t.reg PAIR_BIST_RUNS = s.reg PAIR_BIST_RUNS + 1 ∧
      (pass = false → t.reg PAIR_SELFTEST_FAIL = satNext (s.reg PAIR_SELFTEST_FAIL)) ∧ t.u.pair.ecdsaBad = !pass := by
  refine ⟨_, rfl, ?_⟩
  rw [hmode, Act.run_when, if_pos rfl, Act.run_seq]
  obtain ⟨hruns, hfails⟩ := Act.tested_selfTestRun (row := 5) (pass := pass) .nop s
  exact ⟨hruns, hfails, rfl⟩

/-- R500: a chain that fails its loopback. -/
theorem Act.state_radioFail (chain : Chain) (s : State) : ((radioFail chain).run s).txState chain = stFault := by
  refine run_all_set (P := State.FldIs (RFx_TXn_STAT_STATE chain.port chain.n) stFault) [_] [_, _] (fun s => ?_)
    (.all ⟨.fldUnits, .fld .rfEvent (by cases chain <;> rfl)⟩) s
  rw [txSetState, run_seq]
  refine State.FldIs.run (fldIs_setF _ _ _ (by cases chain <;> rfl) (show 5 < 2 ^ 3 by decide)) (.fld .txOn ?_)
  cases chain <;> rfl

theorem Act.leavesTests_radioFail (chain : Chain) : LeavesTests (radioFail chain) := by
  have hoff : LeavesTests (txOff chain) := fun _ => ⟨.regTxOff rfl, .regTxOff rfl⟩
  exact .all ⟨hoff, .within .txSetState, .units, .within .rfEvent⟩

/-- R500: a chain's loopback. -/
theorem completes_radioLoopback {chain : Chain} (hmode : s.mode.runs = true) :
    Completes (.radioLoopback chain pass) s fun t =>
      t.reg PAIR_BIST_RUNS = s.reg PAIR_BIST_RUNS + 1 ∧
      (pass = false → t.reg PAIR_SELFTEST_FAIL = satNext (s.reg PAIR_SELFTEST_FAIL)) ∧
      (pass = false → t.txState chain = stFault) := by
  refine ⟨_, rfl, ?_⟩
  rw [hmode, Act.run_when, if_pos rfl, Act.run_seq]
  obtain ⟨hruns, hfails⟩ := (Act.tested_selfTestRun (row := 6) (pass := pass) (Act.leavesTests_radioFail chain)
    ((Act.recordInput 0x10).run s)).of_run (.within .recordInput)
  refine ⟨hruns, hfails, fun hpass => ?_⟩
  rw [hpass, Act.selfTestRun, Act.run_seq]
  exact Act.state_radioFail chain _

theorem Act.leavesTests_tamper (cause : Nat) : LeavesTests (tamper cause) := by
  have hcount : LeavesTests (sat SEC_TAMPER_CNT) := .within (R := .quiet [(SEC_TAMPER_CNT, 1)] []) .sat
  have hlatch : LeavesTests (latchTamper cause) := .within .latchTamper
  have hzero : LeavesTests zeroise := .stores .zeroise
  have hhold : LeavesTests holdEntry := .stores .holdEntry
  have herase : LeavesTests eraseKeyArea := .within .eraseKeyArea
  exact fun w => ⟨.tamper (hcount w).1 (hlatch w).1 (hzero w).1 (hhold w).1 (herase w).1,
    .tamper (hcount w).2 (hlatch w).2 (hzero w).2 (hhold w).2 (herase w).2⟩

/-- R396: a cause in a mode that runs enters HOLD. -/
theorem Act.mode_tamper_of_runs {s : State} (hmode : s.mode.runs = true) (cause : Nat) :
    ((tamper cause).run s).mode = .hold := by
  have hnot {m : Mode} (hm : m.runs = false) : s.mode ≠ m := fun h => by
    rw [h, hm] at hmode
    cases hmode
  rw [tamper, run_read]
  split
  next h => exact absurd h (hnot rfl)
  next h => exact absurd h (hnot rfl)
  next h => exact absurd h (hnot rfl)
  next h => exact absurd h (hnot rfl)
  next => exact (zeroised_zeroiseHold _).2

/-- R500: the check of the voters. -/
theorem completes_voterCheck (hmode : s.mode.runs = true) :
    Completes (.voterCheck pass) s fun t =>
      t.reg PAIR_BIST_RUNS = s.reg PAIR_BIST_RUNS + 1 ∧
      (pass = false → t.reg PAIR_SELFTEST_FAIL = satNext (s.reg PAIR_SELFTEST_FAIL)) ∧
      (pass = false → t.mode = .hold) := by
  refine ⟨_, rfl, ?_⟩
  rw [hmode, Act.run_when, if_pos rfl]
  obtain ⟨hruns, hfails⟩ := Act.tested_selfTestRun (row := 7) (pass := pass) (Act.leavesTests_tamper 7) s
  refine ⟨hruns, hfails, fun hpass => ?_⟩
  rw [hpass, Act.selfTestRun, Act.run_seq, Act.run_when, Bool.not_false, if_pos rfl, Act.run_all_cons, Act.run_all_cons,
    Act.run_all_cons, Act.run_all_cons, Act.run_all_nil]
  refine Act.mode_tamper_of_runs ?_ 7
  have hkept : State.ModeIs s.mode _ := State.ModeIs.run (s := s) rfl (.all (l := [Act.wrap PAIR_BIST_RUNS,
    Act.sat PAIR_SELFTEST_FAIL, Act.pair fun p => { p with lastFault := 8 }, Act.raise 109 (leBytes 1 7)])
    ⟨.modeWithin (R := .quiet [(PAIR_BIST_RUNS, 1)] []) .wrap,
      .modeWithin (R := .quiet [(PAIR_SELFTEST_FAIL, 1)] []) .sat, .modeUnits,
      .modeWithin (R := .events [] []) .raise⟩)
  exact (congrArg Mode.runs hkept).trans hmode

end

/-- Settles O37: a command that is allowed does its step, and a self-test that ends is counted before what follows
from it. -/
theorem pairCommandsAndSelfTest : Obligations.PairCommandsAndSelfTest :=
  ⟨fun _ _ => completes_pairSwitch, fun _ _ => completes_pairResync, fun _ _ => completes_pairHoldReclaim,
    fun _ _ => completes_pairDetach, fun _ _ => completes_pairRoleOvr, fun _ _ _ _ _ => completes_pairDigReq,
    fun _ _ => completes_logicBistDone, fun _ _ _ => completes_ldpcKat, fun _ _ _ => completes_cipherKat,
    fun _ _ => completes_ecdsaKat, fun _ _ _ => completes_radioLoopback, fun _ _ => completes_voterCheck⟩

end Sys2Proof.Machine

namespace Sys2Proof.Machine

set_option Elab.async false

open Sys2Proof Sys2Proof.Reg

/-! ### Programs that complete commands of the ring

`Act.Rings` says of a program what `Act.Within` says, but that it may also write the journal, the completion ring and
its result blocks (R611, R613, R623). -/

/-- Where the command ring, the completion ring and the journal stand. -/
def hostBases : List (Nat × Nat) := [(HIF_JRN_BASE, 1), (HIF_CPL_BASE, 1), (HIF_CMD_BASE, 1)]

namespace Reach

/-- The reach of a program that completes commands of the ring. -/
abbrev ring (l : List (Nat × Nat)) (us : List UnitName) : Reach :=
  ⟨l ++ ringRegs ++ eventRegs, .bt :: .evt :: .hif :: .pair :: us, true⟩

/-- The registers of a reach but for those that say where the host's rings stand. -/
def writes (R : Reach) (a : Nat) : Bool := R.has a && !inSpans hostBases a

/-- The event rings stand where they stood for a program that keeps to a reach. -/
theorem inEventRings_stable {R : Reach} {s t : State} (h : ∀ a, R.has a = false → t.reg a = s.reg a) :
    t.inEventRings = s.inEventRings := by
  have hmem := Foot.stable { R with raises := true }.foot h
  funext a
  simpa [foot] using congrFun hmem a

/-- The host's rings stand where they stood while the registers that say so keep their values. -/
theorem inHostRings_stable {s t : State} (h : ∀ a, inSpans hostBases a = true → t.reg a = s.reg a) :
    t.inHostRings = s.inHostRings := by
  funext a
  rw [State.inHostRings, h HIF_JRN_BASE (by decide +kernel), h HIF_CPL_BASE (by decide +kernel),
    h HIF_CMD_BASE (by decide +kernel), State.inHostRings]

/-- What a program of a reach may touch, where it may also write the host's rings. -/
def ringed (R : Reach) : Foot where
  regs := R.writes
  mem s a := s.inEventRings a || s.inHostRings a
  units := Units.Keeps R.units
  refl := .refl R.units
  trans := .trans
  stable := fun h => by
    rw [inEventRings_stable (R := R) fun a ha => h a (by simp [writes, ha]),
      inHostRings_stable fun a ha => h a (by simp [writes, ha])]

variable {R R' : Reach}

theorem writes_mono (h : R.sub R' = true) {a : Nat} (ha : R.writes a = true) : R'.writes a = true := by
  obtain ⟨hhas, hbase⟩ := Bool.and_eq_true_iff.1 ha
  exact Bool.and_eq_true_iff.2 ⟨has_mono h hhas, hbase⟩

theorem writes_of_has (hb : apart hostBases R.spans = true) {a : Nat} (ha : R.has a = true) : R.writes a = true := by
  have hspan := (Bool.and_eq_true_iff.1 ha).1
  rw [writes, ha, inSpans_of_apart hb hspan]
  rfl

end Reach

/-- A program stays within a reach, but for what it writes in the host's rings. -/
def Act.Rings (R : Reach) (a : Act) : Prop := a.Fits R.ringed

namespace Act.Rings

variable {R R' : Reach}

theorem sub {a : Act} (h : Rings R a) (hs : R.sub R' = true := by decide +kernel) : Rings R' a := fun s => by
  refine ⟨fun x hx => (h s).reg x ?_, (h s).byte, (h s).units.mono (Reach.sub_iff.1 hs).2.1⟩
  exact Bool.eq_false_iff.2 fun hb => Bool.eq_false_iff.1 hx (Reach.writes_mono hs hb)

theorem within {a : Act} (h : Within R a) (hs : R.sub R' = true := by decide +kernel)
    (hb : Reach.apart hostBases R.spans = true := by decide +kernel) : Rings R' a := by
  refine sub (fun s => ⟨fun x hx => (h.fits s).reg x ?_, fun x hx => (h.fits s).byte x ?_, (h.fits s).units⟩) hs
  · exact Bool.eq_false_iff.2 fun ha => Bool.eq_false_iff.1 hx (Reach.writes_of_has hb ha)
  · have hring : s.inEventRings x = false := (Bool.or_eq_false_iff.1 hx).1
    exact Bool.and_eq_false_iff.2 (.inr hring)

theorem nop : Rings R .nop := Fits.nop
theorem seq {a b : Act} (ha : Rings R a) (hb : Rings R b) : Rings R (.seq a b) := Fits.seq ha hb
theorem read {k : State → Act} (h : ∀ s, Rings R (k s)) : Rings R (.read k) := Fits.read h
theorem ite {c : Prop} [Decidable c] {a b : Act} (ha : Rings R a) (hb : Rings R b) :
    Rings R (if c then a else b) := Fits.ite ha hb
theorem when {c : Bool} {a : Act} (h : Rings R a) : Rings R (Act.when c a) := Fits.when h
theorem all {l : List Act} (h : l.Forall (Rings R)) : Rings R (Act.all l) := Fits.all (List.forall_iff_forall_mem.1 h)
theorem setF {f : Field} {v : Nat} (h : R.writes f.reg = true := by rfl) : Rings R (Act.setF f v) := Fits.setF h
theorem setB {f : Field} {b : Bool} (h : R.writes f.reg = true := by rfl) : Rings R (Act.setB f b) := Fits.setB h
theorem wrapBy {a n : Nat} (h : R.writes a = true := by rfl) : Rings R (Act.wrapBy a n) := Fits.wrapBy h
theorem wrap {a : Nat} (h : R.writes a = true := by rfl) : Rings R (Act.wrap a) := Fits.wrap h
theorem sat {a : Nat} (h : R.writes a = true := by rfl) : Rings R (Act.sat a) := Fits.sat h

theorem units {f : Units → Units} (h : ∀ u, f u = Units.only R.units u (f u) := by exact fun _ => rfl) :
    Rings R (.units f) := Fits.units fun u => Units.keeps_iff.2 (h u)

theorem raise {src : Nat} {record : List Byte} (h : (Reach.events [] []).sub R = true := by decide +kernel) :
    Rings R (Act.raise src record) := within (.raise (R := .events [] [])) h

theorem raiseOnce {src key : Nat} {record : List Byte} (h : (Reach.events [] []).sub R = true := by decide +kernel) :
    Rings R (Act.raiseOnce src key record) := within (.raiseOnce (R := .events [] [])) h

end Act.Rings

/-- A reach of the ring has room for what journaling a command touches. -/
theorem Reach.ring_foot : (Reach.ring [] []).ringed.Ring where
  regs a ha := by
    have hhas := Reach.has_of_covers (R := .events [] []) ha (by decide +kernel) (by decide +kernel)
    exact Reach.writes_mono (by decide +kernel) (Reach.writes_of_has (by decide +kernel) hhas)
  mem s a ha := by simp [Reach.ringed, ha]
  evt u f := Units.keeps_iff.2 rfl
  bt u f := Units.keeps_iff.2 rfl
  ring a ha := Reach.writes_of_has (by decide +kernel) (Reach.has_of_covers ha (by decide +kernel) (by decide +kernel))
  area s a ha := by simp [Reach.ringed, ha]
  hif u f := Units.keeps_iff.2 rfl
  pair u f := Units.keeps_iff.2 rfl

/-- The result of a command fits its block (R613). -/
def CmdResult.fits : CmdResult → Prop
  | .val _ => True
  | .block bs => bs.length ≤ 64

/-- R613: a result block lies among the result blocks. -/
theorem State.inHostRings_block {s : State} {p i x : Nat} (hp : p < 4096) (hi : i < 64)
    (h : ((s.reg HIF_CMD_BASE).toNat + 0x60000 + 64 * p + i) % 2 ^ 32 = x % 2 ^ 32) : s.inHostRings x = true := by
  have harea : inArea ((s.reg HIF_CMD_BASE).toNat + 0x60000) 0x40000 x = true :=
    inArea_of_offset (k := 64 * p + i) (by omega) (by decide) (by rw [← h]; congr 1; omega)
  rw [State.inHostRings, harea, Bool.or_true]

/-- R613: a completion lies in the completion ring. -/
theorem State.inHostRings_completion {s : State} {p i x : Nat} (hp : p < 4096) (hi : i < 32)
    (h : ((s.reg HIF_CPL_BASE).toNat + 32 * p + i) % 2 ^ 32 = x % 2 ^ 32) : s.inHostRings x = true := by
  have harea : inArea (s.reg HIF_CPL_BASE).toNat 0x20000 x = true :=
    inArea_of_offset (k := 32 * p + i) (by omega) (by decide) (by rw [← h]; congr 1; omega)
  rw [State.inHostRings, harea, Bool.or_true, Bool.true_or]

/-- Bytes stored in the host's rings. -/
theorem Reach.touches_memBytes {R : Reach} {s : State} {addr : Nat} {bs : List Byte}
    (h : ∀ i < bs.length, ∀ x, (addr + i) % 2 ^ 32 = x % 2 ^ 32 → s.inHostRings x = true) :
    R.ringed.Touches s ((Act.memBytes addr bs).run s) where
  reg _ _ := Act.memBytes_reg ..
  byte x hx := Act.memBytes_byte_ne addr bs s x fun i hi e =>
    absurd (h i hi x e) (Bool.eq_false_iff.1 (Bool.or_eq_false_iff.1 hx).2)
  units := by rw [Act.memBytes_u]; exact .refl _ _

namespace Act.Rings

variable {R : Reach}

theorem ringStatus : Rings (.ring [] []) Act.ringStatus := Foot.Ring.ringStatus Reach.ring_foot

theorem journal {c : HostCmd} {status : Nat} {final : Bool} : Rings (.ring [] []) (Act.journal c status final) :=
  Foot.Ring.journal Reach.ring_foot c status final

/-- Bytes of a result block, then those of its completion, then the rest. -/
theorem run_entry {s : State} {block entry : List Byte} {rest : Act} {p : Nat} (hp : p < 4096)
    (hblock : block.length ≤ 64) (hentry : entry.length = 32) (hrest : Rings R rest) :
    R.ringed.Touches s ((Act.seq (Act.memBytes ((s.reg HIF_CMD_BASE).toNat + 0x60000 + 64 * p) block)
      (.seq (Act.memBytes ((s.reg HIF_CPL_BASE).toNat + 32 * p) entry) rest)).run s) := by
  have hfirst := Reach.touches_memBytes (R := R) (s := s) (bs := block)
    fun i hi x => State.inHostRings_block hp (Nat.lt_of_lt_of_le hi hblock)
  have hsecond := Reach.touches_memBytes (R := R) (bs := entry) (addr := (s.reg HIF_CPL_BASE).toNat + 32 * p)
    (s := (Act.memBytes ((s.reg HIF_CMD_BASE).toNat + 0x60000 + 64 * p) block).run s) fun i hi x h => by
      rw [Reach.inHostRings_stable fun a _ => memBytes_reg _ _ s a]
      exact State.inHostRings_completion hp (hentry ▸ hi) h
  exact hfirst.trans (hsecond.trans (hrest _))

/-- R613: a completion and its result block lie in the completion ring. -/
theorem completionEntry {c : HostCmd} {status : Nat} {res : CmdResult} (hres : res.fits) :
    Rings (.ring [] []) (Act.completionEntry c status res) := fun s => by
  have hp : s.fld ⟨HIF_CPL_PROD, 0, 12⟩ < 4096 := s.fld_lt _
  rw [Act.completionEntry, Act.run_read]
  cases res with
  | val v =>
    dsimp only
    refine run_entry hp (Nat.zero_le _) ?_ (all (l := [_, _, _, _, _]) ?_)
    · simp
    · exact ⟨setF, units, ite units raiseOnce, setF, ringStatus⟩
  | block b =>
    dsimp only
    refine run_entry hp hres ?_ (all (l := [_, _, _, _, _]) ?_)
    · simp
    · exact ⟨setF, units, ite units raiseOnce, setF, ringStatus⟩

theorem complete {c : HostCmd} {status : Nat} {res : CmdResult} (hres : res.fits := by exact trivial) :
    Rings (.ring [] []) (Act.complete c status res) :=
  all ⟨when journal, read fun _ => when <| completionEntry hres, when sat, units⟩

/-- R615, R616: taking commands. -/
theorem journalNew {c : HostCmd} : Rings (.ring [] []) (Act.journalNew c) :=
  read fun _ => all ⟨within .recordInput, journal, units, when raise⟩

theorem takeOne : Rings (.ring [(HIF_CMD_HEAD, 1), (HIF_CMD_REFUSED, 1), (HIF_CMD_TAKEN, 1)] []) Act.takeOne :=
  read fun _ => by
    refine all ⟨setF, wrap, ?_, sub ringStatus⟩
    split
    · exact all ⟨sat, ite units raiseOnce, sub <| completionEntry trivial⟩
    · exact sub journalNew

theorem takeUpTo {n : Nat} :
    Rings (.ring [(HIF_CMD_HEAD, 1), (HIF_CMD_REFUSED, 1), (HIF_CMD_TAKEN, 1)] []) (Act.takeUpTo n) := by
  induction n with
  | zero => exact nop
  | succ n ih => exact read fun _ => when (seq takeOne ih)

theorem recoveryTake :
    Rings (.ring [(HIF_CMD_HEAD, 1), (HIF_CMD_REFUSED, 1), (HIF_CMD_TAKEN, 1)] []) Act.recoveryTake :=
  read fun _ => when (seq units takeUpTo)

/-! #### Commands -/

theorem hostCmd {i : Nat} {ok : Nat → Bool} {k : HostCmd → Act} (h : ∀ c, Rings R (k c)) :
    Rings R (Act.hostCmd i ok k) := read fun s => by
  split
  · exact nop
  · exact h _

theorem hostCmdDo {i : Nat} {ok : Nat → Bool} {k : HostCmd → State → Act × Nat × CmdResult}
    (h : ∀ c s, Rings R (k c s).1) (hres : ∀ c s, (k c s).2.2.fits := by exact fun _ _ => trivial)
    (hs : (Reach.ring [] []).sub R = true := by decide +kernel) : Rings R (Act.hostCmdDo i ok k) :=
  hostCmd fun c => read fun s => seq (h c s) (sub (complete (hres c s)) hs)

theorem completeSeq {seq status : Nat} : Rings (.ring [] []) (Act.completeSeq seq status) := read fun s => by
  split
  · exact nop
  · exact complete

theorem permitted {i : HostIface} {x : Nat} {a : Act} (h : Rings R a)
    (hs : (Reach.events accessRegs [.hif]).sub R = true := by decide +kernel) : Rings R (Act.permitted i x a) :=
  read fun _ => ite nop <| ite h (within .accessError hs)

/-! #### Programs that complete commands -/

theorem updDone {c : HostCmd} {n : Nat} : Rings (.ring [(BOOT_UPD_STAT, 1)] []) (Act.updDone c n) :=
  seq (within .updShow) (sub complete)

theorem imgDone {c : HostCmd} {n : Nat} : Rings (.ring [] []) (Act.imgDone c n) := complete

theorem imgCmd {index op : Nat} {k : HostCmd → State → Act} (h : ∀ c s, Rings R (k c s))
    (hs : (Reach.ring [] []).sub R = true := by decide +kernel) : Rings R (Act.imgCmd index op k) :=
  hostCmd fun c => read fun s => ite (sub imgDone hs) (h c s)

theorem campCmd {index op number : Nat} {ok : Nat → Bool} {k : HostCmd → State → Nat → Act}
    (h : ∀ c s r, Rings R (k c s r)) (hs : (Reach.ring [] []).sub R = true := by decide +kernel) :
    Rings R (Act.campCmd index op number ok k) := imgCmd (fun c s => by
  split
  · exact sub imgDone hs
  · exact ite (h _ _ _) (sub imgDone hs)) hs

theorem invalidKey {c : HostCmd} : Rings (.ring [(SEC_INVALID_KEY, 1)] []) (Act.invalidKey c) :=
  seq sat (sub complete)

theorem keyCmd {index op target : Nat} {k : HostCmd → Nat → State → Act} (h : ∀ c n s, Rings R (k c n s))
    (hs : (Reach.ring [] []).sub R = true := by decide +kernel) : Rings R (Act.keyCmd index op target k) :=
  hostCmd fun _ => read fun _ => when <| ite (sub complete hs) (h _ _ _)

theorem fetchSlot {n i : Nat} {upset : Bool} {bad : Act} {k : List Nat → Act} (hbad : Rings R bad)
    (hk : ∀ w, Rings R (k w))
    (hs : (Reach.events fetchRegs [.sec, .pair]).sub R = true := by decide +kernel) :
    Rings R (Act.fetchSlot n i upset bad k) :=
  read fun _ => ite hbad <| ite (seq (within .tear hs) hbad) (hk _)

theorem rcvEnd {result code : Nat} : Rings (.ring [(BOOT_RCV_STAT, 1)] [.boot]) (Act.rcvEnd result code) :=
  read fun _ => by
    refine all ⟨setB, setF, setF, units, ?_⟩
    split
    · exact nop
    · exact sub completeSeq

theorem rcvStart {op : Nat} {via : HostVia} :
    Rings (.ring ([(BOOT_RCV_REFUSED, 1), (BOOT_RCV_STAT, 1)] ++ accessRegs) [.boot])
      (Act.rcvStart op via fun _ => .nop) := by
  cases via with
  | register i => exact permitted <| read fun _ => ite sat <| ite setF <| all ⟨setB, units, nop⟩
  | ring i => exact hostCmd fun _ => read fun _ => ite (sub complete) <| all ⟨setB, units, nop⟩

theorem rcvRun {op arg : Nat} {bad : Option (List Byte)} :
    Rings (.ring [(BOOT_BSR, 1), (BOOT_RCV_STAT, 1)] [.boot]) (Act.rcvRun op arg bad) := read fun _ => by
  have ends {result code : Nat} :
      Rings (.ring [(BOOT_BSR, 1), (BOOT_RCV_STAT, 1)] [.boot]) (Act.rcvEnd result code) := sub rcvEnd
  dsimp only
  split
  · refine ite ends <| ite ends ?_
    split <;> exact seq units ends
  · split
    · exact ends
    · refine ite ends ?_
      split <;> exact seq (within .flash) ends
  · exact ite ends <| ite ends <| seq (within .bsrWrite) ends
  · exact ite ends <| ite ends <| seq (within .bsrWrite) ends
  · exact ends

end Act.Rings

end Sys2Proof.Machine

namespace Sys2Proof.Machine

set_option Elab.async false

open Sys2Proof Sys2Proof.Reg

/-! ### Table operations (R279, R280) -/

/-- Where an operation on a forwarding table shows. -/
def tableOpRegs : List (Nat × Nat) :=
  [(FWD_STATUS, 1), (FWD_TBLn_COUNT 0, 4), (FWD_TBLn_ECC_CORR 0, 4), (FWD_TBLn_ECC_UNC 0, 4), (FWD_TBLn_EVICT 0, 4),
    (FWD_TBLn_HIT 0, 4), (FWD_TBLn_LOOKUP 0, 4), (FWD_TBLn_NOSPACE 0, 4)]

/-- Where one shows that came in any of the three ways. -/
def tableViaRegs : List (Nat × Nat) :=
  [(BT_PEn_STAT 0, 16), (BT_PEn_TAGSTALL 0, 16), (FWD_CMD_REFUSED, 1), (FWD_CMD_STAT, 1)] ++ tableOpRegs ++ accessRegs

/-- R272: an entry found uncorrectable is dropped, or rewritten where it is static. -/
theorem Act.Within.tableEcc {n slot : Nat} :
    Within (.events tableOpRegs [.fwd]) (Act.tableEcc n slot) := .read fun _ => by
  refine .all ⟨.when <| .seq (.sub .entry) (.sub .tableCount), .when ?_, .sat Reach.has_array, .raise⟩
  split
  · exact .nop
  · exact .sub .entry

namespace Act.Rings

open Reach (has_array)

variable {R : Reach} {k : Nat → Nat → Nat → Entry → Act} (hk : ∀ st w b e, Rings R (k st w b e))
  (hs : (Reach.events tableOpRegs [.fwd]).sub R = true)
include hk hs

theorem tableInsert {n : Nat} {e : Entry} : Rings R (Act.tableInsert n e k) := by
  have put {slot : Nat} : Rings R (.seq (Act.entry n slot e) (Act.tableCount n)) :=
    within (R := .events tableOpRegs [.fwd]) (.seq (.sub .entry) (.sub .tableCount)) hs
  have noSpace : Rings R (Act.sat (FWD_TBLn_NOSPACE n)) :=
    within (R := .events tableOpRegs [.fwd]) (.sat has_array) hs
  have evict : Rings R (Act.sat (FWD_TBLn_EVICT n)) := within (R := .events tableOpRegs [.fwd]) (.sat has_array) hs
  have told {v : Nat} : Rings R (Act.raiseOnce 48 n (leBytes 1 v)) := raiseOnce (Reach.sub_trans hs)
  have lfsr {f : Fwd → Store Nat} : Rings R (Act.fwd fun x => { x with lfsr := f x }) :=
    within (R := .events tableOpRegs [.fwd]) .units hs
  refine read fun _ => ?_
  dsimp only
  split
  · exact seq put (hk _ _ _ _)
  · split
    · exact seq put (hk _ _ _ _)
    · split
      · exact all ⟨noSpace, told, hk _ _ _ _⟩
      · exact all ⟨when lfsr, evict, put, hk _ _ _ _⟩

theorem tableDelete {n key : Nat} {stamp : Option Nat} : Rings R (Act.tableDelete n key stamp k) := by
  have drop {slot : Nat} {e : Entry} : Rings R (Act.entry n slot e) :=
    within (R := .events tableOpRegs [.fwd]) (.sub .entry) hs
  have count : Rings R (Act.tableCount n) := within (R := .events tableOpRegs [.fwd]) (.sub .tableCount) hs
  refine read fun _ => ?_
  dsimp only
  split
  · exact hk _ _ _ _
  · exact ite (hk _ _ _ _) <| all ⟨drop, count, hk _ _ _ _⟩

/-- R279: what an operation touches, but for what takes its result. -/
theorem tableOp {direct : Bool} {op n : Nat} {e : Entry} {ecc : Option EccFault} :
    Rings R (Act.tableOp direct op n e ecc k) := by
  have lookup : Rings R (Act.wrap (FWD_TBLn_LOOKUP n)) := within (R := .events tableOpRegs [.fwd]) (.wrap has_array) hs
  have hit : Rings R (Act.wrap (FWD_TBLn_HIT n)) := within (R := .events tableOpRegs [.fwd]) (.wrap has_array) hs
  have corrected : Rings R (Act.sat (FWD_TBLn_ECC_CORR n)) :=
    within (R := .events tableOpRegs [.fwd]) (.sat has_array) hs
  have bad {slot : Nat} : Rings R (Act.tableEcc n slot) := within (R := .events tableOpRegs [.fwd]) .tableEcc hs
  have flush : Rings R (Act.tableFlush n) :=
    within (R := .events tableOpRegs [.fwd]) (.seq .units (.sub .tableCount)) hs
  refine read fun _ => ite (hk _ _ _ _) <| ite (hk _ _ _ _) <| ite (hk _ _ _ _) <| ite (hk _ _ _ _) <|
    ite (seq lookup ?_) <| ite (tableInsert (fun _ _ _ _ => hk _ _ _ _) hs) <|
    ite (ite (hk _ _ _ _) <| tableInsert (fun _ _ _ _ => hk _ _ _ _) hs) <| ite (tableDelete hk hs) <|
    ite (tableDelete hk hs) <| ite (hk _ _ _ _) <| ite (seq flush (hk _ _ _ _)) (hk _ _ _ _)
  split
  · exact hk _ _ _ _
  · split
    · exact seq bad (hk _ _ _ _)
    · exact all ⟨corrected, hit, hk _ _ _ _⟩
    · exact seq hit (hk _ _ _ _)

end Act.Rings

namespace Act.Rings

variable {R : Reach}

/-- R47: an operation an engine issues, which takes a slot where one is free. -/
theorem issueWith {pe thread : Nat} {k : Nat → Act} (hk : ∀ slot, Rings R (k slot))
    (hs : (Reach.quiet issueRegs [.bt]).sub R = true := by decide +kernel) :
    Rings R (Act.issueWith pe thread k) := by
  have engine {f : Engine → Engine} : Rings R (Act.engine pe f) :=
    within (R := .quiet issueRegs [.bt]) (.sub .engine) hs
  have stat : Rings R (Act.engineStat pe) := within (R := .quiet issueRegs [.bt]) (.sub .engineStat) hs
  have stall : Rings R (Act.wrap (BT_PEn_TAGSTALL pe)) :=
    within (R := .quiet issueRegs [.bt]) (.wrap Reach.has_array) hs
  refine read fun _ => when ?_
  split
  · exact all ⟨engine, when stall, stat⟩
  · exact all ⟨engine, hk _, stat⟩

theorem issueNow {pe thread cls : Nat} {k : (Nat → Nat → Nat → Act) → Act}
    (hk : ∀ f, (∀ status flags result, Rings R (f status flags result)) → Rings R (k f))
    (hs : (Reach.quiet issueRegs [.bt]).sub R = true := by decide +kernel) :
    Rings R (Act.issueNow pe thread cls k) :=
  issueWith (fun _ => hk _ fun _ _ _ => read fun _ => within (R := .quiet issueRegs [.bt]) (.sub .completion) hs) hs

/-- R279, R280: a table operation by the way it came. -/
theorem tableVia {via : Via} {op n : Nat} {ecc : Option EccFault} :
    Rings (.ring tableViaRegs [.freeCount, .accel, .fwd, .sch]) (Act.tableVia via op n ecc) := by
  cases via with
  | register i =>
    refine permitted <| read fun _ => ite sat <| all ⟨setB, setB, ?_⟩
    exact tableOp (fun _ _ _ _ => within (R := .quiet [] [.fwd]) .units) (by decide +kernel)
  | ring i =>
    have fits {r : Entry} {way b : Nat} :
        (CmdResult.block (leBytes 16 r.toNat ++ leBytes 1 way ++ leBytes 2 b)).fits := by simp [CmdResult.fits]
    exact hostCmd fun _ => when <| tableOp (fun _ _ _ _ => sub <| complete fits) (by decide +kernel)
  | engine pe t d out =>
    rw [Act.tableVia]
    refine issueNow fun done hdone => ?_
    exact tableOp (fun _ _ _ _ => seq (within .sram) (hdone _ _ _)) (by decide +kernel)

end Act.Rings

end Sys2Proof.Machine

namespace Sys2Proof.Machine

set_option Elab.async false

open Sys2Proof Sys2Proof.Reg

/-! ### The frames of the ring's commands -/

/-- A command stays within a reach in every state, but for what it writes in the host's rings. -/
def RunsRing (R : Reach) (c : Instr) : Prop := ∀ s, ∃ a, exec c s = .next (a.run s) ∧ Act.Rings R a

namespace RunsRing

open Act.Rings

/-- The frame of a command that completes in the ring. -/
theorem frame {R : Reach} {c : Instr} (h : RunsRing R c) {l : List (Nat × Nat)} (s : State)
    (hl : Reach.covers (l ++ ringRegs ++ eventRegs) R.spans = true := by decide +kernel) :
    Completes c s fun t => KeepsRing l s t ∧ t.u = Units.only R.units s.u t.u := by
  obtain ⟨a, hexec, hrings⟩ := h s
  have touched := hrings s
  refine ⟨_, hexec, ⟨fun x hx => touched.reg x ?_, fun x hevent hhost => touched.byte x ?_⟩,
    Units.keeps_iff.1 touched.units⟩
  · have hspan : inSpans R.spans x = false :=
      Bool.eq_false_iff.2 fun hb => Bool.eq_false_iff.1 hx (Reach.inSpans_of_covers hl hb)
    simp [Reach.ringed, Reach.writes, Reach.has, hspan]
  · simp [Reach.ringed, hevent, hhost]

/-! #### Table operations (R279) -/

section

variable {via : Via} {table : Fin 4}

theorem fwdLookup {ecc : Option EccFault} :
    RunsRing (.ring tableViaRegs [.freeCount, .accel, .fwd, .sch]) (.fwdLookup via table ecc) :=
  fun _ => ⟨_, rfl, tableVia⟩

theorem fwdInsert : RunsRing (.ring tableViaRegs [.freeCount, .accel, .fwd, .sch]) (.fwdInsert via table) :=
  fun _ => ⟨_, rfl, tableVia⟩

theorem fwdUpdate : RunsRing (.ring tableViaRegs [.freeCount, .accel, .fwd, .sch]) (.fwdUpdate via table) :=
  fun _ => ⟨_, rfl, tableVia⟩

theorem fwdDelete : RunsRing (.ring tableViaRegs [.freeCount, .accel, .fwd, .sch]) (.fwdDelete via table) :=
  fun _ => ⟨_, rfl, tableVia⟩

theorem fwdDeleteIfStamp :
    RunsRing (.ring tableViaRegs [.freeCount, .accel, .fwd, .sch]) (.fwdDeleteIfStamp via table) :=
  fun _ => ⟨_, rfl, tableVia⟩

theorem fwdReadSlot : RunsRing (.ring tableViaRegs [.freeCount, .accel, .fwd, .sch]) (.fwdReadSlot via table) :=
  fun _ => ⟨_, rfl, tableVia⟩

theorem fwdFlush : RunsRing (.ring tableViaRegs [.freeCount, .accel, .fwd, .sch]) (.fwdFlush via table) :=
  fun _ => ⟨_, rfl, tableVia⟩

theorem fwdDigest : RunsRing (.ring tableViaRegs [.freeCount, .accel, .fwd, .sch]) (.fwdDigest via table) :=
  fun _ => ⟨_, rfl, tableVia⟩

end

/-! #### Key commands (R378–R381) -/

section

variable {index : Fin 4096} {slot : Fin 1024}

theorem unwrapToSlot : RunsRing (.ring [(SEC_INVALID_KEY, 1), (SEC_ORPHANS, 1), (SEC_STATUS, 1), (SEC_TORN, 1),
    (SEC_UNWRAP_FAILS, 1)] [.sec]) (.unwrapToSlot index) :=
  fun _ => ⟨_, rfl, keyCmd fun _ _ _ => ite (sub invalidKey) <| ite (sub complete) <|
    fetchSlot (sub invalidKey) fun _ => by
      split
      · exact all ⟨sat, raise, sub complete⟩
      · exact within .slotWrite⟩

theorem deriveToSlot : RunsRing (.ring [(SEC_DERIVE, 1), (SEC_INVALID_KEY, 1), (SEC_ORPHANS, 1), (SEC_STATUS, 1),
    (SEC_TORN, 1)] [.sec]) (.deriveToSlot index) :=
  fun _ => ⟨_, rfl, keyCmd fun _ _ _ => ite (sub invalidKey) <| ite (sub complete) <|
    fetchSlot (sub invalidKey) fun _ => seq wrapBy (within .slotWrite)⟩

theorem restrict : RunsRing (.ring [(SEC_INVALID_KEY, 1), (SEC_STATUS, 1)] [.sec]) (.restrict index) :=
  fun _ => ⟨_, rfl, keyCmd fun _ _ _ => ite (sub invalidKey) <| ite (sub complete) <| within .slotWrite⟩

theorem erase : RunsRing (.ring [(SEC_STATUS, 1)] [.sec]) (.erase index) :=
  fun _ => ⟨_, rfl, keyCmd fun _ _ _ => ite (sub complete) <| within .slotWrite⟩

theorem slotPersistConfirmed {ok : Bool} :
    RunsRing (.ring [(SEC_STATUS, 1)] [.boot, .sec]) (.slotPersistConfirmed slot ok) :=
  fun _ => ⟨_, rfl, read fun _ => by
    split
    · exact nop
    · split
      · exact nop
      · refine when <| ite (seq units (within .slotDrain)) <| all ⟨units, units, raise, ?_⟩
        split
        · exact sub completeSeq
        · exact nop⟩

theorem slotDrainDone : RunsRing (.ring [(SEC_ORPHANS, 1), (SEC_STATUS, 1)] [.sec]) (.slotDrainDone slot) :=
  fun _ => ⟨_, rfl, read fun _ => by
    split
    · exact nop
    · refine when <| all ⟨units, within .putSlot, within .dropCached, within .orphanWalk, within .slotsValid, ?_⟩
      split
      · exact sub completeSeq
      · exact nop⟩

/-! #### Commissioning and update sessions (R559, R566) -/

theorem commissionDone : RunsRing (.ring [(BOOT_UPD_STAT, 1)] [.pwr, .boot]) (.commissionDone index) :=
  fun _ => ⟨_, rfl, hostCmd fun _ => read fun _ => seq (when <| within .commissionLeave) (sub updDone)⟩

theorem updateBegin {kind : UpdateKind} {length : BitVec 32} {tries : Fin 3} {sha : BitVec 256} :
    RunsRing (.ring [(BOOT_UPD_STAT, 1)] [.boot]) (.updateBegin index kind length tries sha) :=
  fun _ => ⟨_, rfl, hostCmd fun _ => read fun _ => ite (sub updDone) <| ite (sub updDone) <| ite (sub updDone) <|
    ite (sub updDone) <| seq (within .session) (sub updDone)⟩

theorem updateEnd : RunsRing (.ring [(BOOT_STATUS, 1), (BOOT_UPD_STAT, 1)] [.boot]) (.updateEnd index) :=
  fun _ => ⟨_, rfl, hostCmd fun _ => read fun _ => by
    split
    · exact sub updDone
    · exact ite (sub updDone) <| ite (sub updDone) <| all ⟨within .session, setB, sub updDone⟩⟩

theorem updateAbort : RunsRing (.ring [(BOOT_BSR, 1), (BOOT_UPD_STAT, 1)] [.boot]) (.updateAbort index) :=
  fun _ => ⟨_, rfl, hostCmd fun _ => read fun _ => by
    split
    · exact sub updDone
    · exact ite (sub updDone) <| all ⟨when <| within .bsrWrite, within .session, sub updDone⟩⟩

theorem updateActivate {beat : BitVec 32} :
    RunsRing (.ring [(BOOT_UPD_STAT, 1)] [.boot]) (.updateActivate index beat) :=
  fun _ => ⟨_, rfl, hostCmd fun _ => read fun _ => seq units (sub updDone)⟩

theorem updateConfirm {blown : BitVec 256} :
    RunsRing (.ring ([(BOOT_BSR, 1), (BOOT_STATUS, 1), (BOOT_UPD_STAT, 1)] ++ fuseBlowRegs) [.boot, .fuse])
      (.updateConfirm index blown) :=
  fun _ => ⟨_, rfl, hostCmd fun _ => read fun _ => ite (seq (within .confirmTrial) (sub updDone)) (sub updDone)⟩

end

/-! #### Recovery operations (R575) -/

section

variable {via : HostVia}

theorem rcvCheck : RunsRing (.ring ([(BOOT_RCV_REFUSED, 1), (BOOT_RCV_STAT, 1)] ++ accessRegs) [.boot])
    (.rcvCheck via) := fun _ => ⟨_, rfl, rcvStart⟩

theorem rcvWrite : RunsRing (.ring ([(BOOT_RCV_REFUSED, 1), (BOOT_RCV_STAT, 1)] ++ accessRegs) [.boot])
    (.rcvWrite via) := fun _ => ⟨_, rfl, rcvStart⟩

theorem rcvSetActive : RunsRing (.ring ([(BOOT_RCV_REFUSED, 1), (BOOT_RCV_STAT, 1)] ++ accessRegs) [.boot])
    (.rcvSetActive via) := fun _ => ⟨_, rfl, rcvStart⟩

theorem rcvReprovision : RunsRing (.ring ([(BOOT_RCV_REFUSED, 1), (BOOT_RCV_STAT, 1)] ++ accessRegs) [.boot])
    (.rcvReprovision via) := fun _ => ⟨_, rfl, rcvStart⟩

end

theorem rcvOpComplete {bad : Option (List Byte)} :
    RunsRing (.ring [(BOOT_BSR, 1), (BOOT_RCV_STAT, 1)] [.boot]) (.rcvOpComplete bad) :=
  fun _ => ⟨_, rfl, read fun _ => by
    split
    · exact nop
    · exact when rcvRun⟩

/-! #### Campaigns, the rings' indexes, and the commands of the device (R587, R614, R620) -/

section

variable {index : Fin 4096} {iface : HostIface} {value : BitVec 32}

theorem campaignTarget {number : BitVec 16} {add : Bool} {nodes : List (BitVec 24)} :
    RunsRing (.ring [] [.img]) (.campaignTarget index number add nodes) :=
  fun _ => ⟨_, rfl, campCmd fun _ _ _ => ite (sub imgDone) <| seq (within .runSet) (sub imgDone)⟩

theorem campaignQuery : RunsRing (.ring [] []) (.campaignQuery index) :=
  fun _ => ⟨_, rfl, imgCmd fun _ _ => complete⟩

theorem cmdDoorbell : RunsRing (.ring ([(HIF_CMD_HEAD, 1), (HIF_CMD_REFUSED, 1), (HIF_CMD_TAIL, 1),
    (HIF_CMD_TAKEN, 1)] ++ accessRegs) []) (.cmdDoorbell iface value) :=
  fun _ => ⟨_, rfl, permitted <| read fun _ => ite (within (R := .events accessRegs [.hif]) .accessError) <|
    all ⟨setF, units, sub ringStatus, sub recoveryTake⟩⟩

theorem cplConsume : RunsRing (.ring ([(HIF_CMD_HEAD, 1), (HIF_CMD_REFUSED, 1), (HIF_CMD_TAKEN, 1),
    (HIF_CPL_CONS, 1)] ++ accessRegs) []) (.cplConsume iface value) :=
  fun _ => ⟨_, rfl, permitted <| read fun _ => ite (within (R := .events accessRegs [.hif]) .accessError) <|
    all ⟨setF, sub ringStatus, sub recoveryTake⟩⟩

theorem nop : RunsRing (.ring [] []) (.nop index) := fun _ => ⟨_, rfl, hostCmdDo fun _ _ => Act.Rings.nop⟩

theorem joinControl : RunsRing (.ring [(MAC_JOIN, 1), (MAC_STATUS, 1)] []) (.joinControl index) :=
  fun _ => ⟨_, rfl, hostCmdDo fun _ _ => seq setF <| read fun _ => seq setB setB⟩

theorem timeOfDay : RunsRing (.ring [] [.tk]) (.timeOfDay index) :=
  fun _ => ⟨_, rfl, hostCmdDo fun _ _ => units⟩

end

end RunsRing

/-- Settles O49: each command runs a program that stays within a reach of the ring, whose frame is `RunsRing.frame`. -/
theorem frameRing : Obligations.FrameRing := by
  unfold Obligations.FrameRing
  exact ⟨
    fun s _ _ _ => RunsRing.fwdLookup.frame s,
    fun s _ _ => RunsRing.fwdInsert.frame s,
    fun s _ _ => RunsRing.fwdUpdate.frame s,
    fun s _ _ => RunsRing.fwdDelete.frame s,
    fun s _ _ => RunsRing.fwdDeleteIfStamp.frame s,
    fun s _ _ => RunsRing.fwdReadSlot.frame s,
    fun s _ _ => RunsRing.fwdFlush.frame s,
    fun s _ _ => RunsRing.fwdDigest.frame s,
    fun s _ => RunsRing.unwrapToSlot.frame s,
    fun s _ => RunsRing.deriveToSlot.frame s,
    fun s _ => RunsRing.restrict.frame s,
    fun s _ => RunsRing.erase.frame s,
    fun s _ _ => RunsRing.slotPersistConfirmed.frame s,
    fun s _ => RunsRing.slotDrainDone.frame s,
    fun s _ => RunsRing.commissionDone.frame s,
    fun s _ _ _ _ _ => RunsRing.updateBegin.frame s,
    fun s _ => RunsRing.updateEnd.frame s,
    fun s _ => RunsRing.updateAbort.frame s,
    fun s _ _ => RunsRing.updateActivate.frame s,
    fun s _ _ => RunsRing.updateConfirm.frame s,
    fun s _ => RunsRing.rcvCheck.frame s,
    fun s _ => RunsRing.rcvWrite.frame s,
    fun s _ => RunsRing.rcvSetActive.frame s,
    fun s _ => RunsRing.rcvReprovision.frame s,
    fun s _ => RunsRing.rcvOpComplete.frame s,
    fun s _ _ _ _ => RunsRing.campaignTarget.frame s,
    fun s _ => RunsRing.campaignQuery.frame s,
    fun s _ _ => RunsRing.cmdDoorbell.frame s,
    fun s _ _ => RunsRing.cplConsume.frame s,
    fun s _ => RunsRing.nop.frame s,
    fun s _ => RunsRing.joinControl.frame s,
    fun s _ => RunsRing.timeOfDay.frame s⟩

end Sys2Proof.Machine
